-- ==== Sys2Proof/Word.lean ====
section
/-! DEFINITION. The word types of the Corovar model: bytes, units, rows, core addresses. -/

namespace Sys2Proof

/-- One byte. -/
abbrev Byte := BitVec 8

/-- A 32-bit word: instruction words, general registers. -/
abbrev W32 := BitVec 32

/-- A 16-byte data unit of the Rose (R134). -/
abbrev Unit16 := BitVec 128

/-- A 64-byte scratchpad row (R114) or HBM atom (R165), byte 0 in the low bits. -/
abbrev Row := BitVec 512

/-- A vector register of 32 bytes (R75), byte 0 in the low bits. -/
abbrev VReg := BitVec 256

/-- A logical core address: ten base-4 digits, d9 in the high bits (R7). -/
abbrev CoreAddr := BitVec 20

/-- What a read of host memory returned: its bytes, an error status, or a poisoned completion (R202, R225). -/
inductive HostData where
  | bytes (b : List Byte)
  | error
  | poisoned
  deriving DecidableEq, Repr

/-- The bytes that came, none of a completion that failed. -/
def HostData.get? : HostData → Option (List Byte)
  | .bytes b => some b
  | .error => none
  | .poisoned => none

/-- Digit `n` of a core address (R7). -/
def digit (c : CoreAddr) (n : Nat) : Nat := (c.toNat >>> (2 * n)) % 4

end Sys2Proof
end

