-- ==== Sys2Proof/Syntax.lean ====
section
/-! DEFINITION. The commands of the block, one constructor per row of the opcode table, and their operand types. -/

namespace Sys2Proof

/-- Who makes a register access: a PCIe port, or Helm firmware on a processor (R19, R20). -/
inductive Src where
  | port (p : Fin 2)
  | helm (die : Fin 8) (proc : Fin 4)
  deriving DecidableEq, Repr

/-- The function a doorbell write comes through: a port's PF or one of its VFs (R218, R220). -/
inductive Via where
  | pf (p : Fin 2)
  | vf (p : Fin 2) (vf : Nat)
  deriving DecidableEq, Repr

/-- What the ECC check of a read finds: nothing, some corrected words, or an uncorrectable error
(R123, R126, R177, R178, R293). -/
inductive Ecc where
  | clean
  | corrected (words : Nat)
  | uncorrectable
  deriving DecidableEq, Repr

/-- Fields of a port's configuration space that the spec names: ATS Enable, the encodings of Max Payload Size and Max Read
Request Size, the tag width enabled (0 for 8 bits, 1 for 10, 2 for 14), the BAR and the offsets of the MSI-X capability (R216,
R219), and whether a capability is there. -/
inductive ConfField where
  | atsEnable
  | maxPayload
  | maxReadRequest
  | tagWidth
  | vfEnable
  | numVfs
  | msixTable
  | msixPba
  /-- MSI-X Enable and Function Mask of the PF, or of a VF (R219, R220, R387). -/
  | msixEnable (vf : Option Nat)
  | msixMask (vf : Option Nat)
  /-- The enables of PRI and PASID, and the error status of AER, a bit for each kind of R225. -/
  | priEnable
  | pasidEnable
  | aerStatus
  | cap (n : Fin 23)
  deriving DecidableEq, Repr

/-- What an access addresses: the setup registers, through BAR0 or by Helm firmware, the PF's BAR2, BAR0 or BAR2 of a VF, or
a field of the configuration space (R216, R218, R220). -/
inductive Space where
  | bar0
  | bar2
  | vfBar0 (vf : Nat)
  | vfBar2 (vf : Nat)
  | config (f : ConfField)
  deriving DecidableEq, Repr

/-- What the read of an HBM atom finds: the corrections that the stack reports, and what the controller's own code finds
(R177, R178). -/
structure AtomEcc where
  onDie : Nat
  ecc : Ecc
  deriving DecidableEq, Repr

/-- A read that finds nothing. -/
def AtomEcc.clean : AtomEcc := ⟨0, .clean⟩

/-- An element that sleeps and wakes (R161). -/
inductive Elem where
  | core (c : CoreAddr)
  | router (level : Fin 11) (index : Nat)
  deriving DecidableEq, Repr

/-- One Rose packet: the fields of its header unit (R142), its extension unit (R146), its data units. -/
structure Packet where
  up : BitVec 4
  target : CoreAddr
  cmd : BitVec 8
  ctx : BitVec 10
  count : BitVec 6
  tag : BitVec 16
  /-- Bits [95:64] of the header, whose layout depends on the command and the target kind. -/
  var : BitVec 32
  /-- The route writes that a START names, which R143 puts into bits that R142 gives its MASK (log 31). -/
  routes : BitVec 6
  src : CoreAddr
  skind : BitVec 2
  tkind : BitVec 2
  t : Bool
  cnt : Bool
  ack : Bool
  bulk : Bool
  ext : Bool
  /-- The extension unit, when `ext` is set. -/
  xu : BitVec 128
  data : List Unit16
  deriving DecidableEq, Repr

/-- A party of one core that can wait on a row's tag or lose a row's arbitration (R116, R119): the sequencer, stage R, the
head of the inbound write buffer, a READ at the NI, the engines that read and write its rows. -/
inductive Waiter where
  | seq
  | stream
  | inbound
  | read (p : Packet)
  /-- The flag that descriptor `i` of a context reads, a WAIT or a SIGNAL (R119, R249). -/
  | flag (ctx i row : Nat)
  /-- Engines' accesses that have lost a row's grant (R116). -/
  | engine (row : Nat)
  deriving DecidableEq, Repr

/-- What can start a retraining by itself (R183): a command parity error, a write that has met a CRC error so many times in
a row, a temperature reading. -/
inductive RetrainCause where
  | commandParity
  | writeCrc (times : Nat)
  | temperature (deg : Nat)
  deriving DecidableEq, Repr

/-- The code of a Page Response (R199). -/
inductive PageCode where
  | success
  | invalid
  | failure
  deriving DecidableEq, Repr

/-- Events that lose a port's link (R230). -/
inductive LinkEvent where
  | dlDown
  | hotReset
  | linkDisable
  | perst
  | d3hot
  deriving DecidableEq, Repr

/-- A DSP slice of a die (R283). -/
structure SliceId where
  die : Fin 8
  n : Fin 8192
  deriving DecidableEq, Repr

/-- The fabric inputs of a DSP slice in one cycle (R301). -/
structure DspIn where
  ia : BitVec 24
  ib : BitVec 24
  id : BitVec 24
  iv : Bool
  deriving DecidableEq, Repr

/-- One access through a block RAM port: the byte address that its width aligns, and for a write its data, in the low bits
(R291). -/
structure BramAcc where
  write : Bool
  read : Bool
  addr : Fin 4096
  data : BitVec 64
  deriving DecidableEq, Repr

/-- An entry of a tile-port FIFO (R304, R305): HDR, HALF and 32 bytes. -/
structure FifoE where
  hdr : Bool
  half : Bool
  data : BitVec 256
  deriving DecidableEq, Repr

/-- The actions a second Helm processor must agree to (R377). -/
inductive CheckedAction where
  | spareMap
  | vaultWrite
  | windowCopy
  | partitionRelease
  deriving DecidableEq, Repr

/-- What starts a module reset (R401, R422). -/
inductive ResetCause where
  | powerOn
  | mgmt
  | pkgReset
  | switchOpened
  deriving DecidableEq, Repr

/-- The orders of the start sequence (R393). -/
inductive StartPhase where
  | p1 | p2 | p3 | p4 | p5 | p6a | p6b | p6c | p6d | p6e | p7 | p8 | p9
  deriving DecidableEq, Repr

/-- A record of the vault (R335, R338): the Chart of a die, the records of the current and of the pending attestation key, the
identity record, the wrap record of a die, a stream key slot, the counters, the variant record. -/
inductive VaultRec where
  | chart (die : Fin 8)
  | attestation
  | pendingKey
  | identity
  | wrap (die : Fin 8)
  | slot (n : Fin 16)
  | counters
  | variant
  deriving DecidableEq, Repr

/-- What a phase of the start finds in the silicon: PUF patterns that could not be corrected and vault records with no valid copy
left (R338, R339),
the number of dies that answer (R392), stacks that failed their training or their march test (R396). -/
inductive StartFinding where
  | nothing
  | puf (failed : BitVec 8) (lost : List VaultRec)
  | answering (dies : Nat)
  | stacks (training march : BitVec 16)
  deriving DecidableEq, Repr

/-- The part of the silicon a Sounding test found failing (R396). -/
inductive SoundPart where
  | matrix
  | vector
  | sequencer
  | ni
  | row (r : Fin 66)
  | router (level : Nat) (index : Nat)
  deriving DecidableEq, Repr

/-- One failure found by Sounding: physical core `p` of spare group `g` of the die, and the part. -/
structure SoundFail where
  g : Nat
  p : Nat
  part : SoundPart
  deriving DecidableEq, Repr

/-- The lane order read in the training words (R406). -/
inductive LaneOrder where
  | straight
  | reversed
  | other
  deriving DecidableEq, Repr

/-- What DETECT and the exchange with the far end show (R406, R407): transmitter shorts by the lanes that this end drives, the rest
by the lanes that it receives; `far` are the logical lanes that the far end finds bad. -/
structure DetectResult where
  open_ : BitVec 8
  shortGnd : BitVec 8
  shortVcc : BitVec 8
  inverted : BitVec 8
  order : LaneOrder
  peerPkg : BitVec 16
  peerDie : BitVec 3
  peerPort : BitVec 2
  peerWidth : Nat
  peerValid : Bool
  far : BitVec 8
  deriving DecidableEq, Repr

/-- What a dwell shows: the bit errors that this end's receivers count, lane by lane, the lanes that the far end finds over its own
limit, and whether the far end agrees to a higher rung (R406, R408). -/
structure DwellResult where
  errs : List Nat
  far : BitVec 8
  climb : Bool
  deriving DecidableEq, Repr

/-- A die whose interrupt controller may sleep, and its processors that wait in their sleep instruction (R390). -/
structure SleepSeen where
  die : Fin 8
  waits : List (Fin 4)
  deriving DecidableEq, Repr

/-- A core's command that touches scratchpad rows, and whether its grant is lost to another access in the step (R116). -/
structure CoreTry where
  core : CoreAddr
  lost : Bool
  deriving DecidableEq, Repr

/-- What the row arbiter and the ECC of the rows do in a command: which of its accesses lose their rows' grants (R116), what
each row read shows. -/
structure RowTry where
  lost : List Bool
  ecc : List Ecc
  deriving DecidableEq, Repr

/-- What the row arbiter and the ECC of the atoms do in a command. -/
structure AtomTry where
  lost : Bool
  ecc : List AtomEcc
  deriving DecidableEq, Repr

/-- What an engine's reads of device memory meet, row by row of a scratchpad range and atom by atom of HBM, in their order:
what the ECC of each finds, and which rows' grants the arbiter gives to the core (R116, R123, R177). -/
structure DevSeen where
  rows : List Ecc
  lost : List Bool
  atoms : List AtomEcc
  deriving DecidableEq, Repr

/-- Reads that meet nothing. -/
def DevSeen.clean : DevSeen := ⟨[], [], []⟩

/-- A descriptor's slot, a transfer's or a pass record's number, and what the reads of the command meet. -/
structure SlotSeen where
  i : Nat
  dev : DevSeen
  deriving DecidableEq, Repr

/-- What a read of a descriptor as it begins shows: the bytes that host memory or the fabric answers with, and what a read in
the device meets. -/
structure FlagSeen where
  data : HostData
  dev : DevSeen
  deriving DecidableEq, Repr

/-- A clock source of a die whose ready condition holds from now on, or no longer holds (R354). -/
structure ClkSeen where
  clk : Fin 4
  ready : Bool
  deriving DecidableEq, Repr

/-- A function of a port: the PF or a VF. -/
structure PcieFn where
  port : Fin 2
  vf : Option Nat
  deriving DecidableEq, Repr

/-- A DOE request at a port's mailbox: the header's vendor and type, and the index of a Discovery request (R217). -/
structure DoeFrame where
  port : Fin 2
  vendor : BitVec 16
  type : BitVec 8
  index : BitVec 8
  deriving DecidableEq, Repr

/-- A place in a function's registers. -/
structure RegPlace where
  space : Space
  off : BitVec 28
  deriving DecidableEq, Repr

/-- What starts a Sallan retraining (R411). -/
inductive RetrainTrig where
  | command (src : Src)
  | replays
  | lostLock (lane : Fin 8)
  | short (lane : Fin 8) (supply : Bool)
  deriving DecidableEq, Repr

/-- Conditions that open the hot-swap switch (R422). -/
inductive OffCause where
  | undervolt
  | overvolt
  | overcurrent
  | outshort
  | thermal
  | sense
  deriving DecidableEq, Repr

/-- The commands. The docstring of each constructor names its row of the table and the rule. -/
inductive Instr where
  /-- NOP (R94). The core sequencer issues a NOP, which does nothing for one step. -/
  | nop (c : CoreAddr)
  /-- ALU (R94). The scalar unit computes FN of two general registers into gd. -/
  | alu (c : CoreAddr)
  /-- ALUI (R94). The scalar unit computes FN of a general register and a sign-extended immediate into gd. -/
  | alui (c : CoreAddr)
  /-- MOVI (R94). MOVI writes an immediate into gd, either sign-extended or into the upper half. -/
  | movi (c : CoreAddr)
  /-- BR (R94). BR compares two registers under COND and jumps to TARGET when the condition holds. -/
  | br (c : CoreAddr)
  /-- RDNF (R96). RDNF copies NFLAGS into a general register. -/
  | rdnf (c : CoreAddr)
  /-- CLNF (R59). CLNF clears every NFLAGS bit that is 1 in gs. -/
  | clnf (c : CoreAddr)
  /-- SRSEED (R58). SRSEED sets the rounding generator G from a register, with 0 taken as 1. -/
  | srseed (c : CoreAddr)
  /-- SETA (R91). SETA writes all fields of an address register and reduces ROW modulo the buffer length. -/
  | seta (c : CoreAddr)
  /-- GETA (R94). GETA copies an address register into a general register. -/
  | geta (c : CoreAddr)
  /-- ADVA (R92). ADVA advances ROW by n rows modulo the buffer length and sets BYTE to 0. -/
  | adva (c : CoreAddr)
  /-- RDSP (R96). RDSP reads a special value such as a loop counter, RRB, ARRV, STEPS, CID or the search state. -/
  | rdsp (c : CoreAddr)
  /-- WRSP (R96). WRSP writes a writable special value, is ignored for read-only selectors, and faults for reserved ones. -/
  | wrsp (c : CoreAddr)
  /-- VBC (R96). VBC broadcasts a general register into every lane of a vector register. -/
  | vbc (c : CoreAddr)
  /-- VEXT (R96). VEXT copies one lane of a vector register into a general register. -/
  | vext (c : CoreAddr)
  /-- VMOV (R96). VMOV copies one vector register to another. -/
  | vmov (c : CoreAddr)
  /-- LOOP (R104). LOOP opens a loop on lc0 or lc1 over the next LEN instructions, optionally rotating and stage-predicated. -/
  | loop (c : CoreAddr)
  /-- YIELD (R101). YIELD lets a latched stop take effect in a yield-mode context, omitting the state that the DEAD mask names. -/
  | yield (c : CoreAddr)
  /-- HALT (R103). HALT waits for earlier instructions and an empty outbound queue, sends PASS_DONE and leaves the core idle. -/
  | halt (c : CoreAddr)
  /-- SLD (R97). SLD reads a scratchpad unit or row into vector registers, raw or tag-checked. -/
  | sld (c : CoreAddr) (lost : Bool) (ecc : Ecc)
  /-- SST (R97). SST writes vector registers into a scratchpad unit or row, raw or tag-checked. -/
  | sst (c : CoreAddr) (lost : Bool)
  /-- TSET (R98). TSET sets the tags of n consecutive rows to FULL. -/
  | tset (c : CoreTry)
  /-- TCLR (R98). TCLR sets the tags of n consecutive rows to EMPTY. -/
  | tclr (c : CoreTry)
  /-- LDS (R62). LDS issues a load-stationary into the stream unit's queue. -/
  | lds (c : CoreAddr)
  /-- STRM (R65). STRM issues a stream of 1 to 64 vectors into the stream unit's queue. -/
  | strm (c : CoreAddr)
  /-- DRN (R71). DRN queues a drain of an accumulator group to a vector register. -/
  | drn (c : CoreAddr)
  /-- ACCI (R72). ACCI queues the combination of four save words into an accumulator group. -/
  | acci (c : CoreAddr)
  /-- VADD (R75). VADD adds lanes and rounds once. -/
  | vadd (c : CoreAddr)
  /-- VSUB (R75). VSUB subtracts lanes and rounds once. -/
  | vsub (c : CoreAddr)
  /-- VMUL (R75). VMUL multiplies lanes and rounds once. -/
  | vmul (c : CoreAddr)
  /-- VFMA (R75). VFMA computes a·b + c per lane and rounds once. -/
  | vfma (c : CoreAddr)
  /-- VMIN (R75). VMIN takes the lane-wise minimum, with −0 ordered below +0. -/
  | vmin (c : CoreAddr)
  /-- VMAX (R75). VMAX takes the lane-wise maximum, with −0 ordered below +0. -/
  | vmax (c : CoreAddr)
  /-- VCMP (R75). VCMP writes a lane comparison mask to a general register. -/
  | vcmp (c : CoreAddr)
  /-- VEXP2 (R56). VEXP2 computes exp2 per lane. -/
  | vexp2 (c : CoreAddr)
  /-- VRCP (R56). VRCP computes the reciprocal per lane. -/
  | vrcp (c : CoreAddr)
  /-- VRSQ (R56). VRSQ computes the reciprocal square root per lane. -/
  | vrsq (c : CoreAddr)
  /-- VCVT (R75). VCVT narrows or widens lanes between the lane formats and the narrow formats, with OVF and SR. -/
  | vcvt (c : CoreAddr)
  /-- VSCL (R55). VSCL divides lanes by a scale s and rounds once. -/
  | vscl (c : CoreAddr)
  /-- VSCM (R75). VSCM multiplies lanes by a scale s and rounds once. -/
  | vscm (c : CoreAddr)
  /-- VEXPX (R53). VEXPX forms E8M0 scale codes by exponent extraction. -/
  | vexpx (c : CoreAddr)
  /-- VSRCH (R77). VSRCH updates the min or max search state with index over the lanes of a register. -/
  | vsrch (c : CoreAddr)
  /-- VECTOR_RESULT_WRITE (R75). A vector instruction or drain writes its destination register when its latency has elapsed, releasing waiting readers. -/
  | vectorResultWrite (c : CoreAddr) (k : Nat)
  /-- SEND (R99). SEND builds a write packet from scratchpad rows and queues it along a route entry. -/
  | send (c : CoreAddr) (rows : RowTry)
  /-- SENDV (R99). SENDV builds a write packet from a vector register and queues it along a route entry. -/
  | sendv (c : CoreAddr)
  /-- RECV (R100). RECV waits until ARRV reaches gs and then subtracts gs. -/
  | recv (c : CoreAddr)
  /-- TALLY (R100). TALLY sends a tally packet with value gs and count 1. -/
  | tally (c : CoreAddr)
  /-- TWAIT (R100). TWAIT waits until TCNT reaches gs, then returns TSUM, clears TSUM and reduces TCNT. -/
  | twait (c : CoreAddr)
  /-- STREAM_VECTOR_ENTER_A (R61). A stream vector or load-stationary leaves its queue wait and enters stage A, where it runs the cells or broadcasts the tile. -/
  | streamVectorEnterA (c : CoreAddr) (rows : RowTry) (parityOk : Bool)
  /-- ACCUMULATOR_COMBINE (R46). Stage C combines column results into the named accumulator group. -/
  | accumulatorCombine (c : CoreAddr) (parityOk : Bool)
  /-- DRAIN_READ (R71). A drain enters DR after the last C step of its group, then scales, rounds and writes its output. -/
  | drainRead (c : CoreAddr) (parityOk : Bool)
  /-- STAGE_WATCHDOG_TIMEOUT (R81). A stage handshake exceeds YLD_STAGE_WDOG.LIMIT and raises a fault or is only counted. -/
  | stageWatchdogTimeout (c : CoreAddr)
  /-- TAG_WAIT_RETRY (R119). A tag-checked access that was waiting retries in the step after its row's tag changes. -/
  | tagWaitRetry (c : CoreAddr) (w : Waiter) (rows : RowTry)
  /-- ROW_ARBITER_DEFERRED_GRANT (R116). An access that lost the same-row arbitration is granted in the next step. -/
  | rowArbiterDeferredGrant (c : CoreAddr) (w : Waiter) (ecc : List Ecc)
  /-- PREEMPT_STOP (R80). A stop request reaches a core's sequencer and stream unit, halting issue while issued work drains. -/
  | preemptStop (c : CoreAddr)
  /-- CORE_QUIET_SAVE (R111). The core reports quiet and writes its save image. -/
  | coreQuietSave (c : CoreAddr) (ecc : List Ecc) (parityOk : Bool)
  /-- YIELD_LIMIT_EXPIRE (R101). The yield limit passes and a latched stop takes effect at the next instruction boundary with a full save. -/
  | yieldLimitExpire (c : CoreAddr)
  /-- CORE_RESTORE (R112). A restore writes the save image back, requeues the stream record and continues from PC. -/
  | coreRestore (c : CoreAddr) (readable : Bool)
  /-- BRAKE_APPLY (R83). The brake freezes a region's handshakes within one step. -/
  | brakeApply (die : Fin 8) (k : Fin 8)
  /-- BRAKE_RELEASE (R368). The brake is released after the current stays below 80 % of the limit for BRAKE_HOLD, and held handshakes complete. -/
  | brakeRelease (die : Fin 8) (k : Fin 8)
  /-- WRITE (R142). A WRITE packet arrives at a core or tile port and is applied, refused or held on a tag. -/
  | write (p : Packet) (lost : Bool)
  /-- READ (R143). A READ packet arrives and is answered with READ_DATA. -/
  | read (p : Packet) (rows : RowTry)
  /-- IBUF_WRITE (R108). An IBUF_WRITE packet writes 64 instruction words into a core's instruction buffer. -/
  | ibufWrite (p : Packet) (c : CoreAddr)
  /-- ROUTE_WRITE (R148). A ROUTE_WRITE stores a route entry, checked and possibly stored as not valid. -/
  | routeWrite (p : Packet) (c : CoreAddr)
  /-- START (R109). A START packet arrives and is held until the program words and route writes are in. -/
  | start (p : Packet) (c : CoreAddr)
  /-- PROGRAM_LOAD (R109). A core whose held START has all its words and route writes loads the program and resets its state. -/
  | programLoad (c : CoreAddr)
  /-- STOP (R143). A STOP packet on the response channel delivers a stop request to a core. -/
  | stop (p : Packet) (c : CoreAddr)
  /-- MASK_WRITE (R144). A MASK_WRITE writes the masked bytes of one row or 64-B block. -/
  | maskWrite (p : Packet) (atoms : AtomTry)
  /-- MEM_WRITE (R168). A MEM_WRITE is accepted at a hub endpoint or tile port and enters its write queue or FIFO. -/
  | memWrite (p : Packet) (ecc : List AtomEcc)
  /-- MEM_READ (R169). A MEM_READ is accepted and answered with the last accepted write's bytes. -/
  | memRead (p : Packet) (ecc : List AtomEcc)
  /-- READ_DATA (R143). A READ_DATA answer arrives at its requester and settles a read. -/
  | readData (p : Packet)
  /-- FAULT_REPORT (R143). A FAULT_REPORT reaches the Helm mailbox and raises its interrupt source. -/
  | faultReport (p : Packet)
  /-- TALLY_ARRIVAL (R145). A tally packet reaches its collector, which adds its fields into TSUM and TCNT or the tile port's sums. -/
  | tallyArrival (p : Packet)
  /-- ANSWER (R158). An ANSWER reaches its source and settles pieces or adds refusal counts. -/
  | answer (p : Packet)
  /-- PASS_DONE (R250). A PASS_DONE reaches the launching engine, which counts cores done toward retirement. -/
  | passDone (p : Packet)
  /-- ROUTER_FORWARD (R138). A router passes a header up or down, copies multicast, or refuses with ABS or DEN. -/
  | routerForward (i : Nat)
  /-- TALLY_HOLD_EXPIRE (R159). An open tally slot's hold of H steps ends and it competes for its output. -/
  | tallyHoldExpire (i : Nat)
  /-- CORE_SLEEP (R161). An idle core with no packet for SLEEP_IDLE goes to sleep. -/
  | coreSleep (c : CoreAddr)
  /-- ROUTER_SLEEP (R161). A quiet router with every element below it asleep goes to sleep. -/
  | routerSleep (level : Fin 11) (index : Nat)
  /-- WAKE (R162). A header reaches a sleeping router or core and wakes it. -/
  | wake (e : Elem)
  /-- WAKE_DONE (R162). A woken element becomes awake and accepts the waiting header. -/
  | wakeDone (e : Elem)
  /-- CORE_BLEACH_DONE (R130). A core finishes its 33-step core-side Bleach and reports done. -/
  | coreBleachDone (c : CoreAddr)
  /-- HBM_BLEACH_DONE (R130). An HBM controller finishes zero-filling its share of a context's areas. -/
  | hbmBleachDone (x : Fin 1024) (stack : Fin 16)
  /-- HBM_WRITE_QUEUE_DRAIN (R170). A pseudo-channel write queue drains to the stack on fill level, idleness or age. -/
  | hbmWriteQueueDrain (stack : Fin 16) (pc : Fin 64)
  /-- HBM_REFRESH (R174). The per-bank refresh interval expires and the bank is refreshed. -/
  | hbmRefresh (stack : Fin 16) (pc : Fin 64) (bank : Fin 64)
  /-- HBM_NEIGHBOUR_REFRESH (R175). A neighbour refresh drawn at an activate is carried out before the next activate or within 1 µs. -/
  | hbmNeighbourRefresh (stack : Fin 16) (pc : Fin 64) (bank : Fin 64)
  /-- HBM_SCRUB_READ (R179). A scrub read checks and corrects or poisons one atom. -/
  | hbmScrubRead (stack : Fin 16) (atom : Nat) (ecc : AtomEcc)
  /-- HBM_FREQ_REQ (R181). A GO on HBM_FREQ_REQ starts a stack rate change. -/
  | hbmFreqReq (src : Src) (stack : Fin 16) (value : BitVec 32)
  /-- HBM_FREQ_CHANGE_DONE (R181). A stack completes its rate change and returns to READY. -/
  | hbmFreqChangeDone (stack : Fin 16)
  /-- HBM_RETRAIN_REQ (R183). A GO on HBM_RETRAIN_REQ starts a stack retraining. -/
  | hbmRetrainReq (src : Src) (stack : Fin 16) (value : BitVec 32)
  /-- HBM_RETRAIN_TRIGGER (R183). Sixteen interface errors in 1 ms or a 20 °C temperature move starts a retraining. -/
  | hbmRetrainTrigger (stack : Fin 16) (cause : RetrainCause)
  /-- HBM_RETRAIN_DONE (R184). A retraining ends, returning the stack to READY or repeating, with LOST after three failures. -/
  | hbmRetrainDone (stack : Fin 16) (ok : Bool)
  /-- DESCRIPTOR_FETCH (R240). A RUNNING context reads an available ring slot, checks GEN and keeps the fetched copy. -/
  | descriptorFetch (x : Fin 1024) (slot : HostData)
  /-- RING_POLL (R240). The poll interval expires and a mismatched slot is read again. -/
  | ringPoll (x : Fin 1024) (slot : HostData)
  /-- DESC_NOP (R248). A NOP descriptor completes with OK. -/
  | descNop (x : Fin 1024) (i : Nat)
  /-- XFER (R191). An XFER descriptor begins a shaped transfer, checked under R192. -/
  | xfer (x : Fin 1024) (i : Nat) (shape : FlagSeen)
  /-- LAUNCH (R250). A LAUNCH writes its pass record and sends a program image to its core set. -/
  | launch (x : Fin 1024) (slot : SlotSeen)
  /-- WAIT (R249). A WAIT begins and reads its flag or a context's RETIRED_SEQ. -/
  | wait (x : Fin 1024) (i : Nat) (flag : FlagSeen)
  /-- WAIT_POLL (R249). A WAIT rereads its flag at the poll interval or after a SIGNAL to the same address. -/
  | waitPoll (x : Fin 1024) (i : Nat) (flag : FlagSeen)
  /-- SIGNAL (R249). A SIGNAL writes or adds VALUE to its flag once every earlier descriptor has completed. -/
  | signal (x : Fin 1024) (i : Nat) (flag : FlagSeen)
  /-- FIX_OPEN (R259). FIX_OPEN takes a staging area and opens a group. -/
  | fixOpen (x : Fin 1024) (i : Nat)
  /-- FIX_CLOSE (R259). FIX_CLOSE closes the open group. -/
  | fixClose (x : Fin 1024) (i : Nat)
  /-- FIX_ABORT (R269). FIX_ABORT aborts the open group and discards its staging. -/
  | fixAbort (x : Fin 1024) (i : Nat)
  /-- WINDOW_OPEN (R204). A WINDOW descriptor with WOP 0 opens or replaces a remote window. -/
  | windowOpen (x : Fin 1024) (i : Nat)
  /-- WINDOW_CLOSE (R205). A WINDOW descriptor with WOP 1 closes a window handle. -/
  | windowClose (x : Fin 1024) (i : Nat)
  /-- CONFIG (R327). A CONFIG descriptor hands a partial stream to its die's configuration block. -/
  | config (x : Fin 1024) (i : Nat)
  /-- REDUCE (R208). A REDUCE combines its chain links in table order and writes the result. -/
  | reduce (x : Fin 1024) (i : Nat) (table : FlagSeen)
  /-- RESHARD (R212). A RESHARD moves core rows record by record over the Rose. -/
  | reshard (x : Fin 1024) (i : Nat) (map : FlagSeen)
  /-- STREAM_CREATE (R251). A STREAM descriptor with SOP 0 creates a persistent stream. -/
  | streamCreate (x : Fin 1024) (i : Nat)
  /-- STREAM_DESTROY (R251). A STREAM descriptor with SOP 1 destroys a stream and discards its queued arms. -/
  | streamDestroy (x : Fin 1024) (i : Nat)
  /-- STREAM_ARM (R252). A STREAM descriptor with SOP 2 offers arms to a stream. -/
  | streamArm (x : Fin 1024) (i : Nat)
  /-- FENCE (R241). A FENCE completes once every earlier descriptor, and optionally stream arm, has completed. -/
  | fence (x : Fin 1024) (i : Nat)
  /-- TIMESTAMP (R241). A TIMESTAMP reads the timer after earlier descriptors complete and optionally writes it. -/
  | timestamp (x : Fin 1024) (i : Nat)
  /-- STREAM_ARM_SERVICE (R253). The next arm of a stream begins as a single-run transfer after the previous arm completes. -/
  | streamArmService (x : Fin 1024) (s : Fin 64)
  /-- PIECE_ISSUE (R193). A transfer engine issues a piece of a transfer. -/
  | pieceIssue (t : Nat)
  /-- TRANSFER_COMPLETE (R195). A transfer completes when every issued piece is settled, with the highest-ranked status. -/
  | transferComplete (t : SlotSeen)
  /-- DEADLINE_MISS (R214). A real-time deadline passes, counting a miss and raising the deadline event. -/
  | deadlineMiss (t : Nat)
  /-- PAGE_RESPONSE (R199). A Page Response arrives and the transfer resumes or fails. -/
  | pageResponse (port : Fin 2) (t : Nat) (code : PageCode)
  /-- PAGE_RESPONSE_TIMEOUT (R199). No Page Response arrives within TIMEOUT and the transfer fails with PAGE_FAULT_FAILED. -/
  | pageResponseTimeout (port : Fin 2) (t : Nat)
  /-- ATS_INVALIDATION (R201). An ATS Invalidation Request removes translations once their issued pieces complete. -/
  | atsInvalidation (fn : PcieFn) (page : BitVec 64) (pasid : Option (BitVec 20))
  /-- GATEWAY_OUTBOUND (R414). A gateway checks an outbound packet's DPKG and sends it or injects it inbound. -/
  | gatewayOutbound (die : Fin 8) (sp : Fin 4) (p : Packet)
  /-- GATEWAY_INBOUND (R415). A gateway checks a packet from the link and admits, refuses or discards it. -/
  | gatewayInbound (die : Fin 8) (sp : Fin 4) (p : Packet)
  /-- SQ_TAIL (R239). A write to SQ_TAIL makes ring slots available for fetch. -/
  | sqTail (via : Via) (x : Fin 1024) (value : BitVec 64)
  /-- STREAM_ARM_DOORBELL (R252). A write to the STREAM_ARM doorbell arms a stream with COUNT arms. -/
  | streamArmDoorbell (via : Via) (x : Fin 1024) (value : BitVec 64)
  /-- CQ_HEAD (R239). A write to CQ_HEAD frees completion slots. -/
  | cqHead (via : Via) (x : Fin 1024) (value : BitVec 64)
  /-- EVENT_ACK (R239). A write to EVENT_ACK clears CTX_EVENT bits. -/
  | eventAck (via : Via) (x : Fin 1024) (value : BitVec 64)
  /-- CTX_OPEN (R234). The OPEN command makes the writing port owner of a FREE context and resets its registers. -/
  | ctxOpen (port : Fin 2) (x : Fin 1024)
  /-- CTX_RUN (R234). The RUN command checks and takes hold of cores and areas, or restarts fetching from STOPPED. -/
  | ctxRun (port : Fin 2) (x : Fin 1024)
  /-- CTX_PAUSE (R234). The PAUSE command stops and saves cores and transfers. -/
  | ctxPause (port : Fin 2) (x : Fin 1024)
  /-- CTX_PAUSE_DONE (R234). A pausing context releases its cores and enters PAUSED once the saves are done. -/
  | ctxPauseDone (x : Fin 1024)
  /-- CTX_RESUME (R234). The RESUME command retakes cores, restores them and returns to PREV or FAULTED. -/
  | ctxResume (port : Fin 2) (x : Fin 1024)
  /-- CTX_STOP (R234). The STOP command stops fetching and lets begun work finish. -/
  | ctxStop (port : Fin 2) (x : Fin 1024)
  /-- CTX_STOP_DONE (R234). A stopping context enters STOPPED when all begun work has completed. -/
  | ctxStopDone (x : Fin 1024)
  /-- CTX_KILL (R234). The KILL command puts the context into BLEACHING and starts the Bleach. -/
  | ctxKill (port : Fin 2) (x : Fin 1024)
  /-- CTX_CMD_RESERVED (R235). A write of CMD 7 to CTX_CMD is refused with CMDERR 2. -/
  | ctxCmdReserved (port : Fin 2) (x : Fin 1024)
  /-- PKG_STOP (R256). PKG_CTL STOP pauses every context that holds cores and enters STOPPING. -/
  | pkgStop (port : Fin 2)
  /-- PKG_STOPPED (R256). The package enters STOPPED once no context holds cores and nothing is in service. -/
  | pkgStopped
  /-- PKG_RESTART (R256). PKG_CTL RESTART resumes held contexts and returns the package to RUNNING. -/
  | pkgRestart (port : Fin 2)
  /-- LEASE_ACQUIRE (R228). A write of PKG_LEASE.ACQUIRE grants, keeps or refuses the setup lease. -/
  | leaseAcquire (port : Fin 2)
  /-- LEASE_RELEASE (R227). A write of PKG_LEASE.RELEASE frees the lease held by the writer. -/
  | leaseRelease (port : Fin 2)
  /-- LEASE_TIMEOUT (R231). The lease timer reaches SECONDS while a link is lost, killing the port's contexts and releasing its lease. -/
  | leaseTimeout (port : Fin 2)
  /-- FIX_FLIP (R266). A committed group's flip holds acceptance, activates its redirection entries and releases. -/
  | fixFlip (x : Fin 1024)
  /-- FIX_PAGE_COPY_HOME (R267). A controller finishes copying a staged page home and frees its entry. -/
  | fixPageCopyHome (stack : Fin 16) (page : Nat)
  /-- FIX_PUBLISH_SIGNALS (R267). After the copy-out and host writes settle, a group's SIGNALs act and its arms are offered. -/
  | fixPublishSignals (x : Fin 1024) (flag : FlagSeen)
  /-- CORE_SPARE_ASSIGN (R276). Helm firmware gives a failed logical core a spare or marks it absent, and records the Chart. -/
  | coreSpareAssign (c : CoreAddr) (agreed : Bool)
  /-- REPLAY (R279). A replay checks inputs, refills rows, sets tags, resets counts and relaunches the pass. -/
  | replay (x : Fin 1024) (pass : SlotSeen)
  /-- LINK_LOSS (R230). DL_Down, Hot Reset, Link Disable, PERST_N or D3hot loses a port's link and pauses its contexts. -/
  | linkLoss (port : Fin 2) (ev : LinkEvent)
  /-- LINK_UP (R231). The link returns with the PF in D0, ending the loss and stopping the lease timer. -/
  | linkUp (port : Fin 2)
  /-- PF_FLR (R232). An FLR of a PF kills every context of its port and releases its lease. -/
  | pfFlr (port : Fin 2)
  /-- VF_FLR (R232). An FLR of a VF kills only the context its entry names. -/
  | vfFlr (port : Fin 2) (vf : Nat)
  /-- PCI_VF_CTX_WRITE (R221). A write to a PCI_VF_CTX entry maps a VF to a context or is ignored and counted. -/
  | pciVfCtxWrite (port : Fin 2) (i : Fin 511) (value : BitVec 32)
  /-- BAR4_READ (R223). A host read through BAR4 reaches a device address or returns 0. -/
  | bar4Read (port : Fin 2) (off : BitVec 30) (len : Nat) (ecc : List AtomEcc)
  /-- BAR4_WRITE (R223). A host write through BAR4 writes a device address, via MASK_WRITE for partial units, or is ignored. -/
  | bar4Write (port : Fin 2) (off : BitVec 30) (bytes : List Byte) (ecc : List AtomEcc)
  /-- POISONED_WRITE (R225). A poisoned write TLP is discarded and logged. -/
  | poisonedWrite (port : Fin 2)
  /-- CONFIG_REQUEST_NOT_READY (R224). A configuration request before the port is ready completes with Configuration Request Retry Status. -/
  | configRequestNotReady (port : Fin 2)
  /-- GET_STATUS (R352). A GET_STATUS request returns the attestation key state. -/
  | getStatus (port : Fin 2)
  /-- GET_CERT (R352). A GET_CERT request returns the identity and attestation certificates. -/
  | getCert (port : Fin 2)
  /-- GET_QUOTE (R352). A GET_QUOTE burns a journaled index and signs the nonce and selected measurements. -/
  | getQuote (port : Fin 2) (nonce : BitVec 256) (mask : BitVec 16)
  /-- DOE_UNSUPPORTED (R217). A DOE request of another vendor or type is answered with the mailbox's error indication. -/
  | doeUnsupported (q : DoeFrame)
  /-- ROLLOVER_KEY_READY (R350). Key generation completes and the pending key is certified and stored. -/
  | rolloverKeyReady
  /-- KEY_INSTALL (R342). SEC_KEY_WR GO with REVOKE 0 installs a stream key or RK. -/
  | keyInstall (src : Src) (addr : BitVec 48) (target : BitVec 4)
  /-- KEY_REVOKE (R342). SEC_KEY_WR GO with REVOKE 1 revokes a stream key slot. -/
  | keyRevoke (src : Src) (target : BitVec 4)
  /-- FIRMWARE_WRITE (R346). SEC_FW_WR GO checks a firmware image and writes it into the other slot. -/
  | firmwareWrite (src : Src) (addr : BitVec 48) (len : BitVec 32)
  /-- FIRMWARE_WRITE_DONE (R346). A firmware write ends and raises its interrupt source. -/
  | firmwareWriteDone (ok : Bool)
  /-- DSP_NOP (R302). The DSP sequencer issues a NOP. -/
  | dspNop (s : SliceId) (io : DspIn)
  /-- DSP_MAC (R295). MAC computes the pre-added product and updates ACC under AOP. -/
  | dspMac (s : SliceId) (io : DspIn)
  /-- DSP_MOV (R302). MOV copies a source or ACC into a register. -/
  | dspMov (s : SliceId) (io : DspIn)
  /-- DSP_OUT (R296). OUT shifts, rounds, saturates and drives ACC or a register on OUT with an OV strobe. -/
  | dspOut (s : SliceId) (io : DspIn)
  /-- DSP_SRCH (R297). SRCH compares one element into the slice's search state. -/
  | dspSrch (s : SliceId) (io : DspIn)
  /-- DSP_AG (R298). AG emits an address from a pointer and advances its offset. -/
  | dspAg (s : SliceId) (io : DspIn)
  /-- DSP_AGSET (R298). AGSET writes BASE, LEN or OFF of an address pointer. -/
  | dspAgset (s : SliceId) (io : DspIn)
  /-- DSP_LOOP (R303). DSP LOOP opens a loop as for cores, with the slice's limits. -/
  | dspLoop (s : SliceId) (io : DspIn)
  /-- DSP_HALT (R300). HALT stops the DSP sequencer until the next RUN edge. -/
  | dspHalt (s : SliceId) (io : DspIn)
  /-- DSP_RUN (R300). A rising edge of RUN starts the sequencer at entry 0 and clears ERR. -/
  | dspRun (s : SliceId)
  /-- BRAM_PORT_ACCESS (R292). A block RAM port read or write is arbitrated per word and checked by ECC. -/
  | bramPortAccess (die : Fin 8) (block : Fin 1536) (portB : Bool) (acc : BramAcc) (ecc : Ecc)
  /-- TILE_TX_PACKET (R306). A tile port takes a TX packet from the fabric, fills its header fields and sends or discards it. -/
  | tileTxPacket (die : Fin 8) (tp : Fin 512) (first : FifoE) (rest : List FifoE)
  /-- TILE_RX_DELIVERY (R308). A packet enters a tile port's RX FIFO and is answered when ACK is set. -/
  | tileRxDelivery (die : Fin 8) (tp : Fin 512) (p : Packet)
  /-- TILE_READ_TIMEOUT (R308). A read to the fabric that gets no answer within RD_TIMEOUT is answered by the port with RESET_NACK. -/
  | tileReadTimeout (die : Fin 8) (tp : Fin 512) (tag : BitVec 16)
  /-- TLY_CLR (R309). A TLY_CLR pulse sets the tile port's tally sums to 0. -/
  | tlyClr (die : Fin 8) (tp : Fin 512)
  /-- RAW_BLOCK_RECEIVE (R312). A raw lane block enters the receive buffer or is dropped when the buffer is full. -/
  | rawBlockReceive (die : Fin 8) (lane : Fin 32) (block : BitVec 256) (bad : Bool)
  /-- RAW_BLOCK_TRANSMIT (R312). The fabric offers a raw lane block for transmit, or it is discarded while the lane is not UP. -/
  | rawBlockTransmit (die : Fin 8) (lane : Fin 32) (block : BitVec 256)
  /-- GPIO_SHORT (R314). A pin that disagrees with its driven level for 1 µs has its driver turned off. -/
  | gpioShort (die : Fin 8) (pin : Fin 32)
  /-- GPIO_SHORT_CLEAR (R314). Writing 1 to a FAB_GPIO_STAT.SHORT bit clears it and re-enables the driver. -/
  | gpioShortClear (src : Src) (die : Fin 8) (mask : BitVec 32)
  /-- FABRIC_IRQ (R384). A fabric region's interrupt port sends a local source number. -/
  | fabricIrq (die : Fin 8) (region : Fin 16) (num : BitVec 8)
  /-- CONFIG_HEADER_CHECKED (R319). Header and XMSS signature verification ends, and the Mask closes or the load fails. -/
  | configHeaderChecked (die : Fin 8)
  /-- CONFIG_SEGMENT_VERIFIED (R321). A segment's read, hash and tag check completes and its frames are written. -/
  | configSegmentVerified (die : Fin 8)
  /-- CONFIG_BLEACH_DONE (R327). A region's 64 µs Bleach completes. -/
  | configBleachDone (die : Fin 8)
  /-- CONFIG_START_ORDER (R323). After END, the start steps release outputs, the set-reset and writes, and the region runs. -/
  | configStartOrder (die : Fin 8)
  /-- WAIT_LOCK_TIMEOUT (R323). WAIT_LOCK ends after 10 ms without lock, setting LOCKTMO. -/
  | waitLockTimeout (die : Fin 8)
  /-- FULL_STREAM_LOAD (R324). At start, each die loads its full stream from slot 0, or from slot 1 on failure. -/
  | fullStreamLoad (die : Fin 8)
  /-- FLASH_WRITE (R334). CFG_FLASH_WR GO checks an image and writes it into a flash slot. -/
  | flashWrite (src : Src) (die : Fin 8) (value : BitVec 128)
  /-- FLASH_WRITE_DONE (R334). A background flash write ends with its RESULT. -/
  | flashWriteDone (die : Fin 8) (ok : Bool)
  /-- CLOCK_SOURCE_FAIL (R356). A clock source fails, its loops coast, and Helm firmware is notified. -/
  | clockSourceFail (die : Fin 8) (clk : Fin 4)
  /-- CLOCK_SOURCE_READY (R354). A clock source meets its ready condition. -/
  | clockSourceReady (die : Fin 8) (clk : ClkSeen)
  /-- LOOP_LOCK (R357). A loop locks or relocks and its domains return to it. -/
  | loopLock (die : Fin 8) (loop : Fin 6)
  /-- CLK_REF_SEL_WRITE (R357). A write to CLK_REF_SEL changes a loop's reference or is refused. -/
  | clkRefSelWrite (src : Src) (die : Fin 8) (value : BitVec 32)
  /-- CLK_SRC_SEL_WRITE (R357). A write to CLK_SRC_SEL switches a domain's source glitch-free or is refused. -/
  | clkSrcSelWrite (src : Src) (die : Fin 8) (value : BitVec 64)
  /-- CLK_FAB_FREQ_WRITE (R360). A write to CLK_FAB_FREQ starts the fabric rail and frequency sequencer. -/
  | clkFabFreqWrite (src : Src) (die : Fin 8) (value : BitVec 32)
  /-- FAB_FREQ_SEQ_DONE (R360). The fabric frequency sequencer finishes and runs any queued write. -/
  | fabFreqSeqDone (die : Fin 8)
  /-- CLK_MEAS_GO (R372). A GO on CLK_MEAS_CTL starts a measurement or is ignored with ERR. -/
  | clkMeasGo (src : Src) (die : Fin 8) (value : BitVec 32)
  /-- CLK_MEAS_DONE (R372). A measurement window ends and COUNT and DONE are set. -/
  | clkMeasDone (die : Fin 8) (edges : Nat)
  /-- CLK_OUT_CTL_WRITE (R373). A write to CLK_OUT_CTL selects and divides the output clock or is refused. -/
  | clkOutCtlWrite (src : Src) (die : Fin 8) (value : BitVec 32)
  /-- CLK_GATE_WRITE (R370). A write to CLK_GATE gates or ungates blocks, refusing gating of HBM with live areas. -/
  | clkGateWrite (src : Src) (die : Fin 8) (value : BitVec 32)
  /-- GATED_BLOCK_ACCESS (R371). An access to a gated block's registers completes with Completer Abort or a bus error. -/
  | gatedBlockAccess (src : Src) (die : Fin 8) (block : Fin 9)
  /-- GOVERNOR_TICK (R365). Every 100 µs the governor compares the power average with the ceiling and moves levels. -/
  | governorTick (watts : Nat) (vin : Nat)
  /-- LEVEL_SLEW_DONE (R362). A rail region finishes slewing to its new level. -/
  | levelSlewDone (die : Fin 8) (k : Fin 8)
  /-- REGION_CURRENT_ALARM (R368). A rail region's fast current alarm applies the brake within 20 ns. -/
  | regionCurrentAlarm (die : Fin 8) (k : Fin 8)
  /-- INPUT_FAST_TRIP (R368). A hot-swap fast trip brakes every region at once. -/
  | inputFastTrip
  /-- THERMAL_SAMPLE (R369). A region's junction sensor read every 10 µs slows, brakes or releases the region. -/
  | thermalSample (die : Fin 8) (k : Fin 8) (temp : Nat)
  /-- WATCHDOG_KICK (R378). A write of KICK restarts a Helm watchdog. -/
  | watchdogKick (die : Fin 8) (proc : Fin 4) (value : BitVec 32)
  /-- WATCHDOG_WARNING (R378). Half the watchdog period passes and private source 0 is raised. -/
  | watchdogWarning (die : Fin 8) (proc : Fin 4)
  /-- WATCHDOG_EXPIRE (R378). The whole watchdog period passes and the processor is reset. -/
  | watchdogExpire (die : Fin 8) (proc : Fin 4)
  /-- HELM_PROCESSOR_RUNNING (R379). A reset processor finishes reloading and is RUNNING, taking its duties back. -/
  | helmProcessorRunning (die : Fin 8) (proc : Fin 4)
  /-- CROSS_CHECK (R377). A checker compares a proposed checked action and applies it, repeats it or resets both processors. -/
  | crossCheck (die : Fin 8) (proc : Fin 4) (act : CheckedAction) (agree : Bool)
  /-- INT_MESSAGE (R385). An interrupt message sets PEND of its source or is discarded. -/
  | intMessage (die : Fin 8) (num : BitVec 16) (helm : Bool)
  /-- INT_MSIX_DELIVERY (R387). A pending port-targeted source is sent as a PF MSI-X message. -/
  | intMsixDelivery (die : Fin 8) (s : Fin 8192)
  /-- INT_CLAIM (R386). A read of INT_CLAIM claims the highest-priority deliverable source. -/
  | intClaim (src : Src) (die : Fin 8) (proc : Fin 4)
  /-- INT_COMPLETE (R386). A write to INT_COMPLETE clears ACTIVE of a claimed source. -/
  | intComplete (src : Src) (die : Fin 8) (proc : Fin 4) (value : BitVec 32)
  /-- INT_RAISE (R383). A write to INT_RAISE raises a shared or private source. -/
  | intRaise (src : Src) (die : Fin 8) (value : BitVec 32)
  /-- INT_SRC_WRITE (R388). A write to INT_SRC changes a source's target, priority or enable, or discards its PEND. -/
  | intSrcWrite (src : Src) (die : Fin 8) (s : Fin 8192) (value : BitVec 32)
  /-- INT_CONTROLLER_SLEEP (R390). An idle controller saves its state into retention and stops its clock. -/
  | intControllerSleep (die : SleepSeen)
  /-- INT_CONTROLLER_WAKE (R390). A queued message wakes the controller, which restores its state and applies the queue. -/
  | intControllerWake (die : Fin 8)
  /-- MODULE_RESET (R394). Power-on, MGMT_RST_N or PKG_RESET resets the whole module and restarts the start sequence. -/
  | moduleReset (cause : ResetCause)
  /-- PKG_RESET (R403). PKG_RESET GO with CONFIRM 0xA5 from the lease holder while STOPPED starts a module reset. -/
  | pkgReset (src : Src) (value : BitVec 32)
  /-- START_PHASE_DONE (R393). A phase of the start sequence ends and the next phase begins. -/
  | startPhaseDone (phase : StartPhase) (found : StartFinding)
  /-- SOUNDING_REGION_DONE (R396). Sounding finishes testing one rail region and records its failures. -/
  | soundingRegionDone (die : Fin 8) (k : Fin 8) (fails : List SoundFail)
  /-- PARTITION_RESET (R402). PKG_PART_RST GO from the lease holder resets a partition's cores and kills their contexts. -/
  | partitionReset (port : Fin 2) (value : BitVec 32)
  /-- PARTITION_RESET_RELEASE (R164). When every reset core reports its Bleach done, the partition reset is released. -/
  | partitionResetRelease (checked : Bool)
  /-- SALLAN_BRINGUP (R406). A port starts bring-up with a DETECT of its lanes. -/
  | sallanBringup (die : Fin 8) (sp : Fin 4)
  /-- SALLAN_DETECT_DONE (R407). DETECT ends, lane results and peer values are exchanged and the width is chosen. -/
  | sallanDetectDone (die : Fin 8) (sp : Fin 4) (res : DetectResult)
  /-- SALLAN_RUNG_DWELL_DONE (R408). A rung's PRBS dwell ends and the port steps up, settles or drops lanes. -/
  | sallanRungDwellDone (die : Fin 8) (sp : Fin 4) (errs : DwellResult)
  /-- SALLAN_RETRY_TIMER (R406). RETRY_S seconds pass while a port is DOWN and bring-up starts again. -/
  | sallanRetryTimer (die : Fin 8) (sp : Fin 4)
  /-- SALLAN_RETRAIN (R411). SAL_PORT_CMD RETRAIN, or a trigger such as excess replays or lost lock, starts a retraining. -/
  | sallanRetrain (die : Fin 8) (sp : Fin 4) (trig : RetrainTrig)
  /-- SALLAN_QUICK_RETRAIN_DONE (R411). A quick retrain ends in UP or falls back to a full bring-up. -/
  | sallanQuickRetrainDone (die : Fin 8) (sp : Fin 4) (ok : Bool)
  /-- SALLAN_TEST (R409). SAL_PORT_CMD TEST puts an UP port and its far end into PRBS test. -/
  | sallanTest (src : Src) (die : Fin 8) (sp : Fin 4)
  /-- SALLAN_TEST_END (R409). SAL_PORT_CMD TEST_END leaves TEST and starts a retraining. -/
  | sallanTestEnd (src : Src) (die : Fin 8) (sp : Fin 4)
  /-- SALLAN_FLIT_RECEIVE (R410). A flit arrives, is checked by CRC and delivered in order or replayed. -/
  | sallanFlitReceive (die : Fin 8) (sp : Fin 4) (seq : Nat) (crcOk : Bool) (ackTo : Nat) (pkts : List Packet)
  /-- SWITCH_OPEN (R422). An undervoltage, overvoltage, overcurrent, output short, thermal trip or open PWR_SENSE opens the hot-swap switch. -/
  | switchOpen (cause : OffCause)
  /-- SWITCH_CLOSE (R422). The switch closes again automatically after its condition has cleared for 100 ms. -/
  | switchClose
  /-- MGMT_RST_N (R426). A low pulse on MGMT_RST_N resets the module and clears latched openings, or is filtered or counted. -/
  | mgmtRstN (lowNs : Nat) (hotJunction : Nat) (outlet : Nat)
  /-- COOLANT_SAMPLE (R419). Helm firmware samples the cold-plate sensors every 1 ms and sets COOL_ALARM or LEAK. -/
  | coolantSample (inlet : Nat) (outlet : Nat) (leak : Bool)
  /-- THERMAL_TRIP (R428). The hardware comparator finds a junction at 120 °C or an outlet at 70 °C and opens the switch. -/
  | thermalTrip (junction : Nat) (outlet : Nat)
  /-- STATE (R427). The SMBus STATE command returns the power state, phase, LAST_OFF and ignored pulses. -/
  | state
  /-- SERIAL (R427). The SMBus SERIAL command returns the module serial. -/
  | serial
  /-- POWER (R427). The SMBus POWER command returns VIN and PIN. -/
  | power (vin : Nat)
  /-- COOLANT (R427). The SMBus COOLANT command returns coolant temperatures and flags. -/
  | coolant
  /-- DIES (R427). The SMBus DIES command returns the DIE_LOST bits. -/
  | dies
  /-- CLEAR_ALERT (R427). The SMBus CLEAR_ALERT command releases SMB_ALERT_N and clears LEAK and COOL_ALARM. -/
  | clearAlert
  /-- ALERT_RESPONSE_READ (R427). An Alert Response Address read releases SMB_ALERT_N. -/
  | alertResponseRead
  /-- SMBUS_TIMEOUT (R429). The SMBus held low for 35 ms is released. -/
  | smbusTimeout
  /-- REGISTER_WRITE (R17). A write to a register with no row of its own sets its fields under their access codes and lease class. -/
  | registerWrite (src : Src) (place : RegPlace) (size : Nat) (value : Nat)
  /-- HOST_READ_COMPLETION (R202). A PCIe completion for a device read of host memory arrives, settling its piece or failing it when poisoned or in error. -/
  | hostReadCompletion (port : Fin 2) (t : Nat) (n : Nat) (data : HostData)
  /-- HOST_WRITE_ACK (R194). The link acknowledges the TLP that carries a host write piece, which settles the piece. -/
  | hostWriteAck (port : Fin 2) (t : Nat) (n : Nat)
  /-- ATS_TRANSLATION_COMPLETION (R197). The answer to an ATS Translation Request arrives and fills the port's translation cache or shows a page fault. -/
  | atsTranslationCompletion (fn : PcieFn) (page : BitVec 64) (pasid : Option (BitVec 20)) (r : Bool) (w : Bool)
  /-- REGISTER_READ (R20). A host read that its lease class forbids, that reaches a FREE context, or that reaches an absent die or empty offset returns 0 or completes with Unsupported Request, and is counted. -/
  | registerRead (src : Src) (place : RegPlace) (size : Nat)
  /-- VF_ENABLE (R222). The host changes VF Enable or NumVFs in configuration space, making VFs exist or cease, and held MSI-X messages of mapped contexts are released. -/
  | vfEnable (port : Fin 2) (en : Bool) (num : Nat)
  /-- HBM_HOT (R174). A stack's temperature sensor crosses 85 °C, setting or clearing HBM_STATE.HOT, halving or restoring the refresh interval and raising the HOT interrupt source. -/
  | hbmHot (stack : Fin 16) (temp : Nat)
  /-- HBM_OPEN_IDLE (R172). An open row goes HBM_CTL.OPEN_IDLE without access and is closed. -/
  | hbmOpenIdle (stack : Fin 16) (pc : Fin 64) (bank : Fin 64)
  /-- RX_ENTRY_TAKEN (R308). The fabric takes an entry from a tile port's RX or RSP FIFO with VALID and READY both 1, freeing room for waiting packets and reads. -/
  | rxEntryTaken (die : Fin 8) (tp : Fin 512) (rsp : Bool)
  /-- HELM_TIMER_EXPIRE (R389). A Helm processor's own timer expires and raises private source 1. -/
  | helmTimerExpire (die : Fin 8) (proc : Fin 4)
  /-- DUTY_BRAKE_END (R365). The 10 µs duty brake applied by the governor ends and the regions are released. -/
  | dutyBrakeEnd
  /-- KEY_WRITE_DONE (R342). A key install or revoke finishes its vault write, setting SEC_VAULT_STAT.RESULT, clearing BUSY and raising source 0x0080. -/
  | keyWriteDone (ok : Bool)
  /-- CTX_RESUME_DONE (R234). A resuming context finishes restoring its cores and held writes, clears BUSY and enters the state PREV names, or FAULTED. -/
  | ctxResumeDone (x : Fin 1024)
  /-- PKG_RESTART_DONE (R256). The package leaves RESTARTING and enters RUNNING once every held context has resumed or been left PAUSED. -/
  | pkgRestartDone
  /-- MIN_INTERVAL_EXPIRE (R352). SEC_ATT_CTL.MIN_INTERVAL has passed since the last quote signature began, and the next waiting quote takes its turn. -/
  | minIntervalExpire
  deriving DecidableEq, Repr

end Sys2Proof
end

