-- ==== Sys2Proof/Decode.lean ====
section
/-! DEFINITION. The table gives no row of the block any bits: a command has no encoding, and no word spells one. -/

namespace Sys2Proof

/-- The command that a word of the table's bits spells. No row of spec/opcode_table.json gives bits, so there is none. -/
def decodeTableWord (_nbits _w : Nat) : Option Instr := none

end Sys2Proof
end

