-- ==== Sys2Proof/Config.lean ====
section
/-! DEFINITION. What an implementation fixes and what the spec leaves open: constants with no body, so that no proof
can lean on a value of theirs. -/

namespace Sys2Proof

/-! ## What a configuration of the fabric says (R283 to R288): the spec gives the parts, not their bits in the frames -/

/-- Where a signal of a die's fabric comes from. A cell is 8,192 × cluster column + its place in the column, from the bottom;
a cluster is its lowest cell ÷ 8. -/
inductive Signal
  /-- Nothing: 0. -/
  | none
  /-- Output Y of a cell in whole mode. -/
  | y (cell : Nat)
  /-- Output YA of a cell in quad mode. -/
  | ya (cell : Nat)
  /-- Output YB of a cell in quad mode. -/
  | yb (cell : Nat)
  /-- The sum of a cell's carry stage. -/
  | sum (cell : Nat)
  /-- What a cell's carry stage hands to the cell above it. -/
  | carry (cell : Nat)
  /-- A storage element of a cell, 0 or 1. -/
  | elem (cell : Nat) (i : Nat)
  /-- The multiplexer group whose lowest cell this is (R286). -/
  | mux (cell : Nat)
  /-- The far end of routing segment `j` of a cluster column (R287). -/
  | segment (column j : Nat)
  /-- Output `j` of another region, across the border (R287). -/
  | border (region j : Nat)
  /-- Bit `b` of what a block RAM port shows: port 2 × block, + 1 for port B; bit 64 is UE (R293). -/
  | bram (port b : Nat)
  /-- Bit `b` of a DSP slice's outputs: OUT, OV, IR, HLT, SV, SI, AADDR0, AADDR1, AV0, AV1, ERR from the lowest bit (R295). -/
  | dsp (slice b : Nat)
  /-- RX_VALID or RSP_VALID of a tile port (R304). -/
  | tileValid (port : Nat) (rsp : Bool)
  /-- Bit `b` of RX_DATA or RSP_DATA; 256 is HDR, 257 is HALF. -/
  | tileData (port : Nat) (rsp : Bool) (b : Nat)
  /-- TX_READY of a tile port. -/
  | txReady (port : Nat)
  /-- Bit `b` of the tally sums of a tile port: TLY_V, TLY_N, TLY_RST, TLY_DEN (R309). -/
  | tally (port b : Nat)
  /-- The valid strobe of a raw lane's received block (R312). -/
  | rawValid (lane : Nat)
  /-- Bit `b` of a raw lane's received block; 256 is BAD. -/
  | rawData (lane b : Nat)
  /-- The input of a GPIO pin (R313). -/
  | pin (j : Nat)
  deriving DecidableEq, Repr, Inhabited

/-- What a storage element takes as D (R284). -/
inductive DSource
  | y
  | ya
  | yb
  | i4
  | i5
  /-- The multiplexer, in the lowest cell of its group (R286). -/
  | mux
  /-- Another routing input. -/
  | direct (n : Signal)
  deriving DecidableEq, Repr, Inhabited

/-- A storage element (R284): which of the cluster's two clock enables it has, if any; its reset. -/
structure ElemCfg where
  d : DSource
  enable : Option (Fin 2)
  reset : Signal
  async : Bool
  init : Bool
  deriving DecidableEq, Repr, Inhabited

/-- A carry stage (R284, R285): whether a chain begins at its cell, and whether it subtracts. -/
structure CarryCfg where
  begins : Bool
  sub : Bool
  deriving DecidableEq, Repr, Inhabited

/-- A logic cell (R284, R286): the quarter-tables 0 to 3 from the lowest bit of the table; the six inputs I0 to I5; for a cell
of a mux column the eight data inputs and, in the lowest cell of a group, how many select bits above [2:0] the group uses. -/
structure CellCfg where
  table : BitVec 64
  quad : Bool
  input : Vector Signal 6
  elem : Vector ElemCfg 2
  carry : Option CarryCfg
  muxData : Vector Signal 8
  muxBits : Fin 4
  deriving DecidableEq, Repr, Inhabited

/-- A cluster (R284, R286): its two clock enables and, in a mux column, its select bus. -/
structure ClusterCfg where
  enable : Vector Signal 2
  select : Vector Signal 6
  deriving DecidableEq, Repr, Inhabited

/-- How many clusters a routing segment spans (R287). -/
inductive Span
  | one
  | four
  | sixteen
  deriving DecidableEq, Repr, Inhabited

/-- A routing segment within a region (R287): what drives it, whether it spans 1, 4 or 16 clusters, whether the register at its
end is used, that register's domain and first value. -/
structure SegmentCfg where
  source : Signal
  span : Span
  registered : Bool
  domain : Fin 4
  init : Bool
  deriving DecidableEq, Repr, Inhabited

/-- An output of a region, at its border register or at a GPIO pin (R287, R313, R329): what drives it, the domain of a border
register, the first value of its register, and for a pin's output or output enable whether its register is bypassed. -/
structure OutputCfg where
  source : Signal
  domain : Fin 4
  init : Bool
  bypass : Bool
  deriving DecidableEq, Repr, Inhabited

/-- The park value of a region output (R329). -/
inductive Park
  | zero
  | one
  | hold
  deriving DecidableEq, Repr, Inhabited

/-- What the configuration assigns a clock domain (R288). -/
inductive Clocked
  | cluster (n : Nat)
  | slice (n : Nat)
  | bramPort (n : Nat)
  | tilePort (n : Nat)
  | rawLane (n : Nat)
  | pin (n : Nat)
  deriving DecidableEq, Repr, Inhabited

/-- Frames that are not zero: their numbers and contents. -/
abbrev FrameList : Type := List (Nat × List Byte)

end Sys2Proof

namespace Sys2Proof.Config

/-- The values the spec leaves open, one for each draw: State's `free` counts the draws (log 4). -/
opaque free : Nat → Nat

/-- A bit of the draw `n`. -/
def freeBit (n : Nat) : Bool := free n % 2 == 1

/-! ## What the module was made with (14, 17) -/

/-- The serial (R335, R391). -/
opaque serial : BitVec 128

/-- Isalek's Vendor ID, in the headers of its DOE objects (R217; log 46). -/
opaque vendorId : BitVec 16

/-- Byte `i` of the identity public key (R347). -/
opaque idPublic (i : Nat) : Byte

/-- Byte `i` of the public key of attestation key `key` (R347). -/
opaque attPublic (key i : Nat) : Byte

/-- Byte `i` of the identity key's signature over a message with a leaf (R347, R350). -/
opaque idSign (leaf : Nat) (msg : List Byte) (i : Nat) : Byte

/-- Byte `i` of attestation key `key`'s signature over a message with a leaf (R352). -/
opaque attSign (key leaf : Nat) (msg : List Byte) (i : Nat) : Byte

/-- Isalek's identity certificate, at most 8 KiB of it (R335). -/
opaque isalekCert : List Byte

/-- Isalek's firmware key, held in the boot ROM (R344). -/
opaque fwKey : List Byte

/-- Byte `i` of the firmware image made at manufacture, its header and signature first (R343), and the length of its body. -/
opaque factoryFw (i : Nat) : Byte
opaque factoryLen : Nat

/-- Byte `i` of the signature of the variant record made at manufacture, and of Isalek's variant key in the boot ROM (R391, R392). -/
opaque variantSig (i : Nat) : Byte
opaque variantKey (i : Nat) : Byte

/-- The key that a die derives from its PUF array once the pattern is corrected, and byte `i` of the helper data that its wrap record
holds (R339). -/
opaque dieKey (die : Nat) : BitVec 256
opaque pufHelper (die i : Nat) : Byte

/-- Byte `i` of VK (R340, R341). -/
opaque vaultKey (i : Nat) : Byte

/-- Byte `i` of the secret seed of the identity key, and of that of attestation key `key` (R335, R341). -/
opaque idSeed (i : Nat) : Byte
opaque attSeed (key i : Nat) : Byte

/-- Byte `i` of the IV under which a record's secret is sealed for the `n`th time (R341). -/
opaque sealIv (n i : Nat) : Byte

/-- What stands for the number of the current attestation key where its record has been lost: the spec gives none (R338, R351; log
45). -/
opaque lostKey : Nat

/-! ## What a configuration frame means (R283, R316): the spec gives the frames' places, not their bits -/

/-- Word `i` of the sequencer program that a DSP slice's three frames hold. -/
opaque sliceWord (frames : List Byte) (i : Nat) : W32

/-- The INIT value of a slice's register `i`. -/
opaque sliceInit (frames : List Byte) (i : Nat) : BitVec 56

/-- SATM of a slice. -/
opaque sliceSatm (frames : List Byte) : Bool

/-- The AP bit of block RAM `b` of a region, from frames 1,984 to 2,015 of the region's column 0 (R316). -/
opaque blockAp (frames : List Byte) (b : Nat) : Bool

/-- The width of a block RAM port: 8 bits times 2 to this power (R291). -/
opaque portWidth (frames : FrameList) (port : Nat) : Fin 4

/-- Whether a block RAM port shows new data for a word that it reads and writes in one cycle (R291). -/
opaque portShowsNew (frames : FrameList) (port : Nat) : Bool

/-- Cell `n` of a cluster column, from the column's frames 0 to 1,791. -/
opaque cell (frames : FrameList) (n : Nat) : CellCfg

/-- Cluster `n` of a cluster column. -/
opaque cluster (frames : FrameList) (n : Nat) : ClusterCfg

/-- The routing segments of a cluster column that a configuration uses. -/
opaque segments (frames : FrameList) : List SegmentCfg

/-- The outputs of a region, from all its frames: 0 to 3 are output and output enable of its two GPIO pins. -/
opaque outputs (frames : FrameList) : List OutputCfg

/-- The park value of output `j` of a region, from its border frames. -/
opaque park (frames : FrameList) (j : Nat) : Park

/-- The clock domain of a part of a region, from the region's frames. -/
opaque domain (frames : FrameList) (what : Clocked) : Fin 4

/-- Whether a GPIO pin of a region uses its input register (R313). -/
opaque pinRegistered (frames : FrameList) (j : Nat) : Bool

/-- The level outside drives on an input pin, at a draw. -/
opaque pinLevel (draw j : Nat) : Bool

end Sys2Proof.Config
end

