-- ==== Sys2Proof/Machine/Fields.lean ====
section
/-! DEFINITION. The register tables of the spec: every register with its block, offset, width, lease class and
scope, every field with its bits, access code and reset value (R15, R17, R20, R29 and each chapter's tables). -/

namespace Sys2Proof.Machine

/-- Access codes (R17). -/
inductive Acc where
  | rw | ro | wo | w1c | w1s | rwl
  deriving DecidableEq, Repr

/-- Lease classes (R20); `intSrc` is the class R388 gives INT_SRC entries. -/
inductive Cls where
  | open_ | owner | lease | helm | intSrc
  deriving DecidableEq, Repr

/-- Where copies of a register stand: one a die, on D0 alone, in the ID block, on D0 governing the other dies'
read-only views (`gov`; `govstk` in the HBM blocks), one an HBM controller (`stk`), one a port in the transfer
block of D0 and D1 (`pri`), one a port in the PCIe block (`port`), one a context (`ctx`). -/
inductive Scope where
  | die | d0 | id | gov | govstk | stk | pri | port | ctx | clkout
  deriving DecidableEq, Repr

/-- The registers, by the spec's names. -/
inductive Rg where
  /-- YLD_STAGE_WDOG (03). -/
  | YLD_STAGE_WDOG
  /-- YLD_STAGE_TMO_CNT (03). -/
  | YLD_STAGE_TMO_CNT
  /-- YLD_ROW_CE_LIMIT (05). -/
  | YLD_ROW_CE_LIMIT
  /-- YLD_ROW_STAT (05). -/
  | YLD_ROW_STAT
  /-- YLD_ROW_ERR (05). -/
  | YLD_ROW_ERR
  /-- ROSE_MODE (06). -/
  | ROSE_MODE
  /-- ROSE_REFUSE_STAT (06). -/
  | ROSE_REFUSE_STAT
  /-- ROSE_CTX_REFUSE (06). -/
  | ROSE_CTX_REFUSE
  /-- HBM_CTL (07). -/
  | HBM_CTL
  /-- HBM_HAMMER (07). -/
  | HBM_HAMMER
  /-- HBM_STATE (07). -/
  | HBM_STATE
  /-- HBM_FREQ_REQ (07). -/
  | HBM_FREQ_REQ
  /-- HBM_RETRAIN_REQ (07). -/
  | HBM_RETRAIN_REQ
  /-- HBM_ECC_STAT (07). -/
  | HBM_ECC_STAT
  /-- HBM_HAMMER_CNT (07). -/
  | HBM_HAMMER_CNT
  /-- HBM_RETRAIN_STAT (07). -/
  | HBM_RETRAIN_STAT
  /-- HBM_TIMING_A (07). -/
  | HBM_TIMING_A
  /-- HBM_TIMING_B (07). -/
  | HBM_TIMING_B
  /-- XFR_MODE (08). -/
  | XFR_MODE
  /-- XFR_PRI_CTL (08). -/
  | XFR_PRI_CTL
  /-- XFR_FAULT_STAT (08). -/
  | XFR_FAULT_STAT
  /-- XFR_RED_STAT (08). -/
  | XFR_RED_STAT
  /-- XFR_WIN_STAT (08). -/
  | XFR_WIN_STAT
  /-- XFR_CTX_MISS (08). -/
  | XFR_CTX_MISS
  /-- XFR_WIN (08). -/
  | XFR_WIN
  /-- PKG_LEASE (09). -/
  | PKG_LEASE
  /-- PKG_LEASE_TIMEOUT (09). -/
  | PKG_LEASE_TIMEOUT
  /-- PCI_ACC_VIOL (09). -/
  | PCI_ACC_VIOL
  /-- PCI_DBG_CTL (09). -/
  | PCI_DBG_CTL
  /-- PCI_LINK_STAT (09). -/
  | PCI_LINK_STAT
  /-- PCI_VF_CTX (09). -/
  | PCI_VF_CTX
  /-- PKG_CTL (10). -/
  | PKG_CTL
  /-- PKG_STATE (10). -/
  | PKG_STATE
  /-- PKG_LWR_ERR (10). -/
  | PKG_LWR_ERR
  /-- PKG_RING_CFG (10). -/
  | PKG_RING_CFG
  /-- PKG_PART_CORE (10). -/
  | PKG_PART_CORE
  /-- PKG_PART_HBM (10). -/
  | PKG_PART_HBM
  /-- CTX_STATE (10). -/
  | CTX_STATE
  /-- CTX_CMD (10). -/
  | CTX_CMD
  /-- CTX_RING (10). -/
  | CTX_RING
  /-- CTX_RING_POS (10). -/
  | CTX_RING_POS
  /-- CTX_PREEMPT (10). -/
  | CTX_PREEMPT
  /-- CTX_AREA (10). -/
  | CTX_AREA
  /-- CTX_EVENT (10). -/
  | CTX_EVENT
  /-- CTX_MSIX (10). -/
  | CTX_MSIX
  /-- CTX_ERR (10). -/
  | CTX_ERR
  /-- CTX_CORES (10). -/
  | CTX_CORES
  /-- CTX_HBM (10). -/
  | CTX_HBM
  /-- CTX_STREAM (10). -/
  | CTX_STREAM
  /-- PKG_LOG_MODE (11). -/
  | PKG_LOG_MODE
  /-- HBM_FIX_MAP (11). -/
  | HBM_FIX_MAP
  /-- CTX_FIX (11). -/
  | CTX_FIX
  /-- CTX_LOG (11). -/
  | CTX_LOG
  /-- CTX_LOG_FAULT (11). -/
  | CTX_LOG_FAULT
  /-- FAB_TP_CTL (12). -/
  | FAB_TP_CTL
  /-- FAB_ERR_STAT (12). -/
  | FAB_ERR_STAT
  /-- FAB_GPIO_STAT (12). -/
  | FAB_GPIO_STAT
  /-- FAB_TP_BIND (12). -/
  | FAB_TP_BIND
  /-- FAB_TP_STAT (12). -/
  | FAB_TP_STAT
  /-- FAB_RAW_STAT (12). -/
  | FAB_RAW_STAT
  /-- CFG_STAT (13). -/
  | CFG_STAT
  /-- CFG_REGIONS (13). -/
  | CFG_REGIONS
  /-- CFG_REGION_OWN (13). -/
  | CFG_REGION_OWN
  /-- CFG_FLASH_WR (13). -/
  | CFG_FLASH_WR
  /-- CFG_FLASH_STAT (13). -/
  | CFG_FLASH_STAT
  /-- SEC_STAT (14). -/
  | SEC_STAT
  /-- SEC_ATT_STAT (14). -/
  | SEC_ATT_STAT
  /-- SEC_ATT_CTL (14). -/
  | SEC_ATT_CTL
  /-- SEC_KEY_WR (14). -/
  | SEC_KEY_WR
  /-- SEC_FW_WR (14). -/
  | SEC_FW_WR
  /-- SEC_VAULT_STAT (14). -/
  | SEC_VAULT_STAT
  /-- CLK_SRC_STAT (15). -/
  | CLK_SRC_STAT
  /-- CLK_FAIL (15). -/
  | CLK_FAIL
  /-- CLK_REF_SEL (15). -/
  | CLK_REF_SEL
  /-- CLK_SRC_SEL (15). -/
  | CLK_SRC_SEL
  /-- CLK_GATE (15). -/
  | CLK_GATE
  /-- CLK_GATE_ERR (15). -/
  | CLK_GATE_ERR
  /-- CLK_FAB_FREQ (15). -/
  | CLK_FAB_FREQ
  /-- CLK_MEAS_CTL (15). -/
  | CLK_MEAS_CTL
  /-- CLK_MEAS_RES (15). -/
  | CLK_MEAS_RES
  /-- CLK_OUT_CTL (15). -/
  | CLK_OUT_CTL
  /-- CLK_APER (15). -/
  | CLK_APER
  /-- CLK_PWR_STAT (15). -/
  | CLK_PWR_STAT
  /-- CLK_REGION (15). -/
  | CLK_REGION
  /-- INT_CTL (16). -/
  | INT_CTL
  /-- INT_STAT (16). -/
  | INT_STAT
  /-- INT_CLAIM (16). -/
  | INT_CLAIM
  /-- INT_COMPLETE (16). -/
  | INT_COMPLETE
  /-- INT_PROC (16). -/
  | INT_PROC
  /-- INT_RAISE (16). -/
  | INT_RAISE
  /-- INT_SRC (16). -/
  | INT_SRC
  /-- INT_PRIV (16). -/
  | INT_PRIV
  /-- HELM_STAT (16). -/
  | HELM_STAT
  /-- HELM_WDOG (16). -/
  | HELM_WDOG
  /-- ID_MODULE (17). -/
  | ID_MODULE
  /-- ID_SERIAL (17). -/
  | ID_SERIAL
  /-- PKG_PART_RST (17). -/
  | PKG_PART_RST
  /-- PKG_RESET (17). -/
  | PKG_RESET
  /-- YLD_STAT (17). -/
  | YLD_STAT
  /-- YLD_START (17). -/
  | YLD_START
  /-- YLD_GROUP (17). -/
  | YLD_GROUP
  /-- SAL_PKG (18). -/
  | SAL_PKG
  /-- SAL_PORT_CTL (18). -/
  | SAL_PORT_CTL
  /-- SAL_PORT_CMD (18). -/
  | SAL_PORT_CMD
  /-- SAL_PORT_STAT (18). -/
  | SAL_PORT_STAT
  /-- SAL_PORT_PEER (18). -/
  | SAL_PORT_PEER
  /-- SAL_PORT_ERR (18). -/
  | SAL_PORT_ERR
  /-- SAL_LANE_STAT (18). -/
  | SAL_LANE_STAT
  /-- MOD_STAT (19). -/
  | MOD_STAT
  deriving DecidableEq, Repr

/-- The fields, as register and field name joined. -/
inductive Fld where
  /-- Handshake limit in SOSC cycles (about 1 µs each). 0 disables the check of R81 for stage timeouts -/
  | YLD_STAGE_WDOG_LIMIT
  /-- 1: a timeout is counted in YLD_STAGE_TMO_CNT and raises no fault -/
  | YLD_STAGE_WDOG_REPORT_ONLY
  /-- Stage handshake timeouts seen on this die since the last start. Saturates at 0xFFFF_FFFF. Counts whether or not REPORT_ONLY is set -/
  | YLD_STAGE_TMO_CNT_COUNT
  /-- Corrected errors in one row that trigger a field map-out (R124), from 1 to 15. 0 disables field map-out. Correction and counting continue -/
  | YLD_ROW_CE_LIMIT_LIMIT
  /-- Field map-outs on this die since the last start, including those for uncorrectable errors. The zeroing of a row that has no free spare (R126) is no... -/
  | YLD_ROW_STAT_MAPOUT
  /-- Cores of this die marked under R125 since the last start. Saturates at 0xFFFF -/
  | YLD_ROW_STAT_EXHAUSTED
  /-- Corrected words on this die since the last start, one for each word corrected (R123). Saturates at 0xFF_FFFF -/
  | YLD_ROW_ERR_CE
  /-- Uncorrectable errors on this die since the last start. Saturates at 0xFF -/
  | YLD_ROW_ERR_UE
  /-- 0 Latency mode, 1 Bulk mode (R153) -/
  | ROSE_MODE_PRIO
  /-- H, the tally hold in steps, 0 to 15 (R159) -/
  | ROSE_MODE_TALLY_HOLD
  /-- 1 lets idle cores sleep (R161) -/
  | ROSE_MODE_CORE_SLEEP
  /-- 1 lets quiet routers sleep (R161) -/
  | ROSE_MODE_RTR_SLEEP
  /-- Idle time before sleep, in SOSC cycles of about 1 µs. A value of 0 means 1 cycle -/
  | ROSE_MODE_SLEEP_IDLE
  /-- Packets refused with RST by NIs of this die since the last start. Saturates at 0xFFFF -/
  | ROSE_REFUSE_STAT_RST
  /-- Packets refused with DEN by NIs and level-8 routers of this die. Saturates at 0xFFFF -/
  | ROSE_REFUSE_STAT_DEN
  /-- Packets refused with ABS by routers of this die. An ABS given by a level-9 router counts on the lower-numbered die it joins, 2 × d9. An ABS given b... -/
  | ROSE_REFUSE_STAT_ABS
  /-- Refused packets absorbed without answer (R157). Saturates at 0xFFFF -/
  | ROSE_REFUSE_STAT_ABSORBED
  /-- RST refusals answered to cores of this die for the context (R158). Saturates at 0xF_FFFF -/
  | ROSE_CTX_REFUSE_RST
  /-- DEN refusals, as RST -/
  | ROSE_CTX_REFUSE_DEN
  /-- ABS refusals, as RST -/
  | ROSE_CTX_REFUSE_ABS
  /-- 0 open, 1 close: the policy for hints 0b00 and 0b11 (R172) -/
  | HBM_CTL_PAGE_DEFAULT
  /-- Idle time after which an open row is closed, in units of 10 ns. 0 closes it at once -/
  | HBM_CTL_OPEN_IDLE
  /-- 1 enables scrub (R179) -/
  | HBM_CTL_SCRUB_EN
  /-- Scrub period in hours. 0 means 1 -/
  | HBM_CTL_SCRUB_HOURS
  /-- Rate index the stack runs at from the next RESTART (R182) -/
  | HBM_CTL_RATE
  /-- p from the table *Hammer mode settings*. A write of 5 to 7 leaves the field unchanged, sets HBM_STATE.CFGERR and is recorded in PKG_LWR_ERR (R257) -/
  | HBM_HAMMER_PROB
  /-- 1 also refreshes rows ±2 (R175) -/
  | HBM_HAMMER_DIST2
  /-- 0 OFF, 1 TRAINING, 2 READY, 3 FREQ_CHANGE, 4 RETRAIN, 5 LOST. 6 and 7 are not used -/
  | HBM_STATE_STATE
  /-- Current rate index (R180) -/
  | HBM_STATE_FREQ
  /-- Timing set in use: 0 A, 1 B -/
  | HBM_STATE_TSET
  /-- Stack above 85 °C (R174) -/
  | HBM_STATE_HOT
  /-- A write with a reserved value, a write to the timing set in use, or a GO refused -/
  | HBM_STATE_CFGERR
  /-- Stack temperature in °C -/
  | HBM_STATE_TEMP
  /-- Consecutive failed retrainings (R185) -/
  | HBM_STATE_FAILS
  /-- Target rate index -/
  | HBM_FREQ_REQ_FREQ
  /-- 1 starts the change of R181 -/
  | HBM_FREQ_REQ_GO
  /-- 1 starts a retraining (R183). Ignored, with CFGERR set, unless STATE is READY -/
  | HBM_RETRAIN_REQ_GO
  /-- Controller corrections since the last start. Saturates at 0xFF_FFFF -/
  | HBM_ECC_STAT_CE
  /-- Uncorrectable detections (R178). Saturates at 0xFFFF -/
  | HBM_ECC_STAT_UE
  /-- Corrections reported by the stack. Saturates at 0xFF_FFFF -/
  | HBM_ECC_STAT_ONDIE
  /-- Neighbour refreshes issued since the last start -/
  | HBM_HAMMER_CNT_NREF
  /-- Completed retrainings since the last start. Saturates at 0xFFFF -/
  | HBM_RETRAIN_STAT_RETRAINS
  /-- Failed retrainings. Saturates at 0xFF -/
  | HBM_RETRAIN_STAT_FAILS
  /-- Completed frequency changes. Saturates at 0xFF -/
  | HBM_RETRAIN_STAT_FCHG
  /-- Activate to read or write, in command-clock cycles -/
  | HBM_TIMING_A_TRCD
  /-- Precharge period -/
  | HBM_TIMING_A_TRP
  /-- Activate to precharge -/
  | HBM_TIMING_A_TRAS
  /-- Activate to activate, same bank -/
  | HBM_TIMING_A_TRC
  /-- Activate to activate, different banks -/
  | HBM_TIMING_A_TRRD
  /-- Four-activate window -/
  | HBM_TIMING_A_TFAW
  /-- Write recovery -/
  | HBM_TIMING_A_TWR
  /-- Read to precharge -/
  | HBM_TIMING_A_TRTP
  /-- Per-bank refresh interval -/
  | HBM_TIMING_A_TREFI
  /-- Per-bank refresh cycle; also the time of each neighbour refresh -/
  | HBM_TIMING_A_TRFCSB
  /-- Rate index this set describes -/
  | HBM_TIMING_A_RATE
  /-- Activate to read or write, in command-clock cycles -/
  | HBM_TIMING_B_TRCD
  /-- Precharge period -/
  | HBM_TIMING_B_TRP
  /-- Activate to precharge -/
  | HBM_TIMING_B_TRAS
  /-- Activate to activate, same bank -/
  | HBM_TIMING_B_TRC
  /-- Activate to activate, different banks -/
  | HBM_TIMING_B_TRRD
  /-- Four-activate window -/
  | HBM_TIMING_B_TFAW
  /-- Write recovery -/
  | HBM_TIMING_B_TWR
  /-- Read to precharge -/
  | HBM_TIMING_B_TRTP
  /-- Per-bank refresh interval -/
  | HBM_TIMING_B_TREFI
  /-- Per-bank refresh cycle; also the time of each neighbour refresh -/
  | HBM_TIMING_B_TRFCSB
  /-- Rate index this set describes -/
  | HBM_TIMING_B_RATE
  /-- 1 turns real-time mode on (R214) -/
  | XFR_MODE_RT_EN
  /-- Page-response limit in milliseconds. 0 means 1 (R199) -/
  | XFR_PRI_CTL_TIMEOUT
  /-- Successful responses that still fault before failure. 0 means 1 -/
  | XFR_PRI_CTL_RETRIES
  /-- Page requests sent by this die's engines since the last start. Saturates at 0xFF_FFFF -/
  | XFR_FAULT_STAT_PAGE_REQS
  /-- Transfers ended with PAGE_FAULT_FAILED. Saturates at 0xFFFF -/
  | XFR_FAULT_STAT_PAGE_FAILS
  /-- ATS invalidations answered. Saturates at 0xFF_FFFF -/
  | XFR_FAULT_STAT_INVALS
  /-- Invalid operations in REDUCE combinations and narrowing. Saturates at 0xFFFF -/
  | XFR_RED_STAT_NV
  /-- Overflows. Saturates at 0xFFFF -/
  | XFR_RED_STAT_OF
  /-- Flushes to zero. Saturates at 0xFFFF -/
  | XFR_RED_STAT_UF
  /-- MODE conflicts (R209). Saturates at 0xFFFF -/
  | XFR_RED_STAT_FMT
  /-- Window entries in use, from 0 to 4,096 -/
  | XFR_WIN_STAT_OPEN
  /-- Opens refused with WINDOW_FULL. Saturates at 0xFFFF -/
  | XFR_WIN_STAT_FULL
  /-- Deadline misses of the context (R214). Saturates at 0xFFFF_FFFF -/
  | XFR_CTX_MISS_MISSES
  /-- Greatest lateness at completion, in ns. Saturates at 0xFFFF_FFFF -/
  | XFR_CTX_MISS_LATE_MAX
  /-- First device address of the window -/
  | XFR_WIN_BASE
  /-- Size in 4 KiB units -/
  | XFR_WIN_SIZE
  /-- Admitted source package pattern (R206) -/
  | XFR_WIN_SRC_PKG
  /-- Don't-care bits of SRC_PKG -/
  | XFR_WIN_SRC_MASK
  /-- Owning context -/
  | XFR_WIN_CTX
  /-- Remote reads allowed -/
  | XFR_WIN_RD
  /-- Remote writes and tallies allowed -/
  | XFR_WIN_WR
  /-- Entry in use -/
  | XFR_WIN_VALID
  /-- The owning context's handle (R204) -/
  | XFR_WIN_HANDLE
  /-- 0 free, 1 port 0, 2 port 1. 3 is not used -/
  | PKG_LEASE_HOLDER
  /-- 1 when the reading port holds the lease. Reads 0 for Helm firmware -/
  | PKG_LEASE_MINE
  /-- 1 requests the lease (R228) -/
  | PKG_LEASE_ACQUIRE
  /-- 1 releases a lease the writer holds (R227) -/
  | PKG_LEASE_RELEASE
  /-- LEASE_TIMEOUT in seconds (R231). 0 means 1 -/
  | PKG_LEASE_TIMEOUT_SECONDS
  /-- Accesses by this port refused under R20, R131, R221, R223, R226 or R228 since the last start. Saturates at 0xFFFF_FFFF -/
  | PCI_ACC_VIOL_COUNT
  /-- 1 opens this port's BAR4 (R223) -/
  | PCI_DBG_CTL_OPEN
  /-- 1 lets BAR4 writes take effect -/
  | PCI_DBG_CTL_WR_EN
  /-- Device address bits [47:30] of BAR4 offset 0 -/
  | PCI_DBG_CTL_BASE
  /-- 1 while the Data Link Layer is up -/
  | PCI_LINK_STAT_UP
  /-- 1 while the lease timer runs (R230) -/
  | PCI_LINK_STAT_TIMER_RUN
  /-- Link losses under R230 since the last start. Saturates at 0xFFFF -/
  | PCI_LINK_STAT_DOWN_COUNT
  /-- Context that VF i + 1 stands for (R220, R221) -/
  | PCI_VF_CTX_CTX
  /-- 1 when the entry maps a context -/
  | PCI_VF_CTX_VALID
  /-- 1 STOP, 2 RESTART (R256). 0 and 3 are ignored -/
  | PKG_CTL_CMD
  /-- 0 RUNNING, 1 STOPPING, 2 STOPPED, 3 RESTARTING -/
  | PKG_STATE_STATE
  /-- A PKG_CTL command was ignored in the present state -/
  | PKG_STATE_CMDERR
  /-- Package stops completed since the last start. Saturates at 0xFFFF -/
  | PKG_STATE_STOPS
  /-- BAR0 offset of the last refused RWL write -/
  | PKG_LWR_ERR_OFFSET
  /-- Its source: 0 port 0, 1 port 1, 2 Helm firmware -/
  | PKG_LWR_ERR_SRC
  /-- Refused RWL writes since the last start. Saturates at 0xFFFF_FFFF -/
  | PKG_LWR_ERR_COUNT
  /-- Poll interval of R240 and R249, in units of 100 ns. 0 means 1 -/
  | PKG_RING_CFG_POLL
  /-- Ports whose contexts may hold these cores: 0 none, 1 port 0, 2 port 1, 3 either -/
  | PKG_PART_CORE_SHARE
  /-- Partition number, used by the partition resets of *Start-up, Sounding and yield* -/
  | PKG_PART_CORE_PART
  /-- As PKG_PART_CORE.SHARE, for areas in the granule -/
  | PKG_PART_HBM_SHARE
  /-- Code from the table *Context states* -/
  | CTX_STATE_STATE
  /-- A command is being carried out -/
  | CTX_STATE_BUSY
  /-- Paused by a package stop (R256) -/
  | CTX_STATE_PKG_HELD
  /-- Paused by link loss (R230) -/
  | CTX_STATE_LINK
  /-- 0 none, 1 port 0, 2 port 1 -/
  | CTX_STATE_OWNER
  /-- Code from the table *Command errors* -/
  | CTX_STATE_CMDERR
  /-- State left by the last PAUSE -/
  | CTX_STATE_PREV
  /-- Status that put the context into FAULTED -/
  | CTX_STATE_FSTATUS
  /-- Command from the table *Context commands*. 0 is ignored. 7 is refused with CMDERR 2 -/
  | CTX_CMD_CMD
  /-- Submission ring host address. Bits [11:0] are ignored -/
  | CTX_RING_SQ_BASE
  /-- Completion ring host address. Bits [75:64] are ignored -/
  | CTX_RING_CQ_BASE
  /-- Size 2^(6 + value) entries. A write of 11 to 15 is ignored as a whole and counted in PCI_ACC_VIOL of the writing port -/
  | CTX_RING_SQ_LOG2
  /-- As SQ_LOG2 -/
  | CTX_RING_CQ_LOG2
  /-- PASID for ring access -/
  | CTX_RING_PASID
  /-- PASID valid -/
  | CTX_RING_PV
  /-- Next slot to fetch -/
  | CTX_RING_POS_SQ_HEAD
  /-- Expected GEN (R240) -/
  | CTX_RING_POS_LAP
  /-- Descriptors fetched and not completed, 0 to 255. Reads 255 at 256 -/
  | CTX_RING_POS_FETCHED
  /-- Next completion slot -/
  | CTX_RING_POS_CQ_TAIL
  /-- Phase of the current completion lap -/
  | CTX_RING_POS_PHASE
  /-- R241 -/
  | CTX_RING_POS_RETIRED_SEQ
  /-- 0 immediate, 1 yield (R101). Applies from the next stop request -/
  | CTX_PREEMPT_MODE
  /-- Yield limit in µs. 0 means that every stop takes effect at the next instruction boundary -/
  | CTX_PREEMPT_YIELD_LIMIT
  /-- Save area (R254) -/
  | CTX_AREA_SAVE_BASE
  /-- Held-write record (R255) -/
  | CTX_AREA_HELD_BASE
  /-- Its size in 64 KiB units -/
  | CTX_AREA_HELD_SIZE
  /-- First Fix staging area -/
  | CTX_AREA_FIX_BASE
  /-- Staging areas of 64 MiB, consecutive from FIX_BASE -/
  | CTX_AREA_FIX_N
  /-- Logbook region -/
  | CTX_AREA_LOG_BASE
  /-- Its size in MiB -/
  | CTX_AREA_LOG_SIZE
  /-- R158 -/
  | CTX_EVENT_REFUSE
  /-- R214 -/
  | CTX_EVENT_DEADLINE
  /-- R246 -/
  | CTX_EVENT_STATE
  /-- R240, R252 -/
  | CTX_EVENT_RING
  /-- R246 -/
  | CTX_EVENT_MSIX
  /-- Vector for completions -/
  | CTX_MSIX_CQ_VEC
  /-- Vector for events -/
  | CTX_MSIX_EV_VEC
  /-- GEN mismatches (R240). Saturates at 0xFFFF -/
  | CTX_ERR_GEN
  /-- Doorbell writes ignored (R239, R252). Saturates at 0xFFFF -/
  | CTX_ERR_DBELL
  /-- Packets refused for a full held-write record (R255). Saturates at 0xFFFF_FFFF -/
  | CTX_ERR_HELDFULL
  /-- First core of a block of 4^LEVEL cores. Its low 2 × LEVEL bits must be 0, or the entry counts as not valid -/
  | CTX_CORES_BASE
  /-- 0 to 10. 11 to 15 make the entry not valid -/
  | CTX_CORES_LEVEL
  /-- 1 when the entry is used -/
  | CTX_CORES_VALID
  /-- First byte of the area, in 2 MiB units -/
  | CTX_HBM_BASE
  /-- Size in 2 MiB units. 0 makes the entry not valid -/
  | CTX_HBM_SIZE
  /-- 1 when the entry is used -/
  | CTX_HBM_VALID
  /-- Arms accepted and not completed, 0 to 255 (R252) -/
  | CTX_STREAM_HELD
  /-- The stream exists -/
  | CTX_STREAM_VALID
  /-- k, the arms completed since the create (R253). Wraps at 2^32 -/
  | CTX_STREAM_SERVED
  /-- 0 Off, 1 Light, 2 Full (R272). A write of 3 leaves the field unchanged and is recorded in PKG_LWR_ERR -/
  | PKG_LOG_MODE_MODE
  /-- Replays allowed per LAUNCH (R278). 0 permits none -/
  | PKG_LOG_MODE_MAX_REPLAY
  /-- Redirection entries in use, from 0 to 16,384 (R263) -/
  | HBM_FIX_MAP_USED
  /-- Staged writes refused for a full table since the last start. Saturates at 0xFFFF -/
  | HBM_FIX_MAP_FULL
  /-- Staging areas held by groups, from 0 to 4 -/
  | CTX_FIX_HELD
  /-- A group is open -/
  | CTX_FIX_OPEN
  /-- Writes lost under R271. Saturates at 0xFFFF -/
  | CTX_FIX_CONFLICT
  /-- Groups flipped. Wraps at 2^16 -/
  | CTX_FIX_COMMITS
  /-- Groups aborted. Saturates at 0xFFFF -/
  | CTX_FIX_ABORTS
  /-- LSEQ of the next covered LAUNCH (R273) -/
  | CTX_LOG_NEXT_LSEQ
  /-- Replays started (R279). Saturates at 0xFFFF_FFFF -/
  | CTX_LOG_REPLAYS
  /-- Passes ended with REPLAY_LOST or CORE_ABSENT under R278. Saturates at 0xFFFF_FFFF -/
  | CTX_LOG_LOST
  /-- Logical address of the faulting core -/
  | CTX_LOG_FAULT_CORE
  /-- Fault cause (R81, R95) -/
  | CTX_LOG_FAULT_CAUSE
  /-- Row of the table *Replay decision* that applied: 1 program fault, 2 core absent, 3 not covered, 4 replay limit, 5 input changed or unreadable. 0 no... -/
  | CTX_LOG_FAULT_REASON
  /-- LSEQ of the pass, or 0 for a pass not covered -/
  | CTX_LOG_FAULT_LSEQ
  /-- Read-answer limit of R308, in units of 100 ns. 0 means 1 -/
  | FAB_TP_CTL_RD_TIMEOUT
  /-- Corrected block RAM errors on this die since the last start (R293). Saturates at 0xFF_FFFF -/
  | FAB_ERR_STAT_BRAM_CE
  /-- Uncorrectable block RAM errors. Saturates at 0xFFFF -/
  | FAB_ERR_STAT_BRAM_UE
  /-- DSP sequencer stops under R303. Saturates at 0xFFFF -/
  | FAB_ERR_STAT_SEQERR
  /-- Bit j: die pin j shorted (R314). Writing 1 clears the bit and re-enables the driver. Bits of pins the die does not have read 0 -/
  | FAB_GPIO_STAT_SHORT
  /-- Context placed in the port's packets (R306) -/
  | FAB_TP_BIND_CTX
  /-- 1 binds the port (R310). A write that sets EN = 1 with CTX = 0 leaves the register unchanged and is recorded in PKG_LWR_ERR. Cleared by the device ... -/
  | FAB_TP_BIND_EN
  /-- TX packets discarded under R306 and R308. Saturates at 0xFFFF -/
  | FAB_TP_STAT_BADHDR
  /-- TX packets discarded under R310. Saturates at 0xFFFF -/
  | FAB_TP_STAT_UNBOUND
  /-- Reads answered by the port under R308. Saturates at 0xFFFF -/
  | FAB_TP_STAT_RD_TMO
  /-- Entries now in TX, from 0 to 32 -/
  | FAB_TP_STAT_TXLVL
  /-- Entries now in RX, from 0 to 32 -/
  | FAB_TP_STAT_RXLVL
  /-- Blocks dropped for a full receive buffer (R312). Saturates at 0xFFFF_FFFF -/
  | FAB_RAW_STAT_RXDROP
  /-- Blocks delivered with BAD set. Saturates at 0xFFFF_FFFF -/
  | FAB_RAW_STAT_BADBLK
  /-- Slot loaded at the last start -/
  | CFG_STAT_SLOT
  /-- 0 slot 0 loaded, 1 slot 1 loaded after slot 0 failed, 2 both failed. 3 is not used -/
  | CFG_STAT_BOOT
  /-- A WAIT_LOCK ended by its 10 ms limit since the last start -/
  | CFG_STAT_LOCKTMO
  /-- Reason of the last failed load, from the table *Load failures*. 0 none -/
  | CFG_STAT_REASON
  /-- Region of the last partial load -/
  | CFG_STAT_REGION
  /-- Partial loads completed with OK since the last start. Saturates at 0xFFFF -/
  | CFG_STAT_LOADS
  /-- STREAM_ID of the last stream loaded with OK -/
  | CFG_STAT_STREAM_ID
  /-- State of region r: 0 RUNNING, 1 LOADING, 2 FAILED (R328). 3 is not used -/
  | CFG_REGIONS_STATE
  /-- Context that may load the region (R326) -/
  | CFG_REGION_OWN_CTX
  /-- 1 enables loading. A write with EN = 1 and CTX = 0 leaves the register unchanged and is recorded in PKG_LWR_ERR. Cleared by the device under R326 -/
  | CFG_REGION_OWN_EN
  /-- HBM device address of the image -/
  | CFG_FLASH_WR_SRC
  /-- Image length in bytes -/
  | CFG_FLASH_WR_LEN
  /-- Slot to write -/
  | CFG_FLASH_WR_SLOT
  /-- 1 starts the operation of R334 -/
  | CFG_FLASH_WR_GO
  /-- A flash write is in progress -/
  | CFG_FLASH_STAT_BUSY
  /-- 0 none, 1 done, 2 slot in use, 3 image refused, 4 HBM read failed, 5 flash write error. 6 and 7 are not used -/
  | CFG_FLASH_STAT_RESULT
  /-- MiB written by the current or last operation -/
  | CFG_FLASH_STAT_PROGRESS
  /-- Bit d: die d's PUF failed (R339) -/
  | SEC_STAT_PUF_FAIL
  /-- Bit d: die d holds RK (R340) -/
  | SEC_STAT_RK_OK
  /-- VK unwrapped (R341) -/
  | SEC_STAT_VK_OK
  /-- A record had no valid copy (R338) -/
  | SEC_STAT_VAULT_ERR
  /-- Firmware slot that booted -/
  | SEC_STAT_FW_SLOT
  /-- Slot 0 failed at this start (R344) -/
  | SEC_STAT_FW_FALLBACK
  /-- Counter 0 (R345) -/
  | SEC_STAT_FW_FLOOR
  /-- Current attestation key number -/
  | SEC_ATT_STAT_KEY
  /-- A rollover is in progress (R350) -/
  | SEC_ATT_STAT_GENERATING
  /-- A certified pending key is stored -/
  | SEC_ATT_STAT_PENDING
  /-- 0 none, 1 exhausted, 2 VK unavailable, 3 record lost (R351). 4 to 7 are not used -/
  | SEC_ATT_STAT_REFUSE_CAUSE
  /-- Next leaf of the current key, from 0 to 1,048,576 -/
  | SEC_ATT_STAT_NEXT_INDEX
  /-- Identity indices left, from 0 to 1,024 -/
  | SEC_ATT_STAT_ID_LEFT
  /-- Least spacing of quote signatures, in ms (R352). 0 means none -/
  | SEC_ATT_CTL_MIN_INTERVAL
  /-- HBM device address of the key -/
  | SEC_KEY_WR_SRC
  /-- 0 to 7 stream slot, 8 RK (R342) -/
  | SEC_KEY_WR_TARGET
  /-- 1 revokes the slot instead of writing it -/
  | SEC_KEY_WR_REVOKE
  /-- 1 starts the operation -/
  | SEC_KEY_WR_GO
  /-- HBM device address of the image -/
  | SEC_FW_WR_SRC
  /-- Image length in bytes -/
  | SEC_FW_WR_LEN
  /-- 1 starts the write (R346) -/
  | SEC_FW_WR_GO
  /-- A key or firmware write is in progress. A GO while BUSY is 1 is ignored -/
  | SEC_VAULT_STAT_BUSY
  /-- 0 none, 1 done, 2 target refused, 3 image refused, 4 HBM read failed, 5 vault write error. 6 and 7 are not used -/
  | SEC_VAULT_STAT_RESULT
  /-- Ready: bit 0 XIN_A, 1 XIN_B, 2 FOSC, 3 SOSC (R354) -/
  | CLK_SRC_STAT_RDY
  /-- Locked: bit 4 MLOOP_SYS, 5 MLOOP_HBM, 6 to 9 MLOOP_FAB0–3 -/
  | CLK_SRC_STAT_LOCK
  /-- Coasting, same loop order (R356) -/
  | CLK_SRC_STAT_COAST
  /-- A source failed, in the order of RDY -/
  | CLK_FAIL_SRC
  /-- A loop coasted, in the order of LOCK -/
  | CLK_FAIL_LOOP
  /-- Switches refused under R357. Saturates at 0xFFFF -/
  | CLK_FAIL_REFUSED
  /-- Source failures since the last start. Saturates at 0xFFFF_FFFF -/
  | CLK_FAIL_FAILS
  /-- Bits [2i + 1:2i] give the reference of loop i, in the order of LOCK: 0 XIN_A, 1 XIN_B, 2 FOSC. A value of 3 leaves the pair unchanged and counts in... -/
  | CLK_REF_SEL_REF
  /-- Nominal XIN_A frequency, 25 to 100 MHz. Other values leave the field unchanged -/
  | CLK_REF_SEL_XIN_A_MHZ
  /-- As XIN_A_MHZ -/
  | CLK_REF_SEL_XIN_B_MHZ
  /-- 0 own loop, 1 divided root (R358), 2 FOSC, 3 SOSC -/
  | CLK_SRC_SEL_SEL
  /-- N − 1 for the divided root. N = 1 makes a selection of the divided root refused -/
  | CLK_SRC_SEL_DIVM1
  /-- Bit h enables HBM controller h (R370) -/
  | CLK_GATE_HBM
  /-- Bit 2 + p enables Sallan port p -/
  | CLK_GATE_SALLAN
  /-- Enables the fabric and FDOM0–3 -/
  | CLK_GATE_FAB
  /-- Enables CLK_MEAS -/
  | CLK_GATE_MEAS
  /-- Enables the CLK_OUT pin driver (D0 on a CVM-8) -/
  | CLK_GATE_CLKOUT
  /-- A register access reached the gated block of the same bit in CLK_GATE (R371) -/
  | CLK_GATE_ERR_ERR
  /-- FDOMk target in units of 10 MHz, 10 to 80 (R360). Other values leave the byte unchanged and are recorded in PKG_LWR_ERR -/
  | CLK_FAB_FREQ_F
  /-- Reference clock code -/
  | CLK_MEAS_CTL_REF
  /-- Measured clock code -/
  | CLK_MEAS_CTL_MEAS
  /-- 1 starts a measurement (R372) -/
  | CLK_MEAS_CTL_GO
  /-- WINDOW − 1, giving 1 to 65,536 REF cycles -/
  | CLK_MEAS_CTL_WINDOWM1
  /-- MEAS edges counted -/
  | CLK_MEAS_RES_COUNT
  /-- The last measurement has finished -/
  | CLK_MEAS_RES_DONE
  /-- A GO was ignored -/
  | CLK_MEAS_RES_ERR
  /-- COUNT saturated -/
  | CLK_MEAS_RES_OVF
  /-- Clock code -/
  | CLK_OUT_CTL_SEL
  /-- N − 1 -/
  | CLK_OUT_CTL_DIVM1
  /-- 1 drives the pin -/
  | CLK_OUT_CTL_EN
  /-- A write was refused -/
  | CLK_OUT_CTL_ERR
  /-- 0 Wide, 1 Standard, 2 Narrow (R364) -/
  | CLK_APER_MODE
  /-- 1 enables the real-time floor (R366) -/
  | CLK_APER_FLOOR_EN
  /-- Floor level, 0 to 7 -/
  | CLK_APER_RT_FLOOR
  /-- Slowing threshold in °C (R369) -/
  | CLK_APER_T_SLOW
  /-- Braking threshold in °C -/
  | CLK_APER_T_BRAKE
  /-- Release time in units of 100 ns (R368). 0 means 1 -/
  | CLK_APER_BRAKE_HOLD
  /-- Input power in W, as a 100 µs average -/
  | CLK_PWR_STAT_PIN
  /-- Input voltage in units of 10 mV -/
  | CLK_PWR_STAT_VIN
  /-- Governor lowerings (R365). Saturates at 0xFFFF -/
  | CLK_PWR_STAT_DOWNS
  /-- Floor overrides (R366). Saturates at 0xFF -/
  | CLK_PWR_STAT_FLOOR_OVR
  /-- Duty-brake episodes (R365). Saturates at 0xFF -/
  | CLK_PWR_STAT_DUTY
  /-- Step rate over the last 10 µs, in M steps/s (R363) -/
  | CLK_REGION_RATE
  /-- Present level -/
  | CLK_REGION_LEVEL
  /-- The brake is applied -/
  | CLK_REGION_BRAKED
  /-- At or above T_SLOW (R369) -/
  | CLK_REGION_HOT
  /-- Junction temperature in °C -/
  | CLK_REGION_TEMP
  /-- Lowest RATE since the last start -/
  | CLK_REGION_MIN_RATE
  /-- Brakes applied (R368). Saturates at 0xFFFF -/
  | CLK_REGION_BRAKES
  /-- 1 lets the controller sleep (R390) -/
  | INT_CTL_SLEEP_EN
  /-- Messages discarded (R383) and completions ignored (R386). Saturates at 0xFFFF -/
  | INT_STAT_BADMSG
  /-- Messages merged (R385). Saturates at 0xFFFF_FFFF -/
  | INT_STAT_MERGED
  /-- Wakes from sleep. Saturates at 0xFFFF -/
  | INT_STAT_WAKES
  /-- Package number of a shared source, or bank index in [7:0] for a private source. The read claims it (R386) -/
  | INT_CLAIM_SRC
  /-- 1 for a private source -/
  | INT_CLAIM_PRIV
  /-- 1 when nothing was deliverable -/
  | INT_CLAIM_NONE
  /-- Source to complete, in the layout of INT_CLAIM [16:0] -/
  | INT_COMPLETE_SRC
  /-- Least PRIO that asserts the line -/
  | INT_PROC_THRESH
  /-- Package number to raise, or bank index in [7:0] when PRIV = 1 (R383, R389) -/
  | INT_RAISE_SRC
  /-- 1 raises a private source -/
  | INT_RAISE_PRIV
  /-- Processor whose bank is raised -/
  | INT_RAISE_PROC
  /-- 0–3 Helm processor P0–P3, 4 port 0, 5 port 1. A write of 6 or 7 leaves the field unchanged -/
  | INT_SRC_TARGET
  /-- Priority, 3 highest -/
  | INT_SRC_PRIO
  /-- PF MSI-X entry for a port target (R387) -/
  | INT_SRC_VECTOR
  /-- 1 enables delivery -/
  | INT_SRC_EN
  /-- Event pending (R385, R388) -/
  | INT_SRC_PEND
  /-- Claimed and not completed -/
  | INT_SRC_ACTIVE
  /-- Priority, 3 highest -/
  | INT_PRIV_PRIO
  /-- 1 enables delivery -/
  | INT_PRIV_EN
  /-- Event pending -/
  | INT_PRIV_PEND
  /-- Claimed and not completed -/
  | INT_PRIV_ACTIVE
  /-- 0 RUNNING, 1 RESETTING, 2 FAILED (R379). 3 is not used -/
  | HELM_STAT_STATE
  /-- 1 while its partner holds its duties -/
  | HELM_STAT_DUTIES
  /-- Every processor of the die has FAILED (R380) -/
  | HELM_STAT_DIE_LOST
  /-- Resets since the last start. Saturates at 0xFFFF -/
  | HELM_STAT_RESETS
  /-- Cross-check disagreements as proposer (R377). Saturates at 0xFFFF -/
  | HELM_STAT_MISMATCH
  /-- Watchdog period in ms. 0 stops the watchdog (R378) -/
  | HELM_WDOG_PERIOD
  /-- 1 restarts the count -/
  | HELM_WDOG_KICK
  /-- 2, 4 or 8, from the variant record -/
  | ID_MODULE_DIES
  /-- 0 A, 1 B -/
  | ID_MODULE_GRADE
  /-- Exposed HBM in GiB -/
  | ID_MODULE_MEM_GIB
  /-- Stepping digit -/
  | ID_MODULE_STEP_NUM
  /-- Stepping letter: 0 A, 1 B, and so on -/
  | ID_MODULE_STEP_LTR
  /-- SVN of the accepted variant record -/
  | ID_MODULE_SVN
  /-- Module serial from the variant record -/
  | ID_SERIAL_SERIAL
  /-- Partition to reset, written together with GO (R402) -/
  | PKG_PART_RST_PART
  /-- 1 starts the reset. Accepted only from the lease holder, in any package state -/
  | PKG_PART_RST_GO
  /-- A partition reset is in progress -/
  | PKG_PART_RST_BUSY
  /-- Partition resets completed since the last start. Saturates at 0xFFFF -/
  | PKG_PART_RST_DONE
  /-- Must be 0xA5 in the same write as GO -/
  | PKG_RESET_CONFIRM
  /-- 1 starts a module reset (R403) -/
  | PKG_RESET_GO
  /-- Unused good spares of the die, NOROWS cores excluded -/
  | YLD_STAT_SPARES_LEFT
  /-- Bit h: stack H(h) is LOST -/
  | YLD_STAT_STACK_LOST
  /-- Absent logical cores of the die, withheld cores excluded -/
  | YLD_STAT_ABSENT
  /-- Chart entries in use, 0 to 8,192 -/
  | YLD_STAT_CHART_USED
  /-- Defects not recorded under R399. Saturates at 0xFFFF -/
  | YLD_STAT_CHART_DROPPED
  /-- Order of the table *Start sequence* in progress, 1 to 9. 0xA ready, 0xF failed -/
  | YLD_START_PHASE
  /-- Cause from the table *Start failures*. 0 none -/
  | YLD_START_FAIL
  /-- Length of the last completed start in ms -/
  | YLD_START_DURATION
  /-- Start count of D0's Chart record, mod 2^16 -/
  | YLD_START_START_NO
  /-- Unused good spares, 0 to 32, NOROWS cores excluded -/
  | YLD_GROUP_SPARES_LEFT
  /-- Absent logical offsets of the group, 0 to 1,024, including those marked in service -/
  | YLD_GROUP_ABSENT
  /-- Cores with a NOROWS entry. Saturates at 63 -/
  | YLD_GROUP_NOROWS
  /-- 1 for a group of a withheld subtree on grade B -/
  | YLD_GROUP_WITHHELD
  /-- Package number of the module (R413) -/
  | SAL_PKG_NUM
  /-- 1 when NUM is set -/
  | SAL_PKG_VALID
  /-- 1 enables the port (R406). 0 idles its Rose lanes -/
  | SAL_PORT_CTL_EN
  /-- Rose lanes: 0 none, 1 one, 2 two, 3 four, 4 eight (R405). 5 to 7 unchanged -/
  | SAL_PORT_CTL_WIDTH
  /-- Highest rung (R408) -/
  | SAL_PORT_CTL_MAX_RATE
  /-- 0 PRBS7, 1 PRBS13, 2 PRBS31. 3 unchanged -/
  | SAL_PORT_CTL_PAT
  /-- Dwell of 2^value bits, 20 to 31. Other values unchanged -/
  | SAL_PORT_CTL_DWELL_LOG2
  /-- Errors allowed per lane and rung -/
  | SAL_PORT_CTL_MAX_ERR
  /-- Seconds between bring-ups while DOWN. 0 means none -/
  | SAL_PORT_CTL_RETRY_S
  /-- 1 starts a retraining (R411) -/
  | SAL_PORT_CMD_RETRAIN
  /-- 1 enters TEST (R409) -/
  | SAL_PORT_CMD_TEST
  /-- 1 leaves TEST -/
  | SAL_PORT_CMD_TEST_END
  /-- 0 OFF, 1 DETECT, 2 TRAINING, 3 UP, 4 RETRAIN, 5 TEST, 6 DOWN. 7 is not used -/
  | SAL_PORT_STAT_STATE
  /-- Present rung -/
  | SAL_PORT_STAT_RATE
  /-- Width in use, coded as SAL_PORT_CTL.WIDTH -/
  | SAL_PORT_STAT_WIDTH
  /-- Lane order reversed -/
  | SAL_PORT_STAT_REV
  /-- Cause of the last DOWN: 0 none, 1 no width, 2 rung 0 failed, 3 width mismatch, 4 lane order. 5 to 7 are not used -/
  | SAL_PORT_STAT_REASON
  /-- Retrainings since the last start. Saturates at 0xFFFF -/
  | SAL_PORT_STAT_RETRAINS
  /-- Entries into DOWN. Saturates at 0xFFFF -/
  | SAL_PORT_STAT_DOWNS
  /-- Peer package number (R407) -/
  | SAL_PORT_PEER_PKG
  /-- Peer die -/
  | SAL_PORT_PEER_DIE
  /-- Peer port -/
  | SAL_PORT_PEER_PORT
  /-- The peer's package number is valid -/
  | SAL_PORT_PEER_PVALID
  /-- A peer has been seen since the port was last UP -/
  | SAL_PORT_PEER_VALID
  /-- Flits sent again (R410) -/
  | SAL_PORT_ERR_REPLAYS
  /-- Packets discarded (R415) -/
  | SAL_PORT_ERR_MALFORMED
  /-- Packets refused for DPKG (R414, R415) -/
  | SAL_PORT_ERR_MISDIRECT
  /-- Packets refused at DOWN (R412) -/
  | SAL_PORT_ERR_LOST
  /-- 0 none, 1 open, 2 short to ground, 3 short to supply, 4 quality. 5 to 7 are not used -/
  | SAL_LANE_STAT_FAULT
  /-- Polarity inverted by the receiver -/
  | SAL_LANE_STAT_POL
  /-- Receiver locked -/
  | SAL_LANE_STAT_LOCK
  /-- Errors in the last dwell or TEST. Saturates at 0xFFFF_FFFF -/
  | SAL_LANE_STAT_PRBS_ERR
  /-- Raw blocks discarded (R417). Saturates at 0xFFFF_FFFF -/
  | SAL_LANE_STAT_TXDISC
  /-- Coolant inlet temperature in °C (R419) -/
  | MOD_STAT_COOL_IN
  /-- Coolant outlet temperature in °C -/
  | MOD_STAT_COOL_OUT
  /-- The leak sensor has conducted -/
  | MOD_STAT_LEAK
  /-- The outlet exceeded the inlet by 20 K, or reached 60 °C -/
  | MOD_STAT_COOL_ALARM
  /-- The input lies below 48 V (R422) -/
  | MOD_STAT_VIN_LOW
  /-- Cause of the last switch opening (R422). 0 none since the standby domain was powered. 7 is not used -/
  | MOD_STAT_LAST_OFF
  /-- Latched openings while the standby domain has been powered (R423). Saturates at 0xFFFF -/
  | MOD_STAT_TRIPS
  deriving DecidableEq, Repr

/-- One field: lowest bit, width, access code, reset value, and how often it repeats in the register and at what bit
distance. -/
structure FInfo where
  lo : Nat
  width : Nat
  acc : Acc
  reset : Nat
  rep : Nat
  dist : Nat
  deriving DecidableEq, Repr

/-- One register: block base and offset (R29), width in bits, class, scope, distance and number of array elements. -/
structure RInfo where
  block : Nat
  off : Nat
  width : Nat
  cls : Cls
  scope : Scope
  stride : Nat
  count : Nat
  deriving DecidableEq, Repr

/-- The bits, access code and reset value of each field, from the register tables. -/
def Fld.info : Fld → FInfo
  | .YLD_STAGE_WDOG_LIMIT => ⟨0, 16, .rwl, 0x64, 1, 0⟩
  | .YLD_STAGE_WDOG_REPORT_ONLY => ⟨16, 1, .rwl, 0, 1, 0⟩
  | .YLD_STAGE_TMO_CNT_COUNT => ⟨0, 32, .ro, 0, 1, 0⟩
  | .YLD_ROW_CE_LIMIT_LIMIT => ⟨0, 4, .rwl, 8, 1, 0⟩
  | .YLD_ROW_STAT_MAPOUT => ⟨0, 16, .ro, 0, 1, 0⟩
  | .YLD_ROW_STAT_EXHAUSTED => ⟨16, 16, .ro, 0, 1, 0⟩
  | .YLD_ROW_ERR_CE => ⟨0, 24, .ro, 0, 1, 0⟩
  | .YLD_ROW_ERR_UE => ⟨24, 8, .ro, 0, 1, 0⟩
  | .ROSE_MODE_PRIO => ⟨0, 1, .rwl, 0, 1, 0⟩
  | .ROSE_MODE_TALLY_HOLD => ⟨1, 4, .rwl, 8, 1, 0⟩
  | .ROSE_MODE_CORE_SLEEP => ⟨5, 1, .rwl, 1, 1, 0⟩
  | .ROSE_MODE_RTR_SLEEP => ⟨6, 1, .rwl, 1, 1, 0⟩
  | .ROSE_MODE_SLEEP_IDLE => ⟨16, 16, .rwl, 0xa, 1, 0⟩
  | .ROSE_REFUSE_STAT_RST => ⟨0, 16, .ro, 0, 1, 0⟩
  | .ROSE_REFUSE_STAT_DEN => ⟨16, 16, .ro, 0, 1, 0⟩
  | .ROSE_REFUSE_STAT_ABS => ⟨32, 16, .ro, 0, 1, 0⟩
  | .ROSE_REFUSE_STAT_ABSORBED => ⟨48, 16, .ro, 0, 1, 0⟩
  | .ROSE_CTX_REFUSE_RST => ⟨0, 20, .ro, 0, 1, 0⟩
  | .ROSE_CTX_REFUSE_DEN => ⟨20, 20, .ro, 0, 1, 0⟩
  | .ROSE_CTX_REFUSE_ABS => ⟨40, 20, .ro, 0, 1, 0⟩
  | .HBM_CTL_PAGE_DEFAULT => ⟨0, 1, .rwl, 0, 1, 0⟩
  | .HBM_CTL_OPEN_IDLE => ⟨1, 11, .rwl, 0x10, 1, 0⟩
  | .HBM_CTL_SCRUB_EN => ⟨12, 1, .rwl, 1, 1, 0⟩
  | .HBM_CTL_SCRUB_HOURS => ⟨16, 5, .rwl, 0x18, 1, 0⟩
  | .HBM_CTL_RATE => ⟨21, 2, .rwl, 0, 1, 0⟩
  | .HBM_HAMMER_PROB => ⟨0, 3, .rwl, 1, 1, 0⟩
  | .HBM_HAMMER_DIST2 => ⟨3, 1, .rwl, 0, 1, 0⟩
  | .HBM_STATE_STATE => ⟨0, 3, .ro, 0, 1, 0⟩
  | .HBM_STATE_FREQ => ⟨3, 2, .ro, 0, 1, 0⟩
  | .HBM_STATE_TSET => ⟨5, 1, .ro, 0, 1, 0⟩
  | .HBM_STATE_HOT => ⟨6, 1, .ro, 0, 1, 0⟩
  | .HBM_STATE_CFGERR => ⟨7, 1, .w1c, 0, 1, 0⟩
  | .HBM_STATE_TEMP => ⟨8, 8, .ro, 0, 1, 0⟩
  | .HBM_STATE_FAILS => ⟨16, 2, .ro, 0, 1, 0⟩
  | .HBM_FREQ_REQ_FREQ => ⟨0, 2, .wo, 0, 1, 0⟩
  | .HBM_FREQ_REQ_GO => ⟨2, 1, .wo, 0, 1, 0⟩
  | .HBM_RETRAIN_REQ_GO => ⟨0, 1, .wo, 0, 1, 0⟩
  | .HBM_ECC_STAT_CE => ⟨0, 24, .ro, 0, 1, 0⟩
  | .HBM_ECC_STAT_UE => ⟨24, 16, .ro, 0, 1, 0⟩
  | .HBM_ECC_STAT_ONDIE => ⟨40, 24, .ro, 0, 1, 0⟩
  | .HBM_HAMMER_CNT_NREF => ⟨0, 48, .ro, 0, 1, 0⟩
  | .HBM_RETRAIN_STAT_RETRAINS => ⟨0, 16, .ro, 0, 1, 0⟩
  | .HBM_RETRAIN_STAT_FAILS => ⟨16, 8, .ro, 0, 1, 0⟩
  | .HBM_RETRAIN_STAT_FCHG => ⟨24, 8, .ro, 0, 1, 0⟩
  | .HBM_TIMING_A_TRCD => ⟨0, 8, .rw, 0, 1, 0⟩
  | .HBM_TIMING_A_TRP => ⟨8, 8, .rw, 0, 1, 0⟩
  | .HBM_TIMING_A_TRAS => ⟨16, 8, .rw, 0, 1, 0⟩
  | .HBM_TIMING_A_TRC => ⟨24, 8, .rw, 0, 1, 0⟩
  | .HBM_TIMING_A_TRRD => ⟨32, 8, .rw, 0, 1, 0⟩
  | .HBM_TIMING_A_TFAW => ⟨40, 8, .rw, 0, 1, 0⟩
  | .HBM_TIMING_A_TWR => ⟨48, 8, .rw, 0, 1, 0⟩
  | .HBM_TIMING_A_TRTP => ⟨56, 8, .rw, 0, 1, 0⟩
  | .HBM_TIMING_A_TREFI => ⟨64, 16, .rw, 0, 1, 0⟩
  | .HBM_TIMING_A_TRFCSB => ⟨80, 12, .rw, 0, 1, 0⟩
  | .HBM_TIMING_A_RATE => ⟨92, 4, .rw, 0, 1, 0⟩
  | .HBM_TIMING_B_TRCD => ⟨0, 8, .rw, 0, 1, 0⟩
  | .HBM_TIMING_B_TRP => ⟨8, 8, .rw, 0, 1, 0⟩
  | .HBM_TIMING_B_TRAS => ⟨16, 8, .rw, 0, 1, 0⟩
  | .HBM_TIMING_B_TRC => ⟨24, 8, .rw, 0, 1, 0⟩
  | .HBM_TIMING_B_TRRD => ⟨32, 8, .rw, 0, 1, 0⟩
  | .HBM_TIMING_B_TFAW => ⟨40, 8, .rw, 0, 1, 0⟩
  | .HBM_TIMING_B_TWR => ⟨48, 8, .rw, 0, 1, 0⟩
  | .HBM_TIMING_B_TRTP => ⟨56, 8, .rw, 0, 1, 0⟩
  | .HBM_TIMING_B_TREFI => ⟨64, 16, .rw, 0, 1, 0⟩
  | .HBM_TIMING_B_TRFCSB => ⟨80, 12, .rw, 0, 1, 0⟩
  | .HBM_TIMING_B_RATE => ⟨92, 4, .rw, 0, 1, 0⟩
  | .XFR_MODE_RT_EN => ⟨0, 1, .rwl, 0, 1, 0⟩
  | .XFR_PRI_CTL_TIMEOUT => ⟨0, 16, .rwl, 0x3e8, 1, 0⟩
  | .XFR_PRI_CTL_RETRIES => ⟨16, 4, .rwl, 3, 1, 0⟩
  | .XFR_FAULT_STAT_PAGE_REQS => ⟨0, 24, .ro, 0, 1, 0⟩
  | .XFR_FAULT_STAT_PAGE_FAILS => ⟨24, 16, .ro, 0, 1, 0⟩
  | .XFR_FAULT_STAT_INVALS => ⟨40, 24, .ro, 0, 1, 0⟩
  | .XFR_RED_STAT_NV => ⟨0, 16, .ro, 0, 1, 0⟩
  | .XFR_RED_STAT_OF => ⟨16, 16, .ro, 0, 1, 0⟩
  | .XFR_RED_STAT_UF => ⟨32, 16, .ro, 0, 1, 0⟩
  | .XFR_RED_STAT_FMT => ⟨48, 16, .ro, 0, 1, 0⟩
  | .XFR_WIN_STAT_OPEN => ⟨0, 13, .ro, 0, 1, 0⟩
  | .XFR_WIN_STAT_FULL => ⟨16, 16, .ro, 0, 1, 0⟩
  | .XFR_CTX_MISS_MISSES => ⟨0, 32, .ro, 0, 1, 0⟩
  | .XFR_CTX_MISS_LATE_MAX => ⟨32, 32, .ro, 0, 1, 0⟩
  | .XFR_WIN_BASE => ⟨0, 48, .ro, 0, 1, 0⟩
  | .XFR_WIN_SIZE => ⟨64, 28, .ro, 0, 1, 0⟩
  | .XFR_WIN_SRC_PKG => ⟨96, 16, .ro, 0, 1, 0⟩
  | .XFR_WIN_SRC_MASK => ⟨112, 16, .ro, 0, 1, 0⟩
  | .XFR_WIN_CTX => ⟨128, 10, .ro, 0, 1, 0⟩
  | .XFR_WIN_RD => ⟨138, 1, .ro, 0, 1, 0⟩
  | .XFR_WIN_WR => ⟨139, 1, .ro, 0, 1, 0⟩
  | .XFR_WIN_VALID => ⟨140, 1, .ro, 0, 1, 0⟩
  | .XFR_WIN_HANDLE => ⟨141, 12, .ro, 0, 1, 0⟩
  | .PKG_LEASE_HOLDER => ⟨0, 2, .ro, 0, 1, 0⟩
  | .PKG_LEASE_MINE => ⟨2, 1, .ro, 0, 1, 0⟩
  | .PKG_LEASE_ACQUIRE => ⟨3, 1, .wo, 0, 1, 0⟩
  | .PKG_LEASE_RELEASE => ⟨4, 1, .wo, 0, 1, 0⟩
  | .PKG_LEASE_TIMEOUT_SECONDS => ⟨0, 16, .rwl, 0xa, 1, 0⟩
  | .PCI_ACC_VIOL_COUNT => ⟨0, 32, .ro, 0, 1, 0⟩
  | .PCI_DBG_CTL_OPEN => ⟨0, 1, .rwl, 0, 1, 0⟩
  | .PCI_DBG_CTL_WR_EN => ⟨1, 1, .rwl, 0, 1, 0⟩
  | .PCI_DBG_CTL_BASE => ⟨30, 18, .rwl, 0, 1, 0⟩
  | .PCI_LINK_STAT_UP => ⟨0, 1, .ro, 0, 1, 0⟩
  | .PCI_LINK_STAT_TIMER_RUN => ⟨1, 1, .ro, 0, 1, 0⟩
  | .PCI_LINK_STAT_DOWN_COUNT => ⟨16, 16, .ro, 0, 1, 0⟩
  | .PCI_VF_CTX_CTX => ⟨0, 10, .rw, 0, 1, 0⟩
  | .PCI_VF_CTX_VALID => ⟨10, 1, .rw, 0, 1, 0⟩
  | .PKG_CTL_CMD => ⟨0, 2, .wo, 0, 1, 0⟩
  | .PKG_STATE_STATE => ⟨0, 2, .ro, 0, 1, 0⟩
  | .PKG_STATE_CMDERR => ⟨2, 1, .w1c, 0, 1, 0⟩
  | .PKG_STATE_STOPS => ⟨16, 16, .ro, 0, 1, 0⟩
  | .PKG_LWR_ERR_OFFSET => ⟨0, 28, .ro, 0, 1, 0⟩
  | .PKG_LWR_ERR_SRC => ⟨28, 2, .ro, 0, 1, 0⟩
  | .PKG_LWR_ERR_COUNT => ⟨32, 32, .ro, 0, 1, 0⟩
  | .PKG_RING_CFG_POLL => ⟨0, 16, .rwl, 0xa, 1, 0⟩
  | .PKG_PART_CORE_SHARE => ⟨0, 2, .rwl, 3, 1, 0⟩
  | .PKG_PART_CORE_PART => ⟨2, 4, .rwl, 0, 1, 0⟩
  | .PKG_PART_HBM_SHARE => ⟨0, 2, .rwl, 3, 1, 0⟩
  | .CTX_STATE_STATE => ⟨0, 3, .ro, 0, 1, 0⟩
  | .CTX_STATE_BUSY => ⟨3, 1, .ro, 0, 1, 0⟩
  | .CTX_STATE_PKG_HELD => ⟨4, 1, .ro, 0, 1, 0⟩
  | .CTX_STATE_LINK => ⟨5, 1, .ro, 0, 1, 0⟩
  | .CTX_STATE_OWNER => ⟨6, 2, .ro, 0, 1, 0⟩
  | .CTX_STATE_CMDERR => ⟨8, 3, .ro, 0, 1, 0⟩
  | .CTX_STATE_PREV => ⟨11, 3, .ro, 0, 1, 0⟩
  | .CTX_STATE_FSTATUS => ⟨16, 16, .ro, 0, 1, 0⟩
  | .CTX_CMD_CMD => ⟨0, 3, .wo, 0, 1, 0⟩
  | .CTX_RING_SQ_BASE => ⟨0, 64, .rw, 0, 1, 0⟩
  | .CTX_RING_CQ_BASE => ⟨64, 64, .rw, 0, 1, 0⟩
  | .CTX_RING_SQ_LOG2 => ⟨128, 4, .rw, 0, 1, 0⟩
  | .CTX_RING_CQ_LOG2 => ⟨132, 4, .rw, 0, 1, 0⟩
  | .CTX_RING_PASID => ⟨136, 20, .rw, 0, 1, 0⟩
  | .CTX_RING_PV => ⟨156, 1, .rw, 0, 1, 0⟩
  | .CTX_RING_POS_SQ_HEAD => ⟨0, 16, .ro, 0, 1, 0⟩
  | .CTX_RING_POS_LAP => ⟨16, 8, .ro, 0, 1, 0⟩
  | .CTX_RING_POS_FETCHED => ⟨24, 8, .ro, 0, 1, 0⟩
  | .CTX_RING_POS_CQ_TAIL => ⟨32, 16, .ro, 0, 1, 0⟩
  | .CTX_RING_POS_PHASE => ⟨48, 1, .ro, 1, 1, 0⟩
  | .CTX_RING_POS_RETIRED_SEQ => ⟨64, 32, .ro, 0, 1, 0⟩
  | .CTX_PREEMPT_MODE => ⟨0, 1, .rw, 0, 1, 0⟩
  | .CTX_PREEMPT_YIELD_LIMIT => ⟨16, 16, .rw, 0x64, 1, 0⟩
  | .CTX_AREA_SAVE_BASE => ⟨0, 48, .rw, 0, 1, 0⟩
  | .CTX_AREA_HELD_BASE => ⟨64, 48, .rw, 0, 1, 0⟩
  | .CTX_AREA_HELD_SIZE => ⟨112, 16, .rw, 0, 1, 0⟩
  | .CTX_AREA_FIX_BASE => ⟨128, 48, .rw, 0, 1, 0⟩
  | .CTX_AREA_FIX_N => ⟨176, 3, .rw, 1, 1, 0⟩
  | .CTX_AREA_LOG_BASE => ⟨192, 48, .rw, 0, 1, 0⟩
  | .CTX_AREA_LOG_SIZE => ⟨240, 16, .rw, 0, 1, 0⟩
  | .CTX_EVENT_REFUSE => ⟨0, 1, .ro, 0, 1, 0⟩
  | .CTX_EVENT_DEADLINE => ⟨1, 1, .ro, 0, 1, 0⟩
  | .CTX_EVENT_STATE => ⟨2, 1, .ro, 0, 1, 0⟩
  | .CTX_EVENT_RING => ⟨3, 1, .ro, 0, 1, 0⟩
  | .CTX_EVENT_MSIX => ⟨4, 1, .ro, 0, 1, 0⟩
  | .CTX_MSIX_CQ_VEC => ⟨0, 11, .rw, 0, 1, 0⟩
  | .CTX_MSIX_EV_VEC => ⟨16, 11, .rw, 0, 1, 0⟩
  | .CTX_ERR_GEN => ⟨0, 16, .ro, 0, 1, 0⟩
  | .CTX_ERR_DBELL => ⟨16, 16, .ro, 0, 1, 0⟩
  | .CTX_ERR_HELDFULL => ⟨32, 32, .ro, 0, 1, 0⟩
  | .CTX_CORES_BASE => ⟨0, 20, .rw, 0, 1, 0⟩
  | .CTX_CORES_LEVEL => ⟨20, 4, .rw, 0, 1, 0⟩
  | .CTX_CORES_VALID => ⟨24, 1, .rw, 0, 1, 0⟩
  | .CTX_HBM_BASE => ⟨0, 24, .rw, 0, 1, 0⟩
  | .CTX_HBM_SIZE => ⟨24, 24, .rw, 0, 1, 0⟩
  | .CTX_HBM_VALID => ⟨48, 1, .rw, 0, 1, 0⟩
  | .CTX_STREAM_HELD => ⟨0, 8, .ro, 0, 1, 0⟩
  | .CTX_STREAM_VALID => ⟨8, 1, .ro, 0, 1, 0⟩
  | .CTX_STREAM_SERVED => ⟨32, 32, .ro, 0, 1, 0⟩
  | .PKG_LOG_MODE_MODE => ⟨0, 2, .rwl, 2, 1, 0⟩
  | .PKG_LOG_MODE_MAX_REPLAY => ⟨2, 4, .rwl, 3, 1, 0⟩
  | .HBM_FIX_MAP_USED => ⟨0, 15, .ro, 0, 1, 0⟩
  | .HBM_FIX_MAP_FULL => ⟨16, 16, .ro, 0, 1, 0⟩
  | .CTX_FIX_HELD => ⟨0, 3, .ro, 0, 1, 0⟩
  | .CTX_FIX_OPEN => ⟨3, 1, .ro, 0, 1, 0⟩
  | .CTX_FIX_CONFLICT => ⟨16, 16, .ro, 0, 1, 0⟩
  | .CTX_FIX_COMMITS => ⟨32, 16, .ro, 0, 1, 0⟩
  | .CTX_FIX_ABORTS => ⟨48, 16, .ro, 0, 1, 0⟩
  | .CTX_LOG_NEXT_LSEQ => ⟨0, 48, .ro, 1, 1, 0⟩
  | .CTX_LOG_REPLAYS => ⟨64, 32, .ro, 0, 1, 0⟩
  | .CTX_LOG_LOST => ⟨96, 32, .ro, 0, 1, 0⟩
  | .CTX_LOG_FAULT_CORE => ⟨0, 20, .ro, 0, 1, 0⟩
  | .CTX_LOG_FAULT_CAUSE => ⟨20, 4, .ro, 0, 1, 0⟩
  | .CTX_LOG_FAULT_REASON => ⟨24, 3, .ro, 0, 1, 0⟩
  | .CTX_LOG_FAULT_LSEQ => ⟨64, 48, .ro, 0, 1, 0⟩
  | .FAB_TP_CTL_RD_TIMEOUT => ⟨0, 16, .rwl, 0xa, 1, 0⟩
  | .FAB_ERR_STAT_BRAM_CE => ⟨0, 24, .ro, 0, 1, 0⟩
  | .FAB_ERR_STAT_BRAM_UE => ⟨24, 16, .ro, 0, 1, 0⟩
  | .FAB_ERR_STAT_SEQERR => ⟨40, 16, .ro, 0, 1, 0⟩
  | .FAB_GPIO_STAT_SHORT => ⟨0, 32, .w1c, 0, 1, 0⟩
  | .FAB_TP_BIND_CTX => ⟨0, 10, .rwl, 0, 1, 0⟩
  | .FAB_TP_BIND_EN => ⟨10, 1, .rwl, 0, 1, 0⟩
  | .FAB_TP_STAT_BADHDR => ⟨0, 16, .ro, 0, 1, 0⟩
  | .FAB_TP_STAT_UNBOUND => ⟨16, 16, .ro, 0, 1, 0⟩
  | .FAB_TP_STAT_RD_TMO => ⟨32, 16, .ro, 0, 1, 0⟩
  | .FAB_TP_STAT_TXLVL => ⟨48, 6, .ro, 0, 1, 0⟩
  | .FAB_TP_STAT_RXLVL => ⟨54, 6, .ro, 0, 1, 0⟩
  | .FAB_RAW_STAT_RXDROP => ⟨0, 32, .ro, 0, 1, 0⟩
  | .FAB_RAW_STAT_BADBLK => ⟨32, 32, .ro, 0, 1, 0⟩
  | .CFG_STAT_SLOT => ⟨0, 1, .ro, 0, 1, 0⟩
  | .CFG_STAT_BOOT => ⟨1, 2, .ro, 0, 1, 0⟩
  | .CFG_STAT_LOCKTMO => ⟨3, 1, .ro, 0, 1, 0⟩
  | .CFG_STAT_REASON => ⟨8, 4, .ro, 0, 1, 0⟩
  | .CFG_STAT_REGION => ⟨12, 4, .ro, 0, 1, 0⟩
  | .CFG_STAT_LOADS => ⟨16, 16, .ro, 0, 1, 0⟩
  | .CFG_STAT_STREAM_ID => ⟨32, 32, .ro, 0, 1, 0⟩
  | .CFG_REGIONS_STATE => ⟨0, 2, .ro, 1, 16, 2⟩
  | .CFG_REGION_OWN_CTX => ⟨0, 10, .rwl, 0, 1, 0⟩
  | .CFG_REGION_OWN_EN => ⟨10, 1, .rwl, 0, 1, 0⟩
  | .CFG_FLASH_WR_SRC => ⟨0, 48, .rwl, 0, 1, 0⟩
  | .CFG_FLASH_WR_LEN => ⟨64, 32, .rwl, 0, 1, 0⟩
  | .CFG_FLASH_WR_SLOT => ⟨96, 1, .rwl, 0, 1, 0⟩
  | .CFG_FLASH_WR_GO => ⟨97, 1, .wo, 0, 1, 0⟩
  | .CFG_FLASH_STAT_BUSY => ⟨0, 1, .ro, 0, 1, 0⟩
  | .CFG_FLASH_STAT_RESULT => ⟨1, 3, .ro, 0, 1, 0⟩
  | .CFG_FLASH_STAT_PROGRESS => ⟨16, 16, .ro, 0, 1, 0⟩
  | .SEC_STAT_PUF_FAIL => ⟨0, 8, .ro, 0, 1, 0⟩
  | .SEC_STAT_RK_OK => ⟨8, 8, .ro, 0, 1, 0⟩
  | .SEC_STAT_VK_OK => ⟨16, 1, .ro, 0, 1, 0⟩
  | .SEC_STAT_VAULT_ERR => ⟨17, 1, .ro, 0, 1, 0⟩
  | .SEC_STAT_FW_SLOT => ⟨18, 1, .ro, 0, 1, 0⟩
  | .SEC_STAT_FW_FALLBACK => ⟨19, 1, .ro, 0, 1, 0⟩
  | .SEC_STAT_FW_FLOOR => ⟨32, 16, .ro, 0, 1, 0⟩
  | .SEC_ATT_STAT_KEY => ⟨0, 10, .ro, 0, 1, 0⟩
  | .SEC_ATT_STAT_GENERATING => ⟨10, 1, .ro, 0, 1, 0⟩
  | .SEC_ATT_STAT_PENDING => ⟨11, 1, .ro, 0, 1, 0⟩
  | .SEC_ATT_STAT_REFUSE_CAUSE => ⟨12, 3, .ro, 0, 1, 0⟩
  | .SEC_ATT_STAT_NEXT_INDEX => ⟨16, 21, .ro, 0, 1, 0⟩
  | .SEC_ATT_STAT_ID_LEFT => ⟨37, 11, .ro, 0, 1, 0⟩
  | .SEC_ATT_CTL_MIN_INTERVAL => ⟨0, 16, .rwl, 0x64, 1, 0⟩
  | .SEC_KEY_WR_SRC => ⟨0, 48, .rwl, 0, 1, 0⟩
  | .SEC_KEY_WR_TARGET => ⟨64, 4, .rwl, 0, 1, 0⟩
  | .SEC_KEY_WR_REVOKE => ⟨68, 1, .rwl, 0, 1, 0⟩
  | .SEC_KEY_WR_GO => ⟨69, 1, .wo, 0, 1, 0⟩
  | .SEC_FW_WR_SRC => ⟨0, 48, .rwl, 0, 1, 0⟩
  | .SEC_FW_WR_LEN => ⟨64, 32, .rwl, 0, 1, 0⟩
  | .SEC_FW_WR_GO => ⟨96, 1, .wo, 0, 1, 0⟩
  | .SEC_VAULT_STAT_BUSY => ⟨0, 1, .ro, 0, 1, 0⟩
  | .SEC_VAULT_STAT_RESULT => ⟨1, 3, .ro, 0, 1, 0⟩
  | .CLK_SRC_STAT_RDY => ⟨0, 4, .ro, 0, 1, 0⟩
  | .CLK_SRC_STAT_LOCK => ⟨4, 6, .ro, 0, 1, 0⟩
  | .CLK_SRC_STAT_COAST => ⟨10, 6, .ro, 0, 1, 0⟩
  | .CLK_FAIL_SRC => ⟨0, 4, .w1c, 0, 1, 0⟩
  | .CLK_FAIL_LOOP => ⟨4, 6, .w1c, 0, 1, 0⟩
  | .CLK_FAIL_REFUSED => ⟨16, 16, .ro, 0, 1, 0⟩
  | .CLK_FAIL_FAILS => ⟨32, 32, .ro, 0, 1, 0⟩
  | .CLK_REF_SEL_REF => ⟨0, 12, .rw, 0, 1, 0⟩
  | .CLK_REF_SEL_XIN_A_MHZ => ⟨12, 7, .rw, 0x64, 1, 0⟩
  | .CLK_REF_SEL_XIN_B_MHZ => ⟨19, 7, .rw, 0x64, 1, 0⟩
  | .CLK_SRC_SEL_SEL => ⟨0, 2, .rw, 0, 5, 8⟩
  | .CLK_SRC_SEL_DIVM1 => ⟨2, 6, .rw, 1, 5, 8⟩
  | .CLK_GATE_HBM => ⟨0, 2, .rwl, 0, 1, 0⟩
  | .CLK_GATE_SALLAN => ⟨2, 4, .rwl, 0, 1, 0⟩
  | .CLK_GATE_FAB => ⟨6, 1, .rwl, 0, 1, 0⟩
  | .CLK_GATE_MEAS => ⟨7, 1, .rwl, 0, 1, 0⟩
  | .CLK_GATE_CLKOUT => ⟨8, 1, .rwl, 0, 1, 0⟩
  | .CLK_GATE_ERR_ERR => ⟨0, 9, .w1c, 0, 1, 0⟩
  | .CLK_FAB_FREQ_F => ⟨0, 8, .rwl, 0x50, 4, 8⟩
  | .CLK_MEAS_CTL_REF => ⟨0, 4, .rw, 0, 1, 0⟩
  | .CLK_MEAS_CTL_MEAS => ⟨4, 4, .rw, 0, 1, 0⟩
  | .CLK_MEAS_CTL_GO => ⟨8, 1, .wo, 0, 1, 0⟩
  | .CLK_MEAS_CTL_WINDOWM1 => ⟨16, 16, .rw, 0, 1, 0⟩
  | .CLK_MEAS_RES_COUNT => ⟨0, 32, .ro, 0, 1, 0⟩
  | .CLK_MEAS_RES_DONE => ⟨32, 1, .ro, 0, 1, 0⟩
  | .CLK_MEAS_RES_ERR => ⟨33, 1, .w1c, 0, 1, 0⟩
  | .CLK_MEAS_RES_OVF => ⟨34, 1, .ro, 0, 1, 0⟩
  | .CLK_OUT_CTL_SEL => ⟨0, 4, .rw, 0, 1, 0⟩
  | .CLK_OUT_CTL_DIVM1 => ⟨4, 12, .rw, 0, 1, 0⟩
  | .CLK_OUT_CTL_EN => ⟨16, 1, .rw, 0, 1, 0⟩
  | .CLK_OUT_CTL_ERR => ⟨17, 1, .w1c, 0, 1, 0⟩
  | .CLK_APER_MODE => ⟨0, 2, .rwl, 0, 1, 0⟩
  | .CLK_APER_FLOOR_EN => ⟨2, 1, .rwl, 0, 1, 0⟩
  | .CLK_APER_RT_FLOOR => ⟨3, 3, .rwl, 0, 1, 0⟩
  | .CLK_APER_T_SLOW => ⟨8, 8, .rwl, 0x64, 1, 0⟩
  | .CLK_APER_T_BRAKE => ⟨16, 8, .rwl, 0x6e, 1, 0⟩
  | .CLK_APER_BRAKE_HOLD => ⟨24, 8, .rwl, 0xa, 1, 0⟩
  | .CLK_PWR_STAT_PIN => ⟨0, 16, .ro, 0, 1, 0⟩
  | .CLK_PWR_STAT_VIN => ⟨16, 16, .ro, 0, 1, 0⟩
  | .CLK_PWR_STAT_DOWNS => ⟨32, 16, .ro, 0, 1, 0⟩
  | .CLK_PWR_STAT_FLOOR_OVR => ⟨48, 8, .ro, 0, 1, 0⟩
  | .CLK_PWR_STAT_DUTY => ⟨56, 8, .ro, 0, 1, 0⟩
  | .CLK_REGION_RATE => ⟨0, 16, .ro, 0, 1, 0⟩
  | .CLK_REGION_LEVEL => ⟨16, 3, .ro, 0, 1, 0⟩
  | .CLK_REGION_BRAKED => ⟨19, 1, .ro, 0, 1, 0⟩
  | .CLK_REGION_HOT => ⟨20, 1, .ro, 0, 1, 0⟩
  | .CLK_REGION_TEMP => ⟨24, 8, .ro, 0, 1, 0⟩
  | .CLK_REGION_MIN_RATE => ⟨32, 16, .ro, 0, 1, 0⟩
  | .CLK_REGION_BRAKES => ⟨48, 16, .ro, 0, 1, 0⟩
  | .INT_CTL_SLEEP_EN => ⟨0, 1, .rw, 0, 1, 0⟩
  | .INT_STAT_BADMSG => ⟨0, 16, .ro, 0, 1, 0⟩
  | .INT_STAT_MERGED => ⟨16, 32, .ro, 0, 1, 0⟩
  | .INT_STAT_WAKES => ⟨48, 16, .ro, 0, 1, 0⟩
  | .INT_CLAIM_SRC => ⟨0, 16, .ro, 0, 1, 0⟩
  | .INT_CLAIM_PRIV => ⟨16, 1, .ro, 0, 1, 0⟩
  | .INT_CLAIM_NONE => ⟨17, 1, .ro, 1, 1, 0⟩
  | .INT_COMPLETE_SRC => ⟨0, 17, .wo, 0, 1, 0⟩
  | .INT_PROC_THRESH => ⟨0, 2, .rw, 0, 1, 0⟩
  | .INT_RAISE_SRC => ⟨0, 16, .wo, 0, 1, 0⟩
  | .INT_RAISE_PRIV => ⟨16, 1, .wo, 0, 1, 0⟩
  | .INT_RAISE_PROC => ⟨17, 2, .wo, 0, 1, 0⟩
  | .INT_SRC_TARGET => ⟨0, 3, .rw, 0, 1, 0⟩
  | .INT_SRC_PRIO => ⟨4, 2, .rw, 0, 1, 0⟩
  | .INT_SRC_VECTOR => ⟨8, 11, .rw, 0, 1, 0⟩
  | .INT_SRC_EN => ⟨24, 1, .rw, 0, 1, 0⟩
  | .INT_SRC_PEND => ⟨28, 1, .w1c, 0, 1, 0⟩
  | .INT_SRC_ACTIVE => ⟨29, 1, .ro, 0, 1, 0⟩
  | .INT_PRIV_PRIO => ⟨0, 2, .rw, 0, 1, 0⟩
  | .INT_PRIV_EN => ⟨24, 1, .rw, 0, 1, 0⟩
  | .INT_PRIV_PEND => ⟨28, 1, .w1c, 0, 1, 0⟩
  | .INT_PRIV_ACTIVE => ⟨29, 1, .ro, 0, 1, 0⟩
  | .HELM_STAT_STATE => ⟨0, 2, .ro, 0, 1, 0⟩
  | .HELM_STAT_DUTIES => ⟨2, 1, .ro, 0, 1, 0⟩
  | .HELM_STAT_DIE_LOST => ⟨3, 1, .ro, 0, 1, 0⟩
  | .HELM_STAT_RESETS => ⟨16, 16, .ro, 0, 1, 0⟩
  | .HELM_STAT_MISMATCH => ⟨32, 16, .ro, 0, 1, 0⟩
  | .HELM_WDOG_PERIOD => ⟨0, 16, .rw, 0xa, 1, 0⟩
  | .HELM_WDOG_KICK => ⟨16, 1, .wo, 0, 1, 0⟩
  | .ID_MODULE_DIES => ⟨0, 4, .ro, 0, 1, 0⟩
  | .ID_MODULE_GRADE => ⟨4, 1, .ro, 0, 1, 0⟩
  | .ID_MODULE_MEM_GIB => ⟨8, 10, .ro, 0, 1, 0⟩
  | .ID_MODULE_STEP_NUM => ⟨24, 4, .ro, 0, 1, 0⟩
  | .ID_MODULE_STEP_LTR => ⟨28, 4, .ro, 0, 1, 0⟩
  | .ID_MODULE_SVN => ⟨32, 16, .ro, 0, 1, 0⟩
  | .ID_SERIAL_SERIAL => ⟨0, 128, .ro, 0, 1, 0⟩
  | .PKG_PART_RST_PART => ⟨0, 4, .wo, 0, 1, 0⟩
  | .PKG_PART_RST_GO => ⟨4, 1, .wo, 0, 1, 0⟩
  | .PKG_PART_RST_BUSY => ⟨5, 1, .ro, 0, 1, 0⟩
  | .PKG_PART_RST_DONE => ⟨16, 16, .ro, 0, 1, 0⟩
  | .PKG_RESET_CONFIRM => ⟨0, 8, .wo, 0, 1, 0⟩
  | .PKG_RESET_GO => ⟨8, 1, .wo, 0, 1, 0⟩
  | .YLD_STAT_SPARES_LEFT => ⟨0, 13, .ro, 0, 1, 0⟩
  | .YLD_STAT_STACK_LOST => ⟨13, 2, .ro, 0, 1, 0⟩
  | .YLD_STAT_ABSENT => ⟨16, 18, .ro, 0, 1, 0⟩
  | .YLD_STAT_CHART_USED => ⟨34, 14, .ro, 0, 1, 0⟩
  | .YLD_STAT_CHART_DROPPED => ⟨48, 16, .ro, 0, 1, 0⟩
  | .YLD_START_PHASE => ⟨0, 4, .ro, 0, 1, 0⟩
  | .YLD_START_FAIL => ⟨4, 4, .ro, 0, 1, 0⟩
  | .YLD_START_DURATION => ⟨16, 16, .ro, 0, 1, 0⟩
  | .YLD_START_START_NO => ⟨32, 16, .ro, 0, 1, 0⟩
  | .YLD_GROUP_SPARES_LEFT => ⟨0, 6, .ro, 0, 1, 0⟩
  | .YLD_GROUP_ABSENT => ⟨8, 11, .ro, 0, 1, 0⟩
  | .YLD_GROUP_NOROWS => ⟨20, 6, .ro, 0, 1, 0⟩
  | .YLD_GROUP_WITHHELD => ⟨26, 1, .ro, 0, 1, 0⟩
  | .SAL_PKG_NUM => ⟨0, 16, .rwl, 0, 1, 0⟩
  | .SAL_PKG_VALID => ⟨16, 1, .rwl, 0, 1, 0⟩
  | .SAL_PORT_CTL_EN => ⟨0, 1, .rwl, 1, 1, 0⟩
  | .SAL_PORT_CTL_WIDTH => ⟨1, 3, .rwl, 4, 1, 0⟩
  | .SAL_PORT_CTL_MAX_RATE => ⟨4, 2, .rwl, 3, 1, 0⟩
  | .SAL_PORT_CTL_PAT => ⟨6, 2, .rwl, 2, 1, 0⟩
  | .SAL_PORT_CTL_DWELL_LOG2 => ⟨8, 5, .rwl, 0x1f, 1, 0⟩
  | .SAL_PORT_CTL_MAX_ERR => ⟨16, 16, .rwl, 0x800, 1, 0⟩
  | .SAL_PORT_CTL_RETRY_S => ⟨32, 8, .rwl, 1, 1, 0⟩
  | .SAL_PORT_CMD_RETRAIN => ⟨0, 1, .wo, 0, 1, 0⟩
  | .SAL_PORT_CMD_TEST => ⟨1, 1, .wo, 0, 1, 0⟩
  | .SAL_PORT_CMD_TEST_END => ⟨2, 1, .wo, 0, 1, 0⟩
  | .SAL_PORT_STAT_STATE => ⟨0, 3, .ro, 0, 1, 0⟩
  | .SAL_PORT_STAT_RATE => ⟨3, 2, .ro, 0, 1, 0⟩
  | .SAL_PORT_STAT_WIDTH => ⟨5, 3, .ro, 0, 1, 0⟩
  | .SAL_PORT_STAT_REV => ⟨8, 1, .ro, 0, 1, 0⟩
  | .SAL_PORT_STAT_REASON => ⟨9, 3, .ro, 0, 1, 0⟩
  | .SAL_PORT_STAT_RETRAINS => ⟨16, 16, .ro, 0, 1, 0⟩
  | .SAL_PORT_STAT_DOWNS => ⟨32, 16, .ro, 0, 1, 0⟩
  | .SAL_PORT_PEER_PKG => ⟨0, 16, .ro, 0, 1, 0⟩
  | .SAL_PORT_PEER_DIE => ⟨16, 3, .ro, 0, 1, 0⟩
  | .SAL_PORT_PEER_PORT => ⟨19, 2, .ro, 0, 1, 0⟩
  | .SAL_PORT_PEER_PVALID => ⟨21, 1, .ro, 0, 1, 0⟩
  | .SAL_PORT_PEER_VALID => ⟨22, 1, .ro, 0, 1, 0⟩
  | .SAL_PORT_ERR_REPLAYS => ⟨0, 16, .ro, 0, 1, 0⟩
  | .SAL_PORT_ERR_MALFORMED => ⟨16, 16, .ro, 0, 1, 0⟩
  | .SAL_PORT_ERR_MISDIRECT => ⟨32, 16, .ro, 0, 1, 0⟩
  | .SAL_PORT_ERR_LOST => ⟨48, 16, .ro, 0, 1, 0⟩
  | .SAL_LANE_STAT_FAULT => ⟨0, 3, .ro, 0, 1, 0⟩
  | .SAL_LANE_STAT_POL => ⟨3, 1, .ro, 0, 1, 0⟩
  | .SAL_LANE_STAT_LOCK => ⟨4, 1, .ro, 0, 1, 0⟩
  | .SAL_LANE_STAT_PRBS_ERR => ⟨32, 32, .ro, 0, 1, 0⟩
  | .SAL_LANE_STAT_TXDISC => ⟨64, 32, .ro, 0, 1, 0⟩
  | .MOD_STAT_COOL_IN => ⟨0, 8, .ro, 0, 1, 0⟩
  | .MOD_STAT_COOL_OUT => ⟨8, 8, .ro, 0, 1, 0⟩
  | .MOD_STAT_LEAK => ⟨16, 1, .w1c, 0, 1, 0⟩
  | .MOD_STAT_COOL_ALARM => ⟨17, 1, .w1c, 0, 1, 0⟩
  | .MOD_STAT_VIN_LOW => ⟨18, 1, .ro, 0, 1, 0⟩
  | .MOD_STAT_LAST_OFF => ⟨24, 3, .ro, 0, 1, 0⟩
  | .MOD_STAT_TRIPS => ⟨32, 16, .ro, 0, 1, 0⟩

/-- The place, width, class and scope of each register. -/
def Rg.info : Rg → RInfo
  | .YLD_STAGE_WDOG => ⟨0x0a00000, 0x0400, 32, .lease, .die, 0, 1⟩
  | .YLD_STAGE_TMO_CNT => ⟨0x0a00000, 0x0408, 32, .open_, .die, 0, 1⟩
  | .YLD_ROW_CE_LIMIT => ⟨0x0a00000, 0x0410, 32, .lease, .die, 0, 1⟩
  | .YLD_ROW_STAT => ⟨0x0a00000, 0x0418, 32, .open_, .die, 0, 1⟩
  | .YLD_ROW_ERR => ⟨0x0a00000, 0x0420, 32, .open_, .die, 0, 1⟩
  | .ROSE_MODE => ⟨0x0600000, 0x0000, 32, .lease, .gov, 0, 1⟩
  | .ROSE_REFUSE_STAT => ⟨0x0600000, 0x0010, 64, .open_, .die, 0, 1⟩
  | .ROSE_CTX_REFUSE => ⟨0x0600000, 0x1000, 64, .owner, .die, 8, 1024⟩
  | .HBM_CTL => ⟨0x0400000, 0x0000, 32, .lease, .stk, 0, 1⟩
  | .HBM_HAMMER => ⟨0x0400000, 0x0008, 32, .lease, .govstk, 0, 1⟩
  | .HBM_STATE => ⟨0x0400000, 0x0010, 32, .open_, .stk, 0, 1⟩
  | .HBM_FREQ_REQ => ⟨0x0400000, 0x0018, 32, .helm, .stk, 0, 1⟩
  | .HBM_RETRAIN_REQ => ⟨0x0400000, 0x0020, 32, .helm, .stk, 0, 1⟩
  | .HBM_ECC_STAT => ⟨0x0400000, 0x0030, 64, .open_, .stk, 0, 1⟩
  | .HBM_HAMMER_CNT => ⟨0x0400000, 0x0038, 64, .open_, .stk, 0, 1⟩
  | .HBM_RETRAIN_STAT => ⟨0x0400000, 0x0040, 32, .open_, .stk, 0, 1⟩
  | .HBM_TIMING_A => ⟨0x0400000, 0x0100, 128, .helm, .stk, 0, 1⟩
  | .HBM_TIMING_B => ⟨0x0400000, 0x0110, 128, .helm, .stk, 0, 1⟩
  | .XFR_MODE => ⟨0x0b00000, 0x0000, 32, .lease, .d0, 0, 1⟩
  | .XFR_PRI_CTL => ⟨0x0b00000, 0x0008, 32, .lease, .pri, 0, 1⟩
  | .XFR_FAULT_STAT => ⟨0x0b00000, 0x0010, 64, .open_, .die, 0, 1⟩
  | .XFR_RED_STAT => ⟨0x0b00000, 0x0018, 64, .open_, .die, 0, 1⟩
  | .XFR_WIN_STAT => ⟨0x0b00000, 0x0020, 32, .open_, .d0, 0, 1⟩
  | .XFR_CTX_MISS => ⟨0x0b00000, 0x1000, 64, .owner, .d0, 8, 1024⟩
  | .XFR_WIN => ⟨0x0b00000, 0x8000, 256, .helm, .d0, 32, 4096⟩
  | .PKG_LEASE => ⟨0x0000000, 0x0100, 32, .open_, .id, 0, 1⟩
  | .PKG_LEASE_TIMEOUT => ⟨0x0000000, 0x0108, 32, .lease, .id, 0, 1⟩
  | .PCI_ACC_VIOL => ⟨0x0900000, 0x0000, 32, .open_, .port, 0, 1⟩
  | .PCI_DBG_CTL => ⟨0x0900000, 0x0010, 64, .lease, .port, 0, 1⟩
  | .PCI_LINK_STAT => ⟨0x0900000, 0x0018, 32, .open_, .port, 0, 1⟩
  | .PCI_VF_CTX => ⟨0x0900000, 0x1000, 32, .owner, .port, 4, 511⟩
  | .PKG_CTL => ⟨0x0000000, 0x0110, 32, .open_, .id, 0, 1⟩
  | .PKG_STATE => ⟨0x0000000, 0x0118, 32, .open_, .id, 0, 1⟩
  | .PKG_LWR_ERR => ⟨0x0000000, 0x0120, 64, .open_, .id, 0, 1⟩
  | .PKG_RING_CFG => ⟨0x0000000, 0x0128, 32, .lease, .id, 0, 1⟩
  | .PKG_PART_CORE => ⟨0x0000000, 0x0200, 8, .lease, .id, 1, 256⟩
  | .PKG_PART_HBM => ⟨0x0000000, 0x0400, 8, .lease, .id, 1, 768⟩
  | .CTX_STATE => ⟨0x0c00000, 0x0000, 32, .open_, .ctx, 0, 1⟩
  | .CTX_CMD => ⟨0x0c00000, 0x0008, 32, .open_, .ctx, 0, 1⟩
  | .CTX_RING => ⟨0x0c00000, 0x0010, 192, .owner, .ctx, 0, 1⟩
  | .CTX_RING_POS => ⟨0x0c00000, 0x0028, 128, .owner, .ctx, 0, 1⟩
  | .CTX_PREEMPT => ⟨0x0c00000, 0x0038, 32, .owner, .ctx, 0, 1⟩
  | .CTX_AREA => ⟨0x0c00000, 0x0040, 256, .owner, .ctx, 0, 1⟩
  | .CTX_EVENT => ⟨0x0c00000, 0x0060, 32, .owner, .ctx, 0, 1⟩
  | .CTX_MSIX => ⟨0x0c00000, 0x0068, 32, .owner, .ctx, 0, 1⟩
  | .CTX_ERR => ⟨0x0c00000, 0x0070, 64, .owner, .ctx, 0, 1⟩
  | .CTX_CORES => ⟨0x0c00000, 0x0080, 64, .owner, .ctx, 8, 8⟩
  | .CTX_HBM => ⟨0x0c00000, 0x00c0, 64, .owner, .ctx, 8, 16⟩
  | .CTX_STREAM => ⟨0x0c00000, 0x0200, 64, .owner, .ctx, 8, 64⟩
  | .PKG_LOG_MODE => ⟨0x0000000, 0x0130, 32, .lease, .id, 0, 1⟩
  | .HBM_FIX_MAP => ⟨0x0400000, 0x0048, 32, .open_, .stk, 0, 1⟩
  | .CTX_FIX => ⟨0x0c00000, 0x0140, 64, .owner, .ctx, 0, 1⟩
  | .CTX_LOG => ⟨0x0c00000, 0x0148, 128, .owner, .ctx, 0, 1⟩
  | .CTX_LOG_FAULT => ⟨0x0c00000, 0x0158, 128, .owner, .ctx, 0, 1⟩
  | .FAB_TP_CTL => ⟨0x0800000, 0x0000, 32, .lease, .die, 0, 1⟩
  | .FAB_ERR_STAT => ⟨0x0800000, 0x0008, 64, .open_, .die, 0, 1⟩
  | .FAB_GPIO_STAT => ⟨0x0800000, 0x0010, 64, .open_, .die, 0, 1⟩
  | .FAB_TP_BIND => ⟨0x0800000, 0x1000, 32, .lease, .die, 4, 512⟩
  | .FAB_TP_STAT => ⟨0x0800000, 0x2000, 64, .open_, .die, 8, 512⟩
  | .FAB_RAW_STAT => ⟨0x0800000, 0x3000, 64, .open_, .die, 8, 32⟩
  | .CFG_STAT => ⟨0x0700000, 0x0000, 64, .open_, .die, 0, 1⟩
  | .CFG_REGIONS => ⟨0x0700000, 0x0008, 32, .open_, .die, 0, 1⟩
  | .CFG_REGION_OWN => ⟨0x0700000, 0x0100, 32, .lease, .die, 4, 16⟩
  | .CFG_FLASH_WR => ⟨0x0700000, 0x0200, 128, .lease, .die, 0, 1⟩
  | .CFG_FLASH_STAT => ⟨0x0700000, 0x0210, 32, .open_, .die, 0, 1⟩
  | .SEC_STAT => ⟨0x0700000, 0x1000, 64, .open_, .d0, 0, 1⟩
  | .SEC_ATT_STAT => ⟨0x0700000, 0x1008, 64, .open_, .d0, 0, 1⟩
  | .SEC_ATT_CTL => ⟨0x0700000, 0x1010, 32, .lease, .d0, 0, 1⟩
  | .SEC_KEY_WR => ⟨0x0700000, 0x1020, 128, .lease, .d0, 0, 1⟩
  | .SEC_FW_WR => ⟨0x0700000, 0x1030, 128, .lease, .d0, 0, 1⟩
  | .SEC_VAULT_STAT => ⟨0x0700000, 0x1040, 32, .open_, .d0, 0, 1⟩
  | .CLK_SRC_STAT => ⟨0x0100000, 0x0000, 32, .open_, .die, 0, 1⟩
  | .CLK_FAIL => ⟨0x0100000, 0x0008, 64, .open_, .die, 0, 1⟩
  | .CLK_REF_SEL => ⟨0x0100000, 0x0010, 32, .helm, .die, 0, 1⟩
  | .CLK_SRC_SEL => ⟨0x0100000, 0x0018, 64, .helm, .die, 0, 1⟩
  | .CLK_GATE => ⟨0x0100000, 0x0020, 32, .lease, .die, 0, 1⟩
  | .CLK_GATE_ERR => ⟨0x0100000, 0x0028, 32, .open_, .die, 0, 1⟩
  | .CLK_FAB_FREQ => ⟨0x0100000, 0x0030, 32, .lease, .die, 0, 1⟩
  | .CLK_MEAS_CTL => ⟨0x0100000, 0x0040, 32, .open_, .die, 0, 1⟩
  | .CLK_MEAS_RES => ⟨0x0100000, 0x0048, 64, .open_, .die, 0, 1⟩
  | .CLK_OUT_CTL => ⟨0x0100000, 0x0050, 32, .open_, .clkout, 0, 1⟩
  | .CLK_APER => ⟨0x0100000, 0x0100, 32, .lease, .gov, 0, 1⟩
  | .CLK_PWR_STAT => ⟨0x0100000, 0x0118, 64, .open_, .d0, 0, 1⟩
  | .CLK_REGION => ⟨0x0100000, 0x0200, 64, .open_, .die, 8, 8⟩
  | .INT_CTL => ⟨0x0200000, 0x0000, 32, .helm, .die, 0, 1⟩
  | .INT_STAT => ⟨0x0200000, 0x0008, 64, .open_, .die, 0, 1⟩
  | .INT_CLAIM => ⟨0x0200000, 0x0100, 32, .helm, .die, 16, 4⟩
  | .INT_COMPLETE => ⟨0x0200000, 0x0104, 32, .helm, .die, 16, 4⟩
  | .INT_PROC => ⟨0x0200000, 0x0108, 32, .helm, .die, 16, 4⟩
  | .INT_RAISE => ⟨0x0200000, 0x0200, 32, .helm, .die, 0, 1⟩
  | .INT_SRC => ⟨0x0200000, 0x10000, 32, .intSrc, .die, 4, 8192⟩
  | .INT_PRIV => ⟨0x0200000, 0x20000, 32, .helm, .die, 4, 1024⟩
  | .HELM_STAT => ⟨0x0300000, 0x0000, 64, .open_, .die, 8, 4⟩
  | .HELM_WDOG => ⟨0x0300000, 0x0100, 32, .helm, .die, 8, 4⟩
  | .ID_MODULE => ⟨0x0000000, 0x0000, 64, .open_, .id, 0, 1⟩
  | .ID_SERIAL => ⟨0x0000000, 0x0010, 128, .open_, .id, 0, 1⟩
  | .PKG_PART_RST => ⟨0x0000000, 0x0138, 32, .open_, .id, 0, 1⟩
  | .PKG_RESET => ⟨0x0000000, 0x0140, 32, .lease, .id, 0, 1⟩
  | .YLD_STAT => ⟨0x0a00000, 0x0000, 64, .open_, .die, 0, 1⟩
  | .YLD_START => ⟨0x0a00000, 0x0008, 64, .open_, .d0, 0, 1⟩
  | .YLD_GROUP => ⟨0x0a00000, 0x1000, 32, .open_, .die, 4, 128⟩
  | .SAL_PKG => ⟨0x0500000, 0x0000, 32, .lease, .gov, 0, 1⟩
  | .SAL_PORT_CTL => ⟨0x0500000, 0x0100, 64, .lease, .die, 64, 4⟩
  | .SAL_PORT_CMD => ⟨0x0500000, 0x0108, 32, .helm, .die, 64, 4⟩
  | .SAL_PORT_STAT => ⟨0x0500000, 0x0110, 64, .open_, .die, 64, 4⟩
  | .SAL_PORT_PEER => ⟨0x0500000, 0x0118, 32, .open_, .die, 64, 4⟩
  | .SAL_PORT_ERR => ⟨0x0500000, 0x0120, 64, .open_, .die, 64, 4⟩
  | .SAL_LANE_STAT => ⟨0x0500000, 0x1000, 128, .open_, .die, 16, 32⟩
  | .MOD_STAT => ⟨0x0000000, 0x0300, 64, .open_, .id, 0, 1⟩

/-- The fields of each register. -/
def Rg.fields : Rg → List Fld
  | .YLD_STAGE_WDOG => [.YLD_STAGE_WDOG_LIMIT, .YLD_STAGE_WDOG_REPORT_ONLY]
  | .YLD_STAGE_TMO_CNT => [.YLD_STAGE_TMO_CNT_COUNT]
  | .YLD_ROW_CE_LIMIT => [.YLD_ROW_CE_LIMIT_LIMIT]
  | .YLD_ROW_STAT => [.YLD_ROW_STAT_MAPOUT, .YLD_ROW_STAT_EXHAUSTED]
  | .YLD_ROW_ERR => [.YLD_ROW_ERR_CE, .YLD_ROW_ERR_UE]
  | .ROSE_MODE => [.ROSE_MODE_PRIO, .ROSE_MODE_TALLY_HOLD, .ROSE_MODE_CORE_SLEEP, .ROSE_MODE_RTR_SLEEP, .ROSE_MODE_SLEEP_IDLE]
  | .ROSE_REFUSE_STAT => [.ROSE_REFUSE_STAT_RST, .ROSE_REFUSE_STAT_DEN, .ROSE_REFUSE_STAT_ABS, .ROSE_REFUSE_STAT_ABSORBED]
  | .ROSE_CTX_REFUSE => [.ROSE_CTX_REFUSE_RST, .ROSE_CTX_REFUSE_DEN, .ROSE_CTX_REFUSE_ABS]
  | .HBM_CTL => [.HBM_CTL_PAGE_DEFAULT, .HBM_CTL_OPEN_IDLE, .HBM_CTL_SCRUB_EN, .HBM_CTL_SCRUB_HOURS, .HBM_CTL_RATE]
  | .HBM_HAMMER => [.HBM_HAMMER_PROB, .HBM_HAMMER_DIST2]
  | .HBM_STATE => [.HBM_STATE_STATE, .HBM_STATE_FREQ, .HBM_STATE_TSET, .HBM_STATE_HOT, .HBM_STATE_CFGERR, .HBM_STATE_TEMP, .HBM_STATE_FAILS]
  | .HBM_FREQ_REQ => [.HBM_FREQ_REQ_FREQ, .HBM_FREQ_REQ_GO]
  | .HBM_RETRAIN_REQ => [.HBM_RETRAIN_REQ_GO]
  | .HBM_ECC_STAT => [.HBM_ECC_STAT_CE, .HBM_ECC_STAT_UE, .HBM_ECC_STAT_ONDIE]
  | .HBM_HAMMER_CNT => [.HBM_HAMMER_CNT_NREF]
  | .HBM_RETRAIN_STAT => [.HBM_RETRAIN_STAT_RETRAINS, .HBM_RETRAIN_STAT_FAILS, .HBM_RETRAIN_STAT_FCHG]
  | .HBM_TIMING_A => [.HBM_TIMING_A_TRCD, .HBM_TIMING_A_TRP, .HBM_TIMING_A_TRAS, .HBM_TIMING_A_TRC, .HBM_TIMING_A_TRRD, .HBM_TIMING_A_TFAW, .HBM_TIMING_A_TWR, .HBM_TIMING_A_TRTP, .HBM_TIMING_A_TREFI, .HBM_TIMING_A_TRFCSB, .HBM_TIMING_A_RATE]
  | .HBM_TIMING_B => [.HBM_TIMING_B_TRCD, .HBM_TIMING_B_TRP, .HBM_TIMING_B_TRAS, .HBM_TIMING_B_TRC, .HBM_TIMING_B_TRRD, .HBM_TIMING_B_TFAW, .HBM_TIMING_B_TWR, .HBM_TIMING_B_TRTP, .HBM_TIMING_B_TREFI, .HBM_TIMING_B_TRFCSB, .HBM_TIMING_B_RATE]
  | .XFR_MODE => [.XFR_MODE_RT_EN]
  | .XFR_PRI_CTL => [.XFR_PRI_CTL_TIMEOUT, .XFR_PRI_CTL_RETRIES]
  | .XFR_FAULT_STAT => [.XFR_FAULT_STAT_PAGE_REQS, .XFR_FAULT_STAT_PAGE_FAILS, .XFR_FAULT_STAT_INVALS]
  | .XFR_RED_STAT => [.XFR_RED_STAT_NV, .XFR_RED_STAT_OF, .XFR_RED_STAT_UF, .XFR_RED_STAT_FMT]
  | .XFR_WIN_STAT => [.XFR_WIN_STAT_OPEN, .XFR_WIN_STAT_FULL]
  | .XFR_CTX_MISS => [.XFR_CTX_MISS_MISSES, .XFR_CTX_MISS_LATE_MAX]
  | .XFR_WIN => [.XFR_WIN_BASE, .XFR_WIN_SIZE, .XFR_WIN_SRC_PKG, .XFR_WIN_SRC_MASK, .XFR_WIN_CTX, .XFR_WIN_RD, .XFR_WIN_WR, .XFR_WIN_VALID, .XFR_WIN_HANDLE]
  | .PKG_LEASE => [.PKG_LEASE_HOLDER, .PKG_LEASE_MINE, .PKG_LEASE_ACQUIRE, .PKG_LEASE_RELEASE]
  | .PKG_LEASE_TIMEOUT => [.PKG_LEASE_TIMEOUT_SECONDS]
  | .PCI_ACC_VIOL => [.PCI_ACC_VIOL_COUNT]
  | .PCI_DBG_CTL => [.PCI_DBG_CTL_OPEN, .PCI_DBG_CTL_WR_EN, .PCI_DBG_CTL_BASE]
  | .PCI_LINK_STAT => [.PCI_LINK_STAT_UP, .PCI_LINK_STAT_TIMER_RUN, .PCI_LINK_STAT_DOWN_COUNT]
  | .PCI_VF_CTX => [.PCI_VF_CTX_CTX, .PCI_VF_CTX_VALID]
  | .PKG_CTL => [.PKG_CTL_CMD]
  | .PKG_STATE => [.PKG_STATE_STATE, .PKG_STATE_CMDERR, .PKG_STATE_STOPS]
  | .PKG_LWR_ERR => [.PKG_LWR_ERR_OFFSET, .PKG_LWR_ERR_SRC, .PKG_LWR_ERR_COUNT]
  | .PKG_RING_CFG => [.PKG_RING_CFG_POLL]
  | .PKG_PART_CORE => [.PKG_PART_CORE_SHARE, .PKG_PART_CORE_PART]
  | .PKG_PART_HBM => [.PKG_PART_HBM_SHARE]
  | .CTX_STATE => [.CTX_STATE_STATE, .CTX_STATE_BUSY, .CTX_STATE_PKG_HELD, .CTX_STATE_LINK, .CTX_STATE_OWNER, .CTX_STATE_CMDERR, .CTX_STATE_PREV, .CTX_STATE_FSTATUS]
  | .CTX_CMD => [.CTX_CMD_CMD]
  | .CTX_RING => [.CTX_RING_SQ_BASE, .CTX_RING_CQ_BASE, .CTX_RING_SQ_LOG2, .CTX_RING_CQ_LOG2, .CTX_RING_PASID, .CTX_RING_PV]
  | .CTX_RING_POS => [.CTX_RING_POS_SQ_HEAD, .CTX_RING_POS_LAP, .CTX_RING_POS_FETCHED, .CTX_RING_POS_CQ_TAIL, .CTX_RING_POS_PHASE, .CTX_RING_POS_RETIRED_SEQ]
  | .CTX_PREEMPT => [.CTX_PREEMPT_MODE, .CTX_PREEMPT_YIELD_LIMIT]
  | .CTX_AREA => [.CTX_AREA_SAVE_BASE, .CTX_AREA_HELD_BASE, .CTX_AREA_HELD_SIZE, .CTX_AREA_FIX_BASE, .CTX_AREA_FIX_N, .CTX_AREA_LOG_BASE, .CTX_AREA_LOG_SIZE]
  | .CTX_EVENT => [.CTX_EVENT_REFUSE, .CTX_EVENT_DEADLINE, .CTX_EVENT_STATE, .CTX_EVENT_RING, .CTX_EVENT_MSIX]
  | .CTX_MSIX => [.CTX_MSIX_CQ_VEC, .CTX_MSIX_EV_VEC]
  | .CTX_ERR => [.CTX_ERR_GEN, .CTX_ERR_DBELL, .CTX_ERR_HELDFULL]
  | .CTX_CORES => [.CTX_CORES_BASE, .CTX_CORES_LEVEL, .CTX_CORES_VALID]
  | .CTX_HBM => [.CTX_HBM_BASE, .CTX_HBM_SIZE, .CTX_HBM_VALID]
  | .CTX_STREAM => [.CTX_STREAM_HELD, .CTX_STREAM_VALID, .CTX_STREAM_SERVED]
  | .PKG_LOG_MODE => [.PKG_LOG_MODE_MODE, .PKG_LOG_MODE_MAX_REPLAY]
  | .HBM_FIX_MAP => [.HBM_FIX_MAP_USED, .HBM_FIX_MAP_FULL]
  | .CTX_FIX => [.CTX_FIX_HELD, .CTX_FIX_OPEN, .CTX_FIX_CONFLICT, .CTX_FIX_COMMITS, .CTX_FIX_ABORTS]
  | .CTX_LOG => [.CTX_LOG_NEXT_LSEQ, .CTX_LOG_REPLAYS, .CTX_LOG_LOST]
  | .CTX_LOG_FAULT => [.CTX_LOG_FAULT_CORE, .CTX_LOG_FAULT_CAUSE, .CTX_LOG_FAULT_REASON, .CTX_LOG_FAULT_LSEQ]
  | .FAB_TP_CTL => [.FAB_TP_CTL_RD_TIMEOUT]
  | .FAB_ERR_STAT => [.FAB_ERR_STAT_BRAM_CE, .FAB_ERR_STAT_BRAM_UE, .FAB_ERR_STAT_SEQERR]
  | .FAB_GPIO_STAT => [.FAB_GPIO_STAT_SHORT]
  | .FAB_TP_BIND => [.FAB_TP_BIND_CTX, .FAB_TP_BIND_EN]
  | .FAB_TP_STAT => [.FAB_TP_STAT_BADHDR, .FAB_TP_STAT_UNBOUND, .FAB_TP_STAT_RD_TMO, .FAB_TP_STAT_TXLVL, .FAB_TP_STAT_RXLVL]
  | .FAB_RAW_STAT => [.FAB_RAW_STAT_RXDROP, .FAB_RAW_STAT_BADBLK]
  | .CFG_STAT => [.CFG_STAT_SLOT, .CFG_STAT_BOOT, .CFG_STAT_LOCKTMO, .CFG_STAT_REASON, .CFG_STAT_REGION, .CFG_STAT_LOADS, .CFG_STAT_STREAM_ID]
  | .CFG_REGIONS => [.CFG_REGIONS_STATE]
  | .CFG_REGION_OWN => [.CFG_REGION_OWN_CTX, .CFG_REGION_OWN_EN]
  | .CFG_FLASH_WR => [.CFG_FLASH_WR_SRC, .CFG_FLASH_WR_LEN, .CFG_FLASH_WR_SLOT, .CFG_FLASH_WR_GO]
  | .CFG_FLASH_STAT => [.CFG_FLASH_STAT_BUSY, .CFG_FLASH_STAT_RESULT, .CFG_FLASH_STAT_PROGRESS]
  | .SEC_STAT => [.SEC_STAT_PUF_FAIL, .SEC_STAT_RK_OK, .SEC_STAT_VK_OK, .SEC_STAT_VAULT_ERR, .SEC_STAT_FW_SLOT, .SEC_STAT_FW_FALLBACK, .SEC_STAT_FW_FLOOR]
  | .SEC_ATT_STAT => [.SEC_ATT_STAT_KEY, .SEC_ATT_STAT_GENERATING, .SEC_ATT_STAT_PENDING, .SEC_ATT_STAT_REFUSE_CAUSE, .SEC_ATT_STAT_NEXT_INDEX, .SEC_ATT_STAT_ID_LEFT]
  | .SEC_ATT_CTL => [.SEC_ATT_CTL_MIN_INTERVAL]
  | .SEC_KEY_WR => [.SEC_KEY_WR_SRC, .SEC_KEY_WR_TARGET, .SEC_KEY_WR_REVOKE, .SEC_KEY_WR_GO]
  | .SEC_FW_WR => [.SEC_FW_WR_SRC, .SEC_FW_WR_LEN, .SEC_FW_WR_GO]
  | .SEC_VAULT_STAT => [.SEC_VAULT_STAT_BUSY, .SEC_VAULT_STAT_RESULT]
  | .CLK_SRC_STAT => [.CLK_SRC_STAT_RDY, .CLK_SRC_STAT_LOCK, .CLK_SRC_STAT_COAST]
  | .CLK_FAIL => [.CLK_FAIL_SRC, .CLK_FAIL_LOOP, .CLK_FAIL_REFUSED, .CLK_FAIL_FAILS]
  | .CLK_REF_SEL => [.CLK_REF_SEL_REF, .CLK_REF_SEL_XIN_A_MHZ, .CLK_REF_SEL_XIN_B_MHZ]
  | .CLK_SRC_SEL => [.CLK_SRC_SEL_SEL, .CLK_SRC_SEL_DIVM1]
  | .CLK_GATE => [.CLK_GATE_HBM, .CLK_GATE_SALLAN, .CLK_GATE_FAB, .CLK_GATE_MEAS, .CLK_GATE_CLKOUT]
  | .CLK_GATE_ERR => [.CLK_GATE_ERR_ERR]
  | .CLK_FAB_FREQ => [.CLK_FAB_FREQ_F]
  | .CLK_MEAS_CTL => [.CLK_MEAS_CTL_REF, .CLK_MEAS_CTL_MEAS, .CLK_MEAS_CTL_GO, .CLK_MEAS_CTL_WINDOWM1]
  | .CLK_MEAS_RES => [.CLK_MEAS_RES_COUNT, .CLK_MEAS_RES_DONE, .CLK_MEAS_RES_ERR, .CLK_MEAS_RES_OVF]
  | .CLK_OUT_CTL => [.CLK_OUT_CTL_SEL, .CLK_OUT_CTL_DIVM1, .CLK_OUT_CTL_EN, .CLK_OUT_CTL_ERR]
  | .CLK_APER => [.CLK_APER_MODE, .CLK_APER_FLOOR_EN, .CLK_APER_RT_FLOOR, .CLK_APER_T_SLOW, .CLK_APER_T_BRAKE, .CLK_APER_BRAKE_HOLD]
  | .CLK_PWR_STAT => [.CLK_PWR_STAT_PIN, .CLK_PWR_STAT_VIN, .CLK_PWR_STAT_DOWNS, .CLK_PWR_STAT_FLOOR_OVR, .CLK_PWR_STAT_DUTY]
  | .CLK_REGION => [.CLK_REGION_RATE, .CLK_REGION_LEVEL, .CLK_REGION_BRAKED, .CLK_REGION_HOT, .CLK_REGION_TEMP, .CLK_REGION_MIN_RATE, .CLK_REGION_BRAKES]
  | .INT_CTL => [.INT_CTL_SLEEP_EN]
  | .INT_STAT => [.INT_STAT_BADMSG, .INT_STAT_MERGED, .INT_STAT_WAKES]
  | .INT_CLAIM => [.INT_CLAIM_SRC, .INT_CLAIM_PRIV, .INT_CLAIM_NONE]
  | .INT_COMPLETE => [.INT_COMPLETE_SRC]
  | .INT_PROC => [.INT_PROC_THRESH]
  | .INT_RAISE => [.INT_RAISE_SRC, .INT_RAISE_PRIV, .INT_RAISE_PROC]
  | .INT_SRC => [.INT_SRC_TARGET, .INT_SRC_PRIO, .INT_SRC_VECTOR, .INT_SRC_EN, .INT_SRC_PEND, .INT_SRC_ACTIVE]
  | .INT_PRIV => [.INT_PRIV_PRIO, .INT_PRIV_EN, .INT_PRIV_PEND, .INT_PRIV_ACTIVE]
  | .HELM_STAT => [.HELM_STAT_STATE, .HELM_STAT_DUTIES, .HELM_STAT_DIE_LOST, .HELM_STAT_RESETS, .HELM_STAT_MISMATCH]
  | .HELM_WDOG => [.HELM_WDOG_PERIOD, .HELM_WDOG_KICK]
  | .ID_MODULE => [.ID_MODULE_DIES, .ID_MODULE_GRADE, .ID_MODULE_MEM_GIB, .ID_MODULE_STEP_NUM, .ID_MODULE_STEP_LTR, .ID_MODULE_SVN]
  | .ID_SERIAL => [.ID_SERIAL_SERIAL]
  | .PKG_PART_RST => [.PKG_PART_RST_PART, .PKG_PART_RST_GO, .PKG_PART_RST_BUSY, .PKG_PART_RST_DONE]
  | .PKG_RESET => [.PKG_RESET_CONFIRM, .PKG_RESET_GO]
  | .YLD_STAT => [.YLD_STAT_SPARES_LEFT, .YLD_STAT_STACK_LOST, .YLD_STAT_ABSENT, .YLD_STAT_CHART_USED, .YLD_STAT_CHART_DROPPED]
  | .YLD_START => [.YLD_START_PHASE, .YLD_START_FAIL, .YLD_START_DURATION, .YLD_START_START_NO]
  | .YLD_GROUP => [.YLD_GROUP_SPARES_LEFT, .YLD_GROUP_ABSENT, .YLD_GROUP_NOROWS, .YLD_GROUP_WITHHELD]
  | .SAL_PKG => [.SAL_PKG_NUM, .SAL_PKG_VALID]
  | .SAL_PORT_CTL => [.SAL_PORT_CTL_EN, .SAL_PORT_CTL_WIDTH, .SAL_PORT_CTL_MAX_RATE, .SAL_PORT_CTL_PAT, .SAL_PORT_CTL_DWELL_LOG2, .SAL_PORT_CTL_MAX_ERR, .SAL_PORT_CTL_RETRY_S]
  | .SAL_PORT_CMD => [.SAL_PORT_CMD_RETRAIN, .SAL_PORT_CMD_TEST, .SAL_PORT_CMD_TEST_END]
  | .SAL_PORT_STAT => [.SAL_PORT_STAT_STATE, .SAL_PORT_STAT_RATE, .SAL_PORT_STAT_WIDTH, .SAL_PORT_STAT_REV, .SAL_PORT_STAT_REASON, .SAL_PORT_STAT_RETRAINS, .SAL_PORT_STAT_DOWNS]
  | .SAL_PORT_PEER => [.SAL_PORT_PEER_PKG, .SAL_PORT_PEER_DIE, .SAL_PORT_PEER_PORT, .SAL_PORT_PEER_PVALID, .SAL_PORT_PEER_VALID]
  | .SAL_PORT_ERR => [.SAL_PORT_ERR_REPLAYS, .SAL_PORT_ERR_MALFORMED, .SAL_PORT_ERR_MISDIRECT, .SAL_PORT_ERR_LOST]
  | .SAL_LANE_STAT => [.SAL_LANE_STAT_FAULT, .SAL_LANE_STAT_POL, .SAL_LANE_STAT_LOCK, .SAL_LANE_STAT_PRBS_ERR, .SAL_LANE_STAT_TXDISC]
  | .MOD_STAT => [.MOD_STAT_COOL_IN, .MOD_STAT_COOL_OUT, .MOD_STAT_LEAK, .MOD_STAT_COOL_ALARM, .MOD_STAT_VIN_LOW, .MOD_STAT_LAST_OFF, .MOD_STAT_TRIPS]

/-- The register a field belongs to. -/
def Fld.reg : Fld → Rg
  | .YLD_STAGE_WDOG_LIMIT => .YLD_STAGE_WDOG
  | .YLD_STAGE_WDOG_REPORT_ONLY => .YLD_STAGE_WDOG
  | .YLD_STAGE_TMO_CNT_COUNT => .YLD_STAGE_TMO_CNT
  | .YLD_ROW_CE_LIMIT_LIMIT => .YLD_ROW_CE_LIMIT
  | .YLD_ROW_STAT_MAPOUT => .YLD_ROW_STAT
  | .YLD_ROW_STAT_EXHAUSTED => .YLD_ROW_STAT
  | .YLD_ROW_ERR_CE => .YLD_ROW_ERR
  | .YLD_ROW_ERR_UE => .YLD_ROW_ERR
  | .ROSE_MODE_PRIO => .ROSE_MODE
  | .ROSE_MODE_TALLY_HOLD => .ROSE_MODE
  | .ROSE_MODE_CORE_SLEEP => .ROSE_MODE
  | .ROSE_MODE_RTR_SLEEP => .ROSE_MODE
  | .ROSE_MODE_SLEEP_IDLE => .ROSE_MODE
  | .ROSE_REFUSE_STAT_RST => .ROSE_REFUSE_STAT
  | .ROSE_REFUSE_STAT_DEN => .ROSE_REFUSE_STAT
  | .ROSE_REFUSE_STAT_ABS => .ROSE_REFUSE_STAT
  | .ROSE_REFUSE_STAT_ABSORBED => .ROSE_REFUSE_STAT
  | .ROSE_CTX_REFUSE_RST => .ROSE_CTX_REFUSE
  | .ROSE_CTX_REFUSE_DEN => .ROSE_CTX_REFUSE
  | .ROSE_CTX_REFUSE_ABS => .ROSE_CTX_REFUSE
  | .HBM_CTL_PAGE_DEFAULT => .HBM_CTL
  | .HBM_CTL_OPEN_IDLE => .HBM_CTL
  | .HBM_CTL_SCRUB_EN => .HBM_CTL
  | .HBM_CTL_SCRUB_HOURS => .HBM_CTL
  | .HBM_CTL_RATE => .HBM_CTL
  | .HBM_HAMMER_PROB => .HBM_HAMMER
  | .HBM_HAMMER_DIST2 => .HBM_HAMMER
  | .HBM_STATE_STATE => .HBM_STATE
  | .HBM_STATE_FREQ => .HBM_STATE
  | .HBM_STATE_TSET => .HBM_STATE
  | .HBM_STATE_HOT => .HBM_STATE
  | .HBM_STATE_CFGERR => .HBM_STATE
  | .HBM_STATE_TEMP => .HBM_STATE
  | .HBM_STATE_FAILS => .HBM_STATE
  | .HBM_FREQ_REQ_FREQ => .HBM_FREQ_REQ
  | .HBM_FREQ_REQ_GO => .HBM_FREQ_REQ
  | .HBM_RETRAIN_REQ_GO => .HBM_RETRAIN_REQ
  | .HBM_ECC_STAT_CE => .HBM_ECC_STAT
  | .HBM_ECC_STAT_UE => .HBM_ECC_STAT
  | .HBM_ECC_STAT_ONDIE => .HBM_ECC_STAT
  | .HBM_HAMMER_CNT_NREF => .HBM_HAMMER_CNT
  | .HBM_RETRAIN_STAT_RETRAINS => .HBM_RETRAIN_STAT
  | .HBM_RETRAIN_STAT_FAILS => .HBM_RETRAIN_STAT
  | .HBM_RETRAIN_STAT_FCHG => .HBM_RETRAIN_STAT
  | .HBM_TIMING_A_TRCD => .HBM_TIMING_A
  | .HBM_TIMING_A_TRP => .HBM_TIMING_A
  | .HBM_TIMING_A_TRAS => .HBM_TIMING_A
  | .HBM_TIMING_A_TRC => .HBM_TIMING_A
  | .HBM_TIMING_A_TRRD => .HBM_TIMING_A
  | .HBM_TIMING_A_TFAW => .HBM_TIMING_A
  | .HBM_TIMING_A_TWR => .HBM_TIMING_A
  | .HBM_TIMING_A_TRTP => .HBM_TIMING_A
  | .HBM_TIMING_A_TREFI => .HBM_TIMING_A
  | .HBM_TIMING_A_TRFCSB => .HBM_TIMING_A
  | .HBM_TIMING_A_RATE => .HBM_TIMING_A
  | .HBM_TIMING_B_TRCD => .HBM_TIMING_B
  | .HBM_TIMING_B_TRP => .HBM_TIMING_B
  | .HBM_TIMING_B_TRAS => .HBM_TIMING_B
  | .HBM_TIMING_B_TRC => .HBM_TIMING_B
  | .HBM_TIMING_B_TRRD => .HBM_TIMING_B
  | .HBM_TIMING_B_TFAW => .HBM_TIMING_B
  | .HBM_TIMING_B_TWR => .HBM_TIMING_B
  | .HBM_TIMING_B_TRTP => .HBM_TIMING_B
  | .HBM_TIMING_B_TREFI => .HBM_TIMING_B
  | .HBM_TIMING_B_TRFCSB => .HBM_TIMING_B
  | .HBM_TIMING_B_RATE => .HBM_TIMING_B
  | .XFR_MODE_RT_EN => .XFR_MODE
  | .XFR_PRI_CTL_TIMEOUT => .XFR_PRI_CTL
  | .XFR_PRI_CTL_RETRIES => .XFR_PRI_CTL
  | .XFR_FAULT_STAT_PAGE_REQS => .XFR_FAULT_STAT
  | .XFR_FAULT_STAT_PAGE_FAILS => .XFR_FAULT_STAT
  | .XFR_FAULT_STAT_INVALS => .XFR_FAULT_STAT
  | .XFR_RED_STAT_NV => .XFR_RED_STAT
  | .XFR_RED_STAT_OF => .XFR_RED_STAT
  | .XFR_RED_STAT_UF => .XFR_RED_STAT
  | .XFR_RED_STAT_FMT => .XFR_RED_STAT
  | .XFR_WIN_STAT_OPEN => .XFR_WIN_STAT
  | .XFR_WIN_STAT_FULL => .XFR_WIN_STAT
  | .XFR_CTX_MISS_MISSES => .XFR_CTX_MISS
  | .XFR_CTX_MISS_LATE_MAX => .XFR_CTX_MISS
  | .XFR_WIN_BASE => .XFR_WIN
  | .XFR_WIN_SIZE => .XFR_WIN
  | .XFR_WIN_SRC_PKG => .XFR_WIN
  | .XFR_WIN_SRC_MASK => .XFR_WIN
  | .XFR_WIN_CTX => .XFR_WIN
  | .XFR_WIN_RD => .XFR_WIN
  | .XFR_WIN_WR => .XFR_WIN
  | .XFR_WIN_VALID => .XFR_WIN
  | .XFR_WIN_HANDLE => .XFR_WIN
  | .PKG_LEASE_HOLDER => .PKG_LEASE
  | .PKG_LEASE_MINE => .PKG_LEASE
  | .PKG_LEASE_ACQUIRE => .PKG_LEASE
  | .PKG_LEASE_RELEASE => .PKG_LEASE
  | .PKG_LEASE_TIMEOUT_SECONDS => .PKG_LEASE_TIMEOUT
  | .PCI_ACC_VIOL_COUNT => .PCI_ACC_VIOL
  | .PCI_DBG_CTL_OPEN => .PCI_DBG_CTL
  | .PCI_DBG_CTL_WR_EN => .PCI_DBG_CTL
  | .PCI_DBG_CTL_BASE => .PCI_DBG_CTL
  | .PCI_LINK_STAT_UP => .PCI_LINK_STAT
  | .PCI_LINK_STAT_TIMER_RUN => .PCI_LINK_STAT
  | .PCI_LINK_STAT_DOWN_COUNT => .PCI_LINK_STAT
  | .PCI_VF_CTX_CTX => .PCI_VF_CTX
  | .PCI_VF_CTX_VALID => .PCI_VF_CTX
  | .PKG_CTL_CMD => .PKG_CTL
  | .PKG_STATE_STATE => .PKG_STATE
  | .PKG_STATE_CMDERR => .PKG_STATE
  | .PKG_STATE_STOPS => .PKG_STATE
  | .PKG_LWR_ERR_OFFSET => .PKG_LWR_ERR
  | .PKG_LWR_ERR_SRC => .PKG_LWR_ERR
  | .PKG_LWR_ERR_COUNT => .PKG_LWR_ERR
  | .PKG_RING_CFG_POLL => .PKG_RING_CFG
  | .PKG_PART_CORE_SHARE => .PKG_PART_CORE
  | .PKG_PART_CORE_PART => .PKG_PART_CORE
  | .PKG_PART_HBM_SHARE => .PKG_PART_HBM
  | .CTX_STATE_STATE => .CTX_STATE
  | .CTX_STATE_BUSY => .CTX_STATE
  | .CTX_STATE_PKG_HELD => .CTX_STATE
  | .CTX_STATE_LINK => .CTX_STATE
  | .CTX_STATE_OWNER => .CTX_STATE
  | .CTX_STATE_CMDERR => .CTX_STATE
  | .CTX_STATE_PREV => .CTX_STATE
  | .CTX_STATE_FSTATUS => .CTX_STATE
  | .CTX_CMD_CMD => .CTX_CMD
  | .CTX_RING_SQ_BASE => .CTX_RING
  | .CTX_RING_CQ_BASE => .CTX_RING
  | .CTX_RING_SQ_LOG2 => .CTX_RING
  | .CTX_RING_CQ_LOG2 => .CTX_RING
  | .CTX_RING_PASID => .CTX_RING
  | .CTX_RING_PV => .CTX_RING
  | .CTX_RING_POS_SQ_HEAD => .CTX_RING_POS
  | .CTX_RING_POS_LAP => .CTX_RING_POS
  | .CTX_RING_POS_FETCHED => .CTX_RING_POS
  | .CTX_RING_POS_CQ_TAIL => .CTX_RING_POS
  | .CTX_RING_POS_PHASE => .CTX_RING_POS
  | .CTX_RING_POS_RETIRED_SEQ => .CTX_RING_POS
  | .CTX_PREEMPT_MODE => .CTX_PREEMPT
  | .CTX_PREEMPT_YIELD_LIMIT => .CTX_PREEMPT
  | .CTX_AREA_SAVE_BASE => .CTX_AREA
  | .CTX_AREA_HELD_BASE => .CTX_AREA
  | .CTX_AREA_HELD_SIZE => .CTX_AREA
  | .CTX_AREA_FIX_BASE => .CTX_AREA
  | .CTX_AREA_FIX_N => .CTX_AREA
  | .CTX_AREA_LOG_BASE => .CTX_AREA
  | .CTX_AREA_LOG_SIZE => .CTX_AREA
  | .CTX_EVENT_REFUSE => .CTX_EVENT
  | .CTX_EVENT_DEADLINE => .CTX_EVENT
  | .CTX_EVENT_STATE => .CTX_EVENT
  | .CTX_EVENT_RING => .CTX_EVENT
  | .CTX_EVENT_MSIX => .CTX_EVENT
  | .CTX_MSIX_CQ_VEC => .CTX_MSIX
  | .CTX_MSIX_EV_VEC => .CTX_MSIX
  | .CTX_ERR_GEN => .CTX_ERR
  | .CTX_ERR_DBELL => .CTX_ERR
  | .CTX_ERR_HELDFULL => .CTX_ERR
  | .CTX_CORES_BASE => .CTX_CORES
  | .CTX_CORES_LEVEL => .CTX_CORES
  | .CTX_CORES_VALID => .CTX_CORES
  | .CTX_HBM_BASE => .CTX_HBM
  | .CTX_HBM_SIZE => .CTX_HBM
  | .CTX_HBM_VALID => .CTX_HBM
  | .CTX_STREAM_HELD => .CTX_STREAM
  | .CTX_STREAM_VALID => .CTX_STREAM
  | .CTX_STREAM_SERVED => .CTX_STREAM
  | .PKG_LOG_MODE_MODE => .PKG_LOG_MODE
  | .PKG_LOG_MODE_MAX_REPLAY => .PKG_LOG_MODE
  | .HBM_FIX_MAP_USED => .HBM_FIX_MAP
  | .HBM_FIX_MAP_FULL => .HBM_FIX_MAP
  | .CTX_FIX_HELD => .CTX_FIX
  | .CTX_FIX_OPEN => .CTX_FIX
  | .CTX_FIX_CONFLICT => .CTX_FIX
  | .CTX_FIX_COMMITS => .CTX_FIX
  | .CTX_FIX_ABORTS => .CTX_FIX
  | .CTX_LOG_NEXT_LSEQ => .CTX_LOG
  | .CTX_LOG_REPLAYS => .CTX_LOG
  | .CTX_LOG_LOST => .CTX_LOG
  | .CTX_LOG_FAULT_CORE => .CTX_LOG_FAULT
  | .CTX_LOG_FAULT_CAUSE => .CTX_LOG_FAULT
  | .CTX_LOG_FAULT_REASON => .CTX_LOG_FAULT
  | .CTX_LOG_FAULT_LSEQ => .CTX_LOG_FAULT
  | .FAB_TP_CTL_RD_TIMEOUT => .FAB_TP_CTL
  | .FAB_ERR_STAT_BRAM_CE => .FAB_ERR_STAT
  | .FAB_ERR_STAT_BRAM_UE => .FAB_ERR_STAT
  | .FAB_ERR_STAT_SEQERR => .FAB_ERR_STAT
  | .FAB_GPIO_STAT_SHORT => .FAB_GPIO_STAT
  | .FAB_TP_BIND_CTX => .FAB_TP_BIND
  | .FAB_TP_BIND_EN => .FAB_TP_BIND
  | .FAB_TP_STAT_BADHDR => .FAB_TP_STAT
  | .FAB_TP_STAT_UNBOUND => .FAB_TP_STAT
  | .FAB_TP_STAT_RD_TMO => .FAB_TP_STAT
  | .FAB_TP_STAT_TXLVL => .FAB_TP_STAT
  | .FAB_TP_STAT_RXLVL => .FAB_TP_STAT
  | .FAB_RAW_STAT_RXDROP => .FAB_RAW_STAT
  | .FAB_RAW_STAT_BADBLK => .FAB_RAW_STAT
  | .CFG_STAT_SLOT => .CFG_STAT
  | .CFG_STAT_BOOT => .CFG_STAT
  | .CFG_STAT_LOCKTMO => .CFG_STAT
  | .CFG_STAT_REASON => .CFG_STAT
  | .CFG_STAT_REGION => .CFG_STAT
  | .CFG_STAT_LOADS => .CFG_STAT
  | .CFG_STAT_STREAM_ID => .CFG_STAT
  | .CFG_REGIONS_STATE => .CFG_REGIONS
  | .CFG_REGION_OWN_CTX => .CFG_REGION_OWN
  | .CFG_REGION_OWN_EN => .CFG_REGION_OWN
  | .CFG_FLASH_WR_SRC => .CFG_FLASH_WR
  | .CFG_FLASH_WR_LEN => .CFG_FLASH_WR
  | .CFG_FLASH_WR_SLOT => .CFG_FLASH_WR
  | .CFG_FLASH_WR_GO => .CFG_FLASH_WR
  | .CFG_FLASH_STAT_BUSY => .CFG_FLASH_STAT
  | .CFG_FLASH_STAT_RESULT => .CFG_FLASH_STAT
  | .CFG_FLASH_STAT_PROGRESS => .CFG_FLASH_STAT
  | .SEC_STAT_PUF_FAIL => .SEC_STAT
  | .SEC_STAT_RK_OK => .SEC_STAT
  | .SEC_STAT_VK_OK => .SEC_STAT
  | .SEC_STAT_VAULT_ERR => .SEC_STAT
  | .SEC_STAT_FW_SLOT => .SEC_STAT
  | .SEC_STAT_FW_FALLBACK => .SEC_STAT
  | .SEC_STAT_FW_FLOOR => .SEC_STAT
  | .SEC_ATT_STAT_KEY => .SEC_ATT_STAT
  | .SEC_ATT_STAT_GENERATING => .SEC_ATT_STAT
  | .SEC_ATT_STAT_PENDING => .SEC_ATT_STAT
  | .SEC_ATT_STAT_REFUSE_CAUSE => .SEC_ATT_STAT
  | .SEC_ATT_STAT_NEXT_INDEX => .SEC_ATT_STAT
  | .SEC_ATT_STAT_ID_LEFT => .SEC_ATT_STAT
  | .SEC_ATT_CTL_MIN_INTERVAL => .SEC_ATT_CTL
  | .SEC_KEY_WR_SRC => .SEC_KEY_WR
  | .SEC_KEY_WR_TARGET => .SEC_KEY_WR
  | .SEC_KEY_WR_REVOKE => .SEC_KEY_WR
  | .SEC_KEY_WR_GO => .SEC_KEY_WR
  | .SEC_FW_WR_SRC => .SEC_FW_WR
  | .SEC_FW_WR_LEN => .SEC_FW_WR
  | .SEC_FW_WR_GO => .SEC_FW_WR
  | .SEC_VAULT_STAT_BUSY => .SEC_VAULT_STAT
  | .SEC_VAULT_STAT_RESULT => .SEC_VAULT_STAT
  | .CLK_SRC_STAT_RDY => .CLK_SRC_STAT
  | .CLK_SRC_STAT_LOCK => .CLK_SRC_STAT
  | .CLK_SRC_STAT_COAST => .CLK_SRC_STAT
  | .CLK_FAIL_SRC => .CLK_FAIL
  | .CLK_FAIL_LOOP => .CLK_FAIL
  | .CLK_FAIL_REFUSED => .CLK_FAIL
  | .CLK_FAIL_FAILS => .CLK_FAIL
  | .CLK_REF_SEL_REF => .CLK_REF_SEL
  | .CLK_REF_SEL_XIN_A_MHZ => .CLK_REF_SEL
  | .CLK_REF_SEL_XIN_B_MHZ => .CLK_REF_SEL
  | .CLK_SRC_SEL_SEL => .CLK_SRC_SEL
  | .CLK_SRC_SEL_DIVM1 => .CLK_SRC_SEL
  | .CLK_GATE_HBM => .CLK_GATE
  | .CLK_GATE_SALLAN => .CLK_GATE
  | .CLK_GATE_FAB => .CLK_GATE
  | .CLK_GATE_MEAS => .CLK_GATE
  | .CLK_GATE_CLKOUT => .CLK_GATE
  | .CLK_GATE_ERR_ERR => .CLK_GATE_ERR
  | .CLK_FAB_FREQ_F => .CLK_FAB_FREQ
  | .CLK_MEAS_CTL_REF => .CLK_MEAS_CTL
  | .CLK_MEAS_CTL_MEAS => .CLK_MEAS_CTL
  | .CLK_MEAS_CTL_GO => .CLK_MEAS_CTL
  | .CLK_MEAS_CTL_WINDOWM1 => .CLK_MEAS_CTL
  | .CLK_MEAS_RES_COUNT => .CLK_MEAS_RES
  | .CLK_MEAS_RES_DONE => .CLK_MEAS_RES
  | .CLK_MEAS_RES_ERR => .CLK_MEAS_RES
  | .CLK_MEAS_RES_OVF => .CLK_MEAS_RES
  | .CLK_OUT_CTL_SEL => .CLK_OUT_CTL
  | .CLK_OUT_CTL_DIVM1 => .CLK_OUT_CTL
  | .CLK_OUT_CTL_EN => .CLK_OUT_CTL
  | .CLK_OUT_CTL_ERR => .CLK_OUT_CTL
  | .CLK_APER_MODE => .CLK_APER
  | .CLK_APER_FLOOR_EN => .CLK_APER
  | .CLK_APER_RT_FLOOR => .CLK_APER
  | .CLK_APER_T_SLOW => .CLK_APER
  | .CLK_APER_T_BRAKE => .CLK_APER
  | .CLK_APER_BRAKE_HOLD => .CLK_APER
  | .CLK_PWR_STAT_PIN => .CLK_PWR_STAT
  | .CLK_PWR_STAT_VIN => .CLK_PWR_STAT
  | .CLK_PWR_STAT_DOWNS => .CLK_PWR_STAT
  | .CLK_PWR_STAT_FLOOR_OVR => .CLK_PWR_STAT
  | .CLK_PWR_STAT_DUTY => .CLK_PWR_STAT
  | .CLK_REGION_RATE => .CLK_REGION
  | .CLK_REGION_LEVEL => .CLK_REGION
  | .CLK_REGION_BRAKED => .CLK_REGION
  | .CLK_REGION_HOT => .CLK_REGION
  | .CLK_REGION_TEMP => .CLK_REGION
  | .CLK_REGION_MIN_RATE => .CLK_REGION
  | .CLK_REGION_BRAKES => .CLK_REGION
  | .INT_CTL_SLEEP_EN => .INT_CTL
  | .INT_STAT_BADMSG => .INT_STAT
  | .INT_STAT_MERGED => .INT_STAT
  | .INT_STAT_WAKES => .INT_STAT
  | .INT_CLAIM_SRC => .INT_CLAIM
  | .INT_CLAIM_PRIV => .INT_CLAIM
  | .INT_CLAIM_NONE => .INT_CLAIM
  | .INT_COMPLETE_SRC => .INT_COMPLETE
  | .INT_PROC_THRESH => .INT_PROC
  | .INT_RAISE_SRC => .INT_RAISE
  | .INT_RAISE_PRIV => .INT_RAISE
  | .INT_RAISE_PROC => .INT_RAISE
  | .INT_SRC_TARGET => .INT_SRC
  | .INT_SRC_PRIO => .INT_SRC
  | .INT_SRC_VECTOR => .INT_SRC
  | .INT_SRC_EN => .INT_SRC
  | .INT_SRC_PEND => .INT_SRC
  | .INT_SRC_ACTIVE => .INT_SRC
  | .INT_PRIV_PRIO => .INT_PRIV
  | .INT_PRIV_EN => .INT_PRIV
  | .INT_PRIV_PEND => .INT_PRIV
  | .INT_PRIV_ACTIVE => .INT_PRIV
  | .HELM_STAT_STATE => .HELM_STAT
  | .HELM_STAT_DUTIES => .HELM_STAT
  | .HELM_STAT_DIE_LOST => .HELM_STAT
  | .HELM_STAT_RESETS => .HELM_STAT
  | .HELM_STAT_MISMATCH => .HELM_STAT
  | .HELM_WDOG_PERIOD => .HELM_WDOG
  | .HELM_WDOG_KICK => .HELM_WDOG
  | .ID_MODULE_DIES => .ID_MODULE
  | .ID_MODULE_GRADE => .ID_MODULE
  | .ID_MODULE_MEM_GIB => .ID_MODULE
  | .ID_MODULE_STEP_NUM => .ID_MODULE
  | .ID_MODULE_STEP_LTR => .ID_MODULE
  | .ID_MODULE_SVN => .ID_MODULE
  | .ID_SERIAL_SERIAL => .ID_SERIAL
  | .PKG_PART_RST_PART => .PKG_PART_RST
  | .PKG_PART_RST_GO => .PKG_PART_RST
  | .PKG_PART_RST_BUSY => .PKG_PART_RST
  | .PKG_PART_RST_DONE => .PKG_PART_RST
  | .PKG_RESET_CONFIRM => .PKG_RESET
  | .PKG_RESET_GO => .PKG_RESET
  | .YLD_STAT_SPARES_LEFT => .YLD_STAT
  | .YLD_STAT_STACK_LOST => .YLD_STAT
  | .YLD_STAT_ABSENT => .YLD_STAT
  | .YLD_STAT_CHART_USED => .YLD_STAT
  | .YLD_STAT_CHART_DROPPED => .YLD_STAT
  | .YLD_START_PHASE => .YLD_START
  | .YLD_START_FAIL => .YLD_START
  | .YLD_START_DURATION => .YLD_START
  | .YLD_START_START_NO => .YLD_START
  | .YLD_GROUP_SPARES_LEFT => .YLD_GROUP
  | .YLD_GROUP_ABSENT => .YLD_GROUP
  | .YLD_GROUP_NOROWS => .YLD_GROUP
  | .YLD_GROUP_WITHHELD => .YLD_GROUP
  | .SAL_PKG_NUM => .SAL_PKG
  | .SAL_PKG_VALID => .SAL_PKG
  | .SAL_PORT_CTL_EN => .SAL_PORT_CTL
  | .SAL_PORT_CTL_WIDTH => .SAL_PORT_CTL
  | .SAL_PORT_CTL_MAX_RATE => .SAL_PORT_CTL
  | .SAL_PORT_CTL_PAT => .SAL_PORT_CTL
  | .SAL_PORT_CTL_DWELL_LOG2 => .SAL_PORT_CTL
  | .SAL_PORT_CTL_MAX_ERR => .SAL_PORT_CTL
  | .SAL_PORT_CTL_RETRY_S => .SAL_PORT_CTL
  | .SAL_PORT_CMD_RETRAIN => .SAL_PORT_CMD
  | .SAL_PORT_CMD_TEST => .SAL_PORT_CMD
  | .SAL_PORT_CMD_TEST_END => .SAL_PORT_CMD
  | .SAL_PORT_STAT_STATE => .SAL_PORT_STAT
  | .SAL_PORT_STAT_RATE => .SAL_PORT_STAT
  | .SAL_PORT_STAT_WIDTH => .SAL_PORT_STAT
  | .SAL_PORT_STAT_REV => .SAL_PORT_STAT
  | .SAL_PORT_STAT_REASON => .SAL_PORT_STAT
  | .SAL_PORT_STAT_RETRAINS => .SAL_PORT_STAT
  | .SAL_PORT_STAT_DOWNS => .SAL_PORT_STAT
  | .SAL_PORT_PEER_PKG => .SAL_PORT_PEER
  | .SAL_PORT_PEER_DIE => .SAL_PORT_PEER
  | .SAL_PORT_PEER_PORT => .SAL_PORT_PEER
  | .SAL_PORT_PEER_PVALID => .SAL_PORT_PEER
  | .SAL_PORT_PEER_VALID => .SAL_PORT_PEER
  | .SAL_PORT_ERR_REPLAYS => .SAL_PORT_ERR
  | .SAL_PORT_ERR_MALFORMED => .SAL_PORT_ERR
  | .SAL_PORT_ERR_MISDIRECT => .SAL_PORT_ERR
  | .SAL_PORT_ERR_LOST => .SAL_PORT_ERR
  | .SAL_LANE_STAT_FAULT => .SAL_LANE_STAT
  | .SAL_LANE_STAT_POL => .SAL_LANE_STAT
  | .SAL_LANE_STAT_LOCK => .SAL_LANE_STAT
  | .SAL_LANE_STAT_PRBS_ERR => .SAL_LANE_STAT
  | .SAL_LANE_STAT_TXDISC => .SAL_LANE_STAT
  | .MOD_STAT_COOL_IN => .MOD_STAT
  | .MOD_STAT_COOL_OUT => .MOD_STAT
  | .MOD_STAT_LEAK => .MOD_STAT
  | .MOD_STAT_COOL_ALARM => .MOD_STAT
  | .MOD_STAT_VIN_LOW => .MOD_STAT
  | .MOD_STAT_LAST_OFF => .MOD_STAT
  | .MOD_STAT_TRIPS => .MOD_STAT

/-- The registers, part 1. -/
def Rg.part1 : List Rg :=
  [.YLD_STAGE_WDOG, .YLD_STAGE_TMO_CNT, .YLD_ROW_CE_LIMIT, .YLD_ROW_STAT, .YLD_ROW_ERR, .ROSE_MODE, .ROSE_REFUSE_STAT, .ROSE_CTX_REFUSE, .HBM_CTL, .HBM_HAMMER, .HBM_STATE, .HBM_FREQ_REQ, .HBM_RETRAIN_REQ, .HBM_ECC_STAT]

/-- The registers, part 2. -/
def Rg.part2 : List Rg :=
  [.HBM_HAMMER_CNT, .HBM_RETRAIN_STAT, .HBM_TIMING_A, .HBM_TIMING_B, .XFR_MODE, .XFR_PRI_CTL, .XFR_FAULT_STAT, .XFR_RED_STAT, .XFR_WIN_STAT, .XFR_CTX_MISS, .XFR_WIN, .PKG_LEASE, .PKG_LEASE_TIMEOUT, .PCI_ACC_VIOL]

/-- The registers, part 3. -/
def Rg.part3 : List Rg :=
  [.PCI_DBG_CTL, .PCI_LINK_STAT, .PCI_VF_CTX, .PKG_CTL, .PKG_STATE, .PKG_LWR_ERR, .PKG_RING_CFG, .PKG_PART_CORE, .PKG_PART_HBM, .CTX_STATE, .CTX_CMD, .CTX_RING, .CTX_RING_POS, .CTX_PREEMPT]

/-- The registers, part 4. -/
def Rg.part4 : List Rg :=
  [.CTX_AREA, .CTX_EVENT, .CTX_MSIX, .CTX_ERR, .CTX_CORES, .CTX_HBM, .CTX_STREAM, .PKG_LOG_MODE, .HBM_FIX_MAP, .CTX_FIX, .CTX_LOG, .CTX_LOG_FAULT, .FAB_TP_CTL, .FAB_ERR_STAT]

/-- The registers, part 5. -/
def Rg.part5 : List Rg :=
  [.FAB_GPIO_STAT, .FAB_TP_BIND, .FAB_TP_STAT, .FAB_RAW_STAT, .CFG_STAT, .CFG_REGIONS, .CFG_REGION_OWN, .CFG_FLASH_WR, .CFG_FLASH_STAT, .SEC_STAT, .SEC_ATT_STAT, .SEC_ATT_CTL, .SEC_KEY_WR, .SEC_FW_WR]

/-- The registers, part 6. -/
def Rg.part6 : List Rg :=
  [.SEC_VAULT_STAT, .CLK_SRC_STAT, .CLK_FAIL, .CLK_REF_SEL, .CLK_SRC_SEL, .CLK_GATE, .CLK_GATE_ERR, .CLK_FAB_FREQ, .CLK_MEAS_CTL, .CLK_MEAS_RES, .CLK_OUT_CTL, .CLK_APER, .CLK_PWR_STAT, .CLK_REGION]

/-- The registers, part 7. -/
def Rg.part7 : List Rg :=
  [.INT_CTL, .INT_STAT, .INT_CLAIM, .INT_COMPLETE, .INT_PROC, .INT_RAISE, .INT_SRC, .INT_PRIV, .HELM_STAT, .HELM_WDOG, .ID_MODULE, .ID_SERIAL, .PKG_PART_RST, .PKG_RESET]

/-- The registers, part 8. -/
def Rg.part8 : List Rg :=
  [.YLD_STAT, .YLD_START, .YLD_GROUP, .SAL_PKG, .SAL_PORT_CTL, .SAL_PORT_CMD, .SAL_PORT_STAT, .SAL_PORT_PEER, .SAL_PORT_ERR, .SAL_LANE_STAT, .MOD_STAT]

/-- Every register. -/
def Rg.all : List Rg :=
  Rg.part1 ++ Rg.part2 ++ Rg.part3 ++ Rg.part4 ++ Rg.part5 ++ Rg.part6 ++ Rg.part7 ++ Rg.part8

end Sys2Proof.Machine
end

