-- ==== Sys2Proof/Machine/Tables.lean ====
section
/-! DEFINITION. Sparse tables as plain data: lists of keyed entries, an unlisted key reading as a default the reader names. -/

namespace Sys2Proof.Machine

/-- A sparse table. -/
abbrev Tbl (κ α : Type) := List (κ × α)

/-- The entry of key `k`, if listed. -/
def Tbl.get? {κ α : Type} [DecidableEq κ] (t : Tbl κ α) (k : κ) : Option α :=
  match t with
  | [] => none
  | (k', v) :: r => if k' = k then some v else Tbl.get? r k

/-- The entry of key `k`, or `d` where none is listed. -/
def Tbl.getD {κ α : Type} [DecidableEq κ] (t : Tbl κ α) (k : κ) (d : α) : α :=
  (Tbl.get? t k).getD d

/-- The table with `v` at key `k`: in its place where `k` is listed, else at the end. -/
def Tbl.set {κ α : Type} [DecidableEq κ] (t : Tbl κ α) (k : κ) (v : α) : Tbl κ α :=
  match t with
  | [] => [(k, v)]
  | (k', v') :: r => if k' = k then (k, v) :: r else (k', v') :: Tbl.set r k v

/-- The table without key `k`. -/
def Tbl.erase {κ α : Type} [DecidableEq κ] (t : Tbl κ α) (k : κ) : Tbl κ α :=
  t.filter (fun e => decide (e.1 ≠ k))

/-- Replace every element that satisfies `p` by its image under `f`. -/
def mapIf {α : Type} (p : α → Bool) (f : α → α) (l : List α) : List α :=
  l.map (fun a => if p a then f a else a)

/-- Replace the element at place `i` by its image under `f`; the list itself where there is none. -/
def modAt {α : Type} (l : List α) (i : Nat) (f : α → α) : List α :=
  match l, i with
  | [], _ => []
  | a :: r, 0 => f a :: r
  | a :: r, i + 1 => a :: modAt r i f

/-- The list without its element at place `i`. -/
def dropAt {α : Type} (l : List α) (i : Nat) : List α :=
  match l, i with
  | [], _ => []
  | _ :: r, 0 => r
  | a :: r, i + 1 => a :: dropAt r i

/-- Repeat a state change `n` times, handing each the count of those before it. -/
def iter {σ : Type} (f : Nat → σ → σ) : Nat → σ → σ
  | 0, s => s
  | n + 1, s => f n (iter f n s)

/-- A counter of `w` bits one higher, stopping at its top value. -/
def satInc (w v : Nat) : Nat := if v + 1 < 2 ^ w then v + 1 else 2 ^ w - 1

/-- Bits `lo` to `lo + n - 1` of a number. -/
def natBits (v lo n : Nat) : Nat := (v >>> lo) % 2 ^ n

/-- `v` with its bits `lo` to `lo + n - 1` replaced by the low bits of `x`. -/
def natSet (v lo n x : Nat) : Nat :=
  (v / 2 ^ (lo + n)) * 2 ^ (lo + n) + (x % 2 ^ n) * 2 ^ lo + v % 2 ^ lo

/-- The bytes of a number, `n` of them, lowest first. -/
def natBytes (v : Nat) : Nat → List Byte
  | 0 => []
  | n + 1 => BitVec.ofNat 8 v :: natBytes (v >>> 8) n

/-- The number that bytes spell, lowest first. -/
def bytesNat : List Byte → Nat
  | [] => 0
  | b :: r => b.toNat + 256 * bytesNat r

/-- The list cut into pieces of `n`, at most `k` of them. -/
def chunks {α : Type} (n : Nat) : Nat → List α → List (List α)
  | 0, _ => []
  | k + 1, l => match l with
    | [] => []
    | _ => l.take n :: chunks n k (l.drop n)

end Sys2Proof.Machine
end

