-- ==== Sys2Proof/Machine/State.lean ====
section
/-! DEFINITION. The state of the module as plain data: everything the spec gives it, and the state after reset. -/

namespace Sys2Proof.Machine

/-- Why the block stops. The spec names no command that stops the module (log 6), so there is no such reason. -/
inductive Fault where
  deriving DecidableEq, Repr

/-- Why a command has no meaning: `notModelled` stands for a row that has none yet, raised by Dispatch alone; safe. -/
inductive Refusal where
  /-- The row has no meaning yet; safe, nothing happens. -/
  | notModelled (mnemonic : String)
  deriving DecidableEq, Repr

/-! ## A core (03, 04, 05) -/

/-- One accumulator entry (R44, R64). -/
structure AccE where
  val : BitVec 40
  mode : Bool
  clr : Bool
  deriving DecidableEq, Repr

/-- A loop counter and its loop record (R104, R111). -/
structure LoopRec where
  cnt : W32
  start : Nat
  stop : Nat
  active : Bool
  rot : Bool
  stg : Nat
  n : W32
  map : W32
  deriving DecidableEq, Repr

/-- A matrix instruction in the stream unit's queue, with its operations not yet issued (R73, R79). -/
structure SqE where
  word : W32
  /-- The physical vector register it names, mapped when the sequencer issued it (R106). -/
  phys : Fin 16
  left : Nat
  deriving DecidableEq, Repr

/-- The four column results of a vector on their way to stage C (R61, R46): the group, the mode, the combination
(0 sum, 1 minimum, 2 maximum), and each column's result; none where stage A was a no-operation (R65). -/
structure ColRes where
  grp : Nat
  mode : Bool
  how : Nat
  cols : List (BitVec 40)
  deriving DecidableEq, Repr

/-- A register write that has not happened yet: bits `lo` to `lo + w - 1` of a vector register, or a whole general
register (R75, R71, R88). -/
inductive Wb where
  | vec (p : Fin 16) (lo w val : Nat)
  | gen (r : Fin 16) (val : W32)
  deriving DecidableEq, Repr

/-- A register that an instruction of latency 2 has just written (R89): the next step may not use it. -/
inductive RegName where
  | g (r : Fin 16)
  | v (p : Fin 16)
  deriving DecidableEq, Repr

/-- The run state of a core (R80, R82, R103). -/
inductive RunState where
  /-- No program runs. -/
  | idle
  | running
  /-- Stopped by a pre-emption, its state saved or being saved (R80). -/
  | quiet
  /-- Stopped by a fault (R82), with its cause. -/
  | faulted (cause : Nat)
  /-- Stopped as for a fault without a report (R130 step 3, R164 step 4). -/
  | killed
  deriving DecidableEq, Repr

/-- How a latched stop takes effect (R80, R101). -/
inductive StopReq where
  | none
  /-- Latched: it waits for the brake's release, or for a YIELD or the yield limit. -/
  | latched
  /-- Taken: nothing issues any more; the DEAD mask of the YIELD, if one took it. -/
  | taken (yielded : Bool) (dead : BitVec 4)
  deriving DecidableEq, Repr

/-- The START a core keeps for its PASS_DONE (R150). -/
structure StartInfo where
  src : CoreAddr
  skind : BitVec 2
  up : BitVec 4
  tag : BitVec 16
  ctx : BitVec 10
  deriving DecidableEq, Repr

/-- A program load in progress (R109): the held START, the words received, the route writes received and the entries
written since the previous load. -/
structure LoadRec where
  held : Option (Packet)
  blocks : List Nat
  routeWrites : Nat
  entries : List Nat
  deriving DecidableEq, Repr

/-- Where a packet is (R138, R151): at the input of a router on the way up or down, or at an endpoint. Router `idx` of
level `lvl` serves the addresses that share their digits from `lvl` up with `idx`. -/
inductive Ep where
  | core (c : CoreAddr)
  | tile (die : Nat) (tp : Nat)
  | hub (half : Nat) (idx : Nat)
  deriving DecidableEq, Repr

/-- One core. -/
structure Core where
  g : Vector W32 16
  a : Vector W32 8
  v : Vector VReg 16
  rrb : BitVec 3
  l0 : LoopRec
  l1 : LoopRec
  pc : Nat
  rng : W32
  nflags : W32
  steps : W32
  tile : BitVec 256
  tscale : BitVec 32
  tfmt : BitVec 8
  acc : Vector AccE 16
  sval : W32
  sidx : W32
  sdir : Bool
  skindInt : Bool
  sfound : Bool
  /-- Whether an RDSP has already read the state of a search that has met no number (R77). -/
  sread : Bool
  sq : List SqE
  cPipe : List ColRes
  wb : List Wb
  late : List RegName
  arrv : W32
  tsum : W32
  tcnt : W32
  rows : Vector Row 64
  tags : Vector Bool 64
  rowMap : Vector Nat 64
  ceCnt : Vector Nat 66
  /-- Physical rows that carry no logical row any more (R124). -/
  worn : List Nat
  ibuf : Vector W32 256
  plen : Nat
  load : LoadRec
  routes : Vector (BitVec 128) 32
  startInfo : Option StartInfo
  run : RunState
  stop : StopReq
  /-- A fault whose check failed under the brake (R84). -/
  latchedFault : Option Nat
  /-- A partition reset that came under the brake, which takes effect at the release (R83, R164). -/
  resetDue : Bool
  /-- An order to stop without a report that came under the brake, which takes effect at the release (R83, R130, R277);
  whether the core's context is killed by it. -/
  haltDue : Option Bool
  /-- Whether its save has been written since the stop (R80 step 4). -/
  saved : Bool
  /-- Parties whose access waits on a tag, in the order in which they began (R119, R122). -/
  waits : List Waiter
  /-- Parties whose access lost its row's arbitration and is owed the next grant (R116). -/
  deferred : List Waiter
  /-- The rows that stage R has read for the head of the queue, with their numbers: each access is arbitrated at its own row
  (R61, R116, R119). -/
  got : List (Nat × Row)
  /-- The units that a READ waiting on a tag has read so far (R117, R119). -/
  rdGot : List (Packet × List Unit16)
  inq : List Packet
  absSeen : W32
  asleep : Bool
  waking : Bool
  /-- A wake request latched under the brake (R162). -/
  wakeDue : Bool
  /-- The context whose state the core still holds (R236), if any. -/
  lastHolder : Option Nat
  /-- The reset sink (R157, R164). -/
  sink : Bool
  bleaching : Bool
  deriving DecidableEq, Repr

/-- An accumulator entry after a program load (R64). -/
def AccE.cleared : AccE := ⟨0, false, true⟩

/-- A loop record with no loop active (R109). -/
def LoopRec.off : LoopRec := ⟨0, 0, 0, false, false, 0, 0, 0⟩

/-- A core after the start: rows zero, tags EMPTY (R133), the registers as Bleach leaves them (R129), each logical row
on its own physical row (R114). -/
def Core.reset : Core where
  g := Vector.replicate 16 0
  a := Vector.replicate 8 0xFC0
  v := Vector.replicate 16 0
  rrb := 0
  l0 := .off
  l1 := .off
  pc := 0
  rng := 0
  nflags := 0
  steps := 0
  tile := 0
  tscale := 0
  tfmt := 0
  acc := Vector.replicate 16 .cleared
  sval := 0x7F800000
  sidx := 0xFFFFFFFF
  sdir := false
  skindInt := false
  sfound := false
  sread := false
  sq := []
  cPipe := []
  wb := []
  late := []
  arrv := 0
  tsum := 0
  tcnt := 0
  rows := Vector.replicate 64 0
  tags := Vector.replicate 64 false
  rowMap := Vector.ofFn (fun i => i.val)
  ceCnt := Vector.replicate 66 0
  worn := []
  ibuf := Vector.replicate 256 0
  plen := 0
  load := ⟨none, [], 0, []⟩
  routes := Vector.replicate 32 0
  startInfo := none
  run := .idle
  stop := .none
  latchedFault := none
  resetDue := false
  haltDue := none
  saved := false
  waits := []
  deferred := []
  got := []
  rdGot := []
  inq := []
  absSeen := 0
  asleep := false
  waking := false
  wakeDue := false
  lastHolder := none
  sink := false
  bleaching := false

/-! ## The Rose (06) -/

/-- Where a packet under way is: queued at an endpoint's outbound port, in the input buffer of a router on the way up (from
child `inp` below 4, from the side port 4, from the router itself 6, from a core that enters there 8 and more) or down, or
in the input buffer of an endpoint. -/
inductive Loc where
  | out (e : Ep)
  | up (lvl idx inp : Nat)
  | down (lvl idx : Nat)
  /-- At a router of level `lvl`, on the way to the level-5 router for the addresses below router `idx` of level `n` whose
  map bit is set (R137). -/
  | map5 (lvl n idx : Nat)
  | at_ (e : Ep)
  deriving DecidableEq, Repr

/-- A packet under way: whether it is a combined tally (R152, R159), and the copies of a multicast that its router has still
to send, once one has left (R139). -/
structure Flight where
  pkt : Packet
  loc : Loc
  comb : Bool
  left : Option (List (Packet × Loc))
  deriving DecidableEq, Repr

/-- The output of a router: one of its down ports, its up port, its side port. -/
inductive RPort where
  | down (d : Nat)
  | up
  | side
  deriving DecidableEq, Repr

/-- An open tally slot of a router output (R159): its packet and where that goes, whether it has merged another, and whether
its hold has ended. -/
structure Slot where
  lvl : Nat
  idx : Nat
  out : RPort
  pkt : Packet
  nxt : Loc
  comb : Bool
  ripe : Bool
  deriving DecidableEq, Repr

/-- An output: of a router, or the outbound port of an endpoint. -/
inductive OutKey where
  | router (lvl idx : Nat) (port : RPort)
  | ep (e : Ep)
  deriving DecidableEq, Repr

/-- How an output chooses among its channels (R153): packets of other channels that have started while each channel waited,
by the number of the channel, and the place in the repeating order. -/
structure OutSt where
  waited : List Nat
  turn : Nat
  deriving DecidableEq, Repr

/-- The Rose's own state. `absent` lists the cores absent in service or for the run (R276, R400); `mapped` the
addresses that a physical core other than the one at their position serves (R137). -/
structure Net where
  flights : List Flight
  slots : List Slot
  asleep : List (Nat × Nat)
  waking : List (Nat × Nat)
  /-- Routers with a wake request latched under the brake (R162). -/
  wakeDue : List (Nat × Nat)
  absent : List Nat
  mapped : Tbl Nat Nat
  outs : Tbl OutKey OutSt
  deriving DecidableEq, Repr

/-- Nothing under way, every router awake, every address at its own position. -/
def Net.reset : Net := ⟨[], [], [], [], [], [], [], []⟩

/-! ## HBM (07) -/

/-- An entry of a write queue: the pseudo-channel, the atom, the mask of its bytes, the page hint (R170, R172). -/
structure WqE where
  pc : Nat
  atom : Nat
  mask : Nat
  hint : Nat
  deriving DecidableEq, Repr

/-- What one controller holds besides its registers and its stack's bytes. A read is served by the command that brings it, so
that the read queues of R170 are empty between commands. -/
structure Stack where
  /-- Poisoned atoms, by stack atom number (R178). -/
  poison : List Nat
  /-- The entries of the 64 write queues, oldest first (R170). -/
  wq : List WqE
  /-- Open rows: pseudo-channel, bank, row (R172). -/
  openRows : List (Nat × Nat × Nat)
  /-- Neighbour refreshes drawn and not yet carried out: pseudo-channel, bank, row (R175). -/
  nbr : List (Nat × Nat × Nat)
  /-- How often each row, by pseudo-channel, bank and row, has been refreshed as a neighbour (R175). -/
  nbrRows : Tbl (Nat × Nat × Nat) Nat
  /-- Refreshes each bank has had, and the interval to its next one in command-clock cycles (R174). -/
  refreshed : Tbl (Nat × Nat) (Nat × Nat)
  /-- Temperature at the last training (R183). -/
  trainTemp : Nat
  /-- The timer at the interface errors of the last millisecond (R183). -/
  errs : List Nat
  /-- The HBM_CTL.RATE that Helm firmware has last carried out (R182). -/
  rate : Nat
  /-- MLOOP_HBM has coasted and relocked during a rate change, which a retraining follows (R356). -/
  recoast : Bool
  deriving DecidableEq, Repr

/-- A controller before its stack has been used. -/
def Stack.reset : Stack := ⟨[], [], [], [], [], [], 0, [], 0, false⟩

/-! ## Transfers, contexts, Fix groups and passes (08, 10, 11) -/

/-- An endpoint specifier (R188). -/
structure EndSpec where
  addr : Nat
  kind : Nat
  t : Bool
  cnt : Bool
  hint : Nat
  bulk : Bool
  mv : Bool
  pkg : Nat
  pasid : Nat
  pv : Bool
  deriving DecidableEq, Repr

/-- A transfer's shape (R190): run length, the four counts and the signed strides, dimension 1 first. -/
structure Shape where
  len0 : Nat
  cnt : List Nat
  ss : List Int
  ds : List Int
  deriving DecidableEq, Repr

/-- A reshard record (R211). -/
structure ReRec where
  sbase : Nat
  sstep : Nat
  dbase : Nat
  dstep : Nat
  ncore : Nat
  srow : Nat
  drow : Nat
  nrow : Nat
  flags : Nat
  deriving DecidableEq, Repr

/-- How a REDUCE combines: link and result format, the operation, the bytes of a link's block, OVF (R207). -/
structure RedOp where
  lf : Nat
  rf : Nat
  how : Nat
  len : Nat
  ovf : Bool
  deriving DecidableEq, Repr

/-- What a transfer moves: the elements of a shape, the records of a reshard map (those not yet begun), the links of a REDUCE
(the one being read and those after it, each with its egress port, and the bytes that have come of the earlier ones), or bytes
that are written as they stand. -/
inductive Plan where
  | shape (sh : Shape)
  | reshard (recs : List ReRec)
  | reduce (op : RedOp) (links : List (EndSpec × Option (Nat × Nat))) (got : List Byte)
  | result (bytes : List Byte)
  deriving DecidableEq, Repr

/-- Whose work a transfer is: a descriptor's (by the number of its fetched copy), a stream arm's, with the number of its
stream's create and that create's SEQ and FLAGS, or the write of a SIGNAL of a group at publication (R242, R253, R267). -/
inductive Role where
  | desc (copy : Nat)
  | arm (stream k seq flags : Nat)
  | sig (grp : Nat)
  deriving DecidableEq, Repr

/-- One source read of a piece: the endpoint asked, none for host memory, its tag (R142) and PASID, its 16-byte units, and what
came back: nothing where it has failed. A host read that a lost link has cut off has tag 1 (R230). -/
structure RdPart where
  who : Option Ep
  tag : Nat
  ps : Option Nat
  units : Nat
  got : Option (List Byte)
  deriving DecidableEq, Repr

/-- A piece whose source is being read (R193): its number, addresses, length, the bytes to drop before the first, and its reads. -/
structure Piece where
  n : Nat
  src : Nat
  dst : Nat
  len : Nat
  skip : Nat
  parts : List RdPart
  /-- Where it stands in the transfer: the index of each dimension, the byte of the run. -/
  ix : List Nat
  i0 : Nat
  deriving DecidableEq, Repr

/-- Why a transfer issues nothing (R196, R198): nothing holds it, a page fault at a host page (source side or not) with
its request sent or waiting for a slot, or the context's pause. -/
inductive Hold where
  | none
  | page (page : Nat) (write : Bool) (sent : Bool)
  | paused (cause : Nat)
  /-- A pause, during which the response to its page request came: CAUSE stays 1, and the side that faulted is kept (R196). -/
  | resolved (write : Bool)
  deriving DecidableEq, Repr

/-- A host write sent and not yet acknowledged by the link (R194, R230): the piece's number, address, bytes, PASID, and
where it stands in its transfer. -/
structure HostW where
  n : Nat
  addr : Nat
  bytes : List Byte
  pasid : Option Nat
  ix : List Nat
  i0 : Nat
  /-- Whether it has gone since the link was last lost. -/
  sent : Bool
  deriving DecidableEq, Repr

/-- A transfer in service. -/
structure Xfer where
  id : Nat
  ctx : Nat
  role : Role
  half : Nat
  eng : Nat
  src : EndSpec
  dst : EndSpec
  plan : Plan
  /-- The index of each dimension, I1 first, and the bytes of the current run already issued (R191). -/
  ix : List Nat
  i0 : Nat
  pieces : List Piece
  nextN : Nat
  /-- For each piece written by packets and not settled, its packets that no ANSWER has counted yet (R194). -/
  writes : List Nat
  hostOut : List HostW
  /-- Bytes of a tile port's unit that the next piece of the source uses, and bytes that wait for a whole unit of a tile port at
  the destination (R193). -/
  srcLeft : List Byte
  dstLeft : List Byte
  /-- The status by rank of R195: 7 is OK, 1 the highest. -/
  rank : Nat
  failed : Bool
  hold : Hold
  /-- Resumed since the last Page Response that said Success (R199): how many such responses still faulted. -/
  tries : Nat
  t0 : Nat
  deadline : Nat
  late : Bool
  tag : Nat
  /-- The egress ports of a REMOTE source and of a REMOTE destination: die and port (R189). -/
  egrS : Option (Nat × Nat)
  egr : Option (Nat × Nat)
  grp : Option Nat
  /-- The WAITs on the flag that a SIGNAL's transfer has written have looked at it again (R249). -/
  woke : Bool
  deriving DecidableEq, Repr

/-- How far a LAUNCH in service is: it waits for room for its record (R273), for the earlier passes on cores of its set (R110), or
its image has been sent. -/
inductive PassSt where
  | waitsLog
  | waitsCores
  | sent
  deriving DecidableEq, Repr

/-- A pass of a LAUNCH (R250, R273). -/
structure Pass where
  id : Nat
  copy : Nat
  st : PassSt
  half : Nat
  eng : Nat
  cset : Nat
  cmask : Nat
  image : Nat
  /-- LSEQ and HBM address of its record, when covered. -/
  log : Option (Nat × Nat)
  /-- The record's input entries with CAPTURE filled, 32 bytes each. -/
  inputs : List (List Byte)
  run : Nat
  tag : Nat
  /-- Targets of the START, and how many ANSWERs have counted as accepted. -/
  expect : Nat
  accepted : Nat
  refused : Nat
  done : Nat
  absAns : Nat
  rank : Nat
  /-- Faulted cores of the present run, with their causes; the run is abandoned when there is one (R277). -/
  faults : List (Nat × Nat)
  /-- A replay is granted and not yet carried out (R278). -/
  toReplay : Bool
  replayed : Bool
  t0 : Nat
  deadline : Nat
  late : Bool
  deriving DecidableEq, Repr

/-- A fetched copy (R240): its number, bytes, whether it has begun and completed, the moment it became eligible (R241),
the group it is a member of or closes. -/
structure Copy where
  id : Nat
  bytes : BitVec 512
  begun : Bool
  done : Bool
  elig : Option Nat
  grp : Option Nat
  /-- Stream arms accepted before it was fetched and not yet completed (R248 FENCE). -/
  armsBefore : List (Nat × Nat)
  /-- The engine that a WAIT in service is with (R242). -/
  eng : Option (Nat × Nat)
  /-- The host page whose translation it needs before it can read or stage as it begins, whether it writes there, the PASID;
  and how many successful page responses have not helped (R197, R199). -/
  wants : Option (Nat × Bool × Option Nat)
  tries : Nat
  /-- Its deadline has passed before its service (R214). -/
  late : Bool
  deriving DecidableEq, Repr

/-- A completion entry that waits (R244): its 16 bytes without the phase and the slot. -/
structure Cqe where
  seq : Nat
  status : Nat
  op : Nat
  time : Nat
  info : Nat
  deriving DecidableEq, Repr

/-- A completion that waits for a place in the held list (R244): of a descriptor, with the copy's number, or an entry of its own. -/
inductive Owed where
  | copy (i status info : Nat) (always : Bool)
  | entry (e : Cqe)
  deriving DecidableEq, Repr

/-- A persistent stream (R251, R252). -/
structure Stream where
  /-- The number of its create. -/
  id : Nat
  src : EndSpec
  dst : EndSpec
  len0 : Nat
  sadv : Int
  dadv : Int
  wrap : Nat
  deadline : Nat
  flags : Nat
  seq : Nat
  served : Nat
  /-- Arms accepted and not completed, the one in service among them. -/
  queued : Nat
  /-- The transfer of the arm in service. -/
  inService : Option Nat
  deriving DecidableEq, Repr

/-- A staged row record (R262): core, row, data, byte mask, T. -/
structure RowRec where
  /-- The copy number of the member that first wrote it. -/
  member : Nat
  core : Nat
  row : Nat
  data : Row
  mask : BitVec 64
  t : Bool
  deriving DecidableEq, Repr

/-- How far a Fix group is (R259, R266, R269). -/
inductive GrpSt where
  | open_
  | closed
  | flipped
  | published
  | aborted
  deriving DecidableEq, Repr

/-- A Fix group. -/
structure Grp where
  id : Nat
  gid : Nat
  area : Nat
  st : GrpSt
  overflowed : Bool
  /-- The copies that are members, and the copy that closes it. -/
  members : List Nat
  closer : Option Nat
  /-- Staged HBM pages: page number (device address ÷ 4 KiB) and its 4,096 bytes (R262). -/
  pages : List (Nat × List Byte)
  /-- Groups a page was copied from (R265). -/
  from_ : List Nat
  rows : List RowRec
  /-- Host pieces: the member's copy number, address, bytes, PASID when valid. -/
  host : List (Nat × Nat × List Byte × Option Nat)
  /-- SIGNALs and stream arms that act at publication, with the member's copy number. -/
  acts : List (Nat × BitVec 512)
  /-- The SIGNALs still to act, once step 4 of the publication has begun, and whether one acts now (R267). -/
  sigs : Option (List (BitVec 512))
  sigNow : Bool
  recBytes : Nat
  acks : Nat
  hostOut : List HostW
  rank : Nat
  /-- Successful Page Responses after which its next host piece still faulted (R199). -/
  tries : Nat
  tag : Nat
  deriving DecidableEq, Repr

/-- What a context is doing (R234). -/
inductive Busy where
  | none
  | pausing
  | resuming
  | stopping
  deriving DecidableEq, Repr

/-- What one context holds besides its registers. -/
structure Ctx where
  holds : Bool
  busy : Busy
  copies : List Copy
  heldCq : List Cqe
  /-- Completions that wait until the held list has a place (R244). -/
  owed : List Owed
  /-- Completion entries and messages (true for CQ_VEC) that the link has not acknowledged yet, oldest first (R230): address
  and bytes. -/
  cqOut : List (Nat × List Byte)
  msgOut : List Bool
  sqTail : Nat
  cqHead : Nat
  /-- A CQ_VEC message has gone since the last CQ_HEAD write (R246). -/
  cqMsg : Bool
  /-- Messages held, in their order: true for the completion message (R222, R230). -/
  pend : List Bool
  /-- The slot at the head did not carry the expected GEN and waits for a poll (R240). -/
  genWait : Bool
  /-- Successful Page Responses in a row after which a page of the submission ring, or of the completion ring, still faulted
  (R199, R245). -/
  sqTries : Nat
  cqTries : Nat
  streams : Tbl Nat Stream
  grps : List Grp
  passes : List Pass
  /-- The place of the next pass record in the Logbook region (R273). -/
  logTail : Nat
  /-- Cores saved at the present pause, and cores still to be restored at a resume (R112). -/
  saved : List Nat
  toRestore : List Nat
  /-- The pass that each core worked for at the pause, by core (R112, R282). -/
  passAt : Tbl Nat Nat
  /-- A restore could not read its image: the rank of the failure (R112). -/
  lostImage : Option Nat
  /-- The copies and the transfers that the held-write record holds, in its order (R255). -/
  recCopies : List Nat
  recXfers : List Nat
  /-- Passes that have ended with a run abandoned of whose STARTs not all have been answered: their cores are not loaded before
  that (R110, R277). -/
  ended : List Pass
  /-- Cores and stacks that still owe their Bleach (R130). -/
  owedCores : List Nat
  owedStacks : List Nat
  /-- Inbound packets that waited on a tag when their core was saved (R128): core and packet, in order. -/
  heldPkts : List (Nat × Packet)
  /-- SEQ and OP of the last descriptor fetched (R234). -/
  lastSeq : Nat
  lastOp : Nat
  deriving DecidableEq, Repr

/-- A context in FREE. -/
def Ctx.reset : Ctx where
  holds := false
  busy := .none
  copies := []
  heldCq := []
  owed := []
  cqOut := []
  msgOut := []
  sqTail := 0
  cqHead := 0
  cqMsg := false
  pend := []
  genWait := false
  sqTries := 0
  cqTries := 0
  streams := []
  grps := []
  passes := []
  logTail := 0
  saved := []
  toRestore := []
  passAt := []
  lostImage := none
  recCopies := []
  recXfers := []
  ended := []
  owedCores := []
  owedStacks := []
  heldPkts := []
  lastSeq := 0
  lastOp := 0

/-! ## Yield, Helm and interrupts (16, 17) -/

/-- A Chart entry (R397). -/
structure ChartE where
  kind : Nat
  field : Bool
  where_ : Nat
  row : Nat
  level : Nat
  cause : Nat
  startNo : Nat
  deriving DecidableEq, Repr

/-- What Helm and the interrupt controllers hold besides their registers. -/
structure Helm where
  /-- The Chart of each die (R397). -/
  chart : Tbl Nat (List ChartE)
  /-- The start count of each die's Chart record (R397). -/
  starts : Tbl Nat Nat
  /-- Physical cores marked since the start as having no spare row left: die and physical number (R125). -/
  noRows : List (Nat × Nat)
  /-- The unused good spares of each spare group, in the order they are taken (R400). -/
  spares : Tbl Nat (List Nat)
  /-- Fault reports in the Helm mailbox of each die (R143). -/
  mailbox : Tbl Nat (List Packet)
  /-- The processor that claimed each ACTIVE shared source, by die and local number (R386). -/
  claimed : Tbl (Nat × Nat) Nat
  /-- Dies whose interrupt controller sleeps, and their wake queues: numbers, and whether Helm firmware sent them (R390). -/
  asleep : List Nat
  wakeQ : Tbl Nat (List (Nat × Bool))
  /-- Processors whose watchdog has passed half its period (R378). -/
  warned : List (Nat × Nat)
  /-- Timer values of each processor's resets (R379). -/
  resetAt : Tbl (Nat × Nat) (List Nat)
  /-- Processors whose last proposal their checker disagreed with (R377). -/
  disagreed : List (Nat × Nat)
  /-- Dies whose die memory holds the verified image (R375). -/
  loaded : List Nat
  /-- What the die memories and the private memories of the processors hold from address 0 up; the rest of them is zero (R375,
  R379). -/
  dieMem : Tbl Nat (List Byte)
  privMem : Tbl (Nat × Nat) (List Byte)
  /-- BODY_HASH of the running image (R343, R379). -/
  bodyHash : BitVec 256
  deriving DecidableEq, Repr

/-- Nothing recorded, every controller awake. -/
def Helm.reset : Helm := ⟨[], [], [], [], [], [], [], [], [], [], [], [], [], [], 0⟩

/-! ## PCIe ports (09) -/

/-- Errors a port logs through AER (R225). -/
inductive AerErr where
  | unsupported
  | abort
  | poisoned
  | unexpected
  deriving DecidableEq, Repr

/-- A translation (R197, R216): the page, the PASID, the VF it was given to if any, read and write permission. -/
structure Tr where
  page : Nat
  pasid : Option Nat
  vf : Option Nat
  r : Bool
  w : Bool
  deriving DecidableEq, Repr

/-- An outstanding page request (R198): its transfer, page, VF, PASID, whether the access writes, when it was sent. -/
structure PageReq where
  t : Nat
  page : Nat
  vf : Option Nat
  pasid : Option Nat
  write : Bool
  at_ : Nat
  deriving DecidableEq, Repr

/-- What a port holds besides its registers. -/
structure PortS where
  /-- Helm firmware has marked the port ready (R224). -/
  ready : Bool
  /-- The link is lost (R230). -/
  lost : Bool
  /-- ATS Enable of configuration space (R197, R216). -/
  ats : Bool
  vfEn : Bool
  numVfs : Nat
  /-- The other fields of configuration space that have been written (R216). -/
  conf : Tbl ConfField Nat
  /-- A Function Level Reset of the PF is in progress (R232). -/
  flr : Bool
  /-- The timer when the link was lost (R231). -/
  lostAt : Nat
  /-- The translation cache, the one used least recently first (R197, R216). -/
  atc : List Tr
  pri : List PageReq
  /-- MSI-X entries that have been written: vector v of the PF at v, vector v of VF n at 4096 + 4 n + v (R219, R220). -/
  msix : Tbl Nat (BitVec 128)
  pba : List Nat
  aer : List AerErr
  /-- Invalidation Requests not answered yet, oldest first: the page, the PASID and the VF (R201). -/
  inval : List (Nat × Option Nat × Option Nat)
  /-- MSI-X messages of the port itself that the link has not acknowledged yet, oldest first: VF and vector (R230, R387). -/
  msgOut : List (Option Nat × Nat)
  deriving DecidableEq, Repr

/-- A port before its link is up. -/
def PortS.reset : PortS := ⟨false, false, false, false, 0, [], false, 0, [], [], [], [], [], [], []⟩


/-! ## The fabric (12) -/

/-- A tile port besides its registers. -/
structure TileP where
  /-- Entries that the port has taken from the fabric and not yet sent as a packet (R304, R305). -/
  tx : List FifoE
  /-- Entries up to the next header entry are discarded (R306). -/
  skip : Bool
  rx : List FifoE
  rsp : List FifoE
  /-- A read at the head of TX that waits for room in RSP, as the fabric wrote it (R307). -/
  held : Option Packet
  /-- Reads the fabric has not answered (R308). -/
  reads : List Packet
  /-- Reads the fabric has sent: TAG and COUNT (R307). -/
  resv : List (Nat × Nat)
  tv : W32
  tn : W32
  trst : W32
  tden : W32
  deriving DecidableEq, Repr

/-- A tile port with nothing in it. -/
def TileP.reset : TileP := ⟨[], false, [], [], none, [], [], 0, 0, 0, 0⟩

/-- An address pointer of a DSP slice (R298). -/
structure Ptr where
  base : BitVec 16
  len : BitVec 16
  off : BitVec 16
  deriving DecidableEq, Repr

/-- A DSP slice (R295 to R303). `acc` is the accumulator as the next MAC meets it, `acc2` as an instruction of this cycle
reads it, `acc1` as one of the next cycle will. `outNext` is the result of an OUT of the last cycle. -/
structure Slice where
  prog : Vector W32 32
  regs : Vector (BitVec 56) 16
  rrb : BitVec 3
  acc : BitVec 56
  acc1 : BitVec 56
  acc2 : BitVec 56
  satm : Bool
  sat : Bool
  val : BitVec 24
  idx : W32
  n : Nat
  fresh : Bool
  ibase : W32
  istep : W32
  sv : BitVec 24
  si : W32
  p0 : Ptr
  p1 : Ptr
  pc : Nat
  l0 : LoopRec
  l1 : LoopRec
  running : Bool
  err : Bool
  out : BitVec 48
  ov : Bool
  outNext : Option (BitVec 48)
  aaddr0 : BitVec 16
  aaddr1 : BitVec 16
  av0 : Bool
  av1 : Bool
  ir : Bool
  deriving DecidableEq, Repr

/-- A slice of an unconfigured fabric, halted, its pipelines zero (R290). -/
def Slice.reset : Slice where
  prog := Vector.replicate 32 0
  regs := Vector.replicate 16 0
  rrb := 0
  acc := 0
  acc1 := 0
  acc2 := 0
  satm := false
  sat := false
  val := 0
  idx := 0
  n := 0
  fresh := false
  ibase := 0
  istep := 0
  sv := 0
  si := 0
  p0 := ⟨0, 0, 0⟩
  p1 := ⟨0, 0, 0⟩
  pc := 0
  l0 := .off
  l1 := .off
  running := false
  err := false
  out := 0
  ov := false
  outNext := none
  aaddr0 := 0
  aaddr1 := 0
  av0 := false
  av1 := false
  ir := false

/-- A fabric region (R290, R323, R328, R329, R330): its Mask open, its set-reset asserted, its writes enabled, the border
frames whose park values are in force. -/
structure FabRegion where
  open_ : Bool
  gsr : Bool
  writes : Bool
  park : List (Nat × List Byte)
  deriving DecidableEq, Repr

/-- A region before its first configuration. -/
def FabRegion.reset : FabRegion := ⟨false, true, false, []⟩

/-- The fabric of all dies. -/
structure Fabric where
  /-- By die × 512 + tile port. -/
  tiles : Tbl Nat TileP
  /-- By die × 8,192 + slice. -/
  slices : Tbl Nat Slice
  /-- By die × 16 + region. -/
  regions : Tbl Nat FabRegion
  /-- Block RAM bytes that are not zero, by die × 0x80_0000 + byte of the die's blocks (R294). -/
  bram : List Host.Cell
  /-- Blocks with AP = 1, by die × 1,536 + block (R294). -/
  ap : List Nat
  /-- What each block RAM port shows, by 2 × (die × 1,536 + block) + 1 for port B: data and UE (R293). -/
  ports : Tbl Nat (BitVec 64 × Bool)
  /-- Frames that are not zero, by die × 2^20 + FAR (R315). -/
  frames : Tbl Nat (List Byte)
  /-- Pins whose driver is turned off, by die × 32 + pin (R314). -/
  gpioOff : List Nat
  /-- Receive buffers of the raw lanes, by die × 32 + lane: block and BAD (R312). -/
  raw : Tbl Nat (List (BitVec 256 × Bool))
  /-- Storage elements of the logic cells that have captured, by 2 × (die × 2^21 + cell) + element; any other holds its INIT
  value (R284, R290). -/
  elems : Tbl Nat Bool
  /-- Registers at segment ends that have captured, by (die × 256 + cluster column) × 2^24 + segment (R287). -/
  segs : Tbl Nat Bool
  /-- Border registers, by (die × 16 + region) × 2^24 + output (R287, R329). -/
  border : Tbl Nat Bool
  /-- Input registers of the GPIO pins that use one, by die × 32 + pin (R313). -/
  pinIn : Tbl Nat Bool
  deriving DecidableEq, Repr

/-- An unconfigured fabric. -/
def Fabric.reset : Fabric := ⟨[], [], [], [], [], [], [], [], [], [], [], [], []⟩

/-! ## Configuration (13) -/

/-- A stream being loaded by a die's configuration block (R319 to R327): for a CONFIG its context and copy, for the start
none; the region, or the whole die; where the stream lies, in HBM or in flash; its length; the header and hash table once
read; how far it is: the Mask closed, the Bleach done, the next segment and its key, the plaintext bytes not yet taken as
records, the frames of the current FRAMES record still due and the next FAR, the START list, whether END has been reached,
the start steps left. -/
structure CfgJob where
  who : Option (Nat × Nat)
  region : Option Nat
  flash : Bool
  src : Nat
  slen : Nat
  hdr : List Byte
  checked : Bool
  bleached : Bool
  seg : Nat
  key : BitVec 256
  rest : List Byte
  taken : Nat
  far : Nat
  left : Nat
  list : Option (List Nat)
  ended : Bool
  steps : List Nat
  deriving DecidableEq, Repr

/-- A flash write: source, length, slot, and whether its checks are done and it goes on in the background (R334). -/
structure FlashJob where
  src : Nat
  len : Nat
  slot : Nat
  checked : Bool
  deriving DecidableEq, Repr

/-- The configuration blocks of all dies. -/
structure Cfg where
  /-- The streams of each die in the order they are served (R327). -/
  jobs : Tbl Nat (List CfgJob)
  /-- Flash bytes that are not zero, by die × 2^29 + offset (R324). -/
  flash : List Host.Cell
  writing : Tbl Nat FlashJob
  deriving DecidableEq, Repr

/-- Nothing loaded, the flash empty. -/
def Cfg.reset : Cfg := ⟨[], [], []⟩

/-! ## The vault (14) -/

/-- A stream-verification key slot: a key, or revoked (R342). -/
inductive KeySlot where
  | key (bytes : List Byte)
  | revoked
  deriving DecidableEq, Repr

/-- A firmware slot (R343, R346): the image made at manufacture, an image written in the field, or one left invalid by a
reset during its write. -/
inductive FwSlot where
  | factory
  | image (bytes : List Byte)
  | broken
  deriving DecidableEq, Repr

/-- The variant record (R391): the fields of its first 256 bytes, the reserved ones among them, and its signature. -/
structure Variant where
  magic : List Byte
  format : Nat
  svn : Nat
  serial : BitVec 128
  dies : Nat
  grade : Nat
  memGib : Nat
  stackGib : Nat
  reserved : List Byte
  order : List Byte
  sig : List Byte
  deriving DecidableEq, Repr

/-- What a vault record holds (R335): a Chart and its start count; the identity record; an attestation key's record, with its
number; a wrap record, with the helper data of the PUF and the wrapped keys that it has; a stream key slot; the counters; the
variant record. A secret seed and its traversal checkpoint are sealed under VK, with the IV of the seal (R341, R349). -/
inductive VaultBody where
  | chart (entries : List ChartE) (starts : Nat)
  | identity (serial : BitVec 128) (pub cert iv closed : List Byte)
  | attKey (num : Nat) (pub cert iv closed : List Byte)
  | wrap (helper : List Byte) (rk vk : Option (List Byte))
  | slot (k : KeySlot)
  | counters (c : Vector (BitVec 16) 8)
  | variant (v : Variant)
  deriving DecidableEq, Repr

/-- One copy of a vault record, with its generation number and its check value (R336). -/
structure VCopy where
  body : VaultBody
  gen : W32
  check : BitVec 256
  deriving DecidableEq, Repr

/-- A vault record: its two copies, none where the medium holds nothing that can be read (R336, R338). -/
structure VRec where
  a : Option VCopy
  b : Option VCopy
  deriving DecidableEq, Repr

/-- An entry of an index journal: key number, index and check value, 16 bytes in all (R337). -/
structure JEntry where
  key : W32
  index : W32
  check : BitVec 64
  deriving DecidableEq, Repr

/-- A vault write in progress (R342, R346): a key, a revocation, a firmware image; or one whose bytes a stack still keeps
waiting: the target or the length, and where they lie. -/
inductive VaultJob where
  | fetchKey (target src : Nat)
  | fetchImage (src len : Nat)
  | key (target : Nat) (bytes : List Byte)
  | revoke (target : Nat)
  | firmware (bytes : List Byte)
  deriving DecidableEq, Repr

/-- A request of the attestation exchange (R352). -/
inductive DoeReq where
  | status
  | cert
  | quote (nonce : BitVec 256) (mask : Nat)
  deriving DecidableEq, Repr

/-- The vault and the signer. -/
structure Vault where
  /-- The vault's records that have been written, or lost, since manufacture (R335, R336, R338). -/
  recs : Tbl VaultRec VRec
  /-- The index journals of the identity key and of the attestation keys: the entries appended since manufacture, by their place
  among 4,096 (R337). -/
  idJournal : Tbl Nat JEntry
  attJournal : Tbl Nat JEntry
  fw0 : FwSlot
  fw1 : FwSlot
  /-- SVN of the running image (R345). -/
  fwSvn : Nat
  /-- The die keys derived at this start, RK as each die has unwrapped it, VK (R339 to R341). -/
  dieKeys : Tbl Nat (BitVec 256)
  rootKeys : Tbl Nat (List Byte)
  vk : Option (List Byte)
  /-- The leaf up to which the current key's traversal state has been advanced (R349). -/
  traversal : Nat
  /-- A new attestation key whose number, an identity leaf, is durable and whose record is not stored yet (R350). -/
  certifying : Option Nat
  /-- Measurements that are not zero (R353). -/
  meas : Tbl Nat (BitVec 256)
  /-- Requests waiting for their turn, in the order they reached the signer, each with its port (R352). -/
  reqs : List (Nat × DoeReq)
  /-- MIN_INTERVAL since the last signature has not passed (R352). -/
  spacing : Bool
  job : Option VaultJob
  deriving DecidableEq, Repr

/-- The vault as manufactured: attestation key 0 certified (R347), no stream key, no RK. -/
def Vault.reset : Vault where
  recs := []
  idJournal := []
  attJournal := []
  fw0 := .factory
  fw1 := .factory
  fwSvn := 0
  dieKeys := []
  rootKeys := []
  vk := none
  traversal := 0
  certifying := none
  meas := []
  reqs := []
  spacing := false
  job := none

/-! ## Sallan (18) -/

/-- A Sallan port besides its registers. -/
structure SalPort where
  /-- SAL_PORT_CTL.WIDTH, and SAL_PKG, in force: their reset values, or as the last RESTART found them (R405, R413). -/
  width : Nat
  pkg : Nat
  /-- Logical lanes found good at both ends, in this bring-up (R406). -/
  good : List Nat
  /-- The rung in training, and the highest that has passed (R408). -/
  rung : Nat
  passed : Option Nat
  /-- Lanes in use (R407). -/
  used : Nat
  /-- The full bring-up in progress began as a retraining (R411). -/
  retraining : Bool
  peerWidth : Nat
  /-- Packets sent and not acknowledged, with their numbers (R410). -/
  sent : List (Nat × Packet)
  txSeq : Nat
  rxSeq : Nat
  /-- Packets received in order and not yet checked by the gateway (R410, R415). -/
  arrived : List Packet
  /-- Raw lanes UP (R417), and the rung each trains at. -/
  rawUp : List Nat
  rawRung : Tbl Nat Nat
  /-- A bring-up is due because a setting has changed at a RESTART (R406). -/
  due : Bool
  deriving DecidableEq, Repr

/-- A port that is OFF. -/
def SalPort.reset : SalPort := ⟨4, 0, [], 0, none, 0, false, 0, [], 0, 0, [], [], [], false⟩

/-! ## The module and the start (17, 19) -/

/-- The hot-swap controller and the standby domain (R421 to R427). -/
structure ModS where
  /-- The switch is open, and the opening is latched (R422, R423). -/
  off : Bool
  latched : Bool
  /-- MGMT_RST_N pulses ignored (R423, R426). -/
  ignored : Nat
  /-- SMB_ALERT_N is low (R427). -/
  alert : Bool
  /-- STATE at the last change reported (R427). -/
  shown : Nat
  /-- The input voltage at the last reading, in units of 10 mV. -/
  vin : Nat
  deriving DecidableEq, Repr

/-- The module just powered. -/
def ModS.reset : ModS := ⟨false, false, 0, false, 1, 5400⟩

/-- The start sequence in progress (R393, R396, R400), and the partition reset in progress (R402). -/
structure StartS where
  /-- Orders that have ended, and rail regions that Sounding has tested: die × 8 + k. -/
  done : List StartPhase
  sounded : List Nat
  /-- Failures of this Sounding: die and failure. -/
  fails : List (Nat × SoundFail)
  /-- Stacks that failed their training, and their march test, at this start. -/
  training : Nat
  march : Nat
  /-- The partition being reset, and its cores that still owe their Bleach (R164). -/
  part : Option Nat
  resetCores : List Nat
  /-- Defects that a full Chart could not record, by die, kind and place: each is counted once (R399). -/
  dropped : List (Nat × Nat × Nat)
  /-- The level-6 subtrees that the partition reset in progress has reset and not released (R402). -/
  partSubs : List Nat
  deriving DecidableEq, Repr

/-- No order has ended. -/
def StartS.reset : StartS := ⟨[], [], [], 0, 0, none, [], [], []⟩

/-! ## Clocks and power (15) -/

/-- A rail region besides its register: the reasons it is braked for, the timer at its last brakes (R368), the level
its rail goes to (R362), the samples since its last thermal lowering while its junction stays at or above T_SLOW (R369),
whether a RATE has been taken since the start (R363). -/
structure Region where
  current : Bool
  thermal : Bool
  duty : Bool
  recent : List Nat
  target : Nat
  slow : Option Nat
  rated : Bool
  deriving DecidableEq, Repr

/-- A region at L0 with no brake. -/
def Region.reset : Region := ⟨false, false, false, [], 0, none, false⟩

/-- What the governor and the clock blocks hold besides their registers. -/
structure Power where
  /-- By die × 8 + k. -/
  regions : Tbl Nat Region
  /-- Decisions in a row below 80 % of the ceiling, above it at the floor, above it with every region at L0 (R365, R366). -/
  lowTicks : Nat
  floorTicks : Nat
  l0Ticks : Nat
  /-- The floor is overridden (R366). -/
  overridden : Bool
  /-- A duty-brake episode goes on (R365). -/
  episode : Bool
  /-- The four fabric targets that each die's sequencer last finished and is busy with, and the writes that wait for it, by die
  (R360). -/
  fabNow : Tbl Nat (List Nat)
  fabBusy : Tbl Nat (List Nat)
  fabNext : Tbl Nat (List Nat)
  /-- The voltage of each die's fabric rail in mV (R359). -/
  fabRail : Tbl Nat Nat
  /-- The level of each die's spine rail (R361). -/
  spine : Tbl Nat Nat
  /-- Dies whose CLK_MEAS runs (R372). -/
  measuring : List Nat
  deriving DecidableEq, Repr

/-- Nothing braked, nothing in progress. -/
def Power.reset : Power := ⟨[], 0, 0, 0, false, false, [], [], [], [], [], []⟩

/-! ## The module -/

/-- The products (R1). -/
inductive Product where
  | cvm2a192 | cvm4a384 | cvm8a768 | cvm8b768 | cvm8a576
  deriving DecidableEq, Repr

/-- What the block has sent to the outside (log 5). -/
inductive Out where
  /-- A read that completed, with its data. -/
  | readDone (src : Src) (val : Nat)
  /-- Unsupported Request, or a bus error for Helm firmware (R30). -/
  | ur (src : Src)
  /-- Completer Abort, or a bus error for Helm firmware (R371). -/
  | ca (src : Src)
  /-- Configuration Request Retry Status (R224). -/
  | crs (port : Nat)
  /-- A read of host memory: transfer, piece, address, length, PASID (R193, R197). -/
  | hostRead (port t n addr len : Nat) (pasid : Option Nat)
  /-- A write to host memory. -/
  | hostWrite (port addr : Nat) (bytes : List Byte) (pasid : Option Nat)
  /-- An MSI-X message of a port's PF or of a VF (R219, R246). -/
  | msix (port : Nat) (vf : Option Nat) (vec : Nat)
  /-- An ATS Translation Request (R197). -/
  | atsRequest (port : Nat) (vf : Option Nat) (page : Nat) (pasid : Option Nat) (write : Bool)
  /-- A PRI Page Request (R198). -/
  | pageRequest (port : Nat) (vf : Option Nat) (page : Nat) (pasid : Option Nat) (write : Bool)
  /-- The answer to an ATS Invalidation Request (R201). -/
  | invalDone (port : Nat) (vf : Option Nat) (page : Nat) (pasid : Option Nat)
  /-- What a port tells the far end in training: package number and its VALID, die, port, WIDTH, the logical lanes that it finds bad
  (R406, R407). -/
  | hello (die sp pkg : Nat) (valid : Bool) (width : Nat) (bad : BitVec 8)
  /-- A packet sent over a Sallan link (R410). -/
  | link (die sp seq : Nat) (pkt : Packet)
  /-- A flit acknowledgement or a request for a flit again (R410): the next number expected. -/
  | linkAck (die sp next : Nat) (again : Bool)
  /-- A DOE answer, or the mailbox's error indication (R217, R352). -/
  | doe (port : Nat) (bytes : List Byte)
  | doeError (port : Nat)
  /-- A block sent on a raw lane (R312). -/
  | rawBlock (die lane : Nat) (block : BitVec 256)
  /-- An SMBus answer (R427). -/
  | smbus (bytes : List Byte)
  /-- ERR of a tile port pulses (R306). -/
  | tileErr (die tp : Nat)
  deriving DecidableEq, Repr

/-- The state of the module. -/
structure State where
  product : Product
  /-- The register fields that have been written; every other holds its reset value (R17). -/
  regs : Tbl (Fld × Nat) Nat
  cores : Tbl Nat Core
  net : Net
  /-- The bytes of HBM, by device address, that are not zero (R133, R169). -/
  hbm : List Host.Cell
  hbmc : Tbl Nat Stack
  xfers : List Xfer
  nextId : Nat
  ctxs : Tbl Nat Ctx
  ports : Tbl Nat PortS
  helm : Helm
  power : Power
  fab : Fabric
  cfg : Cfg
  vault : Vault
  sal : Tbl Nat SalPort
  module : ModS
  start : StartS
  /-- The completion timer in ns (R243). -/
  timer : Nat
  /-- How many free values have been drawn (log 4). -/
  free : Nat
  out : List Out
  pending : List Instr
  deriving DecidableEq, Repr

/-- The module right after reset. -/
def State.reset : State where
  product := .cvm8a768
  regs := []
  cores := []
  net := .reset
  hbm := []
  hbmc := []
  xfers := []
  nextId := 0
  ctxs := []
  ports := []
  helm := .reset
  power := .reset
  fab := .reset
  cfg := .reset
  vault := .reset
  sal := []
  module := .reset
  start := .reset
  timer := 0
  free := 0
  out := []
  pending := []

end Sys2Proof.Machine
end

