-- ==== Sys2Proof/Machine/Operands.lean ====
section
/-! DEFINITION. The operand forms: fields of instruction words (R94), address registers (R91 to R93), header and
extension units (R142, R146), route entries (R147), endpoint specifiers (R188), descriptors (R247, R248). -/

namespace Sys2Proof.Machine

/-- Element `i` of a vector, or `d` beyond its end. -/
def vget {α : Type} {n : Nat} (v : Vector α n) (i : Nat) (d : α) : α := v.toArray.getD i d

/-- The vector with element `i` replaced. -/
def vset {α : Type} {n : Nat} (v : Vector α n) (i : Nat) (x : α) : Vector α n := v.setIfInBounds i x

/-! ## Instruction words -/

/-- Bits `lo` to `lo + n - 1` of a word. -/
def wf (w : W32) (lo n : Nat) : Nat := natBits w.toNat lo n

/-- The opcode. -/
def opc (w : W32) : Nat := wf w 26 6

/-- gd or vd at [25:22]. -/
def fD (w : W32) : Nat := wf w 22 4
/-- gs or va at [21:18]. -/
def fS (w : W32) : Nat := wf w 18 4
/-- gt or vb at [17:14]. -/
def fT (w : W32) : Nat := wf w 14 4
/-- vc at [13:10]. -/
def fC (w : W32) : Nat := wf w 10 4
/-- Lane format LF at [9:8]. -/
def fLF (w : W32) : Nat := wf w 8 2
/-- X at [7:0]. -/
def fX (w : W32) (lo n : Nat) : Nat := wf w lo n

/-- The opcodes of the table Instruction encodings. -/
def listedOpcode (o : Nat) : Bool :=
  decide (o ≤ 0x12) || (decide (0x14 ≤ o) && decide (o ≤ 0x1B)) || (decide (0x20 ≤ o) && decide (o ≤ 0x2E)) ||
    (decide (0x30 ≤ o) && decide (o ≤ 0x34))

/-- Bytes a drain writes for each output format (R71). -/
def ofmtBytes (o : Nat) : Nat := if o ≤ 1 then 4 else if o ≤ 3 then 8 else if o ≤ 5 then 16 else 32

/-- Whether a field holds a value its table marks reserved (R94, R96, R97, R104). -/
def reservedField (w : W32) : Bool :=
  match opc w with
  | 0x01 => decide (0xD ≤ wf w 0 4)
  | 0x02 => decide (0xD ≤ wf w 14 4)
  | 0x04 => decide (wf w 23 3 = 7)
  | 0x0B => decide (0xA ≤ wf w 0 4)
  | 0x0C => decide (0xA ≤ wf w 0 4)
  | 0x0E => decide (wf w 0 1 = 1) && decide (wf w 4 1 = 1)
  | 0x10 => decide (wf w 0 8 = 0) || (decide (wf w 24 1 = 0) && (decide (wf w 21 2 ≠ 0) || decide (wf w 17 4 ≠ 0)))
  | 0x14 | 0x15 => decide (wf w 16 1 = 1) && decide (wf w 22 1 = 1)
  | 0x18 => decide (6 ≤ wf w 17 3) || decide (9 ≤ wf w 13 4)
  | 0x19 => decide (6 ≤ wf w 11 3) || decide (9 ≤ wf w 7 4) || decide (6 ≤ wf w 4 3)
  | 0x1A => decide (wf w 17 3 = 7) || decide (32 / ofmtBytes (wf w 17 3) ≤ wf w 14 3)
  | 0x1B => decide (wf w 18 2 = 3)
  | 0x23 | 0x27 | 0x28 | 0x29 | 0x2B | 0x2C => decide (fLF w = 3)
  | 0x26 => decide (6 ≤ wf w 0 3)
  | 0x2A => decide (6 ≤ wf w 0 4)
  | 0x2D => decide (fLF w = 1) || decide (fLF w = 3)
  | 0x30 => decide (17 ≤ wf w 9 5)
  | o => !listedOpcode o

/-- The physical register that name vn has (R106). -/
def physReg (rrb : BitVec 3) (n : Nat) : Fin 16 :=
  if h : n < 8 then ⟨n, by omega⟩ else ⟨8 + (n - 8 + 8 - rrb.toNat) % 8, by omega⟩

/-- General register number as an index. -/
def gReg (n : Nat) : Fin 16 := ⟨n % 16, Nat.mod_lt _ (by decide)⟩

/-- The registers an instruction reads: general registers by number, vector registers by physical number (R88). -/
def wordReads (rrb : BitVec 3) (w : W32) : List RegName :=
  let g n := RegName.g (gReg n)
  let v n := RegName.v (physReg rrb n)
  match opc w with
  | 0x01 => [g (fS w), g (fT w)]
  | 0x02 => [g (fS w)]
  | 0x03 => if wf w 16 1 = 1 then [g (fD w)] else []
  | 0x04 => [g (wf w 19 4), g (wf w 15 4)]
  | 0x06 | 0x07 | 0x08 | 0x0C | 0x0D | 0x32 | 0x34 => [g (fS w)]
  | 0x0E | 0x0F => [v (fS w)]
  | 0x10 => (if wf w 23 1 = 1 then [g (wf w 8 4)] else []) ++ (if wf w 24 1 = 1 then [g (wf w 17 4)] else [])
  | 0x15 => if wf w 16 1 = 1 then [v (fD w), v (fD w + 1)] else [v (fD w)]
  | 0x1A => [g (wf w 7 4)]
  | 0x1B => [v (fD w)]
  | 0x20 | 0x21 | 0x22 | 0x24 | 0x25 | 0x26 => [v (fS w), v (fT w)]
  | 0x23 => [v (fS w), v (fT w), v (fC w)]
  | 0x27 | 0x28 | 0x29 | 0x2A | 0x2D => [v (fS w)]
  | 0x2B | 0x2C | 0x2E => [v (fS w), g (fC w)]
  | 0x30 => [g (wf w 14 4)]
  | 0x31 => [v (wf w 17 4), g (wf w 13 4)]
  | 0x33 => [g (wf w 17 4)]
  | _ => []

/-- The registers an instruction writes. -/
def wordWrites (rrb : BitVec 3) (w : W32) : List RegName :=
  let g n := RegName.g (gReg n)
  let v n := RegName.v (physReg rrb n)
  match opc w with
  | 0x01 | 0x02 | 0x03 | 0x05 | 0x09 | 0x0B | 0x0E | 0x26 | 0x34 => [g (fD w)]
  | 0x14 => if wf w 16 1 = 1 then [v (fD w), v (fD w + 1)] else [v (fD w)]
  | 0x0D | 0x0F | 0x1A | 0x20 | 0x21 | 0x22 | 0x23 | 0x24 | 0x25 | 0x27 | 0x28 | 0x29 | 0x2A | 0x2B | 0x2C | 0x2D =>
    [v (fD w)]
  | _ => []

/-- The address registers an instruction names (R88). -/
def wordAregs (w : W32) : List Nat :=
  match opc w with
  | 0x08 | 0x0A | 0x16 | 0x17 => [wf w 23 3]
  | 0x09 | 0x14 | 0x15 => [wf w 19 3]
  | 0x18 => [wf w 23 3, wf w 20 3]
  | 0x19 => [wf w 17 3, wf w 14 3]
  | 0x30 => [wf w 18 3]
  | _ => []

/-! ## Address registers -/

/-- BASE (R91). -/
def aBase (a : W32) : Nat := wf a 0 6
/-- The buffer length in rows (R91). -/
def aLen (a : W32) : Nat := wf a 6 6 + 1
/-- ROW (R91). -/
def aRow (a : W32) : Nat := wf a 12 6
/-- BYTE (R91). -/
def aByte (a : W32) : Nat := wf a 18 6
/-- PH (R91). -/
def aPh (a : W32) : Nat := wf a 24 3

/-- An address register with a new ROW, BYTE and PH. -/
def aWith (a : W32) (row byte ph : Nat) : W32 :=
  BitVec.ofNat 32 (natSet (natSet (natSet a.toNat 12 6 row) 18 6 byte) 24 3 ph % 2 ^ 27)

/-- What SETA writes (R91). -/
def setaVal (x : W32) : W32 :=
  let a := BitVec.ofNat 32 (x.toNat % 2 ^ 27)
  aWith a (aRow a % aLen a) (aByte a) (aPh a)

/-- The row an address register names (R92). -/
def aRowOf (a : W32) : Nat := (aBase a + aRow a) % 64

/-- Where a unit of `u` bytes starts in the row: at BYTE rounded down, or at BYTE exactly (R92). -/
def aStart (a : W32) (u : Nat) (exact_ : Bool) : Nat := if exact_ then aByte a else aByte a / u * u

/-- The register after a unit of `u` bytes, and whether it has moved past the row (R92). -/
def aAdvance (a : W32) (u : Nat) (exact_ : Bool) : W32 × Bool :=
  let nb := aStart a u exact_ + u
  if 64 < nb + u then (aWith a ((aRow a + 1) % aLen a) 0 (aPh a), true) else (aWith a (aRow a) nb (aPh a), false)

/-- The scale register after one vector or tile, with B vectors a block and units of `u` bytes (R93). A PH that SETA or
another scheme has left at or above B counts as reaching B (DESIGN CHOICE, log 13). -/
def aScale (a : W32) (b u : Nat) : W32 × Bool :=
  if aPh a + 1 < b then (aWith a (aRow a) (aByte a) (aPh a + 1), false)
  else
    let r := aAdvance a u false
    (aWith r.1 (aRow r.1) (aByte r.1) 0, r.2)

/-! ## Rows -/

/-- Bytes `lo` to `lo + n - 1` of a row, as a number. -/
def rowNat (r : Row) (lo n : Nat) : Nat := natBits r.toNat (8 * lo) (8 * n)

/-- The row with `n` bytes from `lo` replaced. -/
def rowPut (r : Row) (lo n x : Nat) : Row := BitVec.ofNat 512 (natSet r.toNat (8 * lo) (8 * n) x)

/-- The row with the bytes whose mask bit is 1 taken from `d` (R144). -/
def rowMask (r d : Row) (mask : BitVec 64) : Row :=
  (List.range 64).foldl (fun acc i => if mask.getLsbD i then rowPut acc i 1 (rowNat d i 1) else acc) r

/-! ## Packets -/

/-- The commands of the table Rose commands (R143). -/
def cWRITE : BitVec 8 := 0x01
/-- READ. -/
def cREAD : BitVec 8 := 0x02
/-- IBUF_WRITE. -/
def cIBUF : BitVec 8 := 0x03
/-- ROUTE_WRITE. -/
def cROUTE : BitVec 8 := 0x04
/-- START. -/
def cSTART : BitVec 8 := 0x05
/-- STOP. -/
def cSTOP : BitVec 8 := 0x06
/-- MASK_WRITE. -/
def cMASK : BitVec 8 := 0x07
/-- MEM_WRITE. -/
def cMEMW : BitVec 8 := 0x10
/-- MEM_READ. -/
def cMEMR : BitVec 8 := 0x11
/-- READ_DATA. -/
def cRDATA : BitVec 8 := 0x20
/-- FAULT_REPORT. -/
def cFAULT : BitVec 8 := 0x21
/-- TALLY. -/
def cTALLY : BitVec 8 := 0x30
/-- ANSWER. -/
def cANSWER : BitVec 8 := 0x31
/-- PASS_DONE. -/
def cDONE : BitVec 8 := 0x32

/-- The commands that are not reserved (R143). -/
def listedCmd (c : BitVec 8) : Bool :=
  [0x01, 0x02, 0x03, 0x04, 0x05, 0x06, 0x07, 0x10, 0x11, 0x20, 0x21, 0x30, 0x31, 0x32].contains c.toNat

/-- ROW (R142). -/
def pRow (p : Packet) : Nat := p.var.toNat % 64
/-- UNIT (R142). -/
def pUnit (p : Packet) : Nat := natBits p.var.toNat 6 2
/-- MASK (R142). -/
def pMask (p : Packet) : Nat := natBits p.var.toNat 8 20
/-- OFFSET (R142). -/
def pOff (p : Packet) : Nat := p.var.toNat

/-- The virtual channels (R151). -/
inductive Chan where
  | request | response | tally | bulk
  deriving DecidableEq, Repr

/-- The channel a packet travels on (R143). -/
def pChan (p : Packet) : Chan :=
  if p.cmd = cSTOP ∨ p.cmd = cRDATA ∨ p.cmd = cFAULT then .response
  else if p.cmd = cTALLY ∨ p.cmd = cANSWER ∨ p.cmd = cDONE then .tally
  else if p.bulk ∧ (p.cmd = cWRITE ∨ p.cmd = cREAD ∨ p.cmd = cMASK ∨ p.cmd = cMEMW ∨ p.cmd = cMEMR) then .bulk
  else .request

/-- The number of a channel, in Latency mode's order (R153). -/
def Chan.idx : Chan → Nat
  | .tally => 0
  | .response => 1
  | .request => 2
  | .bulk => 3

/-- Units of a packet on a link: header, extension unit, data (R142). -/
def pUnits (p : Packet) : Nat := 1 + (if p.ext then 1 else 0) + p.data.length

/-- Tally-class commands (R159). -/
def tallyClass (p : Packet) : Bool := decide (pChan p = .tally)

/-- Whether the packet carries a multicast mask (R139, R143). -/
def mayMulticast (p : Packet) : Bool :=
  decide (p.tkind = 0) && (decide (p.cmd = cWRITE) || decide (p.cmd = cIBUF) || decide (p.cmd = cROUTE) ||
    decide (p.cmd = cSTART) || decide (p.cmd = cSTOP))

/-- Field `k` of a tally data unit: V, N, RST, DEN (R145). -/
def tallyField (p : Packet) (k : Nat) : Nat :=
  match p.data with
  | u :: _ => natBits u.toNat (32 * k) 32
  | [] => 0

/-- A tally data unit (R145). -/
def tallyUnit (v n rst den : Nat) : Unit16 :=
  BitVec.ofNat 128 (v % 2 ^ 32 + n % 2 ^ 32 * 2 ^ 32 + rst % 2 ^ 32 * 2 ^ 64 + den % 2 ^ 32 * 2 ^ 96)

/-- The address form of an endpoint (R141) with its kind. -/
def epAddr : Ep → CoreAddr × BitVec 2
  | .core c => (c, 0)
  | .tile d p => (BitVec.ofNat 20 (d * 131072 + 256 * p), 1)
  | .hub h i => (BitVec.ofNat 20 (h * 65536 + i), 2)

/-- The endpoint an address form names. -/
def addrEp (a : CoreAddr) (k : BitVec 2) : Ep :=
  if k = 1 then .tile (a.toNat / 131072) (a.toNat / 256 % 512)
  else if k = 2 then .hub (a.toNat / 65536) (a.toNat % 256)
  else .core a

/-- Where an endpoint stands in the tree: as a logical address below it. -/
def epPos : Ep → Nat
  | .core c => c.toNat
  | .tile d p => d * 131072 + 256 * p
  | .hub h _ => h * 65536

/-- DPKG (R146). -/
def xDpkg (p : Packet) : Nat := natBits p.xu.toNat 0 16
/-- SPKG (R146). -/
def xSpkg (p : Packet) : Nat := natBits p.xu.toNat 16 16
/-- EGR_DIE (R146). -/
def xDie (p : Packet) : Nat := natBits p.xu.toNat 32 3
/-- EGR_PORT (R146). -/
def xPort (p : Packet) : Nat := natBits p.xu.toNat 35 2
/-- DIR: inbound (R146). -/
def xIn (p : Packet) : Bool := natBits p.xu.toNat 37 1 == 1

/-- An extension unit (R146). -/
def extUnit (dpkg spkg die port : Nat) (inbound : Bool) : BitVec 128 :=
  BitVec.ofNat 128 (dpkg % 2 ^ 16 + spkg % 2 ^ 16 * 2 ^ 16 + die % 8 * 2 ^ 32 + port % 4 * 2 ^ 35 +
    (if inbound then 2 ^ 37 else 0))

/-- The lowest level whose router covers both addresses (R150). -/
def coverLevel (a b : Nat) : Nat :=
  ((List.range 11).find? (fun n => a >>> (2 * n) == b >>> (2 * n))).getD 10

/-- The level at which an endpoint attaches (R136). -/
def epAttach : Ep → Nat
  | .core _ => 0
  | .tile _ _ => 4
  | .hub _ _ => 8

/-- The turn level that covers a source and a target (R150). -/
def coverEp (a b : Ep) : Nat := max (coverLevel (epPos a) (epPos b)) (max (epAttach a) (epAttach b))

/-- The turn level from a hub that covers every address matching a base outside a mask (R139, R150). -/
def coverSet (h base mask : Nat) : Nat :=
  ((List.range 11).find? (fun n => decide (8 ≤ n) && (h * 65536) >>> (2 * n) == base >>> (2 * n) &&
    decide (mask < 4 ^ n))).getD 10

/-! ## Route entries -/

/-- TARGET (R147). -/
def rTarget (e : BitVec 128) : Nat := natBits e.toNat 0 20
/-- UP (R147). -/
def rUp (e : BitVec 128) : Nat := natBits e.toNat 20 4
/-- MASK (R147). -/
def rMask (e : BitVec 128) : Nat := natBits e.toNat 24 20
/-- TAG (R147). -/
def rTag (e : BitVec 128) : Nat := natBits e.toNat 44 16
/-- VALID (R147). -/
def rValid (e : BitVec 128) : Bool := natBits e.toNat 60 1 == 1
/-- BULK (R147). -/
def rBulk (e : BitVec 128) : Bool := natBits e.toNat 61 1 == 1
/-- EXT (R147). -/
def rExt (e : BitVec 128) : Bool := natBits e.toNat 62 1 == 1
/-- DPKG (R147). -/
def rDpkg (e : BitVec 128) : Nat := natBits e.toNat 64 16
/-- EGR_DIE (R147). -/
def rDie (e : BitVec 128) : Nat := natBits e.toNat 80 3
/-- EGR_PORT (R147). -/
def rPort (e : BitVec 128) : Nat := natBits e.toNat 83 2
/-- TKIND (R147). -/
def rTkind (e : BitVec 128) : Nat := natBits e.toNat 85 2

/-- An entry with VALID replaced. -/
def rSetValid (e : BitVec 128) (v : Bool) : BitVec 128 := BitVec.ofNat 128 (natSet e.toNat 60 1 (if v then 1 else 0))

/-! ## Descriptors -/

/-- `n` bytes of a descriptor from byte `lo` (R247). -/
def dF (d : BitVec 512) (lo n : Nat) : Nat := natBits d.toNat (8 * lo) (8 * n)

/-- OP (R247). -/
def dOp (d : BitVec 512) : Nat := dF d 0 1
/-- FLAGS (R247). -/
def dFlags (d : BitVec 512) : Nat := dF d 1 1
/-- FLAGS bit 0: completion requested. -/
def dWantCq (d : BitVec 512) : Bool := dFlags d % 2 == 1
/-- FLAGS bit 1: Fix member. -/
def dMember (d : BitVec 512) : Bool := natBits (dFlags d) 1 1 == 1
/-- FLAGS bit 2: real-time. -/
def dRt (d : BitVec 512) : Bool := natBits (dFlags d) 2 1 == 1
/-- GEN (R240). -/
def dGen (d : BitVec 512) : Nat := dF d 2 1
/-- SEQ (R247). -/
def dSeq (d : BitVec 512) : Nat := dF d 4 4
/-- DEADLINE (R214, R247). -/
def dDeadline (d : BitVec 512) : Nat := dF d 8 4

/-- An endpoint specifier from its 16 bytes as a number (R188). -/
def specOf (x : Nat) : EndSpec where
  addr := natBits x 0 64
  kind := natBits x 64 2
  t := natBits x 66 1 == 1
  cnt := natBits x 67 1 == 1
  hint := natBits x 68 2
  bulk := natBits x 70 1 == 1
  mv := natBits x 71 1 == 1
  pkg := natBits x 72 16
  pasid := natBits x 88 20
  pv := natBits x 108 1 == 1

/-- The specifier at byte `lo` of a descriptor. -/
def dSpec (d : BitVec 512) (lo : Nat) : EndSpec := specOf (dF d lo 16)

/-- A signed field. -/
def sInt (w x : Nat) : Int := if x < 2 ^ (w - 1) then x else (x : Int) - (2 ^ w : Nat)

/-- The little-endian number in bytes `lo` to `lo + n - 1` of a string. -/
def bF (b : List Byte) (lo n : Nat) : Nat := bytesNat ((b.drop lo).take n)

/-- The shape block of R190 from its bytes. -/
def shapeOf (b : List Byte) : Shape where
  len0 := bF b 0 4
  cnt := (List.range 4).map (fun k => bF b (32 + 24 * k) 4)
  ss := (List.range 4).map (fun k => sInt 64 (bF b (40 + 24 * k) 8))
  ds := (List.range 4).map (fun k => sInt 64 (bF b (48 + 24 * k) 8))

/-- A single run (R190). -/
def oneRun (len0 : Nat) : Shape := ⟨len0, [1, 1, 1, 1], [0, 0, 0, 0], [0, 0, 0, 0]⟩

/-- A reshard record from its 32 bytes (R211). -/
def reRecOf (b : List Byte) : ReRec where
  sbase := bF b 0 4 % 2 ^ 20
  sstep := bF b 4 4 % 2 ^ 20
  dbase := bF b 8 4 % 2 ^ 20
  dstep := bF b 12 4 % 2 ^ 20
  ncore := bF b 16 4
  srow := bF b 20 1 % 64
  drow := bF b 21 1 % 64
  nrow := bF b 22 1
  flags := bF b 23 1

/-! ## Status codes -/

/-- The status of a rank of the table Transfer status precedence (R195, R258). -/
def rankStatus (r : Nat) : Nat :=
  match r with
  | 1 => 0x0302
  | 2 => 0x0101
  | 3 => 0x0601
  | 4 => 0x0501
  | 5 => 0x0102
  | 6 => 0x0401
  | _ => 0x0000

/-- The rank of a status. -/
def statusRank (c : Nat) : Nat :=
  if c = 0x0302 then 1 else if c = 0x0101 then 2 else if c = 0x0601 then 3 else if c = 0x0501 then 4
  else if c = 0x0102 then 5 else if c = 0x0401 then 6 else 7

end Sys2Proof.Machine
end

