-- ==== Sys2Proof/Machine/Cipher.lean ====
section
/-! DEFINITION. The ciphers that the spec names: SHAKE256, AES-256-GCM, AES Key Wrap (RFC 3394), XMSS verification (R318, R320, R336,
R340, R341). The spec names them and gives their sizes; how they compute is taken from their standards (PRESUMED, log 29). -/

namespace Sys2Proof.Machine

/-! ## SHAKE256 (FIPS 202) -/

/-- Lane (x, y) of a Keccak state, kept at x + 5y. -/
def keccakLane (a : List (BitVec 64)) (x y : Nat) : BitVec 64 := a.getD (x % 5 + 5 * (y % 5)) 0

/-- A Keccak state from its lanes. -/
def keccakOf (f : Nat → Nat → BitVec 64) : List (BitVec 64) := (List.range 25).map (fun i => f (i % 5) (i / 5))

/-- The rotations of step rho, by x + 5y. -/
def rhoBits : List Nat := [0, 1, 62, 28, 27, 36, 44, 6, 55, 20, 3, 10, 43, 25, 39] ++ [41, 45, 15, 21, 8, 18, 2, 61, 56, 14]

/-- The constants of step iota. -/
def iotaWords : List (BitVec 64) :=
  [0x0000000000000001, 0x0000000000008082, 0x800000000000808A, 0x8000000080008000, 0x000000000000808B, 0x0000000080000001,
   0x8000000080008081, 0x8000000000008009, 0x000000000000008A, 0x0000000000000088, 0x0000000080008009, 0x000000008000000A] ++
  [0x000000008000808B, 0x800000000000008B, 0x8000000000008089, 0x8000000000008003, 0x8000000000008002, 0x8000000000000080,
   0x000000000000800A, 0x800000008000000A, 0x8000000080008081, 0x8000000000008080, 0x0000000080000001, 0x8000000080008008]

/-- One round of Keccak-f[1600]: theta, rho and pi, chi, iota. -/
def keccakRound (a : List (BitVec 64)) (rc : BitVec 64) : List (BitVec 64) :=
  let c := (List.range 5).map (fun x => keccakLane a x 0 ^^^ keccakLane a x 1 ^^^ keccakLane a x 2 ^^^ keccakLane a x 3 ^^^ keccakLane a x 4)
  let d := (List.range 5).map (fun x => c.getD ((x + 4) % 5) 0 ^^^ (c.getD ((x + 1) % 5) 0).rotateLeft 1)
  let t := keccakOf (fun x y => keccakLane a x y ^^^ d.getD x 0)
  let b := keccakOf (fun x y => (keccakLane t (x + 3 * y) x).rotateLeft (rhoBits.getD ((x + 3 * y) % 5 + 5 * x) 0))
  keccakOf (fun x y => (keccakLane b x y ^^^ (~~~ keccakLane b (x + 1) y &&& keccakLane b (x + 2) y)) ^^^ (if x = 0 ∧ y = 0 then rc else 0))

/-- Keccak-f[1600]. -/
def keccak (a : List (BitVec 64)) : List (BitVec 64) := iotaWords.foldl keccakRound a

/-- A message padded for SHAKE256 to whole blocks of 136 bytes. -/
def shakePad (m : List Byte) : List Byte :=
  let k := 136 - m.length % 136
  if k = 1 then m ++ [0x9F] else m ++ [0x1F] ++ List.replicate (k - 2) 0 ++ [0x80]

/-- A block taken into the state. -/
def shakeAbsorb (a : List (BitVec 64)) (b : List Byte) : List (BitVec 64) :=
  let w := (chunks 8 17 b).map (fun l => BitVec.ofNat 64 (bytesNat l))
  keccak ((List.range 25).map (fun i => a.getD i 0 ^^^ w.getD i 0))

/-- SHAKE256 with a 256-bit output, byte 0 in the low bits. -/
def shake256 (m : List Byte) : BitVec 256 :=
  let p := shakePad m
  let a := (chunks 136 (p.length / 136) p).foldl shakeAbsorb (List.replicate 25 0)
  a.getD 3 0 ++ a.getD 2 0 ++ a.getD 1 0 ++ a.getD 0 0

/-- SHAKE256 as its 32 bytes. -/
def shakeBytes (m : List Byte) : List Byte := natBytes (shake256 m).toNat 32

/-! ## AES-256 (FIPS 197) -/

/-- A product in the field of AES, over the bits of the second factor from bit `n - 1` down. -/
def gfMul (a b : Byte) : Nat → Byte
  | 0 => 0
  | n + 1 =>
    let r := gfMul a b n
    let d := (r <<< 1) ^^^ (if r.getLsbD 7 then 0x1B else 0)
    if b.getLsbD (7 - n) then d ^^^ a else d

/-- A product in the field of AES. -/
def gf (a b : Byte) : Byte := gfMul a b 8

/-- The inverse in the field: the 254th power. -/
def gfInv (a : Byte) : Byte :=
  let a2 := gf a a
  let a3 := gf a2 a
  let a12 := gf (gf a3 a3) (gf a3 a3)
  let a14 := gf a12 a2
  let a15 := gf a12 a3
  let a30 := gf a15 a15
  let a60 := gf a30 a30
  let a120 := gf a60 a60
  let a240 := gf a120 a120
  gf a240 a14

/-- The substitution of a byte. -/
def subByte (a : Byte) : Byte :=
  let b := gfInv a
  b ^^^ b.rotateLeft 1 ^^^ b.rotateLeft 2 ^^^ b.rotateLeft 3 ^^^ b.rotateLeft 4 ^^^ 0x63

/-- Its inverse. -/
def unsubByte (a : Byte) : Byte := gfInv (a.rotateLeft 1 ^^^ a.rotateLeft 3 ^^^ a.rotateLeft 6 ^^^ 0x05)

/-- Two strings of bytes, bit by bit exclusive or, as long as the first. -/
def xorBytes (a b : List Byte) : List Byte := a.zipIdx.map (fun e => e.1 ^^^ b.getD e.2 0)

/-- The key schedule after `n` more words, the newest word first. -/
def keyWords : Nat → List (List Byte) → List (List Byte)
  | 0, w => w
  | n + 1, w =>
    let i := w.length
    let t := w.getD 0 []
    let t := if i % 8 = 0 then xorBytes ((t.drop 1 ++ t.take 1).map subByte) [BitVec.ofNat 8 (2 ^ (i / 8 - 1)), 0, 0, 0]
      else if i % 8 = 4 then t.map subByte else t
    keyWords n (xorBytes (w.getD 7 []) t :: w)

/-- The 15 round keys of a key of 32 bytes. -/
def roundKeys (key : List Byte) : List (List Byte) :=
  chunks 16 15 ((keyWords 52 (chunks 4 8 key).reverse).reverse.flatMap id)

/-- Rows of an AES state, column by column, shifted by `k` times their number to the left. -/
def shiftRows (k : Nat) (b : List Byte) : List Byte :=
  (List.range 16).map (fun i => b.getD ((i + 4 * k * (i % 4)) % 16) 0)

/-- Columns of an AES state multiplied by the matrix of a row. -/
def mixColumns (m : List Byte) (b : List Byte) : List Byte :=
  (List.range 16).map (fun i => (List.range 4).foldl (fun r j => r ^^^ gf (m.getD ((j + 4 - i % 4) % 4) 0) (b.getD (i / 4 * 4 + j) 0)) 0)

/-- AES-256 of a block of 16 bytes. -/
def aesBlock (keys : List (List Byte)) (b : List Byte) : List Byte :=
  let b := (List.range 13).foldl (fun b r =>
    xorBytes (mixColumns [2, 3, 1, 1] (shiftRows 1 (b.map subByte))) (keys.getD (r + 1) [])) (xorBytes b (keys.getD 0 []))
  xorBytes (shiftRows 1 (b.map subByte)) (keys.getD 14 [])

/-- The inverse of AES-256. -/
def aesUnblock (keys : List (List Byte)) (b : List Byte) : List Byte :=
  let b := (List.range 13).foldl (fun b r =>
    mixColumns [14, 11, 13, 9] (xorBytes ((shiftRows 3 b).map unsubByte) (keys.getD (13 - r) []))) (xorBytes b (keys.getD 14 []))
  xorBytes ((shiftRows 3 b).map unsubByte) (keys.getD 0 [])

/-! ## AES-256-GCM (SP 800-38D) -/

/-- A number's bytes, highest first. -/
def beBytes (v n : Nat) : List Byte := (natBytes v n).reverse

/-- The number that bytes spell, highest first. -/
def beNat (b : List Byte) : Nat := bytesNat b.reverse

/-- A product of blocks in GHASH, over the first `n` bits of the first factor: the product so far and the second factor shifted. -/
def ghMul (x y : BitVec 128) : Nat → BitVec 128 × BitVec 128
  | 0 => (0, y)
  | n + 1 =>
    let r := ghMul x y n
    (if x.getMsbD n then r.1 ^^^ r.2 else r.1,
     (r.2 >>> 1) ^^^ (if r.2.getLsbD 0 then 0xE1000000000000000000000000000000 else 0))

/-- GHASH of whole blocks. -/
def ghash (h : BitVec 128) (b : List Byte) : BitVec 128 :=
  (chunks 16 (b.length / 16) b).foldl (fun y c => (ghMul (y ^^^ BitVec.ofNat 128 (beNat c)) h 128).1) 0

/-- Bytes filled with zeros to whole blocks. -/
def toBlocks (b : List Byte) : List Byte := b ++ List.replicate ((16 - b.length % 16) % 16) 0

/-- A text under the counter that begins at 2 (an IV of 12 bytes). -/
def gcmCtr (keys : List (List Byte)) (iv text : List Byte) : List Byte :=
  xorBytes text ((List.range ((text.length + 15) / 16)).flatMap (fun i => aesBlock keys (iv ++ beBytes (i + 2) 4)))

/-- The tag of a ciphertext and its additional data. -/
def gcmTag (keys : List (List Byte)) (iv aad cipher : List Byte) : List Byte :=
  let h := BitVec.ofNat 128 (beNat (aesBlock keys (List.replicate 16 0)))
  let g := ghash h (toBlocks aad ++ toBlocks cipher ++ beBytes (8 * aad.length) 8 ++ beBytes (8 * cipher.length) 8)
  xorBytes (beBytes g.toNat 16) (aesBlock keys (iv ++ [0, 0, 0, 1]))

/-- AES-256-GCM encryption: ciphertext and tag. -/
def gcmSeal (key : List Byte) (iv aad plain : List Byte) : List Byte :=
  let keys := roundKeys key
  let c := gcmCtr keys iv plain
  c ++ gcmTag keys iv aad c

/-- AES-256-GCM decryption: the plaintext, none where the tag does not verify (R320). -/
def gcmOpen (key : BitVec 256) (iv aad text tag : List Byte) : Option (List Byte) :=
  let keys := roundKeys (natBytes key.toNat 32)
  if tag = gcmTag keys iv aad text then some (gcmCtr keys iv text) else none

/-! ## AES Key Wrap (RFC 3394) -/

/-- The first block of a wrapped key. -/
def kwIv : List Byte := List.replicate 8 0xA6

/-- One step of wrapping, for the semiblock `i` from 0 and the count `t`. -/
def kwStep (keys : List (List Byte)) (n : Nat) (s : List Byte × List (List Byte)) (k : Nat) : List Byte × List (List Byte) :=
  let b := aesBlock keys (s.1 ++ s.2.getD (k % n) [])
  (xorBytes (b.take 8) (beBytes (k + 1) 8), s.2.set (k % n) (b.drop 8))

/-- One step of unwrapping. -/
def kwUnstep (keys : List (List Byte)) (n : Nat) (s : List Byte × List (List Byte)) (k : Nat) : List Byte × List (List Byte) :=
  let b := aesUnblock keys (xorBytes s.1 (beBytes (k + 1) 8) ++ s.2.getD (k % n) [])
  (b.take 8, s.2.set (k % n) (b.drop 8))

/-- A key wrapped under a key. -/
def kwWrap (key : BitVec 256) (plain : List Byte) : List Byte :=
  let n := plain.length / 8
  let r := (List.range (6 * n)).foldl (kwStep (roundKeys (natBytes key.toNat 32)) n) (kwIv, chunks 8 n plain)
  r.1 ++ r.2.flatMap id

/-- A wrapped key unwrapped, none where it does not verify. -/
def kwUnwrap (key : BitVec 256) (text : List Byte) : Option (List Byte) :=
  let n := text.length / 8 - 1
  let r := (List.range (6 * n)).reverse.foldl (kwUnstep (roundKeys (natBytes key.toNat 32)) n) (text.take 8, chunks 8 n (text.drop 8))
  if r.1 = kwIv then some (r.2.flatMap id) else none

/-! ## XMSS verification (RFC 8391, SP 800-208; n = 32, w = 16) -/

/-- One of the keyed hashes: its number, key and message. -/
def xmssHash (n : Nat) (key m : List Byte) : List Byte := shakeBytes (beBytes n 32 ++ key ++ m)

/-- An address: layer 0, tree 0, its type and the four words of the type. -/
def xmssAdrs (type a b c d : Nat) : List Byte := beBytes 0 12 ++ beBytes type 4 ++ beBytes a 4 ++ beBytes b 4 ++ beBytes c 4 ++ beBytes d 4

/-- `n` steps of a chain from step `i` on. -/
def wotsChain (seed : List Byte) (leaf c : Nat) : Nat → Nat → List Byte → List Byte
  | 0, _, x => x
  | n + 1, i, x =>
    let key := xmssHash 3 seed (xmssAdrs 0 leaf c i 0)
    let mask := xmssHash 3 seed (xmssAdrs 0 leaf c i 1)
    wotsChain seed leaf c n (i + 1) (xmssHash 0 key (xorBytes x mask))

/-- The 67 digits of a message of 32 bytes: its own 64 and those of their checksum. -/
def wotsDigits (m : List Byte) : List Nat :=
  let d := m.flatMap (fun b => [b.toNat / 16, b.toNat % 16])
  let sum := (d.map (fun x => 15 - x)).sum
  d ++ [sum / 256 % 16, sum / 16 % 16, sum % 16]

/-- Two nodes hashed to one, under an address but for its last word. -/
def xmssNode (seed : List Byte) (type a b c : Nat) (l r : List Byte) : List Byte :=
  let prf (k : Nat) : List Byte := xmssHash 3 seed (xmssAdrs type a b c k)
  xmssHash 1 (prf 0) (xorBytes l (prf 1) ++ xorBytes r (prf 2))

/-- One level of an L-tree: neighbours hashed in pairs, a last one without a partner carried up. -/
def ltreeLevel (seed : List Byte) (leaf height : Nat) : Nat → List (List Byte) → List (List Byte)
  | i, l :: r :: rest => xmssNode seed 1 leaf height i l r :: ltreeLevel seed leaf height (i + 1) rest
  | _, l => l

/-- The root of the L-tree of 67 nodes, level by level. -/
def ltree (seed : List Byte) (leaf : Nat) (l : List (List Byte)) : List Byte :=
  ((List.range 7).foldl (fun l h => ltreeLevel seed leaf h 0 l) l).getD 0 []

/-- The root of a tree from a leaf's value and its path. -/
def xmssPath (seed : List Byte) (leaf : Nat) (path : List (List Byte)) (x : List Byte) : List Byte :=
  path.zipIdx.foldl (fun x e =>
    if leaf / 2 ^ e.2 % 2 = 0 then xmssNode seed 2 0 e.2 (leaf / 2 ^ (e.2 + 1)) x e.1
    else xmssNode seed 2 0 e.2 (leaf / 2 ^ (e.2 + 1)) e.1 x) x

/-- Whether a signature of 2,820 bytes over a message verifies under a public key of 68 bytes in the parameter set
XMSS-SHAKE256_20_256 (R318): the key's root and seed after its algorithm number, which is not looked at; the signature's leaf, randomiser, chains and path. -/
def xmssVerify (pub msg sig : List Byte) : Bool :=
  let root := (pub.drop 4).take 32
  let seed := pub.drop 36
  let leaf := beNat (sig.take 4)
  let m := xmssHash 2 ((sig.drop 4).take 32 ++ root ++ beBytes leaf 32) msg
  let ends := ((wotsDigits m).zip (chunks 32 67 (sig.drop 36))).zipIdx.map (fun e => wotsChain seed leaf e.2 (15 - e.1.1) e.1.1 e.1.2)
  decide (pub.length = 68) && decide (sig.length = 2820) &&
    decide (xmssPath seed leaf (chunks 32 20 (sig.drop 2180)) (ltree seed leaf ends) = root)

end Sys2Proof.Machine
end

