-- ==== Sys2Proof/Machine/Store.lean ====
section
/-! DEFINITION. The vault's records and journals: what they hold as bytes, their copies, how they are read and written (R335 to R350,
R391, R397; log 45). -/

namespace Sys2Proof.Machine

/-- A number as one of sixteen stacks, or of the key slots. -/
def fin16 (n : Nat) : Fin 16 := ⟨n % 16, Nat.mod_lt _ (by decide)⟩

/-- A number as one of eight dies. -/
def fin8 (n : Nat) : Fin 8 := ⟨n % 8, Nat.mod_lt _ (by decide)⟩

/-! ## Where the records lie (R335) -/

/-- The vault offset and the size of a record's area. -/
def VaultRec.place : VaultRec → Nat × Nat
  | .identity => (0x000000, 0x10000)
  | .attestation => (0x020000, 0x20000)
  | .pendingKey => (0x040000, 0x20000)
  | .wrap d => (0x070000 + d.val * 0x2000, 0x2000)
  | .slot n => (0x080000 + n.val * 0x200, 0x200)
  | .counters => (0x081000, 0x1000)
  | .variant => (0x082000, 0x2000)
  | .chart d => (0x100000 + d.val * 0x40000, 0x40000)

/-- The vault offsets of the index journals of the identity key and of the attestation keys, 64 KiB each, and of the firmware slots. -/
def idJournalAt : Nat := 0x010000
def attJournalAt : Nat := 0x060000
def fwSlotAt (slot : Nat) : Nat := 0x400000 * (slot + 1)

/-! ## The bytes of a record -/

/-- A Chart entry of 12 bytes (R397). -/
def ChartE.bytes (e : ChartE) : List Byte :=
  natBytes (e.kind % 16 + (if e.field then 16 else 0) + e.where_ % 2 ^ 18 * 2 ^ 8 + e.row % 2 ^ 7 * 2 ^ 26 + e.level % 16 * 2 ^ 33 +
    e.cause % 256 * 2 ^ 40 + e.startNo % 65536 * 2 ^ 48) 12

/-- The first 256 bytes of the variant record (R391). -/
def Variant.head (v : Variant) : List Byte :=
  let z (lo n : Nat) : List Byte := (v.reserved.drop lo).take n
  (v.magic ++ natBytes v.format 2 ++ natBytes v.svn 2 ++ natBytes v.serial.toNat 16 ++ natBytes v.dies 1 ++ natBytes v.grade 1 ++
    natBytes v.memGib 2 ++ natBytes v.stackGib 2) ++ (z 0 2 ++ v.order ++ z 2 192)

/-- The variant record. -/
def Variant.bytes (v : Variant) : List Byte := v.head ++ v.sig

/-- A string of bytes with its length before it. -/
def counted (b : List Byte) : List Byte := natBytes b.length 4 ++ b

/-- A record's contents as bytes (R335, R397): the order of the fields that the spec gives no place is the model's (DESIGN CHOICE,
log 45). -/
def VaultBody.bytes : VaultBody → List Byte
  | .chart l n => (l.flatMap ChartE.bytes ++ List.replicate (12 * (8192 - l.length)) 0) ++ natBytes n 4
  | .identity serial pub cert iv text => natBytes serial.toNat 16 ++ pub ++ counted cert ++ iv ++ counted text
  | .attKey n pub cert iv text => natBytes n 2 ++ pub ++ cert ++ iv ++ counted text
  | .wrap h rk vk => counted h ++ counted (rk.getD []) ++ counted (vk.getD [])
  | .slot (.key b) => 1 :: b
  | .slot .revoked => [2]
  | .counters c => c.toList.flatMap (fun x => natBytes x.toNat 2)
  | .variant v => v.bytes

/-! ## Copies (R336) -/

/-- A copy with its check value over what it holds and its generation number. -/
def VCopy.make (b : VaultBody) (g : W32) : VCopy := ⟨b, g, shake256 (b.bytes ++ natBytes g.toNat 4)⟩

/-- Whether a copy is valid. -/
def VCopy.valid (c : VCopy) : Bool := decide (c.check = shake256 (c.body.bytes ++ natBytes c.gen.toNat 4))

/-- Whether generation `g` is later than generation `h`. -/
def laterGen (g h : W32) : Bool := decide (0 < (g - h).toNat) && decide ((g - h).toNat < 2 ^ 31)

/-- The copy that a reader takes, and whether it is the second. -/
def VRec.reads (r : VRec) : Option (Bool × VCopy) :=
  match r.a.filter VCopy.valid, r.b.filter VCopy.valid with
  | none, none => none
  | some x, none => some (false, x)
  | none, some y => some (true, y)
  | some x, some y => if laterGen y.gen x.gen then some (true, y) else some (false, x)

/-- What a record holds; nothing where no copy is valid. -/
def VRec.value (r : VRec) : Option VaultBody := r.reads.map (fun c => c.2.body)

/-- A record written: the copy that a reader does not take is overwritten with the next generation. -/
def VRec.put (r : VRec) (b : VaultBody) : VRec :=
  match r.reads with
  | none => { r with a := some (VCopy.make b 1) }
  | some (false, x) => { r with b := some (VCopy.make b (x.gen + 1)) }
  | some (true, y) => { r with a := some (VCopy.make b (y.gen + 1)) }

/-- A record as it was made, or an empty place. -/
def VRec.made : Option VaultBody → VRec
  | some b => ⟨some (VCopy.make b 1), some (VCopy.make b 0)⟩
  | none => ⟨none, none⟩

/-- What a record holds: as last written, or as made. -/
def Vault.value (v : Vault) (made : Option VaultBody) (r : VaultRec) : Option VaultBody :=
  match Tbl.get? v.recs r with
  | none => made
  | some x => x.value

/-- A record written. -/
def Vault.put (v : Vault) (made : Option VaultBody) (r : VaultRec) (b : VaultBody) : Vault :=
  { v with recs := Tbl.set v.recs r (((Tbl.get? v.recs r).getD (VRec.made made)).put b) }

/-- A record whose two copies the medium has lost (R338). -/
def Vault.lose (v : Vault) (r : VaultRec) : Vault := { v with recs := Tbl.set v.recs r ⟨none, none⟩ }

/-- The records with no valid copy (R338). -/
def Vault.lost (v : Vault) : List VaultRec := (v.recs.filter (fun e => e.2.value.isNone)).map (·.1)

/-! ## Journals (R337) -/

/-- The check value of a journal entry: the first 8 bytes of SHAKE256 over the rest (DESIGN CHOICE, log 45). -/
def jCheck (key index : W32) : BitVec 64 := (shake256 (natBytes key.toNat 4 ++ natBytes index.toNat 4)).setWidth 64

/-- A journal entry. -/
def JEntry.make (key index : Nat) : JEntry := ⟨BitVec.ofNat 32 key, BitVec.ofNat 32 index, jCheck (BitVec.ofNat 32 key) (BitVec.ofNat 32 index)⟩

/-- Whether a journal entry is valid. -/
def JEntry.valid (e : JEntry) : Bool := decide (e.check = jCheck e.key e.index)

/-- The order of the entries: the highest key number, then the greatest index. -/
def JEntry.rank (e : JEntry) : Nat := e.key.toNat * 2 ^ 32 + e.index.toNat

/-- The entry that is the journal's value, with its place. -/
def journalTop (l : Tbl Nat JEntry) : Option (Nat × JEntry) :=
  (l.filter (fun e => e.2.valid)).foldl (fun b e => match b with
    | none => some e
    | some x => if x.2.rank < e.2.rank then some e else b) none

/-- A journal's value, key number and index: `made` before any entry has been appended since manufacture. -/
def journalAt (l : Tbl Nat JEntry) (made : Nat × Nat) : Nat × Nat :=
  match journalTop l with
  | none => made
  | some e => (e.2.key.toNat, e.2.index.toNat)

/-- An entry appended at the next of the 4,096 places. -/
def journalPut (l : Tbl Nat JEntry) (key index : Nat) : Tbl Nat JEntry :=
  Tbl.set l (match journalTop l with
    | none => 0
    | some e => (e.1 + 1) % 4096) (JEntry.make key index)

/-! ## Secrets (R341, R349) -/

/-- `n` bytes of a constant. -/
def bytesOf (n : Nat) (f : Nat → Byte) : List Byte := (List.range n).map f

/-- The IV of a seal. -/
def sealIv (n : Nat) : List Byte := bytesOf 12 (Config.sealIv n)

/-- A seed and the checkpoint of its traversal sealed under VK (DESIGN CHOICE, log 45: a checkpoint stands as the leaf it was made at). -/
def sealSecret (vk : List Byte) (n : Nat) (seed : List Byte) (leaf : Nat) : List Byte :=
  gcmSeal vk (sealIv n) [] (seed ++ natBytes leaf 4)

/-- VK as the module was made with it. -/
def madeVk : List Byte := bytesOf 32 Config.vaultKey

/-! ## What the records and journals say (R345, R347, R350) -/

/-- The record of an attestation key: its certificate, its seed and the checkpoint of its traversal under VK. -/
def attKeyRec (vk : List Byte) (key leaf : Nat) (cert : List Byte) : VaultBody :=
  .attKey key (bytesOf 68 (Config.attPublic key)) cert (sealIv (1 + 2048 * key + leaf / 1024))
    (sealSecret vk (1 + 2048 * key + leaf / 1024) (bytesOf 96 (Config.attSeed key)) leaf)

/-- The serial's bytes. -/
def serialBytes : List Byte := natBytes Config.serial.toNat 16

/-- Letters as bytes. -/
def ascii (l : List Nat) : List Byte := l.map (BitVec.ofNat 8)

/-- The message that certifies an attestation key (R350). -/
def certMsg (key : Nat) : List Byte :=
  ascii [0x63, 0x65, 0x72, 0x74] ++ serialBytes ++ natBytes key 2 ++ bytesOf 68 (Config.attPublic key)

/-- The certificate signature of an attestation key. -/
def certSig (key : Nat) : List Byte := bytesOf 2500 (Config.idSign key (certMsg key))

/-- The records as the module was made with them, but for the variant record (R335, R340, R347). -/
def madeRec : VaultRec → Option VaultBody
  | .identity => some (.identity Config.serial (bytesOf 68 Config.idPublic) (Config.isalekCert.take 8192) (sealIv 0)
      (sealSecret madeVk 0 (bytesOf 96 Config.idSeed) 0))
  | .attestation => some (attKeyRec madeVk 0 0 (certSig 0))
  | .wrap d => some (.wrap (bytesOf 1024 (Config.pufHelper d)) none (if d.val < 2 then some (kwWrap (Config.dieKey d) madeVk) else none))
  | .counters => some (.counters (Vector.replicate 8 0))
  | .chart _ => some (.chart [] 0)
  | .pendingKey | .slot _ | .variant => none

/-- The monotonic counters: with their record lost every one reads 0xFFFF (R338, R345). -/
def Vault.counter (v : Vault) (n : Nat) : Nat :=
  match v.value (madeRec .counters) .counters with
  | some (.counters c) => (c.toList.getD n 0).toNat
  | _ => 0xFFFF

/-- Counter 0, the firmware floor. -/
def Vault.floor0 (v : Vault) : Nat := v.counter 0

/-- Counter 1, the floor of the variant record. -/
def Vault.floor1 (v : Vault) : Nat := v.counter 1

/-- Counters 0 and 1 raised; a counter only ever rises, and counters 2 to 7 stay as they are (R345). -/
def Vault.raiseCounters (v : Vault) (fw var : Nat) : Vault :=
  let up (n x : Nat) : BitVec 16 := BitVec.ofNat 16 (max (v.counter n) (min x 0xFFFF))
  let c (n : Nat) : BitVec 16 := BitVec.ofNat 16 (v.counter n)
  v.put (madeRec .counters) .counters (.counters #v[up 0 fw, up 1 var, c 2, c 3, c 4, c 5, c 6, c 7])

/-- The stream key slots that hold a key or are revoked (R342). -/
def Vault.slots (v : Vault) : Tbl Nat KeySlot :=
  (List.range 8).filterMap (fun n => match v.value none (.slot (fin16 n)) with
    | some (.slot k) => some (n, k)
    | _ => none)

/-- The wrapped keys in a die's wrap record, RK and VK (R340). -/
def Vault.wrapRec (v : Vault) (d : Fin 8) : Option (List Byte × Option (List Byte) × Option (List Byte)) :=
  match v.value (madeRec (.wrap d)) (.wrap d) with
  | some (.wrap h rk vk) => some (h, rk, vk)
  | _ => none

/-- Whether RK is installed (R342). -/
def Vault.hasRk (v : Vault) : Bool :=
  (List.range 8).any (fun d => match v.wrapRec (fin8 d) with
    | some (_, some _, _) => true
    | _ => false)

/-- The next leaf of the identity key: leaf 0 certified attestation key 0 (R347, R348). -/
def Vault.idNext (v : Vault) : Nat := (journalAt v.idJournal (0, 1)).2

/-- The number of the current attestation key. -/
def Vault.attKey (v : Vault) : Nat :=
  match v.value (madeRec .attestation) .attestation with
  | some (.attKey n _ _ _ _) => n
  | _ => Config.lostKey % 65536

/-- The certificate signature in the record of the current attestation key. -/
def Vault.attCert (v : Vault) : List Byte :=
  match v.value (madeRec .attestation) .attestation with
  | some (.attKey _ _ cert _ _) => cert
  | _ => []

/-- The next leaf of the current attestation key; a key that has signed nothing has no entry (R348, R350). -/
def Vault.attNext (v : Vault) : Nat :=
  let j := journalAt v.attJournal (0, 0)
  if j.1 = v.attKey then j.2 else 0

/-- The pending attestation key, once its record is stored and until it is the current one (R350). -/
def Vault.pending (v : Vault) : Option Nat :=
  match v.value none .pendingKey with
  | some (.attKey n _ _ _ _) => if n = v.attKey then none else some n
  | _ => none

/-- The dies that have unwrapped RK (R340). -/
def Vault.unwrapped (v : Vault) : List Nat := v.rootKeys.map (·.1)

end Sys2Proof.Machine
end

