-- ==== Sys2Proof/Machine/Ops.lean ====
section
/-! DEFINITION. The named operations over registers, cores, the Rose, HBM and interrupts that the meanings share. -/

namespace Sys2Proof.Machine

/-! ## Registers and free values -/

/-- The value of instance `i` of a register field. -/
def State.reg (s : State) (f : Fld) (i : Nat) : Nat := Tbl.getD s.regs (f, i) f.info.reset

/-- Whether a one-bit field is set. -/
def State.regB (s : State) (f : Fld) (i : Nat) : Bool := s.reg f i == 1

/-- The state with a register field written. -/
def State.setReg (s : State) (f : Fld) (i v : Nat) : State :=
  { s with regs := Tbl.set s.regs (f, i) (v % 2 ^ f.info.width) }

/-- A saturating counter field raised by `n`. -/
def State.bumpN (s : State) (f : Fld) (i n : Nat) : State :=
  s.setReg f i (min (s.reg f i + n) (2 ^ f.info.width - 1))

/-- A saturating counter field raised by one. -/
def State.bump (s : State) (f : Fld) (i : Nat) : State := s.bumpN f i 1

/-- A field that counts and wraps, raised by one. -/
def State.wrapInc (s : State) (f : Fld) (i : Nat) : State := s.setReg f i (s.reg f i + 1)

/-- The next free value. -/
def State.freeVal (s : State) : Nat := Config.free s.free

/-- The state after `n` free values have been drawn. -/
def State.drew (s : State) (n : Nat) : State := { s with free := s.free + n }

/-- Something sent to the outside. -/
def State.send (s : State) (o : Out) : State := { s with out := s.out ++ [o] }

/-! ## The product -/

/-- Dies of the module (R1). -/
def State.dies (s : State) : Nat :=
  match s.product with
  | .cvm2a192 => 2
  | .cvm4a384 => 4
  | _ => 8

/-- Grade B (R2). -/
def State.gradeB (s : State) : Bool := decide (s.product = .cvm8b768)

/-- The exposed size E of a stack (R166). -/
def State.stackE (s : State) : Nat := if s.product = .cvm8a576 then 36 * 2 ^ 30 else 48 * 2 ^ 30

/-- One past the highest HBM device address (R1). -/
def State.hbmTop (s : State) : Nat := 2 * s.dies * s.stackE

/-- The root's level (R23). -/
def State.rootLevel (s : State) : Nat := if s.dies = 2 then 9 else 10

/-- An address that names no logical core in the module (R10). -/
def State.absentR10 (s : State) (c : Nat) : Bool :=
  decide (s.dies * 131072 ≤ c) || (s.gradeB && decide (c / 65536 % 2 = 1) && decide (c / 16384 % 4 = 3))

/-- An absent core: under R10, in service or for the run (R276, R400). -/
def State.absent (s : State) (c : Nat) : Bool := s.absentR10 c || s.net.absent.contains c

/-- The map bit of an address (R137). -/
def State.mapBit (s : State) (c : Nat) : Bool :=
  s.net.absent.contains c || (Tbl.get? s.net.mapped c).isSome

/-- A tile port that faces withheld cores (R24). -/
def State.withheldTile (s : State) (tp : Nat) : Bool := s.gradeB && decide (448 ≤ tp)

/-! ## Interrupt messages -/

/-- Local numbers that are reserved (R382). -/
def reservedSource (n : Nat) : Bool :=
  !([0x10, 0x20, 0x21, 0x22, 0x30, 0x31, 0x32, 0x33, 0x40, 0x41, 0x42, 0x43, 0x50, 0x60, 0x61, 0x70, 0x80, 0x90, 0x91,
    0x92, 0x93].contains n || (decide (0x800 ≤ n) && decide (n < 0x2000)))

/-- A message sets PEND of its source, or merges (R385). -/
def State.setPend (s : State) (die n : Nat) : State :=
  if s.regB .INT_SRC_PEND (die * 8192 + n) then s.bump .INT_STAT_MERGED die
  else s.setReg .INT_SRC_PEND (die * 8192 + n) 1

/-- PEND of a private source, by processor × 256 + source (R389). -/
def State.setPriv (s : State) (die n : Nat) : State :=
  let i := die * 1024 + n
  if s.regB .INT_PRIV_PEND i then s.bump .INT_STAT_MERGED die else s.setReg .INT_PRIV_PEND i 1

/-- A message at a controller that is awake: discarded, or PEND (R383, R385). `helm` says Helm firmware sent it. A number
from 65,536 up stands for a private source of the die. -/
def State.takeMsg (s : State) (die num : Nat) (helm : Bool) : State :=
  if 65536 ≤ num then s.setPriv die ((num - 65536) % 1024)
  else if num / 8192 ≠ die ∨ reservedSource (num % 8192) ∨ (helm ∧ num % 8192 < 0x800) then s.bump .INT_STAT_BADMSG die
  else s.setPend die (num % 8192)

/-- Whether a die's controller sleeps and its wake queue of 64 entries is full (R390). -/
def State.wakeFull (s : State) (die : Nat) : Bool :=
  s.helm.asleep.contains die && decide (64 ≤ (Tbl.getD s.helm.wakeQ die []).length)

/-- A message reaches a die's controller: into the wake queue while it sleeps (R390). Entries past the 64th are events that
their blocks hold until there is room (R383). -/
def State.message (s : State) (die num : Nat) (helm : Bool) : State :=
  if s.helm.asleep.contains die then
    { s with helm := { s.helm with wakeQ := Tbl.set s.helm.wakeQ die (Tbl.getD s.helm.wakeQ die [] ++ [(num, helm)]) } }
  else s.takeMsg die num helm

/-- A block of the die raises a local source (R382, R383). -/
def State.raise (s : State) (die n : Nat) : State := s.message die (die * 8192 + n) false

/-- A private source of a processor raised (R389). -/
def State.raisePriv (s : State) (die proc b : Nat) : State := s.message die (65536 + proc * 256 + b) false

/-! ## Helm processors (R375 to R377) -/

/-- Whether a processor is RUNNING: from order 3 of the start (R375, R393). -/
def State.procRuns (s : State) (die p : Nat) : Bool := s.start.done.contains .p3 && s.reg .HELM_STAT_STATE (die * 4 + p) == 0

/-- The partner of a processor (table Helm duties). -/
def partner (p : Nat) : Nat := (p + 1) % 4

/-- Whether a checked action can take effect on a die: two of its processors are RUNNING (R377). -/
def State.canCheck (s : State) (die : Nat) : Bool :=
  decide (2 ≤ ((List.range 4).filter (fun p => s.procRuns die p)).length)

/-- The processor that proposes an action of a duty: the one that has the duty, or the partner that has taken it over (R376). -/
def State.proposer (s : State) (die duty : Nat) : Nat := if s.procRuns die duty then duty else partner duty

/-- Whether a checked action of a duty takes effect: it can be checked, and its proposer and checker do not stand in a disagreement
(R377). -/
def State.agreed (s : State) (die duty : Nat) : Bool :=
  s.canCheck die && !s.helm.disagreed.contains (die, s.proposer die duty)

/-! ## Chart -/

/-- The Chart of a die, and its vault record (R336, R397). -/
def State.chartSet (s : State) (die : Nat) (l : List ChartE) : State :=
  { s.setReg .YLD_STAT_CHART_USED die l.length with
    helm := { s.helm with chart := Tbl.set s.helm.chart die l }
    vault := s.vault.put (madeRec (.chart (fin8 die))) (.chart (fin8 die)) (.chart l (Tbl.getD s.helm.starts die 0)) }

/-- Whether two Chart entries are of the same defect. -/
def ChartE.same (e f : ChartE) : Bool := decide (e.kind = f.kind ∧ e.where_ = f.where_ ∧ e.row = f.row ∧ e.level = f.level)

/-- A defect recorded in the Chart of a die, once, or dropped where it is full, and then counted once in a start (R397, R399). -/
def State.chartAdd (s : State) (die : Nat) (e : ChartE) : State :=
  let l := Tbl.getD s.helm.chart die []
  let key := (die, e.kind, (e.where_ * 128 + e.row) * 16 + e.level)
  if l.any e.same then s
  else if l.length < 8192 then s.chartSet die (l ++ [e])
  else if s.start.dropped.contains key then s
  else { s.bump .YLD_STAT_CHART_DROPPED die with start := { s.start with dropped := key :: s.start.dropped } }

/-- A defect found in service: its entry is written when a second processor agrees (R377, R380). -/
def State.chartNote (s : State) (die : Nat) (e : ChartE) : State := if s.agreed die 1 then s.chartAdd die e else s

/-- The physical core number of R397 that serves a logical address. -/
def State.physOf (s : State) (c : Nat) : Nat :=
  1056 * (c / 1024 % 128) + (Tbl.get? s.net.mapped c).getD (c % 1024)

/-- The start count of a die (R397). -/
def State.startNo (s : State) (die : Nat) : Nat := Tbl.getD s.helm.starts die 0 % 65536

/-- Physical rows of a physical core that fail: those its Chart entries name, and those of this start's Sounding (R127, R399). -/
def State.badRows (s : State) (die phys : Nat) : List Nat :=
  let chart := (Tbl.getD s.helm.chart die []).filterMap (fun e => if e.kind = 2 ∧ e.where_ = phys then some e.row else none)
  let sound := s.start.fails.filterMap (fun f => match f.2.part with
    | .row r => if f.1 = die ∧ 1056 * f.2.g + f.2.p = phys then some r.val else none
    | _ => none)
  (List.range 66).filter (fun r => chart.contains r || sound.contains r)

/-- The spare rows among failing ones that are good. -/
def goodSpareRows (bad : List Nat) : List Nat := [64, 65].filter (fun r => !bad.contains r)

/-- The rows among failing ones that a logical row stands on at first. -/
def rowsToMap (bad : List Nat) : List Nat := bad.filter (fun r => decide (r < 64))

/-- A core after a Bleach whose failing physical rows are mapped out (R127, R133). -/
def Core.withBad (bad : List Nat) : Core :=
  { Core.reset with worn := bad
                    rowMap := ((rowsToMap bad).zip (goodSpareRows bad)).foldl (fun m e => vset m e.1 e.2) Core.reset.rowMap }

/-- The spares of a group that are left, in the order they are taken; a group without defects has its own 32 (R400). -/
def State.spareList (s : State) (g : Nat) : List Nat := Tbl.getD s.helm.spares g ((List.range 32).map (· + 1024))

/-! ## Cores -/

/-- A core. -/
def State.core (s : State) (c : Nat) : Core := Tbl.getD s.cores c .reset

/-- The state with a core replaced. -/
def State.setCore (s : State) (c : Nat) (k : Core) : State := { s with cores := Tbl.set s.cores c k }

/-- The state with a core changed. -/
def State.modCore (s : State) (c : Nat) (f : Core → Core) : State := s.setCore c (f (s.core c))

/-- The die of a core (R9, R23). -/
def dieOf (c : Nat) : Nat := c / 131072

/-- Whether the core's rail region is braked (R83, R361). -/
def State.braked (s : State) (c : Nat) : Bool := s.regB .CLK_REGION_BRAKED (c / 16384)

/-- Whether block `k` of a context's CTX_CORES counts as valid (10). -/
def State.blockOk (s : State) (x k : Nat) : Bool :=
  let i := x * 8 + k
  s.regB .CTX_CORES_VALID i && decide (s.reg .CTX_CORES_LEVEL i ≤ 10) &&
    decide (s.reg .CTX_CORES_BASE i % 4 ^ s.reg .CTX_CORES_LEVEL i = 0)

/-- Whether a context's valid blocks hold an address. -/
def State.inBlocks (s : State) (x c : Nat) : Bool :=
  (List.range 8).any (fun k => s.blockOk x k &&
    decide (c / 4 ^ s.reg .CTX_CORES_LEVEL (x * 8 + k) =
      s.reg .CTX_CORES_BASE (x * 8 + k) / 4 ^ s.reg .CTX_CORES_LEVEL (x * 8 + k)))

/-- A context. -/
def State.ctx (s : State) (x : Nat) : Ctx := Tbl.getD s.ctxs x .reset

/-- The state with a context changed. -/
def State.modCtx (s : State) (x : Nat) (f : Ctx → Ctx) : State :=
  { s with ctxs := Tbl.set s.ctxs x (f (s.ctx x)) }

/-- The context that holds a core (R233). -/
def State.holder (s : State) (c : Nat) : Option Nat :=
  (s.ctxs.find? (fun e => e.2.holds && s.inBlocks e.1 c)).map (·.1)

/-! ## The Rose -/

/-- Where a packet that leaves an endpoint's outbound port goes: into the tree, or with UP = 0 to the source core itself
(R137, R138). -/
def State.entry (s : State) (e : Ep) (p : Packet) : Loc :=
  match e with
  | .core c =>
    if p.up = 0 then .at_ (.core c)
    else if (Tbl.get? s.net.mapped c.toNat).isSome then .up 5 (c.toNat / 1024) (8 + c.toNat % 1024)
    else .up 1 (c.toNat / 4) (c.toNat % 4)
  | .tile d t => .up 4 (d * 512 + t) 4
  | .hub h _ => .up 8 h 4

/-- A packet put on its way at a place. -/
def State.fly (s : State) (p : Packet) (l : Loc) : State :=
  { s with net := { s.net with flights := s.net.flights ++ [⟨p, l, false, none⟩] } }

/-- A copy of a packet for one core: the core as its target, no mask (R139). -/
def pForCore (p : Packet) (c : Nat) : Packet :=
  { p with target := BitVec.ofNat 20 c, tkind := 0,
           var := if mayMulticast p then BitVec.ofNat 32 (natSet p.var.toNat 8 20 0) else p.var }

/-- The packet with the address that its turn router resolves (R138, R139). -/
def pResolve (p : Packet) (n idx : Nat) : Packet :=
  let m := 4 ^ n
  { p with target := BitVec.ofNat 20 (idx * m + p.target.toNat % m),
           var := BitVec.ofNat 32 (if mayMulticast p then natSet p.var.toNat 8 20 (pMask p % m) else p.var.toNat) }

/-- Outbound to another package (R146). -/
def pOutward (p : Packet) : Bool := p.ext && !xIn p

/-- A packet as its endpoint queues it: UP = 0 names the source core itself, and a core that enters at level 5 has its
own logical subtree's address resolved (R137, R138). -/
def State.prepared (s : State) (e : Ep) (p : Packet) : Packet :=
  match e with
  | .core c =>
    if p.up = 0 then pForCore p c.toNat
    else if (Tbl.get? s.net.mapped c.toNat).isSome && decide (p.up.toNat < 5) && !pOutward p then
      pResolve p p.up.toNat (c.toNat / 4 ^ p.up.toNat)
    else p
  | _ => p

/-- A packet queued at an endpoint's outbound port. -/
def State.inject (s : State) (e : Ep) (p : Packet) : State := s.fly (s.prepared e p) (.out e)

/-- The don't-care bits of a packet's target. -/
def pWild (p : Packet) : Nat := if mayMulticast p then pMask p else 0

/-- Whether the targets of two packets of one source with equal UP have an endpoint in common. -/
def meet (p q : Packet) : Bool :=
  decide (p.tkind = q.tkind) && (pOutward p == pOutward q) &&
    (let n := if pOutward p then 20 else if p.tkind = 2 then 20 else 2 * p.up.toNat
     (!pOutward p || xDpkg p == xDpkg q) &&
       ((p.target.toNat ^^^ q.target.toNat) &&& (2 ^ n - 1)) &&& (2 ^ 20 - 1 - ((pWild p ||| pWild q) % 2 ^ 20)) == 0)

/-- Whether two packets are of one source, channel and UP and have a target in common, so that they stay in order (R152). -/
def sameFlow (p q : Packet) : Bool :=
  decide (p.src = q.src) && decide (p.skind = q.skind) && decide (p.up = q.up) && decide (pChan p = pChan q) && meet p q

/-- Whether a packet is a READ that the NI of an endpoint has taken and that waits there (R119, R121). -/
def State.readWaits (s : State) (e : Ep) (p : Packet) : Bool :=
  match e with
  | .core c => (s.core c.toNat).waits.contains (.read p) || (s.core c.toNat).deferred.contains (.read p)
  | _ => false

/-- Whether a packet stands at an endpoint with no earlier packet of its flow before it (R152), but for READs that wait at
its NI and combined tallies. -/
def State.standsAt (s : State) (e : Ep) (p : Packet) : Bool :=
  match s.net.flights.find? (fun f => decide (f.loc = .at_ e) &&
      (decide (f.pkt = p) || (sameFlow f.pkt p && !f.comb && !s.readWaits e f.pkt))) with
  | some f => decide (f.pkt = p) || s.net.flights.any (fun f => decide (f.loc = .at_ e) && decide (f.pkt = p) && f.comb)
  | none => false

/-- A packet of an endpoint to another, with nothing in its variable bits (R142, R150). -/
def State.mkPkt (s : State) (src dst : Ep) (cmd : BitVec 8) (ctx tag : Nat) (data : List Unit16) : Packet where
  up := BitVec.ofNat 4 (min (coverEp src dst) s.rootLevel)
  target := (epAddr dst).1
  cmd := cmd
  ctx := BitVec.ofNat 10 ctx
  count := BitVec.ofNat 6 data.length
  tag := BitVec.ofNat 16 tag
  var := 0
  routes := 0
  src := (epAddr src).1
  skind := (epAddr src).2
  tkind := (epAddr dst).2
  t := false
  cnt := false
  ack := false
  bulk := false
  ext := false
  xu := 0
  data := data

/-- The reply to a packet, on its way back to its source; one that arrived from another package carries the extension
unit of R416. `here` is where the reply starts, as an endpoint; `atRouter` is a router that replies itself. -/
def State.reply (s : State) (here : Ep) (atRouter : Option (Nat × Nat)) (p : Packet) (cmd : BitVec 8) (var : Nat)
    (data : List Unit16) : State :=
  let remote := p.ext && xIn p
  let dst : Ep := if remote then .hub (2 * xDie p + xPort p / 2) (8 + xPort p % 2) else addrEp p.src p.skind
  let q := s.mkPkt here dst cmd p.ctx.toNat p.tag.toNat data
  let q := { q with var := BitVec.ofNat 32 var, target := if remote then p.src else q.target,
                    tkind := if remote then p.skind else q.tkind, ext := remote,
                    xu := if remote then extUnit (xSpkg p) (s.reg .SAL_PKG_NUM 0) (xDie p) (xPort p) false else 0 }
  match atRouter with
  | some (n, i) => s.fly q (.up n i 6)
  | none => s.inject here q

/-- The kinds of refusal (R156, R157). -/
inductive Refuse where
  | rst | den | abs
  deriving DecidableEq, Repr

/-- The status of a refused read (R157). -/
def Refuse.status : Refuse → Nat
  | .rst => 0x0501
  | .den => 0x0102
  | .abs => 0x0601

/-- A refused packet is answered, or absorbed, and counted on a die (R157); ROSE_REFUSE_STAT counts the refusals of NIs and
routers alone, not those of side endpoints. -/
def State.refuse (s : State) (here : Ep) (atRouter : Option (Nat × Nat)) (die : Nat) (k : Refuse) (p : Packet) : State :=
  let s := if atRouter.isSome || (epAddr here).2 == 0 then
      s.bump (match k with | .rst => .ROSE_REFUSE_STAT_RST | .den => .ROSE_REFUSE_STAT_DEN | .abs => .ROSE_REFUSE_STAT_ABS) die
    else s
  if p.cmd = cWRITE ∨ p.cmd = cMASK ∨ p.cmd = cIBUF ∨ p.cmd = cROUTE ∨ p.cmd = cSTART ∨ p.cmd = cMEMW then
    s.reply here atRouter p cANSWER 0
      [tallyUnit (if k = .abs then 1 else 0) 0 (if k = .rst then 1 else 0) (if k = .den then 1 else 0)]
  else if p.cmd = cREAD ∨ p.cmd = cMEMR then s.reply here atRouter p cRDATA k.status []
  else s.bump .ROSE_REFUSE_STAT_ABSORBED die

/-- The answer to an accepted packet that asked for one (R157). -/
def State.accept (s : State) (here : Ep) (p : Packet) : State :=
  if p.ack then s.reply here none p cANSWER 0 [tallyUnit 0 1 0 0] else s

/-- The flights without the first that stands for this packet at this endpoint. -/
def takeFlight (l : List Flight) (e : Ep) (p : Packet) : List Flight :=
  match l with
  | [] => []
  | f :: r => if f.loc = .at_ e ∧ f.pkt = p then r else f :: takeFlight r e p

/-- A packet taken from the endpoint it has reached (log 8). -/
def State.arrive (s : State) (e : Ep) (p : Packet) : State :=
  { s with net := { s.net with flights := takeFlight s.net.flights e p } }

/-- Whether a core's Bleach is part of a kill that has not ended (R130, R132). -/
def State.killBleach (s : State) (c : Nat) : Bool :=
  (s.core c).bleaching && s.ctxs.any (fun e => s.reg .CTX_STATE_STATE e.1 == 6 && e.2.owedCores.contains c)

/-- How a core decides a packet (R156): none accepts. -/
def State.coreRefuses (s : State) (c ctx : Nat) : Option Refuse :=
  let h := s.holder c
  if (s.core c).sink || s.killBleach c || (match h with | some x => s.reg .CTX_STATE_STATE x == 6 | none => false) then some .rst
  else if ctx = 0 ∨ h = some ctx then none
  else match h with
    | some _ => some .den
    | none => some .rst

/-! ## Faults of a core (R82, R84, R95) -/

/-- The FAULT_REPORT of a core goes to the Helm mailbox of its half-die (R143). -/
def State.faultReport (s : State) (c cause : Nat) : State :=
  let src : Ep := .core (BitVec.ofNat 20 c)
  let p := s.mkPkt src (.hub (c / 65536) 0x0D) cFAULT ((s.holder c).getD 0) 0 []
  s.inject src { p with var := BitVec.ofNat 32 (cause % 16) }

/-- The parties of the NI, which go on at a core that has stopped (R82). -/
def niParty (w : Waiter) : Bool :=
  match w with
  | .seq => false
  | .stream => false
  | .inbound => true
  | .read _ => true
  | .flag _ _ _ => true
  | .engine _ => true

/-- The core after everything in flight is discarded (R82); its NI keeps the packets that wait at it. -/
def Core.discard (k : Core) : Core :=
  { k with sq := [], cPipe := [], wb := [], late := [], waits := k.waits.filter niParty, deferred := k.deferred.filter niParty,
           got := [], stop := .none, latchedFault := none }

/-- A fault stops a core that has not stopped by one, or is latched under the brake (R82, R84). -/
def State.fault (s : State) (c cause : Nat) : State :=
  match (s.core c).run with
  | .faulted _ => s
  | .killed => s
  | _ =>
    if s.braked c then s.modCore c (fun k => { k with latchedFault := some ((k.latchedFault).getD cause) })
    else (s.modCore c (fun k => { k.discard with run := .faulted cause })).faultReport c cause

/-- A core stopped as for a fault, without a report (R130, R164, R277); the brake holds the order until its release (R83). -/
def State.haltCore (s : State) (c : Nat) : State :=
  if s.braked c then s.modCore c (fun k => { k with haltDue := some (k.haltDue.getD false) })
  else s.modCore c (fun k => { k.discard with run := .killed, haltDue := none })

/-! ## Rows, ECC and map-out (R115, R123 to R126) -/

/-- A physical row that is free to take up a logical row (R124); of two, the lower number (DESIGN CHOICE, log 48). -/
def Core.spareRow (k : Core) : Option Nat :=
  (List.range 66).find? (fun p => !k.rowMap.toList.contains p && !k.worn.contains p)

/-- Map a logical row onto a spare physical row. -/
def Core.mapOut (k : Core) (r p : Nat) : Core :=
  { k with worn := vget k.rowMap r 0 :: k.worn, rowMap := vset k.rowMap r p, ceCnt := vset k.ceCnt p 0 }

/-- CAUSE of the entry of a map-out that no fault brings about: the Sounding code of a row failure (DESIGN CHOICE, log 48). -/
def rowCode : Nat := 0x15

/-- The core has no spare row left: it is marked once between two starts (R125). `cause` is that of the fault that brought it about
(R397), or `rowCode`. -/
def State.markNoRows (s : State) (c cause : Nat) : State :=
  let e : ChartE := ⟨3, true, s.physOf c, 0, 0, cause, s.startNo (dieOf c)⟩
  if s.helm.noRows.contains (dieOf c, s.physOf c) then s
  else
    let s := { s with helm := { s.helm with noRows := (dieOf c, s.physOf c) :: s.helm.noRows } }
    ((s.chartNote (dieOf c) e).bump .YLD_ROW_STAT_EXHAUSTED (dieOf c)).raise (dieOf c) 0x50

/-- A map-out counted and reported to Helm firmware (R124); `cause` as above. -/
def State.mappedOut (s : State) (c r cause : Nat) : State :=
  let e : ChartE := ⟨2, true, s.physOf c, vget (s.core c).rowMap r 0, 0, cause, s.startNo (dieOf c)⟩
  ((s.chartNote (dieOf c) e).bump .YLD_ROW_STAT_MAPOUT (dieOf c)).raise (dieOf c) 0x50

/-- A read of row `r` that corrected `n` words (R123), with the field map-out it brings about (R124, R125). -/
def State.corrected (s : State) (c r n : Nat) : State :=
  let k := s.core c
  let p := vget k.rowMap r 0
  let cnt := min (vget k.ceCnt p 0 + n) 15
  let s := (s.setCore c { k with ceCnt := vset k.ceCnt p cnt }).bumpN .YLD_ROW_ERR_CE (dieOf c) n
  let lim := s.reg .YLD_ROW_CE_LIMIT_LIMIT (dieOf c)
  if 0 < n ∧ lim ≠ 0 ∧ lim ≤ cnt then
    match k.spareRow with
    | some q => (s.mappedOut c r rowCode).modCore c (fun k => k.mapOut r q)
    | none => s.markNoRows c rowCode
  else s

/-- A read of row `r` that found an uncorrectable error: the row is lost, and the core stops (R126). -/
def State.uncorrectable (s : State) (c r : Nat) : State :=
  let s := s.bump .YLD_ROW_ERR_UE (dieOf c)
  let s := match (s.core c).spareRow with
    | some q => (s.mappedOut c r 4).modCore c (fun k => k.mapOut r q)
    | none => s.markNoRows c 4
  (s.modCore c (fun k => { k with rows := vset k.rows r 0, tags := vset k.tags r false })).fault c 4

/-- A read of a row as the ECC finds it: the state and the row, or none where its data is lost. -/
def State.readRow (s : State) (c r : Nat) (e : Ecc) : State × Option Row :=
  match e with
  | .clean => (s, some (vget (s.core c).rows r 0))
  | .corrected n => (s.corrected c r (min n 8), some (vget (s.core c).rows r 0))
  | .uncorrectable => (s.uncorrectable c r, none)

/-- Rows read one after the other, as the ECC finds them, up to one whose data is lost: false says that there is one
(R126). `es` are the findings in the order of the rows; a row beyond them is clean. -/
def State.checkRows (s : State) (c : Nat) : List Nat → List Ecc → State × Bool
  | [], _ => (s, true)
  | r :: rs, es =>
    let q := s.readRow c r (es.headD .clean)
    match q.2 with
    | none => (q.1, false)
    | some _ => State.checkRows q.1 c rs es.tail

/-- Rows read in one step, each of them, as the ECC finds them (R61); false says that some data is lost. -/
def State.checkAll (s : State) (c : Nat) : List Nat → List Ecc → State × Bool
  | [], _ => (s, true)
  | r :: rs, es =>
    let q := s.readRow c r (es.headD .clean)
    let t := State.checkAll q.1 c rs es.tail
    (t.1, q.2.isSome && t.2)

/-! ## HBM (R166, R169, R178) -/

/-- The byte at an address; an unlisted one is zero (R133, R169). -/
def memGet (m : List Host.Cell) (a : Nat) : BitVec 8 :=
  match m with
  | [] => 0
  | (b, v) :: r => if b = a then v else memGet r a

/-- The memory with a byte written, in canonical form: addresses rising, no zero byte listed. -/
def memSet (m : List Host.Cell) (a : Nat) (v : BitVec 8) : List Host.Cell :=
  match m with
  | [] => if v = 0 then [] else [(a, v)]
  | (b, w) :: r =>
    if a < b then (if v = 0 then (b, w) :: r else (a, v) :: (b, w) :: r)
    else if a = b then (if v = 0 then r else (a, v) :: r)
    else (b, w) :: memSet r a v

/-- The canonical form: addresses strictly rising and no byte zero. -/
def Memory.wf : List Host.Cell → Bool
  | [] => true
  | [(_, v)] => decide (v ≠ 0)
  | (a, v) :: (b, w) :: r => decide (v ≠ 0) && decide (a < b) && Memory.wf ((b, w) :: r)

/-- A string of bytes written from an address up. -/
def memPut (m : List Host.Cell) (a : Nat) : List Byte → List Host.Cell
  | [] => m
  | b :: r => memPut (memSet m a b) (a + 1) r

/-- `n` bytes from an address up. -/
def memTake (m : List Host.Cell) (a n : Nat) : List Byte := (List.range n).map (fun i => memGet m (a + i))

/-- One stack's controller. -/
def State.stk (s : State) (h : Nat) : Stack := Tbl.getD s.hbmc h .reset

/-- The state with a controller changed. -/
def State.modStk (s : State) (h : Nat) (f : Stack → Stack) : State :=
  { s with hbmc := Tbl.set s.hbmc h (f (s.stk h)) }

/-- The stack of a device address (R166). -/
def State.stackOf (s : State) (a : Nat) : Nat := a / s.stackE

/-- A flipped group's copy of a page, where the page has not yet been copied home (R267). -/
def State.staged (s : State) (page : Nat) : Option (List Byte) :=
  ((s.ctxs.flatMap (fun e => e.2.grps)).reverse.findSome? (fun g =>
    if g.st = .flipped ∨ g.st = .published then (g.pages.find? (fun q => q.1 = page)).map (·.2) else none))

/-- A byte of HBM as a reader sees it (R267). -/
def State.hbmByte (s : State) (a : Nat) : BitVec 8 :=
  match s.staged (a / 4096) with
  | some l => l.getD (a % 4096) 0
  | none => memGet s.hbm a

/-- Bytes of HBM as a reader sees them. -/
def State.hbmBytes (s : State) (a n : Nat) : List Byte := (List.range n).map (fun i => s.hbmByte (a + i))

/-- The stacks that a range of device addresses touches. -/
def State.stacksOf (s : State) (a n : Nat) : List Nat :=
  if n = 0 then [] else (List.range (s.stackOf (a + n - 1) + 1 - s.stackOf a)).map (· + s.stackOf a)

/-- Whether a stack accepts requests (R181, R184). -/
def State.stackReady (s : State) (h : Nat) : Bool := decide (s.reg .HBM_STATE_STATE h = 2)

/-- Whether a stack refuses every request: it is LOST, or its controller is gated (R185, R370). -/
def State.stackRefuses (s : State) (h : Nat) : Bool :=
  decide (s.reg .HBM_STATE_STATE h = 5) || natBits (s.reg .CLK_GATE_HBM (h / 2)) (h % 2) 1 == 0

/-- Whether MLOOP_HBM of a stack's die is locked: without it the controllers take no request (R356, R357). -/
def State.stackClocked (s : State) (h : Nat) : Bool := natBits (s.reg .CLK_SRC_STAT_LOCK (h / 2)) 1 1 == 1

/-- Whether an engine's access to HBM waits: a stack is not trained yet, changes its rate, is retrained, or has no locked loop
(R181, R184, R356). -/
def State.hbmWaits (s : State) (a n : Nat) : Bool :=
  (s.stacksOf a n).any (fun h => decide (h < 2 * s.dies) && !s.stackRefuses h && !(s.stackReady h && s.stackClocked h))

/-- Atoms of a stack poisoned no more, as writes cover them (R178). -/
def State.unpoison (s : State) (a n : Nat) : State :=
  (s.stacksOf a n).foldl (fun s h => s.modStk h (fun k => { k with poison := k.poison.filter (fun t =>
    !(decide (a ≤ h * s.stackE + t * 64) && decide (h * s.stackE + t * 64 + 64 ≤ a + n))) })) s

/-- Published groups whose last page is home leave the list, and their areas are free (R267). -/
def State.dropPublished (s : State) : State :=
  { s with ctxs := s.ctxs.map (fun e => (e.1, { e.2 with grps := e.2.grps.filter (fun q => !(decide (q.st = .published) && q.pages.isEmpty)) })) }

/-! ## Device addresses (R27, R28) -/

/-- What a device address names. -/
inductive DevAt where
  | hbm
  | row (core row : Nat)
  | bram (die off : Nat)
  | tile (die tp : Nat)
  | none
  deriving DecidableEq, Repr

/-- The populated range an address lies in (R27, R28). -/
def State.devAt (s : State) (a : Nat) : DevAt :=
  if a < s.hbmTop then .hbm
  else if 0x100000000000 ≤ a ∧ a < 0x100000000000 + s.dies * 131072 * 0x1000 then
    .row ((a - 0x100000000000) / 0x1000) ((a - 0x100000000000) / 64 % 64)
  else if 0x200000000000 ≤ a ∧ a < 0x200000000000 + s.dies * 0x800000 ∧ (a - 0x200000000000) % 0x800000 < 0x600000 then
    .bram ((a - 0x200000000000) / 0x800000) ((a - 0x200000000000) % 0x800000)
  else if 0x300000000000 ≤ a ∧ a < 0x300000000000 + s.dies * 512 * 0x1000 then
    .tile ((a - 0x300000000000) / 0x1000 / 512) ((a - 0x300000000000) / 0x1000 % 512)
  else .none

end Sys2Proof.Machine
end

