-- ==== Sys2Proof/Machine/Banks.lean ====
section
/-! DEFINITION. The banks of HBM as every access reaches them, a packet's or an engine's own: rows, activates, write queues, the
ECC of an atom, redirected pages (R167, R170 to R178, R267). -/

namespace Sys2Proof.Machine

/-! ## The map of a stack (R167) -/

/-- Pseudo-channel, bank and row of a stack offset. -/
def stackPlace (o : Nat) : Nat × Nat × Nat :=
  let row := o / 0x400000
  ((natBits o 8 6) ^^^ (row % 64), natBits o 16 6, row)

/-- The atoms that `n` bytes from a stack offset touch. -/
def atomsOf (o n : Nat) : List Nat :=
  if n = 0 then [] else (List.range ((o + n - 1) / 64 + 1 - o / 64)).map (· + o / 64)

/-- The bytes of an atom, as a mask, that lie in `n` bytes from a stack offset. -/
def atomMask (o n atom : Nat) : Nat :=
  let lo := max o (atom * 64) - atom * 64
  let hi := min (o + n) (atom * 64 + 64) - atom * 64
  (2 ^ (hi - lo) - 1) * 2 ^ lo

/-- The mask of a whole atom. -/
def wholeAtom : Nat := 2 ^ 64 - 1

/-! ## Poison (R178) -/

/-- Whether an atom of a stack is poisoned. -/
def State.poisoned (s : State) (h atom : Nat) : Bool := (s.stk h).poison.contains atom

/-- An uncorrectable error: the atom is poisoned, the detection counted and reported (R178, R382). -/
def State.poisonAtom (s : State) (h atom : Nat) : State :=
  let s := if s.poisoned h atom then s else s.modStk h (fun k => { k with poison := atom :: k.poison })
  (s.bump .HBM_ECC_STAT_UE h).raise (h / 2) (0x32 + h % 2)

/-! ## Rows, activates and neighbour refreshes (R172, R175) -/

/-- The rows that a neighbour refresh of a row refreshes, those beyond the bank's ends skipped. -/
def State.neighbours (s : State) (row : Nat) : List Nat :=
  ((if s.regB .HBM_HAMMER_DIST2 0 then [1, 2] else [1]).flatMap
    (fun d => (if d ≤ row then [row - d] else []) ++ [row + d])).filter (· < 12288)

/-- Rows of a bank refreshed as neighbours. -/
def Stack.refreshRows (k : Stack) (pc bank : Nat) (rows : List Nat) : Stack :=
  { k with nbrRows := rows.foldl (fun t r => Tbl.set t (pc, bank, r) (Tbl.getD t (pc, bank, r) 0 + 1)) k.nbrRows }

/-- Whether a bank owes a neighbour refresh. -/
def State.owesRefresh (s : State) (h pc bank : Nat) : Bool := (s.stk h).nbr.any (fun e => e.1 == pc && e.2.1 == bank)

/-- A neighbour refresh of a bank carried out, where it owes one. -/
def State.neighbourRefresh (s : State) (h pc bank : Nat) : State :=
  let n := s.reg .HBM_HAMMER_CNT_NREF h
  let rows := ((s.stk h).nbr.find? (fun e => e.1 == pc && e.2.1 == bank)).elim [] (fun e => s.neighbours e.2.2)
  (s.modStk h (fun k => { k.refreshRows pc bank rows with
    nbr := k.nbr.filter (fun e => !(e.1 == pc && e.2.1 == bank)) })).setReg .HBM_HAMMER_CNT_NREF h
      (if s.owesRefresh h pc bank then n + 1 else n)

/-- A bank's open row closed. -/
def Stack.closeRow (k : Stack) (pc bank : Nat) : Stack :=
  { k with openRows := k.openRows.filter (fun e => !(e.1 == pc && e.2.1 == bank)) }

/-- An activate: what the bank still owes is carried out first, and a neighbour refresh is drawn with the probability that
HBM_HAMMER.PROB of controller 0 of D0 sets (R175, R176). -/
def State.activate (s : State) (h pc bank row : Nat) : State :=
  let s := s.neighbourRefresh h pc bank
  let drawn := s.freeVal % 2 ^ (5 + s.reg .HBM_HAMMER_PROB 0) == 0
  (s.drew 1).modStk h (fun k =>
    let k := k.closeRow pc bank
    { k with openRows := (pc, bank, row) :: k.openRows, nbr := if drawn then (pc, bank, row) :: k.nbr else k.nbr })

/-- Whether a page hint leaves the row open (R172). -/
def State.staysOpen (s : State) (h hint : Nat) : Bool :=
  (if hint = 1 then true else if hint = 2 then false else s.reg .HBM_CTL_PAGE_DEFAULT h == 0) &&
    decide (s.reg .HBM_CTL_OPEN_IDLE h ≠ 0)

/-- The queue without the writes to one row. -/
def Stack.withoutRow (k : Stack) (p : Nat × Nat × Nat) : Stack :=
  { k with wq := k.wq.filter (fun e => decide (stackPlace (e.atom * 64) ≠ p)) }

/-- Whether a page hint takes the policy Close: by itself, or by the controller's default (table Page hints). -/
def State.closesRow (s : State) (h hint : Nat) : Bool :=
  hint == 2 || (hint != 1 && s.reg .HBM_CTL_PAGE_DEFAULT h != 0)

/-- An access of the stack to an atom, with its page hint; before it closes its row by the policy Close, the queued writes to
that row are served. -/
def State.touch (s : State) (h hint atom : Nat) : State :=
  let p := stackPlace (atom * 64)
  let s := if (s.stk h).openRows.contains p then s else s.activate h p.1 p.2.1 p.2.2
  let s := if s.closesRow h hint then s.modStk h (fun k => k.withoutRow p) else s
  if s.staysOpen h hint then s else s.modStk h (fun k => k.closeRow p.1 p.2.1)

/-! ## Queues (R170) -/

/-- A queued write served, unless it has been served with its row. -/
def State.serveWrite (s : State) (h : Nat) (e : WqE) : State :=
  if (s.stk h).wq.contains e then (s.modStk h (fun k => { k with wq := k.wq.erase e })).touch h e.hint e.atom else s

/-- The writes of the pseudo-channels that a filter names drained to the stack. -/
def State.drainQueue (s : State) (h : Nat) (which : Nat → Bool) : State :=
  ((s.stk h).wq.filter (fun e => which e.pc)).foldl (fun s e => s.serveWrite h e) s

/-- A write put into its queue, which drains when it holds 24 entries. -/
def State.queueWrite (s : State) (h hint atom mask : Nat) : State :=
  let pc := (stackPlace (atom * 64)).1
  let s := s.modStk h (fun k => { k with wq := k.wq ++ [⟨pc, atom, mask, hint⟩] })
  if 24 ≤ ((s.stk h).wq.filter (fun e => e.pc == pc)).length then s.drainQueue h (· == pc) else s

/-! ## Reads (R169, R170, R177, R178) -/

/-- The bytes of an atom that queued writes cover. -/
def Stack.covered (k : Stack) (atom : Nat) : Nat :=
  k.wq.foldl (fun m e => if e.atom = atom then m ||| e.mask else m) 0

/-- The atoms of a read that need the stack: their pages are not redirected, and the queued writes do not cover them (R170,
R267). -/
def State.uncovered (s : State) (h o n : Nat) : List Nat :=
  (atomsOf o n).filter (fun t => (s.staged ((h * s.stackE + t * 64) / 4096)).isNone &&
    decide (atomMask o n t &&& (s.stk h).covered t ≠ atomMask o n t))

/-- A read of an atom from the stack, as the ECC finds it: whether its data is there. The controller's code corrects one symbol
(R177); poison met is an uncorrectable error (R178). -/
def State.readAtom (s : State) (h hint atom : Nat) (e : AtomEcc) : State × Bool :=
  let s := s.touch h hint atom
  if s.poisoned h atom then (s.poisonAtom h atom, false)
  else
    let s := s.bumpN .HBM_ECC_STAT_ONDIE h e.onDie
    match e.ecc with
    | .clean => (s, true)
    | .corrected _ => (s.bump .HBM_ECC_STAT_CE h, true)
    | .uncorrectable => (s.poisonAtom h atom, false)

/-- A read of atoms from the stack, with what the ECC finds in each: whether all could be read. -/
def State.readAtoms (s : State) (h hint : Nat) : List Nat → List AtomEcc → State × Bool
  | [], _ => (s, true)
  | t :: r, es =>
    let q := s.readAtom h hint t (es.headD .clean)
    let w := State.readAtoms q.1 h hint r es.tail
    (w.1, q.2 && w.2)

/-- The data of a read of a stack, or none where an atom is lost. -/
def State.hbmRead (s : State) (h o n hint : Nat) (es : List AtomEcc) : State × Option (List Byte) :=
  let r := s.readAtoms h hint (s.uncovered h o n) es
  (r.1, if r.2 then some (r.1.hbmBytes (h * s.stackE + o) n) else none)

/-! ## Writes (R170, R171, R178) -/

/-- A write of an atom accepted: a whole atom loses its poison, a partial one is read first; it enters its queue. -/
def State.acceptAtom (s : State) (h hint atom mask : Nat) (e : AtomEcc) : State :=
  let s := if mask = wholeAtom then s.modStk h (fun k => { k with poison := k.poison.filter (· ≠ atom) })
    else (s.readAtom h hint atom e).1
  s.queueWrite h hint atom mask

/-- A write accepted, atom by atom with its mask; the findings are those of the partial atoms, in order. -/
def State.hbmAccept (s : State) (h hint : Nat) : List (Nat × Nat) → List AtomEcc → State
  | [], _ => s
  | m :: r, es =>
    State.hbmAccept (s.acceptAtom h hint m.1 m.2 (es.headD .clean)) h hint r (if m.2 = wholeAtom then es else es.tail)

/-- The stack's queues drained and its rows closed, as it enters self-refresh. -/
def State.selfRefresh (s : State) (h : Nat) : State :=
  (s.drainQueue h (fun _ => true)).modStk h (fun k => { k with openRows := [] })

/-! ## Redirected pages (R185, R267) -/

/-- The pages that `n` bytes from a device address touch. -/
def pagesIn (a n : Nat) : List Nat := (List.range ((a + n - 1) / 4096 + 1 - a / 4096)).map (· + a / 4096)

/-- Copy a redirected page home and free its entry (R267): it is written there like any page, and a stack that is LOST takes
nothing (R185). -/
def State.copyHome (s : State) (page : Nat) : State :=
  match s.staged page with
  | none => s
  | some l =>
    let h := s.stackOf (page * 4096)
    let lost := decide (s.reg .HBM_STATE_STATE h = 5)
    let s := if lost then s
      else s.hbmAccept h 0 ((atomsOf (page * 4096 % s.stackE) 4096).map (fun t => (t, wholeAtom))) []
    State.dropPublished
    { s with hbm := if lost then s.hbm else memPut s.hbm (page * 4096) l,
             ctxs := s.ctxs.map (fun e => (e.1, { e.2 with grps := e.2.grps.map (fun g =>
               if g.st = .flipped ∨ g.st = .published then { g with pages := g.pages.filter (fun q => q.1 ≠ page) }
               else g) })) }

/-- The redirected pages that a write touches, copied home before it (R267). -/
def State.homeFirst (s : State) (a n : Nat) : State := if n = 0 then s else (pagesIn a n).foldl State.copyHome s

/-- A write to HBM: the pages it touches are copied home first where they are redirected, and a write to a page whose
entry is still inactive is counted for its group (R267, R271). -/
def State.hbmWrite (s : State) (a : Nat) (bytes : List Byte) : State :=
  if bytes.isEmpty then s
  else
    let pages := pagesIn a bytes.length
    let s := s.homeFirst a bytes.length
    let hit (g : Grp) : Bool := (decide (g.st = .open_) || decide (g.st = .closed)) && g.pages.any (fun q => pages.contains q.1)
    let s := s.ctxs.foldl (fun s e => s.bumpN .CTX_FIX_CONFLICT e.1 (e.2.grps.filter hit).length) s
    { s with hbm := memPut s.hbm a bytes }

/-! ## Accesses of the engines (R170, R175, R177, R178, R185) -/

/-- The atoms of the module, numbered from device address 0, that a range of device addresses touches. -/
def unitsOfHbm (a n : Nat) : List Nat := atomsOf a n

/-- Whether a read of a part of atom `u` needs the stack: its page is not redirected and the queued writes do not cover it. -/
def State.needsStack (s : State) (a n u : Nat) : Bool :=
  (s.staged (u / 64)).isNone &&
    decide (atomMask a n u &&& (s.stk (s.stackOf (u * 64))).covered (u * 64 % s.stackE / 64) ≠ atomMask a n u)

/-- The rank of the failure of an engine's read of a part of atom `u`, or none: a stack that refuses, an atom that is lost. -/
def State.unitBad (s : State) (a n u : Nat) (e : AtomEcc) : Option Nat :=
  let h := s.stackOf (u * 64)
  if s.stackRefuses h then some 4
  else if s.needsStack a n u && (s.poisoned h (u * 64 % s.stackE / 64) || e.ecc == .uncorrectable) then some 1
  else none

/-- An engine's read of a part of atom `u`: the row it opens, the corrections and detections it counts. -/
def State.seeUnit (s : State) (a n u : Nat) (e : AtomEcc) : State :=
  let h := s.stackOf (u * 64)
  if s.stackRefuses h || !s.needsStack a n u then s else (s.readAtom h 0 (u * 64 % s.stackE / 64) e).1

/-- The finding that a list gives each atom, in order; an atom beyond it is clean. -/
def withFindings : List Nat → List AtomEcc → List (Nat × AtomEcc)
  | [], _ => []
  | u :: r, es => (u, es.headD .clean) :: withFindings r es.tail

/-- An engine's read of HBM, with what the ECC finds in its atoms: the state after it, and the rank of its failure, if it
fails. -/
def State.hbmSeen (s : State) (a n : Nat) (es : List AtomEcc) : State × Option Nat :=
  let l := withFindings (unitsOfHbm a n) es
  (l.foldl (fun s u => s.seeUnit a n u.1 u.2) s, (l.filterMap (fun u => s.unitBad a n u.1 u.2)).min?)

/-- Bytes of HBM read by the module's own blocks; none where they cannot be read (R178, R185). -/
def State.hbmTake (s : State) (a n : Nat) : State × Option (List Byte) :=
  if s.hbmTop < a + n then (s, none)
  else
    let r := s.hbmSeen a n []
    (r.1, if r.2.isSome then none else some (s.hbmBytes a n))

/-- The atoms of a stack that a write of `n` bytes from a stack offset reaches, each with the mask of its bytes. -/
def atomMasks (o n : Nat) : List (Nat × Nat) := (atomsOf o n).map (fun t => (t, atomMask o n t))

/-- The part of a write that falls to one stack, which a stack that is LOST refuses (R178, R185): its pages come home first, and
its atoms enter their queues. -/
def State.hbmPutIn (s : State) (h a : Nat) (bytes : List Byte) : State :=
  let lo := max a (h * s.stackE)
  let hi := min (a + bytes.length) ((h + 1) * s.stackE)
  if s.stackRefuses h then s
  else ((s.homeFirst lo (hi - lo)).hbmAccept h 0 (atomMasks (lo - h * s.stackE) (hi - lo)) []).hbmWrite lo
    ((bytes.drop (lo - a)).take (hi - lo))

/-- An engine's write to HBM. -/
def State.hbmPut (s : State) (a : Nat) (bytes : List Byte) : State :=
  (s.stacksOf a bytes.length).foldl (fun s h => s.hbmPutIn h a bytes) s

end Sys2Proof.Machine
end

