-- ==== Sys2Proof/Machine/Flags.lean ====
section
/-! DEFINITION. The bits of NFLAGS (R59). Every operation on numbers answers its result with the bits it sets. -/

namespace Sys2Proof.Machine

/-- A set of NFLAGS bits. -/
abbrev NFlags := BitVec 32

/-- NFLAGS.NV (R50, R53). -/
def fNV : NFlags := 0x01
/-- NFLAGS.OF (R52). -/
def fOF : NFlags := 0x02
/-- NFLAGS.UF (R54, R56). -/
def fUF : NFlags := 0x04
/-- NFLAGS.ID (R41, R54). -/
def fID : NFlags := 0x08
/-- NFLAGS.IOV (R47, R52). -/
def fIOV : NFlags := 0x10
/-- NFLAGS.SCI (R36). -/
def fSCI : NFlags := 0x20
/-- NFLAGS.SCN (R39, R42). -/
def fSCN : NFlags := 0x40
/-- NFLAGS.FMT (R35, R48). -/
def fFMT : NFlags := 0x80

/-- The bits `f` where `b`, else none. -/
def fIf (b : Bool) (f : NFlags) : NFlags := if b then f else 0

end Sys2Proof.Machine
end

