-- ==== Sys2Proof/Machine/Num.lean ====
section
/-! DEFINITION. Exact numbers, the element formats and the one rounding (02: R33, R34, R39, R42 to R58). -/

namespace Sys2Proof.Machine

/-- An exact number: NaN, an infinity, or (-1)^neg × m × 2^e. A zero keeps its sign (R51). -/
inductive Num where
  | nan
  | inf (neg : Bool)
  | fin (neg : Bool) (m : Nat) (e : Int)
  deriving DecidableEq, Repr

/-- The formats of the tables Floating-point formats and Accumulator format, and the integers of R34. -/
inductive Fmt where
  | e4m3 | e5m2 | e2m3 | e3m2 | e2m1 | fp16 | bf16 | fp32 | ue4m3 | acc
  | int8 | mxint8 | int16 | int32
  deriving DecidableEq, Repr

/-- What a floating-point format is made of: exponent bits, mantissa bits, bias, code of the largest finite magnitude,
whether the all-ones exponent holds infinity and NaN, the canonical NaN (R49), whether it flushes subnormals (R54). -/
structure FmtInfo where
  eb : Nat
  mb : Nat
  bias : Int
  maxCode : Nat
  ieee : Bool
  nan : Option Nat
  flush : Bool
  deriving DecidableEq, Repr

/-- R33, R44, R49, R54; the integer formats have no such row. -/
def Fmt.info : Fmt → Option FmtInfo
  | .e4m3 => some ⟨4, 3, 7, 0x7E, false, some 0x7F, false⟩
  | .e5m2 => some ⟨5, 2, 15, 0x7B, true, some 0x7E, false⟩
  | .e2m3 => some ⟨2, 3, 1, 0x1F, false, none, false⟩
  | .e3m2 => some ⟨3, 2, 3, 0x1F, false, none, false⟩
  | .e2m1 => some ⟨2, 1, 1, 0x7, false, none, false⟩
  | .fp16 => some ⟨5, 10, 15, 0x7BFF, true, some 0x7E00, false⟩
  | .bf16 => some ⟨8, 7, 127, 0x7F7F, true, some 0x7FC0, true⟩
  | .fp32 => some ⟨8, 23, 127, 0x7F7FFFFF, true, some 0x7FC00000, true⟩
  | .ue4m3 => some ⟨4, 3, 7, 0x7E, false, some 0x7F, false⟩
  | .acc => some ⟨8, 31, 127, 0x7F7FFFFFFF, true, some 0x7FC0000000, true⟩
  | _ => none

/-- Bits of an element. -/
def Fmt.bits : Fmt → Nat
  | .e4m3 | .e5m2 | .ue4m3 | .int8 | .mxint8 => 8
  | .e2m3 | .e3m2 => 6
  | .e2m1 => 4
  | .fp16 | .bf16 | .int16 => 16
  | .fp32 | .int32 => 32
  | .acc => 40

/-- A `w`-bit two's-complement code as an integer. -/
def twos (w c : Nat) : Int := if c % 2 ^ w < 2 ^ (w - 1) then (c % 2 ^ w : Nat) else (c % 2 ^ w : Nat) - (2 ^ w : Nat)

/-- The `w`-bit two's-complement code of an integer. -/
def ofTwos (w : Nat) (x : Int) : Nat := (x % (2 ^ w : Nat)).toNat

/-- An integer as an exact number. -/
def Num.ofInt (x : Int) : Num := .fin (decide (x < 0)) x.natAbs 0

/-- Plus and minus zero. -/
def Num.zero (neg : Bool) : Num := .fin neg 0 0

/-- Whether a number is a zero of either sign. -/
def Num.isZero : Num → Bool
  | .fin _ 0 _ => true
  | _ => false

/-- The sign bit of a number that has one. -/
def Num.neg? : Num → Bool
  | .nan => false
  | .inf n => n
  | .fin n _ _ => n

/-- The number with its sign turned. -/
def Num.negate : Num → Num
  | .nan => .nan
  | .inf n => .inf (!n)
  | .fin n m e => .fin (!n) m e

/-- The magnitude. -/
def Num.abs : Num → Num
  | .nan => .nan
  | .inf _ => .inf false
  | .fin _ m e => .fin false m e

/-- The value of a magnitude code of a floating format, its sign given. Answers ID where a subnormal reads as zero (R54). -/
def decodeMag (f : FmtInfo) (neg : Bool) (c : Nat) : Num × NFlags :=
  let ex := c / 2 ^ f.mb
  let man := c % 2 ^ f.mb
  if ex = 0 then
    if man = 0 then (.zero neg, 0)
    else if f.flush then (.zero neg, fID)
    else (.fin neg man (1 - f.bias - f.mb), 0)
  else if f.ieee && ex == 2 ^ f.eb - 1 then (if man = 0 then .inf neg else .nan, 0)
  else if !f.ieee && f.nan.isSome && c == f.maxCode + 1 then (.nan, 0)
  else (.fin neg (2 ^ f.mb + man) ((ex : Int) - f.bias - f.mb), 0)

/-- The value of a code (R33, R34, R39, R44, R54). -/
def decodeNum (f : Fmt) (c : Nat) : Num × NFlags :=
  match f with
  | .int8 => (.ofInt (twos 8 c), 0)
  | .int16 => (.ofInt (twos 16 c), 0)
  | .int32 => (.ofInt (twos 32 c), 0)
  | .mxint8 => (.fin (decide (twos 8 c < 0)) (twos 8 c).natAbs (-6), 0)
  | .ue4m3 =>
    if 0x7F ≤ c % 256 then (.nan, 0)
    else match Fmt.info .ue4m3 with
      | some i => decodeMag i false (c % 256)
      | none => (.nan, 0)
  | f =>
    match f.info with
    | some i => decodeMag i (natBits c (i.eb + i.mb) 1 == 1) (c % 2 ^ (i.eb + i.mb))
    | none => (.nan, 0)

/-- The value of an E8M0 scale code (R42). -/
def decodeE8M0 (c : Nat) : Num := if c % 256 = 255 then .nan else .fin false 1 ((c % 256 : Nat) - 127)

/-- Both magnitudes brought to one exponent. -/
def alignNat (m₁ : Nat) (e₁ : Int) (m₂ : Nat) (e₂ : Int) : Nat × Nat × Int :=
  let e := min e₁ e₂
  (m₁ <<< (e₁ - e).toNat, m₂ <<< (e₂ - e).toNat, e)

/-- The signed magnitude. -/
def signed (neg : Bool) (m : Nat) : Int := if neg then -(m : Int) else m

/-- The exact sum; opposite infinities give NaN and NV (R49, R50, R51). -/
def addNum (a b : Num) : Num × NFlags :=
  match a, b with
  | .nan, _ => (.nan, 0)
  | _, .nan => (.nan, 0)
  | .inf x, .inf y => if x = y then (.inf x, 0) else (.nan, fNV)
  | .inf x, _ => (.inf x, 0)
  | _, .inf y => (.inf y, 0)
  | .fin n₁ m₁ e₁, .fin n₂ m₂ e₂ =>
    let (x, y, e) := alignNat m₁ e₁ m₂ e₂
    let t := signed n₁ x + signed n₂ y
    if t = 0 then (.zero (n₁ && n₂ && m₁ == 0 && m₂ == 0), 0)
    else (.fin (decide (t < 0)) t.natAbs e, 0)

/-- The exact product; zero times infinity gives NaN and NV (R49, R50). -/
def mulNum (a b : Num) : Num × NFlags :=
  match a, b with
  | .nan, _ => (.nan, 0)
  | _, .nan => (.nan, 0)
  | .inf x, .inf y => (.inf (x != y), 0)
  | .inf x, .fin n m _ => if m = 0 then (.nan, fNV) else (.inf (x != n), 0)
  | .fin n m _, .inf y => if m = 0 then (.nan, fNV) else (.inf (n != y), 0)
  | .fin n₁ m₁ e₁, .fin n₂ m₂ e₂ => (.fin (n₁ != n₂) (m₁ * m₂) (e₁ + e₂), 0)

/-- The quotient with 80 bits or more and a last bit that is 1 where a remainder is left, so that rounding it once is
rounding the exact quotient once (R55). Zero by zero and infinity by infinity give NaN and NV (R50). -/
def divNum (a b : Num) : Num × NFlags :=
  match a, b with
  | .nan, _ => (.nan, 0)
  | _, .nan => (.nan, 0)
  | .inf _, .inf _ => (.nan, fNV)
  | .inf x, .fin n _ _ => (.inf (x != n), 0)
  | .fin n _ _, .inf y => (.zero (n != y), 0)
  | .fin n₁ m₁ e₁, .fin n₂ m₂ e₂ =>
    if m₂ = 0 then (if m₁ = 0 then (.nan, fNV) else (.inf (n₁ != n₂), 0))
    else
      let k := 80 + m₂.log2
      let q := (m₁ <<< k) / m₂
      let r := (m₁ <<< k) % m₂
      (.fin (n₁ != n₂) (2 * q + if r = 0 then 0 else 1) (e₁ - e₂ - k - 1), 0)

/-- Whether a is below b, zeros equal (R51); false with a NaN. -/
def ltNum (a b : Num) : Bool :=
  match a, b with
  | .nan, _ => false
  | _, .nan => false
  | .inf x, .inf y => x && !y
  | .inf x, .fin _ _ _ => x
  | .fin _ _ _, .inf y => !y
  | .fin n₁ m₁ e₁, .fin n₂ m₂ e₂ =>
    let (x, y, _) := alignNat m₁ e₁ m₂ e₂
    decide (signed n₁ x < signed n₂ y)

/-- Whether a and b compare equal, zeros equal (R51); false with a NaN. -/
def eqNum (a b : Num) : Bool :=
  match a, b with
  | .nan, _ => false
  | _, .nan => false
  | a, b => !ltNum a b && !ltNum b a

/-- Whether a is below b with −0 below +0 (R51). -/
def ltZ (a b : Num) : Bool :=
  ltNum a b || (a.isZero && b.isZero && a.neg? && !b.neg?)

/-- The smaller, −0 below +0; NaN with a NaN (R49, R51). -/
def minNum (a b : Num) : Num :=
  match a, b with
  | .nan, _ => .nan
  | _, .nan => .nan
  | a, b => if ltZ b a then b else a

/-- The larger, −0 below +0; NaN with a NaN (R49, R51). -/
def maxNum (a b : Num) : Num :=
  match a, b with
  | .nan, _ => .nan
  | _, .nan => .nan
  | a, b => if ltZ a b then b else a

/-- How a conversion rounds: to nearest even, down in magnitude, or stochastically with the generator's 16 bits (R57). -/
inductive Rnd where
  | rne
  | down
  | sr (r : Nat)
  deriving DecidableEq, Repr

/-- `m × 2^-sh` rounded to an integer. -/
def roundShift (rnd : Rnd) (m sh : Nat) : Nat :=
  let n := m / 2 ^ sh
  let rem := m % 2 ^ sh
  match rnd with
  | .rne => if 2 ^ sh < 2 * rem ∨ (2 ^ sh = 2 * rem ∧ n % 2 = 1) then n + 1 else n
  | .down => n
  | .sr r => if r < rem * 65536 / 2 ^ sh then n + 1 else n

/-- The magnitude code of m × 2^e, m not zero, the format's exponents taken to continue upward (R52, R55, R57). -/
def magCode (i : FmtInfo) (rnd : Rnd) (m : Nat) (e : Int) : Nat :=
  let top := max ((m.log2 : Int) + e) (1 - i.bias)
  let q := top - i.mb
  let n := if q ≤ e then m <<< (e - q).toNat else roundShift rnd m (q - e).toNat
  ((top + i.bias - 1) * (2 ^ i.mb : Nat) + n).toNat

/-- The value at which an overflow lands (R52), as a magnitude code. -/
def overflowCode (f : Fmt) (i : FmtInfo) (ovf : Bool) : Nat :=
  if i.ieee then (if ovf && f != .acc then i.maxCode else i.maxCode + 1)
  else match i.nan with
    | some n => if ovf then n else i.maxCode
    | none => i.maxCode

/-- Whether the canonical NaN is where an overflow lands, which then carries no sign (R49). -/
def overflowIsNan (i : FmtInfo) (ovf : Bool) : Bool := !i.ieee && i.nan.isSome && ovf

/-- The sign bit of a format: none for UE4M3. -/
def signCode (f : Fmt) (i : FmtInfo) (neg : Bool) : Nat :=
  if f = .ue4m3 then 0 else if neg then 2 ^ (i.eb + i.mb) else 0

/-- A value rounded once into a floating-point format: the code and the flags (R49 to R57). `narrow` says that an
infinite input counts as an overflowing value (R52). -/
def encodeFloat (f : Fmt) (i : FmtInfo) (rnd : Rnd) (ovf narrow : Bool) (x : Num) : Nat × NFlags :=
  match x with
  | .nan => match i.nan with
    | some n => (n, 0)
    | none => (0, fNV)
  | .inf neg =>
    if f = .ue4m3 ∧ neg then (0x7F, fNV)
    else if narrow || !i.ieee then
      ((if overflowIsNan i ovf then 0 else signCode f i neg) + overflowCode f i ovf, fOF)
    else (signCode f i neg + (i.maxCode + 1), 0)
  | .fin neg m e =>
    if m = 0 then (signCode f i neg, 0)
    else if f = .ue4m3 ∧ neg then (0x7F, fNV)
    else if i.flush ∧ (m.log2 : Int) + e < 1 - i.bias then (signCode f i neg, fUF)
    else
      let c := magCode i rnd m e
      let exactMax := i.nan.isNone && ltNum ((decodeMag i false i.maxCode).1) (.fin false m e)
      if i.maxCode < c ∨ exactMax then
        ((if overflowIsNan i ovf then 0 else signCode f i neg) + overflowCode f i ovf, fOF)
      else (signCode f i neg + c, 0)

/-- A value saturated and rounded into `w` bits of two's complement (R47, R52, R53): IOV where the value before rounding
lies outside the range. -/
def encodeInt (w : Nat) (rnd : Rnd) (x : Num) : Nat × NFlags :=
  let lo : Int := -((2 ^ (w - 1) : Nat) : Int)
  let hi : Int := ((2 ^ (w - 1) : Nat) : Int) - 1
  match x with
  | .nan => (0, fNV)
  | .inf neg => (ofTwos w (if neg then lo else hi), fIOV)
  | .fin neg m e =>
    let v : Num := .fin neg m e
    if ltNum v (.ofInt lo) then (ofTwos w lo, fIOV)
    else if ltNum (.ofInt hi) v then (ofTwos w hi, fIOV)
    else
      let n := if 0 ≤ e then m <<< e.toNat else roundShift rnd m (-e).toNat
      (ofTwos w (signed neg n), 0)

/-- A value rounded once into a format. Stochastic rounding acts only on E4M3 and E5M2 (R57). -/
def encodeNum (f : Fmt) (rnd : Rnd) (ovf narrow : Bool) (x : Num) : Nat × NFlags :=
  let r := if f = .e4m3 ∨ f = .e5m2 then rnd else .rne
  match f with
  | .int8 | .mxint8 => encodeInt 8 r x
  | .int16 => encodeInt 16 r x
  | .int32 => encodeInt 32 r x
  | f => match f.info with
    | some i => encodeFloat f i r ovf narrow x
    | none => (0, 0)

/-- A value rounded to nearest even to the accumulator format (R45): its 40-bit code. -/
def accRound (x : Num) : BitVec 40 × NFlags :=
  let r := encodeNum .acc .rne false false x
  (BitVec.ofNat 40 r.1, r.2)

/-- The value of an accumulator code (R44). -/
def accValue (c : BitVec 40) : Num := (decodeNum .acc c.toNat).1

/-- An integer saturated to 40 bits (R47). -/
def sat40 (x : Int) : Int × NFlags :=
  if x < -(2 ^ 39) then (-(2 ^ 39), fIOV) else if 2 ^ 39 - 1 < x then (2 ^ 39 - 1, fIOV) else (x, 0)

/-- One advance of the rounding generator G (R58). -/
def advanceG (g : BitVec 32) : BitVec 32 :=
  let a := g ^^^ (g <<< 13)
  let b := a ^^^ (a >>> 17)
  b ^^^ (b <<< 5)

/-- Fraction bits of the fixed-point approximations below. -/
def fixBits : Nat := 96

/-- ln 2 with `fixBits` fraction bits, rounded down. -/
def ln2Fix : Nat := 54916777467707473351141471128

/-- The Taylor sum of e^y for a fixed-point y in [0, 1), `n` terms, from the innermost outward. -/
def expFix (y : Nat) : Nat → Nat → Nat
  | 0, _ => 2 ^ fixBits
  | n + 1, k => 2 ^ fixBits + y * expFix y n (k + 1) / ((k + 1) * 2 ^ fixBits)

/-- 2^f for a fixed-point f in [0, 1), as a fixed-point number in [1, 2). -/
def exp2Frac (f : Nat) : Nat := if f = 0 then 2 ^ fixBits else expFix (f * ln2Fix / 2 ^ fixBits) 32 0

/-- The integer square root, bit by bit from bit `n - 1`. -/
def isqrt (v : Nat) : Nat → Nat → Nat
  | 0, r => r
  | n + 1, r => let t := r + 2 ^ n; isqrt v n (if t * t ≤ v then t else r)

/-- A special function's value, known to lie at or just above m × 2^e, and exactly there when `exact`. -/
structure Approx where
  m : Nat
  e : Int
  exact_ : Bool
  deriving DecidableEq, Repr

/-- exp2 of a finite number, its magnitude below 2^16. -/
def exp2Approx (neg : Bool) (m : Nat) (e : Int) : Approx :=
  let x : Int := if 0 ≤ e + fixBits then signed neg (m <<< (e + fixBits).toNat)
    else if neg then -(((m + 2 ^ (-(e + fixBits)).toNat - 1) >>> (-(e + fixBits)).toNat : Nat) : Int)
    else ((m >>> (-(e + fixBits)).toNat : Nat) : Int)
  let k := x / (2 ^ fixBits : Nat)
  let f := (x % (2 ^ fixBits : Nat)).toNat
  let lost := decide (e + fixBits < 0) && (m % 2 ^ (-(e + fixBits)).toNat != 0)
  ⟨exp2Frac f, k - fixBits, f == 0 && !lost⟩

/-- The reciprocal of m × 2^e, m not zero. -/
def rcpApprox (m : Nat) (e : Int) : Approx :=
  let k := 64 + m.log2
  ⟨2 ^ k / m, -e - k, 2 ^ k % m == 0⟩

/-- The reciprocal square root of m × 2^e, m not zero. -/
def rsqApprox (m : Nat) (e : Int) : Approx :=
  let m' := if e % 2 = 0 then m else 2 * m
  let e' := if e % 2 = 0 then e else e - 1
  let k := 64 + m'.log2
  let v := 2 ^ (2 * k) / m'
  let r := isqrt v (k + 2) 0
  ⟨r, -(e' / 2) - k, r * r * m' == 2 ^ (2 * k)⟩

/-- A special function's result in a lane format (R56): the free value `fr` picks one among the codes the accuracy
allows, 2 units in the last place for FP32 and a faithful rounding for BF16 and FP16. A result above the largest finite
number always overflows, and one within the range never does (DEDUCED, log 10). -/
def approxCode (f : Fmt) (i : FmtInfo) (neg : Bool) (a : Approx) (fr : Nat) : Nat × NFlags :=
  if i.flush ∧ (a.m.log2 : Int) + a.e < 1 - i.bias then (signCode f i neg, fUF)
  else
    let c := magCode i .down a.m a.e
    let onGrid := a.exact_ && eqNum (decodeMag i false c).1 (.fin false a.m a.e)
    let d : Int := if f = .fp32 then (if onGrid then (fr % 5 : Nat) - 2 else (fr % 4 : Nat) - 1)
      else (if onGrid then 0 else (fr % 2 : Nat))
    let lo : Int := if i.flush then (2 ^ i.mb : Nat) else 0
    if i.maxCode < c ∨ (c = i.maxCode ∧ onGrid = false) then (signCode f i neg + (i.maxCode + 1), fOF)
    else (signCode f i neg + min i.maxCode (max lo ((c : Int) + d)).toNat, 0)

/-- exp2 in a lane format, over its special cases (R56). -/
def exp2Num (f : Fmt) (i : FmtInfo) (x : Num) (fr : Nat) : Nat × NFlags :=
  match x with
  | .nan => (i.nan.getD 0, 0)
  | .inf true => (0, 0)
  | .inf false => (i.maxCode + 1, 0)
  | .fin neg m e =>
    if m = 0 then approxCode f i false ⟨1, 0, true⟩ fr
    else if 15 ≤ (m.log2 : Int) + e then (if neg then (0, fIf i.flush fUF) else (i.maxCode + 1, fOF))
    else approxCode f i false (exp2Approx neg m e) fr

/-- The reciprocal in a lane format (R56). -/
def rcpNum (f : Fmt) (i : FmtInfo) (x : Num) (fr : Nat) : Nat × NFlags :=
  match x with
  | .nan => (i.nan.getD 0, 0)
  | .inf n => (signCode f i n, 0)
  | .fin n m e => if m = 0 then (signCode f i n + (i.maxCode + 1), 0) else approxCode f i n (rcpApprox m e) fr

/-- The reciprocal square root in a lane format (R50, R56). -/
def rsqNum (f : Fmt) (i : FmtInfo) (x : Num) (fr : Nat) : Nat × NFlags :=
  match x with
  | .nan => (i.nan.getD 0, 0)
  | .inf true => (i.nan.getD 0, fNV)
  | .inf false => (0, 0)
  | .fin n m e =>
    if m = 0 then (signCode f i n + (i.maxCode + 1), 0)
    else if n then (i.nan.getD 0, fNV)
    else approxCode f i false (rsqApprox m e) fr

end Sys2Proof.Machine
end

