-- ==== Sys2Proof/Machine/CoreSeq.lean ====
section
/-! DEFINITION. The core sequencer: issue, interlocks, loops, and the shared operations of the core families (04, R73, R79 to R82). -/

namespace Sys2Proof.Machine

/-! ## Loops (R104 to R107) -/

/-- The loop record of lc0 or lc1. -/
def Core.lp (k : Core) (one : Bool) : LoopRec := if one then k.l1 else k.l0

/-- The core with a loop record replaced. -/
def Core.setLp (k : Core) (one : Bool) (l : LoopRec) : Core := if one then { k with l1 := l } else { k with l0 := l }

/-- A loop that closes: its counter becomes 0. -/
def LoopRec.closed (l : LoopRec) : LoopRec := { l with cnt := 0, active := false }

/-- The back-edge of one loop at the instruction `p`, unless an earlier one has taken the next instruction (R104, R106). -/
def Core.backEdge (k : Core) (p : Nat) (done one : Bool) : Core × Bool :=
  let l := k.lp one
  if done || !l.active || l.stop != p then (k, done)
  else if 1 < l.cnt.toNat then
    ({ k.setLp one { l with cnt := l.cnt - 1 } with pc := l.start, rrb := if l.rot then k.rrb + 1 else k.rrb }, true)
  else (k.setLp one l.closed, false)

/-- The core past the instruction `p`: the inner back-edge first, then the outer (R104, R105). The PC has 8 bits (R87), so
word 0 follows word 255 (DEDUCED, log 12). -/
def Core.past (k : Core) (p : Nat) : Core :=
  let inner := decide (k.l0.start ≤ k.l1.start)
  let r := { k with pc := (p + 1) % 256 }.backEdge p false inner
  (r.1.backEdge p r.2 (!inner)).1

/-- The core past the instruction at PC. -/
def Core.next (k : Core) : Core := k.past k.pc

/-- The stage of the instruction at PC under an active rotating loop, and the pass counted from 0 (R107). -/
def LoopRec.suppresses (l : LoopRec) (pc : Nat) : Bool :=
  l.active && l.rot && decide (l.start ≤ pc) && decide (pc ≤ l.stop) &&
    (let s := natBits l.map.toNat (2 * (pc - l.start)) 2
     let p : Int := l.n.toNat + l.stg - l.cnt.toNat
     !(decide (s ≤ l.stg) && decide ((s : Int) ≤ p) && decide (p ≤ s + l.n.toNat - 1)))

/-- Whether stage predication suppresses the instruction at PC. -/
def Core.suppressed (k : Core) : Bool := k.l0.suppresses k.pc || k.l1.suppresses k.pc

/-! ## Interlocks (R88, R90) -/

/-- The register a write that has not happened yet goes to. -/
def Wb.reg : Wb → RegName
  | .vec p _ _ _ => .v p
  | .gen r _ => .g r

/-- The vector register a queued drain writes. -/
def SqE.writes (e : SqE) : List RegName := if opc e.word = 0x1A then [.v e.phys] else []

/-- The registers a queued matrix instruction reads. -/
def SqE.reads (e : SqE) : List RegName :=
  if opc e.word = 0x1A then [.g (gReg (wf e.word 7 4))] else if opc e.word = 0x1B then [.v e.phys] else []

/-- Whether a queued matrix instruction still reads operands from the scratchpad. -/
def SqE.readsRows (e : SqE) : Bool := opc e.word == 0x18 || opc e.word == 0x19

/-- Whether a stream's scheme and operation read scale codes (R36, R93): a native pass of another operation than MAC is
unscaled. -/
def scaledPass (sch op : Nat) : Bool := sch == 2 || sch == 3 || (sch == 0 && op == 0)

/-- The address registers that a queued matrix instruction has still to advance: a scheme without scales does not advance
its scale register (R88, R93). -/
def SqE.advances (e : SqE) : List Nat :=
  let w := e.word
  if opc w = 0x18 then (if scaledPass (wf w 17 3) 0 then [wf w 23 3, wf w 20 3] else [wf w 23 3])
  else if opc w = 0x19 then (if scaledPass (wf w 11 3) (wf w 4 3) then [wf w 17 3, wf w 14 3] else [wf w 17 3])
  else []

/-- The registers that earlier instructions have not finished writing. -/
def Core.unfinished (k : Core) : List RegName := k.late ++ k.wb.map Wb.reg ++ k.sq.flatMap SqE.writes

/-- Whether an instruction waits at issue under R88 or R90. -/
def Core.hazard (k : Core) (w : W32) : Bool :=
  let wr := wordWrites k.rrb w
  let named := wordReads k.rrb w ++ wr
  let queuedReads := k.sq.flatMap SqE.reads
  let queuedAregs := k.sq.flatMap SqE.advances
  named.any (fun r => k.unfinished.contains r) || wr.any (fun r => queuedReads.contains r) ||
    (wordAregs w).any (fun a => queuedAregs.contains a) ||
    ([0x15, 0x16, 0x17].contains (opc w) && k.sq.any SqE.readsRows)

/-! ## Issue -/

/-- What the sequencer can do in a step with the word at PC. -/
inductive Grant where
  /-- Nothing: the core does not run, or the word is another's. -/
  | no
  | wait
  /-- Suppressed by its stage: it takes its issue step (R107). -/
  | skip
  | fault (cause : Nat)
  | go (w : W32)
  deriving DecidableEq, Repr

/-- What the sequencer can do in a step with opcode `o` (R73, R88, R94, R95, R107). Opcode 0 stands for the reserved
opcodes too, and for a PC beyond the program, which fault. An encoding that R95 reserves faults in the step in which it would
issue, whatever registers it names: it does not first wait under R88 (DESIGN CHOICE, log 12). -/
def Core.grant (k : Core) (o : Nat) : Grant :=
  match k.run, k.stop with
  | .running, .taken _ _ => .no
  | .running, _ =>
    if k.waits.contains .seq || k.deferred.contains .seq then .no
    else if k.plen ≤ k.pc then (if o = 0 then .fault 7 else .no)
    else
      let w := vget k.ibuf k.pc 0
      if opc w ≠ o ∧ ¬(o = 0 ∧ listedOpcode (opc w) = false) then .no
      else if k.suppressed then .skip
      else if reservedField w then .fault 5
      else if k.hazard w then .wait
      else .go w
  | _, _ => .no

/-- One step of the sequencer: STEPS counts it, and results of latency 2 become available (R87, R89). -/
def Core.tick (k : Core) : Core := { k with steps := k.steps + 1, late := [] }

/-- A step of the sequencer with opcode `o`, its effect `act` in the case that it issues. -/
def State.issue (s : State) (c o : Nat) (act : W32 → State → State) : State :=
  if s.braked c then s
  else match (s.core c).grant o with
    | .no => s
    | .wait => s.modCore c Core.tick
    | .skip => s.modCore c (fun k => k.tick.next)
    | .fault f => (s.modCore c Core.tick).fault c f
    | .go w => act w (s.modCore c Core.tick)

/-- An instruction that acts on its core alone and then passes on. -/
def State.issueCore (s : State) (c o : Nat) (f : W32 → Core → Core) : State :=
  s.issue c o (fun w s => s.modCore c (fun k => (f w k).next))

/-! ## Registers of a core -/

/-- A general register. -/
def Core.greg (k : Core) (n : Nat) : W32 := vget k.g n 0

/-- The core with a general register written. -/
def Core.setG (k : Core) (n : Nat) (x : W32) : Core := { k with g := vset k.g n x }

/-- An address register. -/
def Core.areg (k : Core) (n : Nat) : W32 := vget k.a n 0

/-- The core with an address register written. -/
def Core.setA (k : Core) (n : Nat) (x : W32) : Core := { k with a := vset k.a n x }

/-- The vector register under name vn (R106). -/
def Core.vreg (k : Core) (n : Nat) : VReg := k.v.get (physReg k.rrb n)

/-- The core with the register under name vn written. -/
def Core.setV (k : Core) (n : Nat) (x : VReg) : Core :=
  let p := physReg k.rrb n
  { k with v := k.v.set p.val x p.isLt }

/-- NFLAGS with bits set (R59). -/
def Core.flag (k : Core) (f : NFlags) : Core := { k with nflags := k.nflags ||| f }

/-- A result of latency 2 in a register (R89). -/
def Core.lateG (k : Core) (n : Nat) : Core := { k with late := .g (gReg n) :: k.late }

/-- A result of latency 2 in a vector register. -/
def Core.lateV (k : Core) (n : Nat) : Core := { k with late := .v (physReg k.rrb n) :: k.late }

/-- The core without the waits of one party. -/
def Core.unwait (k : Core) (w : Waiter) : Core :=
  { k with waits := k.waits.filter (· != w), deferred := k.deferred.filter (· != w) }

/-- A party that waits on a tag (R119). -/
def Core.waitOn (k : Core) (w : Waiter) : Core :=
  if k.waits.contains w then k else { k with waits := k.waits ++ [w] }

/-- A party that lost its row's arbitration (R116). -/
def Core.defer (k : Core) (w : Waiter) : Core :=
  if k.deferred.contains w then k else { k with deferred := k.deferred ++ [w] }

/-- The tag of a row. -/
def Core.full (k : Core) (r : Nat) : Bool := vget k.tags r false

/-- The core with a row's tag set. -/
def Core.setTag (k : Core) (r : Nat) (full : Bool) : Core := { k with tags := vset k.tags r full }

/-- Whether the pre-emption mode of the context that holds the core is yield (R101). -/
def State.yieldMode (s : State) (c : Nat) : Bool :=
  match s.holder c with
  | some x => s.regB .CTX_PREEMPT_MODE x
  | none => false

/-- A stop takes effect: what has not issued stays recorded, waiting accesses issue again later (R79, R80). -/
def Core.takeStop (k : Core) (yielded : Bool) (dead : BitVec 4) : Core :=
  { (k.unwait .seq).unwait .stream with got := [], stop := .taken yielded dead }

/-- The packets of a core's outbound queue: those of its sends that have not left its port (R99). -/
def State.outbound (s : State) (c : Nat) : List Flight :=
  s.net.flights.filter (fun f => (decide (f.pkt.cmd = cWRITE) || decide (f.pkt.cmd = cTALLY)) &&
    decide (f.loc = .out (.core (BitVec.ofNat 20 c))))

end Sys2Proof.Machine
end

