-- ==== Sys2Proof/Machine/CoreMatrix.lean ====
section
/-! DEFINITION. The matrix engine of a core: its queue, stage A, stage C and the drain (02, R61 to R73, R81). -/

namespace Sys2Proof.Machine

/-! ## Schemes and formats (R35, R67, R68, R85, R93) -/

/-- The operand format codes. -/
def fmtOf (code : Nat) : Fmt :=
  match code with
  | 0 => .e4m3
  | 1 => .e5m2
  | 2 => .e2m3
  | 3 => .e3m2
  | 4 => .e2m1
  | 5 => .int8
  | 6 => .mxint8
  | 7 => .bf16
  | _ => .fp16

/-- Whether a scheme takes an operand format (R35). -/
def takesFmt (sch fmt : Nat) : Bool :=
  match sch with
  | 0 | 1 => decide (fmt ≤ 1)
  | 2 => decide (fmt ≤ 4)
  | 3 => decide (fmt = 6)
  | 4 => decide (fmt = 7) || decide (fmt = 8)
  | 5 => decide (fmt = 5)
  | _ => false

/-- Whether a pass is a listed combination; a native pass of another operation runs as unscaled FP8 (R35, R36). -/
def listedPass (sch sf tf op : Nat) : Bool :=
  takesFmt sch sf && takesFmt sch tf && (decide (op = 0) || decide (sch ≤ 1) || decide (sch = 5))

/-- Whether the scheme has scale codes (R67, R93). -/
def scaledScheme (sch : Nat) : Bool := sch == 0 || sch == 2 || sch == 3

/-- Bytes of a stream vector; `pair` says that both operands are MXFP4 (R68). -/
def vecBytes (sch fmt : Nat) (pair : Bool) : Nat :=
  if sch = 4 then 8
  else if sch = 2 then (if pair then 4 else if fmt = 2 ∨ fmt = 3 then 3 else if fmt = 4 then 2 else 4)
  else 4

/-- Vectors or tiles of a scale block (R93). -/
def perBlock (sch : Nat) (pair : Bool) : Nat := if sch = 0 ∨ (sch = 2 ∧ pair) then 4 else 8

/-- Element `k` of packed elements of a format (R66). -/
def packed (fmt : Nat) (x k : Nat) : Nat := natBits x ((fmtOf fmt).bits * k) (fmtOf fmt).bits

/-- A unit of `n` bytes of a row from byte `lo`; `fr` stands for bytes beyond the row's end, which no unit of R92 has. -/
def unitNat (r : Row) (lo n fr : Nat) : Nat :=
  if lo + n ≤ 64 then rowNat r lo n else rowNat r lo (64 - lo) + (fr % 2 ^ (8 * (lo + n - 64))) * 2 ^ (8 * (64 - lo))

/-! ## Scaled operands (R39, R40, R42) -/

/-- An operand as a cell takes it: its value with its scale applied, and whether the scale is zero or NaN. -/
structure Opnd where
  x : Num
  z : Bool
  n : Bool
  deriving DecidableEq, Repr

/-- The scale of a code in a scheme. -/
def scaleOf (sch code : Nat) : Num := if sch = 0 then (decodeNum .ue4m3 code).1 else decodeE8M0 code

/-- A scale that is NaN (R39, R42). -/
def nanScale (sch code : Nat) : Bool := decide (scaleOf sch code = .nan)

/-- An element under a scale code, or under none. -/
def opnd (fmt code : Nat) (scale : Option (Nat × Nat)) : Opnd :=
  let x := (decodeNum (fmtOf fmt) code).1
  match scale with
  | none => ⟨x, false, false⟩
  | some (sch, sc) => ⟨(mulNum x (scaleOf sch sc)).1, (scaleOf sch sc).isZero, nanScale sch sc⟩

/-- The operand of a latch of the zero tile (R63). -/
def zeroOpnd (scaled : Bool) : Opnd := ⟨.zero false, scaled, false⟩

/-- The product of two operands: a NaN scale outweighs a zero scale, which gives +0 (R39). -/
def prodOp (a b : Opnd) : Num × NFlags :=
  if a.n || b.n then (.nan, 0) else if a.z || b.z then (.zero false, 0) else mulNum a.x b.x

/-! ## Cells (R45 to R47, R69) -/

/-- A cell of a float scheme: exact, then rounded once (R45). `ps` are the pairs of the row: two for MXFP4 (R69). -/
def cellF (op : Nat) (ps : List (Opnd × Opnd)) (c : Num) : BitVec 40 × NFlags :=
  let hd := ps.headD (zeroOpnd false, zeroOpnd false)
  let r : Num × NFlags := match op with
    | 0 =>
      let prods := ps.map (fun q => prodOp q.1 q.2)
      (prods.drop 1).foldl (fun acc p => let t := addNum acc.1 p.1; (t.1, acc.2 ||| p.2 ||| t.2))
        (prods.headD (.zero false, 0)) |> fun t => let u := addNum t.1 c; (u.1, t.2 ||| u.2)
    | 1 => let d := addNum hd.1.x hd.2.x.negate; let t := addNum d.1.abs c; (t.1, d.2 ||| t.2)
    | 2 =>
      let d := addNum hd.1.x hd.2.x.negate
      let q := mulNum d.1 d.1
      let t := addNum q.1 c
      (t.1, d.2 ||| q.2 ||| t.2)
    | 3 => let d := addNum hd.1.x hd.2.x; (minNum d.1 c, d.2)
    | 4 => let d := addNum hd.1.x hd.2.x; (maxNum d.1 c, d.2)
    | _ => addNum (if ltNum hd.2.x hd.1.x then .fin false 1 0 else .zero false) c
  let a := accRound r.1
  (a.1, r.2 ||| a.2)

/-- The value entering the top of a column (R45). -/
def topF (op : Nat) : Num := if op = 3 then .inf false else if op = 4 then .inf true else .zero false

/-- A cell of the integer scheme (R47). -/
def cellI (op : Nat) (a b c : Int) : Int × NFlags :=
  sat40 (match op with
    | 0 => a * b + c
    | 1 => (a - b).natAbs + c
    | 2 => (a - b) * (a - b) + c
    | 3 => min (a + b) c
    | 4 => max (a + b) c
    | _ => (if b < a then 1 else 0) + c)

/-- The top value of the integer scheme (R47). -/
def topI (op : Nat) : Int := if op = 3 then 2 ^ 39 - 1 else if op = 4 then -(2 ^ 39) else 0

/-! ## The tile and a pass (R62, R63, R65) -/

/-- Whether a tile has been loaded since the program load (R85). -/
def Core.tileValid (k : Core) : Bool := k.tfmt.toNat / 128 == 1
/-- The tile's format code. -/
def Core.tileFmt (k : Core) : Nat := k.tfmt.toNat % 16
/-- The tile's scheme code. -/
def Core.tileSch (k : Core) : Nat := k.tfmt.toNat / 16 % 8

/-- Whether a stream's vectors under the present tile are pairs of MXFP4 (R68, R69). The zero tile has no format, so
there the free value decides. -/
def Core.pairPass (k : Core) (sch fmt fr : Nat) : Bool :=
  sch == 2 && fmt == 4 && (if k.tileValid then k.tileSch == 2 && k.tileFmt == 4 else fr % 2 == 1)

/-- The latch operand of row `i`, column `j`; of a pair, its element `e` (R66). -/
def Core.latch (k : Core) (scaled pair : Bool) (i j e : Nat) : Opnd :=
  if k.tileValid then
    opnd k.tileFmt (packed k.tileFmt k.tile.toNat (if pair then 8 * i + 2 * j + e else 4 * i + j))
      (if scaled then some (k.tileSch, natBits k.tscale.toNat (8 * j) 8) else none)
  else zeroOpnd scaled

/-- The float column results of a vector (R46 step 1). A native scaled pass of another operation than MAC runs unscaled on
both sides (R36; DEDUCED, log 10). -/
def Core.colF (k : Core) (sch fmt op : Nat) (pair : Bool) (x sc : Nat) (j : Nat) : BitVec 40 × NFlags :=
  let tile := scaledScheme sch && op == 0
  let strm (e : Nat) : Opnd := opnd fmt (packed fmt x e) (if tile then some (sch, sc) else none)
  (List.range 4).foldl (fun (acc : BitVec 40 × NFlags) i =>
    let ps := if pair then [(k.latch tile true i j 0, strm (2 * i)), (k.latch tile true i j 1, strm (2 * i + 1))]
      else [(k.latch tile false i j 0, strm i)]
    let r := cellF op ps (if i = 0 then topF op else accValue acc.1)
    (r.1, acc.2 ||| r.2)) (0, 0)

/-- The integer column results of a vector. -/
def Core.colI (k : Core) (op x j : Nat) : BitVec 40 × NFlags :=
  let r := (List.range 4).foldl (fun (acc : Int × NFlags) i =>
    let a : Int := if k.tileValid then twos 8 (natBits k.tile.toNat (8 * (4 * i + j)) 8) else 0
    let r := cellI op a (twos 8 (natBits x (8 * i) 8)) (if i = 0 then topI op else acc.1)
    (r.1, acc.2 ||| r.2)) (0, 0)
  (BitVec.ofNat 40 (ofTwos 40 r.1), r.2)

/-- How results of an operation combine with an entry (R46 step 2). -/
def howOf (op : Nat) : Nat := if op = 3 then 1 else if op = 4 then 2 else 0

/-- What a stream vector does in stages S and A: its column results and flags (R35, R36, R39, R42, R65). -/
def Core.pass (k : Core) (w : W32) (pair : Bool) (x sc : Nat) : ColRes × NFlags :=
  let sch := wf w 11 3
  let fmt := wf w 7 4
  let op := wf w 4 3
  let sci := fIf (sch = 0 && op != 0) fSCI
  let tf := if k.tileValid then k.tileFmt else fmt
  let tsch := if k.tileValid then k.tileSch else sch
  if tsch ≠ sch ∨ listedPass sch fmt tf op = false then (⟨wf w 2 2, false, 0, []⟩, sci ||| fFMT)
  else
    let n := if pair then 8 else 4
    let elemFlags := (List.range n).foldl (fun f e => f ||| (decodeNum (fmtOf fmt) (packed fmt x e)).2) (0 : NFlags)
    let scn := fIf (scaledScheme sch && op == 0 && nanScale sch sc) fSCN
    let rs := (List.range 4).map (fun j => if sch = 5 then k.colI op x j else k.colF sch fmt op pair x sc j)
    (⟨wf w 2 2, sch == 5, howOf op, rs.map (·.1)⟩, rs.foldl (fun f r => f ||| r.2) (sci ||| elemFlags ||| scn))

/-- A tile placed in the latches (R40, R62). The fine scales are applied here, so here alone a NaN scale code of the tile
sets SCN, and here alone a BF16 subnormal of the tile sets ID, once, not again with each stream that uses it (R39, R54; DESIGN
CHOICE, log 10). -/
def Core.place (k : Core) (sch fmt n x sc : Nat) : Core :=
  let elems := if takesFmt sch fmt then 8 * n / (fmtOf fmt).bits else 0
  let f := (List.range elems).foldl (fun f e => f ||| (decodeNum (fmtOf fmt) (packed fmt x e)).2) (0 : NFlags)
  let scn := fIf (scaledScheme sch && (List.range 4).any (fun j => nanScale sch (natBits sc (8 * j) 8))) fSCN
  { k.flag (f ||| scn) with tile := BitVec.ofNat 256 x,
                            tscale := if scaledScheme sch then BitVec.ofNat 32 sc else 0,
                            tfmt := BitVec.ofNat 8 (fmt + 16 * sch + 128) }

/-! ## The queue (R73, R79) -/

/-- A matrix instruction issued into the queue; the sequencer waits while it is full. -/
def Core.enqueue (k : Core) (w : W32) (n : Nat) : Core :=
  if 4 ≤ k.sq.length then k
  else
    let name := if opc w = 0x1A then fD w else if opc w = 0x1B then fD w else 0
    { k with sq := k.sq ++ [(⟨w, physReg k.rrb name, n⟩ : SqE)] }.next

/-- LDS (R62, R73). -/
def execLds (c : CoreAddr) (s : State) : Host.Outcome State Fault Refusal :=
  .next (s.issue c.toNat 0x18 (fun w s => s.modCore c.toNat (fun k => k.enqueue w 1)))

/-- STRM (R65, R73). -/
def execStrm (c : CoreAddr) (s : State) : Host.Outcome State Fault Refusal :=
  .next (s.issue c.toNat 0x19 (fun w s => s.modCore c.toNat (fun k => k.enqueue w (wf w 20 6 + 1))))

/-- DRN (R71, R73). -/
def execDrn (c : CoreAddr) (s : State) : Host.Outcome State Fault Refusal :=
  .next (s.issue c.toNat 0x1A (fun w s => s.modCore c.toNat (fun k => k.enqueue w 1)))

/-- ACCI (R72, R73). -/
def execAcci (c : CoreAddr) (s : State) : Host.Outcome State Fault Refusal :=
  .next (s.issue c.toNat 0x1B (fun w s => s.modCore c.toNat (fun k => k.enqueue w 1)))

/-- Whether a vector, tile or accumulate-in may enter stage A or C behind what the stages hold: one result in C, one in A
that cannot hand on (R61). -/
def Core.stageFree (k : Core) : Bool := decide (k.cPipe.length < 2)

/-- Whether the engines take their next handshakes: no brake, no fault, no stop that is taken (R80, R82, R83). -/
def State.engineRuns (s : State) (c : Nat) : Bool :=
  !s.braked c && decide ((s.core c).run = .running) &&
    (match (s.core c).stop with | .taken _ _ => false | _ => true)

/-! ## Stages R, S and A -/

/-- One operation of the queue's head as stages R to A see it: the word, whether it is a load-stationary, its two
address registers, the bytes its register moves past and those it takes, and whether it reads scale codes. -/
structure StreamOp where
  word : W32
  lds : Bool
  ai : Nat
  as_ : Nat
  sch : Nat
  fmt : Nat
  pair : Bool
  n : Nat
  take : Nat
  scaled : Bool
  t : Bool
  deriving DecidableEq, Repr

/-- What follows a load-stationary: a stream, which is one of MXFP4 vectors or not, another load, or nothing yet. -/
inductive Ahead where
  | stream (pair : Bool)
  | load
  | nothing
  deriving DecidableEq, Repr

/-- Whether a stream is one of MXFP4 vectors (R68). -/
def pairStream (w : W32) : Bool := wf w 11 3 == 2 && wf w 7 4 == 4

/-- The first stream or load in the queue behind a load-stationary (R68). -/
def pairAhead : List SqE → Ahead
  | [] => .nothing
  | e :: r =>
    if opc e.word = 0x18 then .load
    else if opc e.word = 0x19 then .stream (pairStream e.word)
    else pairAhead r

/-- The first stream or load among the instructions that the sequencer is still to issue, as far as the program alone says
which those are: up to a LOOP, a branch or the program's end. -/
def Core.pairSoon : Nat → Core → Ahead
  | 0, _ => .nothing
  | n + 1, k =>
    let w := vget k.ibuf k.pc 0
    if k.plen ≤ k.pc then .nothing
    else if k.suppressed then k.next.pairSoon n
    else if opc w = 0x18 then .load
    else if opc w = 0x19 then .stream (pairStream w)
    else if opc w = 0x10 ∨ opc w = 0x04 ∨ opc w = 0x12 then .nothing
    else k.next.pairSoon n

/-- Whether the pass that follows the load-stationary at the queue's head streams MXFP4 vectors; none where the program does
not tell (R67, R68). -/
def Core.nextPair (k : Core) (rest : List SqE) : Option Bool :=
  match pairAhead rest with
  | .stream b => some b
  | .load => none
  | .nothing => match k.pairSoon 256 with
    | .stream b => some b
    | .load => none
    | .nothing => none

/-- The operation at the head of the queue, if it is a stream's or a load-stationary. The stream operand of the next
pass decides how far an MXFP4 tile's register advances; where no such stream is queued or comes next in the program, the free
value `fr` stands for it (R67, R68; DESIGN CHOICE, log 13). -/
def Core.headOp (k : Core) (fr : Nat) : Option StreamOp :=
  match k.sq with
  | [] => none
  | e :: rest =>
    let w := e.word
    if opc w = 0x18 then
      let sch := wf w 17 3
      let fmt := wf w 13 4
      let known := k.nextPair rest
      let pair := sch == 2 && fmt == 4 && known.getD (fr % 2 == 1)
      some ⟨w, true, wf w 23 3, wf w 20 3, sch, fmt, pair, 4 * vecBytes sch fmt pair,
        if sch == 2 && fmt == 4 && known.isNone then 16 else 4 * vecBytes sch fmt pair, scaledScheme sch, wf w 12 1 == 1⟩
    else if opc w = 0x19 then
      let sch := wf w 11 3
      let fmt := wf w 7 4
      let pair := k.pairPass sch fmt fr
      some ⟨w, false, wf w 17 3, wf w 14 3, sch, fmt, pair, vecBytes sch fmt pair, vecBytes sch fmt pair,
        scaledPass sch (wf w 4 3), wf w 1 1 == 1⟩
    else none

/-- The rows an operation reads: its operand's and, with scales, its scale row (R61). -/
def Core.opRows (k : Core) (o : StreamOp) : List Nat :=
  let r := aRowOf (k.areg o.ai)
  let q := aRowOf (k.areg o.as_)
  if o.scaled && q != r then [r, q] else [r]

/-- The rows that stage R has still to read for an operation (R116). -/
def Core.rowsWanted (k : Core) (o : StreamOp) : List Nat := (k.opRows o).filter (fun r => !k.got.any (fun e => e.1 == r))

/-- A row that stage R has read. -/
def Core.gotRow (k : Core) (r : Nat) : Row := ((k.got.find? (fun e => e.1 == r)).map (·.2)).getD 0

/-- The queue after one operation of its head has entered stage A. -/
def advanceQueue (q : List SqE) : List SqE :=
  match q with
  | [] => []
  | e :: r => if e.left ≤ 1 then r else { e with left := e.left - 1 } :: r

/-- The operation enters stage A: the tile is placed, or the cells run; the registers advance (R92, R93), and rows it has
finished are released (R120): where operand and scale lie in one row, once the last unit of both is taken from it. An
MXFP4 tile whose pass the program does not tell yet takes the 16 bytes that a pass of MXFP4 vectors uses (DESIGN CHOICE,
log 13). -/
def Core.enterA (k : Core) (o : StreamOp) (row srow : Row) (fr : Nat) : Core :=
  let a := k.areg o.ai
  let sa := k.areg o.as_
  let x := unitNat row (aByte a) o.take fr
  let su := if o.lds then 4 else 1
  let sc := if o.scaled then rowNat srow (aStart sa su false) su else 0
  let r := aAdvance a o.n true
  let k1 := k.setA o.ai r.1
  let q := aScale (if o.as_ = o.ai then r.1 else sa) (perBlock o.sch o.pair) su
  let k2 := if o.scaled then k1.setA o.as_ q.1 else k1
  let both := o.scaled && aRowOf a == aRowOf sa
  let k3 := if o.t && r.2 && (!both || q.2) then k2.setTag (aRowOf a) false else k2
  let k4 := if o.t && o.scaled && q.2 && (!both || r.2) then k3.setTag (aRowOf sa) false else k3
  let k5 := { k4 with sq := advanceQueue k4.sq, got := [] }
  if o.lds then k5.place o.sch o.fmt o.n x sc
  else
    let p := k.pass o.word o.pair x sc
    { k5.flag p.2 with cPipe := k5.cPipe ++ [p.1] }

/-- Whether the tag of a row holds the operation at the head of the queue at stage R (R73, R119). -/
def Core.streamBlocked (k : Core) : Bool :=
  match k.headOp 0 with
  | none => false
  | some o => o.t && (k.rowsWanted o).any (fun r => !k.full r)

/-! ## Stage C (R46, R48, R72) -/

/-- A value combined with an entry: replaced where it is cleared, left unchanged and FMT where the modes differ. -/
def AccE.combine (e : AccE) (mode : Bool) (how : Nat) (x : BitVec 40) : AccE × NFlags :=
  if e.clr then (⟨x, mode, false⟩, 0)
  else if e.mode ≠ mode then (e, fFMT)
  else if mode then
    let a := twos 40 e.val.toNat
    let b := twos 40 x.toNat
    let r := if how = 1 then (min a b, 0) else if how = 2 then (max a b, 0) else sat40 (a + b)
    (⟨BitVec.ofNat 40 (ofTwos 40 r.1), mode, false⟩, r.2)
  else
    let a := accValue e.val
    let b := accValue x
    let v : Num × NFlags := if how = 1 then (minNum a b, 0) else if how = 2 then (maxNum a b, 0) else addNum a b
    let r := accRound v.1
    (⟨r.1, mode, false⟩, v.2 ||| r.2)

/-- One entry of the file combined with a value. -/
def Core.combineAt (k : Core) (i : Nat) (mode : Bool) (how : Nat) (x : BitVec 40) : Core :=
  let r := (vget k.acc i .cleared).combine mode how x
  { k.flag r.2 with acc := vset k.acc i r.1 }

/-- The column results of a vector into their group. -/
def Core.stageC (k : Core) (r : ColRes) : Core :=
  (List.range r.cols.length).foldl (fun k j => k.combineAt (4 * r.grp + j) r.mode r.how (r.cols.getD j 0)) k

/-- The value of an accumulator save word (R85): none where it is cleared. -/
def saveWord (x : Nat) : Option (Bool × BitVec 40) :=
  if natBits x 41 1 = 1 then none else some (natBits x 40 1 == 1, BitVec.ofNat 40 x)

/-- The four save words of ACCI into their group (R72). -/
def Core.acci (k : Core) (e : SqE) : Core :=
  let v := (k.v.get e.phys).toNat
  (List.range 4).foldl (fun k j => match saveWord (natBits v (64 * j) 64) with
    | none => k
    | some (m, x) => k.combineAt (4 * wf e.word 20 2 + j) m (wf e.word 18 2) x) k

/-- ACCUMULATOR_COMBINE (R46, R48, R72, R81): the oldest column results, or an ACCI at the queue's head. -/
def execAccumulatorCombine (c : CoreAddr) (parityOk : Bool) (s : State) : Host.Outcome State Fault Refusal :=
  .next (
    let k := s.core c.toNat
    if s.braked c.toNat ∨ k.run ≠ .running then s
    else match k.cPipe with
      | r :: rest =>
        if parityOk then s.setCore c.toNat ({ k with cPipe := rest }.stageC r) else s.fault c.toNat 1
      | [] => match k.sq with
        | e :: rest =>
          if opc e.word ≠ 0x1B ∨ s.engineRuns c.toNat = false then s
          else if parityOk then s.setCore c.toNat ({ k with sq := rest }.acci e) else s.fault c.toNat 1
        | [] => s)

/-! ## The drain (R41, R47, R71) -/

/-- The drain's output formats; RAW has none. -/
def drainFmt (o : Nat) : Option Fmt :=
  match o with
  | 0 => some .e4m3
  | 1 => some .e5m2
  | 2 => some .bf16
  | 3 => some .fp16
  | 4 => some .fp32
  | 5 => some .int32
  | _ => none

/-- The save word of an entry (R85). -/
def AccE.word (e : AccE) : Nat := if e.clr then 2 ^ 41 else e.val.toNat + (if e.mode then 2 ^ 40 else 0)

/-- An entry drained to a format: `sv` is the code of S, `rnd` the rounding (R41, R47, R55). -/
def AccE.drain (e : AccE) (f : Fmt) (sv : Nat) (rnd : Rnd) (ovf : Bool) : Nat × NFlags :=
  if e.clr then (0, 0)
  else
    let x : Num := if e.mode then .ofInt (twos 40 e.val.toNat) else accValue e.val
    if f = .int32 then encodeNum f .rne false true x
    else
      let sc := decodeNum .fp32 sv
      let p := mulNum x sc.1
      let r := encodeNum f rnd ovf true p.1
      (r.1, sc.2 ||| p.2 ||| r.2)

/-- The four elements of a drain, packed, with the generator and the flags after it (R57, R58, R71). -/
def Core.drainOut (k : Core) (w : W32) : Nat × W32 × NFlags :=
  let g := wf w 20 2
  let o := wf w 17 3
  let sr := wf w 11 1 == 1 && decide (o ≤ 1)
  match drainFmt o with
  | none => ((List.range 4).foldl (fun a j => a + (vget k.acc (4 * g + j) .cleared).word * 2 ^ (64 * j)) 0, k.rng, 0)
  | some f =>
    (List.range 4).foldl (fun (acc : Nat × W32 × NFlags) j =>
      let rng := if sr then advanceG acc.2.1 else acc.2.1
      let r := (vget k.acc (4 * g + j) .cleared).drain f (k.greg (wf w 7 4)).toNat
        (if sr then .sr (rng.toNat % 65536) else .rne) (wf w 12 1 == 1)
      (acc.1 + r.1 * 2 ^ (f.bits * j), rng, acc.2.2 ||| r.2)) (0, k.rng, 0)

/-- The drain at the head of the queue enters DR; its write waits for DW. -/
def Core.drainHead (k : Core) (e : SqE) (rest : List SqE) : Core :=
  let w := e.word
  let d := k.drainOut w
  let n := 8 * ofmtBytes (wf w 17 3)
  let acc := if wf w 13 1 = 1 then
    (List.range 4).foldl (fun a j => vset a (4 * wf w 20 2 + j) AccE.cleared) k.acc else k.acc
  { k.flag d.2.2 with sq := rest, rng := d.2.1, acc := acc,
                      wb := k.wb ++ [.vec e.phys (n * wf w 14 3) n d.1] }

/-- DRAIN_READ (R71, R81): after the last C step of its group. -/
def execDrainRead (c : CoreAddr) (parityOk : Bool) (s : State) : Host.Outcome State Fault Refusal :=
  .next (
    let k := s.core c.toNat
    match k.sq with
    | e :: rest =>
      if opc e.word ≠ 0x1A ∨ s.engineRuns c.toNat = false ∨ k.cPipe.any (fun r => r.grp == wf e.word 20 2) then s
      else if parityOk then s.setCore c.toNat (k.drainHead e rest) else s.fault c.toNat 1
    | [] => s)

/-- Whether some stage of an engine has a handshake to complete that counts: results on their way, or an operation at the
queue's head that no tag holds (R81, R122). -/
def Core.atWork (k : Core) : Bool :=
  !k.cPipe.isEmpty || !k.wb.isEmpty ||
    (!k.sq.isEmpty && (match k.stop with | .taken _ _ => false | _ => true) && !k.streamBlocked)

/-- STAGE_WATCHDOG_TIMEOUT (R81): a stage's handshake exceeds the limit. Under the brake the watchdog does not count. -/
def execStageWatchdogTimeout (c : CoreAddr) (s : State) : Host.Outcome State Fault Refusal :=
  .next (
    let d := dieOf c.toNat
    let k := s.core c.toNat
    if s.reg .YLD_STAGE_WDOG_LIMIT d = 0 ∨ s.braked c.toNat ∨ k.run ≠ .running ∨ k.atWork = false then s
    else
      let s := s.bump .YLD_STAGE_TMO_CNT_COUNT d
      if s.regB .YLD_STAGE_WDOG_REPORT_ONLY d then s else s.fault c.toNat 3)

end Sys2Proof.Machine
end

