-- ==== Sys2Proof/Machine/Access.lean ====
section
/-! DEFINITION. Who may reach a register, and what a refused access leaves (R16, R20, R21, R30, R219, R224, R225, R237, R257). -/

namespace Sys2Proof.Machine

/-! ## Ports -/

/-- A port. -/
def State.port (s : State) (p : Nat) : PortS := Tbl.getD s.ports p .reset

/-- The state with a port changed. -/
def State.modPort (s : State) (p : Nat) (f : PortS → PortS) : State :=
  { s with ports := Tbl.set s.ports p (f (s.port p)) }

/-- An access-violation count of a port (R20). -/
def State.violation (s : State) (p : Nat) : State := s.bump .PCI_ACC_VIOL_COUNT p

/-- An error logged by a port (R225). -/
def State.aer (s : State) (p : Nat) (e : AerErr) : State :=
  s.modPort p (fun q => if q.aer.contains e then q else { q with aer := q.aer ++ [e] })

/-- Unsupported Request: for a port an AER error, for firmware a bus error (R30, R225). -/
def State.unsupported (s : State) (src : Src) : State :=
  let s := s.send (.ur src)
  match src with
  | .port p => s.aer p .unsupported
  | .helm _ _ => s

/-- Completer Abort, or a bus error (R225, R371). -/
def State.completerAbort (s : State) (src : Src) : State :=
  let s := s.send (.ca src)
  match src with
  | .port p => s.aer p .abort
  | .helm _ _ => s

/-- Whether a port holds the setup lease (R227). -/
def State.holdsLease (s : State) (p : Nat) : Bool := s.reg .PKG_LEASE_HOLDER 0 == p + 1

/-- Whether the package is STOPPED (R256). -/
def State.pkgStopped (s : State) : Bool := s.reg .PKG_STATE_STATE 0 == 2

/-- Whether the start sequence runs (R393): its last phase has not ended. -/
def State.starting (s : State) : Bool := decide (s.reg .YLD_START_PHASE 0 < 10)

/-- Whether a port owns a context (R226). -/
def State.owns (s : State) (p x : Nat) : Bool := s.reg .CTX_STATE_OWNER x == p + 1

/-- The class of a writer that an RWL write needs (R17, R20). -/
def State.mayLease (s : State) (src : Src) : Bool :=
  match src with
  | .port p => s.holdsLease p && s.pkgStopped
  | .helm _ _ => s.starting


/-! ## Places of registers -/

/-- The die whose window holds an instance of a register. -/
def Rg.die (r : Rg) (inst : Nat) : Nat :=
  match r.info.scope with
  | .stk => inst / 2
  | .govstk => inst / 2
  | .ctx => 0
  | .d0 => 0
  | .id => 0
  | .clkout => 0
  | .die => inst
  | .gov => inst
  | .pri => inst
  | .port => inst

/-- The BAR0 offset of an element of an instance (R15, R29). -/
def Rg.offset (r : Rg) (inst elem : Nat) : Nat :=
  let i := r.info
  let sub := match i.scope with
    | .stk => inst % 2 * 0x80000
    | .govstk => inst % 2 * 0x80000
    | .ctx => inst * 0x400
    | _ => 0
  r.die inst * 0x2000000 + i.block + sub + i.off + i.stride * elem

/-- The bit of CLK_GATE of the block a register lies in, for blocks that can be gated (R370, R371). -/
def Rg.gateBit (r : Rg) (inst elem : Nat) : Option Nat :=
  let i := r.info
  if i.block = 0x0400000 then some (inst % 2)
  else if i.block = 0x0800000 then some 6
  else if i.block = 0x0500000 ∧ i.stride = 64 then some (2 + elem)
  else if i.block = 0x0500000 ∧ i.stride = 16 then some (2 + elem / 8)
  else none

/-- Bit `b` of CLK_GATE of a die. -/
def State.gateOn (s : State) (die b : Nat) : Bool :=
  if b < 2 then natBits (s.reg .CLK_GATE_HBM die) b 1 == 1
  else if b < 6 then natBits (s.reg .CLK_GATE_SALLAN die) (b - 2) 1 == 1
  else if b = 6 then s.regB .CLK_GATE_FAB die
  else if b = 7 then s.regB .CLK_GATE_MEAS die
  else s.regB .CLK_GATE_CLKOUT die

/-- A bit of CLK_GATE_ERR set (R371). -/
def State.gateErr (s : State) (die b : Nat) : State :=
  s.setReg .CLK_GATE_ERR_ERR die (natSet (s.reg .CLK_GATE_ERR_ERR die) b 1 1)

/-! ## Whether an access is carried out -/

/-- Where an access ends: it never happens, it is unsupported, it meets a gated block, its class forbids it, or it is
carried out. -/
inductive Verdict where
  | never
  | unsupported
  | gated (die bit : Nat)
  | denied
  | granted
  deriving DecidableEq, Repr

/-- Whether any request of a source reaches the block (R224, R230, R379). -/
def State.reaches (s : State) (src : Src) : Verdict :=
  match src with
  | .port p => if (s.port p).lost then .never
    else if !(s.port p).ready || (s.port p).flr then .unsupported else .granted
  | .helm d p => if s.dies ≤ d.val ∨ s.procRuns d p = false then .never else .granted

/-- Whether a register instance exists in this module (R16, R30). -/
def State.hasReg (s : State) (r : Rg) (inst elem : Nat) : Bool :=
  decide (r.die inst < s.dies) && decide (elem < r.info.count) &&
    (match r.info.scope with
     | .port => decide (inst < 2)
     | .pri => decide (inst < 2)
     | .ctx => decide (inst < 1024)
     | .stk => decide (inst < 16)
     | .govstk => decide (inst < 16)
     | .die => decide (inst < 8)
     | .gov => decide (inst < 8)
     | _ => decide (inst = 0))

/-- The class of an element: R388 divides INT_SRC. -/
def Rg.cls (r : Rg) (elem : Nat) : Cls :=
  if r.info.cls = .intSrc then (if elem < 0x1000 then .helm else .lease) else r.info.cls

/-- The context whose port owns an element of an Owner-class register. -/
def Rg.ownerCtx (r : Rg) (inst elem : Nat) : Nat := if r.info.scope = .ctx then inst else elem

/-- Whether a port owns an element of an Owner-class register (R20, R219). -/
def State.ownsReg (s : State) (p : Nat) (r : Rg) (inst elem : Nat) : Bool :=
  if r.info.scope = .port then inst == p else s.owns p (r.ownerCtx inst elem)

/-- Whether the class of a register admits an access (R20). -/
def State.classAdmits (s : State) (src : Src) (r : Rg) (inst elem : Nat) (write : Bool) : Bool :=
  match r.cls elem, src with
  | .open_, _ => true
  | .intSrc, _ => true
  | .owner, .port p => s.ownsReg p r inst elem
  | .owner, .helm _ _ => true
  | .lease, _ => !write || s.mayLease src
  | .helm, .port _ => !write
  | .helm, .helm _ _ => true

/-- How an access to a register ends. -/
def State.access (s : State) (src : Src) (r : Rg) (inst elem : Nat) (write : Bool) : Verdict :=
  match s.reaches src with
  | .granted =>
    if !s.hasReg r inst elem then .unsupported
    else match r.gateBit inst elem with
      | some b =>
        if !s.gateOn (r.die inst) b then .gated (r.die inst) b
        else if s.classAdmits src r inst elem write then .granted else .denied
      | none => if s.classAdmits src r inst elem write then .granted else .denied
  | v => v

/-- A refused write to an RWL field recorded in PKG_LWR_ERR (R257). -/
def State.lwrErr (s : State) (src : Src) (off : Nat) : State :=
  let n := match src with
    | .port p => p.val
    | .helm _ _ => 2
  ((s.setReg .PKG_LWR_ERR_OFFSET 0 off).setReg .PKG_LWR_ERR_SRC 0 n).bump .PKG_LWR_ERR_COUNT 0

/-- Whether an element holds RWL fields (R17, R388). -/
def Rg.hasRwl (r : Rg) (elem : Nat) : Bool :=
  r.fields.any (fun f => f.info.acc == .rwl) || (r.info.cls == .intSrc && decide (0x1000 ≤ elem))

/-- An access that its class forbids: counted for a port, and recorded with the offset of its first byte where it would write RWL
fields (R20, R257). -/
def State.deny (s : State) (src : Src) (r : Rg) (inst elem byte : Nat) (write : Bool) : State :=
  let s := match src with
    | .port p => s.violation p
    | .helm _ _ => s
  if write && r.hasRwl elem then s.lwrErr src (r.offset inst elem + byte) else s

/-- A register write carried out, or refused as its source and class require. -/
def State.writeAs (s : State) (src : Src) (r : Rg) (inst elem : Nat) (act : State → State) : State :=
  match s.access src r inst elem true with
  | .never => s
  | .unsupported => s.unsupported src
  | .gated d b => (s.completerAbort src).gateErr d b
  | .denied => s.deny src r inst elem 0 true
  | .granted => act s

/-! ## MSI-X and context events (R219, R222, R230, R246) -/

/-- The place of a vector in a port's MSI-X tables: the PF's, then each VF's four. -/
def msixKey (vf : Option Nat) (vec : Nat) : Nat :=
  match vf with
  | none => vec
  | some n => 4096 + 4 * n + vec

/-- An MSI-X entry; every Mask bit is 1 at reset. -/
def State.msixEntry (s : State) (p key : Nat) : BitVec 128 := Tbl.getD (s.port p).msix key (1 <<< 96)

/-- Whether a vector sends nothing: its entry is masked, or all of its function are, or the function may not use MSI-X at all; a
message is then noted in the pending-bit array (R219, R387; for MSI-X Enable DESIGN CHOICE, log 26). -/
def State.msixMasked (s : State) (p : Nat) (vf : Option Nat) (vec : Nat) : Bool :=
  (s.msixEntry p (msixKey vf vec)).getLsbD 96 || decide (Tbl.getD (s.port p).conf (.msixEnable vf) 0 ≠ 1) ||
    decide (Tbl.getD (s.port p).conf (.msixMask vf) 0 = 1)

/-- A bit of a port's pending-bit array set. -/
def PortS.note (q : PortS) (key : Nat) : PortS := if q.pba.contains key then q else { q with pba := key :: q.pba }

/-- A message of a vector: sent, or noted in the pending-bit array while it is masked. -/
def State.msix (s : State) (p : Nat) (vf : Option Nat) (vec : Nat) : State :=
  if s.msixMasked p vf vec then s.modPort p (fun q => q.note (msixKey vf vec)) else s.send (.msix p vf vec)

/-- A message that no context holds: the port keeps it until the link acknowledges it (R230, R387). -/
def State.portMsix (s : State) (p : Nat) (vf : Option Nat) (vec : Nat) : State :=
  if s.msixMasked p vf vec then s.msix p vf vec
  else (s.modPort p (fun q => { q with msgOut := q.msgOut ++ [(vf, vec)] })).msix p vf vec

/-- The port that owns a context, with none for a context nobody owns. -/
def State.ownerPort (s : State) (x : Nat) : Option Nat :=
  let o := s.reg .CTX_STATE_OWNER x
  if o = 0 then none else some (o - 1)

/-- The entry of a port's PCI_VF_CTX that names a context (R220). -/
def State.vfOf (s : State) (p x : Nat) : Option Nat :=
  (List.range 511).find? (fun i => s.regB .PCI_VF_CTX_VALID (p * 511 + i) && s.reg .PCI_VF_CTX_CTX (p * 511 + i) == x)

/-- Whether VF `i + 1` of a port exists (R222). -/
def State.vfExists (s : State) (p i : Nat) : Bool := (s.port p).vfEn && decide (i < (s.port p).numVfs)

/-- Whether the messages of a context are held: its link is lost, or its VF does not exist (R222, R230). -/
def State.msgHeld (s : State) (x : Nat) : Bool :=
  match s.ownerPort x with
  | none => false
  | some p => (s.port p).lost || (match s.vfOf p x with
    | some i => !s.vfExists p i
    | none => false)

/-- Whether a vector lies beyond the table of a context's function (R246). -/
def State.noVector (s : State) (x vec : Nat) : Bool :=
  match s.ownerPort x with
  | none => false
  | some p => if (s.vfOf p x).isSome then decide (4 ≤ vec) else decide (2048 ≤ vec)

/-- The message of a vector of a context's function, not acknowledged yet; `cq` says that it is the completion message. -/
def State.ctxVector (s : State) (x vec : Nat) (cq : Bool) : State :=
  match s.ownerPort x with
  | none => s
  | some p =>
    if s.msixMasked p (s.vfOf p x) vec then s.msix p (s.vfOf p x) vec
    else (s.modCtx x (fun t => { t with msgOut := t.msgOut ++ [cq] })).msix p (s.vfOf p x) vec

/-- A message of a context held in its order (R222, R230). -/
def State.holdMsg (s : State) (x : Nat) (cq : Bool) : State :=
  s.modCtx x (fun t => { t with pend := if t.pend.contains cq then t.pend else t.pend ++ [cq] })

/-- Whether a new message of a context is held, behind those that are (R222, R230). -/
def State.msgWaits (s : State) (x : Nat) : Bool := s.msgHeld x || !(s.ctx x).pend.isEmpty

/-- The event message of a context (R246). -/
def State.evMessage (s : State) (x : Nat) : State :=
  if s.noVector x (s.reg .CTX_MSIX_EV_VEC x) then s.setReg .CTX_EVENT_MSIX x 1
  else if s.msgWaits x then s.holdMsg x false
  else s.ctxVector x (s.reg .CTX_MSIX_EV_VEC x) false

/-- A bit of CTX_EVENT set; the message goes when it changes from 0 to 1 (R246). -/
def State.event (s : State) (f : Fld) (x : Nat) : State :=
  if s.regB f x then s else (s.setReg f x 1).evMessage x

/-- The completion message of a context, once until the next CQ_HEAD write (R246). -/
def State.cqMessage (s : State) (x : Nat) : State :=
  if (s.ctx x).cqMsg then s
  else if s.noVector x (s.reg .CTX_MSIX_CQ_VEC x) then s.event .CTX_EVENT_MSIX x
  else
    let s := s.modCtx x (fun t => { t with cqMsg := true })
    if s.msgWaits x then s.holdMsg x true else s.ctxVector x (s.reg .CTX_MSIX_CQ_VEC x) true

/-- A held message sent, or found to have no vector any more. -/
def State.releaseMsg (s : State) (x : Nat) (cq : Bool) : State :=
  let vec := s.reg (if cq then .CTX_MSIX_CQ_VEC else .CTX_MSIX_EV_VEC) x
  if s.noVector x vec then (if cq then s.event .CTX_EVENT_MSIX x else s.setReg .CTX_EVENT_MSIX x 1) else s.ctxVector x vec cq

/-- The held messages of a context sent once each, in their order; those of a PAUSED context wait for its resume (R222, R230). -/
def State.releaseMsgs (s : State) (x : Nat) : State :=
  if s.msgHeld x || s.reg .CTX_STATE_STATE x == 3 then s
  else (s.ctx x).pend.foldl (fun s cq => s.releaseMsg x cq) (s.modCtx x (fun t => { t with pend := [] }))

/-- Messages of a port itself that a lost link has cut off are noted as pending again (R230). -/
def State.portCut (s : State) (p : Nat) : State :=
  s.modPort p (fun q => { (q.msgOut.foldl (fun q m => q.note (msixKey m.1 m.2)) q) with msgOut := [] })

/-- Messages that a lost link has cut off are held again, before those held since (R230). -/
def State.msgsCut (s : State) (x : Nat) : State :=
  s.modCtx x (fun t => { t with msgOut := [], pend := (t.msgOut ++ t.pend).eraseDups })

/-! ## Stacks -/

/-- HBM_STATE.STATE of a stack, its change reported (R382). -/
def State.hbmState (s : State) (h v : Nat) : State :=
  if s.reg .HBM_STATE_STATE h = v then s else (s.setReg .HBM_STATE_STATE h v).raise (h / 2) (0x30 + h % 2)

end Sys2Proof.Machine
end

