-- ==== Sys2Proof/Machine/Interrupt.lean ====
section
/-! DEFINITION. The interrupt controllers: messages, claims, completions, delivery to hosts, sleep (R381 to R390). -/

namespace Sys2Proof.Machine

/-! ## Sources that are delivered (R385, R386) -/

/-- The local numbers of a die whose PEND is 1. -/
def State.pendingOf (s : State) (die : Nat) : List Nat :=
  s.regs.filterMap (fun e => if e.1.1 = .INT_SRC_PEND ∧ e.1.2 / 8192 = die ∧ e.2 = 1 then some (e.1.2 % 8192) else none)

/-- The private sources of a die whose PEND is 1, by processor × 256 + source. -/
def State.privOf (s : State) (die : Nat) : List Nat :=
  s.regs.filterMap (fun e => if e.1.1 = .INT_PRIV_PEND ∧ e.1.2 / 1024 = die ∧ e.2 = 1 then some (e.1.2 % 1024) else none)

/-- Whether a shared source is delivered to its target, were the target there. -/
def State.armed (s : State) (die n : Nat) : Bool :=
  s.regB .INT_SRC_PEND (die * 8192 + n) && s.regB .INT_SRC_EN (die * 8192 + n) && !s.regB .INT_SRC_ACTIVE (die * 8192 + n)

/-- Whether a private source is delivered. -/
def State.privArmed (s : State) (die n : Nat) : Bool :=
  let i := die * 1024 + n
  s.regB .INT_PRIV_PEND i && s.regB .INT_PRIV_EN i && !s.regB .INT_PRIV_ACTIVE i

/-- Whether a shared source is deliverable: its target is RUNNING, or a port whose link is up (R386, R387). -/
def State.deliverable (s : State) (die n : Nat) : Bool :=
  let t := s.reg .INT_SRC_TARGET (die * 8192 + n)
  s.armed die n && (if t < 4 then s.procRuns die t else !(s.port (t - 4)).lost)

/-- The order in which a processor claims: PRIO first, private before shared, lower numbers first (R386). -/
def claimKey (prio : Nat) (priv : Bool) (n : Nat) : Nat := (3 - prio) * 65536 + (if priv then n else 8192 + n)

/-- What a processor may claim, with keys: private sources as 8,192 and up, shared ones by local number. -/
def State.claimable (s : State) (die p : Nat) : List (Nat × Bool × Nat) :=
  ((s.privOf die).filter (fun n => n / 256 == p && s.privArmed die n)).map
    (fun n => (claimKey (s.reg .INT_PRIV_PRIO (die * 1024 + n)) true (n % 256), true, n)) ++
  ((s.pendingOf die).filter (fun n => s.reg .INT_SRC_TARGET (die * 8192 + n) == p && s.armed die n)).map
    (fun n => (claimKey (s.reg .INT_SRC_PRIO (die * 8192 + n)) false n, false, n))

/-- The element with the least key. -/
def leastKey : List (Nat × Bool × Nat) → Option (Nat × Bool × Nat)
  | [] => none
  | a :: r => match leastKey r with
    | none => some a
    | some b => if b.1 < a.1 then some b else some a

/-- A processor claims a source: PEND clears and ACTIVE is set (R386). -/
def State.claim (s : State) (die p : Nat) (priv : Bool) (n : Nat) : State :=
  if priv then (s.setReg .INT_PRIV_PEND (die * 1024 + n) 0).setReg .INT_PRIV_ACTIVE (die * 1024 + n) 1
  else
    let s := (s.setReg .INT_SRC_PEND (die * 8192 + n) 0).setReg .INT_SRC_ACTIVE (die * 8192 + n) 1
    { s with helm := { s.helm with claimed := Tbl.set s.helm.claimed (die, n) p } }

/-- Whether the interrupt line of a processor is asserted: a deliverable source of its own has PRIO at or above THRESH (R386). -/
def State.intLine (s : State) (die p : Nat) : Bool :=
  s.procRuns die p && !s.helm.asleep.contains die && (s.claimable die p).any (fun e =>
    decide (s.reg .INT_PROC_THRESH (die * 4 + p) ≤ 3 - e.1 / 65536))

/-- INT_CLAIM (R386): only the register's own processor claims; any other reader sees NONE. -/
def execIntClaim (src : Src) (die : Fin 8) (proc : Fin 4) (s : State) : Host.Outcome State Fault Refusal :=
  .next (
    match s.access src .INT_CLAIM die proc false with
    | .granted =>
      if src = .helm die proc ∧ s.helm.asleep.contains die.val = false then
        match leastKey (s.claimable die proc) with
        | none => s.send (.readDone src 0x20000)
        | some (_, priv, n) =>
          (s.claim die proc priv n).send (.readDone src (if priv then 0x10000 + n % 256 else die * 8192 + n))
      else s.send (.readDone src 0x20000)
    | .unsupported => s.unsupported src
    | _ => s)

/-- INT_COMPLETE (R386). -/
def execIntComplete (src : Src) (die : Fin 8) (proc : Fin 4) (value : BitVec 32) (s : State) :
    Host.Outcome State Fault Refusal :=
  .next (s.writeAs src .INT_COMPLETE die proc (fun s =>
    let v := value.toNat % 2 ^ 17
    if v / 65536 = 1 then
      let i := die.val * 1024 + proc.val * 256 + v % 256
      if s.regB .INT_PRIV_ACTIVE i then s.setReg .INT_PRIV_ACTIVE i 0 else s.bump .INT_STAT_BADMSG die
    else
      let n := v % 8192
      if v / 8192 = die.val ∧ Tbl.get? s.helm.claimed (die.val, n) = some proc.val ∧ s.regB .INT_SRC_ACTIVE (die * 8192 + n) then
        ({ s with helm := { s.helm with claimed := Tbl.erase s.helm.claimed (die.val, n) } }).setReg .INT_SRC_ACTIVE
          (die * 8192 + n) 0
      else s.bump .INT_STAT_BADMSG die))

/-- INT_MESSAGE (R383, R385, R390): one that a full wake queue makes wait, at its block or on credits at the hub, stands behind the
queue's 64 entries, and is not lost. -/
def execIntMessage (die : Fin 8) (num : BitVec 16) (helm : Bool) (s : State) : Host.Outcome State Fault Refusal :=
  .next (if s.dies ≤ die.val then s else s.message die num.toNat helm)

/-- INT_RAISE (R383, R389): Helm firmware raises on its own die alone. -/
def execIntRaise (src : Src) (die : Fin 8) (value : BitVec 32) (s : State) : Host.Outcome State Fault Refusal :=
  .next (s.writeAs src .INT_RAISE die 0 (fun s =>
    let v := value.toNat
    match src with
    | .helm d _ =>
      if d ≠ die then s
      else if natBits v 16 1 = 1 then s.raisePriv die (natBits v 17 2) (v % 256)
      else s.message die (natBits v 0 16) true
    | .port _ => s))

/-- INT_SRC_WRITE (R388): a reserved number ignores writes. -/
def execIntSrcWrite (src : Src) (die : Fin 8) (n : Fin 8192) (value : BitVec 32) (s : State) :
    Host.Outcome State Fault Refusal :=
  .next (s.writeAs src .INT_SRC die n (fun s =>
    if reservedSource n then s
    else
      let i := die.val * 8192 + n.val
      let v := value.toNat
      let s := if natBits v 0 3 < 6 then s.setReg .INT_SRC_TARGET i (natBits v 0 3) else s
      let s := ((s.setReg .INT_SRC_PRIO i (natBits v 4 2)).setReg .INT_SRC_VECTOR i (natBits v 8 11)).setReg .INT_SRC_EN i
        (natBits v 24 1)
      if natBits v 28 1 = 1 then s.setReg .INT_SRC_PEND i 0 else s))

/-- INT_MSIX_DELIVERY (R387). -/
def execIntMsixDelivery (die : Fin 8) (n : Fin 8192) (s : State) : Host.Outcome State Fault Refusal :=
  .next (
    let t := s.reg .INT_SRC_TARGET (die * 8192 + n)
    if t < 4 ∨ s.helm.asleep.contains die.val ∨ s.deliverable die n = false then s
    else (s.setReg .INT_SRC_PEND (die * 8192 + n) 0).portMsix (t - 4) none (s.reg .INT_SRC_VECTOR (die * 8192 + n)))

/-! ## Sleep (R390) -/

/-- Whether any source of a die is deliverable. -/
def State.anyDeliverable (s : State) (die : Nat) : Bool :=
  (s.pendingOf die).any (s.deliverable die) || (s.privOf die).any (fun n => s.privArmed die n && s.procRuns die (n / 256))

/-- Whether a die's interrupt controller may sleep: SLEEP_EN is 1, every RUNNING processor waits in its sleep instruction, no source
is deliverable (R390). -/
def State.maySleep (s : State) (q : SleepSeen) : Bool :=
  decide (q.die.val < s.dies) && !s.helm.asleep.contains q.die.val && s.regB .INT_CTL_SLEEP_EN q.die && !s.anyDeliverable q.die &&
    (List.range 4).all (fun p => !s.procRuns q.die p || q.waits.any (fun w => w.val == p))

/-- INT_CONTROLLER_SLEEP (R390). -/
def execIntControllerSleep (die : SleepSeen) (s : State) : Host.Outcome State Fault Refusal :=
  .next (if s.maySleep die then { s with helm := { s.helm with asleep := die.die.val :: s.helm.asleep } } else s)

/-- INT_CONTROLLER_WAKE (R390): the queued messages are applied in their order. -/
def execIntControllerWake (die : Fin 8) (s : State) : Host.Outcome State Fault Refusal :=
  .next (
    let d := die.val
    let q := Tbl.getD s.helm.wakeQ d []
    if s.helm.asleep.contains d = false ∨ q.isEmpty then s
    else
      let s := { s with helm := { s.helm with asleep := s.helm.asleep.filter (· != d), wakeQ := Tbl.erase s.helm.wakeQ d } }
      q.foldl (fun s m => s.takeMsg d m.1 m.2) (s.bump .INT_STAT_WAKES d))

end Sys2Proof.Machine
end

