-- ==== Sys2Proof/Machine/Helm.lean ====
section
/-! DEFINITION. The Helm processors: watchdogs, resets, cross-checks, timers (R375 to R380, R389). -/

namespace Sys2Proof.Machine

/-- The processor that checks a proposal of `p`, if any other is RUNNING (R377). -/
def State.checker (s : State) (die p : Nat) : Option Nat :=
  if s.procRuns die (partner p) then some (partner p)
  else (List.range 4).find? (fun q => decide (q ≠ p) && s.procRuns die q)

/-- The shared sources ACTIVE at a processor return to PENDING (R379). -/
def State.unclaim (s : State) (die p : Nat) : State :=
  let mine := s.helm.claimed.filter (fun e => e.1.1 == die && e.2 == p)
  let s := { s with helm := { s.helm with claimed := s.helm.claimed.filter (fun e => !(e.1.1 == die && e.2 == p)) } }
  mine.foldl (fun s e => (s.setReg .INT_SRC_ACTIVE (die * 8192 + e.1.2) 0).setReg .INT_SRC_PEND (die * 8192 + e.1.2) 1) s

/-- A processor is reset, its private memory zeroed; the third time within 10 s it stays FAILED; a lost die pulls SMB_ALERT_N low (R376, R379, R380, R427). -/
def State.resetProc (s : State) (die p : Nat) : State :=
  let i := die * 4 + p
  let recent := (Tbl.getD s.helm.resetAt (die, p) []).filter (fun t => decide ((s.timer + 2 ^ 48 - t) % 2 ^ 48 ≤ 10000000000))
  let failed := decide (2 ≤ recent.length)
  let s := { s with helm := { s.helm with
    resetAt := Tbl.set s.helm.resetAt (die, p) (recent ++ [s.timer])
    warned := s.helm.warned.filter (· != (die, p))
    disagreed := s.helm.disagreed.filter (· != (die, p))
    privMem := Tbl.erase s.helm.privMem (die, p) } }
  let s := ((s.setReg .HELM_STAT_STATE i (if failed then 2 else 1)).setReg .HELM_STAT_DUTIES i 1).bump .HELM_STAT_RESETS i
  let s := ((s.unclaim die p).setReg .INT_SRC_TARGET (die * 8192 + 0x90 + p) (partner p)).raise die (0x90 + p)
  if (List.range 4).all (fun q => s.reg .HELM_STAT_STATE (die * 4 + q) == 2) then
    (List.range 4).foldl (fun s q => s.setReg .HELM_STAT_DIE_LOST (die * 4 + q) 1) { s with module := { s.module with alert := true } }
  else s

/-- WATCHDOG_KICK (R378). -/
def execWatchdogKick (die : Fin 8) (proc : Fin 4) (value : BitVec 32) (s : State) : Host.Outcome State Fault Refusal :=
  .next (s.writeAs (.helm die proc) .HELM_WDOG die proc (fun s =>
    let s := s.setReg .HELM_WDOG_PERIOD (die * 4 + proc) (natBits value.toNat 0 16)
    if natBits value.toNat 16 1 = 1 then
      { s with helm := { s.helm with warned := s.helm.warned.filter (· != (die.val, proc.val)) } }
    else s))

/-- Whether a processor's watchdog counts (R378). -/
def State.watched (s : State) (die p : Nat) : Bool :=
  decide (die < s.dies) && s.procRuns die p && decide (s.reg .HELM_WDOG_PERIOD (die * 4 + p) ≠ 0)

/-- WATCHDOG_WARNING (R378): once between two kicks. -/
def execWatchdogWarning (die : Fin 8) (proc : Fin 4) (s : State) : Host.Outcome State Fault Refusal :=
  .next (
    if s.watched die proc = false ∨ s.helm.warned.contains (die.val, proc.val) then s
    else ({ s with helm := { s.helm with warned := (die.val, proc.val) :: s.helm.warned } }).raisePriv die proc 0)

/-- WATCHDOG_EXPIRE (R378, R379). -/
def execWatchdogExpire (die : Fin 8) (proc : Fin 4) (s : State) : Host.Outcome State Fault Refusal :=
  .next (if s.watched die proc then s.resetProc die proc else s)

/-- CROSS_CHECK (R377): the second disagreement in a row resets both processors. What an agreed action does stands in
the row of that action, which does nothing while its proposer's last proposal is disagreed with. -/
def execCrossCheck (die : Fin 8) (proc : Fin 4) (_act : CheckedAction) (agree : Bool) (s : State) :
    Host.Outcome State Fault Refusal :=
  .next (
    match s.procRuns die proc && decide (die.val < s.dies), s.checker die proc with
    | true, some q =>
      let rest := s.helm.disagreed.filter (· != (die.val, proc.val))
      if agree then { s with helm := { s.helm with disagreed := rest } }
      else
        let again := s.helm.disagreed.contains (die.val, proc.val)
        let s := s.bump .HELM_STAT_MISMATCH (die * 4 + proc)
        if again then (s.resetProc die proc).resetProc die q
        else { s with helm := { s.helm with disagreed := (die.val, proc.val) :: s.helm.disagreed } }
    | _, _ => s)

/-- HELM_TIMER_EXPIRE (R389). -/
def execHelmTimerExpire (die : Fin 8) (proc : Fin 4) (s : State) : Host.Outcome State Fault Refusal :=
  .next (if s.procRuns die proc ∧ die.val < s.dies then s.raisePriv die proc 1 else s)

end Sys2Proof.Machine
end

