-- ==== Sys2Proof/Machine/CoreWait.lean ====
section
/-! DEFINITION. The rows that the parties of a core ask for, the order in which waiting accesses are served, and the row
arbiter (R116, R119, R122). -/

namespace Sys2Proof.Machine

/-! ## Positions in rows -/

/-- The unit positions, as row × 4 + unit, of `n` units from a position, wrapping after row 63 (R99, R142). -/
def unitRun (row unit n : Nat) : List Nat := (List.range n).map (fun i => (4 * row + unit + i) % 256)

/-- The rows of a list of unit positions, each once, in order. -/
def rowsOf (us : List Nat) : List Nat := (us.map (· / 4)).dedup

/-- The unit positions a SEND reads from address register `as`, and the register after them (R92). -/
def sendSource : Nat → W32 → List Nat × W32
  | 0, a => ([], a)
  | n + 1, a =>
    let r := sendSource n (aAdvance a 16 false).1
    ((4 * aRowOf a + aStart a 16 false / 16) :: r.1, r.2)

/-- The rows a SEND reads. -/
def Core.sendRows (k : Core) (w : W32) : List Nat := rowsOf (sendSource (wf w 9 5) (k.areg (wf w 18 3))).1

/-- The row a slot instruction names. -/
def Core.slotRow (k : Core) (w : W32) : Nat := aRowOf (k.areg (wf w 19 3))

/-- The rows TSET and TCLR act on: n rows from the one that ai names, wrapping within its buffer (R98). -/
def tagRows (a : W32) (n : Nat) : List Nat := (List.range n).map (fun i => (aBase a + (aRow a + i) % aLen a) % 64)

/-- The instruction at PC. -/
def Core.word (k : Core) : W32 := vget k.ibuf k.pc 0

/-- The rows that the instruction at PC reaches by its own accesses (R116). -/
def Core.seqRows (k : Core) : List Nat :=
  match opc k.word with
  | 0x14 | 0x15 => [k.slotRow k.word]
  | 0x16 | 0x17 => tagRows (k.areg (wf k.word 23 3)) (wf k.word 0 6 + 1)
  | 0x30 => k.sendRows k.word
  | _ => []

/-- The units that a READ has read. -/
def Core.readSoFar (k : Core) (p : Packet) : List Unit16 := ((k.rdGot.find? (fun e => e.1 = p)).map (·.2)).getD []

/-- The unit positions that a READ has still to read. -/
def Core.readLeft (k : Core) (p : Packet) : List Nat :=
  (unitRun (pRow p) (pUnit p) p.count.toNat).drop (k.readSoFar p).length

/-! ## Claims on rows -/

/-- The rows that a party's next access reaches: several only where the access is one of several rows. -/
def Core.claim (k : Core) (w : Waiter) : List Nat :=
  match w with
  | .seq => k.seqRows
  | .stream => match k.headOp 0 with
    | some o => k.rowsWanted o
    | none => []
  | .inbound => match k.inq with
    | p :: _ => [pRow p]
    | [] => []
  | .read p => (rowsOf (k.readLeft p)).take 1
  | .flag _ _ row => [row]
  | .engine row => [row]

/-- The side a party's accesses come from (table of R116). -/
def Core.niSide (k : Core) (w : Waiter) : Bool := niParty w || (decide (w = .seq) && opc k.word == 0x30)

/-- Whether a party's tag-checked access waits for FULL (table Tag rules). -/
def Core.wantsFull (k : Core) (w : Waiter) : Bool :=
  match w with
  | .seq => opc k.word != 0x15
  | .stream => true
  | .inbound => false
  | .read _ => true
  | .flag _ _ _ => true
  | .engine _ => true

/-- The rows whose tag holds a waiting party, or all its rows where none does any more. -/
def Core.waitRows (k : Core) (w : Waiter) : List Nat :=
  let l := (k.claim w).filter (fun r => k.full r != k.wantsFull w)
  if l.isEmpty then k.claim w else l

/-- Whether two lists share a row. -/
def shareRow (a b : List Nat) : Bool := a.any b.contains

/-- Whether a waiting party may retry: no party of its side that began to wait earlier waits on the same row for the same
tag (R122). -/
def Core.mayRetry (k : Core) (w : Waiter) : Bool :=
  (k.waits.takeWhile (· != w)).all (fun v =>
    !(k.niSide v == k.niSide w && k.wantsFull v == k.wantsFull w && shareRow (k.waitRows v) (k.waitRows w)))

/-- Whether the other side has lost a grant for one of some rows, so that a party loses to it (R116). -/
def Core.owed (k : Core) (w : Waiter) (rows : List Nat) : Bool :=
  k.deferred.any (fun v => k.niSide v != k.niSide w && shareRow (k.claim v) rows)

/-- Whether a deferred access is the next to be granted: none deferred earlier is owed its row (R116). -/
def Core.mayGrant (k : Core) (w : Waiter) : Bool :=
  (k.deferred.takeWhile (· != w)).all (fun v => !shareRow (k.claim v) (k.claim w))

/-- A party's access as the arbiter decides it: `lost` says that another access to the row took the grant. -/
def Core.loses (k : Core) (w : Waiter) (lost : Bool) : Bool := lost || k.owed w (k.claim w)

/-- The rows of an access, each arbitrated at its own row (R116): those that the party gets and those that it loses, where
`lost` says which of them another access takes. -/
def Core.arbitrate (k : Core) (w : Waiter) (rows : List Nat) (lost : List Bool) : List Nat × List Nat :=
  let l := (List.range rows.length).map (fun i => (rows.getD i 0, lost.getD i false || k.owed w [rows.getD i 0]))
  ((l.filter (fun e => !e.2)).map (·.1), (l.filter (·.2)).map (·.1))

/-- A party whose access waited now owes its row to the arbiter's next grant. -/
def Core.toDefer (k : Core) (w : Waiter) : Core := (k.unwait w).defer w

/-- A party whose access lost now waits on its row's tag. -/
def Core.toWait (k : Core) (w : Waiter) : Core := (k.unwait w).waitOn w

end Sys2Proof.Machine
end

