-- ==== Sys2Proof/Machine/CoreNet.lean ====
section
/-! DEFINITION. The network interface of a core: sends, counts, and the rows that inbound packets read and write
(R97, R99, R100, R115, R119, R121, R144 to R148). -/

namespace Sys2Proof.Machine

/-! ## Units of rows -/

/-- A unit of a core's rows. -/
def Core.unit (k : Core) (u : Nat) : Unit16 := BitVec.ofNat 128 (rowNat (vget k.rows (u / 4) 0) (16 * (u % 4)) 16)

/-- The core with one unit written; whole units need no read (R115). -/
def Core.putUnit (k : Core) (u : Nat) (x : Unit16) : Core :=
  { k with rows := vset k.rows (u / 4) (rowPut (vget k.rows (u / 4) 0) (16 * (u % 4)) 16 x.toNat) }

/-- The core with units written to positions. -/
def Core.putUnits (k : Core) : List Nat → List Unit16 → Core
  | u :: us, x :: xs => (k.putUnit u x).putUnits us xs
  | _, _ => k

/-- The core with the tags of rows set. -/
def Core.setTags (k : Core) (rs : List Nat) (full : Bool) : Core := rs.foldl (fun k r => k.setTag r full) k

/-! ## Sends (R99, R147, R148, R150) -/

/-- The packet a core sends through a route entry. -/
def State.routed (s : State) (c : Nat) (e : BitVec 128) (cmd : BitVec 8) (var : Nat) (t cnt : Bool)
    (data : List Unit16) : Packet where
  up := if rExt e then BitVec.ofNat 4 (min (coverEp (.core (BitVec.ofNat 20 c)) (.hub (2 * rDie e + rPort e / 2) 8)) s.rootLevel)
    else BitVec.ofNat 4 (rUp e)
  target := BitVec.ofNat 20 (rTarget e)
  cmd := cmd
  ctx := BitVec.ofNat 10 ((s.holder c).getD 0)
  count := BitVec.ofNat 6 data.length
  tag := BitVec.ofNat 16 (rTag e)
  var := BitVec.ofNat 32 var
  routes := 0
  src := BitVec.ofNat 20 c
  skind := 0
  tkind := BitVec.ofNat 2 (rTkind e)
  t := t && rTkind e == 0
  cnt := cnt && rTkind e == 0
  ack := false
  bulk := rBulk e && decide (cmd = cWRITE)
  ext := rExt e
  xu := if rExt e then extUnit (rDpkg e) (s.reg .SAL_PKG_NUM 0) (rDie e) (rPort e) false else 0
  data := data

/-- The variable bits of a send to a position: ROW, UNIT and, for cores, the entry's MASK (R99, R142). -/
def sendVar (e : BitVec 128) (pos : Nat) : Nat := pos % 256 + (if rTkind e = 0 then rMask e * 256 else 0)

/-- A send instruction: a fault through an entry that is not valid, a wait while the outbound queue is full (R99, R148). -/
def State.sendStep (s : State) (c rt : Nat) (act : BitVec 128 → State → State) : State :=
  let e := vget (s.core c).routes rt 0
  if rValid e = false then s.fault c 8
  else if 4 ≤ (s.outbound c).length then s
  else act e s

/-- A SEND whose rows may be read: the packet is queued (R97, R99, R119, R126). -/
def State.doSend (s : State) (c : Nat) (w : W32) (ecc : List Ecc) (e : BitVec 128) : State :=
  let k := s.core c
  let src := sendSource (wf w 9 5) (k.areg (wf w 18 3))
  let r := s.checkRows c (rowsOf src.1) ecc
  if r.2 = false then r.1
  else
    let k' := r.1.core c
    let p := s.routed c e cWRITE (sendVar e (k.greg (wf w 14 4)).toNat)
      (wf w 8 1 == 1) (wf w 7 1 == 1) (src.1.map k'.unit)
    let k2 := (if wf w 6 1 = 1 ∧ wf w 5 1 = 1 then k'.setTags (rowsOf src.1) false else k').setA (wf w 18 3) src.2
    (r.1.setCore c k2.next).inject (.core (BitVec.ofNat 20 c)) p

/-- Whether the tags let a SEND read its rows (R97, R119). -/
def Core.sendReady (k : Core) (w : W32) : Bool :=
  wf w 6 1 == 0 || (k.sendRows w).all k.full

/-- SEND (R99): it reads its rows together, so that one held at a tag or by the arbiter has read nothing (R79, R97, R111). -/
def execSend (c : CoreAddr) (rows : RowTry) (s : State) : Host.Outcome State Fault Refusal :=
  .next (s.issue c.toNat 0x30 (fun w s => s.sendStep c.toNat (wf w 21 5) (fun e s =>
    let k := s.core c.toNat
    if k.sendReady w = false then s.modCore c.toNat (fun k => k.waitOn .seq)
    else if k.loses .seq (rows.lost.contains true) then s.modCore c.toNat (fun k => k.defer .seq)
    else s.doSend c.toNat w rows.ecc e)))

/-- SENDV (R99). -/
def execSendv (c : CoreAddr) (s : State) : Host.Outcome State Fault Refusal :=
  .next (s.issue c.toNat 0x31 (fun w s => s.sendStep c.toNat (wf w 21 5) (fun e s =>
    let k := s.core c.toNat
    let v := (k.vreg (wf w 17 4)).toNat
    let p := s.routed c.toNat e cWRITE (sendVar e (k.greg (wf w 13 4)).toNat) (wf w 12 1 == 1) (wf w 11 1 == 1)
      [BitVec.ofNat 128 (natBits v 0 128), BitVec.ofNat 128 (natBits v 128 128)]
    (s.setCore c.toNat k.next).inject (.core c) p)))

/-- RECV (R100). -/
def execRecv (c : CoreAddr) (s : State) : Host.Outcome State Fault Refusal :=
  .next (s.issue c.toNat 0x32 (fun w s => s.modCore c.toNat (fun k =>
    let x := k.greg (fS w)
    if x.toNat ≤ k.arrv.toNat then { k with arrv := k.arrv - x }.next else k)))

/-- TALLY (R100): value gs and count 1. -/
def execTally (c : CoreAddr) (s : State) : Host.Outcome State Fault Refusal :=
  .next (s.issue c.toNat 0x33 (fun w s => s.sendStep c.toNat (wf w 21 5) (fun e s =>
    let k := s.core c.toNat
    let p := s.routed c.toNat e cTALLY 0 false false [tallyUnit (k.greg (wf w 17 4)).toNat 1 0 0]
    (s.setCore c.toNat k.next).inject (.core c) p)))

/-- TWAIT (R100). -/
def execTwait (c : CoreAddr) (s : State) : Host.Outcome State Fault Refusal :=
  .next (s.issue c.toNat 0x34 (fun w s => s.modCore c.toNat (fun k =>
    let x := k.greg (fS w)
    if x.toNat ≤ k.tcnt.toNat then { k.setG (fD w) k.tsum with tsum := 0, tcnt := k.tcnt - x }.next else k)))

/-! ## Inbound writes (R115, R117, R119, R121, R144) -/

/-- ARRV raised by one, and the answer where one is asked: the end of an accepted write (R99, R157). -/
def State.writeDone (s : State) (c : Nat) (p : Packet) : State :=
  (s.modCore c (fun k => if p.cnt then { k with arrv := BitVec.ofNat 32 (satInc 32 k.arrv.toNat) } else k)).accept
    (.core (BitVec.ofNat 20 c)) p

/-- The byte mask of a MASK_WRITE (R144). -/
def pByteMask (p : Packet) : BitVec 64 := BitVec.ofNat 64 ((p.data.getD 4 0).toNat % 2 ^ 64)

/-- The 64 bytes of a MASK_WRITE. -/
def pBlock (p : Packet) : Row :=
  BitVec.ofNat 512 ((List.range 4).foldl (fun a i => a + (p.data.getD i 0).toNat * 2 ^ (128 * i)) 0)

/-- The 8-byte words of a row that a byte mask covers only in part (R115). -/
def partialWords (m : BitVec 64) : Nat :=
  ((List.range 8).filter (fun i => let b := natBits m.toNat (8 * i) 8; decide (b ≠ 0) && decide (b ≠ 255))).length

/-- What the read of `n` words of a row finds. -/
def eccOfWords (e : Ecc) (n : Nat) : Ecc :=
  match e with
  | .corrected k => if n = 0 then .clean else .corrected (min k n)
  | .uncorrectable => if n = 0 then .clean else .uncorrectable
  | .clean => .clean

/-- A masked write to a row (R115, R126): after an uncorrectable read the bytes merge into the zeroed row. -/
def State.maskRow (s : State) (c : Nat) (p : Packet) (ecc : Ecc) : State :=
  let r := pRow p
  let m := pByteMask p
  let s := (s.readRow c r (eccOfWords ecc (partialWords m))).1
  s.modCore c (fun k =>
    let k := { k with rows := vset k.rows r (rowMask (vget k.rows r 0) (pBlock p) m) }
    if p.t && m.getLsbD 63 then k.setTag r true else k)

/-- The packet after its first `n` units are written: what remains of it (R128). -/
def pRest (p : Packet) (n : Nat) : Packet :=
  let pos := (4 * pRow p + pUnit p + n) % 256
  { p with data := p.data.drop n, count := BitVec.ofNat 6 (p.data.length - n),
           var := BitVec.ofNat 32 (natSet p.var.toNat 0 8 (pos / 4 + pos % 4 * 64)) }

/-- Whether the tag of its row holds an inbound write (R119). -/
def Core.headBlocked (k : Core) (p : Packet) : Bool := p.t && k.full (pRow p)

/-- The rows of an inbound write, one access each, until a tag holds it or the core side is owed a row: what remains of it.
`won` says that the first access has the arbiter's grant. -/
def State.writeRows (s : State) (c : Nat) (p : Packet) (won : Bool) : Nat → State × Packet
  | 0 => (s, p)
  | fuel + 1 =>
    let k := s.core c
    if p.data.isEmpty ∨ k.headBlocked p ∨ (won = false ∧ k.owed .inbound [pRow p]) then (s, p)
    else
      let n := min (4 - pUnit p) p.data.length
      let us := unitRun (pRow p) (pUnit p) n
      State.writeRows (s.modCore c (fun k =>
        let k := k.putUnits us p.data
        if p.t && pUnit p + n == 4 then k.setTag (pRow p) true else k)) c (pRest p n) false fuel

/-- An inbound write at the head of its core's buffer makes the accesses its tags and the arbiter allow: what remains, if
anything. -/
def State.inbound (s : State) (c : Nat) (p : Packet) (won : Bool) (ecc : Ecc) : State × Option Packet :=
  let k := s.core c
  if p.cmd = cMASK then
    if k.headBlocked p ∨ (won = false ∧ k.owed .inbound [pRow p]) then (s, some p)
    else ((s.maskRow c p ecc).writeDone c p, none)
  else
    let r := s.writeRows c p won 18
    if r.2.data.isEmpty then (r.1.writeDone c p, none) else (r.1, some r.2)

/-- The inbound write buffer of a core with a new head or without one: the head waits on its row's tag, or for the arbiter
(R116, R121). -/
def Core.setInq (k : Core) (q : List Packet) : Core :=
  let k := { k with inq := q }
  match q with
  | [] => k.unwait .inbound
  | p :: _ =>
    if k.headBlocked p then { k with deferred := k.deferred.filter (· != Waiter.inbound) }.waitOn .inbound
    else if k.deferred.contains .inbound then k
    else k.toDefer .inbound

/-- What the ECC finds in the rows that later MASK_WRITEs of the buffer read: each such write takes one finding. -/
def eccAfter (p : Packet) (ecc : List Ecc) : List Ecc := if p.cmd = cMASK then ecc.tail else ecc

/-- The writes of the inbound buffer applied in order, until one is held (R121); `ecc` is what the reads of its MASK_WRITEs find,
in their order (R115, R123, R126). -/
def State.inboundAll (s : State) (c : Nat) (won : Bool) (ecc : List Ecc) : List Packet → State
  | [] => s.modCore c (fun k => k.setInq [])
  | p :: q =>
    let r := s.inbound c p won (ecc.headD .clean)
    match r.2 with
    | none => State.inboundAll r.1 c false (eccAfter p ecc) q
    | some p' => r.1.modCore c (fun k => k.setInq (p' :: q))

/-- The head of the inbound write buffer tried again; `won` says that it has the arbiter's grant. -/
def State.inboundHead (s : State) (c : Nat) (won : Bool) (ecc : List Ecc) : State :=
  (s.modCore c (fun k => k.unwait .inbound)).inboundAll c won ecc (s.core c).inq

/-! ## Reads (R116, R119, R123, R126, R143) -/

/-- The end of a READ at a core: it is answered and leaves the NI. -/
def State.readEnd (s : State) (c : Nat) (p : Packet) (status : Nat) (data : List Unit16) : State :=
  let e : Ep := .core (BitVec.ofNat 20 c)
  let s := s.modCore c (fun k => { k.unwait (.read p) with rdGot := k.rdGot.filter (fun g => g.1 ≠ p) })
  (((s.arrive e p).reply e none p cRDATA status data).accept e p)

/-- A READ of a core's rows, one access each, answered when all are read; a tag-checked one waits at a row that is EMPTY,
and the arbiter holds one at a row that the core side is owed, or whose grant it loses (R116, R119). `won` says that the first
access has the arbiter's grant, `lost` which of the accesses lose it. -/
def State.readRows (s : State) (c : Nat) (p : Packet) (won : Bool) (lost : List Bool) (ecc : List Ecc) : Nat → State
  | 0 => s
  | fuel + 1 =>
    let k := s.core c
    match k.readLeft p with
    | [] => s.readEnd c p 0 (k.readSoFar p)
    | u :: us =>
      let r := u / 4
      if p.t ∧ k.full r = false then s.modCore c (fun k => k.toWait (.read p))
      else if won = false ∧ (lost.headD false ∨ k.owed (.read p) [r]) then s.modCore c (fun k => k.toDefer (.read p))
      else
        let q := s.readRow c r (ecc.headD .clean)
        match q.2 with
        | none => q.1.readEnd c p 0x0302 []
        | some _ =>
          let here := (u :: us).takeWhile (fun v => v / 4 == r)
          State.readRows (q.1.modCore c (fun k =>
            let got := k.readSoFar p ++ here.map k.unit
            let k := { k.unwait (.read p) with rdGot := (p, got) :: k.rdGot.filter (fun g => g.1 ≠ p) }
            if p.t && here.any (fun v => v % 4 == 3) then k.setTag r false else k)) c p false lost.tail ecc.tail fuel

/-- Rows of a READ at most, with one step to spare for its end. -/
def readFuel : Nat := 20

/-- Whether the tag of its next row holds a READ (R119). -/
def Core.readBlocked (k : Core) (p : Packet) : Bool := p.t && (k.claim (.read p)).any (fun r => !k.full r)

end Sys2Proof.Machine
end

