-- ==== Sys2Proof/Machine/CoreSave.lean ====
section
/-! DEFINITION. Stops of a core and its save image (R79, R80, R84, R85, R86, R101, R111, R112, R128, R254, R255). -/

namespace Sys2Proof.Machine

/-- A base whose bits [15:0] are ignored (R236). -/
def areaBase (v : Nat) : Nat := v / 65536 * 65536

/-! ## The numbering of a context's cores (R236, R254) -/

/-- The valid blocks of a context, each as base and size, in the order of their entries. -/
def State.blocks (s : State) (x : Nat) : List (Nat × Nat) :=
  ((List.range 8).filter (fun k => s.blockOk x k)).map
    (fun k => (s.reg .CTX_CORES_BASE (x * 8 + k), 4 ^ s.reg .CTX_CORES_LEVEL (x * 8 + k)))

/-- Whether one block lies in another. -/
def blockIn (a b : Nat × Nat) : Bool := decide (b.1 ≤ a.1) && decide (a.1 + a.2 ≤ b.1 + b.2)

/-- Blocks added to a list of blocks of which none lies in another. -/
def maximalBlocks (acc : List (Nat × Nat)) : List (Nat × Nat) → List (Nat × Nat)
  | [] => acc
  | b :: r => maximalBlocks (if acc.any (blockIn b) then acc else b :: acc.filter (fun a => !blockIn a b)) r

/-- Addresses of an interval that lie in none of the blocks. -/
def newIn (earlier : List (Nat × Nat)) (lo hi : Nat) : Nat :=
  (hi - lo) - ((maximalBlocks [] earlier).map (fun b => min hi (b.1 + b.2) - max lo b.1)).sum

/-- The number of distinct addresses in a context's blocks (R236). -/
def State.ncore (s : State) (x : Nat) : Nat := ((maximalBlocks [] (s.blocks x)).map (·.2)).sum

/-- The number of a core among blocks, those before them already counted (R254). -/
def coreNumber (c : Nat) (before : List (Nat × Nat)) (n : Nat) : List (Nat × Nat) → Option Nat
  | [] => none
  | b :: r =>
    if b.1 ≤ c ∧ c < b.1 + b.2 then some (n + newIn before b.1 c)
    else coreNumber c (before ++ [b]) (n + newIn before b.1 (b.1 + b.2)) r

/-- The number of a core in a context (R254). -/
def State.coreNo (s : State) (x c : Nat) : Option Nat := coreNumber c [] 0 (s.blocks x)

/-- Where the save image of a core lies (R254). -/
def State.imageAt (s : State) (x c : Nat) : Nat := areaBase (s.reg .CTX_AREA_SAVE_BASE x) + 5120 * (s.coreNo x c).getD 0

/-! ## The save image (R85, R111) -/

/-- The bytes of a loop record. -/
def LoopRec.bytes (l : LoopRec) : List Byte :=
  natBytes l.cnt.toNat 4 ++ natBytes l.start 1 ++ natBytes l.stop 1 ++
    natBytes ((if l.active then 1 else 0) + (if l.rot then 2 else 0) + 4 * l.stg) 1 ++ natBytes 0 1 ++
    natBytes l.n.toNat 4 ++ natBytes l.map.toNat 4

/-- A loop record from its bytes. -/
def loopOf (b : List Byte) : LoopRec where
  cnt := BitVec.ofNat 32 (bF b 0 4)
  start := bF b 4 1
  stop := bF b 5 1
  active := bF b 6 1 % 2 == 1
  rot := natBits (bF b 6 1) 1 1 == 1
  stg := natBits (bF b 6 1) 2 2
  n := BitVec.ofNat 32 (bF b 8 4)
  map := BitVec.ofNat 32 (bF b 12 4)

/-- The name that a physical register has under a rotation base (R106). -/
def nameOf (rrb : BitVec 3) (p : Fin 16) : Nat := if p.val < 8 then p.val else 8 + (p.val - 8 + rrb.toNat) % 8

/-- The word of a queued instruction as a save records it: a drain or accumulate-in names its register as the saved rotation
base maps it, so that the restored one reaches the register that it named at issue (R79, R106, R112; DESIGN CHOICE,
log 14). -/
def SqE.saveWord (e : SqE) (rrb : BitVec 3) : W32 :=
  if opc e.word = 0x1A ∨ opc e.word = 0x1B then BitVec.ofNat 32 (natSet e.word.toNat 22 4 (nameOf rrb e.phys)) else e.word

/-- The stream record: four entries of 8 bytes, oldest first (R79, R111). -/
def Core.streamRec (k : Core) : List Byte :=
  (List.range 4).flatMap (fun i => match k.sq[i]? with
    | some e => natBytes (e.saveWord k.rrb).toNat 4 ++ natBytes e.left 1 ++ natBytes 0 3
    | none => natBytes 0 8)

/-- The control block (table Control block). -/
def Core.controlBlock (k : Core) (halted yielded : Bool) (dead : Nat) : List Byte :=
  natBytes (k.pc % 256) 2 ++ natBytes k.rrb.toNat 1 ++
    natBytes ((if halted then 1 else 0) + (if yielded then 2 else 0) + 4 * dead) 1 ++
    natBytes k.rng.toNat 4 ++ natBytes k.nflags.toNat 4 ++ natBytes k.steps.toNat 4 ++
    k.l0.bytes ++ k.l1.bytes ++ natBytes 0 16

/-- The search part of the engine record (R85). -/
def Core.searchBytes (k : Core) : List Byte :=
  natBytes k.sval.toNat 4 ++ natBytes k.sidx.toNat 4 ++
    natBytes ((if k.sdir then 1 else 0) + (if k.skindInt then 2 else 0) + (if k.sfound then 4 else 0)) 1

/-- The save image as segments at their offsets; the parts that `dead` names are not written (R101, R111). -/
def Core.image (k : Core) (halted yielded : Bool) (dead : Nat) : List (Nat × List Byte) :=
  let live (b off : Nat) (l : List Byte) : List (Nat × List Byte) := if natBits dead b 1 = 1 then [] else [(off, l)]
  [(0x0000, k.rows.toList.flatMap (fun r => natBytes r.toNat 64)),
   (0x1000, k.tags.toList.flatMap (fun t => natBytes (if t then 1 else 0) 1))] ++
  live 0 0x1040 (k.acc.toList.flatMap (fun e => natBytes e.word 8)) ++
  live 1 0x10C0 (natBytes k.tile.toNat 32 ++ natBytes k.tscale.toNat 4 ++ natBytes k.tfmt.toNat 1) ++
  [(0x10E5, natBytes 0 3)] ++ live 3 0x10E8 k.searchBytes ++ [(0x10F1, natBytes 0 15)] ++
  live 2 0x1100 (k.v.toList.flatMap (fun v => natBytes v.toNat 32)) ++
  [(0x1300, k.g.toList.flatMap (fun g => natBytes g.toNat 4)), (0x1340, k.a.toList.flatMap (fun a => natBytes a.toNat 4)),
   (0x1360, k.controlBlock halted yielded dead), (0x13A0, k.streamRec),
   (0x13C0, natBytes k.arrv.toNat 4 ++ natBytes k.tsum.toNat 4 ++ natBytes k.tcnt.toNat 4 ++ natBytes 0 4),
   (0x13D0, natBytes 0 48)]

/-- Elements of a vector from bytes, `w` bytes each from `off`. -/
def vecOf {n : Nat} (b : List Byte) (off w : Nat) (m : Nat) : Vector (BitVec m) n :=
  Vector.ofFn (fun i => BitVec.ofNat m (bF b (off + w * i.val) w))

/-- An accumulator entry from its save word (R86). -/
def accOf (x : Nat) : AccE :=
  match saveWord x with
  | none => .cleared
  | some (m, v) => ⟨v, m, false⟩

/-- The engine state of a program load: zero tile, cleared entries, search state (R63, R64, R77). -/
def Core.engineReset (k : Core) : Core :=
  { k with acc := Core.reset.acc, tile := 0, tscale := 0, tfmt := 0, sval := Core.reset.sval, sidx := Core.reset.sidx,
           sdir := false, skindInt := false, sfound := false, sread := false, sq := [], cPipe := [], wb := [], late := [], got := [] }

/-- The stationary tile of a record: the zero tile where it is not valid or a code is reserved (R86). -/
def Core.restoreTile (k : Core) (b : List Byte) : Core :=
  let f := bF b 0x10E4 1
  if f / 128 = 0 ∨ 9 ≤ f % 16 ∨ 6 ≤ f / 16 % 8 then { k with tile := 0, tscale := 0, tfmt := 0 }
  else { k with tile := BitVec.ofNat 256 (bF b 0x10C0 32), tscale := BitVec.ofNat 32 (bF b 0x10E0 4),
                tfmt := BitVec.ofNat 8 f }

/-- The stream record taken back into the queue (R112). -/
def streamOf (rrb : BitVec 3) (b : List Byte) : List SqE :=
  (List.range 4).filterMap (fun i =>
    let w : W32 := BitVec.ofNat 32 (bF b (0x13A0 + 8 * i) 4)
    let n := bF b (0x13A4 + 8 * i) 1
    if n = 0 then none else some ⟨w, physReg rrb (fD w), n⟩)

/-- The core that a save image restores, from a core in its program-load state (R112, R86). The image has no bit for a first
read of a search that met no number (R77), so after a restore such a read sets NV again (DESIGN CHOICE, log 14). -/
def Core.ofImage (k : Core) (b : List Byte) : Core :=
  let ctl := bF b 0x1363 1
  let dead := natBits ctl 2 4
  let rrb : BitVec 3 := BitVec.ofNat 3 (bF b 0x1362 1)
  let k := { k.engineReset with
    rows := vecOf b 0 64 512
    tags := Vector.ofFn (fun i => bF b (0x1000 + i.val) 1 % 2 == 1)
    g := vecOf b 0x1300 4 32
    a := Vector.ofFn (fun i => BitVec.ofNat 32 (bF b (0x1340 + 4 * i.val) 4 % 2 ^ 27))
    pc := bF b 0x1360 1
    rrb := rrb
    rng := BitVec.ofNat 32 (bF b 0x1364 4)
    nflags := BitVec.ofNat 32 (bF b 0x1368 4 % 256)
    steps := BitVec.ofNat 32 (bF b 0x136C 4)
    l0 := loopOf (b.drop 0x1370)
    l1 := loopOf (b.drop 0x1380)
    sq := streamOf rrb b
    arrv := BitVec.ofNat 32 (bF b 0x13C0 4)
    tsum := BitVec.ofNat 32 (bF b 0x13C4 4)
    tcnt := BitVec.ofNat 32 (bF b 0x13C8 4)
    waits := k.waits.filter niParty
    deferred := k.deferred.filter niParty
    got := []
    run := if ctl % 2 = 1 then .idle else .quiet
    stop := .none }
  let k := if natBits dead 0 1 = 1 then k else { k with acc := Vector.ofFn (fun i => accOf (bF b (0x1040 + 8 * i.val) 8)) }
  let k := if natBits dead 1 1 = 1 then k else k.restoreTile b
  let k := if natBits dead 2 1 = 1 then { k with v := Vector.replicate 16 0 } else { k with v := vecOf b 0x1100 32 256 }
  if natBits dead 3 1 = 1 then k
  else { k with sval := BitVec.ofNat 32 (bF b 0x10E8 4), sidx := BitVec.ofNat 32 (bF b 0x10EC 4),
                sdir := bF b 0x10F0 1 % 2 == 1, skindInt := natBits (bF b 0x10F0 1) 1 1 == 1,
                sfound := natBits (bF b 0x10F0 1) 2 1 == 1 }

/-! ## Stops (R79, R80, R84, R101) -/

/-- Whether a stop of a core waits for a YIELD or the yield limit (R101). -/
def State.yieldWaits (s : State) (c : Nat) : Bool :=
  s.yieldMode c && s.reg .CTX_PREEMPT_YIELD_LIMIT ((s.holder c).getD 0) != 0

/-- A stop request reaches a core: it takes effect at once, or is latched under the brake or in yield mode. A request
while one is in progress is ignored (R84), and a core stopped by a fault has nothing to stop. -/
def State.stopArrives (s : State) (c : Nat) : State :=
  let k := s.core c
  match k.run, k.stop with
  | .idle, .none => s.modCore c (fun k => k.takeStop false 0)
  | .running, .none =>
    if s.braked c || s.yieldWaits c then
      s.modCore c (fun k => { k with stop := .latched })
    else s.modCore c (fun k => k.takeStop false 0)
  | _, _ => s

/-- A latched stop takes effect, but under the brake, and but for one that waits for a YIELD (R84, R101). -/
def State.takeLatched (s : State) (c : Nat) : State :=
  if (s.core c).stop ≠ .latched ∨ s.braked c ∨ s.yieldWaits c then s
  else s.modCore c (fun k => k.takeStop false 0)

/-- PREEMPT_STOP (R80, R84). -/
def execPreemptStop (c : CoreAddr) (s : State) : Host.Outcome State Fault Refusal :=
  .next (s.takeLatched c.toNat)

/-- YIELD_LIMIT_EXPIRE (R101): a latched stop takes effect at the next boundary, with a full save. -/
def execYieldLimitExpire (c : CoreAddr) (s : State) : Host.Outcome State Fault Refusal :=
  .next (
    if (s.core c.toNat).stop ≠ .latched ∨ s.braked c.toNat then s
    else s.modCore c.toNat (fun k => k.takeStop false 0))

/-- Whether the inbound write buffer holds no packet but those behind one that waits on a tag (R128). -/
def Core.inqWaits (k : Core) : Bool :=
  match k.inq with
  | [] => true
  | p :: _ => k.headBlocked p && !k.deferred.contains .inbound

/-- Whether everything issued before the stop has completed, the outbound queue is empty, and the writes at the NI wait on
tags (R80, R111, R128). -/
def State.quiet (s : State) (c : Nat) : Bool :=
  let k := s.core c
  k.cPipe.isEmpty && k.wb.isEmpty && (s.outbound c).isEmpty && k.inqWaits

/-- The bytes of a save written to the context's save area. -/
def State.writeImage (s : State) (x c : Nat) (segs : List (Nat × List Byte)) : State :=
  segs.foldl (fun s g => s.hbmPut (s.imageAt x c + g.1) g.2) s

/-- The save of a quiet core: its image, and its waiting writes into the held-write record (R111, R128). -/
def State.saveCore (s : State) (x c : Nat) (yielded : Bool) (dead : BitVec 4) : State :=
  let k := s.core c
  let s := s.writeImage x c (k.image (decide (k.run = .idle)) yielded dead.toNat)
  let s := s.modCtx x (fun t => { t with saved := c :: t.saved, heldPkts := t.heldPkts ++ k.inq.map (fun p => (c, p)) })
  s.modCore c (fun k => { k.setInq [] with saved := true, late := [], run := if k.run = .running then .quiet else k.run })

/-- Whether a START of a pass of the core's context is still under way to an idle core: its load comes before its save. -/
def State.startDue (s : State) (x c : Nat) : Bool :=
  decide ((s.core c).run = .idle) && (s.ctx x).passes.any (fun p => decide (p.accepted + p.refused < p.expect) &&
    ((c ^^^ p.cset) &&& (2 ^ 20 - 1 - p.cmask)) == 0)

/-- CORE_QUIET_SAVE (R80, R81, R84, R111, R123, R126): `ecc` is what the reads of the rows find, in their order. The core side
has stopped, so no access of the save meets another. -/
def execCoreQuietSave (c : CoreAddr) (ecc : List Ecc) (parityOk : Bool) (s : State) : Host.Outcome State Fault Refusal :=
  .next (
    let k := s.core c.toNat
    match s.holder c.toNat, k.stop with
    | some x, .taken yielded dead =>
      if (s.ctx x).busy ≠ .pausing ∨ k.saved ∨ s.braked c.toNat ∨ (k.run ≠ .running ∧ k.run ≠ .idle) ∨
          s.quiet c.toNat = false ∨ s.startDue x c.toNat ∨ s.hbmWaits (s.imageAt x c.toNat) 5120 then s
      else if !parityOk then s.fault c.toNat 1
      else
        let r := s.checkRows c.toNat (List.range 64) ecc
        if r.2 then r.1.saveCore x c.toNat yielded dead else r.1
    | _, _ => s)

end Sys2Proof.Machine
end

