-- ==== Sys2Proof/Machine/CoreSlot.lean ====
section
/-! DEFINITION. The slot instructions, stages R to A of the matrix engine, tag waits and deferred row grants (R61, R73, R90, R97,
R98, R116, R119, R121, R122). -/

namespace Sys2Proof.Machine

/-- Bytes of a slot access: 64 when SZ = 1 (table Unit sizes). -/
def slotBytes (w : W32) : Nat := if wf w 16 1 = 1 then 64 else 32

/-- Whether the tag lets the instruction at PC have its row access: SLD and SST with T, SEND with ST (R97, R119). -/
def Core.slotReady (k : Core) (w : W32) : Bool :=
  match opc w with
  | 0x14 => wf w 18 1 == 0 || k.full (k.slotRow w)
  | 0x15 => wf w 18 1 == 0 || !k.full (k.slotRow w)
  | 0x30 => k.sendReady w
  | _ => true

/-- The load of a slot access that has its row (R97). -/
def Core.slotLoad (k : Core) (w : W32) (row : Row) : Core :=
  let i := wf w 19 3
  let a := k.areg i
  let u := slotBytes w
  let lo := aStart a u false
  let k := if wf w 18 1 = 1 ∧ wf w 17 1 = 1 then k.setTag (aRowOf a) false else k
  let k := (k.setV (fD w) (BitVec.ofNat 256 (rowNat row lo 32))).lateV (fD w)
  let k := if u = 64 then (k.setV (fD w + 1) (BitVec.ofNat 256 (rowNat row 32 32))).lateV (fD w + 1) else k
  (k.setA i (aAdvance a u false).1).next

/-- The store of a slot access that has its row (R97, R115). -/
def Core.slotStore (k : Core) (w : W32) : Core :=
  let i := wf w 19 3
  let a := k.areg i
  let u := slotBytes w
  let r := aRowOf a
  let x := (k.vreg (fD w)).toNat + (if u = 64 then (k.vreg (fD w + 1)).toNat * 2 ^ 256 else 0)
  let k := { k with rows := vset k.rows r (rowPut (vget k.rows r 0) (aStart a u false) u x) }
  let k := if wf w 18 1 = 1 ∧ wf w 17 1 = 1 then k.setTag r true else k
  (k.setA i (aAdvance a u false).1).next

/-- The row access of the instruction at PC, granted. -/
def State.slotAccess (s : State) (c : Nat) (w : W32) (ecc : List Ecc) : State :=
  match opc w with
  | 0x14 =>
    let r := s.readRow c ((s.core c).slotRow w) (ecc.headD .clean)
    match r.2 with
    | none => r.1
    | some row => r.1.modCore c (fun k => k.slotLoad w row)
  | 0x15 => s.modCore c (fun k => k.slotStore w)
  | 0x16 => s.modCore c (fun k => (k.setTags k.seqRows true).next)
  | 0x17 => s.modCore c (fun k => (k.setTags k.seqRows false).next)
  | 0x30 => s.sendStep c (wf w 21 5) (fun e s => s.doSend c w ecc e)
  | _ => s

/-- A slot instruction that issues: it waits on its tag, or for the arbiter, or has its access (R116, R119). -/
def State.slotStep (s : State) (c : Nat) (lost : Bool) (ecc : List Ecc) (w : W32) : State :=
  let k := s.core c
  if k.slotReady w = false then s.modCore c (fun k => k.waitOn .seq)
  else if k.loses .seq lost then s.modCore c (fun k => k.defer .seq)
  else s.slotAccess c w ecc

/-- SLD (R97). -/
def execSld (c : CoreAddr) (lost : Bool) (ecc : Ecc) (s : State) : Host.Outcome State Fault Refusal :=
  .next (s.issue c.toNat 0x14 (fun w s => s.slotStep c.toNat lost [ecc] w))

/-- SST (R97). -/
def execSst (c : CoreAddr) (lost : Bool) (s : State) : Host.Outcome State Fault Refusal :=
  .next (s.issue c.toNat 0x15 (fun w s => s.slotStep c.toNat lost [] w))

/-- TSET (R98). -/
def execTset (c : CoreTry) (s : State) : Host.Outcome State Fault Refusal :=
  .next (s.issue c.core.toNat 0x16 (fun w s => s.slotStep c.core.toNat c.lost [] w))

/-- TCLR (R98). -/
def execTclr (c : CoreTry) (s : State) : Host.Outcome State Fault Refusal :=
  .next (s.issue c.core.toNat 0x17 (fun w s => s.slotStep c.core.toNat c.lost [] w))

/-! ## Stages R, S and A (R61, R73, R116, R119) -/

/-- Rows of the operation at stage R read in one step: false says that data is lost. -/
def State.streamRead (s : State) (c : Nat) (rows : List Nat) (ecc : List Ecc) : State × Bool :=
  let r := s.checkAll c rows ecc
  (r.1.modCore c (fun k => if r.2 then { k with got := k.got ++ rows.map (fun q => (q, vget k.rows q 0)) } else k), r.2)

/-- The operation enters stage A with the rows it has read; the latches are checked there (R81). -/
def State.enterWith (s : State) (c : Nat) (o : StreamOp) (parityOk : Bool) (fr : Nat) : State :=
  if !parityOk then s.fault c 2
  else s.modCore c (fun k => k.enterA o (k.gotRow (aRowOf (k.areg o.ai))) (k.gotRow (aRowOf (k.areg o.as_))) fr)

/-- STREAM_VECTOR_ENTER_A (R61, R62, R65, R73, R81, R116, R119): stage R reads the rows whose grants it has; while one is
owed to another access, the operation waits for that row alone. -/
def execStreamVectorEnterA (c : CoreAddr) (rows : RowTry) (parityOk : Bool) (s : State) :
    Host.Outcome State Fault Refusal :=
  .next (
    let n := c.toNat
    let k := s.core n
    match k.headOp s.freeVal with
    | none => s
    | some o =>
      if !s.engineRuns n || k.waits.contains .stream || k.deferred.contains .stream || !k.stageFree then s
      else if k.streamBlocked then s.modCore n (fun k => k.waitOn .stream)
      else
        let a := k.arbitrate .stream (k.rowsWanted o) rows.lost
        let r := (s.drew 1).streamRead n a.1 rows.ecc
        if r.2 = false then r.1
        else if a.2.isEmpty then r.1.enterWith n o parityOk (s.freeVal / 2)
        else r.1.modCore n (fun k => k.defer .stream))

/-! ## Waiting and deferred accesses (R116, R119, R122) -/

/-- Whether the sequencer may take a waiting access up again. -/
def State.seqRuns (s : State) (c : Nat) : Bool :=
  decide ((s.core c).run = .running) && (match (s.core c).stop with | .taken _ _ => false | _ => true)

/-- Whether the tag still holds a waiting party. -/
def Core.tagHolds (k : Core) (w : Waiter) : Bool :=
  match w with
  | .seq => !k.slotReady k.word
  | .stream => k.streamBlocked
  | .inbound => match k.inq with
    | p :: _ => k.headBlocked p
    | [] => false
  | .read p => k.readBlocked p
  | .flag _ _ row => !k.full row
  | .engine _ => false

/-- The access of a party that has waited, made: the sequencer's instruction goes on, stage R reads its rows, the head of the
inbound buffer or a READ goes on; a flag is read by its descriptor's own command, and an engine's access is made as its command
goes on (DESIGN CHOICE, log 11). `won` says that the arbiter has granted it. -/
def State.again (s : State) (c : Nat) (w : Waiter) (won : Bool) (lost : List Bool) (ecc : List Ecc) : State :=
  match w with
  | .seq => if s.seqRuns c then (s.modCore c (fun k => (k.unwait .seq).tick)).slotAccess c (s.core c).word ecc else s
  | .stream =>
    if !s.engineRuns c then s
    else match (s.core c).headOp 0 with
      | none => s
      | some o => ((s.modCore c (fun k => k.unwait .stream)).streamRead c ((s.core c).rowsWanted o) ecc).1
  | .inbound => s.inboundHead c won ecc
  | .read p => s.readRows c p won lost ecc readFuel
  | .flag _ _ _ => s
  | .engine _ => s.modCore c (fun k => k.unwait w)

/-- Stage R after a wait on a tag: the rows whose grants it has are read, and it waits for the others (R116). -/
def State.streamAgain (s : State) (c : Nat) (rows : RowTry) : State :=
  if !s.engineRuns c then s
  else match (s.core c).headOp 0 with
    | none => s
    | some o =>
      let a := (s.core c).arbitrate .stream ((s.core c).rowsWanted o) rows.lost
      let r := (s.modCore c (fun k => k.unwait .stream)).streamRead c a.1 rows.ecc
      if r.2 && !a.2.isEmpty then r.1.modCore c (fun k => k.defer .stream) else r.1

/-- Whether a core lies under the kill of its context or under a reset, where nothing that waited at it goes on (R131, R164). -/
def State.killing (s : State) (c : Nat) : Bool := (s.coreRefuses c 0).isSome

/-- TAG_WAIT_RETRY (R119, R122): the retry of a waiting access after its row's tag has changed; it may lose the row to the
arbiter (R116). -/
def execTagWaitRetry (c : CoreAddr) (w : Waiter) (rows : RowTry) (s : State) : Host.Outcome State Fault Refusal :=
  .next (
    let n := c.toNat
    let k := s.core n
    if s.braked n ∨ k.waits.contains w = false ∨ k.tagHolds w ∨ k.mayRetry w = false ∨ s.killing n then s
    else match w with
      | .flag _ _ _ => s
      | .stream => s.streamAgain n rows
      | _ =>
        if k.loses w (if w = .seq then rows.lost.contains true else rows.lost.headD false) then s.modCore n (fun k => k.toDefer w)
        else s.again n w false rows.lost rows.ecc)

/-- ROW_ARBITER_DEFERRED_GRANT (R116): the access that lost the arbitration is granted, unless the winner's access has changed
the tag against it. -/
def execRowArbiterDeferredGrant (c : CoreAddr) (w : Waiter) (ecc : List Ecc) (s : State) : Host.Outcome State Fault Refusal :=
  .next (
    let n := c.toNat
    let k := s.core n
    if s.braked n ∨ k.deferred.contains w = false ∨ k.mayGrant w = false ∨ s.killing n then s
    else if k.tagHolds w then s.modCore n (fun k => k.toWait w)
    else s.again n w true [] ecc)

end Sys2Proof.Machine
end

