-- ==== Sys2Proof/Machine/Clock.lean ====
section
/-! DEFINITION. Clock sources, loops, domains, the fabric's frequency, measurement and the output clock
(R354 to R360, R371 to R373). -/

namespace Sys2Proof.Machine

/-! ## Bits of the clock registers -/

/-- Bit `b` of a field. -/
def State.bitOf (s : State) (f : Fld) (i b : Nat) : Bool := natBits (s.reg f i) b 1 == 1

/-- A field with bit `b` replaced. -/
def State.putBit (s : State) (f : Fld) (i b : Nat) (v : Bool) : State :=
  s.setReg f i (natSet (s.reg f i) b 1 (if v then 1 else 0))

/-- The reference of loop `l` (CLK_REF_SEL.REF). -/
def State.loopRef (s : State) (die l : Nat) : Nat := natBits (s.reg .CLK_REF_SEL_REF die) (2 * l) 2

/-- Whether a source is ready (R354). -/
def State.clkReady (s : State) (die clk : Nat) : Bool := s.bitOf .CLK_SRC_STAT_RDY die clk

/-- Whether a loop is locked. -/
def State.locked (s : State) (die l : Nat) : Bool := s.bitOf .CLK_SRC_STAT_LOCK die l

/-- Whether a loop coasts. -/
def State.coasting (s : State) (die l : Nat) : Bool := s.bitOf .CLK_SRC_STAT_COAST die l

/-- A switch refused (R357). -/
def State.clkRefused (s : State) (die : Nat) : State := s.bump .CLK_FAIL_REFUSED die

/-! ## Sources and loops (R354 to R356) -/

/-- A loop coasts. -/
def State.coast (s : State) (die l : Nat) : State :=
  ((s.putBit .CLK_FAIL_LOOP die l true).putBit .CLK_SRC_STAT_COAST die l true).putBit .CLK_SRC_STAT_LOCK die l false

/-- CLOCK_SOURCE_FAIL (R354, R356): the failure condition of a source occurs, whether it was ready or not, and the loops that have
it as reference coast. -/
def execClockSourceFail (die : Fin 8) (clk : Fin 4) (s : State) : Host.Outcome State Fault Refusal :=
  .next (
    let d := die.val
    if s.dies ≤ d then s
    else
      let s := (((s.putBit .CLK_SRC_STAT_RDY d clk false).putBit .CLK_FAIL_SRC d clk true).bump .CLK_FAIL_FAILS d)
      let s := (List.range 6).foldl (fun s l => if s.loopRef d l = clk.val then s.coast d l else s) s
      s.raise d 0x20)

/-- CLOCK_SOURCE_READY (R354): a source's ready condition begins to hold, or no longer holds short of a failure. -/
def execClockSourceReady (die : Fin 8) (clk : ClkSeen) (s : State) : Host.Outcome State Fault Refusal :=
  .next (if s.dies ≤ die.val then s else s.putBit .CLK_SRC_STAT_RDY die clk.clk clk.ready)

/-- A stack of a die whose MLOOP_HBM has relocked after it coasted: it retrains, at once or as its rate change ends (R356). -/
def State.relocked (s : State) (h : Nat) : State :=
  if s.reg .HBM_STATE_STATE h = 2 then s.hbmState h 4
  else if s.reg .HBM_STATE_STATE h = 3 then s.modStk h (fun k => { k with recoast := true })
  else s

/-- LOOP_LOCK (R355, R356): a loop locks to a reference that is ready; after MLOOP_HBM has coasted, each stack of the
die that was in service retrains. -/
def execLoopLock (die : Fin 8) (loop : Fin 6) (s : State) : Host.Outcome State Fault Refusal :=
  .next (
    let d := die.val
    if s.clkReady d (s.loopRef d loop) = false ∨ s.loopRef d loop = 3 then s
    else
      let was := s.coasting d loop
      let s := (s.putBit .CLK_SRC_STAT_LOCK d loop true).putBit .CLK_SRC_STAT_COAST d loop false
      if was ∧ loop.val = 1 then
        [2 * d, 2 * d + 1].foldl State.relocked s
      else s)

/-! ## CLK_REF_SEL and CLK_SRC_SEL (R357, R358) -/

/-- One loop's pair of a write to CLK_REF_SEL. -/
def State.refSel (s : State) (die value l : Nat) : State :=
  let v := natBits value (2 * l) 2
  if v = s.loopRef die l then s
  else if v = 3 ∨ s.clkReady die v = false then s.clkRefused die
  else (s.setReg .CLK_REF_SEL_REF die (natSet (s.reg .CLK_REF_SEL_REF die) (2 * l) 2 v)).putBit .CLK_SRC_STAT_LOCK die l false

/-- A nominal XIN frequency, 25 to 100 MHz. -/
def State.xinMhz (s : State) (f : Fld) (die v : Nat) : State := if 25 ≤ v ∧ v ≤ 100 then s.setReg f die v else s

/-- CLK_REF_SEL_WRITE (R357). -/
def execClkRefSelWrite (src : Src) (die : Fin 8) (value : BitVec 32) (s : State) : Host.Outcome State Fault Refusal :=
  .next (s.writeAs src .CLK_REF_SEL die 0 (fun s =>
    let v := value.toNat
    let s := (List.range 6).foldl (fun s l => s.refSel die v l) s
    (s.xinMhz .CLK_REF_SEL_XIN_A_MHZ die (natBits v 12 7)).xinMhz .CLK_REF_SEL_XIN_B_MHZ die (natBits v 19 7)))

/-- Whether domain `d` may switch to a source (R357). -/
def State.srcReady (s : State) (die d sel divm1 : Nat) : Bool :=
  match sel with
  | 0 => s.locked die (if d = 0 then 0 else d + 1)
  | 1 => s.locked die 0 && decide (1 ≤ divm1)
  | 2 => s.clkReady die 2
  | _ => s.clkReady die 3

/-- One domain's byte of a write to CLK_SRC_SEL. -/
def State.srcSel (s : State) (die value d : Nat) : State :=
  let i := die * 5 + d
  let sel := natBits value (8 * d) 2
  let divm1 := natBits value (8 * d + 2) 6
  let changes := decide (sel ≠ s.reg .CLK_SRC_SEL_SEL i) || (decide (sel = 1) && decide (divm1 ≠ s.reg .CLK_SRC_SEL_DIVM1 i))
  if changes ∧ s.srcReady die d sel divm1 = false then s.clkRefused die
  else (s.setReg .CLK_SRC_SEL_SEL i sel).setReg .CLK_SRC_SEL_DIVM1 i divm1

/-- CLK_SRC_SEL_WRITE (R357, R358). -/
def execClkSrcSelWrite (src : Src) (die : Fin 8) (value : BitVec 64) (s : State) : Host.Outcome State Fault Refusal :=
  .next (s.writeAs src .CLK_SRC_SEL die 0 (fun s => (List.range 5).foldl (fun s d => s.srcSel die value.toNat d) s))

/-! ## The fabric's frequency (R359, R360) -/

/-- The four targets of CLK_FAB_FREQ of a die. -/
def State.fabTargets (s : State) (die : Nat) : List Nat :=
  (List.range 4).map (fun k => s.reg .CLK_FAB_FREQ_F (die * 4 + k))

/-- The targets that a die's sequencer last finished. -/
def State.fabNow (s : State) (die : Nat) : List Nat := Tbl.getD s.power.fabNow die [0x50, 0x50, 0x50, 0x50]

/-- The fabric rail in mV for the highest target of a die (R359). -/
def fabRail (targets : List Nat) : Nat :=
  let m := targets.foldl max 0
  if m ≤ 20 then 600 else if m ≤ 40 then 650 else if m ≤ 60 then 720 else 800

/-- The voltage of a die's fabric rail in mV: 0.80 V at the reset targets. -/
def State.railMv (s : State) (die : Nat) : Nat := Tbl.getD s.power.fabRail die 800

/-- The fabric rail of a die set. -/
def State.putRail (s : State) (die mv : Nat) : State :=
  { s with power := { s.power with fabRail := Tbl.set s.power.fabRail die mv } }

/-- The sequencer begins: the rail rises first where the new targets need it, and the loops of the domains that change
relock. -/
def State.fabStart (s : State) (die : Nat) (new : List Nat) : State :=
  let s := { s with power := { s.power with fabBusy := Tbl.set s.power.fabBusy die new } }
  let s := s.putRail die (max (s.railMv die) (fabRail new))
  (List.range 4).foldl (fun s k =>
    if (s.fabNow die)[k]? = new[k]? then s else s.putBit .CLK_SRC_STAT_LOCK die (2 + k) false) s

/-- Whether a target of CLK_FAB_FREQ is one of 100 to 800 MHz. -/
def fabTargetOk (v : Nat) : Bool := decide (10 ≤ v) && decide (v ≤ 80)

/-- The targets of a write to CLK_FAB_FREQ put in force, and the sequencer begun where one changes. -/
def State.fabWrite (s : State) (die value : Nat) : State :=
  let s := (List.range 4).foldl (fun s k =>
    if fabTargetOk (natBits value (8 * k) 8) then s.setReg .CLK_FAB_FREQ_F (die * 4 + k) (natBits value (8 * k) 8) else s) s
  if s.fabTargets die = s.fabNow die then s else s.fabStart die (s.fabTargets die)

/-- The writes of a die that wait for its sequencer, in their order. -/
def State.fabWaiting (s : State) (die : Nat) : List Nat := Tbl.getD s.power.fabNext die []

/-- CLK_FAB_FREQ_WRITE (R360): a write while the sequencer is busy is carried out when that has finished, in its turn. -/
def execClkFabFreqWrite (src : Src) (die : Fin 8) (value : BitVec 32) (s : State) : Host.Outcome State Fault Refusal :=
  .next (s.writeAs src .CLK_FAB_FREQ die 0 (fun s =>
    let s := if (List.range 4).all (fun k => fabTargetOk (natBits value.toNat (8 * k) 8)) then s
      else s.lwrErr src (Rg.offset .CLK_FAB_FREQ die 0)
    if (Tbl.get? s.power.fabBusy die.val).isSome then
      { s with power := { s.power with fabNext := Tbl.set s.power.fabNext die.val (s.fabWaiting die ++ [value.toNat]) } }
    else s.fabWrite die value.toNat))

/-- The waiting writes of a die carried out, up to one that starts the sequencer. -/
def State.fabTurn (s : State) (die : Nat) : List Nat → State
  | [] => { s with power := { s.power with fabNext := Tbl.erase s.power.fabNext die } }
  | v :: r =>
    let s := s.fabWrite die v
    if (Tbl.get? s.power.fabBusy die).isSome then { s with power := { s.power with fabNext := Tbl.set s.power.fabNext die r } }
    else State.fabTurn s die r

/-- FAB_FREQ_SEQ_DONE (R359, R360): the loops run at the targets, and the rail falls to what they need. -/
def execFabFreqSeqDone (die : Fin 8) (s : State) : Host.Outcome State Fault Refusal :=
  .next (
    let d := die.val
    match Tbl.get? s.power.fabBusy d with
    | none => s
    | some new =>
      let old := s.fabNow d
      let s := { s with power := { s.power with fabNow := Tbl.set s.power.fabNow d new, fabBusy := Tbl.erase s.power.fabBusy d } }
      let s := (List.range 4).foldl (fun s k =>
        if old[k]? = new[k]? ∨ s.coasting d (2 + k) then s else s.putBit .CLK_SRC_STAT_LOCK d (2 + k) true) s
      let s := s.putRail d (fabRail new)
      s.fabTurn d (s.fabWaiting d))

/-! ## CLK_MEAS (R372) -/

/-- CLK_MEAS_GO (R370, R372). -/
def execClkMeasGo (src : Src) (die : Fin 8) (value : BitVec 32) (s : State) : Host.Outcome State Fault Refusal :=
  .next (s.writeAs src .CLK_MEAS_CTL die 0 (fun s =>
    let d := die.val
    let v := value.toNat
    let s := ((s.setReg .CLK_MEAS_CTL_REF d (natBits v 0 4)).setReg .CLK_MEAS_CTL_MEAS d (natBits v 4 4)).setReg
      .CLK_MEAS_CTL_WINDOWM1 d (natBits v 16 16)
    if natBits v 8 1 = 0 then s
    else if s.gateOn d 7 = false ∨ s.power.measuring.contains d ∨ natBits v 0 4 = 15 ∨ natBits v 4 4 = 15 then
      s.setReg .CLK_MEAS_RES_ERR d 1
    else
      let s := { s with power := { s.power with measuring := d :: s.power.measuring } }
      ((s.setReg .CLK_MEAS_RES_COUNT d 0).setReg .CLK_MEAS_RES_DONE d 0).setReg .CLK_MEAS_RES_OVF d 0))

/-- CLK_MEAS_DONE (R372). -/
def execClkMeasDone (die : Fin 8) (edges : Nat) (s : State) : Host.Outcome State Fault Refusal :=
  .next (
    let d := die.val
    if s.power.measuring.contains d = false then s
    else
      let s := { s with power := { s.power with measuring := s.power.measuring.filter (· != d) } }
      ((s.setReg .CLK_MEAS_RES_COUNT d (min edges (2 ^ 32 - 1))).setReg .CLK_MEAS_RES_DONE d 1).setReg .CLK_MEAS_RES_OVF d
        (if 2 ^ 32 ≤ edges then 1 else 0))

/-! ## CLK_OUT (R373) -/

/-- MLOOP_HBM's output at a rate index in MHz (table Multiplying loops). -/
def hbmMhz (rate : Nat) : Nat := if rate = 0 then 2500 else if rate = 1 then 2000 else if rate = 2 then 1600 else 1000

/-- A domain's nominal frequency as a fraction of MHz: its divided root, or `own`. -/
def State.domainMhz (s : State) (die d own : Nat) : Nat × Nat :=
  if s.reg .CLK_SRC_SEL_SEL (die * 5 + d) = 1 then (1600, s.reg .CLK_SRC_SEL_DIVM1 (die * 5 + d) + 1) else (own, 1)

/-- The nominal frequency of a clock code as a fraction of MHz (table Clock selection codes). One loop serves both stacks of a die;
where their rates differ, the code of MLOOP_HBM stands for H0's (DESIGN CHOICE, log 19). -/
def State.nominalMhz (s : State) (die code : Nat) : Nat × Nat :=
  if code = 0 then (s.reg .CLK_REF_SEL_XIN_A_MHZ die, 1)
  else if code = 1 then (s.reg .CLK_REF_SEL_XIN_B_MHZ die, 1)
  else if code = 2 then (800, 1)
  else if code = 3 then (1, 1)
  else if code = 4 then (1600, 1)
  else if code = 5 then (hbmMhz (s.reg .HBM_STATE_FREQ (2 * die)), 1)
  else if code ≤ 9 then (10 * s.reg .CLK_FAB_FREQ_F (die * 4 + (code - 6)), 1)
  else if code = 10 then s.domainMhz die 0 800
  else s.domainMhz die (code - 10) (10 * s.reg .CLK_FAB_FREQ_F (die * 4 + (code - 11)))

/-- Whether CLK_OUT_CTL of a die is present (R373). -/
def State.hasClkOut (s : State) (die : Nat) : Bool := decide (s.dies = 8) && decide (die = 0)

/-- CLK_OUT_CTL_WRITE (R373). -/
def execClkOutCtlWrite (src : Src) (die : Fin 8) (value : BitVec 32) (s : State) : Host.Outcome State Fault Refusal :=
  .next (s.writeAs src .CLK_SRC_STAT die 0 (fun s =>
    let v := value.toNat
    let code := natBits v 0 4
    let n := natBits v 4 12 + 1
    let f := s.nominalMhz 0 code
    if s.hasClkOut die = false then s
    else if code = 15 ∨ 200 * n * f.2 < f.1 then s.setReg .CLK_OUT_CTL_ERR 0 1
    else
      let s := ((s.setReg .CLK_OUT_CTL_SEL 0 code).setReg .CLK_OUT_CTL_DIVM1 0 (natBits v 4 12)).setReg .CLK_OUT_CTL_EN 0
        (natBits v 16 1)
      if natBits v 17 1 = 1 then s.setReg .CLK_OUT_CTL_ERR 0 0 else s))

/-- Whether the CLK_OUT pin is driven (R370, R373). -/
def State.clkOutDriven (s : State) : Bool := s.hasClkOut 0 && s.regB .CLK_OUT_CTL_EN 0 && s.gateOn 0 8

/-! ## Gating (R370, R371) -/

/-- The stack of a byte of an HBM area. -/
def State.areaOn (s : State) (x k h : Nat) : Bool :=
  let i := x * 16 + k
  let lo := s.reg .CTX_HBM_BASE i * 0x200000
  let n := s.reg .CTX_HBM_SIZE i * 0x200000
  s.regB .CTX_HBM_VALID i && decide (0 < n) && decide (lo < (h + 1) * s.stackE) && decide (h * s.stackE < lo + n)

/-- Whether a context that is neither FREE nor OPEN holds an area on a stack (R370). -/
def State.stackHeld (s : State) (h : Nat) : Bool :=
  s.ctxs.any (fun e => decide (1 < s.reg .CTX_STATE_STATE e.1) && (List.range 16).any (fun k => s.areaOn e.1 k h))

/-- GATED_BLOCK_ACCESS (R371). -/
def execGatedBlockAccess (src : Src) (die : Fin 8) (block : Fin 9) (s : State) : Host.Outcome State Fault Refusal :=
  .next (
    match s.reaches src with
    | .granted =>
      if s.dies ≤ die.val then s.unsupported src
      else if s.gateOn die block then s
      else (s.completerAbort src).gateErr die block
    | .unsupported => s.unsupported src
    | _ => s)

end Sys2Proof.Machine
end

