-- ==== Sys2Proof/Machine/Hbm.lean ====
section
/-! DEFINITION. The HBM controllers: requests, queues, pages, refresh, ECC, rate changes, retraining (R165 to R186). -/

namespace Sys2Proof.Machine

/-! ## Admission (R168, R181, R185, R356, R370) -/

/-- What a controller does with a request: refuses it, lets it wait, or serves it. -/
inductive Admit where
  | refuse (k : Refuse)
  | wait
  | serve
  deriving DecidableEq, Repr

/-- Admission of `n` bytes from a stack offset. -/
def State.hbmAdmit (s : State) (h o n : Nat) : Admit :=
  if s.gateOn (h / 2) (h % 2) = false ∨ s.reg .HBM_STATE_STATE h = 5 then .refuse .rst
  else if s.reg .HBM_STATE_STATE h ≠ 2 ∨ s.locked (h / 2) 1 = false then .wait
  else if s.stackE < o + n ∨ s.stackE ≤ o then .refuse .den
  else .serve

/-! ## Requests (R168 to R171, R178) -/

/-- The data of a packet as bytes. -/
def pBytes (p : Packet) : List Byte := p.data.flatMap (fun u => natBytes u.toNat 16)

/-- The page hint of a packet (R172). -/
def pHint (p : Packet) : Nat := natBits p.tag.toNat 14 2

/-- A MEM_WRITE at a controller; none where it waits. -/
def State.hbmMemWrite (s : State) (h : Nat) (p : Packet) (es : List AtomEcc) : Option State :=
  let here : Ep := .hub h 0
  let o := pOff p * 16
  let n := p.data.length * 16
  match s.hbmAdmit h o n with
  | .refuse k => some (s.refuse here none (h / 2) k p)
  | .wait => none
  | .serve =>
    some ((((s.homeFirst (h * s.stackE + o) n).hbmAccept h (pHint p) (atomMasks o n) es).hbmWrite (h * s.stackE + o) (pBytes p)).accept
      here p)

/-- The bytes of a masked write: the old bytes where the mask is 0. -/
def maskBytes (m : Nat) (old new : List Byte) : List Byte :=
  (List.range 64).map (fun i => if natBits m i 1 = 1 then new.getD i 0 else old.getD i 0)

/-- A MASK_WRITE at a controller (R144, R171). One that is malformed is answered DEN at once, at a LOST or a busy stack too: the
packet is judged before the stack (DESIGN CHOICE, log 19). -/
def State.hbmMaskWrite (s : State) (h : Nat) (p : Packet) (e : AtomEcc) : Option State :=
  let here : Ep := .hub h 0
  let o := pOff p * 16
  if p.data.length ≠ 5 ∨ pOff p % 4 ≠ 0 then some (s.refuse here none (h / 2) .den p)
  else match s.hbmAdmit h o 64 with
    | .refuse k => some (s.refuse here none (h / 2) k p)
    | .wait => none
    | .serve =>
      let m := (p.data.getD 4 0).toNat % 2 ^ 64
      let a := h * s.stackE + o
      let s := (s.homeFirst a 64).hbmAccept h (pHint p) [(o / 64, m)] [e]
      let new := maskBytes m (s.hbmBytes a 64) (pBytes p)
      some ((if m = 0 then s else s.hbmWrite a new).accept here p)

/-- A MEM_READ at a controller. -/
def State.hbmMemRead (s : State) (h : Nat) (p : Packet) (es : List AtomEcc) : Option State :=
  let here : Ep := .hub h 0
  let o := pOff p * 16
  let n := p.count.toNat * 16
  match s.hbmAdmit h o n with
  | .refuse k => some (s.refuse here none (h / 2) k p)
  | .wait => none
  | .serve =>
    let r := s.hbmRead h o n (pHint p) es
    match r.2 with
    | none => some ((r.1.reply here none p cRDATA 0x0302 []).accept here p)
    | some b => some ((r.1.reply here none p cRDATA 0 ((chunks 16 p.count.toNat b).map
        (fun c => BitVec.ofNat 128 (bytesNat c)))).accept here p)

/-! ## Queues, refresh, scrub -/

/-- Whether a stack is in the module, its controller works on it and is not gated, which holds it in self-refresh (R370). -/
def State.stackUp (s : State) (h : Nat) : Bool :=
  decide (h < 2 * s.dies) && decide (s.reg .HBM_STATE_STATE h ≠ 0) && s.gateOn (h / 2) (h % 2)

/-- HBM_WRITE_QUEUE_DRAIN (R170): between commands no read is queued, so that a queue may always drain. -/
def execHbmWriteQueueDrain (stack : Fin 16) (pc : Fin 64) (s : State) : Host.Outcome State Fault Refusal :=
  .next (if s.stackUp stack then s.drainQueue stack (· == pc.val) else s)

/-- The refresh interval of a stack in command-clock cycles: TREFI of the set in use, halved while the stack is hot (R174). -/
def State.refreshEvery (s : State) (h : Nat) : Nat :=
  let t := s.reg (if s.regB .HBM_STATE_TSET h then .HBM_TIMING_B_TREFI else .HBM_TIMING_A_TREFI) h
  if s.regB .HBM_STATE_HOT h then t / 2 else t

/-- HBM_REFRESH (R172, R174): the bank is refreshed as its interval expires, never later. -/
def execHbmRefresh (stack : Fin 16) (pc : Fin 64) (bank : Fin 64) (s : State) : Host.Outcome State Fault Refusal :=
  .next (
    if s.stackUp stack = false then s
    else s.modStk stack (fun k =>
      { k.closeRow pc bank with
        refreshed := Tbl.set k.refreshed (pc.val, bank.val)
          ((Tbl.getD k.refreshed (pc.val, bank.val) (0, 0)).1 + 1, s.refreshEvery stack) }))

/-- HBM_NEIGHBOUR_REFRESH (R175). -/
def execHbmNeighbourRefresh (stack : Fin 16) (pc : Fin 64) (bank : Fin 64) (s : State) : Host.Outcome State Fault Refusal :=
  .next (s.neighbourRefresh stack pc bank)

/-- HBM_OPEN_IDLE (R172). -/
def execHbmOpenIdle (stack : Fin 16) (pc : Fin 64) (bank : Fin 64) (s : State) : Host.Outcome State Fault Refusal :=
  .next (s.modStk stack (fun k => k.closeRow pc bank))

/-- Atoms of a stack, exposed or not (R165). -/
def stackAtoms : Nat := 48 * 2 ^ 30 / 64

/-- HBM_SCRUB_READ (R179): an atom that queued writes cover is not read from the stack (R170). -/
def execHbmScrubRead (stack : Fin 16) (atom : Nat) (ecc : AtomEcc) (s : State) : Host.Outcome State Fault Refusal :=
  .next (
    if s.stackUp stack = false ∨ s.reg .HBM_STATE_STATE stack ≠ 2 ∨ s.regB .HBM_CTL_SCRUB_EN stack = false ∨ stackAtoms ≤ atom
    then s
    else (s.readAtoms stack 0 (s.uncovered stack (atom * 64) 64) [ecc]).1)

/-- A stack's temperature as its sensor reads it (R174, R382). -/
def State.stackTemp (s : State) (h temp : Nat) : State :=
  let hot := if 85 < temp then 1 else 0
  let was := s.reg .HBM_STATE_HOT h
  let s := (s.setReg .HBM_STATE_TEMP h (min temp 255)).setReg .HBM_STATE_HOT h hot
  if was = hot then s else s.raise (h / 2) (0x30 + h % 2)

/-- HBM_HOT (R174, R382). -/
def execHbmHot (stack : Fin 16) (temp : Nat) (s : State) : Host.Outcome State Fault Refusal :=
  .next (if 2 * s.dies ≤ stack.val then s else s.stackTemp stack temp)

/-! ## Rate changes and retraining (R181 to R185) -/

/-- HBM_FREQ_REQ (R181). -/
def execHbmFreqReq (src : Src) (stack : Fin 16) (value : BitVec 32) (s : State) : Host.Outcome State Fault Refusal :=
  .next (s.writeAs src .HBM_FREQ_REQ stack 0 (fun s =>
    let h := stack.val
    let go := natBits value.toNat 2 1 == 1
    if go ∧ s.reg .HBM_STATE_STATE h ≠ 2 then s.setReg .HBM_STATE_CFGERR h 1
    else
      let s := s.setReg .HBM_FREQ_REQ_FREQ h (natBits value.toNat 0 2)
      if go then s.hbmState h 3 else s))

/-- The state that a rate change leaves: READY, or RETRAIN where MLOOP_HBM has coasted meanwhile (R356). -/
def State.afterChange (s : State) (h : Nat) : State :=
  if (s.stk h).recoast then (s.modStk h (fun k => { k with recoast := false })).hbmState h 4 else s.hbmState h 2

/-- HBM_FREQ_CHANGE_DONE (R181). The die's other stack goes on while the loop relocks for this one: R181 stops one controller
alone (DESIGN CHOICE, log 19). -/
def execHbmFreqChangeDone (stack : Fin 16) (s : State) : Host.Outcome State Fault Refusal :=
  .next (
    let h := stack.val
    if s.reg .HBM_STATE_STATE h ≠ 3 ∨ s.gateOn (h / 2) (h % 2) = false then s
    else
      let s := s.selfRefresh h
      (((s.setReg .HBM_STATE_FREQ h (s.reg .HBM_FREQ_REQ_FREQ h)).setReg .HBM_STATE_TSET h (s.reg .HBM_STATE_TSET h + 1)).bump
        .HBM_RETRAIN_STAT_FCHG h).afterChange h)

/-- HBM_RETRAIN_REQ (R183). -/
def execHbmRetrainReq (src : Src) (stack : Fin 16) (value : BitVec 32) (s : State) : Host.Outcome State Fault Refusal :=
  .next (s.writeAs src .HBM_RETRAIN_REQ stack 0 (fun s =>
    if value.toNat % 2 = 0 then s
    else if s.reg .HBM_STATE_STATE stack ≠ 2 then s.setReg .HBM_STATE_CFGERR stack 1
    else s.hbmState stack 4))

/-- An interface error: the sixteenth within 1 ms retrains the stack (R183). -/
def State.interfaceError (s : State) (h : Nat) : State :=
  let l := s.timer :: ((s.stk h).errs.filter (fun t => decide ((s.timer + 2 ^ 48 - t) % 2 ^ 48 < 1000000))).take 15
  let s := s.modStk h (fun k => { k with errs := l })
  if s.stackReady h && decide (l.length = 16) then s.hbmState h 4 else s

/-- HBM_RETRAIN_TRIGGER (R183): a write that a retry has brought through is no interface error. -/
def execHbmRetrainTrigger (stack : Fin 16) (cause : RetrainCause) (s : State) : Host.Outcome State Fault Refusal :=
  .next (
    let h := stack.val
    if s.stackUp h = false then s
    else match cause with
      | .commandParity => s.interfaceError h
      | .writeCrc n => if 4 < n then s.interfaceError h else s
      | .temperature deg =>
        let s := s.stackTemp h deg
        let t := (s.stk h).trainTemp
        if s.stackReady h && (decide (t + 20 ≤ deg) || decide (deg + 20 ≤ t)) then s.hbmState h 4 else s)

/-- A stack is LOST, and YLD_STAT shows it. -/
def State.markLost (s : State) (h : Nat) : State :=
  (s.setReg .YLD_STAT_STACK_LOST (h / 2) (natSet (s.reg .YLD_STAT_STACK_LOST (h / 2)) (h % 2) 1 1)).hbmState h 5

/-- A stack is LOST: the Chart records it, where a second processor agrees (R185, R377, R397). -/
def State.stackLost (s : State) (h cause : Nat) : State :=
  (s.markLost h).chartNote (h / 2) ⟨5, true, h % 2, 0, 0, cause, s.startNo (h / 2)⟩

/-- The fields of the timing set that a rate change loads, but for its rate (R181). -/
def timingFields (b : Bool) : List Fld :=
  if b then [.HBM_TIMING_B_TRCD, .HBM_TIMING_B_TRP, .HBM_TIMING_B_TRAS, .HBM_TIMING_B_TRC, .HBM_TIMING_B_TRRD, .HBM_TIMING_B_TFAW,
    .HBM_TIMING_B_TWR, .HBM_TIMING_B_TRTP, .HBM_TIMING_B_TREFI, .HBM_TIMING_B_TRFCSB]
  else [.HBM_TIMING_A_TRCD, .HBM_TIMING_A_TRP, .HBM_TIMING_A_TRAS, .HBM_TIMING_A_TRC, .HBM_TIMING_A_TRRD, .HBM_TIMING_A_TFAW,
    .HBM_TIMING_A_TWR, .HBM_TIMING_A_TRTP, .HBM_TIMING_A_TREFI, .HBM_TIMING_A_TRFCSB]

/-- A timing set loaded by Helm firmware: the timings are the stack's, which the spec does not give. -/
def State.loadTiming (s : State) (h : Nat) (b : Bool) (rate : Nat) : State :=
  ((timingFields b).foldl (fun s f => (s.setReg f h s.freeVal).drew 1) s).setReg
    (if b then .HBM_TIMING_B_RATE else .HBM_TIMING_A_RATE) h rate

/-- Whether the lease holder's RATE of a stack is still to be carried out (R182). -/
def State.rateDue (s : State) (h : Nat) : Bool :=
  decide (s.reg .HBM_CTL_RATE h ≠ (s.stk h).rate) && decide (s.reg .HBM_STATE_STATE h ≠ 5) && s.stackUp h

/-- Helm firmware carries out the RATE that the lease holder wants of a stack, once the stack is READY (R181, R182). -/
def State.newRate (s : State) (h : Nat) : State :=
  let r := s.reg .HBM_CTL_RATE h
  if s.rateDue h = false ∨ s.stackReady h = false then s
  else
    let s := s.modStk h (fun k => { k with rate := r })
    if r = s.reg .HBM_STATE_FREQ h then s
    else ((s.loadTiming h (s.reg .HBM_STATE_TSET h == 0) r).setReg .HBM_FREQ_REQ_FREQ h r).hbmState h 3

/-- HBM_RETRAIN_DONE (R182, R184, R185): the third attempt in a row trains at the next lower rate; the timing set in use stays the
one it was, since R182 asks for no other (DESIGN CHOICE, log 19). A rate change that a restart has waited with follows. -/
def execHbmRetrainDone (stack : Fin 16) (ok : Bool) (s : State) : Host.Outcome State Fault Refusal :=
  .next (
    let h := stack.val
    if s.reg .HBM_STATE_STATE h ≠ 4 ∨ s.gateOn (h / 2) (h % 2) = false then s
    else
      let s := s.selfRefresh h
      let fails := s.reg .HBM_STATE_FAILS h
      if ok then
        let f := s.reg .HBM_STATE_FREQ h
        let s := if fails = 2 ∧ f < 3 then (s.setReg .HBM_STATE_FREQ h (f + 1)).bump .HBM_RETRAIN_STAT_FCHG h else s
        let s := ((s.setReg .HBM_STATE_FAILS h 0).bump .HBM_RETRAIN_STAT_RETRAINS h).modStk h
          (fun k => { k with trainTemp := s.reg .HBM_STATE_TEMP h })
        let s := s.hbmState h 2
        if s.reg .PKG_STATE_STATE 0 = 3 then s.newRate h else s
      else
        let s := (s.setReg .HBM_STATE_FAILS h (fails + 1)).bump .HBM_RETRAIN_STAT_FAILS h
        if 3 ≤ fails + 1 then s.stackLost h 0x20 else s)

end Sys2Proof.Machine
end

