-- ==== Sys2Proof/Machine/Dsp.lean ====
section
/-! DEFINITION. The DSP slices (R295 to R303). Each command is one cycle of the slice at its issue stage (log 30). -/

namespace Sys2Proof.Machine

/-! ## Regions of the fabric -/

/-- A fabric region. -/
def State.fabRegion (s : State) (die r : Nat) : FabRegion := Tbl.getD s.fab.regions (die * 16 + r) .reset

/-- The state with a fabric region changed. -/
def State.modFabRegion (s : State) (die r : Nat) (f : FabRegion → FabRegion) : State :=
  { s with fab := { s.fab with regions := Tbl.set s.fab.regions (die * 16 + r) (f (s.fabRegion die r)) } }

/-- Whether the die is present and its fabric clocks run (R370). -/
def State.fabOn (s : State) (die : Nat) : Bool := decide (die < s.dies) && s.gateOn die 6

/-- Whether the logic of a region captures: configured, its set-reset released, its writes enabled (R290, R323). -/
def State.fabRuns (s : State) (die r : Nat) : Bool :=
  s.fabOn die && !(s.fabRegion die r).gsr && (s.fabRegion die r).writes

/-- Whether the Mask of a region is open (R323, R328, R329). -/
def State.maskOpen (s : State) (die r : Nat) : Bool := s.fabOn die && (s.fabRegion die r).open_

/-! ## A slice -/

/-- A slice. -/
def State.slice (s : State) (die n : Nat) : Slice := Tbl.getD s.fab.slices (die * 8192 + n) .reset

/-- The state with a slice replaced. -/
def State.setSlice (s : State) (die n : Nat) (k : Slice) : State :=
  { s with fab := { s.fab with slices := Tbl.set s.fab.slices (die * 8192 + n) k } }

/-- One cycle of the pipelines: what later cycles see moves up by one (R296, R297, R298, R302). -/
def Slice.cycle (k : Slice) : Slice :=
  { k with acc1 := k.acc, acc2 := k.acc1, sv := k.val, si := k.idx, out := k.outNext.getD k.out, ov := k.outNext.isSome,
           outNext := none, av0 := false, av1 := false, ir := false }

/-- Whether a standing slice has anything left in its pipelines or on a strobe (R296, R298, R300). -/
def Slice.settled (k : Slice) : Bool := decide (k.cycle = k)

/-- The physical entry of name rn (R299). -/
def Slice.entry (k : Slice) (n : Nat) : Nat := if n < 8 then n else 8 + (n - 8 + 8 - k.rrb.toNat) % 8

/-- A register (R299). -/
def Slice.reg (k : Slice) (n : Nat) : BitVec 56 := vget k.regs (k.entry n) 0

/-- The slice with a register written. -/
def Slice.setReg (k : Slice) (n : Nat) (x : BitVec 56) : Slice := { k with regs := vset k.regs (k.entry n) x }

/-- A loop of a slice. -/
def Slice.lp (k : Slice) (one : Bool) : LoopRec := if one then k.l1 else k.l0

/-- The slice with a loop replaced. -/
def Slice.setLp (k : Slice) (one : Bool) (l : LoopRec) : Slice := if one then { k with l1 := l } else { k with l0 := l }

/-- The back-edge of one loop at entry `p`, unless an earlier one has taken the next instruction (R104, R299). -/
def Slice.backEdge (k : Slice) (p : Nat) (done one : Bool) : Slice × Bool :=
  let l := k.lp one
  if done || !l.active || l.stop != p then (k, done)
  else if 1 < l.cnt.toNat then
    ({ k.setLp one { l with cnt := l.cnt - 1 } with pc := l.start, rrb := if l.rot then k.rrb + 1 else k.rrb }, true)
  else (k.setLp one l.closed, false)

/-- The slice past entry `p`: the inner back-edge first, then the outer (R105). -/
def Slice.past (k : Slice) (p : Nat) : Slice :=
  let inner := decide (k.l0.start ≤ k.l1.start)
  let r := { k with pc := p + 1 }.backEdge p false inner
  (r.1.backEdge p r.2 (!inner)).1

/-- The slice past the instruction at PC. -/
def Slice.next (k : Slice) : Slice := k.past k.pc

/-- Whether stage predication suppresses the instruction at PC (R107). -/
def Slice.suppressed (k : Slice) : Bool := k.l0.suppresses k.pc || k.l1.suppresses k.pc

/-! ## Instruction words (table DSP instruction encodings) -/

/-- The opcode. -/
def dOpc (w : W32) : Nat := wf w 28 4

/-- Whether a source code is reserved (R302). -/
def badSource (c : Nat) : Bool := decide (0x14 ≤ c)

/-- Whether a field holds a reserved value (R302, R303). -/
def dspReserved (w : W32) : Bool :=
  match dOpc w with
  | 0x0 => false
  | 0x1 => badSource (wf w 23 5) || badSource (wf w 18 5) || badSource (wf w 13 5) || decide (wf w 11 2 = 3) ||
      decide (6 ≤ wf w 8 3)
  | 0x2 => badSource (wf w 19 5) && decide (wf w 19 5 ≠ 0x1F)
  | 0x3 => decide (56 ≤ wf w 22 6)
  | 0x4 => badSource (wf w 23 5)
  | 0x5 => false
  | 0x6 => decide (wf w 25 2 = 3)
  | 0x7 => decide (wf w 19 5 = 0)
  | 0xF => false
  | _ => true

/-- The source codes an instruction names. -/
def dspSources (w : W32) : List Nat :=
  match dOpc w with
  | 0x1 => [wf w 23 5, wf w 18 5, wf w 13 5]
  | 0x2 => [wf w 19 5]
  | 0x4 => [wf w 23 5]
  | _ => []

/-- Whether an instruction names an input port (R301). -/
def readsInput (w : W32) : Bool := (dspSources w).any (fun c => decide (0x10 ≤ c) && decide (c ≤ 0x12))

/-- A source operand of 24 bits (R299, R302). -/
def Slice.source (k : Slice) (io : DspIn) (c : Nat) : BitVec 24 :=
  if c < 16 then (k.reg c).extractLsb' 0 24
  else if c = 0x10 then io.ia
  else if c = 0x11 then io.ib
  else if c = 0x12 then io.id
  else 0

/-! ## Issue -/

/-- The slice stopped on an error (R303), counted on its die; what its pipelines hold goes on to the outputs in the cycles that
follow (R300). -/
def State.dspError (s : State) (die n : Nat) (k : Slice) : State :=
  (s.setSlice die n { k with running := false, err := true }).bump .FAB_ERR_STAT_SEQERR die

/-- One cycle with opcode `o` at issue (R300, R301, R303). Opcode 0 stands for the reserved opcodes too, and for a PC
past entry 31. -/
def State.dspIssue (s : State) (i : SliceId) (o : Nat) (io : DspIn) (act : W32 → Slice → State → State) : State :=
  let die := i.die.val
  let k := s.slice die i.n
  if !k.running || !s.fabRuns die (i.n.val / 512) then s
  else if 32 ≤ k.pc then (if o = 0 then s.dspError die i.n k.cycle else s)
  else
    let w := vget k.prog k.pc 0
    if dOpc w ≠ o ∧ ¬(o = 0 ∧ 8 ≤ dOpc w ∧ dOpc w ≤ 14) then s
    else if k.suppressed then s.setSlice die i.n k.cycle.next
    else if dspReserved w then s.dspError die i.n k.cycle
    else if readsInput w && !io.iv then s.setSlice die i.n { k.cycle with ir := true }
    else act w k s

/-- An instruction that acts on its slice alone: `f` gives the slice after its cycle from the slice before it. -/
def State.dspOne (s : State) (i : SliceId) (o : Nat) (io : DspIn) (f : W32 → Slice → Slice → Slice) : State :=
  s.dspIssue i o io (fun w k s => s.setSlice i.die i.n (f w k { k.cycle with ir := readsInput w }).next)

/-- DSP_NOP (R302). -/
def execDspNop (i : SliceId) (io : DspIn) (s : State) : Host.Outcome State Fault Refusal :=
  .next (s.dspOne i 0x0 io (fun _ _ k => k))

/-! ## MAC (R295) -/

/-- An operand read as signed or unsigned. -/
def rd24 (sgn : Bool) (x : BitVec 24) : Int := if sgn then x.toInt else (x.toNat : Int)

/-- A value clamped to a range, and whether it was outside. -/
def clampI (lo hi x : Int) : Int × Bool := if x < lo then (lo, true) else if hi < x then (hi, true) else (x, false)

/-- X of the product: the pre-adder, saturating to the 24-bit range. -/
def preAdd (sgn : Bool) (pre : Nat) (a d : BitVec 24) : Int × Bool :=
  let x := rd24 sgn a
  let y := rd24 sgn d
  let v := if pre = 1 then x + y else if pre = 2 then x - y else x
  if sgn then clampI (-(2 ^ 23)) (2 ^ 23 - 1) v else clampI 0 (2 ^ 24 - 1) v

/-- ACC after a result: saturated under SATM, else modulo 2^56. -/
def accStep (satm : Bool) (x : Int) : BitVec 56 × Bool :=
  if satm then
    let r := clampI (-(2 ^ 55)) (2 ^ 55 - 1) x
    (BitVec.ofInt 56 r.1, r.2)
  else (BitVec.ofInt 56 x, false)

/-- COUT of the slice before, or 0 for the first of a region. -/
def State.cin (s : State) (die n : Nat) : BitVec 56 := if n % 512 = 0 then 0 else (s.slice die (n - 1)).acc2

/-- What MAC leaves in ACC and SAT. -/
def Slice.mac (k : Slice) (io : DspIn) (cin : BitVec 56) (w : W32) : BitVec 56 × Bool :=
  let sgn := decide (wf w 7 1 = 1)
  let x := preAdd sgn (wf w 11 2) (k.source io (wf w 23 5)) (k.source io (wf w 13 5))
  let p := x.1 * rd24 sgn (k.source io (wf w 18 5))
  let r := match wf w 8 3 with
    | 0 => accStep k.satm p
    | 1 => accStep k.satm (k.acc.toInt + p)
    | 2 => accStep k.satm (k.acc.toInt - p)
    | 3 => accStep k.satm (cin.toInt + p)
    | 4 => accStep k.satm (cin.toInt - p)
    | _ => (k.acc, false)
  (r.1, x.2 || r.2)

/-- DSP_MAC (R295). -/
def execDspMac (i : SliceId) (io : DspIn) (s : State) : Host.Outcome State Fault Refusal :=
  .next (s.dspOne i 0x1 io (fun w k k' =>
    let r := k.mac io (s.cin i.die i.n) w
    { k' with acc := r.1, sat := k'.sat || r.2 }))

/-! ## MOV, OUT (R296, R302) -/

/-- What MOV writes: ACC in full, else a 24-bit source, above which the spec gives no bits. -/
def Slice.movValue (k : Slice) (io : DspIn) (fr : Nat) (c : Nat) : BitVec 56 :=
  if c = 0x1F then k.acc2
  else BitVec.ofNat 56 ((k.source io c).toNat + (fr % 2 ^ 32) * 2 ^ 24)

/-- DSP_MOV (R302). -/
def execDspMov (i : SliceId) (io : DspIn) (s : State) : Host.Outcome State Fault Refusal :=
  .next (({ s with free := s.free + 1 }).dspOne i 0x2 io (fun w k k' =>
    k'.setReg (wf w 24 4) (k.movValue io s.freeVal (wf w 19 5))))

/-- A value shifted right, rounded to nearest even or toward −∞. -/
def shiftRnd (x : Int) (sh : Nat) (rnd : Bool) : Int :=
  let q := x / (2 ^ sh : Nat)
  let r := x % (2 ^ sh : Nat)
  if rnd && (decide ((2 ^ sh : Nat) < 2 * r) || (decide (2 * r = (2 ^ sh : Nat)) && decide (q % 2 = 1))) then q + 1 else q

/-- The result of OUT: shifted, rounded and saturated to 24 or 48 signed bits. -/
def Slice.outValue (k : Slice) (w : W32) : BitVec 48 × Bool :=
  let v := if wf w 19 1 = 1 then k.reg (wf w 15 4) else k.acc2
  let x := shiftRnd v.toInt (wf w 22 6) (decide (wf w 20 1 = 1))
  let b : Nat := if wf w 21 1 = 1 then 47 else 23
  let r := clampI (-(2 ^ b : Nat)) ((2 ^ b : Nat) - 1) x
  (BitVec.ofInt 48 r.1, r.2)

/-- DSP_OUT (R296). -/
def execDspOut (i : SliceId) (io : DspIn) (s : State) : Host.Outcome State Fault Refusal :=
  .next (s.dspOne i 0x3 io (fun w k k' =>
    let r := k.outValue w
    { k' with outNext := some r.1, sat := k'.sat || r.2 }))

/-! ## SRCH (R297) -/

/-- A chain of searches begins: by CLR = 1, or by a rising edge of RUN. -/
def Slice.beginChain (k : Slice) : Slice :=
  { k with fresh := true, n := 0, ibase := (k.reg 6).extractLsb' 0 32, istep := (k.reg 7).extractLsb' 0 32 }

/-- One element searched. -/
def Slice.search (k : Slice) (x : BitVec 24) (max sgn : Bool) : Slice :=
  let better := if max then decide (rd24 sgn k.val < rd24 sgn x) else decide (rd24 sgn x < rd24 sgn k.val)
  let k' := if k.fresh || better then
      { k with val := x, idx := k.ibase + BitVec.ofNat 32 k.n * k.istep, fresh := false }
    else k
  { k' with n := k.n + 1 }

/-- DSP_SRCH (R297). -/
def execDspSrch (i : SliceId) (io : DspIn) (s : State) : Host.Outcome State Fault Refusal :=
  .next (s.dspOne i 0x4 io (fun w k k' =>
    let k' := if wf w 21 1 = 1 then k'.beginChain else k'
    k'.search (k.source io (wf w 23 5)) (decide (wf w 22 1 = 1)) (decide (wf w 20 1 = 1))))

/-! ## AG and AGSET (R298) -/

/-- The offset after a step, modulo LEN; 0 when LEN is 0. -/
def Ptr.step (p : Ptr) (st : Int) : Ptr :=
  { p with off := if p.len = 0 then 0 else BitVec.ofInt 16 (((p.off.toNat : Int) + st) % (p.len.toNat : Int)) }

/-- A pointer field written; LEN reduces OFF. -/
def Ptr.set (p : Ptr) (field : Nat) (v : BitVec 16) : Ptr :=
  if field = 0 then { p with base := v }
  else if field = 1 then { p with len := v, off := if v = 0 then 0 else BitVec.ofNat 16 (p.off.toNat % v.toNat) }
  else { p with off := if p.len = 0 then 0 else v }

/-- AG on a pointer: the address when EMIT = 1, and the step. -/
def Slice.ag (k : Slice) (w : W32) : Slice :=
  let one := decide (wf w 27 1 = 1)
  let p := if one then k.p1 else k.p0
  let emit := decide (wf w 26 1 = 1)
  let st := sInt 16 (wf w 10 16)
  if one then { k with p1 := p.step st, aaddr1 := if emit then p.base + p.off else k.aaddr1, av1 := emit }
  else { k with p0 := p.step st, aaddr0 := if emit then p.base + p.off else k.aaddr0, av0 := emit }

/-- DSP_AG (R298). -/
def execDspAg (i : SliceId) (io : DspIn) (s : State) : Host.Outcome State Fault Refusal :=
  .next (s.dspOne i 0x5 io (fun w _ k => k.ag w))

/-- DSP_AGSET (R298). -/
def execDspAgset (i : SliceId) (io : DspIn) (s : State) : Host.Outcome State Fault Refusal :=
  .next (s.dspOne i 0x6 io (fun w _ k =>
    let v := BitVec.ofNat 16 (wf w 9 16)
    if wf w 27 1 = 1 then { k with p1 := k.p1.set (wf w 25 2) v } else { k with p0 := k.p0.set (wf w 25 2) v }))

/-! ## LOOP, HALT, RUN (R300, R303) -/

/-- The active loops. -/
def Slice.loops (k : Slice) : List LoopRec := [k.l0, k.l1].filter (·.active)

/-- Whether LOOP stops the sequencer (R105, R107, R303). -/
def Slice.loopError (k : Slice) (w : W32) : Bool :=
  let len := wf w 19 5
  let rot := decide (wf w 26 1 = 1)
  let stop := k.pc + len
  let body := (List.range len).map (fun j => vget k.prog (k.pc + 1 + j) 0)
  (k.lp (wf w 27 1 == 1)).active || k.loops.any (fun l => decide (l.stop < stop)) || decide (31 < stop) ||
    (rot && (decide (8 < len) || k.loops.any (·.rot) || body.any (fun b => dOpc b == 0x7 || dOpc b == 0xF)))

/-- LOOP opens its loop, or skips its body (R104, R303). -/
def Slice.openLoop (k : Slice) (w : W32) : Slice :=
  let n := if wf w 9 1 = 1 then (k.reg (wf w 5 4)).toNat % 2 ^ 16 else wf w 10 9
  let len := wf w 19 5
  let rot := decide (wf w 26 1 = 1)
  let stg := if rot then wf w 24 2 else 0
  let one := decide (wf w 27 1 = 1)
  if n = 0 then (k.setLp one (k.lp one).closed).past (k.pc + len)
  else
    ({ k with pc := k.pc + 1 }).setLp one
      ⟨BitVec.ofNat 32 (n + stg), k.pc + 1, k.pc + len, true, rot, stg, BitVec.ofNat 32 n,
       if rot then BitVec.ofNat 32 ((k.reg (wf w 1 4)).toNat % 2 ^ 16) else 0⟩

/-- DSP_LOOP (R303). -/
def execDspLoop (i : SliceId) (io : DspIn) (s : State) : Host.Outcome State Fault Refusal :=
  .next (s.dspIssue i 0x7 io (fun w k s =>
    if k.loopError w then s.dspError i.die i.n k.cycle else s.setSlice i.die i.n (k.cycle.openLoop w)))

/-- DSP_HALT (R300): the sequencer stands; its pipelines go on, cycle by cycle. -/
def execDspHalt (i : SliceId) (io : DspIn) (s : State) : Host.Outcome State Fault Refusal :=
  .next (s.dspIssue i 0xF io (fun _ k s => s.setSlice i.die i.n { k.cycle with running := false }))

/-- DSP_RUN (R297, R300, R303, R323). -/
def execDspRun (i : SliceId) (s : State) : Host.Outcome State Fault Refusal :=
  .next (
    if !s.fabRuns i.die (i.n.val / 512) then s
    else
      let k := (s.slice i.die i.n).beginChain
      s.setSlice i.die i.n { k with pc := 0, rrb := 0, l0 := .off, l1 := .off, running := true, err := false })

end Sys2Proof.Machine
end

