-- ==== Sys2Proof/Machine/Fabric.lean ====
section
/-! DEFINITION. Block RAM, tile ports, raw lanes, GPIO pins and interrupt ports of the fabric (R291 to R294, R304 to R314,
R384). -/

namespace Sys2Proof.Machine

/-! ## Block RAM (R291 to R294) -/

/-- Bytes of block RAM a die holds (R294). -/
def bramBytes : Nat := 0x600000

/-- A byte of block RAM, by die × 0x80_0000 + byte. -/
def State.bramByte (s : State) (a : Nat) : BitVec 8 := memGet s.fab.bram a

/-- Bytes of block RAM. -/
def State.bramTake (s : State) (a n : Nat) : List Byte := memTake s.fab.bram a n

/-- Block RAM written. -/
def State.bramPut (s : State) (a : Nat) (b : List Byte) : State := { s with fab := { s.fab with bram := memPut s.fab.bram a b } }

/-- What a block RAM port shows. -/
def State.bramShow (s : State) (key : Nat) (x : BitVec 64) (ue : Bool) : State :=
  { s with fab := { s.fab with ports := Tbl.set s.fab.ports key (x, ue) } }

/-- Bytes of a word under byte enables. -/
def enableBytes (be : BitVec 8) (old new : List Byte) : List Byte :=
  (List.range 8).map (fun i => if be.getLsbD i then new.getD i 0 else old.getD i 0)

/-- A read of a word through a port (R293). -/
def State.bramRead (s : State) (die key a : Nat) (e : Ecc) : State :=
  let x := BitVec.ofNat 64 (bytesNat (s.bramTake a 8))
  match e with
  | .clean => s.bramShow key x false
  | .corrected _ => (s.bramShow key x false).bump .FAB_ERR_STAT_BRAM_CE die
  | .uncorrectable => ((s.drew 1).bramShow key (BitVec.ofNat 64 s.freeVal) true).bump .FAB_ERR_STAT_BRAM_UE die

/-- A write of a word: a part of a word is read first (R291, R293). -/
def State.bramWrite (s : State) (die a : Nat) (be : BitVec 8) (new : List Byte) (e : Ecc) : State :=
  let put (s : State) : State := s.bramPut a (enableBytes be (s.bramTake a 8) new)
  if be = 0 then s
  else if be = 0xFF then put s
  else match e with
    | .clean => put s
    | .corrected _ => (put s).bump .FAB_ERR_STAT_BRAM_CE die
    | .uncorrectable => s.bump .FAB_ERR_STAT_BRAM_UE die

/-- The frames that are not zero of a region, by their number in it. -/
def State.regionFrames (s : State) (die r : Nat) : FrameList :=
  (s.fab.frames.filter (fun e => decide (e.1 / 2 ^ 15 = 32 * die + r))).map (fun e => (e.1 % 2 ^ 15, e.2))

/-- What a read of a word in the cycle of the same port's write shows: the old data or the new, as the port is configured (R291). -/
def State.bramBoth (s : State) (die r key a : Nat) (be : BitVec 8) (new : List Byte) (e : Ecc) : State :=
  if Config.portShowsNew (s.regionFrames die r) key then (s.bramWrite die a be new e).bramRead die key a (if be = 0 ∨ (be ≠ 0xFF ∧ e = .uncorrectable) then e else .clean)
  else (s.bramRead die key a e).bramWrite die a be new (if e = .uncorrectable then e else .clean)

/-- The width of a block RAM port in bytes: 1, 2, 4 or 8 (R291). -/
def State.portBytes (s : State) (die r key : Nat) : Nat := 2 ^ (Config.portWidth (s.regionFrames die r) key).val

/-- The byte enables of an access of `w` bytes from byte `o` of a word. -/
def portEnables (o w : Nat) : BitVec 8 := BitVec.ofNat 8 ((2 ^ w - 1) * 2 ^ o)

/-- UE of a port in a cycle in which it reads nothing (R293). -/
def State.bramQuiet (s : State) (key : Nat) : State := s.bramShow key (Tbl.getD s.fab.ports key (0, false)).1 false

/-- What a port of `w` bytes shows of a word that it has read: the bytes at its address, in the low bits (R291). -/
def State.bramNarrow (s : State) (key o w : Nat) : State :=
  let p := Tbl.getD s.fab.ports key (0, false)
  s.bramShow key (BitVec.ofNat 64 (natBits p.1.toNat (8 * o) (8 * w))) p.2

/-- BRAM_PORT_ACCESS (R290 to R294, R323): the order of commands is the arbiter's order, and each is a cycle of the port's
domain. -/
def execBramPortAccess (die : Fin 8) (block : Fin 1536) (portB : Bool) (acc : BramAcc) (ecc : Ecc) (s : State) :
    Host.Outcome State Fault Refusal :=
  .next (
    let r := block.val / 96
    let b := die.val * 1536 + block.val
    if !s.fabOn die || (s.fabRegion die r).gsr || (portB && s.fab.ap.contains b) then s
    else
      let key := 2 * b + (if portB then 1 else 0)
      let w := s.portBytes die r key
      let a := die.val * 0x800000 + block.val * 0x1000 + acc.addr.val / 8 * 8
      let o := acc.addr.val % 8 / w * w
      let new := natBytes (acc.data.toNat * 2 ^ (8 * o)) 8
      let writes := acc.write && (s.fabRegion die r).writes
      if writes && acc.read then (s.bramBoth die r key a (portEnables o w) new ecc).bramNarrow key o w
      else if writes then (s.bramWrite die a (portEnables o w) new ecc).bramQuiet key
      else if acc.read then (s.bramRead die key a ecc).bramNarrow key o w
      else s.bramQuiet key)

/-- Whether the aperture reaches `n` bytes from byte `o` of a die's blocks: every block it touches has AP = 1 and an
open Mask (R294, R329); a gated fabric keeps its block RAM, and R370 refuses no access to it (DEDUCED, log 35). -/
def State.apertureOk (s : State) (die o n : Nat) : Bool :=
  decide (o + n ≤ bramBytes) && (List.range ((o + max n 1 - 1) / 0x1000 + 1 - o / 0x1000)).all (fun j =>
    let b := o / 0x1000 + j
    s.fab.ap.contains (die * 1536 + b) && (s.fabRegion die (b / 96)).open_)

/-- The die of the aperture endpoint of a half-die (R136). -/
def apDie (h : Nat) : Nat := h / 2

/-- A MEM_WRITE at the aperture (R294). -/
def State.bramMemWrite (s : State) (h : Nat) (p : Packet) : State :=
  let here : Ep := .hub h 0x0E
  let o := pOff p * 16
  if s.apertureOk (apDie h) o (p.data.length * 16) = false then s.refuse here none (apDie h) .den p
  else (s.bramPut (apDie h * 0x800000 + o) (pBytes p)).accept here p

/-- Words read through the aperture, as the ECC finds them in their order: false says that one cannot be corrected (R293). -/
def State.bramSeen (s : State) (die : Nat) : Nat → List Ecc → State × Bool
  | 0, _ => (s, true)
  | n + 1, es => match es.headD .clean with
    | .clean => State.bramSeen s die n es.tail
    | .corrected _ => State.bramSeen (s.bump .FAB_ERR_STAT_BRAM_CE die) die n es.tail
    | .uncorrectable => ((State.bramSeen (s.bump .FAB_ERR_STAT_BRAM_UE die) die n es.tail).1, false)

/-- A MEM_READ at the aperture (R293, R294). -/
def State.bramMemRead (s : State) (h : Nat) (p : Packet) (es : List Ecc) : State :=
  let here : Ep := .hub h 0x0E
  let o := pOff p * 16
  let n := p.count.toNat
  if s.apertureOk (apDie h) o (n * 16) = false then s.refuse here none (apDie h) .den p
  else
    let data := (chunks 16 n (s.bramTake (apDie h * 0x800000 + o) (n * 16))).map (fun c => BitVec.ofNat 128 (bytesNat c))
    let q := s.bramSeen (apDie h) (2 * n) es
    ((if q.2 then q.1.reply here none p cRDATA 0 data else q.1.reply here none p cRDATA 0x0302 [])).accept here p

/-- Whether a mask covers a part of a word, which is read first (R291). -/
def partOfWord (m : Nat) : Bool := decide (m ≠ 0) && decide (m ≠ 255)

/-- The words of a MASK_WRITE at the aperture, one after the other, each on its own: a read-modify-write where the mask covers
part of it, as the ECC finds the words that are read, in their order. -/
def State.bramMaskWords (s : State) (die a : Nat) (new : List Byte) : List Nat → List Ecc → State
  | [], _ => s
  | m :: r, es =>
    (s.bramWrite die a (BitVec.ofNat 8 m) new (es.headD .clean)).bramMaskWords die (a + 8) (new.drop 8) r
      (if partOfWord m then es.tail else es)

/-- A MASK_WRITE at the aperture (R144, R294). -/
def State.bramMaskWrite (s : State) (h : Nat) (p : Packet) (es : List Ecc) : State :=
  let here : Ep := .hub h 0x0E
  let o := pOff p * 16
  if p.data.length ≠ 5 ∨ pOff p % 4 ≠ 0 ∨ s.apertureOk (apDie h) o 64 = false then s.refuse here none (apDie h) .den p
  else
    let m := (p.data.getD 4 0).toNat % 2 ^ 64
    (s.bramMaskWords (apDie h) (apDie h * 0x800000 + o) (pBytes p) ((List.range 8).map (fun i => natBits m (8 * i) 8)) es).accept here p

/-! ## Tile ports (R304 to R311) -/

/-- A tile port. -/
def State.tile (s : State) (d t : Nat) : TileP := Tbl.getD s.fab.tiles (d * 512 + t) .reset

/-- The state with a tile port changed. -/
def State.modTile (s : State) (d t : Nat) (f : TileP → TileP) : State :=
  { s with fab := { s.fab with tiles := Tbl.set s.fab.tiles (d * 512 + t) (f (s.tile d t)) } }

/-- The header unit as a number (R142). -/
def headerNat (p : Packet) : Nat :=
  p.up.toNat + p.target.toNat * 2 ^ 4 + p.cmd.toNat * 2 ^ 24 + p.ctx.toNat * 2 ^ 32 + p.count.toNat * 2 ^ 42 +
    p.tag.toNat * 2 ^ 48 + p.var.toNat * 2 ^ 64 + p.src.toNat * 2 ^ 96 + p.skind.toNat * 2 ^ 116 + p.tkind.toNat * 2 ^ 118 +
    (if p.t then 2 ^ 120 else 0) + (if p.cnt then 2 ^ 121 else 0) + (if p.ack then 2 ^ 122 else 0) +
    (if p.bulk then 2 ^ 123 else 0) + (if p.ext then 2 ^ 124 else 0)

/-- Data units as FIFO entries, two to an entry (R305). -/
def dataEntries : List Unit16 → List FifoE
  | [] => []
  | [x] => [⟨false, true, BitVec.ofNat 256 x.toNat⟩]
  | x :: y :: r => ⟨false, false, BitVec.ofNat 256 (x.toNat + y.toNat * 2 ^ 128)⟩ :: dataEntries r

/-- A packet as FIFO entries (R305). -/
def fifoOf (p : Packet) : List FifoE :=
  ⟨true, false, BitVec.ofNat 256 (headerNat p + (if p.ext then p.xu.toNat * 2 ^ 128 else 0))⟩ :: dataEntries p.data

/-- Entries that RSP must hold for the answer to a read of `n` units (R307). -/
def rspRoom (n : Nat) : Nat := 1 + (n + 1) / 2

/-- Whether RSP has room for one more read of `n` units. -/
def TileP.rspFree (k : TileP) (n : Nat) : Bool :=
  decide (k.rsp.length + (k.resv.map (fun e => rspRoom e.2)).sum + rspRoom n ≤ 32)

/-- A tally at the port: added to its sums (R309). -/
def TileP.tally (k : TileP) (p : Packet) : TileP :=
  { k with tv := k.tv + BitVec.ofNat 32 (tallyField p 0), tn := k.tn + BitVec.ofNat 32 (tallyField p 1),
           trst := k.trst + BitVec.ofNat 32 (tallyField p 2), tden := k.tden + BitVec.ofNat 32 (tallyField p 3) }

/-- READ_DATA at the port: into RSP in the room kept for it, or refused, which leaves that room free (R307, R310). -/
def TileP.readData (k : TileP) (p : Packet) (keep : Bool) : TileP :=
  match k.resv.find? (fun e => e.1 == p.tag.toNat) with
  | none => k
  | some e => { k with resv := k.resv.erase e, rsp := if keep then k.rsp ++ fifoOf p else k.rsp }

/-- TX discards a packet: ERR pulses, and a count (R306, R310). -/
def State.txDiscard (s : State) (d t : Nat) (f : Fld) : State := (s.bump f (d * 512 + t)).send (.tileErr d t)

/-- Whether a command carries data units (R143). -/
def carriesData (c : BitVec 8) : Bool := !(decide (c = cREAD) || decide (c = cMEMR))

/-- Whether the port may send a packet the fabric built (R306); whether a READ_DATA, to whatever requester, answers an outstanding
read is judged apart (R308). -/
def txAllowed (p : Packet) : Bool :=
  let tileTarget := decide (p.tkind = 1)
  let core := decide (p.tkind = 0)
  let cmdOk := ((p.cmd == cWRITE || p.cmd == cREAD || p.cmd == cTALLY) && (core || tileTarget)) ||
    ((p.cmd == cMEMW || p.cmd == cMEMR) && tileTarget) || (p.cmd == cRDATA && decide (p.tkind ≠ 3))
  cmdOk && decide (p.count.toNat ≤ 16) && (!carriesData p.cmd || decide (p.data.length = p.count.toNat)) &&
    !(core && decide (natBits p.var.toNat 28 4 ≠ 0) && decide (p.cmd ≠ cRDATA)) &&
    !(p.ext && decide (natBits p.xu.toNat 38 90 ≠ 0)) && (p.cmd != cTALLY || decide (p.data.length = 1))

/-- The turn level from a tile port to the targets of a packet (R146, R150). -/
def State.tileUp (s : State) (d t : Nat) (p : Packet) : Nat :=
  let me : Ep := .tile d t
  if p.ext then min (coverEp me (.hub (2 * xDie p + xPort p / 2) 8)) s.rootLevel
  else
    let m := if mayMulticast p then pMask p else 0
    let lvl := ((List.range 11).find? (fun n => decide (4 ≤ n) && epPos me >>> (2 * n) == p.target.toNat >>> (2 * n) &&
      decide (m < 4 ^ n))).getD 10
    min lvl s.rootLevel

/-- The fields the port sets (R306). -/
def State.txFields (s : State) (d t : Nat) (p : Packet) : Packet :=
  let a := epAddr (.tile d t)
  { p with ctx := BitVec.ofNat 10 (s.reg .FAB_TP_BIND_CTX (d * 512 + t)), src := a.1, skind := a.2,
           up := BitVec.ofNat 4 (s.tileUp d t p),
           xu := if p.ext then extUnit (xDpkg p) (s.reg .SAL_PKG_NUM 0) (xDie p) (xPort p) false else 0 }

/-- The outstanding read that a READ_DATA of the fabric answers, if any (R308). -/
def TileP.answers (k : TileP) (p : Packet) : Option Packet :=
  let st := natBits p.var.toNat 0 16
  k.reads.find? (fun r => decide (r.src = p.target) && decide (r.skind = p.tkind) && decide (r.tag = p.tag) &&
    (if st = 0 then decide (p.data.length = r.count.toNat)
     else (decide (st = 0x0501) || decide (st = 0x0102)) && p.data.isEmpty))

/-- A read from the fabric sent, its room in RSP kept (R307). -/
def State.txRead (s : State) (d t : Nat) (p : Packet) : State :=
  (s.modTile d t (fun k => { k with held := none, resv := k.resv ++ [(p.tag.toNat, p.count.toNat)] })).inject (.tile d t)
    (s.txFields d t p)

/-- A complete TX packet of a bound port: sent with the fields the port sets, or held where it is a read, until RSP has room
(R306 to R308). -/
def State.txTake (s : State) (d t : Nat) (p : Packet) : State :=
  let k := s.tile d t
  if p.cmd = cRDATA then
    match k.answers p with
    | none => s.txDiscard d t .FAB_TP_STAT_BADHDR
    | some r => (s.modTile d t (fun k => { k with reads := k.reads.erase r })).reply (.tile d t) none
        { r with ctx := (s.txFields d t p).ctx } cRDATA (natBits p.var.toNat 0 16) p.data
  else if p.cmd = cREAD ∨ p.cmd = cMEMR then s.modTile d t (fun k => { k with held := some p })
  else s.inject (.tile d t) (s.txFields d t p)

/-- The two data units of an entry (R305). -/
def unitsOfEntry (e : FifoE) : List Unit16 := [e.data.extractLsb' 0 128, e.data.extractLsb' 128 128]

/-- The packet that a header entry and its data entries spell; the upper half of an odd last entry is ignored (R142, R305). -/
def packetOf (h : FifoE) (l : List FifoE) : Packet :=
  let n := h.data.toNat
  let cmd : BitVec 8 := BitVec.ofNat 8 (natBits n 24 8)
  { up := BitVec.ofNat 4 n, target := BitVec.ofNat 20 (natBits n 4 20), cmd := cmd, ctx := BitVec.ofNat 10 (natBits n 32 10),
    count := BitVec.ofNat 6 (natBits n 42 6), tag := BitVec.ofNat 16 (natBits n 48 16), var := BitVec.ofNat 32 (natBits n 64 32),
    routes := 0, src := BitVec.ofNat 20 (natBits n 96 20), skind := BitVec.ofNat 2 (natBits n 116 2),
    tkind := BitVec.ofNat 2 (natBits n 118 2), t := natBits n 120 1 == 1, cnt := natBits n 121 1 == 1, ack := natBits n 122 1 == 1,
    bulk := natBits n 123 1 == 1, ext := natBits n 124 1 == 1,
    xu := if natBits n 124 1 = 1 then BitVec.ofNat 128 (natBits n 128 128) else 0,
    data := if carriesData cmd then (l.flatMap unitsOfEntry).take (natBits n 42 6) else [] }

/-- Data entries that follow a header entry (R305). -/
def entriesDue (h : FifoE) : Nat :=
  if carriesData (BitVec.ofNat 8 (natBits h.data.toNat 24 8)) then (natBits h.data.toNat 42 6 + 1) / 2 else 0

/-- Whether a header entry alone makes its packet one to discard (R306): reserved bits, and all that does not hang on the data. -/
def badHeader (h : FifoE) : Bool :=
  decide (natBits h.data.toNat 125 3 ≠ 0) ||
    !txAllowed { packetOf h [] with data := List.replicate (if entriesDue h = 0 then 0 else natBits h.data.toNat 42 6) 0 }

/-- Whether a packet of a tile port still waits at its outbound port for the Rose's credits (R311). -/
def State.txBusy (s : State) (d t : Nat) : Bool := s.net.flights.any (fun f => decide (f.loc = .out (.tile d t)))

/-- The first entry of TX dropped, and those after it up to the next header entry with it where `more`. -/
def TileP.dropEntry (k : TileP) (more : Bool) : TileP := { k with tx := k.tx.drop 1, skip := more }

/-- What TX does with its head, none where it waits: a packet of an unbound port, one that is malformed or ends too soon is
discarded; a complete one is sent once the port's way into the Rose and, for a read, RSP have room. `now` sends a complete one at
once (R305 to R307, R310, R311, R329). -/
def State.txHead (s : State) (d t : Nat) (now : Bool) : Option State :=
  let k := s.tile d t
  let bound := s.regB .FAB_TP_BIND_EN (d * 512 + t)
  match k.held, k.tx with
  | some p, _ =>
    if !bound then some ((s.modTile d t (fun k => { k with held := none })).txDiscard d t .FAB_TP_STAT_UNBOUND)
    else if now || (k.rspFree p.count.toNat && !s.txBusy d t) then some (s.txRead d t p)
    else none
  | none, [] => none
  | none, e :: r =>
    let drop := s.modTile d t (fun k => k.dropEntry true)
    if !e.hdr then some (if k.skip then drop else drop.txDiscard d t .FAB_TP_STAT_BADHDR)
    else if !bound then some (drop.txDiscard d t .FAB_TP_STAT_UNBOUND)
    else if badHeader e || (r.take (entriesDue e)).any (·.hdr) then some (drop.txDiscard d t .FAB_TP_STAT_BADHDR)
    else if r.length < entriesDue e ∨ (now = false ∧ s.txBusy d t) then none
    else some ((s.modTile d t (fun k => { k with tx := r.drop (entriesDue e), skip := false })).txTake d t
      (packetOf e (r.take (entriesDue e))))

/-- TX goes on as far as it can. -/
def State.txGo (s : State) (d t : Nat) (now : Bool) : Nat → State
  | 0 => s
  | n + 1 => match s.txHead d t now with
    | none => s
    | some s' => State.txGo s' d t now n

/-- TX of a port goes on as far as it can: each of its entries is dealt with at most twice. -/
def State.txRun (s : State) (d t : Nat) : State := s.txGo d t false (2 * (s.tile d t).tx.length + 2)

/-- Whether a tile port takes an entry from the fabric: TX_READY (R24, R304, R307, R311). -/
def State.txReady (s : State) (d t : Nat) : Bool :=
  !s.withheldTile t && (s.tile d t).held.isNone && decide ((s.tile d t).tx.length < 32)

/-- Entries that the fabric offers in successive cycles, taken while TX_READY is 1. -/
def State.txOffer (s : State) (d t : Nat) : List FifoE → State
  | [] => s
  | e :: r => if s.txReady d t then ((s.modTile d t (fun k => { k with tx := k.tx ++ [e] })).txRun d t).txOffer d t r else s

/-- TILE_TX_PACKET (R304 to R307, R310, R311). -/
def execTileTxPacket (die : Fin 8) (tp : Fin 512) (first : FifoE) (rest : List FifoE) (s : State) :
    Host.Outcome State Fault Refusal :=
  .next (if !s.fabRuns die (tp.val / 32) || !s.maskOpen die (tp.val / 32) then s else s.txOffer die tp (first :: rest))

/-- Whether a tile port refuses every inbound packet, tallies too: its fabric is gated, or its region FAILED (R328, R370). -/
def State.tileDead (s : State) (d t : Nat) : Bool := !s.fabOn d || s.reg .CFG_REGIONS_STATE (d * 16 + t / 32) == 2

/-- A packet that a tile port refuses with RST; a READ_DATA leaves the room kept for it free (R157, R310). -/
def State.tileRefuse (s : State) (d t : Nat) (p : Packet) : State :=
  ((if p.cmd = cRDATA then s.modTile d t (fun k => k.readData p false) else s).refuse (.tile d t) none d .rst p).txRun d t

/-- A packet from the Rose taken at a tile port; none where it waits on credits (R157, R306 to R311, R328, R329, R370). A MASK_WRITE
at a port that refuses every packet gets that RST, and DEN at any other (DESIGN CHOICE, log 35: R144 and R310 both name an answer). -/
def State.tileTake (s : State) (d t : Nat) (p : Packet) : Option State :=
  let here : Ep := .tile d t
  let r := t / 32
  let k := s.tile d t
  if s.tileDead d t then some (s.tileRefuse d t p)
  else if tallyClass p then some ((s.modTile d t (fun k => k.tally p)).accept here p)
  else if !s.regB .FAB_TP_BIND_EN (d * 512 + t) then some (s.tileRefuse d t p)
  else if !s.maskOpen d r then none
  else if p.cmd = cMASK then some (s.refuse here none d .den p)
  else if p.cmd = cRDATA then some (((s.modTile d t (fun k => k.readData p true)).accept here p).txRun d t)
  else if p.cmd = cWRITE ∨ p.cmd = cMEMW then
    (if 32 < k.rx.length + (fifoOf p).length then none
     else some ((s.modTile d t (fun k => { k with rx := k.rx ++ fifoOf p })).accept here p))
  else if p.cmd = cREAD ∨ p.cmd = cMEMR then
    (if 32 ≤ k.rx.length ∨ 8 ≤ k.reads.length then none
     else some ((s.modTile d t (fun k => { k with rx := k.rx ++ fifoOf { p with data := [] }, reads := k.reads ++ [p] })).accept
       here p))
  else some (s.refuse here none d .den p)

/-- A packet that stands at a tile port, taken. -/
def State.tileArrival (s : State) (d t : Nat) (p : Packet) : State :=
  let e : Ep := .tile d t
  if s.standsAt e p then
    match s.tileTake d t p with
    | some s' => s'.arrive e p
    | none => s
  else s

/-- TILE_RX_DELIVERY (R308). -/
def execTileRxDelivery (die : Fin 8) (tp : Fin 512) (p : Packet) (s : State) : Host.Outcome State Fault Refusal :=
  .next (s.tileArrival die tp p)

/-- RX_ENTRY_TAKEN (R304, R307, R308). -/
def execRxEntryTaken (die : Fin 8) (tp : Fin 512) (rsp : Bool) (s : State) : Host.Outcome State Fault Refusal :=
  .next (
    if !s.fabRuns die (tp.val / 32) || !s.maskOpen die (tp.val / 32) then s
    else if rsp then (s.modTile die tp (fun k => { k with rsp := k.rsp.drop 1 })).txRun die tp
    else s.modTile die tp (fun k => { k with rx := k.rx.drop 1 }))

/-- The port answers a read itself (R308, R329). -/
def State.tileNack (s : State) (d t : Nat) (r : Packet) : State :=
  (s.modTile d t (fun k => { k with reads := k.reads.erase r })).reply (.tile d t) none r cRDATA 0x0501 []

/-- TILE_READ_TIMEOUT (R308). -/
def execTileReadTimeout (die : Fin 8) (tp : Fin 512) (tag : BitVec 16) (s : State) : Host.Outcome State Fault Refusal :=
  .next (
    match (s.tile die tp).reads.find? (fun r => r.tag == tag) with
    | none => s
    | some r => (s.tileNack die tp r).bump .FAB_TP_STAT_RD_TMO (die.val * 512 + tp.val))

/-- TLY_CLR (R309). -/
def execTlyClr (die : Fin 8) (tp : Fin 512) (s : State) : Host.Outcome State Fault Refusal :=
  .next (
    if !s.fabRuns die (tp.val / 32) || !s.maskOpen die (tp.val / 32) then s
    else s.modTile die tp (fun k => { k with tv := 0, tn := 0, trst := 0, tden := 0 }))

/-! ## Raw lanes (R312, R329, R405, R417) -/

/-- A Sallan port. -/
def State.salp (s : State) (die p : Nat) : SalPort := Tbl.getD s.sal (die * 4 + p) .reset

/-- The state with a Sallan port changed. -/
def State.modSal (s : State) (die p : Nat) (f : SalPort → SalPort) : State :=
  { s with sal := Tbl.set s.sal (die * 4 + p) (f (s.salp die p)) }

/-- Lanes of a WIDTH code (R405). -/
def laneCount (code : Nat) : Nat := if code = 0 then 0 else if code = 1 then 1 else if code = 2 then 2 else if code = 3 then 4 else 8

/-- Whether the Sallan map gives a lane to raw mode (R405). -/
def State.rawLane (s : State) (die lane : Nat) : Bool := decide (laneCount (s.salp die (lane / 8)).width ≤ lane % 8)

/-- Whether a raw lane is UP (R417). -/
def State.rawUp (s : State) (die lane : Nat) : Bool :=
  decide (die < s.dies) && s.rawLane die lane && (s.salp die (lane / 8)).rawUp.contains (lane % 8) &&
    s.gateOn die (2 + lane / 8)

/-- The receive buffer of a raw lane. -/
def State.rawBuf (s : State) (i : Nat) : List (BitVec 256 × Bool) := Tbl.getD s.fab.raw i []

/-- RAW_BLOCK_RECEIVE (R312, R329, R417). -/
def execRawBlockReceive (die : Fin 8) (lane : Fin 32) (block : BitVec 256) (bad : Bool) (s : State) :
    Host.Outcome State Fault Refusal :=
  .next (
    let i := die.val * 32 + lane.val
    if !s.rawUp die lane then s
    else if !(s.fabRegion die (lane.val / 2)).open_ || decide (64 ≤ (s.rawBuf i).length) then s.bump .FAB_RAW_STAT_RXDROP i
    else
      let s := { s with fab := { s.fab with raw := Tbl.set s.fab.raw i (s.rawBuf i ++ [(block, bad)]) } }
      if bad then s.bump .FAB_RAW_STAT_BADBLK i else s)

/-- RAW_BLOCK_TRANSMIT (R312, R329, R417). -/
def execRawBlockTransmit (die : Fin 8) (lane : Fin 32) (block : BitVec 256) (s : State) : Host.Outcome State Fault Refusal :=
  .next (
    if s.dies ≤ die.val ∨ s.rawLane die lane = false ∨ s.maskOpen die (lane.val / 2) = false ∨
        s.fabRuns die (lane.val / 2) = false then s
    else if s.rawUp die lane then s.send (.rawBlock die lane block)
    else s.bump .SAL_LANE_STAT_TXDISC (die.val * 32 + lane.val))

/-! ## GPIO and interrupt ports (R313, R314, R384) -/

/-- GPIO pins of each die (R313). -/
def State.pins (s : State) : Nat := 64 / s.dies

/-- The die and the die pin of a pin of the module (R313). -/
def State.pinOf (s : State) (k : Nat) : Nat × Nat := (k * s.dies / 64, k % s.pins)

/-- SHORT bits cleared and their drivers enabled again (R314). -/
def State.gpioClear (s : State) (die mask : Nat) : State :=
  let old := s.reg .FAB_GPIO_STAT_SHORT die
  { s.setReg .FAB_GPIO_STAT_SHORT die (old &&& (2 ^ 32 - 1 - mask % 2 ^ 32)) with
    fab := { s.fab with gpioOff := s.fab.gpioOff.filter (fun i => !(decide (i / 32 = die) && mask.testBit (i % 32))) } }

/-- GPIO_SHORT_CLEAR (R314). -/
def execGpioShortClear (src : Src) (die : Fin 8) (mask : BitVec 32) (s : State) : Host.Outcome State Fault Refusal :=
  .next (s.writeAs src .FAB_GPIO_STAT die 0 (fun s => s.gpioClear die mask.toNat))

/-- FABRIC_IRQ (R384): behind an open Mask the port sends, whatever the set-reset still holds. -/
def execFabricIrq (die : Fin 8) (region : Fin 16) (num : BitVec 8) (s : State) : Host.Outcome State Fault Refusal :=
  .next (
    if !s.maskOpen die region || s.reg .CFG_REGIONS_STATE (die.val * 16 + region.val) == 2 then s
    else s.raise die (0x1000 + 256 * region.val + num.toNat))

end Sys2Proof.Machine
end

