-- ==== Sys2Proof/Machine/Router.lean ====
section
/-! DEFINITION. The routers of the Rose: turning, copies, map bits, refusals, tally slots, sleep (R134 to R141, R159 to R162). -/

namespace Sys2Proof.Machine

/-! ## Where a packet goes -/

/-- What a packet is aimed at on its way down. -/
inductive Aim where
  | core (a : Nat)
  | tile (a : Nat)
  | hub (half idx : Nat)
  | many (a mask : Nat)
  deriving DecidableEq, Repr

/-- The aim of a packet that has its resolved address (R138, R139, R141, R146). -/
def aimOf (p : Packet) : Aim :=
  if pOutward p then .hub (2 * xDie p + xPort p / 2) (8 + xPort p % 2)
  else if p.tkind = 1 then .tile p.target.toNat
  else if p.tkind = 2 then .hub (p.target.toNat / 65536) (p.target.toNat % 256)
  else if mayMulticast p ∧ pMask p ≠ 0 then .many p.target.toNat (pMask p)
  else .core p.target.toNat

/-- Where an aim lies in the tree. -/
def Aim.pos : Aim → Nat
  | .core a => a
  | .tile a => a
  | .hub h _ => h * 65536
  | .many a _ => a

/-- What a router does with a packet: sends it on, copied where it is multicast, or refuses it, counted on a die. -/
inductive Hop where
  | go (l : List (Packet × Loc))
  | refuse (k : Refuse) (die : Nat)
  deriving DecidableEq, Repr

/-- The hub endpoints of the table Hub endpoints (R136, R141). -/
def hubListed (half idx : Nat) : Bool :=
  [0, 1, 2, 3, 4, 8, 9, 0x0C, 0x0D].contains idx || (decide (idx = 0x0E) && decide (half % 2 = 0))

/-- Whether an address lies in a withheld subtree of a grade B half-die (R10). -/
def State.withheld (s : State) (a : Nat) : Bool := s.gradeB && decide (a / 65536 % 2 = 1) && decide (a / 16384 % 4 = 3)

/-- Whether a multicast address pattern holds an address. -/
def patHolds (a mask c : Nat) : Bool := (a ^^^ c) &&& (2 ^ 20 - 1 - mask % 2 ^ 20) == 0

/-- The addresses below router `idx` of level `n` whose map bit is set and which a multicast names and some core serves. -/
def State.mappedTargets (s : State) (n idx a mask : Nat) : List Nat :=
  (s.net.mapped.map (·.1)).filter (fun c => c / 4 ^ n == idx && patHolds a mask c && !s.absent c)

/-- The copies of a multicast that router `idx` of level `n` sends down (R137, R139, R140). -/
def State.copies (s : State) (n idx : Nat) (p : Packet) (a mask : Nat) : List (Packet × Loc) :=
  ((List.range 4).filterMap (fun d =>
    let child := idx * 4 + d
    let base := child * 4 ^ (n - 1)
    if patHolds (a / 4 ^ (n - 1) % 4) (mask / 4 ^ (n - 1) % 4) d = false ∨ s.dies * 131072 ≤ base then none
    else if n = 1 then
      (if s.absent child || s.mapBit child then none else some (pForCore p child, .at_ (.core (BitVec.ofNat 20 child))))
    else if n ≤ 8 ∧ s.withheld base then none
    else some (p, .down (n - 1) child))) ++
  (if n = 5 then (s.mappedTargets 5 idx a mask).map (fun c => (pForCore p c, .at_ (.core (BitVec.ofNat 20 c)))) else [])

/-- A router sends a packet down (R138 to R141). -/
def State.descend (s : State) (n idx : Nat) (p : Packet) : Hop :=
  let die := idx * 4 ^ n / 131072
  let on (a : Nat) : Hop :=
    if n = 8 ∧ s.withheld a then .refuse .abs die else .go [(p, .down (n - 1) (a / 4 ^ (n - 1)))]
  match aimOf p with
  | .many a mask => .go (s.copies n idx p a mask)
  | .hub h i =>
    if n ≠ 8 then on (h * 65536)
    else if hubListed h i then .go [(p, .at_ (.hub h i))] else .refuse .den die
  | .tile a => if n = 4 then .go [(p, .at_ (.tile (a / 131072) (a / 256 % 512)))] else on a
  | .core a =>
    if n = 1 then .go [(pForCore p a, .at_ (.core (BitVec.ofNat 20 a)))]
    else if n = 5 ∧ s.net.absent.contains a then .refuse .abs die
    else if n = 5 ∧ s.mapBit a then .go [(pForCore p a, .at_ (.core (BitVec.ofNat 20 a)))]
    else on a

/-- The level at which a packet turns: UP, but not below the attach level of its target, which a route entry may name
(R138, R148; DESIGN CHOICE, log 17). -/
def turnLevel (p : Packet) : Nat :=
  if pOutward p then p.up.toNat else if p.tkind = 1 then max 4 p.up.toNat else if p.tkind = 2 then max 8 p.up.toNat else p.up.toNat

/-- Whether the digits of an address name a child that the root lacks (R135, R140). -/
def State.pastRoot (s : State) (a : Nat) : Bool := decide (s.dies * 131072 ≤ a)

/-- A router turns a packet (R137, R138, R140). -/
def State.turn (s : State) (n idx : Nat) (p : Packet) : Hop :=
  let out := pOutward p
  let a := (aimOf p).pos
  let isMany := mayMulticast p && decide (pMask p ≠ 0)
  if n = s.rootLevel ∧ !isMany ∧ s.pastRoot a then .refuse .abs 0
  else if n = s.rootLevel ∧ isMany ∧ s.dies = 2 ∧ patHolds (a / 4 ^ 9) (pMask p / 4 ^ 9) 0 = false then .go []
  else
    let q := if out ∨ p.tkind = 2 then p else pResolve p n idx
    if 5 ≤ n then s.descend n idx q
    else match aimOf q with
      | .core a => if s.mapBit a then .go [(q, .map5 (n + 1) n idx)] else s.descend n idx q
      | .many a mask =>
        let some5 := (s.net.mapped.map (·.1) ++ s.net.absent).any (fun c => c / 4 ^ n == idx && patHolds a mask c)
        .go (s.copies n idx q a mask ++ (if some5 then [(q, .map5 (n + 1) n idx)] else []))
      | _ => s.descend n idx q

/-- The level-5 router delivers what the routers below it could not (R137, R140). -/
def State.mapDeliver (s : State) (n idx : Nat) (p : Packet) : Hop :=
  let r5 := idx * 4 ^ n / 1024
  match aimOf p with
  | .core a => if s.absent a then .refuse .abs (r5 / 128) else .go [(pForCore p a, .at_ (.core (BitVec.ofNat 20 a)))]
  | .many a mask => .go ((s.mappedTargets n idx a mask).map (fun c => (pForCore p c, .at_ (.core (BitVec.ofNat 20 c)))))
  | _ => .go []

/-- The next hop of a flight at a router; none for one at an endpoint. -/
def State.hop (s : State) (f : Flight) : Option Hop :=
  match f.loc with
  | .out _ => none
  | .at_ _ => none
  | .map5 lvl n idx => some (if lvl < 5 then .go [(f.pkt, .map5 (lvl + 1) n idx)] else s.mapDeliver n idx f.pkt)
  | .down n idx => some (s.descend n idx f.pkt)
  | .up n idx _ =>
    some (if n < turnLevel f.pkt ∧ n < s.rootLevel then .go [(f.pkt, .up (n + 1) (idx / 4) (idx % 4))] else s.turn n idx f.pkt)

/-- The router a flight stands at. -/
def routerOf : Loc → Option (Nat × Nat)
  | .up n i _ => some (n, i)
  | .down n i => some (n, i)
  | .map5 lvl n i => some (lvl, i / 4 ^ (lvl - n))
  | .out _ => none
  | .at_ _ => none

/-- The output of a router of level `n` that leads to a place. A level-5 router reaches the cores that its spare map names
through one output of their own (DESIGN CHOICE, log 17). -/
def portOf (n : Nat) : Loc → RPort
  | .up _ _ _ => .up
  | .map5 _ _ _ => .up
  | .down _ i => .down (i % 4)
  | .at_ (.core c) => if n = 5 then .down 4 else .down (c.toNat % 4)
  | .at_ _ => .side
  | .out _ => .side

/-! ## Credits and the choice of a channel (R151, R153) -/

/-- The input buffer of a place: router and input, or endpoint. A packet on its way to a level-5 router shares the buffer of
the child it came from. -/
def bufOf (l : Loc) : Loc :=
  match l with
  | .map5 lvl n i => .up lvl (i / 4 ^ (lvl - n)) (i / 4 ^ (lvl - n - 1) % 4)
  | l => l

/-- Units of each channel's buffer at every input (R151; DESIGN CHOICE, log 17: the least the spec allows). -/
def bufUnits : Nat := 36

/-- Whether the element at a place sleeps or wakes: a header for it waits on credits at the sending side (R162). -/
def State.slumbers (s : State) (l : Loc) : Bool :=
  match l with
  | .at_ (.core c) => (s.core c.toNat).asleep || (s.core c.toNat).waking
  | l => match routerOf l with
    | some r => s.net.asleep.contains r || s.net.waking.contains r
    | none => false

/-- Whether the buffer at a place has room for a packet: endpoints always accept the response and tally channels (R151,
R154), and a sleeping element none (R162). -/
def State.room (s : State) (p : Packet) (l : Loc) : Bool :=
  !s.slumbers l && ((match l with
    | .at_ _ => decide (pChan p = .response) || decide (pChan p = .tally)
    | _ => false) ||
  decide (((s.net.flights.filter (fun f => decide (bufOf f.loc = bufOf l) && decide (pChan f.pkt = pChan p))).map
    (fun f => pUnits f.pkt)).sum + pUnits p ≤ bufUnits))

/-- The channels in Latency mode's order. -/
def latencyOrder : List Chan := [.tally, .response, .request, .bulk]

/-- The repeating order of Bulk mode. -/
def bulkOrder : List Chan := [.bulk, .tally, .bulk, .response, .bulk, .request]

/-- How an output chooses. -/
def State.outSt (s : State) (k : OutKey) : OutSt := Tbl.getD s.net.outs k ⟨[0, 0, 0, 0], 0⟩

/-- The places of Bulk mode's order from the present one on. -/
def bulkPlaces (turn : Nat) : List Nat := (List.range 6).map (fun i => (turn + i) % 6)

/-- The channel that an output with some ready channels starts, with the place in Bulk mode's order after it (R153). -/
def State.choice (s : State) (k : OutKey) (ready : List Chan) : Option (Chan × Nat) :=
  let t := s.outSt k
  if s.regB .ROSE_MODE_PRIO 0 then
    ((bulkPlaces t.turn).find? (fun i => ready.contains (bulkOrder.getD i .bulk))).map (fun i => (bulkOrder.getD i .bulk, (i + 1) % 6))
  else
    let l := latencyOrder.filter ready.contains
    ((l.find? (fun c => decide (15 ≤ t.waited.getD c.idx 0))).or l.head?).map (fun c => (c, t.turn))

/-- Whether the choice of an output falls on a channel. -/
def State.chosen (s : State) (k : OutKey) (ready : List Chan) (c : Chan) : Bool := (s.choice k ready).any (fun r => decide (r.1 = c))

/-- A start of a channel at an output, noted for the channels that waited (R153). -/
def State.started (s : State) (k : OutKey) (ready : List Chan) (c : Chan) : State :=
  let t := s.outSt k
  let turn := ((s.choice k ready).map (·.2)).getD t.turn
  let waited := latencyOrder.map (fun d => if d ≠ c ∧ ready.contains d then t.waited.getD d.idx 0 + 1 else 0)
  { s with net := { s.net with outs := Tbl.set s.net.outs k ⟨waited, turn⟩ } }

/-- Whether a flight waits behind an earlier one of its flow at the same place (R152). -/
def behind (l : List Flight) (i : Nat) (f : Flight) : Bool :=
  !f.comb && (l.take i).any (fun g => decide (g.loc = f.loc) && !g.comb && sameFlow g.pkt f.pkt)

/-- The copies that a flight has still to send from its router. -/
def State.copiesOf (s : State) (f : Flight) : List (Packet × Loc) :=
  match f.left with
  | some l => l
  | none => match s.hop f with
    | some (.go l) => l
    | _ => []

/-- The channels with a packet ready to start at an output of a router: those of packets in its input buffers whose next
buffer has room, and of tallies whose hold has ended (R153, R159). -/
def State.readyAt (s : State) (n idx : Nat) (o : RPort) : List Chan :=
  (s.net.flights.zipIdx.filter (fun e => decide (routerOf e.1.loc = some (n, idx)) && !tallyClass e.1.pkt &&
      !behind s.net.flights e.2 e.1 &&
      (s.copiesOf e.1).any (fun c => decide (portOf n c.2 = o) && s.room c.1 c.2))).map (fun e => pChan e.1.pkt) ++
    (s.net.slots.filter (fun t => decide (t.lvl = n) && decide (t.idx = idx) && decide (t.out = o) && t.ripe &&
      s.room t.pkt t.nxt)).map (fun _ => Chan.tally)

/-- The channels with a packet ready to start at an endpoint's outbound port: the first of each in the order in which they
were queued, where the next buffer has room (R153). -/
def State.readyOut (s : State) (e : Ep) : List Chan :=
  latencyOrder.filter (fun c =>
    match s.net.flights.find? (fun f => decide (f.loc = .out e) && decide (pChan f.pkt = c)) with
    | some f => s.room f.pkt (s.entry e f.pkt)
    | none => false)

/-! ## Tally slots (R145, R159) -/

/-- Whether two tally-class packets have one key (R159). -/
def sameKey (p q : Packet) : Bool :=
  decide (p.cmd = q.cmd) && decide (p.ctx = q.ctx) && decide (p.tag = q.tag) && decide (p.target = q.target) &&
    decide (p.tkind = q.tkind)

/-- One tally packet merged into another: each field added modulo 2^32 (R145). -/
def mergeTally (p q : Packet) : Packet :=
  { p with data := [tallyUnit (tallyField p 0 + tallyField q 0) (tallyField p 1 + tallyField q 1)
      (tallyField p 2 + tallyField q 2) (tallyField p 3 + tallyField q 3)] }

/-- The flights without flight `i`. -/
def State.unfly (s : State) (i : Nat) : State := { s with net := { s.net with flights := dropAt s.net.flights i } }

/-- The state with an open slot changed. -/
def State.modSlot (s : State) (j : Nat) (f : Slot → Slot) : State :=
  { s with net := { s.net with slots := modAt s.net.slots j f } }

/-- A tally-class packet at an output: merged, given a slot, or left waiting (R159). -/
def State.tallySlot (s : State) (i n idx : Nat) (comb : Bool) (p : Packet) (l : Loc) : State :=
  let out := portOf n l
  let here (t : Slot) : Bool := decide (t.lvl = n) && decide (t.idx = idx) && decide (t.out = out)
  match s.net.slots.findIdx? (fun t => here t && sameKey t.pkt p) with
  | some j => (s.unfly i).modSlot j (fun t => { t with pkt := mergeTally t.pkt p, comb := true })
  | none =>
    if 8 ≤ (s.net.slots.filter here).length then s
    else { s.unfly i with net := { (s.unfly i).net with slots := s.net.slots ++ [⟨n, idx, out, p, l, comb, false⟩] } }

/-! ## Forwarding -/

/-- Whether the region of a router is braked (R83): routers up to level 7 lie in one. -/
def State.routerBraked (s : State) (n idx : Nat) : Bool :=
  decide (n ≤ 7) && s.regB .CLK_REGION_BRAKED (idx * 4 ^ n / 16384)

/-- Whether a router forwards nothing now: asleep, waking or braked (R83, R161, R162). -/
def State.routerHeld (s : State) (n idx : Nat) : Bool :=
  s.net.asleep.contains (n, idx) || s.net.waking.contains (n, idx) || s.routerBraked n idx

/-- Whether a copy starts now: its next buffer has room and its output chooses its channel. -/
def State.starts (s : State) (n idx : Nat) (c : Packet × Loc) : Bool :=
  let o := portOf n c.2
  s.room c.1 c.2 && s.chosen (.router n idx o) (s.readyAt n idx o) (pChan c.1)

/-- The copies of a flight that start now leave its router; the others stay with it (R139, R151, R153). -/
def State.sendCopies (s : State) (i n idx : Nat) (l : List (Packet × Loc)) : State :=
  let go := l.filter (s.starts n idx)
  let stay := l.filter (fun c => !s.starts n idx c)
  if go.isEmpty && !l.isEmpty then s
  else
    let s := go.foldl (fun t c => t.started (.router n idx (portOf n c.2)) (s.readyAt n idx (portOf n c.2)) (pChan c.1)) s
    let s := if stay.isEmpty then s.unfly i
      else { s with net := { s.net with flights := modAt s.net.flights i (fun f => { f with left := some stay }) } }
    go.foldl (fun s c => s.fly c.1 c.2) s

/-- A flight moved on from its router. The answer that a router gives names the refused packet's target as its source
(DESIGN CHOICE, log 17: routers have no address). -/
def State.advance (s : State) (i : Nat) (f : Flight) (n idx : Nat) : State :=
  match f.left, s.hop f with
  | none, some (.refuse k die) => (s.unfly i).refuse (addrEp f.pkt.target f.pkt.tkind) (some (n, idx)) die k f.pkt
  | _, _ =>
    let l := s.copiesOf f
    match tallyClass f.pkt, l with
    | true, c :: _ => s.tallySlot i n idx f.comb c.1 c.2
    | _, _ => s.sendCopies i n idx l

/-- Whether an endpoint's outbound port is held by the brake: a core's lies in its region (R83). -/
def State.outHeld (s : State) (e : Ep) : Bool :=
  match e with
  | .core c => s.braked c.toNat
  | _ => false

/-- Flight `i` leaves its endpoint's outbound port, where it is the first of its channel and its turn has come (R153). -/
def State.startOut (s : State) (i : Nat) (e : Ep) (f : Flight) : State :=
  let c := pChan f.pkt
  let l := s.entry e f.pkt
  if (s.net.flights.take i).any (fun g => decide (g.loc = .out e) && decide (pChan g.pkt = c)) || !s.room f.pkt l ||
      !s.chosen (.ep e) (s.readyOut e) c then s
  else ((s.started (.ep e) (s.readyOut e) c).unfly i).fly f.pkt l

/-- A tile port whose packet has left sends its next (R311). -/
def State.afterOut (s : State) (e : Ep) : State :=
  match e with
  | .tile d t => s.txRun d t
  | _ => s

/-- ROUTER_FORWARD (R138 to R141, R151 to R153, R159, R162): flight `i` goes one router on, or leaves its endpoint. -/
def execRouterForward (i : Nat) (s : State) : Host.Outcome State Fault Refusal :=
  .next (
    match s.net.flights[i]? with
    | none => s
    | some f => match f.loc, routerOf f.loc with
      | .out e, _ => if s.outHeld e then s else (s.startOut i e f).afterOut e
      | _, none => s
      | _, some (n, idx) => if s.routerHeld n idx || behind s.net.flights i f then s else s.advance i f n idx)

/-- Where the packet of a slot goes as its hold ends: the router decides again what leads down (R140, R159). -/
def State.slotHop (s : State) (t : Slot) : Hop :=
  match t.out with
  | .up => .go [(t.pkt, t.nxt)]
  | _ => match t.nxt with
    | .at_ (.core _) => if t.lvl = 5 then s.descend 5 t.idx t.pkt else .go [(t.pkt, t.nxt)]
    | _ => s.descend t.lvl t.idx t.pkt

/-- TALLY_HOLD_EXPIRE (R153, R159): the hold of slot `i` has ended, and it takes its output when its turn comes. -/
def execTallyHoldExpire (i : Nat) (s : State) : Host.Outcome State Fault Refusal :=
  .next (
    match s.net.slots[i]? with
    | none => s
    | some t =>
      if s.routerHeld t.lvl t.idx then s
      else
        let k : OutKey := .router t.lvl t.idx t.out
        let ready := .tally :: s.readyAt t.lvl t.idx t.out
        let gone := { s with net := { s.net with slots := dropAt s.net.slots i } }
        let early := !t.comb && (s.net.slots.take i).any (fun q => decide (q.lvl = t.lvl) && decide (q.idx = t.idx) &&
          decide (q.out = t.out) && !q.comb && sameFlow q.pkt t.pkt)
        match s.slotHop t with
        | .refuse r die => gone.refuse (addrEp t.pkt.target t.pkt.tkind) (some (t.lvl, t.idx)) die r t.pkt
        | .go [] => gone
        | .go (c :: _) =>
          if early || !s.room c.1 c.2 || !s.chosen k ready .tally then s.modSlot i (fun t => { t with ripe := true })
          else
            let s := gone.started k ready .tally
            { s with net := { s.net with flights := s.net.flights ++ [⟨c.1, c.2, t.comb, none⟩] } })

/-! ## Sleep and wake (R161, R162) -/

/-- CORE_SLEEP (R161). -/
def execCoreSleep (c : CoreAddr) (s : State) : Host.Outcome State Fault Refusal :=
  .next (
    let k := s.core c.toNat
    if s.regB .ROSE_MODE_CORE_SLEEP 0 = false ∨ s.absent c.toNat ∨ k.asleep ∨ k.waking ∨ k.bleaching ∨ ¬k.inq.isEmpty ∨
        (k.run ≠ .idle ∧ (s.holder c.toNat).isSome) ∨ s.net.flights.any (fun f => decide (f.loc = .at_ (.core c))) then s
    else s.modCore c.toNat (fun k => { k with asleep := true }))

/-- Whether every core and side endpoint below a router is asleep or absent (R161). A side endpoint has no sleep of its own:
it counts as asleep while no packet stands at it. -/
def State.belowAsleep (s : State) (n idx : Nat) : Bool :=
  (List.range (4 ^ n)).all (fun j => s.absent (idx * 4 ^ n + j) || (s.core (idx * 4 ^ n + j)).asleep) &&
    s.net.flights.all (fun f => match f.loc with
      | .at_ e => decide (epPos e / 4 ^ n ≠ idx)
      | .out e => decide (epPos e / 4 ^ n ≠ idx)
      | _ => true)

/-- Whether a router is in the module (R134, R135). -/
def State.hasRouter (s : State) (n idx : Nat) : Bool :=
  decide (1 ≤ n) && decide (n ≤ s.rootLevel) && decide (idx * 4 ^ n < s.dies * 131072) &&
    !(decide (n ≤ 7) && s.withheld (idx * 4 ^ n))

/-- ROUTER_SLEEP (R161). -/
def execRouterSleep (level : Fin 11) (index : Nat) (s : State) : Host.Outcome State Fault Refusal :=
  .next (
    let r := (level.val, index)
    if s.regB .ROSE_MODE_RTR_SLEEP 0 = false ∨ s.hasRouter level index = false ∨ s.net.asleep.contains r ∨ s.net.waking.contains r ∨
        s.net.flights.any (fun f => decide (routerOf f.loc = some r)) ∨
        s.net.slots.any (fun t => decide (t.lvl = level.val) && decide (t.idx = index)) ∨
        s.belowAsleep level index = false then s
    else { s with net := { s.net with asleep := r :: s.net.asleep } })

/-- A sleeping core starts its waking. -/
def Core.wakeUp (k : Core) : Core := { k with asleep := false, waking := true, wakeDue := false }

/-- A sleeping router starts its waking. -/
def State.wakeRouter (s : State) (r : Nat × Nat) : State :=
  { s with net := { s.net with asleep := s.net.asleep.filter (· != r), waking := r :: s.net.waking,
                               wakeDue := s.net.wakeDue.filter (· != r) } }

/-- The places that a flight goes to next. -/
def State.nextPlaces (s : State) (f : Flight) : List Loc :=
  match f.loc with
  | .out e => [s.entry e f.pkt]
  | _ => (s.copiesOf f).map (·.2)

/-- Whether a header waits for an element, at it or at the sending side (R162). -/
def State.awaited (s : State) (at_ : Loc → Bool) : Bool :=
  s.net.flights.any (fun f => at_ f.loc || (s.nextPlaces f).any at_) || s.net.slots.any (fun t => at_ t.nxt)

/-- WAKE (R162): a header that waits for a sleeping element starts its waking; under the brake the request is latched. -/
def execWake (e : Elem) (s : State) : Host.Outcome State Fault Refusal :=
  .next (
    match e with
    | .core c =>
      if !(s.core c.toNat).asleep || !s.awaited (fun l => decide (l = .at_ (.core c))) then s
      else if s.braked c.toNat then s.modCore c.toNat (fun k => { k with wakeDue := true })
      else s.modCore c.toNat Core.wakeUp
    | .router n i =>
      let r := (n.val, i)
      if !s.net.asleep.contains r || !s.awaited (fun l => decide (routerOf l = some r)) then s
      else if s.routerBraked n i then
        { s with net := { s.net with wakeDue := if s.net.wakeDue.contains r then s.net.wakeDue else r :: s.net.wakeDue } }
      else s.wakeRouter r)

/-- WAKE_DONE (R162). -/
def execWakeDone (e : Elem) (s : State) : Host.Outcome State Fault Refusal :=
  .next (
    match e with
    | .core c => if (s.core c.toNat).waking then s.modCore c.toNat (fun k => { k with waking := false }) else s
    | .router n i => { s with net := { s.net with waking := s.net.waking.filter (fun r => r ≠ (n.val, i)) } })

end Sys2Proof.Machine
end

