-- ==== Sys2Proof/Machine/Rose.lean ====
section
/-! DEFINITION. Packets at cores and hub endpoints: reads and writes, program loads, stops, tallies (R108, R109, R121, R142 to
R145, R148, R156, R157, R383), and the end of a core's Bleach (R129 to R132, R164). -/

namespace Sys2Proof.Machine

/-! ## Arrival at a core -/

/-- Whether the NI of a core can take a packet now: awake, not braked, not in a Bleach that precedes its use (R83, R132, R162). -/
def State.coreTakes (s : State) (c : Nat) : Bool :=
  let k := s.core c
  !k.asleep && !k.waking && !s.braked c && (!k.bleaching || (s.coreRefuses c 0).isSome)

/-- A packet that stands at a core, decided by R156: refused, or handed on. -/
def State.atCore (s : State) (c : Nat) (p : Packet) (act : State → State) : State :=
  let e : Ep := .core (BitVec.ofNat 20 c)
  if !s.standsAt e p || !s.coreTakes c then s
  else match s.coreRefuses c p.ctx.toNat with
    | some k => (s.arrive e p).refuse e none (dieOf c) k p
    | none => act s

/-! ## WRITE, MASK_WRITE, READ (R97, R116, R119, R121, R128, R142 to R144, R255) -/

/-- Packets of a core already in the held-write record or its buffer (R128, R255). -/
def State.heldOf (s : State) (x c : Nat) : Nat := ((s.ctx x).heldPkts.filter (fun e => e.1 == c)).length

/-- A write for a core whose save has begun goes into the held-write record, or is refused (R128, R255). -/
def State.holdWrite (s : State) (c : Nat) (p : Packet) : State :=
  let e : Ep := .core (BitVec.ofNat 20 c)
  match s.holder c with
  | none => s
  | some x =>
    if s.heldOf x c < 4 then (s.arrive e p).modCtx x (fun t => { t with heldPkts := t.heldPkts ++ [(c, p)] })
    else ((s.arrive e p).refuse e none (dieOf c) .rst p).bump .CTX_ERR_HELDFULL x

/-- An accepted write at a core: after its save every write is held (R128), before it a signal without data passes, and the
others go through the inbound write buffer in order. -/
def State.takeWrite (s : State) (c : Nat) (p : Packet) (lost : Bool) (ecc : List Ecc) : State :=
  let e : Ep := .core (BitVec.ofNat 20 c)
  let k := s.core c
  if k.saved then s.holdWrite c p
  else if p.data.isEmpty ∧ p.cmd = cWRITE then (s.arrive e p).writeDone c p
  else if 4 ≤ k.inq.length then s
  else
    let s := s.arrive e p
    if ¬k.inq.isEmpty then s.modCore c (fun k => { k with inq := k.inq ++ [p] })
    else if lost && !k.headBlocked p then s.modCore c (fun k => { k with inq := [p] }.toDefer .inbound)
    else s.inboundAll c false ecc [p]

/-- A packet at a hub endpoint that does not take its command is refused with DEN (R157). -/
def State.hubDeny (s : State) (h i : Nat) (p : Packet) : State :=
  let e : Ep := .hub h i
  if s.standsAt e p then (s.arrive e p).refuse e none (h / 2) .den p else s

/-- The three kinds of target of a packet. -/
def State.byTarget (_s : State) (p : Packet) (core : Nat → State) (tile : Nat → Nat → State) (hub : Nat → Nat → State) : State :=
  match addrEp p.target p.tkind with
  | .core c => core c.toNat
  | .tile d t => tile d t
  | .hub h i => hub h i

/-- WRITE (R142). -/
def execWrite (p : Packet) (lost : Bool) (s : State) : Host.Outcome State Fault Refusal :=
  .next (if p.cmd ≠ cWRITE then s
    else s.byTarget p (fun c => s.atCore c p (fun s => s.takeWrite c p lost [])) (fun d t => s.tileArrival d t p)
      (fun h i => s.hubDeny h i p))

/-- READ (R143): one that the NI has taken and that waits there goes on by TAG_WAIT_RETRY or its deferred grant. -/
def execRead (p : Packet) (rows : RowTry) (s : State) : Host.Outcome State Fault Refusal :=
  .next (if p.cmd ≠ cREAD then s
    else s.byTarget p
      (fun c => s.atCore c p (fun s =>
        if s.readWaits (.core (BitVec.ofNat 20 c)) p then s else s.readRows c p false rows.lost rows.ecc readFuel))
      (fun d t => s.tileArrival d t p) (fun h i => s.hubDeny h i p))

/-! ## Hub endpoints (R136, R168, R169, R294, R383) -/

/-- A request at a hub endpoint, served by what `f` names; none where it waits. -/
def State.atHub (s : State) (h i : Nat) (p : Packet) (f : State → Option State) : State :=
  let e : Ep := .hub h i
  if s.standsAt e p = false then s
  else match f s with
    | some s' => s'.arrive e p
    | none => s

/-- The die's aperture (R294). -/
def State.atAperture (s : State) (h i : Nat) (p : Packet) (f : State → State) : State :=
  s.atHub h i p (fun s => some (f s))

/-- A doorbell packet, none where it waits on credits for room in the wake queue (R383, R390). -/
def State.doorbell (s : State) (h : Nat) (p : Packet) : Option State :=
  if p.ctx ≠ 0 ∨ p.data.length ≠ 1 then some (s.refuse (.hub h 0x0C) none (h / 2) .den p)
  else if s.wakeFull (h / 2) then none
  else some <| (s.message (h / 2) ((p.data.getD 0 0).toNat % 65536) true).accept (.hub h 0x0C) p

/-- MASK_WRITE (R144). -/
def execMaskWrite (p : Packet) (atoms : AtomTry) (s : State) : Host.Outcome State Fault Refusal :=
  .next (if p.cmd ≠ cMASK then s
    else s.byTarget p
      (fun c => s.atCore c p (fun s =>
        if p.data.length ≠ 5 then
          (s.arrive (.core (BitVec.ofNat 20 c)) p).refuse (.core (BitVec.ofNat 20 c)) none (dieOf c) .den p
        else s.takeWrite c p atoms.lost (atoms.ecc.map (·.ecc))))
      (fun d t => s.tileArrival d t p)
      (fun h i =>
        if i = 0 then s.atHub h i p (fun s => s.hbmMaskWrite h p (atoms.ecc.headD .clean))
        else if i = 0x0E ∧ h % 2 = 0 then s.atAperture h i p (fun s => s.bramMaskWrite h p (atoms.ecc.map (·.ecc)))
        else s.hubDeny h i p))

/-- MEM_WRITE (R168, R170, R294, R308, R383). -/
def execMemWrite (p : Packet) (ecc : List AtomEcc) (s : State) : Host.Outcome State Fault Refusal :=
  .next (if p.cmd ≠ cMEMW then s
    else s.byTarget p
      (fun c => s.atCore c p (fun s =>
        (s.arrive (.core (BitVec.ofNat 20 c)) p).refuse (.core (BitVec.ofNat 20 c)) none (dieOf c) .den p))
      (fun d t => s.tileArrival d t p)
      (fun h i =>
        if i = 0 then s.atHub h i p (fun s => s.hbmMemWrite h p ecc)
        else if i = 0x0E ∧ h % 2 = 0 then s.atAperture h i p (fun s => s.bramMemWrite h p)
        else if i = 0x0C then s.atHub h i p (fun s => s.doorbell h p)
        else s.hubDeny h i p))

/-- MEM_READ (R169, R294, R308). -/
def execMemRead (p : Packet) (ecc : List AtomEcc) (s : State) : Host.Outcome State Fault Refusal :=
  .next (if p.cmd ≠ cMEMR then s
    else s.byTarget p
      (fun c => s.atCore c p (fun s =>
        (s.arrive (.core (BitVec.ofNat 20 c)) p).refuse (.core (BitVec.ofNat 20 c)) none (dieOf c) .den p))
      (fun d t => s.tileArrival d t p)
      (fun h i =>
        if i = 0 then s.atHub h i p (fun s => s.hbmMemRead h p ecc)
        else if i = 0x0E ∧ h % 2 = 0 then s.atAperture h i p (fun s => s.bramMemRead h p (ecc.map (·.ecc)))
        else s.hubDeny h i p))

/-! ## Program loads (R108, R109, R148, R149) -/

/-- The words of block k in a packet's data (R108). -/
def ibufWords (p : Packet) : List W32 :=
  (p.data.flatMap (fun u => (List.range 4).map (fun i => BitVec.ofNat 32 (natBits u.toNat (32 * i) 32))))

/-- Words written into an instruction buffer from an index up. -/
def putWords (b : Vector W32 256) (i : Nat) : List W32 → Vector W32 256
  | [] => b
  | w :: r => putWords (vset b i w) (i + 1) r

/-- IBUF_WRITE (R108). -/
def execIbufWrite (p : Packet) (c : CoreAddr) (s : State) : Host.Outcome State Fault Refusal :=
  .next (if p.cmd ≠ cIBUF then s
    else s.atCore c.toNat p (fun s =>
      let b := p.var.toNat % 4
      ((s.arrive (.core c) p).modCore c.toNat (fun k =>
        { k with ibuf := putWords k.ibuf (64 * b) ((ibufWords p).take 64),
                 load := { k.load with blocks := if k.load.blocks.contains b then k.load.blocks else b :: k.load.blocks } })).accept
        (.core c) p))

/-- Whether an entry may be used (R148). -/
def State.routeOk (s : State) (e : BitVec 128) : Bool :=
  decide (rUp e ≤ s.rootLevel) && decide (rTkind e < 2) && !(rExt e && decide (s.dies ≤ rDie e)) &&
    !(decide (rTkind e = 1) && decide (rTarget e % 256 ≠ 0))

/-- A route entry stored: as not valid where a check fails (R148). -/
def State.putRoute (s : State) (c i : Nat) (e : BitVec 128) : State :=
  let e' := if rValid e && !s.routeOk e then rSetValid e false else e
  s.modCore c (fun k => { k with routes := vset k.routes i e', load := { k.load with
    routeWrites := k.load.routeWrites + 1, entries := i :: k.load.entries } })

/-- ROUTE_WRITE (R148). -/
def execRouteWrite (p : Packet) (c : CoreAddr) (s : State) : Host.Outcome State Fault Refusal :=
  .next (if p.cmd ≠ cROUTE then s
    else s.atCore c.toNat p (fun s =>
      ((s.arrive (.core c) p).putRoute c.toNat (p.var.toNat % 32) (p.data.getD 0 0)).accept (.core c) p))

/-- START (R109): held; its answer follows the load. -/
def execStart (p : Packet) (c : CoreAddr) (s : State) : Host.Outcome State Fault Refusal :=
  .next (if p.cmd ≠ cSTART then s
    else s.atCore c.toNat p (fun s =>
      (s.arrive (.core c) p).modCore c.toNat (fun k => { k with load := { k.load with held := some p } })))

/-- L, the program length a START carries. -/
def startLen (p : Packet) : Nat := p.var.toNat % 256 + 1

/-- C, the route writes a START names (R143, R149). -/
def startRoutes (p : Packet) : Nat := p.routes.toNat

/-- Whether a core has what its START names (R109, R110, R149). -/
def Core.loadReady (k : Core) (p : Packet) : Bool :=
  (List.range ((startLen p + 63) / 64)).all (k.load.blocks.contains ·) && decide (startRoutes p ≤ k.load.routeWrites) &&
    decide (k.run ≠ .running)

/-- A core after a program load (R58, R59, R63, R64, R77, R109). -/
def Core.loaded (k : Core) (c : Nat) (p : Packet) : Core :=
  { k.engineReset with
    pc := 0
    g := vset (Vector.replicate 16 0) 15 (BitVec.ofNat 32 c)
    a := Vector.replicate 8 0xFC0
    v := Vector.replicate 16 0
    rrb := 0
    l0 := .off
    l1 := .off
    steps := 0
    nflags := 0
    rng := BitVec.ofNat 32 (c + 1)
    routes := Vector.ofFn (fun i => let e := vget k.routes i.val 0; if k.load.entries.contains i.val then e else rSetValid e false)
    plen := startLen p
    load := ⟨none, [], 0, []⟩
    startInfo := some ⟨p.src, p.skind, p.up, p.tag, p.ctx⟩
    run := .running
    latchedFault := none
    waits := k.waits.filter niParty
    deferred := k.deferred.filter niParty
    absSeen := 0
    saved := false }

/-- PROGRAM_LOAD (R109). -/
def execProgramLoad (c : CoreAddr) (s : State) : Host.Outcome State Fault Refusal :=
  .next (
    let k := s.core c.toNat
    match k.load.held with
    | none => s
    | some p =>
      if k.loadReady p = false ∨ s.coreTakes c.toNat = false ∨ (s.coreRefuses c.toNat 0).isSome then s
      else (s.setCore c.toNat (k.loaded c.toNat p)).accept (.core c) p)

/-- STOP (R80, R143, R157). -/
def execStop (p : Packet) (c : CoreAddr) (s : State) : Host.Outcome State Fault Refusal :=
  .next (if p.cmd ≠ cSTOP then s
    else s.atCore c.toNat p (fun s => ((s.arrive (.core c) p).stopArrives c.toNat).accept (.core c) p))

/-- TALLY_ARRIVAL (R145, R309). -/
def execTallyArrival (p : Packet) (s : State) : Host.Outcome State Fault Refusal :=
  .next (if p.cmd ≠ cTALLY then s
    else s.byTarget p
      (fun c => s.atCore c p (fun s => ((s.arrive (.core (BitVec.ofNat 20 c)) p).modCore c (fun k =>
        { k with tsum := k.tsum + BitVec.ofNat 32 (tallyField p 0), tcnt := BitVec.ofNat 32 (min (k.tcnt.toNat + tallyField p 1) (2 ^ 32 - 1)) })).accept
          (.core (BitVec.ofNat 20 c)) p))
      (fun d t => s.tileArrival d t p)
      (fun h i => if s.standsAt (.hub h i) p then s.arrive (.hub h i) p else s))

/-! ## Partition resets at a core (R83, R164) -/

/-- A core under reset: its sink on, stopped, its queues emptied, its Bleach begun (R164). -/
def Core.underReset (k : Core) : Core :=
  { k.discard with run := .killed, sink := true, bleaching := true, inq := [], waits := [], deferred := [], rdGot := [],
                   load := ⟨none, [], 0, []⟩, resetDue := false, haltDue := none }

/-- The packets that wait at a core, its held START and those in its buffer first, refused in their order (R164). -/
def State.sinkPackets (s : State) (c : Nat) : State :=
  let k := s.core c
  (k.load.held.toList ++ k.inq).foldl (fun s p => s.refuse (.core (BitVec.ofNat 20 c)) none (dieOf c) .rst p) s

/-- A core that stops for a kill and Bleaches; the packets that wait at it are refused (R128, R131). The brake holds the stop
until its release (R83). -/
def State.killCore (s : State) (c : Nat) : State :=
  if s.braked c then s.modCore c (fun k => { k with haltDue := some true, bleaching := true })
  else ((s.haltCore c).sinkPackets c).modCore c (fun k =>
    { k with inq := [], waits := [], deferred := [], rdGot := [], load := ⟨none, [], 0, []⟩, bleaching := true, saved := false })

/-- The packets that cores have queued and not begun to send, discarded (R164 step 3). -/
def State.dropQueued (s : State) (l : List Nat) : State :=
  { s with net := { s.net with flights := s.net.flights.filter (fun f => match f.loc with
      | .out (.core c) => !l.contains c.toNat
      | _ => true) } }

/-- A core put under reset: what it has queued is dropped, what waits at it is refused, and its Bleach begins (R164). -/
def State.resetCore (s : State) (c : Nat) : State :=
  ((s.dropQueued [c]).sinkPackets c).modCore c Core.underReset

/-- Cores put under reset: those that hold state of their own, then the others. The brake holds a reset until its release
(R83, R164). -/
def State.resetCoresOf (s : State) (l : List Nat) : State :=
  let due := fun (k : Core) => { k with resetDue := true }
  let known := (s.cores.map (·.1)).filter (fun c => l.contains c)
  let s := s.dropQueued (l.filter (fun c => !s.braked c))
  let s := known.foldl (fun s c => if s.braked c then s.modCore c due else s.resetCore c) s
  let fresh := l.filter (fun c => !known.contains c)
  { s with cores := s.cores ++ fresh.map (fun c => (c, if s.braked c then due Core.reset else Core.reset.underReset))
           start := { s.start with resetCores := l } }

/-! ## Bleach (R129 to R132, R164) -/

/-- A core after its Bleach (R129): what is not context state stays. -/
def Core.bleached (k : Core) : Core :=
  { Core.reset with rowMap := k.rowMap, ceCnt := k.ceCnt, worn := k.worn, sink := k.sink, asleep := k.asleep, waking := k.waking,
                    wakeDue := k.wakeDue, resetDue := k.resetDue }

/-- A BLEACHING context whose cores and controllers have all reported enters FREE (R130, R246). -/
def State.ctxFreed (s : State) (x : Nat) : State :=
  let t := s.ctx x
  if s.reg .CTX_STATE_STATE x ≠ 6 ∨ ¬t.owedCores.isEmpty ∨ ¬t.owedStacks.isEmpty then s
  else
    let s := ((s.setReg .CTX_STATE_STATE x 0).setReg .CTX_STATE_BUSY x 0).event .CTX_EVENT_STATE x
    let p := s.ownerPort x
    let s := { s.setReg .CTX_STATE_OWNER x 0 with ctxs := Tbl.erase s.ctxs x }
    match p with
    | none => s
    | some p =>
      if (s.port p).flr && (List.range 1024).all (fun y => !s.owns p y) then s.modPort p (fun q => { q with flr := false }) else s

/-- A core that has reported its Bleach done is released by every party that waited for it. -/
def State.coreBleached (s : State) (c : Nat) : State :=
  let owing := (s.ctxs.filter (fun e => e.2.owedCores.contains c)).map (·.1)
  let s := owing.foldl (fun s x => (s.modCtx x (fun t => { t with owedCores := t.owedCores.erase c })).ctxFreed x) s
  { s with start := { s.start with resetCores := s.start.resetCores.erase c } }

/-- CORE_BLEACH_DONE (R130, R132, R164): the brake freezes a Bleach. -/
def execCoreBleachDone (c : CoreAddr) (s : State) : Host.Outcome State Fault Refusal :=
  .next (
    if (s.core c.toNat).bleaching = false ∨ s.braked c.toNat then s
    else (s.modCore c.toNat Core.bleached).coreBleached c.toNat)

/-- The parts of a context's areas on a stack, as device addresses from and to. -/
def State.areasOn (s : State) (x h : Nat) : List (Nat × Nat) :=
  ((List.range 16).filter (fun k => s.areaOn x k h)).map (fun k =>
    let lo := s.reg .CTX_HBM_BASE (x * 16 + k) * 0x200000
    let hi := lo + s.reg .CTX_HBM_SIZE (x * 16 + k) * 0x200000
    (max lo (h * s.stackE), min hi ((h + 1) * s.stackE)))

/-- Whether an address lies in one of some ranges. -/
def inRanges (l : List (Nat × Nat)) (a : Nat) : Bool := l.any (fun r => decide (r.1 ≤ a) && decide (a < r.2))

/-- HBM_BLEACH_DONE (R130): the context's parts of the stack are zero, and no atom of them stays poisoned. -/
def execHbmBleachDone (x : Fin 1024) (stack : Fin 16) (s : State) : Host.Outcome State Fault Refusal :=
  .next (
    let h := stack.val
    let t := s.ctx x
    if s.reg .CTX_STATE_STATE x ≠ 6 ∨ t.owedStacks.contains h = false then s
    else
      let l := s.areasOn x h
      let s := { s with hbm := s.hbm.filter (fun c => !inRanges l c.1) }
      let s := s.modStk h (fun k => { k with poison := k.poison.filter (fun a => !inRanges l (h * s.stackE + a * 64)) })
      (s.modCtx x (fun t => { t with owedStacks := t.owedStacks.erase h })).ctxFreed x)

end Sys2Proof.Machine
end

