-- ==== Sys2Proof/Machine/Ring.lean ====
section
/-! DEFINITION. Rings, fetched copies and completions of a context, and how a Fix group ends (R238 to R246, R259, R269). -/

namespace Sys2Proof.Machine

/-! ## States of a context -/

/-- CTX_STATE.STATE. -/
def State.cst (s : State) (x : Nat) : Nat := s.reg .CTX_STATE_STATE x

/-- A context put into FAULTED with a status; the event of an entry without a command (R245, R246). One that pauses or is
paused is FAULTED from its resume on (R282); a STOP in progress ends with it. -/
def State.ctxFault (s : State) (x status : Nat) : State :=
  if s.cst x = 3 ∨ (s.ctx x).busy = .pausing then (s.setReg .CTX_STATE_PREV x 5).setReg .CTX_STATE_FSTATUS x status
  else if s.cst x = 2 ∨ s.cst x = 4 then
    let s := ((s.setReg .CTX_STATE_STATE x 5).setReg .CTX_STATE_FSTATUS x status)
    let s := if (s.ctx x).busy = .stopping then (s.modCtx x (fun t => { t with busy := .none })).setReg .CTX_STATE_BUSY x 0 else s
    s.event .CTX_EVENT_STATE x
  else s

/-- The port of a context, for its host accesses. -/
def State.portOf (s : State) (x : Nat) : Nat := (s.ownerPort x).getD 0

/-- The PASID of a context's rings (R238). -/
def State.ringPasid (s : State) (x : Nat) : Option Nat :=
  if s.regB .CTX_RING_PV x then some (s.reg .CTX_RING_PASID x) else none

/-- Entries of a submission ring. -/
def State.sqSize (s : State) (x : Nat) : Nat := 2 ^ (6 + s.reg .CTX_RING_SQ_LOG2 x)

/-- Entries of a completion ring. -/
def State.cqSize (s : State) (x : Nat) : Nat := 2 ^ (6 + s.reg .CTX_RING_CQ_LOG2 x)

/-! ## Host translations (R197, R202, R238) -/

/-- The VF through which a context reaches its host: the one that stands for it, or none for the PF (R220). -/
def State.fnOf (s : State) (x : Nat) : Option Nat := s.vfOf (s.portOf x) x

/-- Whether a translation is of a page, a PASID and a function. -/
def Tr.is (e : Tr) (page : Nat) (pasid vf : Option Nat) : Bool :=
  decide (e.page = page) && decide (e.pasid = pasid) && decide (e.vf = vf)

/-- Whether a context may access a host page: ATS is off at its port, or the cache holds the permission. -/
def State.translated (s : State) (x page : Nat) (pasid : Option Nat) (write : Bool) : Bool :=
  let q := s.port (s.portOf x)
  !q.ats || q.atc.any (fun e => e.is page pasid (s.fnOf x) && (if write then e.w else e.r))

/-- A translation used: of a port's translations it is now the one used last (R434). -/
def State.useTr (s : State) (x page : Nat) (pasid : Option Nat) : State :=
  let p := s.portOf x
  let f := s.fnOf x
  if (s.port p).ats then
    s.modPort p (fun q => { q with atc := q.atc.filter (fun e => !e.is page pasid f) ++ q.atc.filter (fun e => e.is page pasid f) })
  else s

/-- An ATS Translation Request of a context. -/
def State.askTr (s : State) (x page : Nat) (pasid : Option Nat) (write : Bool) : State :=
  s.send (.atsRequest (s.portOf x) (s.fnOf x) page pasid write)

/-- The number that stands for a ring of a context among page requests: its completion ring, or its submission ring. -/
def ringId (x : Nat) (sq : Bool) : Nat := 2 ^ 40 + 2 * x + (if sq then 1 else 0)

/-- The greatest payload of a TLP of a port, in bytes, by its Max Payload Size (R216). -/
def State.maxPayload (s : State) (p : Nat) : Nat := 128 * 2 ^ min 2 (Tbl.getD (s.port p).conf .maxPayload 0)

/-- The greatest read request of a port, in bytes, by its Max Read Request Size (R216). -/
def State.maxRead (s : State) (p : Nat) : Nat := 128 * 2 ^ min 5 (Tbl.getD (s.port p).conf .maxReadRequest 2)

/-- A host write of a context, in TLPs of its port's payload size; a lost link does not carry it (R216, R230). -/
def State.hostPut (s : State) (x addr : Nat) (bytes : List Byte) (pasid : Option Nat) : State :=
  let p := s.portOf x
  let m := s.maxPayload p
  if (s.port p).lost then s
  else ((chunks m ((bytes.length + m - 1) / m) bytes).zipIdx).foldl (fun s e => s.send (.hostWrite p (addr + m * e.2) e.1 pasid))
    (s.useTr x (addr / 4096) pasid)

/-- A host read of a context's transfer, in requests of its port's read size: the piece that waits for it (R216). -/
def State.hostGet (s : State) (x t n addr len : Nat) (pasid : Option Nat) : State :=
  let p := s.portOf x
  let m := s.maxRead p
  if (s.port p).lost then s
  else (List.range ((len + m - 1) / m)).foldl (fun s k => s.send (.hostRead p t n (addr + m * k) (min m (len - m * k)) pasid))
    (s.useTr x (addr / 4096) pasid)

/-- A completion of a host read that failed, logged (R225): a poisoned one as Poisoned TLP Received, one with an error status as
Unexpected Completion. -/
def State.badCompletion (s : State) (p : Nat) (d : HostData) : State :=
  match d with
  | .bytes _ => s
  | .poisoned => s.aer p .poisoned
  | .error => s.aer p .unexpected

/-! ## Completion entries (R243, R244, R246) -/

/-- The bytes of a completion entry. -/
def Cqe.bytes (e : Cqe) (phase : Nat) : List Byte :=
  natBytes e.seq 4 ++ natBytes e.status 2 ++ natBytes e.op 1 ++ natBytes phase 1 ++ natBytes e.time 6 ++ natBytes e.info 2

/-- Whether the completion ring is full. -/
def State.cqFull (s : State) (x : Nat) : Bool :=
  (s.reg .CTX_RING_POS_CQ_TAIL x + 1) % s.cqSize x == (s.ctx x).cqHead % s.cqSize x

/-- The host address of the next completion slot. -/
def State.cqAddr (s : State) (x : Nat) : Nat :=
  s.reg .CTX_RING_CQ_BASE x / 4096 * 4096 + 16 * s.reg .CTX_RING_POS_CQ_TAIL x

/-- Whether entries of a context may reach the host now: its link is up and it is not paused (R230, R255). -/
def State.cqOpen (s : State) (x : Nat) : Bool :=
  (match s.ownerPort x with
   | some p => !(s.port p).lost
   | none => false) && s.cst x != 3 && ((s.ctx x).busy == .none || (s.ctx x).busy == .stopping)

/-- One entry written at the tail. -/
def State.cqPut (s : State) (x : Nat) (e : Cqe) : State :=
  let tail := s.reg .CTX_RING_POS_CQ_TAIL x
  let ph := s.reg .CTX_RING_POS_PHASE x
  let s := (s.hostPut x (s.cqAddr x) (e.bytes ph) (s.ringPasid x)).modCtx x (fun t =>
    { t with cqTries := 0, cqOut := t.cqOut ++ [(s.cqAddr x, e.bytes ph)] })
  let next := (tail + 1) % s.cqSize x
  let s := s.setReg .CTX_RING_POS_CQ_TAIL x next
  (if next = 0 then s.setReg .CTX_RING_POS_PHASE x (1 - ph) else s).cqMessage x

/-- Waiting entries written in their order, as far as the ring and the translation allow. -/
def State.cqFlush (s : State) (x : Nat) : Nat → State
  | 0 => s
  | n + 1 => match (s.ctx x).heldCq with
    | [] => s
    | e :: r =>
      if !s.cqOpen x || s.cqFull x then s
      else if !s.translated x (s.cqAddr x / 4096) (s.ringPasid x) true then s.askTr x (s.cqAddr x / 4096) (s.ringPasid x) true
      else State.cqFlush ((s.modCtx x (fun t => { t with heldCq := r })).cqPut x e) x n

/-- A completion entry from its bytes. -/
def cqeOf (b : List Byte) : Cqe := ⟨bF b 0 4, bF b 4 2, bF b 6 1, bF b 8 6, bF b 14 2⟩

/-- Completion entries that the link had not acknowledged when it was lost, held again before those that wait, the tail back at the
first of them (R230, R255). -/
def State.cqCut (s : State) (x : Nat) : State :=
  match (s.ctx x).cqOut with
  | [] => s
  | (a, b) :: r =>
    let l := ((a, b) :: r).map (fun e => cqeOf e.2)
    ((s.modCtx x (fun t => { t with cqOut := [], heldCq := l ++ t.heldCq })).setReg .CTX_RING_POS_CQ_TAIL x
      ((a - s.reg .CTX_RING_CQ_BASE x / 4096 * 4096) / 16)).setReg .CTX_RING_POS_PHASE x (bF b 7 1)

/-- A completion entry given to the ring, behind those that wait. -/
def State.cqe (s : State) (x : Nat) (e : Cqe) : State :=
  (s.modCtx x (fun t => { t with heldCq := t.heldCq ++ [e] })).cqFlush x ((s.ctx x).heldCq.length + 1)

/-- Whether the held list is full (R244). -/
def State.heldFull (s : State) (x : Nat) : Bool := decide (256 ≤ (s.ctx x).heldCq.length)

/-- A completion that waits until the held list has a place, behind those that wait (R244). -/
def State.owe (s : State) (x : Nat) (o : Owed) : State :=
  s.modCtx x (fun t => { t with owed := if t.owed.contains o then t.owed else t.owed ++ [o] })

/-- An entry that is no descriptor's, written as soon as the held list has a place (R244). -/
def State.cqeDue (s : State) (x : Nat) (e : Cqe) : State := if s.heldFull x then s.owe x (.entry e) else s.cqe x e

/-! ## Deadlines (R214) -/

/-- Whether a deadline counted from `t0` has passed in real-time mode: the timer reads more than DEADLINE ns later (DESIGN CHOICE, log 20:
R214 does not say whether the very moment counts as past). -/
def State.passed (s : State) (t0 deadline : Nat) : Bool :=
  s.regB .XFR_MODE_RT_EN 0 && decide (deadline ≠ 0) && decide (deadline < (s.timer + 2 ^ 48 - t0) % 2 ^ 48)

/-- A miss counted, and its event. -/
def State.missed (s : State) (x : Nat) : State := (s.bump .XFR_CTX_MISS_MISSES x).event .CTX_EVENT_DEADLINE x

/-- The lateness at completion recorded when it is the greatest. -/
def State.lateness (s : State) (x t0 deadline : Nat) : State :=
  let l := min ((s.timer + 2 ^ 48 - t0) % 2 ^ 48 - deadline) 0xFFFFFFFF
  if s.reg .XFR_CTX_MISS_LATE_MAX x < l then s.setReg .XFR_CTX_MISS_LATE_MAX x l else s

/-- The deadline of a descriptor that may be real-time: XFER, LAUNCH, REDUCE, RESHARD (R247); 0 for any other. -/
def realTime (d : BitVec 512) : Nat :=
  if natBits (dFlags d) 2 1 = 1 ∧ [0x01, 0x02, 0x0A, 0x0B].contains (dOp d) then dDeadline d else 0

/-! ## Copies (R240, R241) -/

/-- A copy by its number. -/
def Ctx.copy? (t : Ctx) (i : Nat) : Option Copy := t.copies.find? (fun c => c.id == i)

/-- Whether an operation holds back later ones: FENCE and WAIT (R241). -/
def holdsBack (d : BitVec 512) : Bool := dOp d == 0x0D || dOp d == 0x03

/-- The copies before a copy. -/
def before (l : List Copy) (i : Nat) : List Copy := l.takeWhile (fun c => c.id != i)

/-- Whether a copy is eligible (R241). -/
def State.eligible (s : State) (x : Nat) (c : Copy) : Bool :=
  s.cst x == 2 && (s.ctx x).busy == .none && !c.begun && !c.done &&
    (before (s.ctx x).copies c.id).all (fun e => e.done || !holdsBack e.bytes)

/-- A miss of a copy that is eligible and has not begun, once its deadline has passed (R214). -/
def State.missCopy (s : State) (x : Nat) (c : Copy) : State :=
  if c.begun || c.done || c.late || c.elig.isNone || !s.passed (c.elig.getD s.timer) (realTime c.bytes) then s
  else (s.modCtx x (fun t => { t with copies := mapIf (fun k => k.id == c.id) (fun k => { k with late := true }) t.copies })).missed x

/-- Whether every earlier copy has completed. -/
def Ctx.earlierDone (t : Ctx) (i : Nat) : Bool := (before t.copies i).all (·.done)

/-- The moment at which copies have become eligible noted (R214). -/
def State.markElig (s : State) (x : Nat) : State :=
  let l := (s.ctx x).copies.map (fun c => if c.elig.isNone && s.eligible x c then { c with elig := some s.timer } else c)
  s.modCtx x (fun t => { t with copies := l })

/-- Completed copies with nothing uncompleted before them leave the list; RETIRED_SEQ follows (R241). -/
def State.retire (s : State) (x : Nat) : State :=
  let l := (s.ctx x).copies
  let gone := l.takeWhile (·.done)
  match gone.getLast? with
  | none => s
  | some c => (s.modCtx x (fun t => { t with copies := l.drop gone.length })).setReg .CTX_RING_POS_RETIRED_SEQ x (dSeq c.bytes)

/-- A copy completed with a status, without regard to its group: its entry, RETIRED_SEQ, and what becomes eligible. -/
def State.finishCopy (s : State) (x i status info : Nat) (always : Bool) : State :=
  match (s.ctx x).copy? i with
  | none => s
  | some c =>
    if c.done then s
    else if s.heldFull x then s.owe x (.copy i status info always)
    else
      let s := if c.late then s.lateness x (c.elig.getD s.timer) (realTime c.bytes) else s
      let s := s.modCtx x (fun t => { t with copies := mapIf (fun c => c.id == i) (fun c => { c with begun := true, done := true }) t.copies })
      let s := if always || dWantCq c.bytes || status != 0 then
          s.cqe x ⟨dSeq c.bytes, status, dOp c.bytes, s.timer % 2 ^ 48, info % 2 ^ 16⟩
        else s
      (s.retire x).markElig x

/-! ## The ends of a group (R259, R264, R265, R269) -/

/-- A group of a context. -/
def Ctx.grp? (t : Ctx) (g : Nat) : Option Grp := t.grps.find? (fun q => q.id == g)

/-- The state with a group changed. -/
def State.modGrp (s : State) (x g : Nat) (f : Grp → Grp) : State :=
  s.modCtx x (fun t => { t with grps := mapIf (fun q => q.id == g) f t.grps })

/-- Whether every member of a group has completed. -/
def Ctx.membersDone (t : Ctx) (q : Grp) : Bool := q.members.all (fun i => match t.copy? i with
  | some c => c.done
  | none => true)

/-- Whether a group has given its area back: it has aborted, and its members have all completed (R269). -/
def Ctx.areaFree (t : Ctx) (q : Grp) : Bool := decide (q.st = .aborted) && t.membersDone q

/-- Aborted groups with nothing more to do leave the list. -/
def State.dropAborted (s : State) (x : Nat) : State :=
  let t := s.ctx x
  let closed (q : Grp) : Bool := match q.closer with
    | none => false
    | some c => (match t.copy? c with
      | some k => k.done
      | none => true)
  s.modCtx x (fun u => { u with grps := u.grps.filter (fun q => !(t.areaFree q && closed q)) })

/-- The status of an aborted group's closing descriptor. -/
def Grp.abortStatus (q : Grp) : Nat := if q.overflowed then 0x0202 else 0x0201

/-- A group that has not flipped aborts: its staged data is discarded, a closing descriptor that waits completes. -/
def State.abortOne (s : State) (x g : Nat) (overflow : Bool) : State :=
  match (s.ctx x).grp? g with
  | none => s
  | some q =>
    if q.st ≠ .open_ ∧ q.st ≠ .closed then s
    else
      let s := (s.modGrp x g (fun q => { q with st := .aborted, overflowed := overflow, pages := [], rows := [], host := [], acts := [] })).bump
        .CTX_FIX_ABORTS x
      match q.closer with
      | none => s
      | some c => match (s.ctx x).copy? c with
        | some k => if k.begun then s.finishCopy x c (if overflow then 0x0202 else 0x0201) 0 true else s
        | none => s

/-- A group aborts, and with it every later group that copied one of its pages (R265). -/
def State.abortGrp (s : State) (x g : Nat) (overflow : Bool) : State :=
  let later := ((s.ctx x).grps.filter (fun q => decide (g < q.id))).map (·.id)
  let s := s.abortOne x g overflow
  let s := later.foldl (fun s h =>
    match (s.ctx x).grp? h with
    | some q => if q.from_.any (fun f => match (s.ctx x).grp? f with
        | some r => decide (r.st = .aborted)
        | none => decide (f = g)) then s.abortOne x h false else s
    | none => s) s
  s.dropAborted x

/-- Statuses with which a member lets its group commit (R266, R269). -/
def goodMember (status : Nat) : Bool := status == 0 || status == 0x0301 || status == 0x0401

/-- Whether a copy's group has aborted. -/
def Ctx.inAborted (t : Ctx) (c : Copy) : Bool :=
  match c.grp with
  | some g => (match t.grp? g with
    | some q => decide (q.st = .aborted)
    | none => false)
  | none => false

/-- The status that a copy completes with: a member of an aborted group never with OK (R269). -/
def State.statusNow (s : State) (x i status : Nat) : Nat :=
  match (s.ctx x).copy? i with
  | none => status
  | some c => if (s.ctx x).inAborted c && status == 0 && dMember c.bytes then 0x0201 else status

/-- A descriptor completes (R243, R269). -/
def State.complete (s : State) (x i status info : Nat) : State :=
  match (s.ctx x).copy? i with
  | none => s
  | some c =>
    let aborted := (s.ctx x).inAborted c
    let status := s.statusNow x i status
    let s := s.finishCopy x i status info false
    match c.grp with
    | some g => if dMember c.bytes && !goodMember status && !aborted then s.abortGrp x g (status == 0x0202) else s.dropAborted x
    | none => s

/-- The first completion that waited for a place in the held list. -/
def State.payOne (s : State) (x : Nat) : State :=
  match (s.ctx x).owed with
  | [] => s
  | o :: r =>
    if s.heldFull x then s
    else
      let s := s.modCtx x (fun t => { t with owed := r })
      match o with
      | .entry e => s.cqe x e
      | .copy i status info always => (s.finishCopy x i (s.statusNow x i status) info always).dropAborted x

/-- The completions that waited for a place in the held list, in their order (R244). -/
def State.payOwed (s : State) (x : Nat) : State := (s.ctx x).owed.foldl (fun s _ => s.payOne x) s

/-- The held list written as far as it can be, and what waited for a place in it. -/
def State.cqGo (s : State) (x : Nat) : State :=
  let s := (s.cqFlush x (s.ctx x).heldCq.length).payOwed x
  s.cqFlush x (s.ctx x).heldCq.length

/-! ## Beginning a descriptor (R241, R244, R247) -/

/-- Whether a descriptor breaks the rules of FLAGS bit 1 (R247). -/
def badMember (c : Copy) : Bool :=
  dMember c.bytes && (c.grp.isNone || (decide (5 ≤ dOp c.bytes) && decide (dOp c.bytes ≤ 9)))

/-- An eligible descriptor with one of some operations begins: refused when it breaks R247, else it acts. -/
def State.begins (s : State) (x i : Nat) (ops : Nat → Bool) (act : Copy → State → State) : State :=
  match (s.ctx x).copy? i with
  | none => s
  | some c =>
    if !ops (dOp c.bytes) || !s.eligible x c || s.heldFull x then s
    else
      let s := (s.missCopy x c).modCtx x (fun t => { t with copies := mapIf (fun c => c.id == i) (fun c => { c with begun := true }) t.copies })
      let c := ((s.ctx x).copy? i).getD c
      if badMember c then s.complete x i 0x0001 0 else act c s

/-- One that acts only once every earlier descriptor has completed (R241). -/
def State.beginsLast (s : State) (x i : Nat) (ops : Nat → Bool) (act : Copy → State → State) : State :=
  if (s.ctx x).earlierDone i then s.begins x i ops act else s

/-! ## Context areas (R236, R237, R254) -/

/-- A context's valid areas, as first byte and length. -/
def State.areas (s : State) (x : Nat) : List (Nat × Nat) :=
  ((List.range 16).filter (fun k => s.regB .CTX_HBM_VALID (x * 16 + k) && decide (0 < s.reg .CTX_HBM_SIZE (x * 16 + k)))).map
    (fun k => (s.reg .CTX_HBM_BASE (x * 16 + k) * 0x200000, s.reg .CTX_HBM_SIZE (x * 16 + k) * 0x200000))

/-- Bytes of a Fix staging area (R262). -/
def fixArea : Nat := 64 * 2 ^ 20

/-- The save area, the held-write record, the Fix staging areas and the Logbook region (R236). -/
def State.controlAreas (s : State) (x : Nat) : List (Nat × Nat) :=
  [(areaBase (s.reg .CTX_AREA_SAVE_BASE x), 5120 * s.ncore x),
   (areaBase (s.reg .CTX_AREA_HELD_BASE x), s.reg .CTX_AREA_HELD_SIZE x * 65536),
   (areaBase (s.reg .CTX_AREA_FIX_BASE x), s.reg .CTX_AREA_FIX_N x * fixArea),
   (areaBase (s.reg .CTX_AREA_LOG_BASE x), s.reg .CTX_AREA_LOG_SIZE x * 2 ^ 20)]

/-- Whether a range lies inside one of a list of ranges. -/
def insideOne (l : List (Nat × Nat)) (a n : Nat) : Bool := l.any (fun r => decide (r.1 ≤ a) && decide (a + n ≤ r.1 + r.2))

/-- Whether two ranges meet. -/
def meets (a b : Nat × Nat) : Bool := decide (a.1 < b.1 + b.2) && decide (b.1 < a.1 + a.2)

/-- Addresses of a range that some areas cover, counted piece by piece: whether the areas cover it all. -/
def coveredBy (l : List (Nat × Nat)) (a n : Nat) : Nat → Bool
  | 0 => decide (n = 0)
  | k + 1 => if n = 0 then true
    else match l.find? (fun r => decide (r.1 ≤ a) && decide (a < r.1 + r.2)) with
      | none => false
      | some r => let m := min n (r.1 + r.2 - a); coveredBy l (a + m) (n - m) k

/-- Whether a context's descriptors reach a range of HBM (R237). -/
def State.hbmAllowed (s : State) (x a n : Nat) : Bool :=
  decide (a + n ≤ s.hbmTop) && coveredBy (s.areas x) a n 17 && !(s.controlAreas x).any (fun r => decide (0 < r.2) && meets r (a, n))

/-- Units of `u` that a range touches. -/
def unitsIn (u a n : Nat) : List Nat := if n = 0 then [] else (List.range ((a + n - 1) / u + 1 - a / u)).map (· + a / u)

end Sys2Proof.Machine
end

