-- ==== Sys2Proof/Machine/Stage.lean ====
section
/-! DEFINITION. What a Fix group stages (R260 to R265), the packets that carry bytes to device addresses (R142 to R146,
R188, R189, R193, R209), and reads of device memory that a descriptor makes as it begins (R126, R178, R237). -/

namespace Sys2Proof.Machine

/-! ## Staging (R262 to R265) -/

/-- Pages of a staging area. -/
def areaPages : Nat := 16384

/-- Entries of a controller's redirection table. -/
def redirectMax : Nat := 16384

/-- Pages a group has taken: its header, its page copies, its record pages. -/
def Grp.used (q : Grp) : Nat := 1 + q.pages.length + (q.recBytes + 4095) / 4096

/-- Redirection entries of a controller in use. -/
def State.redirects (s : State) (h : Nat) : Nat :=
  ((s.ctxs.flatMap (fun e => e.2.grps)).map (fun g => (g.pages.filter (fun q => s.stackOf (q.1 * 4096) == h)).length)).sum

/-- Bytes put into a string at an offset. -/
def putBytes (l : List Byte) (off : Nat) (b : List Byte) : List Byte := l.take off ++ b ++ l.drop (off + b.length)

/-- The latest earlier group of the context that has staged a page and has not flipped (R265). -/
def State.stagedBefore (s : State) (x g page : Nat) : Option Grp :=
  ((s.ctx x).grps.filter (fun q => decide (q.id < g) && (decide (q.st = .open_) || decide (q.st = .closed)) &&
    q.pages.any (fun e => e.1 == page))).getLast?

/-- A page copy as a later group takes it. -/
def Grp.pageOf (q : Grp) (page : Nat) : List Byte :=
  match q.pages.find? (fun e => e.1 == page) with
  | some e => e.2
  | none => []

/-- The first write of a group to an HBM page: the copy it starts from, with the rank of a read that fails. -/
def State.stagePage (s : State) (x g page off : Nat) (b : List Byte) : State × Nat :=
  match s.stagedBefore x g page with
  | some f => (s.modGrp x g (fun q => { q with pages := q.pages ++ [(page, putBytes (f.pageOf page) off b)], from_ := f.id :: q.from_ }), 7)
  | none =>
    let q := s.hbmSeen (page * 4096) 4096 []
    let s := q.1
    match q.2 with
    | some r => (s, r)
    | none => (s.modGrp x g (fun q => { q with pages := q.pages ++ [(page, putBytes (s.hbmBytes (page * 4096) 4096) off b)] }), 7)

/-- A write of a group to HBM, inside one page; rank 0 stands for an overflow (R264). -/
def State.stageHbm (s : State) (x : Nat) (q : Grp) (page off : Nat) (b : List Byte) : State × Nat :=
  if q.pages.any (fun e => e.1 == page) then
    (s.modGrp x q.id (fun q => { q with pages := mapIf (fun e => e.1 == page) (fun e => (e.1, putBytes e.2 off b)) q.pages }), 7)
  else if areaPages ≤ q.used then (s, 0)
  else
    let h := s.stackOf (page * 4096)
    if redirectMax ≤ s.redirects h then (s.bump .HBM_FIX_MAP_FULL h, 0) else s.stagePage x q.id page off b

/-- A group with records of `n` more bytes, or none where the area has no page for them. -/
def Grp.moreRec (q : Grp) (n : Nat) : Option Grp :=
  let q' := { q with recBytes := q.recBytes + n }
  if q'.used ≤ areaPages then some q' else none

/-- Ones from bit `lo`, `n` of them. -/
def maskRun (lo n : Nat) : Nat := (2 ^ n - 1) * 2 ^ lo

/-- A write of a group to a part of one row. -/
def Grp.stageRow (q : Grp) (m core row lo : Nat) (b : List Byte) (t : Bool) : Option Grp :=
  let mk : BitVec 64 := BitVec.ofNat 64 (maskRun lo b.length)
  if q.rows.any (fun r => r.core == core && r.row == row) then
    some { q with rows := mapIf (fun r => r.core == core && r.row == row) (fun r =>
      { r with data := rowPut r.data lo b.length (bytesNat b), mask := r.mask ||| mk, t := r.t || t }) q.rows }
  else match q.moreRec 128 with
    | none => none
    | some q => some { q with rows := q.rows ++ [⟨m, core, row, rowPut 0 lo b.length (bytesNat b), mk, t⟩] }

/-- A write of a group to scratchpad bytes, row by row. -/
def Grp.stageRows (q : Grp) (m a : Nat) (t : Bool) : List Byte → Nat → Option Grp
  | _, 0 => some q
  | [], _ => some q
  | b, n + 1 =>
    let k := min b.length (64 - a % 64)
    match q.stageRow m (a / 4096 % 2 ^ 20) (a / 64 % 64) (a % 64) (b.take k) t with
    | none => none
    | some q => q.stageRows m (a + k) t (b.drop k) n

/-- A host write piece of a group. -/
def Grp.stageHost (q : Grp) (m a : Nat) (b : List Byte) (pasid : Option Nat) : Option Grp :=
  match q.moreRec (64 + (b.length + 63) / 64 * 64) with
  | none => none
  | some q => some { q with host := q.host ++ [(m, a, b, pasid)] }

/-- A group with another value. -/
def State.putGrp (s : State) (x : Nat) (old : State × Nat) (q : Option Grp) : State × Nat :=
  match q with
  | none => old
  | some q => (s.modGrp x q.id (fun _ => q), 7)

/-- The PASID of a specifier. -/
def EndSpec.pasid? (e : EndSpec) : Option Nat := if e.pv then some e.pasid else none

/-- A write of member `m` inside one page staged: HBM, rows or host memory (R260, R262). -/
def State.stage (s : State) (x g m : Nat) (d : EndSpec) (a : Nat) (b : List Byte) : State × Nat :=
  match (s.ctx x).grp? g with
  | none => (s, 7)
  | some q =>
    if q.st ≠ .open_ ∧ q.st ≠ .closed then (s, 7)
    else if d.kind = 0 then s.putGrp x (s, 0) (q.stageHost m a b d.pasid?)
    else if a < 2 ^ 44 then s.stageHbm x q (a / 4096) (a % 4096) b
    else s.putGrp x (s, 0) (q.stageRows m a d.t b 6)

/-- A write of member `m` that may reach into a second page staged. -/
def State.stageSpan (s : State) (x g m : Nat) (d : EndSpec) (a : Nat) (b : List Byte) : State × Nat :=
  let k := 4096 - a % 4096
  let r := s.stage x g m d a (b.take k)
  if b.length ≤ k ∨ r.2 ≠ 7 then r else r.1.stage x g m d (a + k) (b.drop k)

/-- A SIGNAL or stream arm staged (R262). -/
def State.stageAct (s : State) (x g m : Nat) (d : BitVec 512) : State × Nat :=
  match (s.ctx x).grp? g with
  | none => (s, 7)
  | some q =>
    if q.st ≠ .open_ ∧ q.st ≠ .closed then (s, 7)
    else s.putGrp x (s, 0) ((q.moreRec 64).map (fun q => { q with acts := q.acts ++ [(m, d)] }))

/-! ## Packets of an engine (R142 to R146, R189) -/

/-- The stack size by which a specifier's addresses are decoded (R166, R189). -/
def State.specE (s : State) (d : EndSpec) : Nat :=
  if d.kind = 2 then (if d.mv then 36 * 2 ^ 30 else 48 * 2 ^ 30) else s.stackE

/-- The endpoint of a device address and the variable bits that name its unit (R27, R142, R166, R189). -/
def placeOf (e a : Nat) : Ep × Nat :=
  if a < 2 ^ 44 then (.hub (a / e) 0, a % e / 16)
  else if a < 2 ^ 45 then (.core (BitVec.ofNat 20 (a / 4096)), a / 64 % 64 + 64 * (a / 16 % 4))
  else if a < 0x300000000000 then (.hub (2 * ((a - 2 ^ 45) / 0x800000)) 0x0E, (a - 2 ^ 45) % 0x800000 / 16)
  else (.tile ((a - 0x300000000000) / 0x200000) ((a - 0x300000000000) / 0x1000 % 512), 0)

/-- Whether an address is a core's. -/
def isScratch (a : Nat) : Bool := decide (2 ^ 44 ≤ a) && decide (a < 2 ^ 45)

/-- Whether an address is a tile port's. -/
def isTile (a : Nat) : Bool := decide (0x300000000000 ≤ a)

/-- Who sends: a context, an engine, the tag, and the egress port of a REMOTE endpoint. -/
structure Sender where
  ctx : Nat
  half : Nat
  eng : Nat
  tag : Nat
  egr : Option (Nat × Nat)
  deriving DecidableEq, Repr

/-- The endpoint of an engine (R136). -/
def Sender.ep (w : Sender) : Ep := .hub w.half (w.eng + 1)

/-- A packet of an engine to a device address. -/
def State.engPkt (s : State) (w : Sender) (d : EndSpec) (a : Nat) (cmd : BitVec 8) (count : Nat) (data : List Unit16) : Packet :=
  let pl := placeOf (s.specE d) a
  let way : Ep := match d.kind, w.egr with
    | 2, some (die, p) => .hub (2 * die + p / 2) (8 + p % 2)
    | _, _ => pl.1
  let hint := match pl.1 with
    | .hub _ 0 => d.hint
    | _ => 0
  let p := s.mkPkt w.ep way cmd w.ctx (w.tag % 2 ^ 14 + hint * 2 ^ 14) data
  { p with
    target := (epAddr pl.1).1
    tkind := (epAddr pl.1).2
    count := BitVec.ofNat 6 count
    var := BitVec.ofNat 32 pl.2
    t := d.t && isScratch a
    bulk := d.bulk
    ext := decide (d.kind = 2)
    xu := match d.kind, w.egr with
      | 2, some (die, p) => extUnit d.pkg (s.reg .SAL_PKG_NUM 0) die p false
      | _, _ => 0 }

/-- A read of `n` units at a device address. -/
def State.readPkt (s : State) (w : Sender) (d : EndSpec) (a n : Nat) : Packet :=
  s.engPkt w d a (if isScratch a then cREAD else cMEMR) n []

/-- Bytes as units, the last one filled with zeros. -/
def unitsOf (b : List Byte) : List Unit16 := (chunks 16 (b.length + 1) b).map (fun c => BitVec.ofNat 128 (bytesNat c))

/-- A write of whole units, which asks for an ANSWER where `ack`. -/
def State.unitsPkt (s : State) (w : Sender) (d : EndSpec) (ack : Bool) (a : Nat) (b : List Byte) : Packet :=
  let u := unitsOf b
  { s.engPkt w d a (if isScratch a then cWRITE else cMEMW) u.length u with ack := ack, cnt := d.cnt && isScratch a }

/-- A MASK_WRITE of bytes of a 64-byte block (R144). -/
def State.maskPkt (s : State) (w : Sender) (d : EndSpec) (ack : Bool) (block : Nat) (data : Nat) (mask : Nat) : Packet :=
  let u := (List.range 4).map (fun i => BitVec.ofNat 128 (natBits data (128 * i) 128)) ++ [BitVec.ofNat 128 (mask % 2 ^ 64)]
  { s.engPkt w d block cMASK 5 u with ack := ack, cnt := d.cnt && isScratch block }

/-- The MASK_WRITE of some bytes of one block. -/
def State.partPkt (s : State) (w : Sender) (d : EndSpec) (ack : Bool) (a : Nat) (b : List Byte) : Packet :=
  s.maskPkt w d ack (a / 64 * 64) (bytesNat b * 2 ^ (8 * (a % 64))) (maskRun (a % 64) b.length)

/-- The packets that write bytes to a tile port, at most 16 units each. -/
def State.tilePkts (s : State) (w : Sender) (d : EndSpec) (ack : Bool) (a : Nat) (b : List Byte) : List Packet :=
  (chunks 256 (b.length + 1) b).map (s.unitsPkt w d ack a)

/-- The packets that write bytes at a device address: whole units by writes, parts of a unit by MASK_WRITE (R193, R209). -/
def State.writePkts (s : State) (w : Sender) (d : EndSpec) (ack : Bool) (a : Nat) (b : List Byte) : List Packet :=
  if isTile a then s.tilePkts w d ack a b
  else
    let head := if a % 16 = 0 then 0 else min (16 - a % 16) b.length
    let tail := (b.length - head) % 16
    let mid := b.length - head - tail
    (if head = 0 then [] else [s.partPkt w d ack a (b.take head)]) ++
    (if mid = 0 then [] else [s.unitsPkt w d ack (a + head) ((b.drop head).take mid)]) ++
    (if tail = 0 then [] else [s.partPkt w d ack (a + head + mid) (b.drop (head + mid))])

/-- Packets sent by an engine, in order. -/
def State.sendAll (s : State) (w : Sender) (l : List Packet) : State := l.foldl (fun s p => s.inject w.ep p) s

/-! ## Reads as a descriptor begins (R123, R126, R156, R178, R237, R248) -/

/-- The rank of a refusal of a core's row to a context, 7 where it is not refused. -/
def State.coreRank (s : State) (x c : Nat) : Nat :=
  if s.absent c then 3
  else match s.coreRefuses c x with
    | some .rst => 4
    | some .den => 5
    | some .abs => 3
    | none => 7

/-- What stands in place of a rank where the row arbiter holds an engine's access, which is then made again (R116). -/
def heldRank : Nat := 8

/-- Whether an engine's access to a row loses the row's grant: another access takes it, or the core side is owed it; an access that
has lost before and is first in turn wins (R116). -/
def Core.engineLoses (k : Core) (r : Nat) (lost : Bool) : Bool :=
  !(k.deferred.contains (.engine r) && k.mayGrant (.engine r)) && (lost || k.owed (.engine r) [r])

/-- An engine's access to a row of a core asks the arbiter: whether it has the grant. One that has not is owed the next (R116). -/
def State.engineRow (s : State) (c r : Nat) (lost : Bool) : State × Bool :=
  if (s.core c).engineLoses r lost then (s.modCore c (fun k => k.defer (.engine r)), false)
  else (if (s.core c).deferred.contains (.engine r) then s.modCore c (fun k => k.unwait (.engine r)) else s, true)

/-- Rows of the scratchpad range read one after the other by an engine of a context, with what the ECC finds in each and which of
them lose their grants: the highest rank met, or `heldRank`. The read stops at a row whose data is lost (R126). Row `u` is row `u`
mod 64 of core `u` ÷ 64, so that a range goes on in the next core (R27). -/
def State.readUnits (s : State) (x : Nat) : List Nat → List Ecc → List Bool → State × Nat
  | [], _, _ => (s, 7)
  | u :: r, es, lost =>
    let k := s.coreRank x (u / 64)
    if k ≠ 7 then
      let t := State.readUnits s x r es.tail lost.tail
      (t.1, min k t.2)
    else
      let g := s.engineRow (u / 64) (u % 64) (lost.headD false)
      if g.2 = false then (g.1, heldRank)
      else
        let q := g.1.readRow (u / 64) (u % 64) (es.headD .clean)
        match q.2 with
        | none => (q.1, 1)
        | some _ => State.readUnits q.1 x r es.tail lost.tail

/-- The device address of a row. -/
def rowAddr (core row : Nat) : Nat := 2 ^ 44 + core % 2 ^ 20 * 4096 + row * 64

/-- The endpoint of rows. -/
def recSpec (t cnt bulk : Bool) : EndSpec := ⟨0, 1, t, cnt, 0, bulk, false, 0, 0, false⟩

/-- A raw write of masked bytes of a row that an engine brings, with what the ECC finds where it reads the row first (R115): behind a
write that waits at the core it waits too (R121), and it may lose the row's grant, which false says (R116). -/
def State.engineWrite (s : State) (w : Sender) (c row data mask : Nat) (lost : Bool) (ecc : Ecc) : State × Bool :=
  let p := s.maskPkt w (recSpec false false false) false (rowAddr c row) data mask
  if !(s.core c).inq.isEmpty then (s.inject w.ep p, true)
  else
    let g := s.engineRow c row lost
    (if g.2 then g.1.maskRow c p ecc else g.1, g.2)

/-- A byte of the scratchpad range. -/
def State.rowByte (s : State) (a : Nat) : Byte :=
  BitVec.ofNat 8 (rowNat (vget (s.core (a / 4096 % 2 ^ 20)).rows (a / 64 % 64) 0) (a % 64) 1)

/-- Bytes of rows, as an engine of a context reads them: the rank, 7 where the read succeeds, and the bytes. -/
def State.rowBytes (s : State) (x a n : Nat) (dev : DevSeen) : State × Nat × List Byte :=
  let q := s.readUnits x (unitsIn 64 (a - 2 ^ 44) n) dev.rows dev.lost
  (q.1, q.2, if q.2 = 7 then (List.range n).map (fun i => s.rowByte (a + i)) else [])

/-- Bytes at a device address, outside the tile ports, with what their reads meet: the rank and the bytes. -/
def State.devBytes (s : State) (x a n : Nat) (dev : DevSeen) : State × Nat × List Byte :=
  if a < 2 ^ 44 then
    (if s.hbmAllowed x a n then
      let q := s.hbmSeen a n dev.atoms
      match q.2 with
      | some r => (q.1, r, [])
      | none => (q.1, 7, q.1.hbmBytes a n)
     else (s, 5, []))
  else if isScratch a then s.rowBytes x a n dev
  else
    let die := (a - 2 ^ 45) / 0x800000
    let o := (a - 2 ^ 45) % 0x800000
    if a < 0x300000000000 ∧ die < s.dies ∧ s.apertureOk die o n then
      let q := s.bramSeen die (unitsIn 8 o n).length dev.rows
      if q.2 then (q.1, 7, s.bramTake (die * 0x800000 + o) n) else (q.1, 1, [])
    else (s, 5, [])

/-- What the reads of a command meet after those of a range of device memory. -/
def seenPast (dev : DevSeen) (a n : Nat) : DevSeen :=
  if a < 2 ^ 44 then { dev with atoms := dev.atoms.drop (unitsOfHbm a n).length }
  else if isScratch a then
    { dev with rows := dev.rows.drop (unitsIn 64 (a - 2 ^ 44) n).length, lost := dev.lost.drop (unitsIn 64 (a - 2 ^ 44) n).length }
  else { dev with rows := dev.rows.drop (unitsIn 8 ((a - 2 ^ 45) % 0x800000) n).length }

/-- The rank and the bytes of a read whose answer stands in the operand. -/
def fetched (d : HostData) (n : Nat) : Nat × List Byte :=
  match d.get? with
  | some b => (7, (List.range n).map (fun i => b.getD i 0))
  | none => (2, [])

/-- Bytes that a descriptor reads as it begins: what host memory or the fabric answered stands in the operand, and a range
that reaches into a withheld tile port is absent (R24). -/
def State.fetchBytes (s : State) (x : Nat) (d : EndSpec) (a n : Nat) (seen : FlagSeen) : State × Nat × List Byte :=
  if d.kind ≠ 1 then (s.badCompletion (s.portOf x) seen.data, fetched seen.data n)
  else if isTile a then
    (s, if (unitsIn 0x1000 (a - 0x300000000000) n).any (fun t => s.withheldTile (t % 512)) then (3, []) else fetched seen.data n)
  else s.devBytes x a n seen.dev

/-- Whether a read of device memory has to wait: a stack that changes its rate or is retrained, a core that is braked or
asleep (R83, R162, R181, R184). -/
def State.devWaits (s : State) (d : EndSpec) (a n : Nat) : Bool :=
  if d.kind ≠ 1 then false
  else if a < 2 ^ 44 then s.hbmWaits a n
  else isScratch a && (unitsIn 4096 (a - 2 ^ 44) n).any (fun c => !s.absent c && !s.coreTakes c)

/-! ## Host memory as a descriptor begins (R197 to R199, R202, R230) -/

/-- The first page of a range of host memory that a context may not access yet. -/
def State.unreached (s : State) (x a n : Nat) (pasid : Option Nat) (write : Bool) : Option Nat :=
  (unitsIn 4096 a n).find? (fun page => !s.translated x page pasid write)

/-- A copy of a context changed. -/
def State.modCopy (s : State) (x i : Nat) (f : Copy → Copy) : State :=
  s.modCtx x (fun t => { t with copies := mapIf (fun c => c.id == i) f t.copies })

/-- A descriptor that cannot read yet: it is tried again. -/
def State.notBegun (s : State) (x i : Nat) : State := s.modCopy x i (fun c => { c with begun := false })

/-- Something a descriptor does with host memory as it begins, once that is within reach and translated; `again` is what it
does until then. -/
def State.withHost (s : State) (x i a n : Nat) (pasid : Option Nat) (write : Bool) (again act : State → State) : State :=
  if (s.port (s.portOf x)).lost then again s
  else match s.unreached x a n pasid write with
    | some page => (again (s.modCopy x i (fun c => { c with wants := some (page, write, pasid) }))).askTr x page pasid write
    | none => act ((s.modCopy x i (fun c => { c with wants := none, tries := 0 })).useTr x (a / 4096) pasid)

/-- Something a descriptor does with bytes that it reads as it begins: host memory as above, other memory once it need not
wait. -/
def State.withRead (s : State) (x i : Nat) (d : EndSpec) (n : Nat) (again act : State → State) : State :=
  if d.kind = 0 then s.withHost x i d.addr n d.pasid? false again act
  else if s.devWaits d d.addr n then again s
  else act s

/-- A descriptor goes on with the rank and the bytes of what it reads as it begins, or does `again` until that can be read. -/
def State.withBytes (s : State) (x i : Nat) (d : EndSpec) (n : Nat) (seen : FlagSeen) (again : State → State)
    (act : State → Nat → List Byte → State) : State :=
  s.withRead x i d n again (fun s =>
    let r := s.fetchBytes x d d.addr n seen
    if r.2.1 = heldRank then again r.1 else act r.1 r.2.1 r.2.2)

/-- The state in which a descriptor's flag waits on a tag no more: it has completed, or begins anew (R119). -/
def State.unflag (s : State) (p : Nat → Nat → Bool) : State :=
  let keep (w : Waiter) : Bool := match w with
    | .flag x i _ => !p x i
    | _ => true
  { s with cores := s.cores.map (fun e => (e.1, { e.2 with waits := e.2.waits.filter keep })) }

end Sys2Proof.Machine
end

