-- ==== Sys2Proof/Machine/Reduce.lean ====
section
/-! DEFINITION. The arithmetic of a REDUCE (R208, R209). -/

namespace Sys2Proof.Machine

/-- Bytes of an element of a format code (R71, R209). -/
def elemBytes (f : Nat) : Nat := ofmtBytes f / 4

/-- A link's element as an accumulator entry: widened exactly (R44, R208). -/
def linkElem (f : Nat) (x : Nat) : AccE × NFlags :=
  match drainFmt f with
  | none => (match saveWord x with
    | none => (.cleared, 0)
    | some (m, v) => (⟨v, m, false⟩, 0))
  | some .int32 => (⟨BitVec.ofNat 40 (ofTwos 40 (twos 32 x)), true, false⟩, 0)
  | some g =>
    let n := decodeNum g x
    let r := accRound n.1
    (⟨r.1, false, false⟩, n.2 ||| r.2)

/-- An element combined into the running value: a cleared word contributes nothing. -/
def AccE.chain (r : AccE) (how : Nat) (e : AccE) : AccE × NFlags := if e.clr then (r, 0) else r.combine e.mode how e.val

/-- The running value of one element over all links, in table order, with the flags of each step. -/
def chainElem (lf how : Nat) : List Nat → AccE × List NFlags
  | [] => (.cleared, [])
  | x :: l =>
    let a := linkElem lf x
    l.foldl (fun acc y =>
      let e := linkElem lf y
      let r := acc.1.chain how e.1
      (r.1, acc.2 ++ [e.2 ||| r.2])) (a.1, [a.2])

/-- The result of an element: its code, and the flags of its narrowing (R55, R208). -/
def AccE.result (r : AccE) (rf : Nat) (ovf : Bool) : Nat × NFlags :=
  match drainFmt rf with
  | none => (r.word, 0)
  | some f => r.drain f 0x3F800000 .rne ovf

/-- One element of a REDUCE: its bytes, and the flags of its steps. -/
def reduceElem (lf rf how : Nat) (ovf : Bool) (l : List Nat) : List Byte × List NFlags :=
  let r := chainElem lf how l
  let o := r.1.result rf ovf
  (natBytes o.1 (elemBytes rf), r.2 ++ [o.2])

/-- All elements of a REDUCE from its links' blocks. -/
def reduceAll (lf rf how len : Nat) (ovf : Bool) (links : List (List Byte)) : List Byte × List NFlags :=
  (List.range (len / elemBytes lf)).foldl (fun acc e =>
    let r := reduceElem lf rf how ovf (links.map (fun b => bF b (e * elemBytes lf) (elemBytes lf)))
    (acc.1 ++ r.1, acc.2 ++ r.2)) ([], [])

/-- Events counted in XFR_RED_STAT of a die (R209). -/
def State.redStat (s : State) (die : Nat) (l : List NFlags) : State :=
  let n (f : NFlags) : Nat := (l.filter (fun g => g &&& f != 0)).length
  (((s.bumpN .XFR_RED_STAT_NV die (n fNV)).bumpN .XFR_RED_STAT_OF die (n fOF)).bumpN .XFR_RED_STAT_UF die (n fUF)).bumpN
    .XFR_RED_STAT_FMT die (n fFMT)

end Sys2Proof.Machine
end

