-- ==== Sys2Proof/Machine/Xfer.lean ====
section
/-! DEFINITION. Transfers: their checks, their pieces, how pieces settle, page faults, deadlines, completion (R187 to R202,
R211 to R215, R242, R253). -/

namespace Sys2Proof.Machine

/-! ## Egress ports (R189) -/

/-- The egress port for a package: the lowest port whose far end is it. -/
def State.egress (s : State) (pkg : Nat) : Option (Nat × Nat) :=
  ((List.range (4 * s.dies)).find? (fun i => s.regB .SAL_PORT_PEER_PVALID i && s.regB .SAL_PORT_PEER_VALID i &&
    s.reg .SAL_PORT_PEER_PKG i == pkg)).map (fun i => (i / 4, i % 4))

/-- The egress port of an endpoint that is remote. -/
def State.egressOf (s : State) (d : EndSpec) : Option (Nat × Nat) := if d.kind = 2 then s.egress d.pkg else none

/-! ## The checks of a transfer (R28, R188 to R192, R237) -/

/-- The populated range that holds a device address, from and up to. The rows of absent cores are inside it (R28). A tile port of
a die that is not present lies in no populated range, so that WINDOW_DENIED comes before CORE_ABSENT there (DESIGN CHOICE,
log 20). -/
def State.devRange (s : State) (a : Nat) : Option (Nat × Nat) :=
  if a < s.hbmTop then some (0, s.hbmTop)
  else if isScratch a ∧ a < 2 ^ 44 + 2 ^ 32 then some (2 ^ 44, 2 ^ 44 + 2 ^ 32)
  else if 2 ^ 45 ≤ a ∧ a < 2 ^ 45 + s.dies * 0x800000 ∧ (a - 2 ^ 45) % 0x800000 < 0x600000 then
    some (2 ^ 45 + (a - 2 ^ 45) / 0x800000 * 0x800000, 2 ^ 45 + (a - 2 ^ 45) / 0x800000 * 0x800000 + 0x600000)
  else if isTile a ∧ a < 0x300000000000 + s.dies * 0x200000 then some (0x300000000000, 0x300000000000 + s.dies * 0x200000)
  else none

/-- The ranges in which a REMOTE address is well formed (R189). -/
def farRange (d : EndSpec) (a : Nat) : Option (Nat × Nat) :=
  let top := 16 * (if d.mv then 36 * 2 ^ 30 else 48 * 2 ^ 30)
  if a < top then some (0, top) else if isScratch a ∧ a < 2 ^ 44 + 2 ^ 32 then some (2 ^ 44, 2 ^ 44 + 2 ^ 32) else none

/-- A specifier that is malformed, or of kind 3 (R188). -/
def EndSpec.malformed (d : EndSpec) : Bool := decide (d.kind = 3) || (decide (d.kind ≠ 0) && decide (2 ^ 48 ≤ d.addr))

/-- The lowest and the highest byte address of an endpoint; a count of 0 stands as 1 (R191, R192). -/
def spanOf (addr len0 : Nat) (cnt : List Nat) (st : List Int) : Int × Int :=
  let reach := (cnt.zip st).map (fun e => ((max e.1 1 : Nat) - 1 : Int) * e.2)
  ((addr : Int) + (reach.map (fun d => min 0 d)).sum, (addr : Int) + (reach.map (fun d => max 0 d)).sum + (len0 : Int) - 1)

/-- Whether a span leaves the 64-bit space. -/
def spanWraps (p : Int × Int) : Bool := decide (p.1 < 0) || decide ((2 : Int) ^ 64 ≤ p.2)

/-- Whether an endpoint admits its span (R28, R189, R192, R237). -/
def State.endOk (s : State) (x : Nat) (d : EndSpec) (p : Int × Int) : Bool :=
  let lo := p.1.toNat
  let hi := p.2.toNat
  let inside (r : Option (Nat × Nat)) : Bool := match r with
    | some q => decide (hi < q.2)
    | none => false
  if d.kind = 0 then true
  else if d.kind = 1 then inside (s.devRange lo) && (decide (2 ^ 44 ≤ lo) || s.hbmAllowed x lo (hi + 1 - lo))
  else inside (farRange d lo) && (s.egress d.pkg).isSome

/-- Whether two endpoints lie in one address space (R192). -/
def sameSpace (a b : EndSpec) : Bool :=
  decide (a.kind = b.kind) &&
    (if a.kind = 0 then decide (a.pasid? = b.pasid?) else if a.kind = 2 then decide (a.pkg = b.pkg) else true)

/-- Whether a transfer passes R192. -/
def State.xferOk (s : State) (x : Nat) (a b : EndSpec) (sh : Shape) : Bool :=
  let p := spanOf a.addr sh.len0 sh.cnt sh.ss
  let q := spanOf b.addr sh.len0 sh.cnt sh.ds
  !a.malformed && !b.malformed && decide (sh.len0 % 16 = 0) && decide (16 ≤ sh.len0) && decide (sh.len0 ≤ 0x1000000) &&
    (sh.ss ++ sh.ds).all (fun d => decide (d % 16 = 0)) && !spanWraps p && !spanWraps q && s.endOk x a p && s.endOk x b q &&
    !(sameSpace a b && decide (p.1 ≤ q.2) && decide (q.1 ≤ p.2))

/-- A destination that a member may not have (R260). -/
def noMemberDst (d : EndSpec) : Bool := decide (d.kind = 2) || (decide (d.kind = 1) && decide (2 ^ 45 ≤ d.addr))

/-! ## Engines (R187, R242) -/

/-- Whether a WAIT is in service. -/
def Copy.waiting (c : Copy) : Bool := c.begun && !c.done && dOp c.bytes == 0x03

/-- Descriptors and arms in service on an engine: transfers, LAUNCHes, WAITs. -/
def State.inService (s : State) (e : Nat × Nat) : Nat :=
  (s.xfers.filter (fun t => t.half == e.1 && t.eng == e.2)).length +
    ((s.ctxs.flatMap (fun c => c.2.passes)).filter (fun p => p.half == e.1 && p.eng == e.2)).length +
    ((s.ctxs.flatMap (fun c => c.2.copies)).filter (fun c => c.waiting && c.eng == some e)).length

/-- The least loaded of some engines, the first on a tie. -/
def State.leastOf (s : State) (l : List (Nat × Nat)) (best : Nat × Nat) : Nat × Nat :=
  l.foldl (fun b e => if s.inService e < s.inService b then e else b) best

/-- The engines of a half-die. -/
def hubEngines (h : Nat) : List (Nat × Nat) := (List.range 4).map (fun e => (h, e))

/-- The half-die of a device address. -/
def State.halfOf (s : State) (a : Nat) : Nat :=
  match (placeOf s.stackE a).1 with
  | .core c => c.toNat / 65536
  | .hub h _ => h
  | .tile d t => 2 * d + t / 256

/-- The engine for a descriptor with a host endpoint or none, a remote destination, a first destination byte (R242). -/
def State.pickEngine (s : State) (x : Nat) (host : Bool) (dst : EndSpec) : Nat × Nat :=
  if host then
    let h := 2 * s.portOf x
    s.leastOf (hubEngines h ++ hubEngines (h + 1)) (h, 0)
  else
    let h := match dst.kind, s.egress dst.pkg with
      | 2, some (die, p) => 2 * die + p / 2
      | _, _ => s.halfOf dst.addr
    s.leastOf (hubEngines h) (h, 0)

/-! ## Transfers in service -/

/-- A transfer by its number. -/
def State.xfer? (s : State) (t : Nat) : Option Xfer := s.xfers.find? (fun u => u.id == t)

/-- The state with a transfer changed. -/
def State.modXfer (s : State) (t : Nat) (f : Xfer → Xfer) : State :=
  { s with xfers := mapIf (fun u => u.id == t) f s.xfers }

/-- A transfer put into service; it has the number that `nextId` showed. Its own TAG is that number modulo 2^14, which a transfer
held for long may share with a new one: the spec does not say how the TAG is chosen (DESIGN CHOICE, log 20). -/
def State.startXfer (s : State) (x : Nat) (role : Role) (e : Nat × Nat) (src dst : EndSpec) (plan : Plan) (ix : List Nat)
    (t0 deadline : Nat) (late : Bool) (grp : Option Nat) : State :=
  { s with
    nextId := s.nextId + 1
    xfers := s.xfers ++ [{
      id := s.nextId, ctx := x, role := role, half := e.1, eng := e.2, src := src, dst := dst, plan := plan, ix := ix, i0 := 0,
      pieces := [], nextN := 0, writes := [], hostOut := [], srcLeft := [], dstLeft := [], rank := 7, failed := false,
      hold := .none, tries := 0, t0 := t0, deadline := deadline, late := late, tag := s.nextId % 2 ^ 14, egrS := s.egressOf src,
      egr := s.egressOf dst, grp := grp, woke := false }] }

/-- A transfer that a failure of a rank has met (R195). -/
def Xfer.fail (t : Xfer) (rank : Nat) : Xfer := { t with failed := true, rank := min t.rank rank }

/-- Who writes for a transfer. -/
def Xfer.sender (t : Xfer) : Sender := ⟨t.ctx, t.half, t.eng, t.tag, t.egr⟩

/-- Who reads for a transfer. -/
def Xfer.reader (t : Xfer) : Sender := ⟨t.ctx, t.half, t.eng, t.tag, t.egrS⟩

/-- Whether a transfer has no piece that has not settled. -/
def Xfer.settled (t : Xfer) : Bool := t.pieces.isEmpty && t.writes.isEmpty && t.hostOut.isEmpty

/-! ## The next piece (R191, R193, R212) -/

/-- A piece to come: source, destination, length. -/
structure Cut where
  src : Nat
  dst : Nat
  len : Nat
  deriving DecidableEq, Repr

/-- An address with its strides, modulo 2^64. -/
def strided (a : Nat) (ix : List Nat) (st : List Int) : Nat :=
  (((a : Int) + ((ix.zip st).map (fun e => (e.1 : Int) * e.2)).sum) % ((2 : Int) ^ 64)).toNat

/-- The indices of the next element, none after the last. -/
def nextIx : List Nat → List Nat → Option (List Nat)
  | c :: cs, i :: is => if i + 1 < c then some ((i + 1) :: is) else (nextIx cs is).map (0 :: ·)
  | _, _ => none

/-- Bytes up to the next 4 KiB boundary. -/
def toPage (a : Nat) : Nat := 4096 - a % 4096

/-- The next piece of a transfer, none when all have been issued or the present record has (R212). -/
def Xfer.cut (t : Xfer) : Option Cut :=
  match t.plan with
  | .shape sh =>
    if t.ix.isEmpty then none
    else
      let a := strided t.src.addr t.ix sh.ss + t.i0
      let b := strided t.dst.addr t.ix sh.ds + t.i0
      some ⟨a, b, min (min 256 (sh.len0 - t.i0)) (min (toPage a) (toPage b))⟩
  | .reshard [] => none
  | .reshard (r :: _) =>
    let j := t.ix.headD 0
    if r.ncore ≤ j then none
    else some ⟨rowAddr (r.sbase + j * r.sstep) r.srow + t.i0, rowAddr (r.dbase + j * r.dstep) r.drow + t.i0,
      min 256 (r.nrow * 64 - t.i0)⟩
  | .reduce _ [] _ => none
  | .reduce op (d :: _) _ =>
    if op.len ≤ t.i0 then none else some ⟨d.1.addr + t.i0, 0, min (min 256 (op.len - t.i0)) (toPage (d.1.addr + t.i0))⟩
  | .result l =>
    if l.length ≤ t.i0 then none
    else some ⟨0, t.dst.addr + t.i0, min (min 256 (l.length - t.i0)) (toPage (t.dst.addr + t.i0))⟩

/-- The transfer with its next piece of `n` bytes behind it. -/
def Xfer.past (t : Xfer) (n : Nat) : Xfer :=
  match t.plan with
  | .shape sh =>
    if t.i0 + n < sh.len0 then { t with i0 := t.i0 + n } else { t with i0 := 0, ix := (nextIx sh.cnt t.ix).getD [] }
  | .reshard (r :: _) =>
    if t.i0 + n < r.nrow * 64 then { t with i0 := t.i0 + n } else { t with i0 := 0, ix := [t.ix.headD 0 + 1] }
  | .reduce op (_ :: l) got =>
    if t.i0 + n < op.len then { t with i0 := t.i0 + n }
    else match l with
      | [] => { t with i0 := 0, plan := .reduce op [] got }
      | d :: _ => { t with i0 := 0, plan := .reduce op l got, src := d.1, egrS := d.2 }
  | _ => { t with i0 := t.i0 + n }

/-- Whether nothing is left to issue. -/
def Xfer.allIssued (t : Xfer) : Bool :=
  match t.plan with
  | .reshard (_ :: _ :: _) => false
  | .reduce _ _ _ => false
  | _ => t.cut.isNone

/-- Bytes of a run: of a shape's elements, a record's rows, a link's block, a result. -/
def Xfer.runLen (t : Xfer) : Nat :=
  match t.plan with
  | .shape sh => sh.len0
  | .reshard l => ((l.head?.map (fun r => r.nrow)).getD 0) * 64
  | .reduce op _ _ => op.len
  | .result l => l.length

/-! ## Records of a RESHARD (R212) -/

/-- The cores of a record's source or destination. -/
def recCores (base step n : Nat) : List Nat := (List.range n).map (fun j => (base + j * step) % 2 ^ 20)

/-- A record that moves no row it also fills, and fits its cores (R211, R212). -/
def ReRec.ok (r : ReRec) : Bool :=
  decide (1 ≤ r.nrow) && decide (r.srow + r.nrow ≤ 64) && decide (r.drow + r.nrow ≤ 64) && decide (1 ≤ r.ncore) &&
    decide (r.ncore ≤ 2 ^ 20) &&
    !((decide (r.srow < r.drow + r.nrow) && decide (r.drow < r.srow + r.nrow)) &&
      (recCores r.sbase r.sstep r.ncore).any (fun c => (recCores r.dbase r.dstep r.ncore).contains c))

/-- The first record of a map set up, or refused. -/
def Xfer.record (t : Xfer) : List ReRec → Xfer
  | [] => { t with plan := .reshard [], ix := [] }
  | r :: l =>
    let t := { t with plan := .reshard (r :: l), ix := [0], i0 := 0
                      src := recSpec (natBits r.flags 0 1 == 1) false (natBits r.flags 3 1 == 1)
                      dst := recSpec (natBits r.flags 1 1 == 1) (natBits r.flags 2 1 == 1) (natBits r.flags 3 1 == 1) }
    if r.ok then t else t.fail 5

/-- The next record, once every piece of the present one has settled. -/
def Xfer.nextRecord (t : Xfer) : Xfer :=
  match t.plan with
  | .reshard (_ :: r :: l) => if t.cut.isNone ∧ t.settled ∧ ¬t.failed then t.record (r :: l) else t
  | _ => t

/-! ## Writing a piece (R193, R194, R262) -/

/-- Where a piece stands in its transfer: its number, its destination, the indices and the byte of its run. -/
structure Mark where
  n : Nat
  dst : Nat
  ix : List Nat
  i0 : Nat
  deriving DecidableEq, Repr

/-- The number a member goes by in its group: its copy's. -/
def Role.copyNo : Role → Nat
  | .desc i => i
  | .arm id _ _ _ => id
  | .sig g => g

/-- Whether the bytes that end at a byte of a run and an address are the last that a tile port gets of them: the run or the
port's window ends there (R189, R193). -/
def Xfer.endsAt (t : Xfer) (off a : Nat) : Bool := decide (t.runLen ≤ off) || decide (a % 4096 = 0)

/-- Bytes written to a tile port: its units are filled one after the other, and the last one of the run is padded (R193,
R209). -/
def State.writeTile (s : State) (t : Xfer) (m : Mark) (b : List Byte) : State :=
  let all := t.dstLeft ++ b
  let k := if t.endsAt (m.i0 + b.length) (m.dst + b.length) then all.length else all.length / 16 * 16
  let l := s.tilePkts t.sender t.dst true m.dst (all.take k)
  (s.modXfer t.id (fun t => { t with dstLeft := all.drop k, writes := if l.isEmpty then t.writes else t.writes ++ [l.length] })).sendAll
    t.sender l

/-- Whether the staging of a piece has to wait for the stack that holds its page (R181, R184, R262). -/
def State.stageWaits (s : State) (t : Xfer) (a : Nat) : Bool :=
  t.grp.isSome && decide (t.dst.kind = 1) && decide (a < 2 ^ 44) && s.hbmWaits (a / 4096 * 4096) 4096

/-- The bytes of a piece staged, written to the host, or sent as packets; a staging that overflows aborts the group at once (R264,
R269). -/
def State.writePiece (s : State) (t : Xfer) (m : Mark) (b : List Byte) : State :=
  match t.grp with
  | some g =>
    let r := s.stage t.ctx g t.role.copyNo t.dst m.dst b
    if r.2 = 7 then r.1
    else if r.2 = 0 then (r.1.modXfer t.id (·.fail 0)).abortGrp t.ctx g true
    else r.1.modXfer t.id (·.fail r.2)
  | none =>
    if t.dst.kind = 0 then
      (s.modXfer t.id (fun t => { t with hostOut := t.hostOut ++ [⟨m.n, m.dst, b, t.dst.pasid?, m.ix, m.i0,
        !(s.port (s.portOf t.ctx)).lost⟩] })).hostPut t.ctx m.dst b t.dst.pasid?
    else if isTile m.dst then s.writeTile t m b
    else
      let l := s.writePkts t.sender t.dst true m.dst b
      (s.modXfer t.id (fun t => { t with writes := t.writes ++ [l.length] })).sendAll t.sender l

/-- Whether a read of a piece has failed: it has been answered with no data. -/
def Piece.lost (p : Piece) : Bool := p.parts.any (fun q => decide (q.got = some []))

/-- The bytes a piece's reads have brought, once all have. -/
def Piece.data (p : Piece) : Option (List Byte) :=
  if p.parts.all (fun q => q.got.isSome) then some ((p.parts.flatMap (fun q => q.got.getD [])).drop p.skip) else none

/-- Whether a piece reads a tile port. -/
def Piece.ofTile (p : Piece) : Bool := isTile p.src && p.parts.all (fun q => q.who.isSome)

/-- The transfer after its first piece has been taken, with the bytes of a tile port's unit that are left for the next. -/
def Xfer.took (t : Xfer) (p : Piece) (all : List Byte) : Xfer :=
  { t with pieces := t.pieces.drop 1
           srcLeft := if p.ofTile && !t.endsAt (p.i0 + p.len) (p.src + p.len) then all.drop p.len else [] }

/-- The bytes of a piece put where they go: those of a REDUCE's link are kept. -/
def State.putPiece (s : State) (t : Xfer) (p : Piece) (b : List Byte) : State :=
  match t.plan with
  | .reduce op l got => s.modXfer t.id (fun u => { u with plan := .reduce op l (got ++ b) })
  | _ => s.writePiece t ⟨p.n, p.dst, p.ix, p.i0⟩ b

/-- Whether a lost link has cut off a read of a piece (R230). -/
def Piece.cut (p : Piece) : Bool := p.parts.any (fun q => q.who.isNone && q.got.isNone && q.tag == 1)

/-- Pieces whose reads have all come are written, from the first on; one whose read has failed is not, and a transfer that has failed
drops those whose reads a lost link has cut off, which it does not issue again (R193, R195). -/
def State.drain (s : State) (t : Nat) : Nat → State
  | 0 => s
  | n + 1 =>
    match s.xfer? t with
    | none => s
    | some u => match u.pieces with
      | [] => s
      | p :: _ =>
        if u.failed && p.cut then State.drain (s.modXfer t (fun u => { u with pieces := u.pieces.drop 1 })) t n
        else match p.data with
        | none => s
        | some d =>
          if s.stageWaits u p.dst then s else
          let all := if p.ofTile then u.srcLeft ++ d else d
          let s := s.modXfer t (·.took p all)
          State.drain (if p.lost || decide (all.length < p.len) then s else s.putPiece u p (all.take p.len)) t n

/-- A REDUCE whose links have all come: it is computed, and its result is to be written (R208, R209). -/
def State.reduced (s : State) (t : Nat) : State :=
  match s.xfer? t with
  | none => s
  | some u => match u.plan with
    | .reduce op [] got =>
      if u.failed || !u.pieces.isEmpty then s
      else
        let r := reduceAll op.lf op.rf op.how op.len op.ovf (chunks op.len (got.length + 1) got)
        (s.modXfer t (fun u => { u with plan := .result r.1, src := { u.dst with kind := 1 }, egrS := none, ix := [], i0 := 0 })).redStat
          (u.half / 2) r.2
    | _ => s

/-! ## Page requests (R197 to R199) -/

/-- The port of a transfer's context. -/
def State.xport (s : State) (t : Xfer) : Nat := s.portOf t.ctx

/-- Whether a context's work is held by a pause. -/
def State.pausedCtx (s : State) (x : Nat) : Bool :=
  decide (s.cst x = 3) || decide ((s.ctx x).busy = .pausing) || decide ((s.ctx x).busy = .resuming)

/-- A page request of a context sent, if a slot is free and ATS is on; `key` names who waits for it (R198, R202). -/
def State.askPage (s : State) (x key page : Nat) (pasid : Option Nat) (write : Bool) : State :=
  let p := s.portOf x
  if 512 ≤ (s.port p).pri.length ∨ (s.port p).lost ∨ (s.port p).ats = false then s
  else
    ((s.modPort p (fun q => { q with pri := q.pri ++ [⟨key, page, s.fnOf x, pasid, write, s.timer⟩] })).bump .XFR_FAULT_STAT_PAGE_REQS p).send
      (.pageRequest p (s.fnOf x) page pasid write)

/-- Whether a key has a page request outstanding on a port. -/
def State.asked (s : State) (p key : Nat) : Bool := (s.port p).pri.any (fun e => e.t == key)

/-- The PASID of the side of a transfer that faulted. -/
def Xfer.sidePasid (t : Xfer) (write : Bool) : Option Nat := if write then t.dst.pasid? else t.src.pasid?

/-- Whether a host read is outstanding. -/
def RdPart.due (q : RdPart) : Bool := q.who.isNone && q.got.isNone && q.tag == 0

/-- Whether a lost link has cut a host read off (R230). -/
def RdPart.cutOff (q : RdPart) : Bool := q.who.isNone && q.got.isNone && q.tag == 1

/-- Whether a piece's host read is outstanding. -/
def hostDue (p : Piece) : Bool := p.parts.any (·.due)

/-- Whether no host access and no read of a transfer is under way: what a lost link has cut off is not, nor are the pieces that have
been read behind that (R230). -/
def Xfer.quiet (t : Xfer) : Bool :=
  (t.pieces.isEmpty || (t.pieces.any (fun p => p.parts.any (·.cutOff)) &&
    t.pieces.all (fun p => p.parts.all (fun q => q.got.isSome || q.cutOff)))) && t.hostOut.all (fun w => !w.sent)

/-- Whether nothing of a transfer is under way. -/
def Xfer.atRest (t : Xfer) : Bool := t.quiet && t.writes.isEmpty

/-- The first host write of a transfer that a lost link has cut off (R230). -/
def Xfer.again (t : Xfer) : Option HostW := t.hostOut.find? (fun w => !w.sent)

/-- The first piece of a transfer whose host read a lost link has cut off, with the read (R230). -/
def Xfer.againRead (t : Xfer) : Option (Piece × RdPart) :=
  t.pieces.findSome? (fun p => (p.parts.find? (·.cutOff)).map (fun q => (p, q)))

/-- The PASID of the page at which a transfer stands: of a host write that is to go again, or of the side that faulted. -/
def Xfer.pagePasid (t : Xfer) (write : Bool) : Option Nat :=
  match t.again, t.againRead with
  | some w, _ => w.pasid
  | none, some (_, q) => q.ps
  | none, none => t.sidePasid write

/-- The request of a transfer that waits at a page fault, once everything before it has settled (R198). -/
def State.priXfer (s : State) (t : Nat) : State :=
  match s.xfer? t with
  | none => s
  | some u => match u.hold with
    | .page page w false =>
      if !u.atRest || s.pausedCtx u.ctx then s
      else
        let s' := s.askPage u.ctx t page (u.pagePasid w) w
        if s'.asked (s.xport u) t then s'.modXfer t (fun u => { u with hold := .page page w true }) else s
    | _ => s

/-- Requests that waited for a slot or a settlement. -/
def State.priAll (s : State) : State := s.xfers.foldl (fun s t => s.priXfer t.id) s

/-- A failure of a transfer that waits for nothing any more; what a lost link has cut off is not issued again. -/
def State.failXfer (s : State) (t rank : Nat) : State :=
  let n := match s.xfer? t with
    | some u => u.pieces.length
    | none => 0
  (s.modXfer t (fun u => { u.fail rank with hold := .none, hostOut := u.hostOut.filter (·.sent) })).drain t n

/-- The limit of consecutive successful responses (R199). -/
def State.priRetries (s : State) (p : Nat) : Nat := max 1 (s.reg .XFR_PRI_CTL_RETRIES p)

/-- A page fault of a transfer at its next piece (R198, R199). -/
def State.pageFault (s : State) (t : Xfer) (page : Nat) (write : Bool) : State :=
  if s.priRetries (s.xport t) ≤ t.tries then s.failXfer t.id 2
  else (s.modXfer t.id (fun u => { u with hold := .page page write false })).priXfer t.id

/-! ## PIECE_ISSUE (R187, R193, R197, R215) -/

/-- Pieces outstanding on an engine. -/
def State.outstanding (s : State) (half eng : Nat) : Nat :=
  ((s.xfers.filter (fun t => t.half == half && t.eng == eng)).map (fun t => t.pieces.length + t.writes.length + t.hostOut.length)).sum

/-- Whether a transfer could issue a piece now. -/
def State.mayIssue (s : State) (t : Xfer) : Bool :=
  decide (t.hold = .none) && !s.pausedCtx t.ctx && (t.again.isSome || (!t.failed && (t.againRead.isSome || t.nextRecord.cut.isSome)))

/-- The nanoseconds up to a transfer's deadline, on a timer that wraps. -/
def State.dueIn (s : State) (t : Xfer) : Int := (t.deadline : Int) - (((s.timer + 2 ^ 48 - t.t0) % 2 ^ 48 : Nat) : Int)

/-- Whether a real-time transfer comes before another (R215). -/
def State.before (s : State) (u t : Xfer) : Bool :=
  decide (u.deadline ≠ 0) && (decide (t.deadline = 0) || decide (s.dueIn u < s.dueIn t) ||
    (decide (s.dueIn u = s.dueIn t) && decide (u.role.copyNo < t.role.copyNo)))

/-- Whether a transfer's next bytes come from a source, and whether they go to its destination. -/
def Xfer.sides (t : Xfer) : Bool × Bool :=
  match t.plan with
  | .shape _ => (true, true)
  | .reshard _ => (true, true)
  | .reduce _ _ _ => (true, false)
  | .result _ => (false, true)

/-- The host page that keeps a piece from being issued: the page and whether it is written (R197). -/
def State.missingPage (s : State) (t : Xfer) (c : Cut) : Option (Nat × Bool) :=
  if t.sides.1 && t.src.kind = 0 && !s.translated t.ctx (c.src / 4096) t.src.pasid? false then some (c.src / 4096, false)
  else if t.sides.2 && t.dst.kind = 0 && !s.translated t.ctx (c.dst / 4096) t.dst.pasid? true then some (c.dst / 4096, true)
  else none

/-- A page, while a context's translation of it is missing. -/
def State.pageLacks (s : State) (x a : Nat) (ps : Option Nat) (write : Bool) : Option (Nat × Bool) :=
  if s.translated x (a / 4096) ps write then none else some (a / 4096, write)

/-- The page at which a transfer stands, if a translation of it is still missing. -/
def State.standsPage (s : State) (t : Xfer) : Option (Nat × Bool) :=
  if s.mayIssue t then
    match t.again, t.againRead, t.nextRecord.cut with
    | some w, _, _ => s.pageLacks t.ctx w.addr w.pasid true
    | none, some (p, q), _ => s.pageLacks t.ctx p.src q.ps false
    | none, none, some c => s.missingPage t.nextRecord c
    | none, none, none => none
  else none

/-- Non-posted requests that a port may have outstanding, by the tag width that the host has enabled (R216). -/
def State.tagLimit (s : State) (p : Nat) : Nat :=
  match Tbl.getD (s.port p).conf .tagWidth 0 with
  | 0 => 256
  | 1 => 768
  | _ => 2048

/-- Read requests that a port sends for some bytes. -/
def State.readsFor (s : State) (p n : Nat) : Nat := (n + s.maxRead p - 1) / s.maxRead p

/-- Read requests to host memory that a port has outstanding. -/
def State.hostReads (s : State) (p : Nat) : Nat :=
  ((s.xfers.filter (fun t => s.xport t == p)).map (fun t => ((t.pieces.filter hostDue).map (fun c => s.readsFor p c.len)).sum)).sum

/-- Whether a transfer's host side can be reached: its link is up, and tags are free for the reads of a piece
(R216, R230). -/
def State.linkOk (s : State) (t : Xfer) : Bool :=
  let reads := t.againRead.isSome || (t.src.kind == 0 && t.sides.1)
  (!reads && t.again.isNone && t.dst.kind != 0) || (!(s.port (s.xport t)).lost &&
    (!reads || decide (s.hostReads (s.xport t) + s.readsFor (s.xport t) 256 ≤ s.tagLimit (s.xport t))))

/-- Whether the order of R215 lets a transfer issue. -/
def State.turnOf (s : State) (t : Xfer) : Bool :=
  !s.regB .XFR_MODE_RT_EN 0 ||
    !s.xfers.any (fun u => decide (u.half = t.half) && decide (u.eng = t.eng) && decide (u.id ≠ t.id) && s.mayIssue u && (s.standsPage u).isNone &&
      s.linkOk u && s.before u t)

/-- The reads of `n` units at a device address: at most 16 units each, each with a tag of its own. -/
def partsOf (who : Ep) (tag n : Nat) : List RdPart :=
  if n ≤ 16 then [⟨some who, tag, none, n, none⟩] else [⟨some who, tag, none, 16, none⟩, ⟨some who, tag + 1, none, n - 16, none⟩]

/-- The read packets of a piece. -/
def State.readPkts (s : State) (w : Sender) (d : EndSpec) (a tag n : Nat) : List Packet :=
  if n ≤ 16 then [s.readPkt { w with tag := tag } d a n]
  else [s.readPkt { w with tag := tag } d a 16, s.readPkt { w with tag := tag + 1 } d (a + 256) (n - 16)]

/-- Bytes of a piece that the unit read last from a tile port already holds: the place in the run, or in the window, tells how
many (R189, R193). -/
def tileHeld (a i0 : Nat) : Nat := (16 - min i0 (a % 4096) % 16) % 16

/-- The reads of a piece in device memory: how many bytes come before its first, and how many units are read. -/
def readSpan (a i0 len : Nat) : Nat × Nat :=
  if isTile a then (0, (len - min len (tileHeld a i0) + 15) / 16) else (a % 16, (a % 16 + len + 15) / 16)

/-- A piece issued: its source read begins, or the result bytes it carries are written. -/
def State.issuePiece (s : State) (t : Xfer) (c : Cut) : State :=
  let put (s : State) (p : Piece) : State :=
    s.modXfer t.id (fun u => { u.past c.len with nextN := u.nextN + 1, tries := 0, pieces := u.pieces ++ [p] })
  match t.plan with
  | .result l =>
    (s.modXfer t.id (fun u => { u.past c.len with nextN := u.nextN + 1, tries := 0 })).writePiece t ⟨t.nextN, c.dst, t.ix, t.i0⟩
      ((l.drop t.i0).take c.len)
  | _ =>
    if t.src.kind = 0 then
      (put s ⟨t.nextN, c.src, c.dst, c.len, 0, [⟨none, 0, t.src.pasid?, (c.len + 15) / 16, none⟩], t.ix, t.i0⟩).hostGet t.ctx t.id t.nextN c.src c.len
        t.src.pasid?
    else
      let r := readSpan c.src t.i0 c.len
      let who := (placeOf (s.specE t.src) c.src).1
      if r.2 = 0 then put s ⟨t.nextN, c.src, c.dst, c.len, 0, [], t.ix, t.i0⟩
      else (put { s with nextId := s.nextId + 2 } ⟨t.nextN, c.src, c.dst, c.len, r.1, partsOf who s.nextId r.2, t.ix, t.i0⟩).sendAll
        t.reader (s.readPkts t.reader t.src (c.src - r.1) s.nextId r.2)

/-! ## Host pieces of a flipped group (R267, R270) -/

/-- A group by its number, with its context. -/
def State.grpNo (s : State) (g : Nat) : Option (Nat × Grp) :=
  s.ctxs.findSome? (fun e => (e.2.grp? g).map (fun q => (e.1, q)))

/-- The host piece that a group posts next: one that a lost link has cut off, or the first still to be posted. -/
def Grp.nextHost (q : Grp) : Option (Nat × List Byte × Option Nat) :=
  match q.hostOut.find? (fun w => !w.sent), q.host with
  | some w, _ => some (w.addr, w.bytes, w.pasid)
  | none, (_, a, b, ps) :: _ => some (a, b, ps)
  | none, [] => none

/-- The page at which a group's next host piece waits for a translation. -/
def State.grpPage (s : State) (x : Nat) (q : Grp) : Option (Nat × Option Nat) :=
  if q.st ≠ .flipped ∨ s.pausedCtx x then none
  else match q.nextHost with
    | none => none
    | some (a, _, ps) => if s.translated x (a / 4096) ps true then none else some (a / 4096, ps)

/-- A group with its next host piece posted. -/
def Grp.posted (q : Grp) : Grp :=
  match q.hostOut.find? (fun w => !w.sent), q.host with
  | some w, _ => { q with tries := 0, hostOut := mapIf (fun v => v.n == w.n) (fun v => { v with sent := true }) q.hostOut }
  | none, (_, a, b, ps) :: r => { q with tries := 0, host := r, hostOut := q.hostOut ++ [⟨q.host.length, a, b, ps, [], 0, true⟩] }
  | none, [] => q

/-- A group's next host piece posted. -/
def State.postHost (s : State) (g : Nat) : State :=
  match s.grpNo g with
  | none => s
  | some (x, q) =>
    if q.st ≠ .flipped ∨ s.pausedCtx x ∨ (s.port (s.portOf x)).lost then s
    else match s.grpPage x q, q.nextHost with
      | some (page, ps), _ => s.askTr x page ps true
      | none, some (a, b, ps) => (s.modGrp x g Grp.posted).hostPut x a b ps
      | none, none => s

/-- A group without its next host piece, which has failed (R270). -/
def Grp.dropHost (q : Grp) : Grp :=
  let q := { q with rank := min q.rank 2, tries := 0 }
  match q.hostOut.find? (fun w => !w.sent) with
  | some w => { q with hostOut := q.hostOut.filter (fun v => v.n != w.n) }
  | none => { q with host := q.host.drop 1 }

/-- A page fault of a group's next host piece. -/
def State.grpFault (s : State) (x : Nat) (q : Grp) (page : Nat) (ps : Option Nat) : State :=
  let p := s.portOf x
  if s.asked p q.id then s
  else if s.priRetries p ≤ q.tries then s.modGrp x q.id Grp.dropHost
  else s.askPage x q.id page ps true

/-- The groups of a function that a missing permission stops. -/
def State.grpFaults (s : State) (p : Nat) (vf : Option Nat) (pg : Nat) (ps : Option Nat) : State :=
  (s.ctxs.flatMap (fun e => e.2.grps.map (fun q => (e.1, q)))).foldl (fun s e =>
    if s.ownerPort e.1 ≠ some p ∨ s.fnOf e.1 ≠ vf then s
    else match s.grpPage e.1 e.2 with
      | some (page, q) => if page = pg ∧ q = ps then s.grpFault e.1 e.2 page ps else s
      | none => s) s

/-- After a settlement: what can be written is, a REDUCE whose links have come is computed, and a page request that waited
goes. -/
def State.settle (s : State) (t : Nat) : State :=
  let n := match s.xfer? t with
    | some u => u.pieces.length
    | none => 0
  ((s.drain t n).reduced t).priXfer t

/-- A host write that a lost link has cut off goes again, with the same bytes (R200, R230). -/
def State.issueAgain (s : State) (t : Xfer) (w : HostW) : State :=
  match s.pageLacks t.ctx w.addr w.pasid true with
  | some (page, _) => s.askTr t.ctx page w.pasid true
  | none =>
    (s.modXfer t.id (fun u => { u with tries := 0, hostOut := mapIf (fun v => v.n == w.n) (fun v => { v with sent := true }) u.hostOut })).hostPut
      t.ctx w.addr w.bytes w.pasid

/-- A piece whose host read a lost link has cut off is issued again (R230). -/
def State.readAgain (s : State) (t : Xfer) (p : Piece) (q : RdPart) : State :=
  match s.pageLacks t.ctx p.src q.ps false with
  | some (page, _) => s.askTr t.ctx page q.ps false
  | none =>
    (s.modXfer t.id (fun u => { u with tries := 0, pieces := mapIf (fun v => v.n == p.n) (fun v =>
      { v with parts := mapIf (·.cutOff) (fun r => { r with tag := 0 }) v.parts }) u.pieces })).hostGet t.ctx t.id p.n p.src p.len q.ps

/-- PIECE_ISSUE (R187, R191, R193, R197, R198, R212, R215, R230): of a transfer, or of a group's host writes (R267). -/
def execPieceIssue (t : Nat) (s : State) : Host.Outcome State Fault Refusal :=
  .next (
    match s.xfer? t with
    | none => s.postHost t
    | some u =>
      let v := u.nextRecord
      if v.failed && !u.failed then s.modXfer t (fun _ => v)
      else if !s.mayIssue u || !s.turnOf u || !s.linkOk u || decide (256 ≤ s.outstanding u.half u.eng) then s.settle t
      else match u.again, u.againRead with
        | some w, _ => s.issueAgain u w
        | none, some (p, q) => s.readAgain u p q
        | none, none =>
          let s := s.modXfer t (fun _ => v)
          match v.cut with
          | none => s
          | some c => if !v.sides.1 && s.stageWaits v c.dst then s else match s.missingPage v c with
            | some (page, w) => s.askTr v.ctx page (v.sidePasid w) w
            | none => (s.issuePiece v c).settle t)

/-! ## Settling (R158, R194, R195, R202) -/

/-- A string filled with zeros to a length, or cut to it. -/
def fitTo (n : Nat) (b : List Byte) : List Byte := (b ++ List.replicate n 0).take n

/-- Whether a read waits for an answer of an endpoint with a tag. -/
def RdPart.waits (q : RdPart) (who : Ep) (tag : Nat) : Bool := decide (q.who = some who) && decide (q.tag % 2 ^ 14 = tag) && q.got.isNone

/-- What a read has brought put in it: its units, or nothing where it failed. -/
def RdPart.filled (q : RdPart) (b : Option (List Byte)) : RdPart := { q with got := some ((b.map (fitTo (16 * q.units))).getD []) }

/-- READ_DATA at an engine (R194, R195). -/
def State.engineData (s : State) (half eng : Nat) (p : Packet) : State :=
  let who := addrEp p.src p.skind
  let tag := p.tag.toNat % 2 ^ 14
  let st := p.var.toNat % 2 ^ 16
  let b := if st = 0 then some (pBytes p) else none
  match s.xfers.find? (fun t => t.half == half && t.eng == eng && t.pieces.any (fun c => c.parts.any (·.waits who tag))) with
  | none => s
  | some t =>
    let s := s.modXfer t.id (fun t =>
      let t := { t with pieces := t.pieces.map (fun c => { c with parts := mapIf (·.waits who tag) (·.filled b) c.parts }) }
      if st = 0 then t else t.fail (statusRank st))
    s.settle t.id

/-- The rank of the refusals an ANSWER counts (R158). -/
def answerRank (p : Packet) : Nat :=
  if tallyField p 0 ≠ 0 then 3 else if tallyField p 2 ≠ 0 then 4 else if tallyField p 3 ≠ 0 then 5 else 7

/-- Targets an ANSWER counts. -/
def answerCount (p : Packet) : Nat := tallyField p 0 + tallyField p 1 + tallyField p 2 + tallyField p 3

/-- Packets of pieces that ANSWERs have not counted yet, after one more: the earliest pieces are taken to be settled first, since
an ANSWER does not tell which packet it counts (R194). -/
def eatAnswers : List Nat → Nat → List Nat
  | [], _ => []
  | w :: r, n => if n < w then (w - n) :: r else eatAnswers r (n - w)

/-- An ANSWER for a transfer. -/
def Xfer.answered (t : Xfer) (p : Packet) : Xfer :=
  let t := { t with writes := eatAnswers t.writes (answerCount p) }
  if answerRank p < 7 then t.fail (answerRank p) else t

/-- An ANSWER for a group's copy-out (R267, R270). -/
def Grp.answered (q : Grp) (p : Packet) : Grp := { q with acks := q.acks - answerCount p, rank := min q.rank (answerRank p) }

/-- Whether a pass's present run has a tag at an engine: that of its START, or that of its program packets, which is the next. -/
def Pass.runsAs (p : Pass) (half eng tag : Nat) : Bool :=
  p.half == half && p.eng == eng && p.st == .sent && (p.tag % 2 ^ 14 == tag || (p.tag + 1) % 2 ^ 14 == tag)

/-- The LAUNCH whose run an engine knows by a tag. -/
def State.passBy (s : State) (half eng tag : Nat) : Option (Nat × Nat) :=
  s.ctxs.findSome? (fun e => (e.2.passes.find? (·.runsAs half eng tag)).map (fun p => (e.1, p.id)))

/-- The state with a pass changed. -/
def State.modPass (s : State) (x id : Nat) (f : Pass → Pass) : State :=
  s.modCtx x (fun t => { t with passes := mapIf (fun p => p.id == id) f t.passes })

/-- An ANSWER for a LAUNCH (R158, R250): refusals of any of its packets set its rank, and those of its START count the cores that
were loaded. -/
def Pass.answered (q : Pass) (p : Packet) : Pass :=
  let q := { q with rank := min q.rank (answerRank p) }
  if q.tag % 2 ^ 14 = p.tag.toNat % 2 ^ 14 then
    { q with accepted := q.accepted + tallyField p 1, refused := q.refused + (answerCount p - tallyField p 1) }
  else q

/-- The engine that writes the row records of Fix groups: the first of half-die 0. -/
def fixEngine : Nat × Nat := (0, 0)

/-- The group whose copy-out has a tag. -/
def State.grpBy (s : State) (half eng tag : Nat) : Option (Nat × Nat) :=
  if (half, eng) ≠ fixEngine then none
  else s.ctxs.findSome? (fun e => (e.2.grps.find? (fun g => g.tag % 2 ^ 14 == tag)).map (fun g => (e.1, g.id)))

/-- Ranks that a transfer can end with, and FIX_OVERFLOW (R195, R264). -/
def xferStatus (rank : Nat) : Nat := if rank = 0 then 0x0202 else rankStatus rank

/-! ## Host completions (R194, R202, R225, R230) -/

/-- A host read's data put in its piece. -/
def fillHost (n : Nat) (b : Option (List Byte)) (l : List Piece) : List Piece :=
  mapIf (fun p => p.n == n) (fun p => { p with parts := mapIf (·.due) (·.filled b) p.parts }) l

/-- Whether a transfer has pieces outstanding at a host page. -/
def State.usesPage (s : State) (p pg : Nat) (ps vf : Option Nat) (t : Xfer) : Bool :=
  s.xport t == p && decide (s.fnOf t.ctx = vf) &&
    (t.pieces.any (fun c => c.parts.any (fun q => q.due && decide (q.ps = ps)) && c.src / 4096 == pg) ||
      t.hostOut.any (fun w => w.sent && decide (w.pasid = ps) && w.addr / 4096 == pg))

/-- Whether pieces issued under a translation have not completed: of a transfer, or of a flipped group. -/
def State.pageBusy (s : State) (p pg : Nat) (ps vf : Option Nat) : Bool :=
  s.xfers.any (s.usesPage p pg ps vf) ||
    s.ctxs.any (fun e => s.portOf e.1 == p && decide (s.fnOf e.1 = vf) && e.2.grps.any (fun g =>
      g.hostOut.any (fun w => w.sent && decide (w.pasid = ps) && w.addr / 4096 == pg)))

/-- An Invalidation Request answered, once the pieces issued under its translation have completed (R201). -/
def State.invalOne (s : State) (p : Nat) (e : Nat × Option Nat × Option Nat) : State :=
  if s.pageBusy p e.1 e.2.1 e.2.2 then s
  else
    ((s.modPort p (fun q => { q with inval := q.inval.erase e })).send (.invalDone p e.2.2 e.1 e.2.1)).bump .XFR_FAULT_STAT_INVALS p

/-- The Invalidation Requests of a port that can be answered. -/
def State.invalsDone (s : State) (p : Nat) : State := (s.port p).inval.foldl (fun s e => s.invalOne p e) s

/-- HOST_READ_COMPLETION (R194, R202, R225). -/
def execHostReadCompletion (port : Fin 2) (t : Nat) (n : Nat) (data : HostData) (s : State) :
    Host.Outcome State Fault Refusal :=
  .next (
    match s.xfer? t with
    | none => s
    | some u =>
      if (s.port port).lost || s.xport u != port.val || !u.pieces.any (fun p => p.n == n && hostDue p) then s
      else
        let s := (s.badCompletion port data).modXfer t (fun u =>
          { (if data.get?.isSome then u else u.fail 2) with pieces := fillHost n data.get? u.pieces })
        (s.settle t).invalsDone port)

/-- The first completion entry, or the first message, of a context acknowledged by the link (R230): 2^40 up stands for the
entries of a ring, 2^41 up for the messages of a context. -/
def State.ackCtx (s : State) (t : Nat) : State :=
  if 2 ^ 41 ≤ t then s.modCtx (t - 2 ^ 41) (fun c => { c with msgOut := c.msgOut.drop 1 })
  else s.modCtx ((t - 2 ^ 40) / 2) (fun c => { c with cqOut := c.cqOut.drop 1 })

/-- The context whose entries or messages a number from 2^40 up stands for: its completion ring's number, or 2^41 and its own. -/
def ackOf (t : Nat) : Nat := if 2 ^ 41 ≤ t then t - 2 ^ 41 else (t - 2 ^ 40) / 2

/-- A host write of a group acknowledged by the link. -/
def State.ackGrp (s : State) (port t n : Nat) : State :=
  { s with ctxs := s.ctxs.map (fun e =>
      if s.portOf e.1 = port then
        (e.1, { e.2 with grps := mapIf (fun g => g.id == t) (fun g => { g with hostOut := g.hostOut.filter (fun w => w.n != n || !w.sent) }) e.2.grps })
      else e) }

/-- HOST_WRITE_ACK (R194, R230): of a transfer's piece, of a completion entry, of a message of a context, of one of the port itself
(numbers from 2^42 up), or of a group's piece. -/
def execHostWriteAck (port : Fin 2) (t : Nat) (n : Nat) (s : State) : Host.Outcome State Fault Refusal :=
  .next (
    if (s.port port).lost then s
    else match s.xfer? t with
      | some u =>
        if s.xport u = port then
          ((s.modXfer t (fun u => { u with hostOut := u.hostOut.filter (fun w => w.n != n || !w.sent) })).settle t).invalsDone port
        else s
      | none =>
        if 2 ^ 42 ≤ t then s.modPort port (fun q => { q with msgOut := q.msgOut.drop 1 })
        else if 2 ^ 40 ≤ t then (if s.portOf (ackOf t) = port then s.ackCtx t else s)
        else (s.ackGrp port t n).invalsDone port)

/-! ## Translations (R197 to R202, R245) -/

/-- A translation kept; the one used least recently leaves a full cache (R434). -/
def keepTr (l : List Tr) (e : Tr) : List Tr :=
  let l := l.filter (fun f => !f.is e.page e.pasid e.vf)
  (if 4096 ≤ l.length then l.drop 1 else l) ++ [e]

/-- Where the next slot of a submission ring lies (R238). -/
def State.sqAddr (s : State) (x : Nat) : Nat := s.reg .CTX_RING_SQ_BASE x / 4096 * 4096 + 64 * s.reg .CTX_RING_POS_SQ_HEAD x

/-- The successful Page Responses in a row that have not helped a ring (R199, R245). -/
def State.ringTries (s : State) (x : Nat) (sq : Bool) : Nat := if sq then (s.ctx x).sqTries else (s.ctx x).cqTries

/-- The same count set. -/
def State.setTries (s : State) (x : Nat) (sq : Bool) (n : Nat) : State :=
  s.modCtx x (fun t => if sq then { t with sqTries := n } else { t with cqTries := n })

/-- A failure at a ring puts its context into FAULTED (R245); the kill entry of a killed one is lost. -/
def State.ringFails (s : State) (x : Nat) (sq : Bool) : State :=
  let s := (s.ctxFault x 0x0101).setTries x sq 0
  if s.cst x = 6 then s.modCtx x (fun t => { t with heldCq := [] }) else s

/-- A page fault at a ring: a page request, or a failure when its responses have led nowhere (R199, R245). -/
def State.ringFault (s : State) (x : Nat) (sq : Bool) (page : Nat) : State :=
  let p := s.portOf x
  let key := ringId x sq
  if s.asked p key then s
  else if s.priRetries p ≤ s.ringTries x sq then s.ringFails x sq
  else s.askPage x key page (s.ringPasid x) (!sq)

/-- Rings of a function that need a page whose translation shows a fault. -/
def State.ringFaults (s : State) (p : Nat) (vf : Option Nat) (page : Nat) (pasid : Option Nat) : State :=
  s.ctxs.foldl (fun s e =>
    let x := e.1
    if s.ownerPort x ≠ some p ∨ s.fnOf x ≠ vf ∨ s.ringPasid x ≠ pasid then s
    else
      let s := if s.cst x = 2 ∧ s.sqAddr x / 4096 = page ∧ s.translated x page pasid false = false ∧
          (s.ctx x).sqTail % s.sqSize x ≠ s.reg .CTX_RING_POS_SQ_HEAD x then s.ringFault x true page else s
      if ¬(s.ctx x).heldCq.isEmpty ∧ s.cqAddr x / 4096 = page ∧ s.translated x page pasid true = false then s.ringFault x false page
      else s) s

/-- Insert by a key, after equal ones. -/
def insertBy {α : Type} (key : α → Nat) (a : α) : List α → List α
  | [] => [a]
  | b :: r => if key a < key b then a :: b :: r else b :: insertBy key a r

/-- A list in the order of a key, stably. -/
def sortBy {α : Type} (key : α → Nat) (l : List α) : List α := l.foldl (fun acc a => insertBy key a acc) []

/-- The actions of a group in ring order. -/
def Grp.actions (q : Grp) (op : Nat) : List (BitVec 512) := ((sortBy (fun e => e.1) q.acts).map (·.2)).filter (fun d => dOp d == op)

/-- The SIGNALs of a group still to act. -/
def Grp.sigsLeft (q : Grp) : List (BitVec 512) := q.sigs.getD (q.actions 0x04)

/-- A copy by its number, with its context. -/
def State.copyNo (s : State) (i : Nat) : Option (Nat × Copy) := s.ctxs.findSome? (fun e => (e.2.copy? i).map (fun c => (e.1, c)))

/-- A descriptor that could not reach the host memory it needs as it begins; for a FIX_CLOSE, the SIGNAL of its group that acts
next, which is passed over (R195, R199, R270). -/
def State.copyFails (s : State) (x i : Nat) : State :=
  let s := s.modCopy x i (fun c => { c with wants := none, tries := 0 })
  match (s.ctx x).copy? i with
  | none => s
  | some c =>
    if dOp c.bytes = 0x06 then s.modGrp x (c.grp.getD 0) (fun q => { q with sigs := some (q.sigsLeft.drop 1) })
    else (s.bump .XFR_FAULT_STAT_PAGE_FAILS (s.portOf x)).complete x i 0x0101 0

/-- A page fault of a descriptor as it begins (R198, R199). -/
def State.copyFault (s : State) (x : Nat) (c : Copy) (page : Nat) (write : Bool) (ps : Option Nat) : State :=
  let p := s.portOf x
  if s.asked p c.id || s.pausedCtx x then s
  else if s.priRetries p ≤ c.tries then s.copyFails x c.id
  else s.askPage x c.id page ps write

/-- Descriptors of a function that a missing permission keeps from beginning. -/
def State.copyFaults (s : State) (p : Nat) (vf : Option Nat) (pg : Nat) (ps : Option Nat) : State :=
  (s.ctxs.flatMap (fun e => e.2.copies.map (fun c => (e.1, c)))).foldl (fun s e =>
    if s.ownerPort e.1 ≠ some p ∨ s.fnOf e.1 ≠ vf ∨ e.2.done then s
    else match e.2.wants with
      | some (page, w, q) => if page = pg ∧ q = ps ∧ s.translated e.1 page q w = false then s.copyFault e.1 e.2 page w q else s
      | none => s) s

/-- Completion entries that waited for a translation. -/
def State.flushAll (s : State) : State := s.ctxs.foldl (fun s e => s.cqGo e.1) s

/-- ATS_TRANSLATION_COMPLETION (R197, R198, R245). -/
def execAtsTranslationCompletion (fn : PcieFn) (page : BitVec 64) (pasid : Option (BitVec 20)) (r w : Bool)
    (s : State) : Host.Outcome State Fault Refusal :=
  .next (
    let pg := page.toNat
    let ps := pasid.map (·.toNat)
    if !(s.port fn.port).ats || (s.port fn.port).lost then s
    else
      let s := if r || w then s.modPort fn.port (fun q => { q with atc := keepTr q.atc ⟨pg, ps, fn.vf, r, w⟩ }) else s
      let s := s.xfers.foldl (fun s t =>
        if s.xport t ≠ fn.port.val ∨ s.fnOf t.ctx ≠ fn.vf then s
        else match s.standsPage t with
          | some (q, wr) => if q = pg ∧ t.pagePasid wr = ps then s.pageFault t q wr else s
          | none => s) s
      (((s.grpFaults fn.port fn.vf pg ps).copyFaults fn.port fn.vf pg ps).ringFaults fn.port fn.vf pg ps).flushAll)

/-- A Page Response for a ring: the completion ring asks for its translation again (R199, R245). -/
def State.ringResponse (s : State) (key : Nat) (ok : Bool) : State :=
  let x := (key - 2 ^ 40) / 2
  let sq := decide (key % 2 = 1)
  if ok then (let s := s.setTries x sq (s.ringTries x sq + 1); if sq then s else s.cqGo x) else s.ringFails x sq

/-- What holds a transfer once its page request has been answered during a pause (R196). -/
def Hold.answered : Hold → Hold
  | .page _ w _ => .resolved w
  | h => h

/-- A Page Response for a transfer, for a group's host piece, or for a descriptor that has not begun (R199). -/
def State.workResponse (s : State) (t : Nat) (ok : Bool) : State :=
  match s.xfer? t, s.grpNo t, s.copyNo t with
  | some _, _, _ =>
    if ok then s.modXfer t (fun u => { u with hold := if s.pausedCtx u.ctx then u.hold.answered else .none, tries := u.tries + 1 })
    else s.failXfer t 2
  | none, some (x, _), _ => if ok then s.modGrp x t (fun q => { q with tries := q.tries + 1 }) else s.modGrp x t Grp.dropHost
  | none, none, some (x, c) =>
    if c.done then s else if ok then s.modCopy x t (fun c => { c with tries := c.tries + 1 }) else s.copyFails x t
  | none, none, none => s

/-- The end of a page request: its slot is freed, and the transfer or ring goes on or fails. -/
def State.pageEnds (s : State) (p t : Nat) (ok : Bool) : State :=
  if !s.asked p t then s
  else
    let s := s.modPort p (fun q => { q with pri := q.pri.filter (fun e => e.t != t) })
    let s := if 2 ^ 40 ≤ t then s.ringResponse t ok else s.workResponse t ok
    s.priAll

/-- PAGE_RESPONSE (R199). -/
def execPageResponse (port : Fin 2) (t : Nat) (code : PageCode) (s : State) : Host.Outcome State Fault Refusal :=
  .next (if (s.port port).lost then s else s.pageEnds port t (decide (code = .success)))

/-- PAGE_RESPONSE_TIMEOUT (R199): once TIMEOUT milliseconds have passed since the request. -/
def execPageResponseTimeout (port : Fin 2) (t : Nat) (s : State) : Host.Outcome State Fault Refusal :=
  .next (
    match (s.port port).pri.find? (fun e => e.t == t) with
    | none => s
    | some e =>
      if (s.timer + 2 ^ 48 - e.at_) % 2 ^ 48 < 1000000 * max 1 (s.reg .XFR_PRI_CTL_TIMEOUT port) then s
      else s.pageEnds port t false)

/-- ATS_INVALIDATION (R201): no later piece uses the translation, and the answer goes when the pieces already issued under
it have completed. -/
def execAtsInvalidation (fn : PcieFn) (page : BitVec 64) (pasid : Option (BitVec 20)) (s : State) :
    Host.Outcome State Fault Refusal :=
  .next (
    let pg := page.toNat
    let ps := pasid.map (·.toNat)
    if (s.port fn.port).lost then s
    else
      (s.modPort fn.port (fun q => { q with
        atc := q.atc.filter (fun e => !e.is pg ps fn.vf)
        inval := q.inval ++ [(pg, ps, fn.vf)] })).invalsDone fn.port)

/-! ## Completion (R194, R195, R214, R253) -/

/-- Whether an arm's stream still stands. -/
def Ctx.streamOf (t : Ctx) (id : Nat) : Option (Nat × Stream) := t.streams.find? (fun e => e.2.id == id)

/-- An arm completed: its stream's counts, and its entry (R253). -/
def State.armDone (s : State) (x tid id k seq flags status : Nat) : State :=
  let s := match (s.ctx x).streamOf id with
    | some (n, _) => s.modCtx x (fun t => { t with streams := mapIf (fun e => e.1 == n) (fun e =>
        (e.1, { e.2 with served := (e.2.served + 1) % 2 ^ 32, queued := e.2.queued - 1,
                         inService := if e.2.inService = some tid then none else e.2.inService })) t.streams })
    | none => s
  if flags % 2 = 1 ∨ status ≠ 0 then s.cqeDue x ⟨seq, status, 0x0C, s.timer % 2 ^ 48, k % 2 ^ 16⟩ else s

/-- A transfer leaves the list and its descriptor or arm completes. -/
def State.finishXfer (s : State) (t : Xfer) : State :=
  let rank := if t.late then min t.rank 6 else t.rank
  let status := xferStatus rank
  let s := { s with xfers := s.xfers.filter (fun u => u.id != t.id) }
  let s := if t.late then s.lateness t.ctx t.t0 t.deadline else s
  let s := if status = 0x0101 then s.bump .XFR_FAULT_STAT_PAGE_FAILS (t.half / 2) else s
  match t.role with
  | .desc i => s.complete t.ctx i status 0
  | .arm id k seq flags => s.armDone t.ctx t.id id k seq flags status
  | .sig g => s.modGrp t.ctx g (fun q => { q with sigNow := false })

/-- Whether a transfer has come to its end (R194, R195). -/
def Xfer.over (t : Xfer) : Bool := (t.failed || t.allIssued) && t.settled

/-- A miss noted for a transfer whose deadline has passed. -/
def State.missXfer (s : State) (t : Xfer) : State :=
  if t.late || !s.passed t.t0 t.deadline then s
  else (s.modXfer t.id (fun u => { u with late := true })).missed t.ctx

/-- A pass by its number, with its context. -/
def State.passNo (s : State) (t : Nat) : Option (Nat × Pass) :=
  s.ctxs.findSome? (fun e => (e.2.passes.find? (fun p => p.id == t)).map (fun p => (e.1, p)))

/-- DEADLINE_MISS (R214): of a transfer, of a LAUNCH's pass, or of a descriptor that is eligible and has not begun. -/
def execDeadlineMiss (t : Nat) (s : State) : Host.Outcome State Fault Refusal :=
  .next (
    match s.xfer? t, s.passNo t, s.copyNo t with
    | some u, _, _ => s.missXfer u
    | none, some (x, p), _ =>
      if p.late || !s.passed p.t0 p.deadline then s else (s.modPass x t (fun p => { p with late := true })).missed x
    | none, none, some (x, c) => s.missCopy x c
    | none, none, none => s)

end Sys2Proof.Machine
end

