-- ==== Sys2Proof/Machine/Desc.lean ====
section
/-! DEFINITION. Descriptors: fetching them, and what those do that launch no pass and flip no group (R203 to R212, R239 to R253,
R259, R260). -/

namespace Sys2Proof.Machine

/-! ## Fetching (R240, R259, R269) -/

/-- The group that a context has open, aborted or not: fetched and not closed. -/
def Ctx.openGrp (t : Ctx) : Option Grp := t.grps.find? (fun q => q.closer.isNone)

/-- Areas of a context that groups hold. -/
def Ctx.areasHeld (t : Ctx) : List Nat := (t.grps.filter (fun q => !t.areaFree q)).map (·.area)

/-- The lowest free staging area. -/
def State.freeArea (s : State) (x : Nat) : Option Nat :=
  (List.range (s.reg .CTX_AREA_FIX_N x)).find? (fun a => !(s.ctx x).areasHeld.contains a)

/-- Whether a context reads its next slot now. -/
def State.fetches (s : State) (x : Nat) : Bool :=
  let t := s.ctx x
  decide (s.cst x = 2) && decide (t.busy = .none) && !t.genWait && !(s.port (s.portOf x)).lost &&
    decide (t.sqTail % s.sqSize x ≠ s.reg .CTX_RING_POS_SQ_HEAD x) &&
    decide ((t.copies.filter (fun c => !c.done)).length < 256)

/-- The head past a slot (R240). -/
def State.advanceHead (s : State) (x : Nat) : State :=
  let h := (s.reg .CTX_RING_POS_SQ_HEAD x + 1) % s.sqSize x
  let s := s.setReg .CTX_RING_POS_SQ_HEAD x h
  if h = 0 then s.wrapInc .CTX_RING_POS_LAP x else s

/-- Stream arms accepted by now, and those still in service of streams that are gone (R248). -/
def State.armsNow (s : State) (x : Nat) : List (Nat × Nat) :=
  (s.ctx x).streams.map (fun e => (e.2.id, e.2.served + e.2.queued)) ++
    (s.xfers.filterMap (fun t => if t.ctx = x then
      (match t.role with
       | .arm id _ _ _ => if ((s.ctx x).streamOf id).isNone then some (id, 0) else none
       | .desc _ => none
       | .sig _ => none) else none))

/-- A copy kept. -/
def State.keepCopy (s : State) (x i : Nat) (d : BitVec 512) (grp : Option Nat) : State :=
  s.modCtx x (fun t => { t with
    copies := t.copies ++ [{ id := i, bytes := d, begun := false, done := false, elig := none, grp := grp,
                             armsBefore := if dOp d = 0x0D then s.armsNow x else [], eng := none, wants := none, tries := 0, late := false }]
    lastSeq := dSeq d
    lastOp := dOp d
    sqTries := 0 })

/-- A group as FIX_OPEN makes it. -/
def Grp.opened (id gid area : Nat) : Grp :=
  { id := id, gid := gid, area := area, st := .open_, overflowed := false, members := [], closer := none, pages := [], from_ := [],
    rows := [], host := [], acts := [], sigs := none, sigNow := false, recBytes := 0, acks := 0, hostOut := [], rank := 7, tries := 0,
    tag := 0 }

/-- A slot taken: its copy, and what its fetch does to groups (R259, R269). -/
def State.takeSlot (s : State) (x : Nat) (d : BitVec 512) : State :=
  let i := s.nextId
  let s := { s with nextId := i + 1 }.advanceHead x
  match dMember d, dOp d, (s.ctx x).openGrp with
  | true, _, some q =>
    let s := (s.keepCopy x i d (some q.id)).modGrp x q.id (fun q => { q with members := q.members ++ [i] })
    if q.st = .aborted then s.complete x i 0x0201 0 else s
  | true, _, none => s.keepCopy x i d none
  | false, 5, none =>
    let g := s.nextId
    let s := { s with nextId := g + 1 }
    let a := (s.freeArea x).getD 0
    (s.modCtx x (fun t => { t with grps := t.grps ++ [Grp.opened g (dF d 8 4) a] })).keepCopy x i d (some g)
  | false, 6, some q =>
    if dF d 8 4 = q.gid then
      (s.keepCopy x i d (some q.id)).modGrp x q.id (fun q =>
        { q with closer := some i, st := if q.st = .open_ then .closed else q.st })
    else s.keepCopy x i d none
  | false, 7, some q =>
    if dF d 8 4 = q.gid then
      ((s.keepCopy x i d (some q.id)).modGrp x q.id (fun q => { q with closer := some i })).abortGrp x q.id false
    else s.keepCopy x i d none
  | false, _, _ => s.keepCopy x i d none

/-- Whether a FIX_OPEN in the slot has to wait for an area (R259). -/
def State.openWaits (s : State) (x : Nat) (d : BitVec 512) : Bool :=
  decide (dOp d = 5) && !dMember d && (s.ctx x).openGrp.isNone && (s.freeArea x).isNone

/-- A slot read (R240, R245). -/
def State.fetch (s : State) (x : Nat) (slot : HostData) : State :=
  if !s.fetches x then s
  else if !s.translated x (s.sqAddr x / 4096) (s.ringPasid x) false then s.askTr x (s.sqAddr x / 4096) (s.ringPasid x) false
  else
    let s := (s.useTr x (s.sqAddr x / 4096) (s.ringPasid x)).setTries x true 0
    match slot.get? with
    | none => (s.badCompletion (s.portOf x) slot).ctxFault x 0x0101
    | some b =>
      let d : BitVec 512 := BitVec.ofNat 512 (bytesNat (b.take 64))
      if dGen d ≠ s.reg .CTX_RING_POS_LAP x then
        ((s.bump .CTX_ERR_GEN x).event .CTX_EVENT_RING x).modCtx x (fun t => { t with genWait := true })
      else if s.openWaits x d then s
      else (s.takeSlot x d).markElig x

/-- DESCRIPTOR_FETCH (R240). -/
def execDescriptorFetch (x : Fin 1024) (slot : HostData) (s : State) : Host.Outcome State Fault Refusal :=
  .next (s.fetch x slot)

/-- RING_POLL (R240): a slot that did not match is read again. -/
def execRingPoll (x : Fin 1024) (slot : HostData) (s : State) : Host.Outcome State Fault Refusal :=
  .next (if (s.ctx x).genWait then (s.modCtx x (fun t => { t with genWait := false })).fetch x slot else s)

/-! ## Doorbells (R218, R220, R222, R226, R237, R239, R252) -/

/-- An access to the doorbell page of a context through a function: carried out, or refused and counted, or unsupported. -/
def State.onPage (s : State) (via : Via) (x : Nat) (act denied : State → State) : State :=
  let p := match via with
    | .pf p => p.val
    | .vf p _ => p.val
  let src : Src := .port (match via with
    | .pf p => p
    | .vf p _ => p)
  match s.reaches src with
  | .granted =>
    let own (s : State) : State := if s.owns p x ∧ s.cst x ≠ 0 then act s else denied (s.violation p)
    (match via with
     | .pf _ => own s
     | .vf _ n =>
       if !s.vfExists p n || !s.regB .PCI_VF_CTX_VALID (p * 511 + n) || s.reg .PCI_VF_CTX_CTX (p * 511 + n) != x then s.unsupported src
       else own s)
  | .unsupported => s.unsupported src
  | _ => s

/-- A write to the doorbell page of a context. -/
def State.doorbellPage (s : State) (via : Via) (x : Nat) (act : State → State) : State := s.onPage via x act id

/-- SQ_TAIL (R239, R240). -/
def execSqTail (via : Via) (x : Fin 1024) (value : BitVec 64) (s : State) : Host.Outcome State Fault Refusal :=
  .next (s.doorbellPage via x (fun s => s.modCtx x (fun t => { t with sqTail := value.toNat % 2 ^ 16, genWait := false })))

/-- EVENT_ACK (R239). -/
def execEventAck (via : Via) (x : Fin 1024) (value : BitVec 64) (s : State) : Host.Outcome State Fault Refusal :=
  .next (s.doorbellPage via x (fun s =>
    let clr (b : Nat) (f : Fld) (s : State) : State := if natBits value.toNat b 1 = 1 then s.setReg f x 0 else s
    clr 0 .CTX_EVENT_REFUSE (clr 1 .CTX_EVENT_DEADLINE (clr 2 .CTX_EVENT_STATE (clr 3 .CTX_EVENT_RING (clr 4 .CTX_EVENT_MSIX s))))))

/-! ## Streams (R251 to R253) -/

/-- A stream of a context. -/
def State.stream (s : State) (x n : Nat) : Option Stream := Tbl.get? (s.ctx x).streams n

/-- The state with a stream put in the table. -/
def State.setStream (s : State) (x n : Nat) (q : Stream) : State :=
  s.modCtx x (fun t => { t with streams := Tbl.set t.streams n q })

/-- Arms offered to a stream that exists: what its limit allows, and an entry for the rest (R252). -/
def State.offer (s : State) (x n k : Nat) (q : Stream) : State :=
  let a := min k (255 - q.queued)
  let s := s.setStream x n { q with queued := q.queued + a }
  if a < k then (s.cqeDue x ⟨q.seq, 0x0402, 0x0C, s.timer % 2 ^ 48, k - a⟩).event .CTX_EVENT_RING x else s

/-- Arms offered at publication: a stream number that is free takes none, as at the doorbell (R252, R267). -/
def State.offerAt (s : State) (x n k : Nat) : State :=
  match s.stream x n with
  | some q => s.offer x n k q
  | none => (s.bump .CTX_ERR_DBELL x).event .CTX_EVENT_RING x

/-- STREAM_ARM_DOORBELL (R239, R252). -/
def execStreamArmDoorbell (via : Via) (x : Fin 1024) (value : BitVec 64) (s : State) : Host.Outcome State Fault Refusal :=
  .next (s.doorbellPage via x (fun s => s.offerAt x (natBits value.toNat 0 6) (natBits value.toNat 16 8)))

/-- A descriptor whose row its fields choose. -/
def State.beginsIf (s : State) (x i : Nat) (op : Nat) (p : BitVec 512 → Bool) (act : Copy → State → State) : State :=
  match (s.ctx x).copy? i with
  | none => s
  | some c => if p c.bytes then s.begins x i (· == op) act else s

/-- SOP. -/
def dSop (d : BitVec 512) : Nat := dF d 13 1

/-- STREAM. -/
def dStream (d : BitVec 512) : Nat := dF d 12 1 % 64

/-- The stream a create makes. -/
def Stream.create (id : Nat) (d : BitVec 512) : Stream :=
  ⟨id, dSpec d 16, dSpec d 32, dF d 48 4, sInt 32 (dF d 52 4), sInt 32 (dF d 56 4),
   if dF d 60 2 = 0 then 65536 else dF d 60 2, dDeadline d, dFlags d, dSeq d, 0, 0, none⟩

/-- STREAM_CREATE (R251, R260): an SOP that is refused completes here. -/
def execStreamCreate (x : Fin 1024) (i : Nat) (s : State) : Host.Outcome State Fault Refusal :=
  .next (s.beginsIf x i 0x0C (fun d => dSop d == 0 || decide (3 ≤ dSop d)) (fun c s =>
    let d := c.bytes
    if 3 ≤ dSop d ∨ dMember d ∨ (s.stream x (dStream d)).isSome then s.complete x i 0x0001 0
    else ((s.setStream x (dStream d) (Stream.create i d))).complete x i 0 0))

/-- STREAM_DESTROY (R251, R260). -/
def execStreamDestroy (x : Fin 1024) (i : Nat) (s : State) : Host.Outcome State Fault Refusal :=
  .next (s.beginsIf x i 0x0C (fun d => dSop d == 1) (fun c s =>
    if dMember c.bytes then s.complete x i 0x0001 0
    else match s.stream x (dStream c.bytes) with
      | none => s.complete x i 0 0
      | some q =>
        (s.modCtx x (fun t => { t with streams := Tbl.erase t.streams (dStream c.bytes) })).complete x i 0
          (q.queued - (if q.inService.isSome then 1 else 0))))

/-- STREAM_ARM (R252, R260). -/
def execStreamArm (x : Fin 1024) (i : Nat) (s : State) : Host.Outcome State Fault Refusal :=
  .next (s.beginsIf x i 0x0C (fun d => dSop d == 2) (fun c s =>
    let n := dStream c.bytes
    let k := dF c.bytes 14 1
    match s.stream x n with
    | none => s.complete x i 0x0001 0
    | some q =>
      if k = 0 then s.complete x i 0x0001 0
      else if dMember c.bytes then
        (let r := s.stageAct x (c.grp.getD 0) i c.bytes
         r.1.complete x i (if r.2 = 0 then 0x0202 else 0) 0)
      else (s.offer x n k q).complete x i 0 0))

/-- An arm's specifier (R253). -/
def armSpec (d : EndSpec) (adv : Int) (j : Nat) : EndSpec :=
  { d with addr := (((d.addr : Int) + (j : Int) * adv) % ((2 : Int) ^ 64)).toNat }

/-- STREAM_ARM_SERVICE (R242, R244, R252, R253). -/
def execStreamArmService (x : Fin 1024) (n : Fin 64) (s : State) : Host.Outcome State Fault Refusal :=
  .next (
    match s.stream x n with
    | none => s
    | some q =>
      if q.queued = 0 ∨ q.inService.isSome ∨ s.cst x ≠ 2 ∨ (s.ctx x).busy ≠ .none ∨ s.heldFull x then s
      else
        let j := q.served % q.wrap
        let a := armSpec q.src q.sadv j
        let b := armSpec q.dst q.dadv j
        if !s.xferOk x a b (oneRun q.len0) then s.armDone x s.nextId q.id q.served q.seq q.flags 0x0102
        else
          let e := s.pickEngine x (a.kind == 0 || b.kind == 0) b
          (s.setStream x n { q with inService := some s.nextId }).startXfer x (.arm q.id q.served q.seq q.flags) e a b
            (.shape (oneRun q.len0)) [0, 0, 0, 0] s.timer (if natBits q.flags 2 1 = 1 then q.deadline else 0) false none)

/-! ## XFER and RESHARD (R190, R192, R211, R212, R237, R260) -/

/-- The group a member's writes are staged in. -/
def Copy.stagesIn (c : Copy) : Option Nat := if dMember c.bytes then c.grp else none

/-- The moment from which a descriptor's deadline counts (R214). -/
def State.eligAt (s : State) (c : Copy) : Nat := c.elig.getD s.timer

/-- The specifier of an XFER's shape block: HBM, or host memory with the PASID of the first HOST specifier (R248). -/
def shapeSpec (d : BitVec 512) : EndSpec :=
  let a := dF d 48 8
  let host : EndSpec := if (dSpec d 16).kind = 0 then dSpec d 16 else dSpec d 32
  if 2 ^ 63 ≤ a then { host with kind := 0, addr := a % 2 ^ 63, pv := host.pv && host.kind == 0 }
  else { host with kind := 1, addr := a, t := false }

/-- An XFER whose shape is known. -/
def State.xferBegins (s : State) (x : Nat) (c : Copy) (sh : Shape) (shapeHost : Bool) : State :=
  let a := dSpec c.bytes 16
  let b := dSpec c.bytes 32
  if !s.xferOk x a b sh then s.complete x c.id 0x0102 0
  else
    s.startXfer x (.desc c.id) (s.pickEngine x (a.kind == 0 || b.kind == 0 || shapeHost) b) a b (.shape sh)
      (if sh.cnt.any (· == 0) then [] else [0, 0, 0, 0]) (s.eligAt c) (realTime c.bytes) c.late c.stagesIn

/-- XFER (R190 to R192, R237, R242, R247, R260). -/
def execXfer (x : Fin 1024) (i : Nat) (shape : FlagSeen) (s : State) : Host.Outcome State Fault Refusal :=
  .next (s.begins x i (· == 0x01) (fun c s =>
    let d := c.bytes
    let m := shapeSpec d
    if dMember d ∧ noMemberDst (dSpec d 32) then s.complete x i 0x0001 0
    else if dF d 12 1 % 2 = 0 then s.xferBegins x c (oneRun (dF d 48 8)) false
    else if m.kind = 1 ∧ 2 ^ 44 ≤ m.addr then s.complete x i 0x0102 0
    else s.withBytes x i m 128 shape (·.notBegun x i) (fun s rank b =>
      if rank ≠ 7 then s.complete x i (rankStatus rank) 0 else s.xferBegins x c (shapeOf b) (m.kind == 0))))

/-- Whether a specifier that must be HOST or DEV is neither (R248). -/
def notHostDev (d : EndSpec) : Bool := decide (2 ≤ d.kind)

/-- The span of `n` bytes from an endpoint's address. -/
def EndSpec.span (d : EndSpec) (n : Nat) : Int × Int := ((d.addr : Int), (d.addr : Int) + (n : Int) - 1)

/-- A range that a descriptor names, checked as a transfer's is (R192, R237). -/
def State.rangeOk (s : State) (x : Nat) (d : EndSpec) (n : Nat) : Bool :=
  !d.malformed && !spanWraps (d.span n) && s.endOk x d (d.span n)

/-- Whether two ranges of endpoints overlap in one address space (R192). -/
def overlap (a : EndSpec) (n : Nat) (b : EndSpec) (m : Nat) : Bool :=
  sameSpace a b && decide ((a.span n).1 ≤ (b.span m).2) && decide ((b.span m).1 ≤ (a.span n).2)

/-- A RESHARD whose map has been read. -/
def State.reshardBegins (s : State) (x : Nat) (c : Copy) (host : Bool) (recs : List ReRec) : State :=
  let first := (recs.head?.map (fun q => rowAddr q.dbase q.drow)).getD (2 ^ 44)
  let dst := { recSpec false false false with addr := first }
  (s.startXfer x (.desc c.id) (s.pickEngine x host dst) dst dst (.reshard []) [] (s.eligAt c) (realTime c.bytes) c.late
    c.stagesIn).modXfer s.nextId (fun t => t.record recs)

/-- RESHARD (R211, R212, R237, R242). -/
def execReshard (x : Fin 1024) (i : Nat) (map : FlagSeen) (s : State) : Host.Outcome State Fault Refusal :=
  .next (s.begins x i (· == 0x0B) (fun c s =>
    let m := dSpec c.bytes 16
    if notHostDev m then s.complete x i 0x0001 0
    else if !s.rangeOk x m 16 then s.complete x i 0x0102 0
    else s.withBytes x i m 16 map (·.notBegun x i) (fun s rank b =>
      let n := bF b 0 4
      if rank ≠ 7 then s.complete x i (rankStatus rank) 0
      else if n = 0 ∨ 65536 < n ∨ !s.rangeOk x m (16 + 32 * n) then s.complete x i 0x0102 0
      else s.withBytes x i m (16 + 32 * n) { map with dev := seenPast map.dev m.addr 16 } (·.notBegun x i) (fun s rank b =>
        if rank ≠ 7 then s.complete x i (rankStatus rank) 0
        else s.reshardBegins x c (m.kind == 0) ((chunks 32 n (b.drop 16)).map reRecOf)))))

/-! ## WAIT and SIGNAL (R241, R249) -/

/-- A specifier of a flag that is refused (R248). -/
def badFlag (d : EndSpec) : Bool := notHostDev d || decide (d.addr % 8 ≠ 0)

/-- Whether a flag's read checks its row's tag. -/
def EndSpec.checked (d : EndSpec) : Bool := d.kind == 1 && d.t && isScratch d.addr

/-- The flag of descriptor `i` read: nothing while a tag-checked row is not FULL, or accesses that began to wait earlier have not
been served, or the arbiter holds it; else the rank and the value. A read of the unit that holds the row end empties the row, for a
source unit is read whole (R116, R119, R122, R193). -/
def State.flagRead (s : State) (x i : Nat) (d : EndSpec) (seen : FlagSeen) : State × Option (Nat × Nat) :=
  let c := d.addr / 4096 % 2 ^ 20
  let row := d.addr / 64 % 64
  let w : Waiter := .flag x i row
  if !s.rangeOk x d 8 then (s, some (5, 0))
  else if d.checked && decide (s.coreRank x c = 7) && !((s.core c).full row && (s.core c).mayRetry w) then
    (s.modCore c (fun k => k.waitOn w), none)
  else
    let r := (if d.checked && (s.core c).waits.contains w then s.modCore c (fun k => k.unwait w) else s).fetchBytes x d d.addr 8 seen
    if r.2.1 = heldRank then (r.1, none)
    else if r.2.1 ≠ 7 then (r.1, some (r.2.1, 0))
    else
      (if d.checked && decide (48 ≤ d.addr % 64) then r.1.modCore c (fun k => k.setTag row false) else r.1,
        some (7, bytesNat (r.2.2.take 8)))

/-- The condition of a WAIT on a flag. -/
def waitHolds (kind value flag : Nat) : Bool :=
  if kind = 0 then decide ((flag + 2 ^ 64 - value) % 2 ^ 64 < 2 ^ 63) else flag == value

/-- A WAIT judged (R249): completed where its condition holds or its flag cannot be read. -/
def State.judgeWait (s : State) (x : Nat) (c : Copy) (seen : FlagSeen) : State :=
  let d := c.bytes
  let kind := dF d 8 1
  let v := dF d 32 8
  if kind = 2 then
    let w := dF d 10 2 % 1024
    if s.reg .CTX_STATE_OWNER w ≠ s.reg .CTX_STATE_OWNER x ∨ s.cst w = 0 then s.complete x c.id 0x0102 0
    else if (s.reg .CTX_RING_POS_RETIRED_SEQ w + 2 ^ 32 - v % 2 ^ 32) % 2 ^ 32 < 2 ^ 31 then s.complete x c.id 0 0
    else s
  else if !s.rangeOk x (dSpec d 16) 8 then s.complete x c.id 0x0102 0
  else s.withRead x c.id (dSpec d 16) 8 id (fun s =>
    let r := s.flagRead x c.id (dSpec d 16) seen
    match r.2 with
    | none => r.1
    | some (rank, flag) =>
      if rank ≠ 7 then r.1.complete x c.id (rankStatus rank) 0
      else if waitHolds kind v flag then r.1.complete x c.id 0 0
      else r.1)

/-- WAIT (R248, R249). -/
def execWait (x : Fin 1024) (i : Nat) (flag : FlagSeen) (s : State) : Host.Outcome State Fault Refusal :=
  .next (s.begins x i (· == 0x03) (fun c s =>
    let d := dSpec c.bytes 16
    if 3 ≤ dF c.bytes 8 1 ∨ badFlag d then s.complete x i 0x0001 0
    else
      let e := if dF c.bytes 8 1 = 2 then none else some (s.pickEngine x (d.kind == 0) d)
      (s.modCopy x i (fun k => { k with eng := e })).judgeWait x c flag))

/-- WAIT_POLL (R249). -/
def execWaitPoll (x : Fin 1024) (i : Nat) (flag : FlagSeen) (s : State) : Host.Outcome State Fault Refusal :=
  .next (
    match (s.ctx x).copy? i with
    | none => s
    | some c => if !c.waiting || s.pausedCtx x || s.heldFull x then s else s.judgeWait x c flag)

/-- Whether two flags are one address, for contexts of some ports. -/
def State.sameFlag (s : State) (x : Nat) (a : EndSpec) (y : Nat) (b : EndSpec) : Bool :=
  sameSpace a b && decide (a.addr = b.addr) && (decide (a.kind ≠ 0) || decide (s.portOf x = s.portOf y))

/-- The WAITs of the module on a flag that a SIGNAL has written, judged at once with the value written; what each read of the flag
meets follows what the one before it met (R249). -/
def State.wakeWaits (s : State) (x : Nat) (d : EndSpec) (b : List Byte) (dev : DevSeen) : State :=
  ((s.ctxs.flatMap (fun e => (e.2.copies.filter (fun c => c.waiting && decide (dF c.bytes 8 1 < 2) &&
    s.sameFlag x d e.1 (dSpec c.bytes 16))).map (fun c => (e.1, c)))).foldl (fun s e =>
      if s.1.pausedCtx e.1 || s.1.heldFull e.1 then s
      else (s.1.judgeWait e.1 e.2 ⟨.bytes b, s.2⟩, seenPast s.2 d.addr 8)) (s, dev)).1

/-- Whether another SIGNAL writes the same flag now: SIGNALs to one address act one after the other (R249). -/
def State.signalBusy (s : State) (x : Nat) (d : EndSpec) : Bool :=
  s.xfers.any (fun t => match t.role with
    | .desc i => (match (s.ctx t.ctx).copy? i with
      | some c => dOp c.bytes == 0x04 && s.sameFlag x d t.ctx t.dst
      | none => false)
    | .sig _ => s.sameFlag x d t.ctx t.dst
    | .arm _ _ _ _ => false)

/-- A write of few bytes begun by an engine. -/
def State.putBegins (s : State) (x : Nat) (r : Role) (d : EndSpec) (b : List Byte) : State :=
  s.startXfer x r (s.pickEngine x (d.kind == 0) d) { d with kind := 1 } d (.result b) [] s.timer 0 false none

/-- A SIGNAL's bytes `put`: `again` where its flag cannot be read yet, `fails` with the rank of a read that fails (R249). -/
def State.signalTo (s : State) (x i : Nat) (d : BitVec 512) (seen : FlagSeen) (put : List Byte → State → State)
    (again : State → State) (fails : Nat → State → State) : State :=
  let f := dSpec d 16
  let v := dF d 32 8
  if dF d 8 1 = 0 then put (natBytes v 8) s
  else s.withRead x i f 8 again (fun s =>
    let q := s.flagRead x i f seen
    match q.2 with
    | none => again q.1
    | some (rank, flag) => if rank ≠ 7 then fails rank q.1 else put (natBytes ((flag + v) % 2 ^ 64) 8) q.1)

/-- A SIGNAL that is no member: its write begins. -/
def State.signal (s : State) (x : Nat) (c : Copy) (seen : FlagSeen) : State :=
  s.signalTo x c.id c.bytes seen (fun b s => s.putBegins x (.desc c.id) (dSpec c.bytes 16) b) (·.notBegun x c.id)
    (fun rank s => s.complete x c.id (rankStatus rank) 0)

/-- SIGNAL (R237, R241, R248, R249, R260). -/
def execSignal (x : Fin 1024) (i : Nat) (flag : FlagSeen) (s : State) : Host.Outcome State Fault Refusal :=
  .next (
    match (s.ctx x).copy? i with
    | none => s
    | some c =>
      if s.signalBusy x (dSpec c.bytes 16) then s
      else s.beginsLast x i (· == 0x04) (fun c s =>
        if 2 ≤ dF c.bytes 8 1 ∨ badFlag (dSpec c.bytes 16) then s.complete x i 0x0001 0
        else if !s.rangeOk x (dSpec c.bytes 16) 8 then s.complete x i 0x0102 0
        else if dMember c.bytes then
          (let r := s.stageAct x (c.grp.getD 0) i c.bytes
           r.1.complete x i (if r.2 = 0 then 0x0202 else 0) 0)
        else s.signal x c flag))

/-! ## FENCE, TIMESTAMP, NOP (R241, R247, R248) -/

/-- Whether the stream arms that a FENCE waits for have completed. -/
def State.armsDone (s : State) (x : Nat) (l : List (Nat × Nat)) : Bool :=
  l.all (fun e => match (s.ctx x).streamOf e.1 with
    | some q => decide ((q.2.served + 2 ^ 32 - e.2 % 2 ^ 32) % 2 ^ 32 < 2 ^ 31)
    | none => !s.xfers.any (fun t => decide (t.ctx = x) && (match t.role with
      | .arm id _ _ _ => id == e.1
      | .desc _ => false
      | .sig _ => false)))

/-- FENCE (R241, R248). -/
def execFence (x : Fin 1024) (i : Nat) (s : State) : Host.Outcome State Fault Refusal :=
  .next (
    match (s.ctx x).copy? i with
    | none => s
    | some c =>
      if dF c.bytes 8 1 % 2 = 1 ∧ s.armsDone x c.armsBefore = false then s
      else s.beginsLast x i (· == 0x0D) (fun _ s => s.complete x i 0 0))

/-- A member TIMESTAMP: the timer is read and staged as it completes (R260). -/
def State.stampMember (s : State) (x : Nat) (c : Copy) (d : EndSpec) : State :=
  let act (s : State) : State :=
    let r := s.stageSpan x (c.grp.getD 0) c.id d d.addr (natBytes (s.timer % 2 ^ 48) 8)
    r.1.complete x c.id (xferStatus r.2) 0
  if d.kind = 0 then s.withHost x c.id d.addr 8 d.pasid? true (·.notBegun x c.id) act
  else if d.addr < 2 ^ 44 ∧ s.hbmWaits (d.addr / 4096 * 4096) 8192 then s.notBegun x c.id
  else act s

/-- TIMESTAMP (R241, R248, R260). -/
def execTimestamp (x : Fin 1024) (i : Nat) (s : State) : Host.Outcome State Fault Refusal :=
  .next (s.beginsLast x i (· == 0x0E) (fun c s =>
    let d := dSpec c.bytes 16
    if dF c.bytes 8 1 % 2 = 0 then s.complete x i 0 0
    else if dMember c.bytes ∧ noMemberDst d then s.complete x i 0x0001 0
    else if !s.rangeOk x d 8 then s.complete x i 0x0102 0
    else if dMember c.bytes then s.stampMember x c d
    else s.putBegins x (.desc i) d (natBytes (s.timer % 2 ^ 48) 8)))

/-- DESC_NOP (R247, R248): a NOP, and a descriptor whose OP is reserved. -/
def execDescNop (x : Fin 1024) (i : Nat) (s : State) : Host.Outcome State Fault Refusal :=
  .next (s.begins x i (fun op => op == 0 || decide (0x0F ≤ op)) (fun c s =>
    s.complete x i (if dOp c.bytes = 0 then 0 else 0x0001) 0))

/-! ## The Fix operations (R259, R269) -/

/-- FIX_OPEN (R259): refused inside an open group. -/
def execFixOpen (x : Fin 1024) (i : Nat) (s : State) : Host.Outcome State Fault Refusal :=
  .next (s.begins x i (· == 0x05) (fun c s => s.complete x i (if c.grp.isSome then 0 else 0x0001) 0))

/-- The end of a descriptor that closed a group which has aborted. -/
def State.closeAborted (s : State) (x i : Nat) (q : Grp) : State := (s.finishCopy x i q.abortStatus 0 true).dropAborted x

/-- FIX_CLOSE (R259, R266, R269): it stays in service until its group is published or aborts. -/
def execFixClose (x : Fin 1024) (i : Nat) (s : State) : Host.Outcome State Fault Refusal :=
  .next (s.begins x i (· == 0x06) (fun c s =>
    match c.grp with
    | none => s.complete x i 0x0001 0
    | some g => match (s.ctx x).grp? g with
      | some q => if q.st = .aborted then s.closeAborted x i q else s
      | none => s.finishCopy x i 0x0201 0 true))

/-- FIX_ABORT (R259, R269). -/
def execFixAbort (x : Fin 1024) (i : Nat) (s : State) : Host.Outcome State Fault Refusal :=
  .next (s.begins x i (· == 0x07) (fun c s =>
    match c.grp with
    | none => s.complete x i 0x0001 0
    | some g => match (s.ctx x).grp? g with
      | some q => s.closeAborted x i q
      | none => s.finishCopy x i 0x0201 0 true))

/-! ## Windows (R203 to R205, R377): a WINDOW waits while no second processor of D0 has agreed to the copy for the gateways. -/

/-- Window entries of the module. -/
def windowCount : Nat := 4096

/-- Entries in use that satisfy a test. -/
def State.windows (s : State) (p : Nat → Bool) : List Nat :=
  (List.range windowCount).filter (fun w => s.regB .XFR_WIN_VALID w && p w)

/-- The entry of a context's handle. -/
def State.windowOf (s : State) (x h : Nat) : Option Nat :=
  (s.windows (fun w => s.reg .XFR_WIN_CTX w == x && s.reg .XFR_WIN_HANDLE w == h)).head?

/-- A window's range. -/
def State.windowRange (s : State) (w : Nat) : Nat × Nat := (s.reg .XFR_WIN_BASE w, s.reg .XFR_WIN_SIZE w * 4096)

/-- A context's cores as ranges of device addresses. -/
def State.coreRanges (s : State) (x : Nat) : List (Nat × Nat) := (s.blocks x).map (fun b => (2 ^ 44 + b.1 * 4096, b.2 * 4096))

/-- Whether a window may cover a range (R204). -/
def State.windowOk (s : State) (x base size : Nat) : Bool :=
  decide (base % 4096 = 0) && decide (size ≠ 0) &&
    ((decide (2 ^ 44 ≤ base) && coveredBy (s.coreRanges x) base size 9) || s.hbmAllowed x base size) &&
    (s.windows (fun w => s.reg .XFR_WIN_CTX w != x && meets (s.windowRange w) (base, size))).isEmpty

/-- XFR_WIN_STAT.OPEN counted anew. -/
def State.countWindows (s : State) : State := s.setReg .XFR_WIN_STAT_OPEN 0 (s.windows (fun _ => true)).length

/-- A window put in an entry. -/
def State.putWindow (s : State) (w x : Nat) (d : BitVec 512) : State :=
  let s := ((s.setReg .XFR_WIN_BASE w (dF d 16 8 % 2 ^ 48)).setReg .XFR_WIN_SIZE w (dF d 24 4 % 2 ^ 28)).setReg .XFR_WIN_SRC_PKG w (dF d 28 2)
  let s := ((s.setReg .XFR_WIN_SRC_MASK w (dF d 30 2)).setReg .XFR_WIN_CTX w x).setReg .XFR_WIN_RD w (dF d 11 1 % 2)
  (((s.setReg .XFR_WIN_WR w (natBits (dF d 11 1) 1 1)).setReg .XFR_WIN_VALID w 1).setReg .XFR_WIN_HANDLE w (dF d 8 2 % 4096)).countWindows

/-- An entry freed. -/
def State.dropWindow (s : State) (w : Nat) : State :=
  ([Fld.XFR_WIN_BASE, .XFR_WIN_SIZE, .XFR_WIN_SRC_PKG, .XFR_WIN_SRC_MASK, .XFR_WIN_CTX, .XFR_WIN_RD, .XFR_WIN_WR,
    .XFR_WIN_VALID, .XFR_WIN_HANDLE].foldl (fun s f => s.setReg f w 0) s).countWindows

/-- The windows of a context closed (R130, R205). -/
def State.closeWindows (s : State) (x : Nat) : State :=
  (s.windows (fun w => s.reg .XFR_WIN_CTX w == x)).foldl State.dropWindow s

/-- WINDOW_OPEN (R203, R204, R248): a WOP that is refused completes here. -/
def execWindowOpen (x : Fin 1024) (i : Nat) (s : State) : Host.Outcome State Fault Refusal :=
  .next (if !s.agreed 0 3 then s else s.beginsIf x i 0x08 (fun d => dF d 10 1 != 1) (fun c s =>
    let d := c.bytes
    if 2 ≤ dF d 10 1 then s.complete x i 0x0001 0
    else if !s.windowOk x (dF d 16 8 % 2 ^ 48) (dF d 24 4 % 2 ^ 28 * 4096) then s.complete x i 0x0102 0
    else match s.windowOf x (dF d 8 2 % 4096) with
      | some w => (s.putWindow w x d).complete x i 0 0
      | none => match (List.range windowCount).find? (fun w => !s.regB .XFR_WIN_VALID w) with
        | some w => (s.putWindow w x d).complete x i 0 0
        | none => (s.bump .XFR_WIN_STAT_FULL 0).complete x i 0x0103 0))

/-- WINDOW_CLOSE (R205). -/
def execWindowClose (x : Fin 1024) (i : Nat) (s : State) : Host.Outcome State Fault Refusal :=
  .next (if !s.agreed 0 3 then s else s.beginsIf x i 0x08 (fun d => dF d 10 1 == 1) (fun c s =>
    match s.windowOf x (dF c.bytes 8 2 % 4096) with
    | some w => (s.dropWindow w).complete x i 0 0
    | none => s.complete x i 0 0))

/-! ## REDUCE (R207 to R209) -/

/-- Whether a REDUCE holds a refused value (R248). -/
def badReduce (d : BitVec 512) : Bool :=
  let lf := dF d 13 1
  let len := dF d 48 4
  notHostDev (dSpec d 16) || decide (dF d 12 1 % 4 = 3) || decide (lf < 2) || decide (7 ≤ lf) || decide (7 ≤ dF d 14 1) ||
    decide (len = 0) || decide (len % 16 ≠ 0) || decide (len % elemBytes lf ≠ 0) || decide (dF d 52 2 < 2) || decide (256 < dF d 52 2)

/-- A REDUCE whose table has been read: its links are read as a transfer; the rules of a transfer hold for each link and the
destination (R192, R208, R209, R242). -/
def State.reduceLinks (s : State) (x : Nat) (c : Copy) (links : List EndSpec) : State :=
  let d := c.bytes
  let dst := dSpec d 32
  let op : RedOp := ⟨dF d 13 1, dF d 14 1, dF d 12 1 % 4, dF d 48 4, natBits (dF d 12 1) 2 1 == 1⟩
  let out := op.len / elemBytes op.lf * elemBytes op.rf
  if !links.all (fun l => s.rangeOk x l op.len && !overlap l op.len dst out) || !s.rangeOk x dst out then
    s.complete x c.id 0x0102 0
  else
    let host := dst.kind == 0 || (dSpec d 16).kind == 0 || links.any (fun l => l.kind == 0)
    s.startXfer x (.desc c.id) (s.pickEngine x host dst) (links.headD dst) dst (.reduce op (links.map (fun l => (l, s.egressOf l))) []) []
      (s.eligAt c) (realTime d) c.late c.stagesIn

/-- REDUCE (R207 to R209, R237, R248, R260): `table` is the chain table where host memory holds it. -/
def execReduce (x : Fin 1024) (i : Nat) (table : FlagSeen) (s : State) : Host.Outcome State Fault Refusal :=
  .next (s.begins x i (· == 0x0A) (fun c s =>
    let d := c.bytes
    let t := dSpec d 16
    let n := dF d 52 2
    if badReduce d ∨ (dMember d ∧ noMemberDst (dSpec d 32)) then s.complete x i 0x0001 0
    else if !s.rangeOk x t (16 * n) then s.complete x i 0x0102 0
    else s.withBytes x i t (16 * n) table (·.notBegun x i) (fun s rank b =>
      if rank ≠ 7 then s.complete x i (rankStatus rank) 0
      else s.reduceLinks x c ((chunks 16 n b).map (fun b => specOf (bytesNat b))))))

end Sys2Proof.Machine
end

