-- ==== Sys2Proof/Machine/Logbook.lean ====
section
/-! DEFINITION. Passes and the Logbook (R108, R149, R250, R272 to R281, R436), publication of Fix groups (R266 to R270), and
the answers that reach engines (R158, R194, R195). -/

namespace Sys2Proof.Machine

/-! ## Core sets (R139, R250) -/

/-- The addresses that match a base in the unmasked bits below bit `n`, ascending. -/
def setBelow (base mask : Nat) : Nat → List Nat
  | 0 => [0]
  | n + 1 =>
    let tops := if mask.testBit n then [0, 1] else [if base.testBit n then 1 else 0]
    tops.flatMap (fun h => (setBelow base mask n).map (fun r => h * 2 ^ n + r))

/-- The addresses of a core set, absent ones included. -/
def setCores (base mask : Nat) : List Nat := setBelow base mask 20

/-- Whether an address matches a base in the unmasked bits. -/
def inSet (base mask c : Nat) : Bool := (List.range 20).all (fun i => mask.testBit i || (base.testBit i == c.testBit i))

/-- The present cores of a pass's set. -/
def State.passCores (s : State) (p : Pass) : List Nat := (setCores p.cset p.cmask).filter (fun c => !s.absent c)

/-! ## The program image (R108, R149, R436) -/

/-- Bytes of the words of an image of length L, padded to 16. -/
def wordBytes (l : Nat) : Nat := 16 * ((l + 3) / 4)

/-- Whether bytes are all zero. -/
def allZero (b : List Byte) : Bool := b.all (· == 0)

/-- Bytes of an image, as its headers give them. -/
def State.imageLen (s : State) (a : Nat) : Nat :=
  let l := bF (s.hbmBytes a 16) 0 2
  32 + wordBytes l + 32 * bF (s.hbmBytes (a + 16 + wordBytes l) 16) 0 2

/-- Whether a stack that holds an image keeps its reader waiting. -/
def State.imageWaits (s : State) (a : Nat) : Bool := decide (a < s.hbmTop) && s.hbmWaits a (s.imageLen a)

/-- Why an image is not loaded: a status; none where it is sound. `dev` is what its reads meet. -/
def State.imageBad (s : State) (x a : Nat) (dev : DevSeen) : State × Option Nat :=
  let h := s.devBytes x a 16 dev
  if 2 ^ 44 ≤ a then (s, some 0x0102)
  else if h.2.1 ≠ 7 then (h.1, some (rankStatus h.2.1))
  else
    let l := bF h.2.2 0 2
    if l = 0 ∨ 256 < l ∨ !allZero (h.2.2.drop 2) then (h.1, some 0x0001)
    else
      let dev := seenPast dev a 16
      let r := h.1.devBytes x (a + 16 + wordBytes l) 16 dev
      if r.2.1 ≠ 7 then (r.1, some (rankStatus r.2.1))
      else if 32 < bF r.2.2 2 1 ∨ !allZero (r.2.2.drop 3) then (r.1, some 0x0001)
      else
        let w := r.1.devBytes x a (32 + wordBytes l + 32 * bF r.2.2 0 2) (seenPast dev (a + 16 + wordBytes l) 16)
        (w.1, if w.2.1 = 7 then none else some (rankStatus w.2.1))

/-- The packets of an image for a set, before the START: instruction blocks, then route records (R108, R149). -/
def State.programPkts (s : State) (w : Sender) (p : Pass) : List Packet :=
  let a := p.image
  let l := bF (s.hbmBytes a 16) 0 2
  let words := (s.hbmBytes (a + 16) (4 * l))
  let rt := a + 16 + wordBytes l
  let up (base mask : Nat) : BitVec 4 := BitVec.ofNat 4 (min (coverSet p.half base mask) s.rootLevel)
  let pkt (cmd : BitVec 8) (base mask sel : Nat) (data : List Unit16) : Packet :=
    { s.mkPkt w.ep (.core (BitVec.ofNat 20 base)) cmd w.ctx w.tag data with
      up := up base mask, var := BitVec.ofNat 32 (sel + 256 * mask) }
  let blocks := (List.range ((l + 63) / 64)).map (fun k =>
    pkt cIBUF p.cset p.cmask k (unitsOf ((List.range 256).map (fun i => (words.drop (256 * k)).getD i 0))))
  let recs := (List.range (bF (s.hbmBytes rt 16) 0 2)).filterMap (fun j =>
    let b := s.hbmBytes (rt + 16 + 32 * j) 32
    let base := bF b 20 4 % 2 ^ 20
    let mask := bF b 24 4 % 2 ^ 20
    let meet := (List.range 20).all (fun i => mask.testBit i || p.cmask.testBit i || (base.testBit i == p.cset.testBit i))
    let bits := (List.range 20).map (fun i =>
      if mask.testBit i then (if p.cset.testBit i then 2 ^ i else 0) else (if base.testBit i then 2 ^ i else 0))
    if meet then some (pkt cROUTE bits.sum (mask &&& p.cmask) (bF b 16 1 % 32) [BitVec.ofNat 128 (bF b 0 16)]) else none)
  blocks ++ recs

/-- How many cores a START is answered for: the present ones of a set, or the one address of a set of one (R140). -/
def State.startCount (s : State) (p : Pass) : Nat := if p.cmask % 2 ^ 20 = 0 then 1 else (s.passCores p).length

/-- The START of a run, for the whole set (R108, R143, R160). -/
def State.startPkt (s : State) (w : Sender) (p : Pass) : Packet :=
  let l := bF (s.hbmBytes p.image 16) 0 2
  let routes := bF (s.hbmBytes (p.image + 16 + wordBytes l) 16) 2 1
  { s.mkPkt w.ep (.core (BitVec.ofNat 20 p.cset)) cSTART w.ctx w.tag [] with
    up := BitVec.ofNat 4 (min (coverSet p.half p.cset p.cmask) s.rootLevel), var := BitVec.ofNat 32 (l - 1 + 256 * (p.cmask % 2 ^ 20)),
    routes := BitVec.ofNat 6 routes, ack := true }

/-- The image and the START of a run sent: the program packets under the tag after the run's, the START under the run's
(DESIGN CHOICE, log 31). -/
def State.sendImage (s : State) (x : Nat) (p : Pass) : State :=
  let run := s.nextId
  let s := { s with nextId := run + 2 }
  let w : Sender := ⟨x, p.half, p.eng, run % 2 ^ 14, none⟩
  let v : Sender := ⟨x, p.half, p.eng, (run + 1) % 2 ^ 14, none⟩
  let n := s.startCount p
  let s := s.modPass x p.id (fun q =>
    { q with st := .sent, tag := run, expect := n, accepted := 0, refused := 0, done := 0, absAns := 0, rank := 7, faults := [] })
  (s.sendAll v (s.programPkts v p)).sendAll w [s.startPkt w p]

/-! ## Input entries (R273, R274) -/

/-- KIND. -/
def inKind (e : List Byte) : Nat := bF e 12 1
/-- ADDR. -/
def inAddr (e : List Byte) : Nat := bF e 0 8 % 2 ^ 48
/-- LEN. -/
def inLen (e : List Byte) : Nat := bF e 8 4
/-- NROW. -/
def inRows (e : List Byte) : Nat := bF e 14 1
/-- RF bit `b`. -/
def inRf (e : List Byte) (b : Nat) : Bool := natBits (bF e 15 1) b 1 == 1
/-- STAMPADDR. -/
def inStamp (e : List Byte) : Nat := bF e 16 8
/-- Whether the range lies in scratchpads. -/
def inScratch (e : List Byte) : Bool := inRf e 1 || isScratch (inAddr e)

/-- An entry that no LAUNCH may carry. -/
def badInput (e : List Byte) : Bool :=
  decide (3 ≤ inKind e) || (decide (inKind e < 2) && inRf e 1 && decide (4096 < inAddr e % 4096 + inLen e))

/-- CRC-64 of R274: one bit, the polynomial without reflection. -/
def crcBit (c : BitVec 64) (b : Bool) : BitVec 64 :=
  let top := c.getLsbD 63 != b
  let d := c <<< 1
  if top then d ^^^ 0x42F0E1EBA9EA3693 else d

/-- One byte, its high bit first. -/
def crcByte (c : BitVec 64) (b : Byte) : BitVec 64 :=
  crcBit (crcBit (crcBit (crcBit (crcBit (crcBit (crcBit (crcBit c (b.getLsbD 7)) (b.getLsbD 6)) (b.getLsbD 5)) (b.getLsbD 4))
    (b.getLsbD 3)) (b.getLsbD 2)) (b.getLsbD 1)) (b.getLsbD 0)

/-- The CRC of a string of bytes, from 0. -/
def crc64 (b : List Byte) : BitVec 64 := b.foldl crcByte 0

/-- The ranges that an entry's capture reads: what a DIGEST covers, or the version word. -/
def State.captured (s : State) (p : Pass) (e : List Byte) : List (Nat × Nat) :=
  if inKind e = 1 then
    (if inRf e 1 then (s.passCores p).map (fun c => (2 ^ 44 + c * 4096 + inAddr e % 4096, inLen e)) else [(inAddr e, inLen e)])
  else if inStamp e = 0 then []
  else [(inStamp e, 8)]

/-- Whether a range of device memory cannot be read yet. -/
def State.rangeWaits (s : State) (r : Nat × Nat) : Bool := s.devWaits (recSpec false false false) r.1 r.2

/-- Ranges read one after the other: what is left of what the reads meet, the rank, or `heldRank` where the arbiter holds one, and
the bytes. -/
def State.readRanges (s : State) (x : Nat) : List (Nat × Nat) → DevSeen → State × DevSeen × Nat × List Byte
  | [], dev => (s, dev, 7, [])
  | (a, n) :: r, dev =>
    let q := s.devBytes x a n dev
    if q.2.1 = heldRank then (q.1, dev, heldRank, [])
    else
      let t := State.readRanges q.1 x r (seenPast dev a n)
      (t.1, t.2.1, if t.2.2.1 = heldRank then heldRank else min q.2.1 t.2.2.1, q.2.2 ++ t.2.2.2)

/-- CAPTURE of an entry: what is left of what the reads meet, the rank of its read, and the value. -/
def State.captureOf (s : State) (x : Nat) (p : Pass) (e : List Byte) (dev : DevSeen) : State × DevSeen × Nat × Nat :=
  let r := s.readRanges x (s.captured p e) dev
  (r.1, r.2.1, r.2.2.1, if inKind e = 1 then (crc64 r.2.2.2).toNat else bytesNat r.2.2.2)

/-- An entry with its CAPTURE filled. -/
def withCapture (e : List Byte) (v : Nat) : List Byte := e.take 24 ++ natBytes v 8

/-- Whether an entry's addresses obey R237: HBM inside the areas, scratchpads of cores that the context holds. -/
def State.inputOk (s : State) (x : Nat) (p : Pass) (e : List Byte) : Bool :=
  let n := (setCores p.cset p.cmask).length
  (if inKind e = 2 then s.hbmAllowed x (inAddr e) (64 * inRows e * n)
   else if inRf e 1 then (s.passCores p).all (s.inBlocks x)
   else if isScratch (inAddr e) then (unitsIn 4096 (inAddr e - 2 ^ 44) (inLen e)).all (s.inBlocks x)
   else s.hbmAllowed x (inAddr e) (inLen e)) &&
  (decide (inKind e = 1) || decide (inStamp e = 0) || s.hbmAllowed x (inStamp e) 8)

/-! ## Pass records (R273) -/

/-- Bytes of the Logbook region. -/
def State.logSize (s : State) (x : Nat) : Nat := s.reg .CTX_AREA_LOG_SIZE x * 2 ^ 20

/-- Bytes of a record of `n` entries. -/
def recLen (n : Nat) : Nat := 64 + 32 * n

/-- Bytes of the region in use: from the oldest record that has not retired up to the tail. -/
def State.logUsed (s : State) (x : Nat) : Nat :=
  match (s.ctx x).passes.find? (fun p => p.log.isSome) with
  | some p =>
    let pos := match p.log with
      | some l => l.2
      | none => 0
    let n := s.logSize x
    let d := (((s.ctx x).logTail + n) - pos) % n
    if d = 0 then n else d
  | none => 0

/-- Bytes written into the region at a place, around its end. -/
def State.logPut (s : State) (x pos : Nat) (b : List Byte) : State :=
  let base := areaBase (s.reg .CTX_AREA_LOG_BASE x)
  let k := min b.length (s.logSize x - pos)
  (s.hbmPut (base + pos) (b.take k)).hbmPut base (b.drop k)

/-- Whether a stack that holds the Logbook region keeps its writer waiting. -/
def State.logBusy (s : State) (x : Nat) : Bool := s.hbmWaits (areaBase (s.reg .CTX_AREA_LOG_BASE x)) (s.logSize x)

/-- One byte of a covered pass's record. -/
def State.logByte (s : State) (x : Nat) (p : Pass) (off v : Nat) : State :=
  match p.log with
  | some (_, pos) => s.logPut x ((pos + off) % s.logSize x) (natBytes v 1)
  | none => s

/-- The record of a pass. -/
def Pass.record (p : Pass) (lseq seq : Nat) : List Byte :=
  natBytes lseq 6 ++ natBytes 0 1 ++ natBytes p.run 1 ++ natBytes seq 4 ++ natBytes p.inputs.length 4 ++ natBytes p.image 8 ++
    natBytes p.cset 4 ++ natBytes p.cmask 4 ++ natBytes 0 32 ++ p.inputs.flatten

/-- Whether the mode covers a LAUNCH (R272). -/
def State.covers (s : State) (c : Copy) : Bool :=
  s.reg .PKG_LOG_MODE_MODE 0 == 2 || (s.reg .PKG_LOG_MODE_MODE 0 == 1 && dMember c.bytes)

/-! ## LAUNCH (R250, R272 to R274) -/

/-- A pass as a LAUNCH makes it. -/
def State.newPass (s : State) (c : Copy) : Pass :=
  let cset := dF c.bytes 24 4 % 2 ^ 20
  let cmask := dF c.bytes 28 4 % 2 ^ 20
  let h := (cset &&& (2 ^ 20 - 1 - cmask)) / 65536
  let e := s.leastOf (hubEngines h) (h, 0)
  { id := s.nextId, copy := c.id, st := if s.covers c then .waitsLog else .waitsCores, half := e.1, eng := e.2, cset := cset,
    cmask := cmask, image := dF c.bytes 16 8, log := none, inputs := [], run := 1, tag := s.nextId, expect := 0, accepted := 0,
    refused := 0, done := 0, absAns := 0, rank := 7, faults := [], toReplay := false, replayed := false, t0 := s.eligAt c,
    deadline := realTime c.bytes, late := c.late }

/-- The input entries of a covered LAUNCH as read from its list, or the status that refuses them. -/
def State.readInputs (s : State) (x : Nat) (c : Copy) (p : Pass) (dev : DevSeen) : State × Except Nat (List (List Byte)) :=
  let n := dF c.bytes 40 2
  if n = 0 then (s, .ok [])
  else if 2 ^ 44 ≤ dF c.bytes 32 8 then (s, .error 0x0102)
  else
    let r := s.devBytes x (dF c.bytes 32 8) (32 * n) dev
    let l := chunks 32 n r.2.2
    (r.1, if r.2.1 ≠ 7 then .error (rankStatus r.2.1)
      else if l.any badInput then .error 0x0001
      else if !l.all (s.inputOk x p) then .error 0x0102
      else .ok l)

/-- The entries with their captures, or the status of the first whose read fails; 0 stands for one that the arbiter holds. -/
def State.capture (s : State) (x : Nat) (p : Pass) : List (List Byte) → DevSeen → State × Except Nat (List (List Byte))
  | [], _ => (s, .ok [])
  | e :: r, dev =>
    let v := s.captureOf x p e dev
    if v.2.2.1 = heldRank then (v.1, .error 0)
    else if v.2.2.1 ≠ 7 then (v.1, .error (rankStatus v.2.2.1))
    else
      let t := v.1.capture x p r v.2.1
      (t.1, match t.2 with
        | .ok l => .ok (withCapture e v.2.2.2 :: l)
        | .error st => .error st)

/-- A pass that loads nothing leaves its context's list, its descriptor completed. -/
def State.dropPass (s : State) (x : Nat) (p : Pass) (status : Nat) : State :=
  (s.modCtx x (fun t => { t with passes := t.passes.filter (fun q => q.id != p.id) })).complete x p.copy status 0

/-- Whether a core of an earlier pass has halted, or has stopped, after it was loaded for that pass (R110). -/
def State.coreEnded (s : State) (q : Pass) (c : Nat) : Bool :=
  let k := s.core c
  s.absent c || ((match k.startInfo with
    | some i => i.tag.toNat % 2 ^ 14 == q.tag % 2 ^ 14
    | none => false) && (match k.run with
    | .running => false
    | .quiet => false
    | _ => true))

/-- Whether a core runs, or has been stopped while it ran, for a context. -/
def State.runsFor (s : State) (x c : Nat) : Bool :=
  let k := s.core c
  (match k.startInfo with
   | some i => i.ctx.toNat == x
   | none => false) && (match k.run with
   | .running => true
   | .quiet => true
   | _ => false)

/-- The cores that the sets of two passes share. -/
def Pass.shares (p q : Pass) : List Nat := (setCores p.cset p.cmask).filter (fun c => inSet q.cset q.cmask c)

/-- Whether the image of a pass may be sent: no core of its set still has to run for an earlier pass of the context, has a START of an
abandoned run on its way, or runs (R110). -/
def State.mayLoad (s : State) (x : Nat) (p : Pass) : Bool :=
  (s.ctx x).ended.all (fun q => (p.shares q).isEmpty) && !(s.passCores p).any (s.runsFor x) && ((s.ctx x).passes.takeWhile (fun q => q.id != p.id)).all (fun q =>
    let both := p.shares q
    both.isEmpty || (q.st == .sent && q.faults.isEmpty && !q.toReplay && both.all (s.coreEnded q)))

/-- A byte of a record, where the pass has one. -/
def State.refusePass (s : State) (x : Nat) (p : Pass) (status : Nat) : State := (s.logByte x p 6 3).dropPass x p status

/-- A pass goes on to its cores once it may. An image that has not been read in this command is read again, and a pass whose image is
no longer sound loads nothing: its LAUNCH completes with the status, its record lost (R436; DESIGN CHOICE, log 31). -/
def State.loadPass (s : State) (x id : Nat) (again : Option DevSeen) : State :=
  match (s.ctx x).passes.find? (fun q => q.id == id) with
  | none => s
  | some p =>
    if p.st = .waitsCores ∧ s.mayLoad x p ∧ !s.imageWaits p.image then
      (match again with
       | none => s.sendImage x p
       | some dev =>
         let b := s.imageBad x p.image dev
         match b.2 with
         | none => b.1.sendImage x p
         | some st => b.1.refusePass x p st)
    else s

/-- Whether a LAUNCH in service cannot write its record yet: an earlier one waits, there is no room for it, or what it reads and
writes cannot be reached yet (R273). -/
def State.logWaits (s : State) (x : Nat) (p : Pass) : Bool :=
  ((s.ctx x).passes.takeWhile (fun q => q.id != p.id)).any (fun q => q.st == .waitsLog) ||
    decide (s.logSize x < s.logUsed x + recLen p.inputs.length) || s.logBusy x ||
    (p.inputs.flatMap (s.captured p)).any s.rangeWaits

/-- The record of a covered pass written, with what it captures (R273, R274). -/
def State.recordPass (s : State) (x : Nat) (p : Pass) (dev : DevSeen) : State :=
  let r := s.capture x p p.inputs dev
  match r.2 with
  | .error 0 => r.1
  | .error st => r.1.dropPass x p st
  | .ok l =>
    let s := r.1
    let lseq := s.reg .CTX_LOG_NEXT_LSEQ x
    let pos := (s.ctx x).logTail
    let q := { p with inputs := l, log := some (lseq, pos), st := PassSt.waitsCores }
    let seq := match (s.ctx x).copy? p.copy with
      | some c => dSeq c.bytes
      | none => 0
    let s := (s.wrapInc .CTX_LOG_NEXT_LSEQ x).logPut x pos (q.record lseq seq)
    (s.modPass x p.id (fun _ => q)).modCtx x (fun t => { t with logTail := (pos + recLen l.length) % s.logSize x })

/-- What the captures of a covered pass's inputs leave of what reads meet. -/
def State.pastCaptures (s : State) (p : Pass) (dev : DevSeen) : DevSeen :=
  (p.inputs.flatMap (s.captured p)).foldl (fun d r => seenPast d r.1 r.2) dev

/-- A LAUNCH in service goes on as far as it can: `dev` is what its captures meet, and then the reads of its image where `again`. -/
def State.passGo (s : State) (x id : Nat) (again : Bool) (dev : DevSeen) : State :=
  if s.pausedCtx x then s
  else match (s.ctx x).passes.find? (fun q => q.id == id) with
    | none => s
    | some p => match p.st with
      | .sent => s
      | .waitsCores => s.loadPass x id (if again then some dev else none)
      | .waitsLog =>
        if s.logWaits x p then s
        else (s.recordPass x p dev).loadPass x id (if again then some (s.pastCaptures p dev) else none)

/-- What the reads of an image leave of what reads meet. -/
def State.pastImage (s : State) (a : Nat) (dev : DevSeen) : DevSeen :=
  seenPast (seenPast (seenPast dev a 16) (a + 16 + wordBytes (bF (s.hbmBytes a 16) 0 2)) 16) a (s.imageLen a)

/-- A LAUNCH that begins: its image and its input list are checked, and it is in service. `dev` is what the reads of its image, of its
list and of its captures meet. -/
def State.launch (s : State) (x : Nat) (c : Copy) (dev : DevSeen) : State :=
  let p := s.newPass c
  let b := s.imageBad x p.image dev
  match b.2 with
  | some st => b.1.complete x c.id st 0
  | none =>
    let s := b.1
    let dev := s.pastImage p.image dev
    let i := if s.covers c then s.readInputs x c p dev else (s, .ok [])
    if s.covers c ∧ s.logSize x < recLen (dF c.bytes 40 2) then s.complete x c.id 0x0001 0
    else match i.2 with
      | .error st => i.1.complete x c.id st 0
      | .ok l =>
        ({ i.1 with nextId := i.1.nextId + 1 }.modCtx x (fun t => { t with passes := t.passes ++ [{ p with inputs := l }] })).passGo x
          p.id false (seenPast dev (dF c.bytes 32 8) (32 * l.length))

/-! ## The end of a pass (R250, R278, R279) -/

/-- Whether a pass's present run has been abandoned (R277). -/
def Pass.abandoned (p : Pass) : Bool := !p.faults.isEmpty || p.toReplay

/-- Whether a pass can retire. -/
def Pass.over (p : Pass) : Bool :=
  decide (p.st = .sent) && !p.abandoned && decide (p.accepted + p.refused = p.expect) && decide (p.accepted ≤ p.done)

/-- The status of a pass that retires. -/
def Pass.status (p : Pass) : Nat :=
  let r := if p.absAns ≠ 0 then min p.rank 3 else p.rank
  let r := if p.late then min r 6 else r
  if r < 7 then rankStatus r else if p.replayed then 0x0301 else 0

/-- Whether not every START of a pass's present run has been answered. -/
def Pass.owes (p : Pass) : Bool := p.st == .sent && decide (p.accepted + p.refused < p.expect)

/-- A pass that leaves its context's list, its record in a state, its descriptor completed; the context remembers it while STARTs of
its run are on their way (R110). -/
def State.endPass (s : State) (x : Nat) (p : Pass) (recState status : Nat) : State :=
  let s := s.logByte x p 6 recState
  let s := if p.late then s.lateness x p.t0 p.deadline else s
  let s := if p.owes then s.modCtx x (fun t => { t with ended := t.ended ++ [p] }) else s
  s.dropPass x p status

/-- A miss noted for a pass whose deadline has passed. -/
def State.missPass (s : State) (x : Nat) (p : Pass) : State × Pass :=
  if p.late || !s.passed p.t0 p.deadline then (s, p) else (s.missed x, { p with late := true })

/-- A pass retired where it can be, and the held list has room (R244). -/
def State.retirePass (s : State) (x id : Nat) : State :=
  match (s.ctx x).passes.find? (fun p => p.id == id) with
  | none => s
  | some p =>
    if !p.over || s.heldFull x || s.pausedCtx x || (p.log.isSome && s.logBusy x) then s
    else
      let r := s.missPass x p
      r.1.endPass x r.2 1 r.2.status

/-- All the passes of a context that can retire. -/
def State.retirePasses (s : State) (x : Nat) : State := (s.ctx x).passes.foldl (fun s p => s.retirePass x p.id) s

/-- Whether a LAUNCH cannot read its image or its input list yet. -/
def State.launchWaits (s : State) (_x : Nat) (c : Copy) : Bool :=
  s.imageWaits (dF c.bytes 16 8) || (s.covers c && decide (dF c.bytes 32 8 < s.hbmTop) && s.hbmWaits (dF c.bytes 32 8) (32 * dF c.bytes 40 2))

/-- LAUNCH (R108, R110, R250, R272 to R274, R436): it begins, or, in service already, it goes on as far as it can: one that waits for
room, for cores, for a stack or for the arbiter goes on at its next LAUNCH command (DESIGN CHOICE, log 31). `dev` is what its reads
meet, in their order. A set with no present core has nothing to wait for. -/
def execLaunch (x : Fin 1024) (slot : SlotSeen) (s : State) : Host.Outcome State Fault Refusal :=
  .next (
    match (s.ctx x).copy? slot.i, (s.ctx x).passes.find? (fun p => p.copy == slot.i) with
    | none, _ => s
    | some _, some p => (s.passGo x p.id true slot.dev).retirePasses x
    | some c, none =>
      if s.launchWaits x c then s else s.begins x slot.i (· == 0x02) (fun c s => (s.launch x c slot.dev).retirePasses x))

/-- A pass that is not replayed (R278): what CTX_LOG_FAULT records, and the context's fault where the row gives one. -/
def State.losePass (s : State) (x : Nat) (p : Pass) (core cause reason status : Nat) (fault : Bool) : State :=
  let lseq := match p.log with
    | some l => l.1
    | none => 0
  let s := ((s.setReg .CTX_LOG_FAULT_CORE x core).setReg .CTX_LOG_FAULT_CAUSE x cause).setReg .CTX_LOG_FAULT_REASON x reason
  let s := (s.setReg .CTX_LOG_FAULT_LSEQ x lseq).bump .CTX_LOG_LOST x
  let r := s.missPass x p
  let s := r.1.endPass x r.2 3 status
  if fault then s.ctxFault x status else s

/-- Mark of a hardware fault for which the logical core has been given its spare or made absent. -/
def causeDone : Nat := 16

/-- The decision of the table Replay decision, as far as it can be made yet (R278). -/
def State.decidePass (s : State) (x id : Nat) : State :=
  match (s.ctx x).passes.find? (fun p => p.id == id) with
  | none => s
  | some p =>
    match p.faults with
    | [] => s
    | f :: _ =>
      if p.log.isSome && s.logBusy x then s
      else match p.faults.find? (fun e => decide (5 ≤ e.2 % 16)) with
      | some e => s.losePass x p e.1 (e.2 % 16) 1 0x0302 true
      | none => match p.faults.find? (fun e => s.absent e.1) with
        | some e => s.losePass x p e.1 (e.2 % 16) 2 0x0601 false
        | none =>
          if p.faults.any (fun e => decide (e.2 < 4) || (decide (e.2 = 4) && !s.canCheck (dieOf e.1))) then s.modPass x id (fun q => { q with toReplay := false })
          else if p.log.isNone then s.losePass x p f.1 (f.2 % 16) 3 0x0302 true
          else if s.reg .PKG_LOG_MODE_MAX_REPLAY 0 + 1 ≤ p.run then s.losePass x p f.1 (f.2 % 16) 4 0x0302 true
          else s.modPass x id (fun q => { q with toReplay := true })

/-- The pass of a context that a core works for: the one whose run's START it has, or, while the context holds no cores, the one it
worked for at the pause (R112, R282). -/
def State.passOfCore (s : State) (x c : Nat) : Option Pass :=
  if (s.ctx x).holds ∧ (s.ctx x).busy ≠ .resuming then
    (match (s.core c).startInfo with
     | some i => (s.ctx x).passes.find? (fun p => inSet p.cset p.cmask c && p.st == .sent && p.tag % 2 ^ 14 == i.tag.toNat % 2 ^ 14)
     | none => none)
  else (Tbl.get? (s.ctx x).passAt c).bind (fun i => (s.ctx x).passes.find? (fun p => p.id == i))

/-- Cores of a pass's set stopped, but while its context pauses or is paused they keep what is saved (R277, R282). -/
def State.stopCores (s : State) (x : Nat) (l : List Nat) : State :=
  if (s.ctx x).busy = .pausing ∨ (s.ctx x).holds = false then s
  else l.foldl (fun s c => match (s.core c).run with
    | .faulted _ => s
    | _ => s.haltCore c) s

/-- A pass abandoned: every core of its set stops (R277). -/
def State.abandon (s : State) (x : Nat) (p : Pass) : State := s.stopCores x (s.passCores p)

/-- Cores that an abandoned run has started since: they stop too (R277). -/
def State.stopLate (s : State) (x : Nat) (p : Pass) : State :=
  s.stopCores x ((s.passCores p).filter (fun c => s.runsFor x c && (match (s.core c).startInfo with
    | some i => i.tag.toNat % 2 ^ 14 == p.tag % 2 ^ 14
    | none => false)))

/-- The faults of a pass with one more. -/
def addFault (l : List (Nat × Nat)) (c cause : Nat) : List (Nat × Nat) := if l.any (fun e => e.1 == c) then l else l ++ [(c, cause)]

/-- FAULT_REPORT (R143, R276 to R278): the report in the Helm mailbox, its source raised, the pass abandoned and decided. -/
def State.faultArrives (s : State) (h : Nat) (p : Packet) : State :=
  let c := p.src.toNat
  let cause := p.var.toNat % 16
  let die := h / 2
  let s := { s with helm := { s.helm with mailbox := Tbl.set s.helm.mailbox die (Tbl.getD s.helm.mailbox die [] ++ [p]) } }
  let s := s.raise die 0x10
  let x := p.ctx.toNat
  match s.passOfCore x c with
  | none => s
  | some q =>
    let s := s.modPass x q.id (fun q => { q with faults := addFault q.faults c cause })
    (if q.abandoned then s else s.abandon x q).decidePass x q.id

/-- FAULT_REPORT (R143, R276 to R278). -/
def execFaultReport (p : Packet) (s : State) : Host.Outcome State Fault Refusal :=
  .next (if p.cmd ≠ cFAULT then s
    else s.byTarget p (fun c => s.atCore c p (fun s => s.arrive (.core (BitVec.ofNat 20 c)) p)) (fun d t => s.tileArrival d t p)
      (fun h i =>
        if !s.standsAt (.hub h i) p then s
        else if i = 0x0D then (s.arrive (.hub h i) p).faultArrives h p
        else (s.arrive (.hub h i) p).bump .ROSE_REFUSE_STAT_ABSORBED (h / 2)))

/-- PASS_DONE at an engine (R250, R277). -/
def State.engineDone (s : State) (h e : Nat) (p : Packet) : State :=
  match s.passBy h e (p.tag.toNat % 2 ^ 14) with
  | none => s
  | some (x, id) =>
    let s := s.modPass x id (fun q => if q.abandoned || q.tag % 2 ^ 14 != p.tag.toNat % 2 ^ 14 then q
      else { q with done := q.done + tallyField p 1, absAns := q.absAns + tallyField p 0 })
    s.retirePass x id

/-- A tally-class or response packet at one of the three kinds of target; `eng` is what an engine does with it. -/
def State.atEngine (s : State) (p : Packet) (core : Nat → State → State) (eng : Nat → Nat → State → State) : State :=
  s.byTarget p (fun c => s.atCore c p (fun s => core c (s.arrive (.core (BitVec.ofNat 20 c)) p))) (fun d t => s.tileArrival d t p)
    (fun h i =>
      if !s.standsAt (.hub h i) p then s
      else if 1 ≤ i ∧ i ≤ 4 then eng h (i - 1) (s.arrive (.hub h i) p)
      else s.arrive (.hub h i) p)

/-- PASS_DONE (R145, R250, R277). -/
def execPassDone (p : Packet) (s : State) : Host.Outcome State Fault Refusal :=
  .next (if p.cmd ≠ cDONE then s else s.atEngine p (fun _ s => s) (fun h e s => s.engineDone h e p))

/-- READ_DATA (R143, R194, R195). -/
def execReadData (p : Packet) (s : State) : Host.Outcome State Fault Refusal :=
  .next (if p.cmd ≠ cRDATA then s else s.atEngine p (fun _ s => s) (fun h e s => s.engineData h e p))

/-- The run of a pass that has ended that an engine knows by a tag. -/
def State.endedBy (s : State) (half eng tag : Nat) : Option (Nat × Pass) :=
  s.ctxs.findSome? (fun e => (e.2.ended.find? (·.runsAs half eng tag)).map (fun p => (e.1, p)))

/-- An ANSWER for a run of a pass that has ended: cores that it has started stop, and it is forgotten once every START has been
answered (R110, R277). -/
def State.endedAnswer (s : State) (x : Nat) (q : Pass) (p : Packet) : State :=
  let r := q.answered p
  let left (l : List Pass) : List Pass :=
    if r.owes then mapIf (fun e => e.id == q.id) (fun _ => r) l else l.filter (fun e => e.id != q.id)
  (s.modCtx x (fun t => { t with ended := left t.ended })).stopLate x q

/-- An ANSWER for a pass: an abandoned one stops the cores that it has started since (R158, R277). -/
def State.passAnswer (s : State) (x id : Nat) (p : Packet) : State :=
  let s := s.modPass x id (·.answered p)
  match (s.ctx x).passes.find? (fun q => q.id == id) with
  | some q => if q.abandoned then s.stopLate x q else s.retirePass x id
  | none => s

/-- An ANSWER at an engine: for a transfer, a pass or a group (R158, R194). -/
def State.engineAnswer (s : State) (h e : Nat) (p : Packet) : State :=
  let tag := p.tag.toNat % 2 ^ 14
  match s.xfers.find? (fun t => t.half == h && t.eng == e && t.tag == tag) with
  | some t => (s.modXfer t.id (·.answered p)).settle t.id
  | none => match s.passBy h e tag with
    | some (x, id) => s.passAnswer x id p
    | none => match s.endedBy h e tag with
      | some (x, q) => s.endedAnswer x q p
      | none => match s.grpBy h e tag with
        | some (x, g) => s.modGrp x g (·.answered p)
        | none => s

/-- An ANSWER at a core: its refusals counted for the context (R158), and the ABS answers of the pass (R145). -/
def State.coreAnswer (s : State) (c : Nat) (p : Packet) : State :=
  let i := dieOf c * 1024 + p.ctx.toNat
  if tallyField p 0 = 0 ∧ tallyField p 2 = 0 ∧ tallyField p 3 = 0 then s
  else
    let s := ((s.bumpN .ROSE_CTX_REFUSE_ABS i (tallyField p 0)).bumpN .ROSE_CTX_REFUSE_RST i (tallyField p 2)).bumpN
      .ROSE_CTX_REFUSE_DEN i (tallyField p 3)
    (s.modCore c (fun k => { k with absSeen := k.absSeen + BitVec.ofNat 32 (tallyField p 0) })).event .CTX_EVENT_REFUSE p.ctx.toNat

/-- ANSWER (R145, R158). -/
def execAnswer (p : Packet) (s : State) : Host.Outcome State Fault Refusal :=
  .next (if p.cmd ≠ cANSWER then s
    else s.atEngine p (fun c s => s.coreAnswer c p) (fun h e s => s.engineAnswer h e p))

/-! ## TRANSFER_COMPLETE (R194, R195, R244, R249) -/

/-- The flag a SIGNAL's transfer has written, and its bytes. -/
def State.signalled (s : State) (t : Xfer) : Option (EndSpec × List Byte) :=
  match t.role, t.plan with
  | .desc i, .result b => (match (s.ctx t.ctx).copy? i with
    | some c => if dOp c.bytes = 0x04 ∧ ¬t.failed then some (t.dst, b) else none
    | none => none)
  | .sig _, .result b => if t.failed then none else some (t.dst, b)
  | _, _ => none

/-- The WAITs on a flag that a transfer has written look at it again, once (R249). -/
def State.wakeFor (s : State) (u : Xfer) (dev : DevSeen) : State :=
  if u.woke then s
  else match s.signalled u with
    | some (d, b) => (s.modXfer u.id (fun u => { u with woke := true })).wakeWaits u.ctx d b dev
    | none => s

/-- TRANSFER_COMPLETE (R194, R195, R214, R244): WAITs on a flag it has written look at it again (R249), also where its own completion has
to wait; `dev` is what their reads meet. -/
def execTransferComplete (t : SlotSeen) (s : State) : Host.Outcome State Fault Refusal :=
  .next (
    match s.xfer? t.i with
    | none => s
    | some u =>
      if !u.over then s
      else
        let s := s.wakeFor u t.dev
        if s.heldFull u.ctx || s.pausedCtx u.ctx then s
        else
          let s := s.missXfer u
          s.finishXfer ((s.xfer? t.i).getD u))

/-! ## Spares (R276, R377, R380) -/

/-- Whether a die's mailbox holds a report of a core whose logical number needs a spare: causes 1 to 3, and any hardware fault where
no second processor can check what a row's map-out writes (R276, R377, R380). -/
def State.failedCore (s : State) (c : Nat) : Bool :=
  (Tbl.getD s.helm.mailbox (dieOf c) []).any (fun p => p.src.toNat == c && decide (1 ≤ p.var.toNat % 16) &&
    (decide (p.var.toNat % 16 ≤ 3) || (decide (p.var.toNat % 16 = 4) && !s.canCheck (dieOf c))))

/-- The cause a core has been reported with. -/
def State.failCause (s : State) (c : Nat) : Nat :=
  match (Tbl.getD s.helm.mailbox (dieOf c) []).find? (fun p => p.src.toNat == c) with
  | some p => p.var.toNat % 16
  | none => 0

/-- The spare that a group gives next. -/
def State.nextSpare (s : State) (c : Nat) : Option Nat := (s.spareList (c / 1024)).head?

/-- A logical core that a spare serves from now on: a core after its Bleach (R130, R276). -/
def State.giveSpare (s : State) (c sp : Nat) : State :=
  let g := c / 1024
  let net := { s.net with mapped := Tbl.set s.net.mapped c sp }
  let helm := { s.helm with spares := Tbl.set s.helm.spares g ((s.spareList g).drop 1) }
  State.setCore { s with net := net, helm := helm } c (.withBad (s.badRows (dieOf c) (1056 * (g % 128) + sp)))

/-- A logical core that is absent from now on. -/
def State.makeAbsent (s : State) (c : Nat) : State :=
  { s with net := { s.net with absent := if s.net.absent.contains c then s.net.absent else c :: s.net.absent } }

/-- The report of a core taken out of the mailbox, and its pass decided. -/
def State.spareDone (s : State) (c : Nat) : State :=
  let die := dieOf c
  let box := (Tbl.getD s.helm.mailbox die []).filter (fun p => p.src.toNat != c)
  let s : State := { s with helm := { s.helm with mailbox := Tbl.set s.helm.mailbox die box } }
  let mark := fun (p : Pass) =>
    { p with faults := mapIf (fun f => f.1 == c && decide (f.2 < causeDone)) (fun f => (f.1, f.2 + causeDone)) p.faults }
  let hit := s.ctxs.flatMap (fun e => (e.2.passes.filter (fun p => p.faults.any (fun f => f.1 == c))).map (fun p => (e.1, p.id)))
  hit.foldl (fun s e => (s.modPass e.1 e.2 mark).decidePass e.1 e.2) s

/-- The Chart entry of a core that failed in service. -/
def State.chartCore (s : State) (c : Nat) : State :=
  s.chartAdd (dieOf c) ⟨1, true, s.physOf c, 0, 0, s.failCause c, s.startNo (dieOf c)⟩

/-- CORE_SPARE_ASSIGN (R276, R377, R380): with no second processor to check it, the core becomes absent. -/
def execCoreSpareAssign (c : CoreAddr) (agreed : Bool) (s : State) : Host.Outcome State Fault Refusal :=
  .next (
    let n := c.toNat
    if !s.failedCore n then s
    else if !s.canCheck (dieOf n) then (s.makeAbsent n).spareDone n
    else if !agreed || !s.agreed (dieOf n) 1 then s
    else match s.nextSpare n with
      | some sp => ((s.chartCore n).giveSpare n sp).spareDone n
      | none => ((s.chartCore n).makeAbsent n).spareDone n)

/-! ## REPLAY (R278, R279) -/

/-- The entries of a pass read again: whether every one can be read and equals its capture; none where the arbiter holds a read. -/
def State.inputsSame (s : State) (x : Nat) (p : Pass) : List (List Byte) → DevSeen → State × Option Bool
  | [], _ => (s, some true)
  | e :: r, dev =>
    let v := s.captureOf x p e dev
    if v.2.2.1 = heldRank then (v.1, none)
    else
      let t := v.1.inputsSame x p r v.2.1
      (t.1, t.2.map (fun b => decide (v.2.2.1 = 7) && decide (v.2.2.2 = bF e 24 8) && b))

/-- The cores that a REFILL writes at a replay, with their numbers in the set. -/
def refillCores (p : Pass) (e : List Byte) : List (Nat × Nat) :=
  ((setCores p.cset p.cmask).zipIdx).filter (fun c => inRf e 0 || p.faults.any (fun f => f.1 == c.1))

/-- Where the refill image of a core lies, and its length. -/
def refillAt (e : List Byte) (j : Nat) : Nat × Nat := (inAddr e + 64 * inRows e * j, 64 * inRows e)

/-- The refill images that a replay reads. -/
def refillImages (p : Pass) : List (Nat × Nat) :=
  (p.inputs.filter (fun e => inKind e == 2)).flatMap (fun e => (refillCores p e).map (fun c => refillAt e c.2))

/-- A replay's refill on its way: the state, what its reads and writes meet from here on, and how it stands: none while the arbiter
holds it, false once an image cannot be read. -/
structure Refill where
  s : State
  dev : DevSeen
  ok : Option Bool

/-- One row of a core refilled; a core that refuses the context's writes refuses it. -/
def Refill.row (a : Refill) (x : Nat) (w : Sender) (c row data : Nat) : Refill :=
  if a.ok ≠ some true ∨ a.s.coreRank x c ≠ 7 then a
  else
    let g := a.s.engineWrite w c row data (2 ^ 64 - 1) (a.dev.lost.headD false) .clean
    ⟨g.1, { a.dev with lost := a.dev.lost.tail }, if g.2 then some true else none⟩

/-- One core's rows refilled from its image (R279). -/
def Refill.core (a : Refill) (x : Nat) (w : Sender) (e : List Byte) (c j : Nat) : Refill :=
  if a.ok ≠ some true then a
  else
    let at_ := refillAt e j
    let r := a.s.devBytes x at_.1 at_.2 a.dev
    let b : Refill := ⟨r.1, seenPast a.dev at_.1 at_.2, some (decide (r.2.1 = 7))⟩
    (List.range (inRows e)).foldl (fun b i => b.row x w c ((bF e 13 1 % 64 + i) % 64) (bF r.2.2 (64 * i) 64)) b

/-- Every REFILL carried out, up to an image that cannot be read or a row that the arbiter holds. -/
def State.refillAll (s : State) (x : Nat) (p : Pass) (dev : DevSeen) : Refill :=
  let w : Sender := ⟨x, p.half, p.eng, p.tag % 2 ^ 14, none⟩
  (p.inputs.filter (fun e => inKind e == 2)).foldl (fun a e =>
    (refillCores p e).foldl (fun a c => a.core x w e c.1 c.2) a) ⟨s, dev, some true⟩

/-- Rows that `n` bytes from a byte of a core touch. -/
def rowsTouched (off n : Nat) : List Nat := if n = 0 then [] else (List.range ((off + n - 1) / 64 + 1 - off / 64)).map (· + off / 64)

/-- The rows of cores whose tags a replay sets, as core and row (R279). -/
def State.inputRows (s : State) (p : Pass) (e : List Byte) : List (Nat × Nat) :=
  let each (l : List Nat) : List (Nat × Nat) := (s.passCores p).flatMap (fun c => l.map (fun r => (c, r)))
  if inKind e = 2 then each ((List.range (inRows e)).map (fun i => (bF e 13 1 % 64 + i) % 64))
  else if inRf e 1 then each (rowsTouched (inAddr e % 4096) (inLen e))
  else if isScratch (inAddr e) then (rowsTouched (inAddr e - 2 ^ 44) (inLen e)).map (fun r => (r / 64, r % 64))
  else []

/-- The tags set and the counters reset, at the cores that the context holds (R237). -/
def State.rearm (s : State) (x : Nat) (p : Pass) : State :=
  let s := ((p.inputs.flatMap (s.inputRows p)).filter (fun r => s.inBlocks x r.1)).foldl (fun s r =>
    s.modCore r.1 (fun k => k.setTag r.2 true)) s
  ((s.passCores p).filter (s.inBlocks x)).foldl (fun s c => s.modCore c (fun k => { k with arrv := 0, tsum := 0, tcnt := 0 })) s

/-- A pass launched again (R279 step 4). -/
def State.relaunch (s : State) (x : Nat) (p : Pass) : State :=
  let p := { p with run := p.run + 1, toReplay := false, replayed := true, faults := [] }
  let s := ((s.rearm x p).modPass x p.id (fun _ => p)).bump .CTX_LOG_REPLAYS x
  ((s.logByte x p 6 2).logByte x p 7 (p.run % 256)).sendImage x p

/-- Whether a replay has to wait: for STARTs of the run that are still to be answered and for cores that still run, for the stacks it
reads and writes, for braked cores (R83, R110, R181, R184). -/
def State.replayWaits (s : State) (x : Nat) (p : Pass) : Bool :=
  p.owes || (s.passCores p).any (s.runsFor x) || s.logBusy x || s.imageWaits p.image || (p.inputs.flatMap (s.captured p) ++ refillImages p).any s.rangeWaits ||
    (s.passCores p).any s.braked

/-- The image of a replay, read again as it is sent: one that cannot be read, or is no longer sound, ends the replay as an input that
cannot be read does (DESIGN CHOICE, log 31). -/
def State.replaySend (s : State) (x : Nat) (p : Pass) (dev : DevSeen) (lose : State → State) : State :=
  let b := s.imageBad x p.image dev
  if b.2.isSome then lose b.1 else b.1.relaunch x p

/-- REPLAY (R278, R279, R282): `dev` is what the reads of the inputs, of the REFILL images and of the program image meet. A pass that
could not be decided as its fault arrived is decided now. -/
def execReplay (x : Fin 1024) (pass : SlotSeen) (s : State) : Host.Outcome State Fault Refusal :=
  .next (
    match (s.ctx x).passes.find? (fun p => p.id == pass.i) with
    | none => s
    | some p =>
      if !p.toReplay then s.decidePass x pass.i
      else if s.pausedCtx x || s.heldFull x || s.replayWaits x p then s
      else
        let f := p.faults.headD (0, 0)
        let lose (s : State) : State := s.losePass x p f.1 (f.2 % 16) 5 0x0302 true
        let i := s.inputsSame x p p.inputs pass.dev
        match i.2 with
        | none => i.1
        | some false => lose i.1
        | some true =>
          let r := i.1.refillAll x p (s.pastCaptures p pass.dev)
          match r.ok with
          | none => r.s
          | some false => lose r.s
          | some true => r.s.replaySend x p r.dev lose)

/-! ## Publication of groups (R266, R267, R270) -/

/-- Whether a group can flip: closed, its members completed, every earlier group flipped or aborted (R265, R266). -/
def State.flippable (s : State) (x : Nat) (q : Grp) : Bool :=
  let t := s.ctx x
  decide (q.st = .closed) && t.membersDone q &&
    t.grps.all (fun r => decide (q.id ≤ r.id) || (decide (r.st ≠ .open_) && decide (r.st ≠ .closed)))

/-- Who sends a group's row records. -/
def fixSender (x tag : Nat) : Sender := ⟨x, fixEngine.1, fixEngine.2, tag % 2 ^ 14, none⟩

/-- The MASK_WRITE of a row record. -/
def State.rowRecPkt (s : State) (x tag : Nat) (r : RowRec) : Packet :=
  s.maskPkt (fixSender x tag) (recSpec r.t false false) true (rowAddr r.core r.row) r.data.toNat r.mask.toNat

/-- A group flipped: its entries active, its row records sent, its host pieces ready to post (R266, R267). -/
def State.flip (s : State) (x : Nat) (q : Grp) : State :=
  let rows := sortBy (fun r => r.member) q.rows
  let tag := s.nextId
  let s := { s with nextId := tag + 1 }.wrapInc .CTX_FIX_COMMITS x
  (s.modGrp x q.id (fun q => { q with st := .flipped, tag := tag, acks := rows.length, host := sortBy (fun h => h.1) q.host })).sendAll
    (fixSender x tag) (rows.map (s.rowRecPkt x tag))

/-- FIX_FLIP (R266, R267): the first group of the context that can. -/
def execFixFlip (x : Fin 1024) (s : State) : Host.Outcome State Fault Refusal :=
  .next (
    if s.pausedCtx x ∨ s.cst x = 6 then s
    else match (s.ctx x).grps.find? (s.flippable x) with
      | some q => s.flip x q
      | none => s)

/-- FIX_PAGE_COPY_HOME (R267). -/
def execFixPageCopyHome (stack : Fin 16) (page : Nat) (s : State) : Host.Outcome State Fault Refusal :=
  .next (if s.stackOf (page * 4096) = stack.val ∧ !s.hbmWaits (page * 4096) 4096 then s.copyHome page else s)

/-- Whether a flipped group's writes have settled. -/
def Grp.written (q : Grp) : Bool := decide (q.st = .flipped) && decide (q.acks = 0) && q.host.isEmpty && q.hostOut.isEmpty

/-- The arms offered, and FIX_DONE (R267). -/
def State.publish (s : State) (x : Nat) (q : Grp) : State :=
  let s := (q.actions 0x0C).foldl (fun s d => s.offerAt x (dStream d) (dF d 14 1)) s
  let s := s.modGrp x q.id (fun q => { q with st := .published, sigs := none })
  let s := match q.closer with
    | some i => s.finishCopy x i (rankStatus q.rank) 0 true
    | none => s
  s.dropPublished

/-- The next SIGNAL of a group begins its write; one whose flag cannot be reached is passed over (R249, R267, R270). -/
def State.signalNext (s : State) (x : Nat) (q : Grp) (d : BitVec 512) (seen : FlagSeen) : State :=
  let past (now : Bool) (s : State) : State := s.modGrp x q.id (fun q => { q with sigs := some (q.sigsLeft.drop 1), sigNow := now })
  if s.signalBusy x (dSpec d 16) then s
  else if !s.rangeOk x (dSpec d 16) 8 then past false s
  else
    s.signalTo x (q.closer.getD 0) d seen (fun b s => past true (s.putBegins x (.sig q.id) (dSpec d 16) b)) id
      (fun _ s => past false s)

/-- FIX_PUBLISH_SIGNALS (R267, R270): the next SIGNAL of the first group of the context whose writes have settled, or its arms and
its FIX_DONE once every SIGNAL has acted. -/
def execFixPublishSignals (x : Fin 1024) (flag : FlagSeen) (s : State) : Host.Outcome State Fault Refusal :=
  .next (
    if s.pausedCtx x ∨ s.cst x = 6 ∨ s.heldFull x then s
    else match (s.ctx x).grps.find? Grp.written with
      | none => s
      | some q =>
        if q.sigNow then s
        else match q.sigsLeft with
          | [] => s.publish x q
          | d :: _ => s.signalNext x q d flag)

/-! ## CQ_HEAD (R239, R244, R246) -/

/-- Slots from one index up to another. -/
def slotsTo (a b size : Nat) : Nat := (b + size - a % size) % size

/-- Completion slots freed: entries that wait are written, and passes that waited for a place retire. -/
def State.cqHeadTo (s : State) (x v : Nat) : State :=
  let s := s.modCtx x (fun t => { t with cqHead := v, cqMsg := false })
  (s.cqGo x).retirePasses x

/-- CQ_HEAD (R239, R244, R246): a value past the completion tail is ignored. -/
def execCqHead (via : Via) (x : Fin 1024) (value : BitVec 64) (s : State) : Host.Outcome State Fault Refusal :=
  .next (s.doorbellPage via x (fun s =>
    let v := value.toNat % 2 ^ 16
    let n := s.cqSize x
    let h := (s.ctx x).cqHead
    if n ≤ v ∨ slotsTo h (s.reg .CTX_RING_POS_CQ_TAIL x) n < slotsTo h (v % n) n then s.bump .CTX_ERR_DBELL x
    else s.cqHeadTo x v))

end Sys2Proof.Machine
end

