-- ==== Sys2Proof/Machine/Logic.lean ====
section
/-! DEFINITION. The logic cells, the carry chains, the mux columns and the routing of the fabric, and what passes in a
nanosecond (R283 to R290, R323, R329, R330; logs 7, 35). -/

namespace Sys2Proof.Machine

/-! ## What the frames configure (R283, R315, R316) -/

/-- The region of a cluster column. -/
def colRegion (column : Nat) : Nat := column / 16

/-- The cluster column of a cell; a chain never leaves it (R285). -/
def cellCol (cell : Nat) : Nat := cell / 8192

/-- The frames 0 to 1,791 that are not zero of a cluster column. -/
def State.logicFrames (s : State) (die column : Nat) : FrameList :=
  (s.fab.frames.filter (fun e => decide (e.1 / 2048 = 512 * die + column) && decide (e.1 % 2048 < 1792))).map
    (fun e => (e.1 % 2048, e.2))

/-- The cluster columns that a configuration uses, as die × 512 + column. -/
def State.logicCols (s : State) : List Nat :=
  ((s.fab.frames.filter (fun e => decide (e.1 / 2048 % 512 < 256) && decide (e.1 % 2048 < 1792))).map (fun e => e.1 / 2048)).eraseDups

/-- The regions that a configuration uses, as die × 16 + region. -/
def State.framedRegions (s : State) : List Nat :=
  ((s.fab.frames.filter (fun e => decide (e.1 / 2 ^ 15 % 32 < 16))).map (fun e => e.1 / 2 ^ 20 * 16 + e.1 / 2 ^ 15 % 32)).eraseDups

/-- A logic cell as configured. -/
def State.cellCfg (s : State) (die cell : Nat) : CellCfg := Config.cell (s.logicFrames die (cellCol cell)) (cell % 8192)

/-- The cluster of a cell as configured. -/
def State.clusterCfg (s : State) (die cell : Nat) : ClusterCfg :=
  Config.cluster (s.logicFrames die (cellCol cell)) (cell % 8192 / 8)

/-- A routing segment as configured. -/
def State.segmentCfg (s : State) (die column j : Nat) : Option SegmentCfg := (Config.segments (s.logicFrames die column))[j]?

/-- The outputs of a region as configured; frames of zeros have none. -/
def State.outputCfg (s : State) (die r : Nat) : List OutputCfg :=
  let f := s.regionFrames die r
  if f.isEmpty then [] else Config.outputs f

/-- The domain of a part of the fabric (R288). -/
def State.domainOf (s : State) (die r : Nat) (x : Clocked) : Nat := (Config.domain (s.regionFrames die r) x).val

/-! ## Clock domains (R288, R355 to R358) -/

/-- The output of MLOOP_SYS in MHz, the root of fall-back division: 400 MHz while it coasts (R355). -/
def State.rootMhz (s : State) (die : Nat) : Nat := if s.coasting die 0 then 400 else 1600

/-- The divisor at which a domain runs from the divided root while its target moves: the least N for which 1,600 ÷ N does not
exceed the lower of its old and new frequencies (R360). -/
def State.movingDiv (s : State) (die k : Nat) : Nat :=
  let old := 10 * (s.fabNow die).getD k 0
  let f := match Tbl.get? s.power.fabBusy die with
    | some new => min old (10 * new.getD k 0)
    | none => old
  (1600 + f - 1) / f

/-- The frequency of FDOMk as a fraction of MHz: its own loop, which coasts at 100 MHz and relocks on the divided root, the
divided root, FOSC or SOSC. -/
def State.fdomMhz (s : State) (die k : Nat) : Nat × Nat :=
  let root : Nat × Nat := (s.rootMhz die, s.reg .CLK_SRC_SEL_DIVM1 (die * 5 + k + 1) + 1)
  let own : Nat × Nat :=
    if s.coasting die (2 + k) then (100, 1)
    else if s.locked die (2 + k) then (10 * (s.fabNow die).getD k 0, 1)
    else if (Tbl.get? s.power.fabBusy die).isSome then (s.rootMhz die, s.movingDiv die k)
    else root
  match s.reg .CLK_SRC_SEL_SEL (die * 5 + k + 1) with
  | 0 => own
  | 1 => root
  | 2 => (800, 1)
  | _ => (1, 1)

/-- Whether FDOMk has an edge in the nanosecond that passes (log 35). -/
def State.edge (s : State) (die k : Nat) : Bool :=
  let f := s.fdomMhz die k
  decide (s.timer * f.1 / (1000 * f.2) ≠ (s.timer + 1) * f.1 / (1000 * f.2))

/-! ## Signals (R284 to R287, R290, R329) -/

/-- What a table gives on an output: four quarter-tables of 16 bits, each addressed by I0 to I3 (R284). -/
def quarter (t : BitVec 64) (q a : Nat) : Bool := t.getLsbD (16 * q + a)

/-- A number from bits, the lowest first. -/
def bitsNat : List Bool → Nat
  | [] => 0
  | b :: r => (if b then 1 else 0) + 2 * bitsNat r

/-- A storage element (R284, R290). -/
def State.elemVal (s : State) (die cell i : Nat) : Bool :=
  let init := ((s.cellCfg die cell).elem.toList.getD i default).init
  if (s.fabRegion die (colRegion (cellCol cell))).gsr then init
  else Tbl.getD s.fab.elems (2 * (die * 2 ^ 21 + cell) + i) init

/-- The key of a segment's register. -/
def segKey (die column j : Nat) : Nat := (die * 256 + column) * 2 ^ 24 + j

/-- The key of a border register. -/
def borderKey (die r j : Nat) : Nat := (die * 16 + r) * 2 ^ 24 + j

/-- What output `j` of a region shows: its border register or, with its Mask closed, its park value; a FAILED region has none
but 0 (R287, R328, R329). -/
def State.borderVal (s : State) (die r j : Nat) : Bool :=
  let held := Tbl.getD s.fab.border (borderKey die r j) (((s.outputCfg die r)[j]?.getD default).init)
  if (s.fabRegion die r).open_ then held
  else if (s.fabRegion die r).park.isEmpty then false
  else match Config.park (s.fabRegion die r).park j with
    | .zero => false
    | .one => true
    | .hold => held

/-- Whether a tile port or raw lane of a region presents itself to the fabric (R283, R290, R323, R329). -/
def State.presents (s : State) (die r : Nat) : Bool := s.maskOpen die r && !(s.fabRegion die r).gsr

/-- What enters a region from a hard block or a pin: 0 through a closed Mask (R288, R290, R329). -/
def State.hardVal (s : State) (die : Nat) : Signal → Bool
  | .bram port b =>
    let p := Tbl.getD s.fab.ports (2 * 1536 * die + port) (0, false)
    if b = 64 then p.2 else p.1.getLsbD b
  | .dsp n b =>
    let k := s.slice die n
    (BitVec.ofBool k.err ++ BitVec.ofBool k.av1 ++ BitVec.ofBool k.av0 ++ k.aaddr1 ++ k.aaddr0 ++ k.si ++ k.sv ++
      BitVec.ofBool (!k.running) ++ BitVec.ofBool k.ir ++ BitVec.ofBool k.ov ++ k.out).getLsbD b
  | .tileValid t rsp => s.presents die (t / 32) && !(if rsp then (s.tile die t).rsp else (s.tile die t).rx).isEmpty
  | .tileData t rsp b =>
    s.presents die (t / 32) && (match if rsp then (s.tile die t).rsp else (s.tile die t).rx with
      | [] => false
      | e :: _ => if b = 256 then e.hdr else if b = 257 then e.half else e.data.getLsbD b)
  | .txReady t => s.presents die (t / 32) && s.txReady die t
  | .tally t b =>
    let k := s.tile die t
    s.maskOpen die (t / 32) && (k.tv ++ k.tn ++ k.trst ++ k.tden).getMsbD (32 * (b / 32) + (31 - b % 32))
  | .rawValid l => s.presents die (l / 2) && !(s.rawBuf (die * 32 + l)).isEmpty
  | .rawData l b =>
    s.presents die (l / 2) && (match s.rawBuf (die * 32 + l) with
      | [] => false
      | e :: _ => if b = 256 then e.2 else e.1.getLsbD b)
  | .pin j => s.maskOpen die (j % 16) && (
      if Config.pinRegistered (s.regionFrames die (j % 16)) j then Tbl.getD s.fab.pinIn (die * 32 + j) false
      else Config.pinLevel s.free (die * 32 + j))
  | _ => false

/-- The region that the source of a signal lies in; none for nothing and for an output that comes across the border (R283, R287). -/
def signalRegion : Signal → Option Nat
  | .none | .border _ _ => Option.none
  | .y c | .ya c | .yb c | .sum c | .carry c | .elem c _ | .mux c => some (colRegion (cellCol c))
  | .segment col _ => some (colRegion col)
  | .bram port _ => some (port / 2 / 96)
  | .dsp n _ => some (n / 512)
  | .tileValid t _ | .tileData t _ _ | .txReady t | .tally t _ => some (t / 32)
  | .rawValid l | .rawData l _ => some (l / 2)
  | .pin j => some (j % 16)

/-- Whether region `r` may read a signal without crossing a border (R287): one that lies in another region comes to it through that
region's border register alone (DESIGN CHOICE, log 35: a configuration that names such a part directly reads 0). -/
def signalWithin (r : Nat) (x : Signal) : Bool := (signalRegion x).all (fun q => q == r)

/-- The value of a signal that region `r` reads, over at most `n` parts in line; a signal that is a loop of tables has no
stated value, and a draw stands for it (log 35). -/
def State.sig (s : State) (die r : Nat) : Nat → Signal → Bool
  | 0, _ => Config.freeBit s.free
  | n + 1, x =>
    let get (x : Signal) : Bool := signalWithin r x && s.sig die r n x
    let quarterOf (c q : Nat) : Bool :=
      let k := s.cellCfg die c
      quarter k.table q (bitsNat ((k.input.toList.take 4).map get))
    match x with
    | .none => false
    | .y c =>
      let k := s.cellCfg die c
      !k.quad && quarterOf c (bitsNat ((k.input.toList.drop 4).map get))
    | .ya c => (s.cellCfg die c).quad && quarterOf c 0
    | .yb c => (s.cellCfg die c).quad && quarterOf c 1
    | .sum c => match (s.cellCfg die c).carry with
      | none => false
      | some k => (quarterOf c 2).xor (if k.begins || decide (c % 8192 = 0) then k.sub else get (.carry (c - 1)))
    | .carry c => match (s.cellCfg die c).carry with
      | none => false
      | some k =>
        if quarterOf c 2 then (if k.begins || decide (c % 8192 = 0) then k.sub else get (.carry (c - 1))) else quarterOf c 3
    | .elem c i => s.elemVal die c i
    | .mux c =>
      let k := s.cellCfg die c
      let bus := (s.clusterCfg die c).select.toList
      let pick := c + bitsNat (((bus.drop 3).take k.muxBits).map get)
      decide (cellCol c % 8 = 7) && decide (c % 2 ^ k.muxBits.val = 0) &&
        get ((s.cellCfg die pick).muxData.toList.getD (bitsNat ((bus.take 3).map get)) .none)
    | .segment col j => match s.segmentCfg die col j with
      | none => false
      | some g => if g.registered then Tbl.getD s.fab.segs (segKey die col j) g.init else get g.source
    | .border q j => s.maskOpen die r && s.borderVal die q j
    | x => s.hardVal die x

/-- Parts in line that a signal can pass with no loop among them: every table, multiplexer, carry stage and segment once. -/
def sigDepth : Nat := 2 ^ 24

/-- The value of a signal that region `r` reads. -/
def State.fabSignal (s : State) (die r : Nat) (x : Signal) : Bool := signalWithin r x && s.sig die r sigDepth x

/-! ## One cycle (R284, R287, R323) -/

/-- The D input of a storage element. -/
def dSignal (k : CellCfg) (cell : Nat) : DSource → Signal
  | .y => .y cell
  | .ya => .ya cell
  | .yb => .yb cell
  | .i4 => if k.quad then k.input.toList.getD 4 .none else .none
  | .i5 => if k.quad then k.input.toList.getD 5 .none else .none
  | .mux => .mux cell
  | .direct n => n

/-- What a storage element holds after the nanosecond: before ENABLE_WRITES what it held; its INIT value in reset, which an
asynchronous one takes at once; D at an edge of its cluster's domain where its enable lets it (R284, R288, R323). -/
def State.elemNext (s : State) (die cell i : Nat) : Bool :=
  let r := colRegion (cellCol cell)
  let k := s.cellCfg die cell
  let e := k.elem.toList.getD i default
  let old := s.elemVal die cell i
  let at_ := s.edge die (s.domainOf die r (.cluster (cell / 8)))
  let reset := s.fabSignal die r e.reset
  let enabled := match e.enable with
    | none => true
    | some n => s.fabSignal die r ((s.clusterCfg die cell).enable.toList.getD n .none)
  if s.fabRuns die r = false then old
  else if reset && (e.async || at_) then e.init
  else if at_ && enabled then s.fabSignal die r (dSignal k cell e.d)
  else old

/-- The storage elements of a cluster column after the nanosecond. -/
def State.colElems (s : State) (die column : Nat) : Tbl Nat Bool :=
  (List.range 16384).map (fun n => (2 * (die * 2 ^ 21) + 16384 * column + n, s.elemNext die (8192 * column + n / 2) (n % 2)))

/-- The registers at the segment ends of a cluster column after the nanosecond. -/
def State.colSegs (s : State) (die column : Nat) : Tbl Nat Bool :=
  (Config.segments (s.logicFrames die column)).zipIdx.map (fun e =>
    let old := Tbl.getD s.fab.segs (segKey die column e.2) e.1.init
    (segKey die column e.2,
      if s.fabRuns die (colRegion column) && s.edge die e.1.domain then s.fabSignal die (colRegion column) e.1.source else old))

/-- The domain of the register at output `j` of a region: that of its GPIO pin for the first four, the border register's own for
any other (R287, R288). -/
def State.outputDomain (s : State) (die r j : Nat) (o : OutputCfg) : Nat :=
  if j < 4 then s.domainOf die r (.pin (r + 16 * (j / 2))) else o.domain.val

/-- The registers at the outputs of a region whose Mask is open, after the nanosecond (R287, R313). -/
def State.regionBorder (s : State) (die r : Nat) : Tbl Nat Bool :=
  (s.outputCfg die r).zipIdx.map (fun e =>
    let old := Tbl.getD s.fab.border (borderKey die r e.2) e.1.init
    (borderKey die r e.2, if s.edge die (s.outputDomain die r e.2 e.1) then s.fabSignal die r e.1.source else old))

/-- The input registers of a region's GPIO pins after the nanosecond (R288, R313). -/
def State.regionPins (s : State) (die r : Nat) : Tbl Nat Bool :=
  [r, r + 16].map (fun j => (die * 32 + j,
    if s.edge die (s.domainOf die r (.pin j)) then Config.pinLevel s.free (die * 32 + j)
    else Tbl.getD s.fab.pinIn (die * 32 + j) false))

/-- Whether a region runs: its set-reset released. -/
def State.running (s : State) (die r : Nat) : Bool := !(s.fabRegion die r).gsr

/-- One nanosecond of the logic: all of it sees what stood before; the border registers of a region with a closed Mask hold
(R284, R287, R288, R329). -/
def State.logicTick (s : State) : State :=
  let cols := s.logicCols.filter (fun x => s.running (x / 512) (colRegion (x % 512)))
  let regs := s.framedRegions
  if regs.isEmpty then s
  else
    let live := regs.filter (fun x => s.maskOpen (x / 16) (x % 16))
    let next := { s.fab with
      elems := cols.flatMap (fun x => s.colElems (x / 512) (x % 512))
      segs := cols.flatMap (fun x => s.colSegs (x / 512) (x % 512))
      border := s.fab.border.filter (fun e => !live.contains (e.1 / 2 ^ 24)) ++
        live.flatMap (fun x => s.regionBorder (x / 16) (x % 16))
      pinIn := regs.flatMap (fun x => s.regionPins (x / 16) (x % 16)) }
    { s.drew 1 with fab := next }

/-- What the output, or the output enable, of a GPIO pin gives: its register, its source where the register is bypassed, its park
value behind a closed Mask (R313, R329). -/
def State.pinOut (s : State) (die r j : Nat) : Bool :=
  match (s.outputCfg die r)[j]? with
  | none => s.borderVal die r j
  | some o => if o.bypass && s.maskOpen die r then s.fabSignal die r o.source else s.borderVal die r j

/-- The drive of a GPIO pin, none where it is high-impedance: as the set-reset leaves it behind an open Mask, with its driver
turned off, or with its output enable 0, which a closed Mask parks (R313, R314, R329; log 35). -/
def State.pinDrive (s : State) (die j : Nat) : Option Bool :=
  let r := j % 16
  if s.dies ≤ die ∨ s.pins ≤ j ∨ (s.running die r = false ∧ (s.fabRegion die r).open_) ∨ s.fab.gpioOff.contains (die * 32 + j) ∨
      s.pinOut die r (2 * (j / 16) + 1) = false then none
  else some (s.pinOut die r (2 * (j / 16)))

/-- GPIO_SHORT (R314): of a pin that is driven. -/
def execGpioShort (die : Fin 8) (pin : Fin 32) (s : State) : Host.Outcome State Fault Refusal :=
  .next (
    if s.pinDrive die pin = none then s
    else
      { s.setReg .FAB_GPIO_STAT_SHORT die (natSet (s.reg .FAB_GPIO_STAT_SHORT die) pin 1 1) with
        fab := { s.fab with gpioOff := (die.val * 32 + pin.val) :: s.fab.gpioOff } })

/-! ## Configuration and Mask (R290, R327, R329, R330) -/

/-- What the set-reset leaves of a region's logic: every storage element and segment register at its first value (R290). -/
def State.holdLogic (s : State) (die r : Nat) : State :=
  { s with fab := { s.fab with
      elems := s.fab.elems.filter (fun e => decide (e.1 / 2 ^ 18 ≠ die * 16 + r))
      segs := s.fab.segs.filter (fun e => decide (e.1 / 2 ^ 28 ≠ die * 16 + r)) } }

/-- The border registers of a region kept as its Mask closes, for the outputs that hold their last value (R329). -/
def State.keepBorder (s : State) (die r : Nat) : State :=
  { s with fab := { s.fab with
      border := s.fab.border.filter (fun e => decide (e.1 / 2 ^ 24 ≠ die * 16 + r)) ++
        (s.outputCfg die r).zipIdx.map (fun e =>
          (borderKey die r e.2, Tbl.getD s.fab.border (borderKey die r e.2) e.1.init)) } }

/-! ## What passes in a nanosecond -/

/-- A cycle of the fabric at each raw lane, at an edge of the lane interface's domain: one block of a running region's lane is
taken (R288, R312). -/
def State.rawTick (s : State) : State :=
  { s with fab := { s.fab with raw := s.fab.raw.map (fun e =>
      let die := e.1 / 32
      let r := e.1 % 32 / 2
      if s.fabRuns die r && s.maskOpen die r && s.edge die (s.domainOf die r (.rawLane (e.1 % 32))) then (e.1, e.2.drop 1) else e) } }

/-- A slice that stands goes through its last cycles, one at each edge of its domain: the strobe and OV of what issued before it
stood are seen for theirs (R288, R296, R298, R300). -/
def State.sliceTick (s : State) : State :=
  { s with fab := { s.fab with slices := s.fab.slices.map (fun e =>
      let die := e.1 / 8192
      let n := e.1 % 8192
      if !e.2.running && !e.2.settled && s.fabOn die && s.edge die (s.domainOf die (n / 512) (.slice n)) then (e.1, e.2.cycle)
      else e) } }

/-- UE of a block RAM port stands for the cycle of its read (R288, R293). -/
def State.portTick (s : State) : State :=
  { s with fab := { s.fab with ports := s.fab.ports.map (fun e =>
      let die := e.1 / 2 / 1536
      let port := e.1 % 3072
      if e.2.2 && s.fabOn die && s.edge die (s.domainOf die (port / 2 / 96) (.bramPort port)) then (e.1, (e.2.1, false)) else e) } }

/-- What passes in a nanosecond with no command waiting: the completion timer counts (R243, log 7), the raw lanes take their
blocks, the logic cells capture, standing slices and block RAM ports go through a cycle; with the input switch open nothing runs
(R423). -/
def State.tick (s : State) : State :=
  if s.module.off then s else { s.logicTick.rawTick.sliceTick.portTick with timer := (s.timer + 1) % 2 ^ 48 }

end Sys2Proof.Machine
end

