-- ==== Sys2Proof/Machine/Cfg.lean ====
section
/-! DEFINITION. Configuration streams: their checks, loads at the start and by CONFIG, Masks, flash writes (R315 to R334). -/

namespace Sys2Proof.Machine

/-! ## Strings of bytes and the vault -/

/-- The state with the vault changed. -/
def State.modVault (s : State) (f : Vault → Vault) : State := { s with vault := f s.vault }

/-- A little-endian field of a string of bytes. -/
def leAt (b : List Byte) (lo n : Nat) : Nat := bytesNat ((b.drop lo).take n)

/-- Whether bytes `lo` to `hi - 1` are zero. -/
def zeroAt (b : List Byte) (lo hi : Nat) : Bool := ((b.drop lo).take (hi - lo)).all (· == 0)

/-- A measurement extended by an event (R353). -/
def State.extend (s : State) (i : Nat) (e : List Byte) : State :=
  s.modVault (fun v => { v with meas := Tbl.set v.meas i (shake256 (natBytes (Tbl.getD v.meas i 0).toNat 32 ++ e)) })

/-! ## Streams (R317 to R320) -/

/-- NSEG of a header. -/
def hNseg (h : List Byte) : Nat := leAt h 12 4
/-- BODY_LEN. -/
def hBody (h : List Byte) : Nat := leAt h 16 8
/-- ROLL_INTERVAL. -/
def hRoll (h : List Byte) : Nat := 2 ^ leAt h 10 1
/-- KEYSLOT. -/
def hSlot (h : List Byte) : Nat := leAt h 9 1

/-- Where the segments begin (R317). -/
def hStart (h : List Byte) : Nat := (256 + 32 * hNseg h + 2820 + 15) / 16 * 16

/-- The length of a stream (R317). -/
def hSlen (h : List Byte) : Nat := hStart h + hBody h + 16 * hNseg h

/-- Whether a header is laid out as the table Stream header gives (R317, R319). -/
def hdrOk (h : List Byte) : Bool :=
  let kind := leAt h 6 1
  let die := leAt h 7 1
  decide (h.length = 256) && decide (h.take 4 = ascii [0x43, 0x52, 0x56, 0x53]) && decide (leAt h 4 2 = 1) && decide (kind ≤ 1) &&
    (decide (die < 8) || decide (die = 0x0F)) && decide (leAt h 8 1 < 16) && (decide (kind = 1) || decide (leAt h 8 1 = 0)) &&
    decide (hSlot h < 8) && decide (16 ≤ leAt h 10 1) && decide (leAt h 10 1 ≤ 24) && zeroAt h 11 12 &&
    decide (1 ≤ hNseg h) && decide (hNseg h ≤ 4096) && decide (hBody h % 16 = 0) &&
    decide (hBody h ≤ if kind = 0 then 0x0FF00000 else 0x01000000) && zeroAt h 28 32 && zeroAt h 64 256 &&
    decide (hNseg h = (hBody h + hRoll h - 1) / hRoll h)

/-- Where a stream lies: its bytes, and whether they can be read. -/
structure Strm where
  flash : Bool
  base : Nat
  /-- SLEN of a CONFIG, or LEN of a flash write; none for a flash slot, which states no length. -/
  slen : Option Nat

/-- Bytes of a stream, none where they cannot be read (R332). -/
def State.strmRead (s : State) (r : Strm) (o n : Nat) : State × Option (List Byte) :=
  if r.flash then (s, some (memTake s.cfg.flash (r.base + o) n)) else s.hbmTake (r.base + o) n

/-- Whether a stack that holds a stream keeps its reader waiting (R181, R184). -/
def State.strmWaits (s : State) (r : Strm) : Bool := !r.flash && s.hbmWaits r.base (r.slen.getD 0)

/-- Whether the signature of a stream verifies: 0, or the reason of the table Load failures (R318). -/
def State.sigReason (s : State) (h sig : List Byte) : Nat :=
  match Tbl.get? s.vault.slots (hSlot h) with
  | some (.key k) => if xmssVerify k h sig then 0 else 2
  | _ => 3

/-- Whether the place a stream names is the place it is loaded into: 0, or the reason. -/
def placeReason (h : List Byte) (die : Nat) (region : Option Nat) : Nat :=
  let kind := leAt h 6 1
  let d := leAt h 7 1
  match region with
  | none => if kind ≠ 0 then 5 else if d ≠ die then 4 else 0
  | some r => if kind ≠ 1 then 5 else if d ≠ die ∧ d ≠ 0x0F then 4 else if leAt h 8 1 ≠ r then 6 else 0

/-- The checks of R319 in their order: the reason of the first that fails, 0 where none does; and the header with its
hash table. -/
def State.checkStream (s : State) (r : Strm) (die : Nat) (region : Option Nat) : State × Nat × List Byte :=
  let a := s.strmRead r 0 (min 256 (r.slen.getD 256))
  match a.2 with
  | none => (a.1, 11, [])
  | some h =>
    if r.slen.any (fun n => decide (n < 256)) || !hdrOk h || r.slen.any (fun n => decide (n ≠ hSlen h)) then (a.1, 1, [])
    else
      let n := 256 + 32 * hNseg h
      let b := a.1.strmRead r 0 (n + 2820)
      match b.2 with
      | none => (b.1, 11, [])
      | some t =>
        let e := b.1.sigReason (t.take n) (t.drop n)
        (b.1, if e ≠ 0 then e else placeReason h die region, t.take n)

/-- The first key of a stream (R320). -/
def firstKey (rk : Option (List Byte)) (h : List Byte) : BitVec 256 :=
  shake256 ((rk.getD []) ++ ascii [0x73, 0x74, 0x72, 0x6D] ++ (h.drop 32).take 32)

/-- The next key. -/
def rollKey (k : BitVec 256) (i : Nat) : BitVec 256 :=
  shake256 (natBytes k.toNat 32 ++ ascii [0x72, 0x6F, 0x6C, 0x6C] ++ natBytes i 8)

/-- The IV of a segment. -/
def segIv (i : Nat) : List Byte := natBytes 0 4 ++ (natBytes i 8).reverse

/-! ## Frames (R315, R316, R322) -/

/-- A frame of a die; one not listed is zero. -/
def State.frame (s : State) (die far : Nat) : List Byte := Tbl.getD s.fab.frames (die * 2 ^ 20 + far) (List.replicate 256 0)

/-- Whether a frame address is valid in a stream for a region, or in a full stream (R315). -/
def farOk (region : Option Nat) (far : Nat) : Bool :=
  match region with
  | some r => decide (far / 2 ^ 15 = r)
  | none => decide (far < 2 ^ 19 + 4096)

/-- A frame written: block RAM contents, or configuration (R316). -/
def State.putFrame (s : State) (die far : Nat) (b : List Byte) : State :=
  let f := far % 2048
  if far < 2 ^ 19 ∧ 1792 ≤ f ∧ f < 1888 then
    let block := 96 * (far / 2 ^ 15) + 6 * (far / 2048 % 16) + (f - 1792) / 16
    s.bramPut (die * 0x800000 + block * 0x1000 + 256 * ((f - 1792) % 16)) b
  else
    let k := die * 2 ^ 20 + far
    { s with fab := { s.fab with frames := if b.all (· == 0) then Tbl.erase s.fab.frames k else Tbl.set s.fab.frames k b } }

/-- Frames `lo` to `lo + n - 1` of column `c` of a region. -/
def State.colFrames (s : State) (die r c lo n : Nat) : List Byte :=
  (List.range n).flatMap (fun i => s.frame die (r * 2 ^ 15 + c * 2048 + lo + i))

/-- The three frames of a DSP slice. -/
def State.sliceFrames (s : State) (die n : Nat) : List Byte := s.colFrames die (n / 512) (n % 512 / 32) (1888 + 3 * (n % 32)) 3

/-- A slice as its frames configure it: halted at entry 0, its registers at their INIT values (R290, R295). -/
def sliceOf (f : List Byte) : Slice :=
  { Slice.reset with prog := Vector.ofFn (fun i => Config.sliceWord f i.val), regs := Vector.ofFn (fun i => Config.sliceInit f i.val),
                     satm := Config.sliceSatm f }

/-- The slices of a region that a configuration uses, set up; frames of zeros leave a slice unused (R316). -/
def State.setSlices (s : State) (die r : Nat) : State :=
  (List.range 512).foldl (fun s j =>
    let n := 512 * r + j
    let f := s.sliceFrames die n
    if f.all (· == 0) then s else s.setSlice die n (sliceOf f)) s

/-- The blocks of a region whose AP bit its frames set: the frames of column 0 hold those of every block (R294, R316). -/
def State.apOf (s : State) (die r : Nat) : List Nat :=
  let f := s.colFrames die r 0 1984 32
  if f.all (· == 0) then [] else ((List.range 96).filter (Config.blockAp f)).map (· + (die * 1536 + 96 * r))

/-- A region's configuration in force; its shorted pins may be driven again (R314). -/
def State.configure (s : State) (die r : Nat) : State :=
  let s := s.setSlices die r
  { s with fab := { s.fab with ap := s.fab.ap ++ s.apOf die r
                               gpioOff := s.fab.gpioOff.filter (fun i => !(decide (i / 32 = die) && decide (i % 16 = r))) } }

/-! ## Bleach and Mask of a region (R327 to R331) -/

/-- Whether a key of the frames is of a region of a die. -/
def frameOf (die r k : Nat) : Bool := decide (k / 2 ^ 20 = die) && decide (k % 2 ^ 20 / 2 ^ 15 = r)

/-- A region's frames and block RAM contents zeroed. -/
def State.bleachRegion (s : State) (die r : Nat) : State :=
  let lo := die * 0x800000 + 96 * r * 0x1000
  { s with fab := { s.fab with
      frames := s.fab.frames.filter (fun e => !frameOf die r e.1)
      bram := s.fab.bram.filter (fun e => !(decide (lo ≤ e.1) && decide (e.1 < lo + 96 * 0x1000))) } }

/-- What the set-reset leaves of a region: slices halted and zero, read outputs zero, no block in the aperture (R290). -/
def State.holdRegion (s : State) (die r : Nat) : State :=
  { s with fab := { s.fab with
      slices := s.fab.slices.filter (fun e => !(decide (e.1 / 8192 = die) && decide (e.1 % 8192 / 512 = r)))
      ap := s.fab.ap.filter (fun b => !(decide (b / 1536 = die) && decide (b % 1536 / 96 = r)))
      ports := s.fab.ports.filter (fun e => !(decide (e.1 / 2 / 1536 = die) && decide (e.1 / 2 % 1536 / 96 = r))) } }

/-- A tile port as its region's Mask closes: RX and RSP discarded, complete packets in TX sent, a partial one discarded and counted,
reads outstanding to the fabric answered (R329). -/
def State.maskTile (s : State) (die t : Nat) : State :=
  let s := s.modTile die t (fun k => { k with rx := [], rsp := [] })
  let s := s.txGo die t true (2 * (s.tile die t).tx.length + 2)
  let s := if (s.tile die t).tx.isEmpty then s else s.txDiscard die t .FAB_TP_STAT_BADHDR
  let s := s.modTile die t (fun k => { k with tx := [], skip := false })
  (s.tile die t).reads.foldl (fun s r => s.tileNack die t r) s

/-- The tile ports of a region that hold anything. -/
def State.tilesOf (s : State) (die r : Nat) : List Nat :=
  (s.fab.tiles.filter (fun e => decide (e.1 / 512 = die) && decide (e.1 % 512 / 32 = r))).map (fun e => e.1 % 512)

/-- The Mask of a region closes: it is LOADING, its set-reset is asserted, the park values in force are those of its
border frames. A Mask that is closed already keeps what it holds and the park values it closed with (R327 step 2, R329, R330). -/
def State.closeMask (s : State) (die r : Nat) : State :=
  let was := s.fabRegion die r
  let park := (s.fab.frames.filter (fun e => frameOf die r e.1 && decide (2016 ≤ e.1 % 2048))).map (fun e => (e.1 % 2 ^ 20, e.2))
  let s := (s.tilesOf die r).foldl (fun s t => s.maskTile die t) s
  let s := if was.open_ then s.keepBorder die r else s
  let s := (s.modFabRegion die r (fun _ => ⟨false, true, false, if was.open_ then park else was.park⟩)).setReg .CFG_REGIONS_STATE (die * 16 + r) 1
  (s.holdRegion die r).holdLogic die r

/-- Packets that wait at the tile ports of a region, refused as it becomes FAILED (R331). -/
def State.refuseTiles (s : State) (die r : Nat) : State :=
  (s.net.flights.filterMap (fun f => match f.loc with
    | .at_ (.tile d t) => if d = die ∧ t / 32 = r then some (t, f.pkt) else none
    | _ => none)).foldl (fun s e => s.tileArrival die e.1 e.2) s

/-- A region left FAILED, every output of it 0 (R328, R332). -/
def State.failRegion (s : State) (die r : Nat) : State :=
  ((((s.closeMask die r).bleachRegion die r).modFabRegion die r (fun f => { f with park := [] })).setReg .CFG_REGIONS_STATE
    (die * 16 + r) 2).refuseTiles die r

/-! ## Jobs (R324, R327, R332, R333) -/

/-- The streams of a die's configuration block. -/
def State.cfgJobs (s : State) (die : Nat) : List CfgJob := Tbl.getD s.cfg.jobs die []

/-- The state with the streams of a die changed. -/
def State.setJobs (s : State) (die : Nat) (l : List CfgJob) : State :=
  { s with cfg := { s.cfg with jobs := if l.isEmpty then Tbl.erase s.cfg.jobs die else Tbl.set s.cfg.jobs die l } }

/-- The stream being served replaced. -/
def State.setJob (s : State) (die : Nat) (j : CfgJob) : State := s.setJobs die (j :: (s.cfgJobs die).drop 1)

/-- A stream not yet begun. -/
def newJob (who : Option (Nat × Nat)) (region : Option Nat) (flash : Bool) (src slen : Nat) : CfgJob :=
  ⟨who, region, flash, src, slen, [], false, false, 0, 0, [], 0, 0, 0, none, false, []⟩

/-- The flash address of an image slot of a die (R324). -/
def slotBase (die slot : Nat) : Nat := die * 2 ^ 29 + slot * 2 ^ 28

/-- Where a job's stream lies. -/
def CfgJob.strm (j : CfgJob) : Strm := ⟨j.flash, j.src, if j.flash then none else some j.slen⟩

/-- The regions a job loads. -/
def CfgJob.regions (j : CfgJob) : List Nat := match j.region with
  | some r => [r]
  | none => List.range 16

/-- The slot of a full stream's job. -/
def CfgJob.slot (j : CfgJob) : Nat := j.src / 2 ^ 28 % 2

/-- The job of a full stream from a slot; its Bleach is done before it (R324). -/
def slotJob (die slot : Nat) : CfgJob := { newJob none none true (slotBase die slot) 0 with bleached := true }

/-- The whole die's configuration and block RAM zeroed, every Mask closed and set-reset asserted (R324). -/
def State.bleachDie (s : State) (die : Nat) : State :=
  let s := (List.range 16).foldl (fun s r => (s.closeMask die r).bleachRegion die r) s
  { s with fab := { s.fab with frames := s.fab.frames.filter (fun e => decide (e.1 / 2 ^ 20 ≠ die)) } }

/-- The status of a reason (table Load failures). -/
def reasonStatus (r : Nat) : Nat := if r = 6 ∨ r = 9 then 0x0702 else if r = 11 then 0x0703 else 0x0701

/-- The stream being served ends. -/
def State.dropJob (s : State) (die : Nat) : State := (s.setJobs die ((s.cfgJobs die).drop 1)).raise die 0x60

/-- The stream being served fails (R324, R332). -/
def State.failJob (s : State) (die : Nat) (j : CfgJob) (reason : Nat) : State :=
  let s := (s.setReg .CFG_STAT_REASON die reason).dropJob die
  match j.region with
  | some r =>
    let s := s.setReg .CFG_STAT_REGION die r
    let s := if j.checked then s.failRegion die r else s
    match j.who with
    | some (x, i) => s.complete x i (reasonStatus reason) 0
    | none => s
  | none =>
    if j.slot = 0 then (s.bleachDie die).setJobs die [slotJob die 1]
    else (List.range 16).foldl (fun s r => s.failRegion die r) ((s.bleachDie die).setReg .CFG_STAT_BOOT die 2)

/-- SHAKE256 of a header and its hash table (R353). -/
def CfgJob.digest (j : CfgJob) : List Byte := natBytes (shake256 j.hdr).toNat 32

/-- The stream being served ends with OK (R327, R328, R353). -/
def State.passJob (s : State) (die : Nat) (j : CfgJob) : State :=
  let s := (s.setReg .CFG_STAT_STREAM_ID die (leAt j.hdr 24 4)).dropJob die
  let s := j.regions.foldl (fun s r => s.setReg .CFG_REGIONS_STATE (die * 16 + r) 0) s
  match j.region with
  | some r =>
    let s := ((s.setReg .CFG_STAT_REGION die r).bump .CFG_STAT_LOADS die).extend 10 (natBytes die 1 ++ natBytes r 1 ++ j.digest)
    match j.who with
    | some (x, i) => s.complete x i 0 0
    | none => s
  | none => ((s.setReg .CFG_STAT_SLOT die j.slot).setReg .CFG_STAT_BOOT die j.slot).extend (2 + die) j.digest

/-- The loads of a killed context end: left as it was before the Mask, FAILED after it (R333). -/
def State.killLoads (s : State) (x : Nat) : State :=
  (List.range 8).foldl (fun s d =>
    let mine (j : CfgJob) : Bool := match j.who with
      | some w => w.1 == x
      | none => false
    match s.cfgJobs d with
    | [] => s
    | j :: r =>
      let s := s.setJobs d ((j :: r).filter (fun k => !mine k))
      if mine j then
        (match j.region with
         | some g => if j.checked then (s.failRegion d g).raise d 0x60 else s.raise d 0x60
         | none => s)
      else s) s

/-- How long a copy has been eligible, in ns. -/
def State.eligFor (s : State) (c : Copy) : Nat := (s.timer + 2 ^ 48 - s.eligAt c) % 2 ^ 48

/-- Whether a CONFIG is next for its die's block: no other for it that can begin has been eligible longer, or stands before it in its
ring and has been eligible as long (R327). -/
def State.configTurn (s : State) (x : Nat) (c : Copy) : Bool :=
  let first (y : Nat) (o : Copy) : Bool :=
    decide (s.eligFor c < s.eligFor o) || (decide (s.eligFor c = s.eligFor o) && decide (y = x) && (Sys2Proof.Machine.before (s.ctx x).copies c.id).any (fun b => b.id == o.id))
  s.ctxs.all (fun e => e.2.copies.all (fun o =>
    !(dOp o.bytes == 0x09 && decide (dF o.bytes 28 1 % 8 = dF c.bytes 28 1 % 8) && s.eligible e.1 o && !s.heldFull e.1 && first e.1 o)))

/-- A CONFIG whose turn it is. -/
def State.configNext (s : State) (x i : Nat) : Bool :=
  match (s.ctx x).copy? i with
  | some c => s.configTurn x c
  | none => false

/-- CONFIG (R237, R248, R326, R327, R370): those of one block begin in the order in which they became eligible. -/
def execConfig (x : Fin 1024) (i : Nat) (s : State) : Host.Outcome State Fault Refusal :=
  .next (if s.configNext x i = false then s else s.begins x i (· == 0x09) (fun c s =>
    let d := dF c.bytes 28 1 % 8
    let r := dF c.bytes 29 1 % 16
    let a := dF c.bytes 16 8
    let n := dF c.bytes 24 4
    let k := d * 16 + r
    if s.dies ≤ d ∨ dF c.bytes 30 1 ≠ 0 then s.complete x i 0x0001 0
    else if s.regB .CFG_REGION_OWN_EN k = false ∨ s.reg .CFG_REGION_OWN_CTX k ≠ x ∨ s.hbmAllowed x a n = false then
      s.complete x i 0x0102 0
    else if s.gateOn d 6 = false then s.complete x i 0x0703 0
    else s.setJobs d (s.cfgJobs d ++ [newJob (some (x, i)) (some r) false a n])))

/-- The job that a die's configuration block serves, when a test of it holds. -/
def State.serve (s : State) (die : Nat) (ok : CfgJob → Bool) (act : CfgJob → State) : State :=
  match s.cfgJobs die with
  | [] => s
  | j :: _ => if ok j then act j else s

/-- CONFIG_HEADER_CHECKED (R319, R327 steps 1 and 2). -/
def execConfigHeaderChecked (die : Fin 8) (s : State) : Host.Outcome State Fault Refusal :=
  .next (s.serve die (fun j => !j.checked && !s.strmWaits j.strm) (fun j =>
    let c := s.checkStream j.strm die j.region
    let s := c.1
    let e := c.2
    if e.1 ≠ 0 then s.failJob die { j with hdr := e.2 } e.1
    else
      let rk := Tbl.get? s.vault.rootKeys die.val
      let s := match j.region with
        | some r => s.closeMask die r
        | none => s
      s.setJob die { j with hdr := e.2, checked := true, key := firstKey rk e.2 }))

/-- CONFIG_BLEACH_DONE (R327 step 3). -/
def execConfigBleachDone (die : Fin 8) (s : State) : Host.Outcome State Fault Refusal :=
  .next (s.serve die (fun j => j.checked && !j.bleached) (fun j =>
    match j.region with
    | some r => (s.bleachRegion die r).setJob die { j with bleached := true }
    | none => s))

/-- Whether a START list is good (R323). -/
def startOk (l : List Nat) : Bool :=
  l.all (fun c => decide (1 ≤ c) && decide (c ≤ 4)) && [2, 3, 4].all (fun c => decide (l.count c = 1))

/-- The records of the plaintext at hand, frame by frame; with a reason other than 0 where one fails (R322, R323). -/
def State.records (die : Nat) : Nat → State → CfgJob → State × CfgJob × Nat
  | 0, s, j => (s, j, 0)
  | n + 1, s, j =>
    if j.ended then (s, j, 0)
    else if 0 < j.left then
      (if j.rest.length < 256 then (s, j, 0)
       else if farOk j.region j.far = false then (s, j, 9)
       else State.records die n (s.putFrame die j.far (j.rest.take 256))
         { j with rest := j.rest.drop 256, taken := j.taken + 256, far := j.far + 1, left := j.left - 1 })
    else if j.rest.length < 16 then (s, j, 0)
    else
      let h := j.rest.take 16
      let k := { j with rest := j.rest.drop 16, taken := j.taken + 16 }
      let a := leAt h 4 4
      if zeroAt h 1 4 = false then (s, j, 10)
      else match leAt h 0 1 with
        | 1 =>
          let m := leAt h 8 4
          if m = 0 ∨ 524288 < m ∨ hBody j.hdr < k.taken + 256 * m then (s, j, 10)
          else State.records die n s { k with far := a, left := m }
        | 2 =>
          let l := ((h.drop 8).take a).map BitVec.toNat
          if a = 0 ∨ 8 < a ∨ j.list.isSome ∨ startOk l = false then (s, j, 10)
          else State.records die n s { k with list := some l }
        | 3 =>
          if a ≠ 0 ∨ zeroAt h 8 16 = false ∨ k.taken ≠ hBody j.hdr then (s, j, 10)
          else (s, { k with ended := true, steps := j.list.getD [1, 2, 3, 4] }, 0)
        | _ => (s, j, 10)

/-- Bytes of a segment's ciphertext. -/
def CfgJob.segLen (j : CfgJob) : Nat := min (hRoll j.hdr) (hBody j.hdr - j.seg * hRoll j.hdr)

/-- Where a segment begins in its stream. -/
def CfgJob.segAt (j : CfgJob) : Nat := hStart j.hdr + j.seg * (hRoll j.hdr + 16)

/-- A segment whose hash and tag verify: its records are carried out (R321, R322). -/
def State.segment (s : State) (die : Nat) (j : CfgJob) (plain : List Byte) : State :=
  let rest := j.rest ++ plain
  let r := State.records die (rest.length / 16 + 2) s { j with rest := rest, seg := j.seg + 1, key := rollKey j.key j.seg }
  if r.2.2 ≠ 0 then r.1.failJob die r.2.1 r.2.2
  else if r.2.1.ended then r.2.1.regions.foldl (fun s g => s.configure die g) (r.1.setJob die r.2.1)
  else if hNseg j.hdr ≤ r.2.1.seg then r.1.failJob die r.2.1 10
  else r.1.setJob die r.2.1

/-- CONFIG_SEGMENT_VERIFIED (R320, R321, R340): a die without RK meets its first tag and fails there. -/
def execConfigSegmentVerified (die : Fin 8) (s : State) : Host.Outcome State Fault Refusal :=
  .next (s.serve die (fun j => j.checked && j.bleached && !j.ended && decide (j.seg < hNseg j.hdr) && !s.strmWaits j.strm) (fun j =>
    let n := j.segLen
    let r := s.strmRead j.strm j.segAt (n + 16)
    let s := r.1
    match r.2 with
    | none => s.failJob die j 11
    | some b =>
      if natBytes (shake256 b).toNat 32 ≠ (j.hdr.drop (256 + 32 * j.seg)).take 32 then s.failJob die j 7
      else if s.vault.unwrapped.contains die.val = false then s.failJob die j 8
      else match gcmOpen j.key (segIv j.seg) (j.hdr.take 64) (b.take n) (b.drop n) with
        | none => s.failJob die j 8
        | some plain => s.segment die j plain))

/-- Whether MLOOP_FAB0 to MLOOP_FAB3 of a die are locked. -/
def State.fabLocked (s : State) (die : Nat) : Bool := (List.range 4).all (fun k => s.locked die (2 + k))

/-- One start step other than WAIT_LOCK on the fabric being configured (R323). -/
def State.startStep (s : State) (die : Nat) (j : CfgJob) (c : Nat) : State :=
  j.regions.foldl (fun s r => s.modFabRegion die r (fun f =>
    if c = 2 then { f with open_ := true } else if c = 3 then { f with gsr := false } else { f with writes := true })) s

/-- The start steps up to a WAIT_LOCK whose loops are not locked. -/
def State.startSteps (die : Nat) (j : CfgJob) : List Nat → State → State × List Nat
  | [], s => (s, [])
  | c :: r, s =>
    if c = 1 then (if s.fabLocked die then State.startSteps die j r s else (s, c :: r))
    else State.startSteps die j r (s.startStep die j c)

/-- The start order carried on. -/
def State.startOrder (s : State) (die : Nat) (j : CfgJob) (l : List Nat) : State :=
  let r := State.startSteps die j l s
  if r.2.isEmpty then r.1.passJob die j else r.1.setJob die { j with steps := r.2 }

/-- CONFIG_START_ORDER (R323, R327 steps 5 and 6). -/
def execConfigStartOrder (die : Fin 8) (s : State) : Host.Outcome State Fault Refusal :=
  .next (s.serve die (fun j => j.ended) (fun j => s.startOrder die j j.steps))

/-- WAIT_LOCK_TIMEOUT (R323). -/
def execWaitLockTimeout (die : Fin 8) (s : State) : Host.Outcome State Fault Refusal :=
  .next (s.serve die (fun j => j.ended && j.steps.head? == some 1 && !s.fabLocked die) (fun j =>
    (s.setReg .CFG_STAT_LOCKTMO die 1).startOrder die j (j.steps.drop 1)))

/-- FULL_STREAM_LOAD (R324, R393): once a start, for a die whose fabric is not yet loaded. -/
def execFullStreamLoad (die : Fin 8) (s : State) : Host.Outcome State Fault Refusal :=
  .next (
    if s.dies ≤ die.val ∨ s.start.done.contains .p5 = false ∨ s.start.done.contains .p6c ∨ (s.cfgJobs die).isEmpty = false ∨
        (List.range 16).all (fun r => s.reg .CFG_REGIONS_STATE (die * 16 + r) == 1) = false then s
    else (s.bleachDie die).setJobs die [slotJob die 0])

/-! ## Writing the flash (R334) -/

/-- A flash write that does not begin. -/
def State.flashRefuse (s : State) (die result : Nat) : State := s.setReg .CFG_FLASH_STAT_RESULT die result

/-- The checks of a flash write: 0, or RESULT. -/
def State.flashResult (s : State) (die src len slot : Nat) : State × Nat :=
  if s.reg .CFG_STAT_BOOT die < 2 ∧ s.reg .CFG_STAT_SLOT die = slot then (s, 2)
  else
    let c := s.checkStream ⟨false, src, some len⟩ die none
    (c.1, match c.2.1 with
      | 0 => 0
      | 11 => 4
      | _ => 3)

/-- A flash write begins. -/
def State.flashBegin (s : State) (die : Nat) (w : FlashJob) : State :=
  let s := ((s.setReg .CFG_FLASH_STAT_BUSY die 1).setReg .CFG_FLASH_STAT_RESULT die 0).setReg .CFG_FLASH_STAT_PROGRESS die 0
  { s with cfg := { s.cfg with writing := Tbl.set s.cfg.writing die w } }

/-- Bytes of the flash written. -/
def State.flashSet (s : State) (a : Nat) (b : List Byte) : State := { s with cfg := { s.cfg with flash := memPut s.cfg.flash a b } }

/-- FLASH_WRITE (R334): the checks, which a stack that does not serve keeps waiting (R181, R184), then the slot's header area is
erased. -/
def execFlashWrite (src : Src) (die : Fin 8) (value : BitVec 128) (s : State) : Host.Outcome State Fault Refusal :=
  .next (s.writeAs src .CFG_FLASH_WR die 0 (fun s =>
    let v := value.toNat
    let a := natBits v 0 48
    let n := natBits v 64 32
    let slot := natBits v 96 1
    let s := ((s.setReg .CFG_FLASH_WR_SRC die a).setReg .CFG_FLASH_WR_LEN die n).setReg .CFG_FLASH_WR_SLOT die slot
    let may := match src with
      | .port p => s.holdsLease p && s.pkgStopped
      | .helm _ _ => false
    if natBits v 97 1 = 0 ∨ may = false ∨ s.regB .CFG_FLASH_STAT_BUSY die then s
    else if s.hbmWaits a n then s.flashBegin die ⟨a, n, slot, false⟩
    else
      let e := s.flashResult die a n slot
      if e.2 ≠ 0 then e.1.flashRefuse die e.2
      else
        (e.1.flashBegin die ⟨a, n, slot, true⟩).flashSet (slotBase die slot) (List.replicate 4096 0)))

/-- A flash write ends. -/
def State.flashEnd (s : State) (die result : Nat) : State :=
  let s := { s with cfg := { s.cfg with writing := Tbl.erase s.cfg.writing die } }
  ((s.setReg .CFG_FLASH_STAT_BUSY die 0).setReg .CFG_FLASH_STAT_RESULT die result).raise die 0x61

/-- The image of a flash write in the slot; a write that fails leaves the slot without a header. -/
def State.flashPut (s : State) (die : Nat) (w : FlashJob) (ok : Bool) : State :=
  let r := s.hbmTake w.src w.len
  match r.2 with
  | none => r.1.flashEnd die 4
  | some b =>
    if ok = false then r.1.flashEnd die 5
    else
      let s := r.1.flashSet (slotBase die w.slot) b
      (s.setReg .CFG_FLASH_STAT_PROGRESS die (w.len / 2 ^ 20)).flashEnd die 1

/-- FLASH_WRITE_DONE (R334, R382): the checks that waited come first. -/
def execFlashWriteDone (die : Fin 8) (ok : Bool) (s : State) : Host.Outcome State Fault Refusal :=
  .next (
    match Tbl.get? s.cfg.writing die.val with
    | none => s
    | some w =>
      if s.hbmWaits w.src w.len then s
      else if w.checked then s.flashPut die w ok
      else
        let e := s.flashResult die w.src w.len w.slot
        if e.2 ≠ 0 then e.1.flashEnd die e.2
        else
          (e.1.flashSet (slotBase die w.slot) (List.replicate 4096 0)).flashPut die w ok)

end Sys2Proof.Machine
end

