-- ==== Sys2Proof/Machine/Sallan.lean ====
section
/-! DEFINITION. Sallan ports: bring-up, retraining, test, flits, traffic that waits or is refused (R404 to R412, R417), and the
gating of blocks (R370). -/

namespace Sys2Proof.Machine

/-! ## Places and states -/

/-- The gateway of a port (R404). -/
def gateEp (die p : Nat) : Ep := .hub (2 * die + p / 2) (8 + p % 2)

/-- A lane of a port among the lanes of all dies. -/
def laneNo (die p i : Nat) : Nat := die * 32 + 8 * p + i

/-- SAL_PORT_STAT.STATE. -/
def State.salSt (s : State) (die p : Nat) : Nat := s.reg .SAL_PORT_STAT_STATE (die * 4 + p)

/-- A state of a port entered; every change is reported (R411, R382). -/
def State.salEnter (s : State) (die p v : Nat) : State :=
  if s.salSt die p = v then s else (s.setReg .SAL_PORT_STAT_STATE (die * 4 + p) v).raise die (0x40 + p)

/-- SAL_PKG as a port remembers it. -/
def State.pkgNo (s : State) : Nat := s.reg .SAL_PKG_NUM 0 + 65536 * s.reg .SAL_PKG_VALID 0

/-- Whether a port's lanes may be driven: its die is present, its block is not gated, start order 6d has begun (R370, R393). -/
def State.salLive (s : State) (die p : Nat) : Bool :=
  decide (die < s.dies) && s.gateOn die (2 + p) && s.start.done.contains .p5

/-- EN of a port. -/
def State.salEn (s : State) (die p : Nat) : Bool := s.regB .SAL_PORT_CTL_EN (die * 4 + p)

/-- A new WIDTH or package number that the port does not use yet (R405, R413). -/
def State.salChanged (s : State) (die p : Nat) : Bool :=
  (s.salp die p).width != s.reg .SAL_PORT_CTL_WIDTH (die * 4 + p) || (s.salp die p).pkg != s.pkgNo

/-- Whether a bring-up is due (R406): the port is enabled and OFF, or a RESTART has put a changed setting into force. -/
def State.salDue (s : State) (die p : Nat) : Bool :=
  s.salLive die p && s.salEn die p && (s.salSt die p == 0 || (s.salp die p).due)

/-- A port at RESTART: a changed WIDTH or package number is in force from now on, with the map of raw lanes that it gives, and the port
is due for a bring-up (R405, R406, R413). -/
def State.salRestart (s : State) (die p : Nat) : State :=
  let w := s.reg .SAL_PORT_CTL_WIDTH (die * 4 + p)
  if !s.salChanged die p then s
  else s.modSal die p (fun q => { q with
    width := w, pkg := s.pkgNo, due := true,
    rawUp := q.rawUp.filter (fun l => decide (laneCount w ≤ l)), rawRung := q.rawRung.filter (fun e => decide (laneCount w ≤ e.1)) })

/-! ## Traffic (R410 to R412) -/

/-- The flits of a replay buffer. -/
def replayMax : Nat := 256

/-- A packet given to the link: one flit (R410). -/
def State.linkPut (s : State) (die p : Nat) (k : Packet) : State :=
  let n := (s.salp die p).txSeq
  (s.modSal die p (fun q => { q with txSeq := n + 1, sent := q.sent ++ [(n, k)] })).send (.link die p n k)

/-- The flits of the replay buffer sent again, each counted. -/
def State.resend (s : State) (die p : Nat) (l : List (Nat × Packet)) : State :=
  (l.foldl (fun s e => s.send (.link die p e.1 e.2)) s).bumpN .SAL_PORT_ERR_REPLAYS (die * 4 + p) l.length

/-- A packet refused at its gateway (R412, R414). -/
def State.gateRefuse (s : State) (die p : Nat) (k : Refuse) (q : Packet) : State := s.refuse (gateEp die p) none die k q

/-- The traffic of a port that is no longer in service: what was sent and not acknowledged is lost. What waits stands at the
gateway, which refuses it from now on. -/
def State.dropTraffic (s : State) (die p : Nat) : State :=
  let q := s.salp die p
  let s := s.modSal die p (fun q => { q with sent := [], arrived := [], txSeq := 0, rxSeq := 0 })
  let s := s.bumpN .SAL_PORT_ERR_LOST (die * 4 + p) q.sent.length
  (q.sent.map (·.2)).foldl (fun s k => s.gateRefuse die p .rst k) s

/-- DOWN with a reason (R406 to R408, R412). -/
def State.salDown (s : State) (die p reason : Nat) : State :=
  let i := die * 4 + p
  (((s.bump .SAL_PORT_STAT_DOWNS i).setReg .SAL_PORT_STAT_REASON i reason).salEnter die p 6).dropTraffic die p

/-- A port that has been UP leaves service: no peer has been seen since (table SAL_PORT_PEER). -/
def State.salUnseen (s : State) (die p : Nat) : State :=
  if [3, 4, 5].contains (s.salSt die p) then s.setReg .SAL_PORT_PEER_VALID (die * 4 + p) 0 else s

/-- A port idled: it is OFF and its traffic is refused (R370, R412). -/
def State.salIdle (s : State) (die p : Nat) : State :=
  if s.salSt die p = 0 then s else ((s.salUnseen die p).salEnter die p 0).dropTraffic die p

/-- UP at a rung: the replay buffer goes again (R408, R411). -/
def State.salUp (s : State) (die p rung : Nat) : State :=
  let i := die * 4 + p
  let again := (s.salp die p).sent
  let s := ((s.setReg .SAL_PORT_STAT_RATE i rung).modSal die p (fun q => { q with rung := rung, retraining := false })).salEnter die p 3
  s.resend die p again

/-! ## Bring-up (R406 to R408, R417) -/

/-- DETECT entered, with the settings in force (R405, R406). The replay buffer is kept (R410, R411). -/
def State.salDetect (s : State) (die p : Nat) : State :=
  ((s.salUnseen die p).modSal die p (fun q => { q with good := [], rung := 0, passed := none, used := 0, due := false })).salEnter die p 1

/-- SALLAN_BRINGUP (R406). -/
def execSallanBringup (die : Fin 8) (sp : Fin 4) (s : State) : Host.Outcome State Fault Refusal :=
  .next (if s.salDue die sp then s.salDetect die sp else s)

/-- SALLAN_RETRY_TIMER (R406). -/
def execSallanRetryTimer (die : Fin 8) (sp : Fin 4) (s : State) : Host.Outcome State Fault Refusal :=
  .next (
    if s.salLive die sp && s.salEn die sp && s.salSt die sp == 6 && s.reg .SAL_PORT_CTL_RETRY_S (die.val * 4 + sp.val) != 0
    then s.salDetect die sp else s)

/-- The widest width whose lanes are all good, none where there is none (R407). -/
def widest (w : Nat) (good : List Nat) : Option Nat :=
  [8, 4, 2, 1].find? (fun n => decide (n ≤ w) && (List.range n).all good.contains)

/-- The WIDTH code of a number of lanes (R405). -/
def widthCode (n : Nat) : Nat := if n = 8 then 4 else if n = 4 then 3 else n

/-- A width chosen: the port trains at rung 0, or is DOWN (R407, R408). -/
def State.chooseWidth (s : State) (die p : Nat) : State :=
  let i := die * 4 + p
  match widest (laneCount (s.salp die p).width) (s.salp die p).good with
  | none => s.salDown die p 1
  | some n =>
    (((s.modSal die p (fun q => { q with used := n, rung := 0, passed := none })).setReg .SAL_PORT_STAT_WIDTH i (widthCode n)).setReg
      .SAL_PORT_STAT_RATE i 0).salEnter die p 2

/-- The physical lane of this end's receivers that carries a logical lane. -/
def lanePhys (r : DetectResult) (i : Nat) : Nat := if r.order = .reversed then 7 - i else i

/-- What this end's check of a logical lane shows: 0 good, 1 open, 2 and 3 shorted. Only the receiver reorders the lanes: the lane that
this end drives is the logical lane itself (R406). -/
def laneFault (r : DetectResult) (i : Nat) : Nat :=
  if r.shortGnd.getLsbD i then 2 else if r.shortVcc.getLsbD i then 3 else if r.open_.getLsbD (lanePhys r i) then 1 else 0

/-- Whether either end finds a logical lane bad (R406). -/
def laneBad (r : DetectResult) (i : Nat) : Bool := decide (laneFault r i ≠ 0) || r.far.getLsbD i

/-- The logical lanes that both ends find good. -/
def goodLanes (r : DetectResult) : List Nat := (List.range 8).filter (fun i => !laneBad r i)

/-- What this end tells the far end in training: its numbers, its WIDTH, the lanes that it finds bad (R406, R407). -/
def State.sayHello (s : State) (die p : Nat) (r : DetectResult) : State :=
  let q := s.salp die p
  s.send (.hello die p (q.pkg % 65536) (decide (65536 ≤ q.pkg)) q.width
    (BitVec.ofNat 8 (((List.range 8).map (fun i => if laneFault r i ≠ 0 then 2 ^ i else 0)).sum)))

/-- Results of DETECT noted in a lane's register: POL stands with the physical lane, FAULT and LOCK with the logical one. -/
def State.noteLane (s : State) (die p : Nat) (r : DetectResult) (i : Nat) : State :=
  let f := laneFault r i
  ((s.setReg .SAL_LANE_STAT_FAULT (laneNo die p i) f).setReg .SAL_LANE_STAT_LOCK (laneNo die p i) (if f = 0 then 1 else 0)).setReg
    .SAL_LANE_STAT_POL (laneNo die p i) (if r.inverted.getLsbD i then 1 else 0)

/-- The far end's values recorded (R407). -/
def State.notePeer (s : State) (die p : Nat) (r : DetectResult) : State :=
  let i := die * 4 + p
  (((((s.setReg .SAL_PORT_PEER_PKG i r.peerPkg.toNat).setReg .SAL_PORT_PEER_DIE i r.peerDie.toNat).setReg .SAL_PORT_PEER_PORT i
    r.peerPort.toNat).setReg .SAL_PORT_PEER_PVALID i (if r.peerValid then 1 else 0)).setReg .SAL_PORT_PEER_VALID i 1).modSal die p
      (fun q => { q with peerWidth := r.peerWidth })

/-- Good raw lanes that are not UP begin their training (R417). -/
def State.rawStart (s : State) (die p : Nat) (r : DetectResult) : State :=
  s.modSal die p (fun q =>
    let l := (List.range 8).filter (fun i => decide (laneCount q.width ≤ i) && !q.rawUp.contains i && !laneBad r i)
    { q with rawRung := l.foldl (fun t i => Tbl.set t i 0) q.rawRung })

/-- SALLAN_DETECT_DONE (R406, R407, R417): lanes that are UP in raw mode keep their results. A port that is not enabled has its
raw lanes checked only. -/
def execSallanDetectDone (die : Fin 8) (sp : Fin 4) (res : DetectResult) (s : State) : Host.Outcome State Fault Refusal :=
  .next (
    let i := die.val * 4 + sp.val
    if !s.salLive die sp then s
    else if s.salSt die sp ≠ 1 then
      (if s.salSt die sp = 0 ∧ s.salEn die sp = false then s.rawStart die sp res else s)
    else
      let good := goodLanes res
      let s := ((List.range 8).filter (fun j => !(s.salp die sp).rawUp.contains j)).foldl (fun s j => s.noteLane die sp res j)
        (s.sayHello die sp res)
      let s := ((s.setReg .SAL_PORT_STAT_REV i (if res.order = .reversed then 1 else 0)).modSal die sp
        (fun q => { q with good := good })).rawStart die sp res
      let seen := !good.isEmpty
      let s := if seen then s.notePeer die sp res else s
      if res.order = .other then s.salDown die sp 4
      else if seen ∧ res.peerWidth ≠ (s.salp die sp).width then s.salDown die sp 3
      else s.chooseWidth die sp)

/-- Errors that a rung allows (R408). -/
def State.maxErr (s : State) (die p : Nat) : Nat := s.reg .SAL_PORT_CTL_MAX_ERR (die * 4 + p)

/-- The highest rung (R408). -/
def State.maxRung (s : State) (die p : Nat) : Nat := s.reg .SAL_PORT_CTL_MAX_RATE (die * 4 + p)

/-- Whether a lane fails a dwell, at this end's receiver or at the far end's (R408). -/
def State.dwellFails (s : State) (die p : Nat) (r : DwellResult) (i : Nat) : Bool :=
  decide (s.maxErr die p < r.errs.getD i 0) || r.far.getLsbD i

/-- The Rose lanes of a port at the end of a dwell: it goes on to a higher rung where both ends agree to (R408). -/
def State.roseDwell (s : State) (die p : Nat) (r : DwellResult) : State :=
  let q := s.salp die p
  let lanes := List.range q.used
  let bad := lanes.filter (s.dwellFails die p r)
  if bad.isEmpty then
    (if q.rung < s.maxRung die p ∧ r.climb then
      (s.modSal die p (fun q => { q with passed := some q.rung, rung := q.rung + 1 })).setReg .SAL_PORT_STAT_RATE (die * 4 + p) (q.rung + 1)
     else s.salUp die p q.rung)
  else match q.passed with
    | some r => s.salUp die p r
    | none =>
      let s := bad.foldl (fun s i => s.setReg .SAL_LANE_STAT_FAULT (laneNo die p i) 4) s
      if bad.length = lanes.length then s.salDown die p 2
      else (s.modSal die p (fun q => { q with good := q.good.filter (fun i => !bad.contains i) })).chooseWidth die p

/-- A raw lane in training at the end of a dwell (R408, R417). -/
def State.rawDwell (s : State) (die p : Nat) (r : DwellResult) (e : Nat × Nat) : State :=
  let up (s : State) : State := s.modSal die p (fun q => { q with rawUp := e.1 :: q.rawUp, rawRung := Tbl.erase q.rawRung e.1 })
  if s.dwellFails die p r e.1 = false then
    (if e.2 < s.maxRung die p ∧ r.climb then s.modSal die p (fun q => { q with rawRung := Tbl.set q.rawRung e.1 (e.2 + 1) }) else up s)
  else if e.2 = 0 then
    (s.setReg .SAL_LANE_STAT_FAULT (laneNo die p e.1) 4).modSal die p (fun q => { q with rawRung := Tbl.erase q.rawRung e.1 })
  else up s

/-- The errors of a dwell noted, up to the counter's top (R408). -/
def State.noteErrs (s : State) (die p : Nat) (lanes : List Nat) (errs : List Nat) : State :=
  lanes.foldl (fun s i => s.setReg .SAL_LANE_STAT_PRBS_ERR (laneNo die p i) (min (errs.getD i 0) (2 ^ 32 - 1))) s

/-- SALLAN_RUNG_DWELL_DONE (R408, R417). -/
def execSallanRungDwellDone (die : Fin 8) (sp : Fin 4) (r : DwellResult) (s : State) : Host.Outcome State Fault Refusal :=
  .next (
    if !s.salLive die sp then s
    else
      let q := s.salp die sp
      let s := (s.noteErrs die sp (q.rawRung.map (·.1)) r.errs)
      let s := q.rawRung.foldl (fun s e => s.rawDwell die sp r e) s
      if s.salSt die sp = 2 then (s.noteErrs die sp (List.range q.used) r.errs).roseDwell die sp r else s)

/-! ## Retraining and test (R409, R411) -/

/-- A retraining begins. -/
def State.salRetrain (s : State) (die p : Nat) : State :=
  ((s.bump .SAL_PORT_STAT_RETRAINS (die * 4 + p)).modSal die p (fun q => { q with retraining := true })).salEnter die p 4

/-- Whether a retraining can begin: the port is UP, or in TEST (R409, R411). -/
def State.mayRetrain (s : State) (die p : Nat) : Bool := s.salSt die p == 3 || s.salSt die p == 5

/-- A lane in service loses its lock or is found shorted: a Rose lane in use retrains its port, a raw lane trains again on its own
(R411, R417). -/
def State.laneLost (s : State) (die p lane : Nat) : State :=
  let q := s.salp die p
  if lane < q.used ∧ s.mayRetrain die p then s.salRetrain die p
  else if q.rawUp.contains lane then
    s.modSal die p (fun q => { q with rawUp := q.rawUp.filter (· != lane), rawRung := Tbl.set q.rawRung lane 0 })
  else s

/-- A lane found shorted: its driver is off until the next bring-up (R406, R411). -/
def State.laneShort (s : State) (die p lane : Nat) (supply : Bool) : State :=
  let s := (s.setReg .SAL_LANE_STAT_FAULT (laneNo die p lane) (if supply then 3 else 2)).laneLost die p lane
  s.modSal die p (fun q => { q with rawRung := Tbl.erase q.rawRung lane, good := q.good.filter (· != lane) })

/-- SALLAN_RETRAIN (R411). -/
def execSallanRetrain (die : Fin 8) (sp : Fin 4) (trig : RetrainTrig) (s : State) : Host.Outcome State Fault Refusal :=
  .next (
    let go (s : State) : State := if s.mayRetrain die sp then s.salRetrain die sp else s
    match trig with
    | .command src => s.writeAs src .SAL_PORT_CMD die sp go
    | .replays => go s
    | .lostLock l => s.laneLost die sp l
    | .short l supply => if s.salLive die sp then s.laneShort die sp l supply else s)

/-- SALLAN_QUICK_RETRAIN_DONE (R411). -/
def execSallanQuickRetrainDone (die : Fin 8) (sp : Fin 4) (ok : Bool) (s : State) : Host.Outcome State Fault Refusal :=
  .next (
    if s.salSt die sp ≠ 4 then s
    else if ok then s.salUp die sp (s.salp die sp).rung
    else s.salDetect die sp)

/-- SALLAN_TEST (R409). -/
def execSallanTest (src : Src) (die : Fin 8) (sp : Fin 4) (s : State) : Host.Outcome State Fault Refusal :=
  .next (s.writeAs src .SAL_PORT_CMD die sp (fun s =>
    if s.salSt die sp ≠ 3 then s
    else (s.noteErrs die sp (List.range (s.salp die sp).used) []).salEnter die sp 5))

/-- The errors that TEST has counted on a lane: what the far end's pattern showed. -/
def State.testErr (s : State) (die p i : Nat) : State :=
  (s.setReg .SAL_LANE_STAT_PRBS_ERR (laneNo die p i) s.freeVal).drew 1

/-- SALLAN_TEST_END (R409, R411). -/
def execSallanTestEnd (src : Src) (die : Fin 8) (sp : Fin 4) (s : State) : Host.Outcome State Fault Refusal :=
  .next (s.writeAs src .SAL_PORT_CMD die sp (fun s =>
    if s.salSt die sp ≠ 5 then s
    else ((List.range (s.salp die sp).used).foldl (fun s i => s.testErr die sp i) s).salRetrain die sp))

/-! ## Flits (R410) -/

/-- SALLAN_FLIT_RECEIVE (R410): acknowledged packets leave the replay buffer; packets in order go to the gateway. -/
def execSallanFlitReceive (die : Fin 8) (sp : Fin 4) (seq : Nat) (crcOk : Bool) (ackTo : Nat) (pkts : List Packet) (s : State) :
    Host.Outcome State Fault Refusal :=
  .next (
    if s.salSt die sp ≠ 3 then s
    else
      let next := (s.salp die sp).rxSeq
      if !crcOk then s.send (.linkAck die sp next true)
      else
        let s := s.modSal die sp (fun q => { q with sent := q.sent.filter (fun e => decide (ackTo ≤ e.1)) })
        if seq = next then
          (s.modSal die sp (fun q => { q with rxSeq := next + 1, arrived := q.arrived ++ pkts })).send (.linkAck die sp (next + 1) false)
        else s.send (.linkAck die sp next (decide (next < seq))))

/-! ## Gating (R370) -/

/-- A block that has just been gated: a stack enters self-refresh, a port's lanes idle, an unfinished measurement ends with
nothing. -/
def State.gated (s : State) (die b : Nat) : State :=
  if s.gateOn die b then s
  else if b < 2 then (if s.reg .HBM_STATE_STATE (2 * die + b) = 0 then s else s.selfRefresh (2 * die + b))
  else if b < 6 then
    (s.salIdle die (b - 2)).modSal die (b - 2) (fun q => { q with rawUp := [], rawRung := [] })
  else s

/-- The HBM bits that a write may leave: a controller whose stack holds a live area stays enabled. -/
def State.hbmGate (s : State) (die v : Nat) : Nat :=
  (List.range 2).foldl (fun v h =>
    if natBits v h 1 = 0 ∧ s.gateOn die h ∧ s.stackHeld (2 * die + h) then natSet v h 1 1 else v) v

/-- CLK_GATE_WRITE (R370): a write that would gate a controller whose stack holds a live area is ignored and recorded. -/
def execClkGateWrite (src : Src) (die : Fin 8) (value : BitVec 32) (s : State) : Host.Outcome State Fault Refusal :=
  .next (s.writeAs src .CLK_GATE die 0 (fun s =>
    let v := value.toNat
    let d := die.val
    if s.hbmGate d (v % 4) ≠ v % 4 then s.lwrErr src (Rg.offset .CLK_GATE die 0)
    else
      let s := (s.setReg .CLK_GATE_HBM d (v % 4)).setReg .CLK_GATE_SALLAN d (natBits v 2 4)
      let s := ((s.setReg .CLK_GATE_FAB d (natBits v 6 1)).setReg .CLK_GATE_MEAS d (natBits v 7 1)).setReg .CLK_GATE_CLKOUT d
        (natBits v 8 1)
      (List.range 9).foldl (fun s b => s.gated d b) s))

end Sys2Proof.Machine
end

