-- ==== Sys2Proof/Machine/Gateway.lean ====
section
/-! DEFINITION. The Sallan gateways: outbound and inbound packets and the window check (R146, R206, R412 to R416). -/

namespace Sys2Proof.Machine

/-- The module's number as it goes into packets: 0 while it is not valid (R413). -/
def State.ownPkg (s : State) : Nat := if s.regB .SAL_PKG_VALID 0 then s.reg .SAL_PKG_NUM 0 else 0

/-! ## The window check (R206) -/

/-- The bytes that a packet names, in pieces: a write or read at a core wraps from row 63 to row 0 (R142). -/
def State.pktRange (s : State) (p : Packet) : Option (List (Nat × Nat)) :=
  let n := 16 * p.count.toNat
  match addrEp p.target p.tkind with
  | .core c =>
    let base := 2 ^ 44 + c.toNat * 4096
    let o := p.var.toNat % 64 * 64 + natBits p.var.toNat 6 2 * 16
    if p.cmd = cMASK then some [(base + p.var.toNat % 64 * 64, 64)]
    else if o + n ≤ 4096 then some [(base + o, n)] else some [(base + o, 4096 - o), (base, o + n - 4096)]
  | .hub h 0 =>
    let o := 16 * p.var.toNat
    if p.cmd = cMASK then some [(h * s.stackE + o / 64 * 64, 64)] else some [(h * s.stackE + o, n)]
  | _ => none

/-- Whether a command needs WR, or RD; none of the others is admitted. -/
def needsWr (c : BitVec 8) : Option Bool :=
  if c = cWRITE ∨ c = cMASK ∨ c = cMEMW ∨ c = cTALLY then some true
  else if c = cREAD ∨ c = cMEMR then some false
  else none

/-- Whether a window admits a packet from a package (R206). -/
def State.windowAdmits (s : State) (w spkg : Nat) (wr : Bool) (l : List (Nat × Nat)) : Bool :=
  let b := (s.windowRange w).1
  let n := (s.windowRange w).2
  l.all (fun r => decide (b ≤ r.1) && decide (r.1 + r.2 ≤ b + n)) &&
    ((spkg ^^^ s.reg .XFR_WIN_SRC_PKG w) &&& (2 ^ 16 - 1 - s.reg .XFR_WIN_SRC_MASK w)) == 0 &&
    (if wr then s.regB .XFR_WIN_WR w else s.regB .XFR_WIN_RD w)

/-- The context of a window that admits a packet, none where no window does. -/
def State.admits (s : State) (p : Packet) : Option Nat :=
  match needsWr p.cmd, s.pktRange p with
  | some wr, some l => ((s.windows (fun w => s.windowAdmits w (xSpkg p) wr l)).head?).map (fun w => s.reg .XFR_WIN_CTX w)
  | _, _ => none

/-! ## Injection (R146, R416) -/

/-- A packet as a gateway injects it: inbound, with the gateway's own die and port, UP computed anew. -/
def State.gatePkt (s : State) (die sp : Nat) (p : Packet) : Packet :=
  { p with xu := extUnit (xDpkg p) (xSpkg p) die sp true,
           up := BitVec.ofNat 4 (min (coverEp (gateEp die sp) (addrEp p.target p.tkind)) s.rootLevel) }

/-- A packet for this module: answers pass, requests need a window (R206). -/
def State.gateInject (s : State) (die sp : Nat) (p : Packet) : State :=
  let q := s.gatePkt die sp p
  if p.cmd = cRDATA ∨ p.cmd = cANSWER then s.inject (gateEp die sp) q
  else match s.admits p with
    | some x => s.inject (gateEp die sp) { q with ctx := BitVec.ofNat 10 x }
    | none => s.gateRefuse die sp .den q

/-- Whether a packet is a gateway's own answer to a packet it has refused. -/
def ownAnswer (die sp : Nat) (p : Packet) : Bool :=
  decide (p.src = (epAddr (gateEp die sp)).1) && decide (p.skind = (epAddr (gateEp die sp)).2)

/-- A packet given to the link, its SPKG the module's number (R414). -/
def State.linkOut (s : State) (die sp : Nat) (p : Packet) : State :=
  s.linkPut die sp { p with xu := extUnit (xDpkg p) s.ownPkg (xDie p) (xPort p) false }

/-- GATEWAY_OUTBOUND (R146, R412 to R414): a packet waits while its port is in DETECT, TRAINING, RETRAIN or TEST, or the replay
buffer is full. -/
def execGatewayOutbound (die : Fin 8) (sp : Fin 4) (p : Packet) (s : State) : Host.Outcome State Fault Refusal :=
  .next (
    let e := gateEp die sp
    if s.standsAt e p = false ∨ p.ext = false ∨ xIn p then s
    else
      let own := ownAnswer die sp p
      let st := s.salSt die sp
      if !own && !s.regB .SAL_PKG_VALID 0 then (s.arrive e p).gateRefuse die sp .rst p
      else if !own && xDpkg p == s.reg .SAL_PKG_NUM 0 then
        (s.arrive e p).gateInject die sp { p with xu := extUnit (xDpkg p) s.ownPkg die sp false }
      else if st = 0 ∨ st = 6 ∨ s.gateOn die (2 + sp) = false then (s.arrive e p).gateRefuse die sp .rst p
      else if st ≠ 3 ∨ replayMax ≤ (s.salp die sp).sent.length then s
      else if !own && xDpkg p != s.reg .SAL_PORT_PEER_PKG (die.val * 4 + sp.val) then
        ((s.arrive e p).bump .SAL_PORT_ERR_MISDIRECT (die.val * 4 + sp.val)).gateRefuse die sp .den p
      else (s.arrive e p).linkOut die sp p)

/-! ## Inbound (R415) -/

/-- Whether a command is one of the table *Rose commands*. -/
def knownCmd (c : BitVec 8) : Bool :=
  [cWRITE, cREAD, cIBUF, cROUTE, cSTART, cSTOP, cMASK, cMEMW, cMEMR, cRDATA, cFAULT, cTALLY, cANSWER, cDONE].contains c

/-- Whether a packet from the link is malformed (R415). -/
def malformedPkt (p : Packet) : Bool :=
  !p.ext || decide (16 < p.count.toNat) || !knownCmd p.cmd || decide (p.tkind = 3) || decide (natBits p.xu.toNat 38 90 ≠ 0) ||
    (decide (p.tkind = 0) && decide (natBits p.var.toNat 28 4 ≠ 0)) ||
    (if p.cmd = cREAD ∨ p.cmd = cMEMR then !p.data.isEmpty else decide (p.data.length ≠ p.count.toNat))

/-- GATEWAY_INBOUND (R413, R415, R416): the next packet that has arrived from the link. -/
def execGatewayInbound (die : Fin 8) (sp : Fin 4) (p : Packet) (s : State) : Host.Outcome State Fault Refusal :=
  .next (
    let i := die.val * 4 + sp.val
    if (s.salp die sp).arrived.head? ≠ some p then s
    else
      let s := s.modSal die sp (fun q => { q with arrived := q.arrived.drop 1 })
      if malformedPkt p then s.bump .SAL_PORT_ERR_MALFORMED i
      else if !s.regB .SAL_PKG_VALID 0 then s.gateRefuse die sp .rst (s.gatePkt die sp p)
      else if xDpkg p ≠ s.reg .SAL_PKG_NUM 0 then
        (s.bump .SAL_PORT_ERR_MISDIRECT i).gateRefuse die sp .den (s.gatePkt die sp p)
      else s.gateInject die sp p)

end Sys2Proof.Machine
end

