-- ==== Sys2Proof/Machine/Context.lean ====
section
/-! DEFINITION. Commands of a context: OPEN, RUN, PAUSE, STOP, KILL, and the setup lease (R128, R130 to R132, R196, R226 to R229,
R233 to R237, R255, R282). -/

namespace Sys2Proof.Machine

/-! ## The registers of a context (R234) -/

/-- Whether a field's instance belongs to a context: one of its own registers, its refusal counts, its misses. -/
def ofCtx (x : Nat) (f : Fld) (i : Nat) : Bool :=
  if f.reg.info.scope = .ctx then i / f.reg.info.count == x
  else if f.reg = .ROSE_CTX_REFUSE then i % 1024 == x
  else if f.reg = .XFR_CTX_MISS then i == x
  else false

/-- Every register of a context at its reset value. -/
def State.clearCtx (s : State) (x : Nat) : State := { s with regs := s.regs.filter (fun e => !ofCtx x e.1.1 e.1.2) }

/-- The VF entries of a port that name a context cleared, each counted (R221). -/
def State.dropVf (s : State) (p x : Nat) : State :=
  match s.vfOf p x with
  | none => s
  | some i => (s.setReg .PCI_VF_CTX_VALID (p * 511 + i) 0).violation p

/-! ## The checks of R236 -/

/-- Whether a SHARE value admits a port. -/
def shares (v p : Nat) : Bool := v.testBit p

/-- Whether the blocks of a context may be held by a port, and no other context holds a core of them. -/
def State.coresFree (s : State) (x p : Nat) : Bool :=
  (s.blocks x).all (fun b => (unitsIn 4096 b.1 b.2).all (fun k => shares (s.reg .PKG_PART_CORE_SHARE k) p) &&
    s.ctxs.all (fun e => decide (e.1 = x) || !e.2.holds || !(s.blocks e.1).any (fun c => meets b c)))

/-- Whether a context's areas lie in exposed HBM that its port may hold, apart from those of live contexts. -/
def State.areasFree (s : State) (x p : Nat) : Bool :=
  (s.areas x).all (fun a => decide (a.1 + a.2 ≤ s.hbmTop) &&
    (unitsIn (2 ^ 30) a.1 a.2).all (fun g => shares (s.reg .PKG_PART_HBM_SHARE g) p) &&
    s.ctxs.all (fun e => decide (e.1 = x) || decide (s.cst e.1 ≤ 1) || !(s.areas e.1).any (fun b => meets a b)))

/-- Whether no two of some ranges meet, empty ones left out. -/
def apart : List (Nat × Nat) → Bool
  | [] => true
  | a :: r => (decide (a.2 = 0) || r.all (fun b => decide (b.2 = 0) || !meets a b)) && apart r

/-- Whether the control areas are large enough, inside the areas, and apart. -/
def State.controlsOk (s : State) (x : Nat) : Bool :=
  let held := s.reg .CTX_AREA_HELD_SIZE x * 65536
  let n := s.reg .CTX_AREA_FIX_N x
  decide (65536 + 1280 * s.ncore x ≤ held) && decide (1 ≤ n) && decide (n ≤ 4) && decide (1 ≤ s.reg .CTX_AREA_LOG_SIZE x) &&
    (s.controlAreas x).all (fun r => coveredBy (s.areas x) r.1 r.2 17) && apart (s.controlAreas x)

/-- Why a context may not take hold: the CMDERR code, 0 where it may. -/
def State.holdErr (s : State) (x : Nat) : Nat :=
  let p := s.portOf x
  if !s.coresFree x p then 3 else if !s.areasFree x p || !s.controlsOk x then 4 else 0

/-- Whether a core's state is another context's. -/
def Core.foreign (k : Core) (x : Nat) : Bool :=
  match k.lastHolder with
  | some y => y != x
  | none => false

/-- Hold taken of the cores; those that still hold state of another context begin their Bleach (R132, R236). -/
def State.takeHold (s : State) (x : Nat) : State :=
  let s := s.modCtx x (fun t => { t with holds := true })
  { s with cores := mapIf (fun e => s.inBlocks x e.1 && e.2.foreign x) (fun e => (e.1, { e.2 with bleaching := true })) s.cores }

/-- The addresses of a context's blocks, those that several blocks share once. -/
def State.addrsOf (s : State) (x : Nat) : List Nat :=
  (maximalBlocks [] (s.blocks x)).flatMap (fun b => (List.range b.2).map (· + b.1))

/-- The present cores of a context's blocks. -/
def State.coresOf (s : State) (x : Nat) : List Nat := (s.addrsOf x).filter (fun c => !s.absent c)

/-! ## Commands (R233 to R235, R246) -/

/-- CTX_STATE.CMDERR. -/
def State.cmdErr (s : State) (x code : Nat) : State := s.setReg .CTX_STATE_CMDERR x code

/-- A command done at once: CMDERR is 0, and BUSY clears. -/
def State.cmdDone (s : State) (x : Nat) : State := (s.cmdErr x 0).event .CTX_EVENT_STATE x

/-- A command begun. -/
def State.cmdBusy (s : State) (x : Nat) : State := (s.cmdErr x 0).setReg .CTX_STATE_BUSY x 1

/-- Whether a command is being carried out. -/
def State.isBusy (s : State) (x : Nat) : Bool := s.regB .CTX_STATE_BUSY x

/-- A write of a command to CTX_CMD by a port (R235): `open_` for OPEN, which any port may give. -/
def State.command (s : State) (port : Fin 2) (x : Nat) (open_ : Bool) (states : List Nat) (act : State → State) : State :=
  s.writeAs (.port port) .CTX_CMD x 0 (fun s =>
    if x = 0 ∨ (open_ = false ∧ s.owns port x = false) then s.violation port
    else if s.isBusy x ∨ states.contains (s.cst x) = false then s.cmdErr x 1
    else act s)

/-- A FREE context opened by a port. -/
def State.openCtx (s : State) (port x : Nat) : State :=
  let s := s.clearCtx x
  let s := { s with ctxs := Tbl.set s.ctxs x .reset }
  let s := (s.setReg .CTX_STATE_STATE x 1).setReg .CTX_STATE_OWNER x (port + 1)
  (s.dropVf (1 - port) x).cmdDone x

/-- CTX_OPEN (R221, R226, R234, R235). -/
def execCtxOpen (port : Fin 2) (x : Fin 1024) (s : State) : Host.Outcome State Fault Refusal :=
  .next (s.command port x true [0] (fun s => s.openCtx port x))

/-- CTX_RUN (R234 to R236). -/
def execCtxRun (port : Fin 2) (x : Fin 1024) (s : State) : Host.Outcome State Fault Refusal :=
  .next (s.command port x false [1, 4] (fun s =>
    if s.reg .PKG_STATE_STATE 0 ≠ 0 then s.cmdErr x 5
    else if s.cst x = 4 then ((s.setReg .CTX_STATE_STATE x 2).cmdDone x).markElig x
    else
      let e := s.holdErr x
      if e ≠ 0 then s.cmdErr x e
      else ((s.takeHold x).setReg .CTX_STATE_STATE x 2).cmdDone x))

/-- CTX_CMD_RESERVED (R235). -/
def execCtxCmdReserved (port : Fin 2) (x : Fin 1024) (s : State) : Host.Outcome State Fault Refusal :=
  .next (s.writeAs (.port port) .CTX_CMD x 0 (fun s =>
    if x.val = 0 ∨ s.owns port x = false then s.violation port else s.cmdErr x 2))

/-- WAITs in service of a context return to not begun (R234). -/
def State.dropWaits (s : State) (x : Nat) : State :=
  let l := ((s.ctx x).copies.filter Copy.waiting).map (·.id)
  (s.modCtx x (fun t => { t with copies := mapIf Copy.waiting (fun c => { c with begun := false }) t.copies })).unflag
    (fun y i => y == x && l.contains i)

/-! ## STOP -/

/-- CTX_STOP (R234). -/
def execCtxStop (port : Fin 2) (x : Fin 1024) (s : State) : Host.Outcome State Fault Refusal :=
  .next (s.command port x false [2] (fun s =>
    ((s.dropWaits x).modCtx x (fun t => { t with busy := .stopping })).cmdBusy x))

/-- Whether a copy is a FIX_CLOSE whose group has members that have not begun: it acts only after them (R259, R266). -/
def Ctx.closeLater (t : Ctx) (c : Copy) : Bool :=
  dOp c.bytes == 0x06 && (match c.grp with
    | some g => (match t.grp? g with
      | some q => q.members.any (fun i => match t.copy? i with
        | some k => !k.begun
        | none => false)
      | none => false)
    | none => false)

/-- Whether everything a context had begun has completed. -/
def State.allEnded (s : State) (x : Nat) : Bool :=
  let t := s.ctx x
  t.copies.all (fun c => !c.begun || c.done || t.closeLater c) && t.passes.isEmpty && s.xfers.all (fun u => decide (u.ctx ≠ x))

/-- CTX_STOP_DONE (R234). -/
def execCtxStopDone (x : Fin 1024) (s : State) : Host.Outcome State Fault Refusal :=
  .next (
    if (s.ctx x).busy ≠ .stopping ∨ s.cst x ≠ 2 ∨ s.allEnded x = false then s
    else (((s.modCtx x (fun t => { t with busy := .none })).setReg .CTX_STATE_STATE x 4).setReg .CTX_STATE_BUSY x 0).event
      .CTX_EVENT_STATE x)

/-! ## PAUSE (R80, R128, R196, R230, R234, R255) -/

/-- Stops sent to cores. -/
def State.stopAll (s : State) (l : List Nat) : State := l.foldl (fun s c => s.stopArrives c) s

/-- A context's transfers held: 2 by a pause, 3 by a link loss; one that waits at a page fault keeps its cause. -/
def State.holdXfers (s : State) (x cause : Nat) : State :=
  { s with xfers := mapIf (fun t => decide (t.ctx = x) && decide (t.hold = .none)) (fun t => { t with hold := .paused cause }) s.xfers }

/-- A context begins to pause. -/
def State.pauseCtx (s : State) (x cause : Nat) : State :=
  if (s.ctx x).busy = .pausing then s
  else
    let s := (s.setReg .CTX_STATE_PREV x (s.cst x)).setReg .CTX_STATE_BUSY x 1
    let s := ((s.dropWaits x).unflag (fun y _ => y == x)).modCtx x (fun t => { t with busy := .pausing, saved := [], heldPkts := [] })
    (s.holdXfers x cause).stopAll (s.coresOf x)

/-- CTX_PAUSE (R234). -/
def execCtxPause (port : Fin 2) (x : Fin 1024) (s : State) : Host.Outcome State Fault Refusal :=
  .next (s.command port x false [2, 4] (fun s => (s.pauseCtx x 2).cmdErr x 0))

/-- Whether a core has nothing more to save: its save is written, or a fault has stopped it (R84). -/
def Core.pauseDone (k : Core) : Bool :=
  k.saved || (match k.run with
    | .faulted _ => true
    | .killed => true
    | _ => false)

/-- ANSWERs that packets of the record still owe to an engine's tag (R128). -/
def Ctx.parked (t : Ctx) (half eng tag : Nat) : Nat :=
  (t.heldPkts.filter (fun e => e.2.ack && decide (addrEp e.2.src e.2.skind = .hub half (eng + 1)) &&
    e.2.tag.toNat % 2 ^ 14 == tag % 2 ^ 14)).length

/-- Whether a transfer has stopped: its pieces settled but for what a lost link has cut off, and what the record holds. -/
def State.xferQuiet (s : State) (x : Nat) (t : Xfer) : Bool :=
  t.quiet && decide (t.writes.sum ≤ (s.ctx x).parked t.half t.eng t.tag)

/-- Whether a flipped group's copy-out has stopped. -/
def State.grpQuiet (s : State) (x : Nat) (q : Grp) : Bool :=
  decide (q.acks ≤ (s.ctx x).parked fixEngine.1 fixEngine.2 q.tag) && q.hostOut.all (fun w => !w.sent)

/-- Whether a pausing context has stopped. -/
def State.paused (s : State) (x : Nat) : Bool :=
  (s.coresOf x).all (fun c => (s.core c).pauseDone) && s.xfers.all (fun t => decide (t.ctx ≠ x) || s.xferQuiet x t) &&
    (s.ctx x).grps.all (s.grpQuiet x)

/-! ## The held-write record (R128, R142, R196, R255) -/

/-- The header unit of a packet. -/
def pktHeader (p : Packet) : Nat :=
  p.up.toNat + p.target.toNat * 2 ^ 4 + p.cmd.toNat * 2 ^ 24 + p.ctx.toNat * 2 ^ 32 + p.count.toNat * 2 ^ 42 + p.tag.toNat * 2 ^ 48 +
    p.var.toNat * 2 ^ 64 + p.src.toNat * 2 ^ 96 + p.skind.toNat * 2 ^ 116 + p.tkind.toNat * 2 ^ 118 + (if p.t then 2 ^ 120 else 0) +
    (if p.cnt then 2 ^ 121 else 0) + (if p.ack then 2 ^ 122 else 0) + (if p.bulk then 2 ^ 123 else 0) + (if p.ext then 2 ^ 124 else 0)

/-- A packet as it travels: header, extension unit, data. -/
def pktBytes (p : Packet) : List Byte :=
  natBytes (pktHeader p) 16 ++ (if p.ext then natBytes p.xu.toNat 16 else []) ++ p.data.flatMap (fun u => natBytes u.toNat 16)

/-- The place where a transfer continues: its first piece that has not settled. -/
def Xfer.resumeAt (t : Xfer) : List Nat × Nat :=
  match t.hostOut, t.pieces with
  | w :: _, _ => (w.ix, w.i0)
  | [], p :: _ => (p.ix, p.i0)
  | [], [] => (t.ix, t.i0)

/-- CAUSE of a resume point. -/
def Hold.cause : Hold → Nat
  | .none => 0
  | .page _ _ _ => 1
  | .paused c => c
  | .resolved _ => 1

/-- FLAGS of a resume point. -/
def Xfer.resumeFlags (t : Xfer) : Nat :=
  (match t.hold with
   | .page _ w _ => if w then 2 else 1
   | .resolved w => if w then 2 else 1
   | _ => 0) + (if t.late then 4 else 0)

/-- A transfer as a pause leaves it: pieces whose reads a lost link has cut off count as not issued (R230). The bytes that a REDUCE
has read stay with its engine (DESIGN CHOICE, log 20). -/
def Xfer.parked (t : Xfer) : Xfer :=
  match t.plan, t.pieces with
  | .reduce _ _ _, _ => t
  | _, p :: _ => { t with pieces := [], ix := p.ix, i0 := p.i0 }
  | _, [] => t

/-- SEQ of a copy. -/
def Ctx.copySeq (t : Ctx) (i : Nat) : Nat :=
  match t.copy? i with
  | some c => dSeq c.bytes
  | none => 0

/-- SEQ of a transfer: its descriptor's, its stream's create's, or its group's FIX_CLOSE's. -/
def Ctx.seqOf (t : Ctx) (u : Xfer) : Nat :=
  match u.role with
  | .desc i => t.copySeq i
  | .arm _ _ seq _ => seq
  | .sig g => t.copySeq (((t.grp? g).bind (·.closer)).getD 0)

/-- A resume point (R196); of a REDUCE's links nothing has been delivered. -/
def Ctx.resumePoint (t : Ctx) (u : Xfer) : List Byte :=
  let r := match u.plan with
    | .reduce _ _ _ => ([], 0)
    | _ => u.resumeAt
  natBytes (r.2 / 16 * 16) 4 ++ (List.range 4).flatMap (fun k => natBytes (r.1.getD k 0) 4) ++ natBytes (t.seqOf u) 4 ++
    natBytes u.hold.cause 1 ++ natBytes u.resumeFlags 1 ++ natBytes 0 6

/-- One packet slot of the record; an empty one has the arrival order 0xFFFF_FFFF. -/
def recSlot (c n : Nat) : Option Packet → List Byte
  | some p => natBytes c 4 ++ natBytes n 4 ++ natBytes 0 8 ++ fitTo 304 (fitTo 288 (pktBytes p))
  | none => natBytes 0 4 ++ natBytes 0xFFFFFFFF 4 ++ List.replicate 312 0

/-- The slots of one core. -/
def Ctx.slots (t : Ctx) (c : Nat) : List Byte :=
  let l := (t.heldPkts.filter (fun e => e.1 == c)).map (·.2)
  (List.range 4).flatMap (fun n => recSlot c n l[n]?)

/-- The head of the record, up to the packet slots. -/
def State.recordHead (s : State) (x : Nat) : List Byte :=
  let t := s.ctx x
  let l := s.xfers.filter (fun u => decide (u.ctx = x))
  let copies := t.copies.filter (fun c => !c.done)
  fitTo 0x100 (natBytes t.heldPkts.length 4 ++ natBytes l.length 4 ++ natBytes t.heldCq.length 4 ++ natBytes copies.length 4 ++
    natBytes ((if t.pend.contains true then 1 else 0) + (if t.pend.contains false then 2 else 0)) 4) ++
  fitTo 0x4000 (copies.flatMap (fun c => natBytes c.bytes.toNat 64)) ++ fitTo 0x2000 (l.flatMap t.resumePoint) ++
  fitTo 0x9F00 (fitTo 0x1000 (t.heldCq.flatMap (fun e => e.bytes 0)))

/-- Base of the held-write record. -/
def State.heldBase (s : State) (x : Nat) : Nat := areaBase (s.reg .CTX_AREA_HELD_BASE x)

/-- Where the slots of a core of a context lie in its record. -/
def State.slotsAt (s : State) (x c : Nat) : Nat := s.heldBase x + 65536 + 1280 * (s.coreNo x c).getD 0

/-- The record written (R255), with what it names. -/
def State.writeRecord (s : State) (x : Nat) : State :=
  let l := (s.xfers.filter (fun u => decide (u.ctx = x))).map (·.id)
  ((s.addrsOf x).foldl (fun s c => s.hbmPut (s.slotsAt x c) ((s.ctx x).slots c)) (s.hbmPut (s.heldBase x) (s.recordHead x))).modCtx x
    (fun t => { t with recCopies := (t.copies.filter (fun c => !c.done)).map (·.id), recXfers := l })

/-- Whether a stack that holds the record keeps its writer or reader waiting. -/
def State.recordWaits (s : State) (x : Nat) : Bool := s.hbmWaits (s.heldBase x) (65536 + 1280 * s.ncore x)

/-- The passes that the cores of a context work for, by core (R112, R282). -/
def State.passesAt (s : State) (x : Nat) : Tbl Nat Nat :=
  (s.cores.filter (fun e => s.inBlocks x e.1)).filterMap (fun e => (s.passOfCore x e.1).map (fun p => (e.1, p.id)))

/-- The cores released with the state of the context still in them (R132, R236). -/
def State.releaseCores (s : State) (x : Nat) : State :=
  let at_ := s.passesAt x
  let free := fun (e : Nat × Core) => (e.1, { e.2 with lastHolder := some x, saved := false, stop := StopReq.none })
  let s : State := { s with cores := mapIf (fun e => s.inBlocks x e.1) free s.cores }
  s.modCtx x (fun t => { t with holds := false, passAt := at_ })

/-- The transfers of a context as a pause leaves them. -/
def State.parkXfers (s : State) (x : Nat) : State := { s with xfers := mapIf (fun t => decide (t.ctx = x)) Xfer.parked s.xfers }

/-- CTX_PAUSE_DONE (R234, R255). -/
def execCtxPauseDone (x : Fin 1024) (s : State) : Host.Outcome State Fault Refusal :=
  .next (
    if (s.ctx x).busy ≠ .pausing ∨ s.paused x = false ∨ s.recordWaits x then s
    else
      let s := (((s.writeRecord x).parkXfers x).releaseCores x).modCtx x (fun t => { t with busy := .none })
      ((s.setReg .CTX_STATE_STATE x 3).setReg .CTX_STATE_BUSY x 0).event .CTX_EVENT_STATE x)

/-! ## KILL (R129 to R132, R234, R282, R310, R326) -/

/-- The kill entry, where the ring has room (R234, R244). It reaches the ring by a translation as every entry does (R238); while one
is missing it waits, up to the end of the Bleach at the latest (DESIGN CHOICE, log 25). -/
def State.killEntry (s : State) (x : Nat) : List Cqe :=
  let t := s.ctx x
  if s.cqFull x || (s.port (s.portOf x)).lost then []
  else [⟨t.lastSeq, 0x0801, t.lastOp, s.timer % 2 ^ 48, (t.copies.filter (fun c => !c.done)).length % 2 ^ 16⟩]

/-- The cores that a kill Bleaches: those the context holds, and those whose last holder it is (R129, R132). -/
def State.killCores (s : State) (x : Nat) : List Nat :=
  (if (s.ctx x).holds then s.coresOf x else []) ++
    (s.cores.filter (fun e => decide (e.2.lastHolder = some x) && (s.holder e.1).isNone)).map (·.1)

/-- The stacks that hold an area of a context. -/
def State.areaStacks (s : State) (x : Nat) : List Nat :=
  (List.range (2 * s.dies)).filter (fun h => (List.range 16).any (fun k => s.areaOn x k h))

/-- Tile ports and regions bound to a context are bound no more, and what the fabric has given such a port is discarded (R310,
R326). -/
def State.unbind (s : State) (x : Nat) : State :=
  let ports := (s.fab.tiles.map (·.1)).filter (fun i => s.regB .FAB_TP_BIND_EN i && s.reg .FAB_TP_BIND_CTX i == x)
  let s := { s with regs := mapIf (fun e => (decide (e.1.1 = .FAB_TP_BIND_EN) && s.reg .FAB_TP_BIND_CTX e.1.2 == x) ||
      (decide (e.1.1 = .CFG_REGION_OWN_EN) && s.reg .CFG_REGION_OWN_CTX e.1.2 == x)) (fun e => (e.1, 0)) s.regs }
  ports.foldl (fun s i => s.txRun (i / 512) (i % 512)) s

/-- The pages of a context's flipped groups copied home (R282). -/
def State.homeAll (s : State) (x : Nat) : State :=
  ((s.ctx x).grps.filter (fun q => decide (q.st = .flipped) || decide (q.st = .published))).foldl (fun s q =>
    q.pages.foldl (fun s e => s.copyHome e.1) s) s

/-- A context killed (R130): `entry` where a command kills it. -/
def State.killCtx (s : State) (x : Nat) (entry : Bool) : State :=
  if s.cst x = 0 ∨ s.cst x = 6 then s
  else
    let was := s.cst x
    let l := s.killCores x
    let last := if entry then s.killEntry x else []
    let s := (s.homeAll x).killLoads x
    let s := s.bumpN .CTX_FIX_ABORTS x (((s.ctx x).grps.filter (fun q => decide (q.st = .open_) || decide (q.st = .closed))).length)
    let s := (((s.setReg .CTX_STATE_STATE x 6).setReg .CTX_STATE_PKG_HELD x 0).setReg .CTX_STATE_LINK x 0).setReg .CTX_STATE_BUSY x
      (if entry then 1 else 0)
    let s := ((s.closeWindows x).unbind x)
    let s := { s with xfers := s.xfers.filter (fun t => decide (t.ctx ≠ x)) }
    let s := l.foldl (fun s c => s.killCore c) s
    let owed := if was = 1 then [] else s.areaStacks x
    let s := s.modCtx x (fun t => { Ctx.reset with
      holds := t.holds, owedCores := l, owedStacks := owed, cqHead := t.cqHead, cqMsg := t.cqMsg, heldCq := last })
    (((s.cqFlush x 1).ctxFreed x).invalsDone 0).invalsDone 1

/-- CTX_KILL (R234). -/
def execCtxKill (port : Fin 2) (x : Fin 1024) (s : State) : Host.Outcome State Fault Refusal :=
  .next (s.command port x false [1, 2, 3, 4, 5] (fun s => (s.cmdErr x 0).killCtx x true))

/-! ## The setup lease (R227 to R229) -/

/-- The lease of a port released. -/
def State.dropLease (s : State) (p : Nat) : State := if s.holdsLease p then s.setReg .PKG_LEASE_HOLDER 0 0 else s

/-- LEASE_ACQUIRE (R228). -/
def execLeaseAcquire (port : Fin 2) (s : State) : Host.Outcome State Fault Refusal :=
  .next (s.writeAs (.port port) .PKG_LEASE 0 0 (fun s =>
    if s.reg .PKG_LEASE_HOLDER 0 = 0 then s.setReg .PKG_LEASE_HOLDER 0 (port + 1)
    else if s.holdsLease port then s
    else s.violation port))

/-- LEASE_RELEASE (R227 to R229). -/
def execLeaseRelease (port : Fin 2) (s : State) : Host.Outcome State Fault Refusal :=
  .next (s.writeAs (.port port) .PKG_LEASE 0 0 (fun s => if s.holdsLease port then s.dropLease port else s.violation port))

end Sys2Proof.Machine
end

