-- ==== Sys2Proof/Machine/CoreScalar.lean ====
section
/-! DEFINITION. The scalar, move, loop and stop instructions of a core (R94 to R96, R101 to R107). -/

namespace Sys2Proof.Machine

/-! ## Scalar arithmetic (R94) -/

/-- The scalar functions FN (table Field values). -/
def aluFn (fn : Nat) (x y : W32) : W32 :=
  match fn with
  | 0x0 => x + y
  | 0x1 => x - y
  | 0x2 => x &&& y
  | 0x3 => x ||| y
  | 0x4 => x ^^^ y
  | 0x5 => x <<< (y.toNat % 32)
  | 0x6 => x >>> (y.toNat % 32)
  | 0x7 => x.sshiftRight (y.toNat % 32)
  | 0x8 => x * y
  | 0x9 => if x.slt y then 1 else 0
  | 0xA => if x.ult y then 1 else 0
  | 0xB => if x.slt y then x else y
  | _ => if x.slt y then y else x

/-- A scalar result in gd; MUL has latency 2. -/
def Core.aluTo (k : Core) (fn gd : Nat) (x y : W32) : Core :=
  let k := k.setG gd (aluFn fn x y)
  if fn = 8 then k.lateG gd else k

/-- The conditions COND. -/
def condHolds (cond : Nat) (x y : W32) : Bool :=
  match cond with
  | 0 => x == y
  | 1 => x != y
  | 2 => x.slt y
  | 3 => !x.slt y
  | 4 => x.ult y
  | 5 => !x.ult y
  | _ => true

/-- NOP (R94). -/
def execNop (c : CoreAddr) (s : State) : Host.Outcome State Fault Refusal :=
  .next (s.issueCore c.toNat 0x00 (fun _ k => k))

/-- ALU (R94). -/
def execAlu (c : CoreAddr) (s : State) : Host.Outcome State Fault Refusal :=
  .next (s.issueCore c.toNat 0x01 (fun w k => k.aluTo (wf w 0 4) (fD w) (k.greg (fS w)) (k.greg (fT w))))

/-- ALUI (R94): the immediate is sign-extended. -/
def execAlui (c : CoreAddr) (s : State) : Host.Outcome State Fault Refusal :=
  .next (s.issueCore c.toNat 0x02 (fun w k =>
    k.aluTo (wf w 14 4) (fD w) (k.greg (fS w)) ((w.extractLsb' 0 14).signExtend 32)))

/-- MOVI (R94). -/
def execMovi (c : CoreAddr) (s : State) : Host.Outcome State Fault Refusal :=
  .next (s.issueCore c.toNat 0x03 (fun w k =>
    k.setG (fD w) (if wf w 16 1 = 1 then w.extractLsb' 0 16 ++ (k.greg (fD w)).extractLsb' 0 16
      else (w.extractLsb' 0 16).signExtend 32)))

/-- A loop after a taken branch to `t` (R105). -/
def LoopRec.leave (l : LoopRec) (t : Nat) : LoopRec :=
  if l.active && !(decide (l.start ≤ t) && decide (t ≤ l.stop)) then l.closed else l

/-- A taken branch: it costs a further step (R89, R94, R105). -/
def Core.jump (k : Core) (t : Nat) : Core :=
  { k.tick with pc := t, l0 := k.l0.leave t, l1 := k.l1.leave t }

/-- BR (R94, R95, R105). -/
def execBr (c : CoreAddr) (s : State) : Host.Outcome State Fault Refusal :=
  .next (s.issue c.toNat 0x04 (fun w s =>
    let k := s.core c.toNat
    if condHolds (wf w 23 3) (k.greg (wf w 19 4)) (k.greg (wf w 15 4)) then
      if k.plen ≤ wf w 0 8 then s.fault c.toNat 7 else s.setCore c.toNat (k.jump (wf w 0 8))
    else s.setCore c.toNat k.next))

/-- RDNF (R96). -/
def execRdnf (c : CoreAddr) (s : State) : Host.Outcome State Fault Refusal :=
  .next (s.issueCore c.toNat 0x05 (fun w k => k.setG (fD w) k.nflags))

/-- CLNF (R59). -/
def execClnf (c : CoreAddr) (s : State) : Host.Outcome State Fault Refusal :=
  .next (s.issueCore c.toNat 0x06 (fun w k => { k with nflags := k.nflags &&& ~~~ (k.greg (fS w)) }))

/-- SRSEED (R58). -/
def execSrseed (c : CoreAddr) (s : State) : Host.Outcome State Fault Refusal :=
  .next (s.issueCore c.toNat 0x07 (fun w k => { k with rng := if k.greg (fS w) = 0 then 1 else k.greg (fS w) }))

/-- SETA (R91). -/
def execSeta (c : CoreAddr) (s : State) : Host.Outcome State Fault Refusal :=
  .next (s.issueCore c.toNat 0x08 (fun w k => k.setA (wf w 23 3) (setaVal (k.greg (fS w)))))

/-- GETA (R94). -/
def execGeta (c : CoreAddr) (s : State) : Host.Outcome State Fault Refusal :=
  .next (s.issueCore c.toNat 0x09 (fun w k => k.setG (fD w) (k.areg (wf w 19 3))))

/-- ADVA (R92): n rows on, BYTE 0. -/
def execAdva (c : CoreAddr) (s : State) : Host.Outcome State Fault Refusal :=
  .next (s.issueCore c.toNat 0x0A (fun w k =>
    let a := k.areg (wf w 23 3)
    k.setA (wf w 23 3) (aWith a ((aRow a + wf w 0 6) % aLen a) 0 (aPh a))))

/-! ## Special values (R96, R77) -/

/-- The first read of a search that has met no number sets NV (R77), also where it has met no lane at all (DESIGN CHOICE,
log 13). -/
def Core.searchRead (k : Core) : Core := if k.sfound || k.sread then k else { k.flag fNV with sread := true }

/-- The special value of a selector. -/
def Core.special (k : Core) (c : Nat) (sel : Nat) : W32 :=
  match sel with
  | 0x0 => k.l0.cnt
  | 0x1 => k.l1.cnt
  | 0x2 => k.rrb.setWidth 32
  | 0x3 => k.arrv
  | 0x4 => k.steps
  | 0x5 => BitVec.ofNat 32 c
  | 0x6 => if k.sfound then k.sval else 0x7FC00000
  | 0x7 => if k.sfound then k.sidx else 0xFFFFFFFF
  | 0x8 => k.tsum
  | _ => k.tcnt

/-- RDSP (R96). -/
def execRdsp (c : CoreAddr) (s : State) : Host.Outcome State Fault Refusal :=
  .next (s.issueCore c.toNat 0x0B (fun w k =>
    let v := k.special c.toNat (wf w 0 4)
    (if wf w 0 4 = 6 ∨ wf w 0 4 = 7 then k.searchRead else k).setG (fD w) v))

/-- WRSP (R96). -/
def execWrsp (c : CoreAddr) (s : State) : Host.Outcome State Fault Refusal :=
  .next (s.issueCore c.toNat 0x0C (fun w k =>
    let x := k.greg (fS w)
    match wf w 0 4 with
    | 0 => { k with l0 := { k.l0 with cnt := x } }
    | 1 => { k with l1 := { k.l1 with cnt := x } }
    | 2 => { k with rrb := x.setWidth 3 }
    | _ => k))

/-! ## Moves between register files (R96) -/

/-- VBC (R96). -/
def execVbc (c : CoreAddr) (s : State) : Host.Outcome State Fault Refusal :=
  .next (s.issueCore c.toNat 0x0D (fun w k =>
    let x := (k.greg (fS w)).toNat
    k.setV (fD w) (if wf w 0 1 = 1 then BitVec.ofNat 256 ((List.range 8).foldl (fun a i => a + x * 2 ^ (32 * i)) 0)
      else BitVec.ofNat 256 ((List.range 16).foldl (fun a i => a + x % 65536 * 2 ^ (16 * i)) 0))))

/-- VEXT (R96). -/
def execVext (c : CoreAddr) (s : State) : Host.Outcome State Fault Refusal :=
  .next (s.issueCore c.toNat 0x0E (fun w k =>
    let v := (k.vreg (fS w)).toNat
    k.setG (fD w) (BitVec.ofNat 32 (if wf w 0 1 = 1 then natBits v (32 * wf w 1 3) 32 else natBits v (16 * wf w 1 4) 16))))

/-- VMOV (R96). -/
def execVmov (c : CoreAddr) (s : State) : Host.Outcome State Fault Refusal :=
  .next (s.issueCore c.toNat 0x0F (fun w k => k.setV (fD w) (k.vreg (fS w))))

/-! ## Loops (R104 to R107) -/

/-- Whether a word of a rotating loop's body is one that R107 forbids. -/
def notInRotating (w : W32) : Bool := [0x10, 0x04, 0x12].contains (opc w)

/-- A loop structure error: cause 0x6 (R105, R107). -/
def Core.loopError (k : Core) (w : W32) : Bool :=
  let len := wf w 0 8
  let stop := k.pc + len
  let past (l : LoopRec) : Bool := l.active && decide (l.stop < stop)
  (k.lp (wf w 25 1 == 1)).active || past k.l0 || past k.l1 || decide (k.plen ≤ stop) ||
    (wf w 24 1 == 1 && (decide (16 < len) || (k.l0.active && k.l0.rot) || (k.l1.active && k.l1.rot) ||
      (List.range len).any (fun i => notInRotating (vget k.ibuf (k.pc + 1 + i) 0))))

/-- LOOP opens its loop, or skips the body (R104). `fr` stands for a count that does not fit the counter. -/
def Core.openLoop (k : Core) (w : W32) (fr : Nat) : Core :=
  let one := wf w 25 1 == 1
  let rot := wf w 24 1 == 1
  let n : W32 := if wf w 23 1 = 1 then k.greg (wf w 8 4) else BitVec.ofNat 32 (wf w 8 9)
  let stg := if rot then wf w 21 2 else 0
  let p := n.toNat + stg
  let stop := k.pc + wf w 0 8
  if n = 0 then (k.setLp one (k.lp one).closed).past stop
  else { k.setLp one { cnt := BitVec.ofNat 32 (if p < 2 ^ 32 then p else fr), start := k.pc + 1, stop := stop,
                       active := true, rot := rot, stg := stg, n := n,
                       map := if rot then k.greg (wf w 17 4) else 0 } with pc := k.pc + 1 }

/-- LOOP (R104 to R107). -/
def execLoop (c : CoreAddr) (s : State) : Host.Outcome State Fault Refusal :=
  .next (s.issue c.toNat 0x10 (fun w s =>
    if (s.core c.toNat).loopError w then s.fault c.toNat 6
    else (s.modCore c.toNat (fun k => k.openLoop w s.freeVal)).drew 1))

/-! ## YIELD and HALT (R101, R103) -/

/-- YIELD (R101): where a stop is latched in a yield-mode context it takes effect; else nothing. -/
def execYield (c : CoreAddr) (s : State) : Host.Outcome State Fault Refusal :=
  .next (s.issueCore c.toNat 0x11 (fun w k =>
    if s.yieldMode c.toNat ∧ k.stop = .latched then k.takeStop true (w.extractLsb' 0 4) else k))

/-- The PASS_DONE of a core, back to the source of its START (R103, R143, R145, R150). -/
def State.sendDone (s : State) (c : Nat) : State :=
  match (s.core c).startInfo with
  | none => s
  | some i =>
    let e : Ep := .core (BitVec.ofNat 20 c)
    let p := s.mkPkt e (addrEp i.src i.skind) cDONE i.ctx.toNat i.tag.toNat
      [tallyUnit (if (s.core c).absSeen = 0 then 0 else 1) 1 0 0]
    s.inject e { p with up := i.up }

/-- HALT (R103). -/
def execHalt (c : CoreAddr) (s : State) : Host.Outcome State Fault Refusal :=
  .next (s.issue c.toNat 0x12 (fun _ s =>
    let k := s.core c.toNat
    if k.sq.isEmpty && k.cPipe.isEmpty && k.wb.isEmpty && (s.outbound c.toNat).isEmpty then
      (s.sendDone c.toNat).modCore c.toNat (fun k => { k.next with run := .idle, arrv := 0, tsum := 0, tcnt := 0 })
    else s))

end Sys2Proof.Machine
end

