-- ==== Sys2Proof/Machine/CoreVector.lean ====
section
/-! DEFINITION. The vector engine of a core (R49 to R58, R75 to R77). -/

namespace Sys2Proof.Machine

/-- The lane formats LF. -/
def laneFmt (lf : Nat) : Fmt := match lf with | 0 => .bf16 | 1 => .fp16 | 2 => .fp32 | _ => .int16

/-- Lanes of a register (R75). -/
def lanes (f : Fmt) : Nat := 256 / f.bits

/-- The code in lane `i`. -/
def laneCode (f : Fmt) (v : VReg) (i : Nat) : Nat := natBits v.toNat (f.bits * i) f.bits

/-- The value of a lane, with ID where a subnormal reads as zero (R54). -/
def lane (f : Fmt) (v : VReg) (i : Nat) : Num × NFlags := decodeNum f (laneCode f v i)

/-- The lane results and the flags of an operation over `n` lanes; elements of `b` bits from bit 0. -/
def lanewise (n b : Nat) (g : Nat → Nat × NFlags) : Nat × NFlags :=
  (List.range n).foldl (fun a i => let r := g i; (a.1 + r.1 % 2 ^ b * 2 ^ (b * i), a.2 ||| r.2)) (0, 0)

/-- A vector result that waits for its latency: `w` bits from bit 0 of vd (R75). -/
def Core.vecOut (k : Core) (vd w : Nat) (r : Nat × NFlags) : Core :=
  { k.flag r.2 with wb := k.wb ++ [.vec (physReg k.rrb vd) 0 w r.1] }

/-- An exact lane result rounded once to the lane format (R56). -/
def toLane (f : Fmt) (r : Num × NFlags) : Nat × NFlags :=
  let e := encodeNum f .rne false false r.1
  (e.1, r.2 ||| e.2)

/-- An operation of two lanes. -/
def lanes2 (f : Fmt) (a b : VReg) (op : Num → Num → Num × NFlags) : Nat × NFlags :=
  lanewise (lanes f) f.bits (fun i =>
    let x := lane f a i
    let y := lane f b i
    let r := toLane f (op x.1 y.1)
    (r.1, x.2 ||| y.2 ||| r.2))

/-- A two-source vector instruction. -/
def State.vec2 (s : State) (c o : Nat) (op : Num → Num → Num × NFlags) : State :=
  s.issueCore c o (fun w k =>
    let f := laneFmt (fLF w)
    k.vecOut (fD w) 256 (lanes2 f (k.vreg (fS w)) (k.vreg (fT w)) op))

/-- VADD (R75). -/
def execVadd (c : CoreAddr) (s : State) : Host.Outcome State Fault Refusal := .next (s.vec2 c.toNat 0x20 addNum)

/-- VSUB (R75). -/
def execVsub (c : CoreAddr) (s : State) : Host.Outcome State Fault Refusal :=
  .next (s.vec2 c.toNat 0x21 (fun x y => addNum x y.negate))

/-- VMUL (R75). -/
def execVmul (c : CoreAddr) (s : State) : Host.Outcome State Fault Refusal := .next (s.vec2 c.toNat 0x22 mulNum)

/-- VFMA (R75): a·b + c, rounded once. -/
def execVfma (c : CoreAddr) (s : State) : Host.Outcome State Fault Refusal :=
  .next (s.issueCore c.toNat 0x23 (fun w k =>
    let f := laneFmt (fLF w)
    k.vecOut (fD w) 256 (lanewise (lanes f) f.bits (fun i =>
      let x := lane f (k.vreg (fS w)) i
      let y := lane f (k.vreg (fT w)) i
      let z := lane f (k.vreg (fC w)) i
      let p := mulNum x.1 y.1
      let t := addNum p.1 z.1
      let r := toLane f t
      (r.1, x.2 ||| y.2 ||| z.2 ||| p.2 ||| r.2)))))

/-- VMIN (R51, R75). -/
def execVmin (c : CoreAddr) (s : State) : Host.Outcome State Fault Refusal :=
  .next (s.vec2 c.toNat 0x24 (fun x y => (minNum x y, 0)))

/-- VMAX (R51, R75). -/
def execVmax (c : CoreAddr) (s : State) : Host.Outcome State Fault Refusal :=
  .next (s.vec2 c.toNat 0x25 (fun x y => (maxNum x y, 0)))

/-- The comparisons of VCMP; with a NaN each is false (R75). -/
def cmpHolds (x : Nat) (a b : Num) : Bool :=
  if a = .nan ∨ b = .nan then false
  else match x with
    | 0 => eqNum a b
    | 1 => !eqNum a b
    | 2 => ltNum a b
    | 3 => !ltNum b a
    | 4 => ltNum b a
    | _ => !ltNum a b

/-- VCMP (R75): the lane mask to a general register. -/
def execVcmp (c : CoreAddr) (s : State) : Host.Outcome State Fault Refusal :=
  .next (s.issueCore c.toNat 0x26 (fun w k =>
    let f := laneFmt (fLF w)
    let r := lanewise (lanes f) 1 (fun i =>
      let x := lane f (k.vreg (fS w)) i
      let y := lane f (k.vreg (fT w)) i
      (if cmpHolds (wf w 0 3) x.1 y.1 then 1 else 0, x.2 ||| y.2))
    { k.flag r.2 with wb := k.wb ++ [.gen (gReg (fD w)) (BitVec.ofNat 32 r.1)] }))

/-- A special function of one lane: its format, what the format is made of, the value and a free value. -/
abbrev SpecialFn := Fmt → FmtInfo → Num → Nat → Nat × NFlags

/-- A special function over the lanes; the free values pick within the accuracy of R56. -/
def State.vecSpecial (s : State) (c o : Nat) (g : SpecialFn) : State :=
  s.issue c o (fun w s =>
    let k := s.core c
    let f := laneFmt (fLF w)
    let r := lanewise (lanes f) f.bits (fun i =>
      let x := lane f (k.vreg (fS w)) i
      let y := match f.info with
        | some inf => g f inf x.1 (Config.free (s.free + i))
        | none => (0, 0)
      (y.1, x.2 ||| y.2))
    (s.setCore c (k.vecOut (fD w) 256 r).next).drew (lanes f))

/-- VEXP2 (R56). -/
def execVexp2 (c : CoreAddr) (s : State) : Host.Outcome State Fault Refusal := .next (s.vecSpecial c.toNat 0x27 exp2Num)

/-- VRCP (R56). -/
def execVrcp (c : CoreAddr) (s : State) : Host.Outcome State Fault Refusal := .next (s.vecSpecial c.toNat 0x28 rcpNum)

/-- VRSQ (R56). -/
def execVrsq (c : CoreAddr) (s : State) : Host.Outcome State Fault Refusal := .next (s.vecSpecial c.toNat 0x29 rsqNum)

/-- The narrow formats of VCVT. -/
def narrowFmt (x : Nat) : Fmt :=
  match x with | 0 => .e4m3 | 1 => .e5m2 | 2 => .e2m3 | 3 => .e3m2 | 4 => .e2m1 | _ => .int8

/-- The generator after `n` advances (R58). -/
def advanceN (g : W32) : Nat → W32
  | 0 => g
  | n + 1 => advanceG (advanceN g n)

/-- VCVT to a narrow format: packed from byte 0, the bytes above left unchanged (R52, R55, R57, R75). -/
def Core.narrow (k : Core) (w : W32) : Core :=
  let f := laneFmt (fLF w)
  let nf := narrowFmt (wf w 0 4)
  let n := lanes f
  let sr := wf w 6 1 == 1 && decide (wf w 0 4 ≤ 1)
  let r := lanewise n nf.bits (fun i =>
    let x := lane f (k.vreg (fS w)) i
    let y := encodeNum nf (if sr then .sr ((advanceN k.rng (i + 1)).toNat % 65536) else .rne) (wf w 5 1 == 1) true x.1
    (y.1, x.2 ||| y.2))
  let k := k.vecOut (fD w) (n * nf.bits) r
  if sr then { k with rng := advanceN k.rng n } else k

/-- VCVT from a narrow format to the lanes. -/
def Core.widen (k : Core) (w : W32) : Core :=
  let f := laneFmt (fLF w)
  let nf := narrowFmt (wf w 0 4)
  k.vecOut (fD w) 256 (lanewise (lanes f) f.bits (fun i =>
    let x := decodeNum nf (natBits (k.vreg (fS w)).toNat (nf.bits * i) nf.bits)
    toLane f x))

/-- VCVT (R52, R53, R55, R57, R75). -/
def execVcvt (c : CoreAddr) (s : State) : Host.Outcome State Fault Refusal :=
  .next (s.issueCore c.toNat 0x2A (fun w k => if wf w 4 1 = 1 then k.widen w else k.narrow w))

/-- The scale in the register of vc: UE4M3 or FP32 (table Vector opcodes). -/
def Core.scale (k : Core) (w : W32) : Num × NFlags :=
  let x := (k.greg (fC w)).toNat
  if wf w 0 1 = 1 then decodeNum .fp32 x else decodeNum .ue4m3 (x % 256)

/-- VSCL (R55): x ÷ s, rounded once; infinite inputs overflow as in a narrowing (R52). -/
def execVscl (c : CoreAddr) (s : State) : Host.Outcome State Fault Refusal :=
  .next (s.issueCore c.toNat 0x2B (fun w k =>
    let f := laneFmt (fLF w)
    let sc := k.scale w
    k.vecOut (fD w) 256 (lanewise (lanes f) f.bits (fun i =>
      let x := lane f (k.vreg (fS w)) i
      let q := divNum x.1 sc.1
      let r := encodeNum f .rne false true q.1
      (r.1, x.2 ||| sc.2 ||| q.2 ||| r.2)))))

/-- VSCM (R75): x × s, rounded once. -/
def execVscm (c : CoreAddr) (s : State) : Host.Outcome State Fault Refusal :=
  .next (s.issueCore c.toNat 0x2C (fun w k =>
    let f := laneFmt (fLF w)
    let sc := k.scale w
    k.vecOut (fD w) 256 (lanewise (lanes f) f.bits (fun i =>
      let x := lane f (k.vreg (fS w)) i
      let r := toLane f (mulNum x.1 sc.1)
      (r.1, x.2 ||| sc.2 ||| r.2)))))

/-- The E8M0 scale of a value by exponent extraction (R53). -/
def e8m0Of (x : Num) : Nat × NFlags :=
  match x with
  | .fin _ m e => if m = 0 then (0xFF, fNV) else (((m.log2 : Int) + e + 127).toNat, 0)
  | _ => (0xFF, fNV)

/-- VEXPX (R53): one code per lane from byte 0. -/
def execVexpx (c : CoreAddr) (s : State) : Host.Outcome State Fault Refusal :=
  .next (s.issueCore c.toNat 0x2D (fun w k =>
    let f := laneFmt (fLF w)
    k.vecOut (fD w) (8 * lanes f) (lanewise (lanes f) 8 (fun i =>
      let x := lane f (k.vreg (fS w)) i
      let y := e8m0Of x.1
      (y.1, x.2 ||| y.2)))))

/-! ## Search (R77) -/

/-- The search state reset for a direction and a lane kind. -/
def Core.searchReset (k : Core) (dir int_ : Bool) : Core :=
  { k with sval := if int_ then (if dir then 0xFFFF8000 else 0x7FFF) else (if dir then 0xFF800000 else 0x7F800000),
           sidx := 0xFFFFFFFF, sdir := dir, skindInt := int_, sfound := false, sread := false }

/-- One lane met by a search: code widened to 32 bits, index. -/
def Core.searchLane (k : Core) (f : Fmt) (x : Num × NFlags) (idx : W32) : Core :=
  if x.1 = .nan then k
  else
    let held : Num := if k.skindInt then .ofInt (twos 32 k.sval.toNat) else (decodeNum .fp32 k.sval.toNat).1
    let wide : Nat := (encodeNum (if f = .int16 then .int32 else .fp32) .rne false false x.1).1
    let better := if k.sdir then ltZ held x.1 else ltZ x.1 held
    let k := { k.flag x.2 with sfound := true }
    if better then { k with sval := BitVec.ofNat 32 wide, sidx := idx } else k

/-- VSRCH (R77). An RDSP of SVALUE or SINDEX in the next step reads the new search state at once: R88 makes instructions wait for
registers alone, whatever the latency of R89 (DESIGN CHOICE, log 11). -/
def execVsrch (c : CoreAddr) (s : State) : Host.Outcome State Fault Refusal :=
  .next (s.issueCore c.toNat 0x2E (fun w k =>
    let f := laneFmt (fLF w)
    let int_ := decide (f = .int16)
    let v := k.vreg (fS w)
    let base := k.greg (fC w)
    let k := if wf w 1 1 = 1 then k.searchReset (wf w 0 1 == 1) int_ else k
    if k.skindInt ≠ int_ then k.flag fFMT
    else (List.range (lanes f)).foldl (fun k i => k.searchLane f (lane f v i) (base + BitVec.ofNat 32 i)) k))

/-- A register write carried out. -/
def Core.writeBack (k : Core) : Wb → Core
  | .gen r x => { k with g := k.g.set r.val x r.isLt }
  | .vec p lo w x => { k with v := k.v.set p.val (BitVec.ofNat 256 (natSet (k.v.get p).toNat lo w x)) p.isLt }

/-- VECTOR_RESULT_WRITE (R75): the write numbered `n` among those that wait happens; a stop lets it drain (R80). -/
def execVectorResultWrite (c : CoreAddr) (n : Nat) (s : State) : Host.Outcome State Fault Refusal :=
  .next (
    let k := s.core c.toNat
    match k.wb[n]? with
    | none => s
    | some b => if s.braked c.toNat then s else s.setCore c.toNat ({ k with wb := dropAt k.wb n }.writeBack b))

end Sys2Proof.Machine
end

