-- ==== Sys2Proof/Machine/Power.lean ====
section
/-! DEFINITION. Levels of the rail regions, the brake, the governor and thermal slowing (R83, R84, R361 to R369). -/

namespace Sys2Proof.Machine

/-! ## Regions -/

/-- A rail region, by die × 8 + k. -/
def State.region (s : State) (r : Nat) : Region := Tbl.getD s.power.regions r .reset

/-- The state with a region changed. -/
def State.modRegion (s : State) (r : Nat) (f : Region → Region) : State :=
  { s with power := { s.power with regions := Tbl.set s.power.regions r (f (s.region r)) } }

/-- The rail regions of the module. -/
def State.regionsOf (s : State) : List Nat := List.range (s.dies * 8)

/-- Whether any reason to brake a region holds. -/
def Region.held (r : Region) : Bool := r.current || r.thermal || r.duty

/-- A region sent one level lower, not below `floor` (R362, R365, R368, R369). -/
def State.lower (s : State) (r floor : Nat) : State :=
  s.modRegion r (fun g => if floor < g.target then { g with target := g.target - 1 } else g)

/-- A brake newly applied to a region: BRAKED, BRAKES, and the third within 1 ms lowers the region (R368). -/
def State.braking (s : State) (r : Nat) : State :=
  let s := (s.setReg .CLK_REGION_BRAKED r 1).bump .CLK_REGION_BRAKES r
  let recent := (s.region r).recent.filter (fun t => decide ((s.timer + 2 ^ 48 - t) % 2 ^ 48 ≤ 1000000))
  if 2 ≤ recent.length then (s.modRegion r (fun g => { g with recent := [] })).lower r 0
  else s.modRegion r (fun g => { g with recent := recent ++ [s.timer] })

/-- What a core latched under the brake: a reset or a kill, which replaces the rest, a fault, a stop, a wake request (R83, R84,
R162, R164). -/
def State.latchedCore (s : State) (c : Nat) : State :=
  let s := if (s.core c).resetDue then s.resetCore c else match (s.core c).haltDue with
    | some true => s.killCore c
    | some false => s.haltCore c
    | none => s
  let s := match (s.core c).latchedFault with
    | some cause => (s.modCore c (fun k => { k with latchedFault := none })).fault c cause
    | none => s
  let s := s.takeLatched c
  if (s.core c).wakeDue then s.modCore c Core.wakeUp else s

/-- What the cores and routers of a region latched under the brake takes effect (R84, R162, R164). -/
def State.latchedAll (s : State) (r : Nat) : State :=
  let s := ((s.cores.map (·.1)).filter (fun c => c / 16384 == r)).foldl State.latchedCore s
  (s.net.wakeDue.filter (fun e => decide (e.1 ≤ 7) && e.2 * 4 ^ e.1 / 16384 == r)).foldl State.wakeRouter s

/-- The brake released where no reason holds any more (R368, R84). -/
def State.released (s : State) (r : Nat) : State :=
  if (s.region r).held ∨ s.regB .CLK_REGION_BRAKED r = false then s
  else (s.setReg .CLK_REGION_BRAKED r 0).latchedAll r

/-- The brake for a region's current. -/
def State.brakeCurrent (s : State) (r : Nat) : State :=
  if s.dies * 8 ≤ r ∨ (s.region r).current then s
  else (s.modRegion r (fun g => { g with current := true })).braking r

/-- BRAKE_APPLY (R83, R368). -/
def execBrakeApply (die k : Fin 8) (s : State) : Host.Outcome State Fault Refusal :=
  .next (s.brakeCurrent (die * 8 + k))

/-- REGION_CURRENT_ALARM (R368). -/
def execRegionCurrentAlarm (die k : Fin 8) (s : State) : Host.Outcome State Fault Refusal :=
  .next (s.brakeCurrent (die * 8 + k))

/-- BRAKE_RELEASE (R368, R84). -/
def execBrakeRelease (die k : Fin 8) (s : State) : Host.Outcome State Fault Refusal :=
  .next (if s.dies ≤ die.val then s
    else (s.modRegion (die * 8 + k) (fun g => { g with current := false })).released (die * 8 + k))

/-- INPUT_FAST_TRIP (R368). -/
def execInputFastTrip (s : State) : Host.Outcome State Fault Refusal :=
  .next (s.regionsOf.foldl State.brakeCurrent s)

/-! ## Levels -/

/-- The highest level among a die's eight regions. -/
def State.highest (s : State) (die : Nat) : Nat :=
  ((List.range 8).map (fun k => s.reg .CLK_REGION_LEVEL (die * 8 + k))).foldl max 0

/-- The level of a die's spine rail (R361). -/
def State.spineLevel (s : State) (die : Nat) : Nat := Tbl.getD s.power.spine die 0

/-- LEVEL_SLEW_DONE (R361, R362): the spine rail follows the highest level of the die. -/
def execLevelSlewDone (die k : Fin 8) (s : State) : Host.Outcome State Fault Refusal :=
  .next (if s.dies ≤ die.val then s
    else
      let s := s.setReg .CLK_REGION_LEVEL (die * 8 + k) (s.region (die * 8 + k)).target
      { s with power := { s.power with spine := Tbl.set s.power.spine die.val (s.highest die) } })

/-- The guaranteed minimum step rate of a level in M steps/s (table Core voltage levels). -/
def minRate (level : Nat) : Nat := [350, 500, 650, 800, 950, 1050, 1120, 1200].getD level 1200

/-! ## The governor (R364 to R366) -/

/-- The Aperture ceiling in W (table Aperture ceilings). -/
def State.aperture (s : State) : Nat :=
  match s.dies, s.reg .CLK_APER_MODE 0 with
  | 2, 0 => 2900
  | 2, 1 => 2100
  | 2, _ => 1300
  | 4, 0 => 5500
  | 4, 1 => 4100
  | 4, _ => 2500
  | _, 0 => 10800
  | _, 1 => 8000
  | _, _ => 5000

/-- The rated input current in A (table Power input figures). -/
def State.rated (s : State) : Nat := if s.dies = 2 then 64 else if s.dies = 4 then 120 else 240

/-- The ceiling in W: the lower of the Aperture ceiling and VIN × rated current (R422). -/
def State.ceiling (s : State) : Nat := min s.aperture (s.module.vin * s.rated / 100)

/-- The input voltage read, in units of 10 mV, with VIN_LOW (R422). -/
def State.readVin (s : State) (vin : Nat) : State :=
  { s.setReg .MOD_STAT_VIN_LOW 0 (if vin < 4800 then 1 else 0) with module := { s.module with vin := vin } }

/-- The level that the governor does not pass (R366). -/
def State.floor (s : State) : Nat :=
  if s.regB .XFR_MODE_RT_EN 0 ∧ s.regB .CLK_APER_FLOOR_EN 0 ∧ s.power.overridden = false then s.reg .CLK_APER_RT_FLOOR 0
  else 0

/-- A decision above the ceiling: every region one level lower, but not below the floor, and counted (R365, R366). -/
def State.governDown (s : State) : State :=
  let f := s.floor
  (s.regionsOf.foldl (fun s r => s.lower r f) s).bump .CLK_PWR_STAT_DOWNS 0

/-- Every region that nothing holds down sent one level higher. -/
def State.governUp (s : State) : State :=
  s.regionsOf.foldl (fun s r =>
    if s.regB .CLK_REGION_HOT r ∨ s.regB .CLK_REGION_BRAKED r then s
    else s.modRegion r (fun g => if g.target < 7 then { g with target := g.target + 1 } else g)) s

/-- The duty brake of a region. -/
def State.brakeDuty (s : State) (r : Nat) : State :=
  if (s.region r).duty then s else (s.modRegion r (fun g => { g with duty := true })).braking r

/-- Above the ceiling with every region at the floor: a tick of it, and the override after 1 ms (R366). -/
def State.floorTick (s : State) : State :=
  if s.floor = 0 ∨ s.regionsOf.any (fun r => decide (s.floor < (s.region r).target)) then
    { s with power := { s.power with floorTicks := 0 } }
  else
    let n := s.power.floorTicks + 1
    if 10 ≤ n then ({ s with power := { s.power with floorTicks := 0, overridden := true } }).bump .CLK_PWR_STAT_FLOOR_OVR 0
    else { s with power := { s.power with floorTicks := n } }

/-- Above the ceiling with every region at L0: a tick of it, and the duty brake after 1 ms (R365). -/
def State.l0Tick (s : State) : State :=
  if s.regionsOf.any (fun r => decide (0 < (s.region r).target)) then { s with power := { s.power with l0Ticks := 0 } }
  else
    let n := min (s.power.l0Ticks + 1) 10
    let s := { s with power := { s.power with l0Ticks := n } }
    if n < 10 ∧ s.power.episode = false then s
    else
      let s := if s.power.episode then s
        else (({ s with power := { s.power with episode := true } }).bump .CLK_PWR_STAT_DUTY 0).raise 0 0x22
      s.regionsOf.foldl State.brakeDuty s

/-- A decision with the average above the ceiling. -/
def State.governAbove (s : State) : State :=
  ((({ s with power := { s.power with lowTicks := 0 } }).floorTick).l0Tick).governDown

/-- A decision with the average at the ceiling: it stays above the ceiling no longer, and a duty-brake episode goes on until it
falls below (R365). -/
def State.governAt (s : State) : State :=
  let s := { s with power := { s.power with lowTicks := 0, floorTicks := 0, l0Ticks := 0 } }
  if s.power.episode then s.regionsOf.foldl State.brakeDuty s else s

/-- A decision with the average below the ceiling. -/
def State.governBelow (s : State) (low : Bool) : State :=
  let n := if low then min (s.power.lowTicks + 1) 10 else 0
  let s := { s with power := { s.power with lowTicks := n, floorTicks := 0, l0Ticks := 0, overridden := false, episode := false } }
  if n = 10 then s.governUp else s

/-- GOVERNOR_TICK (R365 to R367, R422): while the package is STOPPED the regions keep their levels. -/
def execGovernorTick (watts vin : Nat) (s : State) : Host.Outcome State Fault Refusal :=
  .next (
    let s := ((s.readVin vin).setReg .CLK_PWR_STAT_PIN 0 (min watts 65535)).setReg .CLK_PWR_STAT_VIN 0 (min vin 65535)
    if s.pkgStopped then s
    else if s.ceiling < watts then s.governAbove
    else if watts = s.ceiling then s.governAt
    else s.governBelow (decide (watts * 10 < s.ceiling * 8)))

/-- DUTY_BRAKE_END (R365). -/
def execDutyBrakeEnd (s : State) : Host.Outcome State Fault Refusal :=
  .next (s.regionsOf.foldl (fun s r => (s.modRegion r (fun g => { g with duty := false })).released r) s)

/-! ## Thermal slowing (R369) -/

/-- A sample at or above T_SLOW: lower at once, and at every tenth sample after. -/
def State.slowTick (s : State) (r : Nat) : State :=
  match (s.region r).slow with
  | none => ((s.modRegion r (fun g => { g with slow := some 0 })).setReg .CLK_REGION_HOT r 1).lower r 0
  | some n =>
    if 10 ≤ n + 1 then (s.modRegion r (fun g => { g with slow := some 0 })).lower r 0
    else s.modRegion r (fun g => { g with slow := some (n + 1) })

/-- A sample below T_SLOW; HOT clears 5 °C lower. -/
def State.coolTick (s : State) (r temp : Nat) : State :=
  let s := s.modRegion r (fun g => { g with slow := none })
  if temp + 5 < s.reg .CLK_APER_T_SLOW 0 then s.setReg .CLK_REGION_HOT r 0 else s

/-- The thermal brake of a region. -/
def State.thermalBrake (s : State) (r temp : Nat) : State :=
  if s.reg .CLK_APER_T_BRAKE 0 ≤ temp then
    if (s.region r).thermal then s
    else ((s.modRegion r (fun g => { g with thermal := true })).braking r).raise (r / 8) 0x21
  else if temp + 5 < s.reg .CLK_APER_T_BRAKE 0 then (s.modRegion r (fun g => { g with thermal := false })).released r
  else s

/-- The least step rate that a region may show: that of the lower of the levels it is between, but at more than 105 °C or under the
brake, where nothing is guaranteed (R361, R362). -/
def State.leastRate (s : State) (r temp : Nat) : Nat :=
  if 105 < temp ∨ s.regB .CLK_REGION_BRAKED r then 0 else minRate (min (s.reg .CLK_REGION_LEVEL r) (s.region r).target)

/-- The step rate over the last 10 µs, a free value not below the guaranteed one, and its lowest since the start (R361, R363). -/
def State.rateSample (s : State) (r temp : Nat) : State :=
  let v := s.leastRate r temp + s.freeVal % (65536 - s.leastRate r temp)
  let first := !(s.region r).rated
  let s := ((s.drew 1).setReg .CLK_REGION_RATE r v).modRegion r (fun g => { g with rated := true })
  if first ∨ v < s.reg .CLK_REGION_MIN_RATE r then s.setReg .CLK_REGION_MIN_RATE r v else s

/-- THERMAL_SAMPLE (R363, R369). -/
def execThermalSample (die k : Fin 8) (temp : Nat) (s : State) : Host.Outcome State Fault Refusal :=
  .next (
    if s.dies ≤ die.val then s
    else
      let r := die.val * 8 + k.val
      let s := (s.setReg .CLK_REGION_TEMP r (min temp 255)).rateSample r temp
      let s := if s.reg .CLK_APER_T_SLOW 0 ≤ temp then s.slowTick r else s.coolTick r temp
      s.thermalBrake r temp)

end Sys2Proof.Machine
end

