-- ==== Sys2Proof/Machine/Resume.lean ====
section
/-! DEFINITION. RESUME, the restore of cores, and stopping and restarting the package (R112, R128, R182, R230, R234, R255, R256,
R282). -/

namespace Sys2Proof.Machine

/-! ## CTX_RESUME (R234 to R236) -/

/-- A PAUSED context takes hold again; its saved cores are to be restored. -/
def State.resumeCtx (s : State) (x : Nat) : State :=
  ((s.takeHold x).modCtx x (fun t => { t with busy := .resuming, toRestore := t.saved, lostImage := none })).cmdBusy x

/-- CTX_RESUME (R234 to R236). -/
def execCtxResume (port : Fin 2) (x : Fin 1024) (s : State) : Host.Outcome State Fault Refusal :=
  .next (s.command port x false [3] (fun s =>
    if s.regB .CTX_STATE_PKG_HELD x then s.cmdErr x 6
    else if s.reg .PKG_STATE_STATE 0 ≠ 0 then s.cmdErr x 5
    else
      let e := s.holdErr x
      if e ≠ 0 then s.cmdErr x e else s.resumeCtx x))

/-! ## CORE_RESTORE (R108, R109, R112) -/

/-- The pass whose program a core runs at a restore: the one it worked for at the pause. -/
def State.passFor (s : State) (x c : Nat) : Option Pass :=
  (Tbl.get? (s.ctx x).passAt c).bind (fun i => (s.ctx x).passes.find? (fun p => p.id == i))

/-- Whether a route record of an image is for a core (R149). -/
def recordFor (b : List Byte) (c : Nat) : Bool := inSet (bF b 20 4 % 2 ^ 20) (bF b 24 4 % 2 ^ 20) c

/-- The routes of an image for a core. -/
def State.imageRoutes (s : State) (p : Pass) (c : Nat) : Vector (BitVec 128) 32 :=
  let rt := p.image + 16 + wordBytes (bF (s.hbmBytes p.image 16) 0 2)
  let recs := (List.range (bF (s.hbmBytes rt 16) 0 2)).map (fun j => s.hbmBytes (rt + 16 + 32 * j) 32)
  (recs.filter (recordFor · c)).foldl (fun v b =>
    let e := BitVec.ofNat 128 (bF b 0 16)
    vset v (bF b 16 1 % 32) (if rValid e && !s.routeOk e then rSetValid e false else e)) (Vector.replicate 32 0)

/-- A core with the program and routes of its pass loaded again (R112 step 1): the bytes that lie at the image, also where they can no
longer be read (DESIGN CHOICE, log 14). -/
def State.reload (s : State) (x c : Nat) (k : Core) : Core :=
  match s.passFor x c with
  | none => k
  | some p =>
    let w : Sender := ⟨x, p.half, p.eng, p.tag % 2 ^ 14, none⟩
    let q := s.startPkt w p
    let l := startLen q
    let words := (chunks 4 256 (s.hbmBytes (p.image + 16) (4 * l))).map (fun b => BitVec.ofNat 32 (bytesNat b))
    { k with ibuf := putWords k.ibuf 0 words, plen := l, routes := s.imageRoutes p c, load := ⟨none, [], 0, []⟩,
             startInfo := some ⟨q.src, q.skind, q.up, q.tag, q.ctx⟩ }

/-- A core whose image could not be read: in its program-load state, halted (R112). -/
def Core.unrestored (k : Core) (c : Nat) : Core :=
  { k.engineReset with
    pc := 0
    g := vset (Vector.replicate 16 0) 15 (BitVec.ofNat 32 c)
    a := Core.reset.a
    v := Core.reset.v
    rrb := 0
    l0 := .off
    l1 := .off
    steps := 0
    nflags := 0
    rng := BitVec.ofNat 32 (c + 1)
    run := .idle
    stop := .none
    waits := []
    deferred := [] }

/-- Whether what a restore of a core reads cannot be reached yet. -/
def State.restoreWaits (s : State) (x c : Nat) : Bool :=
  s.hbmWaits (s.imageAt x c) 5120 || (match s.passFor x c with
    | some p => s.imageWaits p.image
    | none => false)

/-- CORE_RESTORE (R112): a Bleach that the core owes comes first, and the brake holds it. -/
def execCoreRestore (c : CoreAddr) (readable : Bool) (s : State) : Host.Outcome State Fault Refusal :=
  .next (
    let n := c.toNat
    match s.holder n with
    | none => s
    | some x =>
      if (s.ctx x).busy ≠ .resuming ∨ (s.ctx x).toRestore.contains n = false ∨ (s.core n).bleaching ∨ s.braked n ∨ s.restoreWaits x n then s
      else
        let q := s.hbmSeen (s.imageAt x n) 5120 []
        let s := q.1.modCtx x (fun t => { t with toRestore := t.toRestore.erase n })
        let k := s.reload x n (s.core n)
        match (if readable then q.2 else some (q.2.getD 1)) with
        | none => s.setCore n (k.ofImage (s.hbmBytes (s.imageAt x n) 5120))
        | some r => (s.setCore n (k.unrestored n)).modCtx x (fun t => { t with
            lostImage := some (min r (t.lostImage.getD r)),
            passes := mapIf (fun p => inSet p.cset p.cmask n) (fun p => { p with rank := min p.rank r, faults := addFault p.faults n 0 }) t.passes }))

/-! ## CTX_RESUME_DONE -/

/-- The held-write record read: the rank of its failure, if it cannot be (R112, R255). -/
def State.recordSeen (s : State) (x : Nat) : State × Option Nat := s.hbmSeen (s.heldBase x) (65536 + 1280 * s.ncore x) []

/-- A packet from its bytes, laid out as `pktBytes` lays it out (R142). -/
def pktOf (b : List Byte) : Packet :=
  let h := bF b 0 16
  let ext := natBits h 124 1 == 1
  let count := natBits h 42 6
  { up := BitVec.ofNat 4 h, target := BitVec.ofNat 20 (natBits h 4 20), cmd := BitVec.ofNat 8 (natBits h 24 8),
    ctx := BitVec.ofNat 10 (natBits h 32 10), count := BitVec.ofNat 6 count, tag := BitVec.ofNat 16 (natBits h 48 16),
    var := BitVec.ofNat 32 (natBits h 64 32), routes := 0, src := BitVec.ofNat 20 (natBits h 96 20),
    skind := BitVec.ofNat 2 (natBits h 116 2), tkind := BitVec.ofNat 2 (natBits h 118 2), t := natBits h 120 1 == 1,
    cnt := natBits h 121 1 == 1, ack := natBits h 122 1 == 1, bulk := natBits h 123 1 == 1, ext := ext,
    xu := if ext then BitVec.ofNat 128 (bF b 16 16) else 0,
    data := (chunks 16 count (b.drop (if ext then 32 else 16))).map (fun u => BitVec.ofNat 128 (bytesNat u)) }

/-- The packets that a record's slots hold, with their cores, in the order of their arrival at each. -/
def State.recordPkts (s : State) (x : Nat) : List (Nat × Packet) :=
  (s.addrsOf x).flatMap (fun c =>
    let l := (List.range 4).map (fun n => s.hbmBytes (s.slotsAt x c + 320 * n) 320)
    (sortBy (fun b => bF b 4 4) (l.filter (fun b => decide (bF b 4 4 ≠ 0xFFFFFFFF)))).map (fun b => (c, pktOf (b.drop 16))))

/-- A transfer from its resume point: one that has not changed leaves the transfer as it is, in the bytes of a unit that its engine
holds too. -/
def Xfer.resumed (t : Xfer) (b : List Byte) : Xfer :=
  let ix := (List.range t.ix.length).map (fun k => bF b (4 + 4 * k) 4)
  match t.plan with
  | .reduce _ _ _ => t
  | _ =>
    if !t.pieces.isEmpty || !t.hostOut.isEmpty || (decide (ix = t.ix) && decide (bF b 0 4 = t.i0 / 16 * 16)) then t
    else { t with ix := ix, i0 := bF b 0 4, srcLeft := [], dstLeft := [] }

/-- A copy as the record that a pause wrote has it; `ids` are the copies of the record in its order. -/
def copyFrom (b : List Byte) (ids : List Nat) (c : Copy) : Copy :=
  match ids.idxOf? c.id with
  | none => c
  | some k => if min (bF b 12 4) 256 ≤ k then c else { c with bytes := BitVec.ofNat 512 (bF b (0x100 + 64 * k) 64) }

/-- A transfer from its resume point in the record, where the record has one. -/
def xferFrom (b : List Byte) (ids : List Nat) (t : Xfer) : Xfer :=
  match ids.idxOf? t.id with
  | none => t
  | some k => if min (bF b 4 4) 256 ≤ k then t else t.resumed ((b.drop (0x4100 + 32 * k)).take 32)

/-- The messages that a record's flags hold, in their order. -/
def pendOf (l : List Bool) (flags : Nat) : List Bool :=
  let on (cq : Bool) : Bool := if cq then flags % 2 == 1 else flags / 2 % 2 == 1
  l.filter on ++ [true, false].filter (fun cq => on cq && !l.contains cq)

/-- What the record holds taken back into the context (R255). -/
def State.readRecord (s : State) (x : Nat) : State :=
  let b := s.hbmBytes (s.heldBase x) 0x7100
  let n := min (bF b 8 4) 256
  let pkts := s.recordPkts x
  let s := { s with xfers := s.xfers.map (xferFrom b (s.ctx x).recXfers) }
  s.modCtx x (fun t => { t with
    heldPkts := pkts
    copies := t.copies.map (copyFrom b t.recCopies)
    heldCq := (List.range n).map (fun k => cqeOf ((b.drop (0x6100 + 16 * k)).take 16)) ++ t.heldCq.drop n
    pend := pendOf t.pend (bF b 16 4) })

/-- Held packets given back to their cores in their order (R128). -/
def State.reinject (s : State) (x : Nat) : State :=
  ((s.ctx x).heldPkts.foldl (fun s e => s.modCore e.1 (fun k => k.setInq (k.inq ++ [e.2]))) s).modCtx x
    (fun t => { t with heldPkts := [], saved := [] })

/-- The transfers of a context go on; one that waited at a page fault asks again, where translations are still used (R196, R197, R230). -/
def State.freeXfers (s : State) (x : Nat) : State :=
  { s with xfers := mapIf (fun t => decide (t.ctx = x)) (fun t => match t.hold with
      | .paused _ => { t with hold := .none }
      | .page a w _ => { t with hold := if (s.port (s.xport t)).ats then .page a w (s.asked (s.xport t) t.id) else .none }
      | .resolved _ => { t with hold := .none }
      | .none => t) s.xfers }

/-- A core that continues with the pass it worked for at the pause, or stops where that is abandoned or has ended (R112, R277,
R282). -/
def State.goOn (s : State) (x c : Nat) : State :=
  if (s.core c).run ≠ .quiet then s
  else
    let live := match s.passFor x c with
      | some p => !p.abandoned
      | none => false
    if live then s.modCore c (fun k => { k with run := .running }) else s.haltCore c

/-- Passes that hold a core whose image was lost end with its status (R112). -/
def State.endLost (s : State) (x : Nat) : State :=
  ((s.ctx x).passes.filter (fun p => p.faults.any (fun f => decide (f.2 = 0)))).foldl (fun s p =>
    s.endPass x p 3 (rankStatus p.rank)) s

/-- A context whose cores have been restored continues: what its record holds goes out before its own event (R230, R255). Of several
reads that have failed FSTATUS shows the one of the highest rank in R195 (DESIGN CHOICE, log 14: R112 speaks of one). -/
def State.continueCtx (s : State) (x : Nat) : State :=
  let r := s.recordSeen x
  let rank := match (s.ctx x).lostImage, r.2 with
    | some a, some b => some (min a b)
    | some a, none => some a
    | none, b => b
  let s := (if r.2.isNone then r.1.readRecord x else r.1).endLost x
  let s := (s.coresOf x).foldl (fun s c => s.goOn x c) s
  let s := match rank with
    | none => s
    | some r => s.setReg .CTX_STATE_FSTATUS x (rankStatus r)
  let next := if rank.isSome then 5 else s.reg .CTX_STATE_PREV x
  let s := ((s.setReg .CTX_STATE_STATE x next).setReg .CTX_STATE_BUSY x 0).setReg .CTX_STATE_LINK x 0
  let s := (s.modCtx x (fun t => { t with busy := .none, lostImage := none })).reinject x
  let s := (s.freeXfers x).priAll
  (((((s.releaseMsgs x).cqGo x).event .CTX_EVENT_STATE x).retirePasses x)).markElig x

/-- A context left over from a package stop that came while it resumed is paused again (R256). -/
def State.pauseAgain (s : State) (x : Nat) : State :=
  if s.reg .PKG_STATE_STATE 0 = 1 then (s.setReg .CTX_STATE_PKG_HELD x 1).pauseCtx x 2 else s

/-- Stacks whose rate a restart changes, before any context resumes (R182). -/
def State.ratesSettled (s : State) : Bool :=
  decide (s.reg .PKG_STATE_STATE 0 ≠ 3) ||
    (List.range (2 * s.dies)).all (fun h => decide (s.reg .HBM_STATE_STATE h ≠ 3) && !s.rateDue h)

/-- CTX_RESUME_DONE (R112, R128, R234, R255). -/
def execCtxResumeDone (x : Fin 1024) (s : State) : Host.Outcome State Fault Refusal :=
  .next (
    let t := s.ctx x
    if t.busy ≠ .resuming ∨ ¬t.toRestore.isEmpty ∨ (s.coresOf x).any (fun c => (s.core c).bleaching) ∨ s.ratesSettled = false ∨ s.recordWaits x then s
    else (s.continueCtx x).pauseAgain x)

/-! ## The package (R256) -/

/-- A command to PKG_CTL by a port. -/
def State.pkgCommand (s : State) (port : Fin 2) (from_ : Nat) (act : State → State) : State :=
  s.writeAs (.port port) .PKG_CTL 0 0 (fun s =>
    if !s.holdsLease port then s.violation port
    else if s.reg .PKG_STATE_STATE 0 ≠ from_ then s.setReg .PKG_STATE_CMDERR 0 1
    else act s)

/-- PKG_STOP (R256). -/
def execPkgStop (port : Fin 2) (s : State) : Host.Outcome State Fault Refusal :=
  .next (s.pkgCommand port 0 (fun s =>
    let l := (s.ctxs.map (·.1)).filter (fun x => decide (s.cst x = 2) || decide (s.cst x = 4) || decide (s.cst x = 5))
    l.foldl (fun s x => (s.setReg .CTX_STATE_PKG_HELD x 1).pauseCtx x 2) (s.setReg .PKG_STATE_STATE 0 1)))

/-- Whether a CONFIG is in service (R333). -/
def State.configsServed (s : State) : Bool := (List.range 8).any (fun d => (s.cfgJobs d).any (fun j => j.who.isSome))

/-- PKG_STOPPED (R256, R333). -/
def execPkgStopped (s : State) : Host.Outcome State Fault Refusal :=
  .next (
    if s.reg .PKG_STATE_STATE 0 ≠ 1 ∨ s.configsServed ∨
        s.ctxs.any (fun e => decide (s.cst e.1 ≠ 6) && (e.2.holds || decide (e.2.busy ≠ .none))) then s
    else (s.setReg .PKG_STATE_STATE 0 2).bump .PKG_STATE_STOPS 0)

/-- A held context at a restart: resumed, or left PAUSED with the reason in CMDERR. -/
def State.restartCtx (s : State) (x : Nat) : State :=
  let s := s.setReg .CTX_STATE_PKG_HELD x 0
  let e := if (s.port (s.portOf x)).lost then 1 else s.holdErr x
  if e ≠ 0 then (s.cmdErr x e).event .CTX_EVENT_STATE x else s.resumeCtx x

/-- The governor begins afresh: its first decision comes 100 µs later (R367). -/
def State.governAfresh (s : State) : State :=
  { s with power := { s.power with lowTicks := 0, floorTicks := 0, l0Ticks := 0, overridden := false, episode := false } }

/-- PKG_RESTART (R182, R256, R367): ports whose width or package number has changed become due for a bring-up (R405,
R413). -/
def execPkgRestart (port : Fin 2) (s : State) : Host.Outcome State Fault Refusal :=
  .next (s.pkgCommand port 2 (fun s =>
    let s := (List.range (2 * s.dies)).foldl State.newRate (s.governAfresh.setReg .PKG_STATE_STATE 0 3)
    let s := (List.range (4 * s.dies)).foldl (fun s i => s.salRestart (i / 4) (i % 4)) s
    ((s.ctxs.map (·.1)).filter (fun x => s.regB .CTX_STATE_PKG_HELD x && decide (s.cst x = 3))).foldl State.restartCtx s))

/-- PKG_RESTART_DONE (R256). -/
def execPkgRestartDone (s : State) : Host.Outcome State Fault Refusal :=
  .next (
    if s.reg .PKG_STATE_STATE 0 ≠ 3 ∨ s.ctxs.any (fun e => decide (e.2.busy = .resuming)) ∨ s.ratesSettled = false then s
    else s.setReg .PKG_STATE_STATE 0 0)

end Sys2Proof.Machine
end

