-- ==== Sys2Proof/Machine/Security.lean ====
section
/-! DEFINITION. The attestation exchange, key rollover, keys and firmware written to the vault (R217, R335 to R353). -/

namespace Sys2Proof.Machine

/-- Whether a port takes a configuration request (R224). -/
def State.portReady (s : State) (p : Nat) : Bool := (s.port p).ready && !(s.port p).lost && !(s.port p).flr

/-! ## The vault -/

/-- Signatures of an attestation key, and leaves of the identity key (R347). -/
def attLeaves : Nat := 1048576
/-- Leaves of the identity key. -/
def idLeaves : Nat := 1024

/-- Whether a vault record or a journal entry may be written: Helm firmware of D0 agrees to it (R335, R377). -/
def State.vaultWrites (s : State) : Bool := s.agreed 0 2

/-- The registers that show the attestation keys (R350, R351). -/
def State.showKeys (s : State) : State :=
  let v := s.vault
  let s := (s.setReg .SEC_ATT_STAT_KEY 0 v.attKey).setReg .SEC_ATT_STAT_PENDING 0 (if v.pending.isSome then 1 else 0)
  (s.setReg .SEC_ATT_STAT_NEXT_INDEX 0 v.attNext).setReg .SEC_ATT_STAT_ID_LEFT 0 (idLeaves - v.idNext)

/-- The record of an attestation key written, with a checkpoint of its traversal at a leaf (R349, R350). -/
def Vault.putKey (v : Vault) (r : VaultRec) (key leaf : Nat) (cert : List Byte) : Vault :=
  match v.vk with
  | none => v
  | some vk => v.put (madeRec r) r (attKeyRec vk key leaf cert)

/-- The pending record written into the current one once that key is exhausted; the new key has signed nothing (R350). -/
def Vault.turnOver (v : Vault) : Vault :=
  match v.pending, v.value none .pendingKey with
  | some _, some b => if attLeaves ≤ v.attNext then { v.put (madeRec .attestation) .attestation b with traversal := 0 } else v
  | _, _ => v

/-- Whether a new attestation key is under way (R350). -/
def Vault.renewing (v : Vault) : Bool := v.pending.isSome || v.certifying.isSome

/-- A rollover begins at 65,536 leaves left, where attestation is not refused and an identity leaf is left to certify the new key (R350,
R351). -/
def State.rollover (s : State) : State :=
  if attLeaves ≤ s.vault.attNext + 65536 ∧ s.vault.renewing = false ∧ s.vault.idNext < idLeaves ∧ s.vault.vk.isSome ∧
      s.reg .SEC_ATT_STAT_REFUSE_CAUSE 0 = 0 then
    s.setReg .SEC_ATT_STAT_GENERATING 0 1
  else s

/-- REFUSE_CAUSE where no key is left (R351). -/
def State.exhaust (s : State) : State :=
  if attLeaves ≤ s.vault.attNext ∧ s.vault.renewing = false ∧ idLeaves ≤ s.vault.idNext ∧ s.reg .SEC_ATT_STAT_REFUSE_CAUSE 0 = 0
  then s.setReg .SEC_ATT_STAT_REFUSE_CAUSE 0 1 else s

/-- The keys after a leaf has been used or a key stored: a turn-over waits for a second processor to agree. -/
def State.keysMoved (s : State) : State :=
  let s := if s.vaultWrites then s.modVault Vault.turnOver else s
  (s.rollover).exhaust.showKeys

/-- The keys once the vault has been read in a start (R393). -/
def State.keysSettle (s : State) : State := if s.start.done.contains .p4 then s.keysMoved else s

/-! ## Answers (R352) -/

/-- A DOE data object: its header of two words, vendor, type and length in words, then its body, filled to a word (R217; log 46). -/
def doeObject (vendor type : Nat) (body : List Byte) : List Byte :=
  let n := (body.length + 3) / 4
  natBytes vendor 2 ++ natBytes type 1 ++ natBytes 0 1 ++ natBytes ((n + 2) % 2 ^ 18) 4 ++ fitTo (4 * n) body

/-- An answer of the attestation exchange sent from a port's mailbox. -/
def State.doeAnswer (s : State) (p : Nat) (body : List Byte) : State := s.send (.doe p (doeObject Config.vendorId.toNat 1 body))

/-- What a lost record is answered with: `n` bytes of a free value (R351; log 45). -/
def lostBytes (free n : Nat) : List Byte := natBytes (free % 2 ^ (8 * n)) n

/-- The answer to GET_STATUS: RESULT is OK, since it answers in every case (R351). -/
def Vault.statusAnswer (v : Vault) : List Byte :=
  [0x81] ++ natBytes 0 2 ++ natBytes v.attKey 2 ++ natBytes v.attNext 4 ++ natBytes (idLeaves - v.idNext) 2 ++
    [if v.pending.isSome then 1 else 0]

/-- The answer to GET_CERT, from the identity record and the current key's; `free` stands for what a lost record held (R351). -/
def Vault.certAnswer (v : Vault) (free : Nat) : List Byte :=
  let id := match v.value (madeRec .identity) .identity with
    | some (.identity serial pub cert _ _) => (natBytes serial.toNat 16, pub, cert)
    | _ => (lostBytes free 16, lostBytes free 68, [])
  let key := match v.value (madeRec .attestation) .attestation with
    | some (.attKey _ pub cert _ _) => (pub, cert)
    | _ => (lostBytes free 68, lostBytes free 2500)
  [0x82] ++ id.1 ++ id.2.1 ++ natBytes v.attKey 2 ++ key.1 ++ key.2 ++ natBytes id.2.2.length 2 ++ id.2.2

/-- The selected measurements, ascending (R352, R353). -/
def Vault.measBytes (v : Vault) (mask : Nat) : List Byte :=
  ((List.range 11).filter (fun i => mask.testBit i)).flatMap (fun i => natBytes (Tbl.getD v.meas i 0).toNat 32)

/-- What a quote signs. -/
def Vault.quoteMsg (v : Vault) (leaf : Nat) (nonce : BitVec 256) (mask : Nat) : List Byte :=
  ascii [0x71, 0x74, 0x65, 0x31] ++ serialBytes ++ natBytes v.attKey 2 ++ natBytes leaf 4 ++ natBytes nonce.toNat 32 ++
    natBytes mask 2 ++ v.measBytes mask

/-- The answer to GET_QUOTE up to the signature. -/
def Vault.quoteHead (v : Vault) (result : Nat) (nonce : BitVec 256) (mask : Nat) : List Byte :=
  [0x83] ++ natBytes result 2 ++ natBytes v.attKey 2 ++ natBytes v.attNext 4 ++ natBytes mask 2 ++ natBytes nonce.toNat 32 ++
    v.measBytes mask

/-- The journal entry of a quote, and the checkpoint of the traversal after every 1,024th signature (R337, R348, R349). -/
def Vault.useLeaf (v : Vault) : Vault :=
  let n := v.attNext + 1
  let v := { v with attJournal := journalPut v.attJournal v.attKey n, traversal := n }
  if n % 1024 = 0 then v.putKey .attestation v.attKey n v.attCert else v

/-- A quote: its index becomes durable, then the signature is made and released (R348, R352). -/
def State.quote (s : State) (p : Nat) (nonce : BitVec 256) (mask : Nat) : State :=
  let v := s.vault
  let sig := bytesOf 2820 (Config.attSign v.attKey v.attNext (v.quoteMsg v.attNext nonce mask))
  let gap := decide (s.reg .SEC_ATT_CTL_MIN_INTERVAL 0 ≠ 0)
  let s := s.modVault (fun v => { v.useLeaf with spacing := gap })
  (s.doeAnswer p (v.quoteHead 0 nonce mask ++ sig)).keysMoved

/-- Whether a quote's turn has come: the traversal state is advanced, the interval has passed, a leaf is there, and the
journal entry is agreed to (R349, R352, R377, R393). -/
def State.quoteTurn (s : State) : Bool :=
  s.start.done.contains .p6e && decide (s.vault.traversal = s.vault.attNext) && !s.vault.spacing &&
    decide (s.vault.attNext < attLeaves) && s.vaultWrites

/-- The request at the front answered, none where it waits. -/
def State.serveReq (s : State) : Option State :=
  match s.vault.reqs with
  | [] => none
  | (p, r) :: rest =>
    let t := s.modVault (fun v => { v with reqs := rest })
    match r with
    | .status => some (t.doeAnswer p s.vault.statusAnswer)
    | .cert => some ((t.drew 1).doeAnswer p (s.vault.certAnswer s.freeVal))
    | .quote nonce mask =>
      if s.reg .SEC_ATT_STAT_REFUSE_CAUSE 0 ≠ 0 then some (t.doeAnswer p (s.vault.quoteHead 0x0901 nonce mask))
      else if s.quoteTurn then some (t.quote p nonce mask) else none

/-- Requests served while the one at the front can be. -/
def State.serveReqs : Nat → State → State
  | 0, s => s
  | n + 1, s => match s.serveReq with
    | some t => State.serveReqs n t
    | none => s

/-- The signer goes on. -/
def State.signer (s : State) : State := s.serveReqs s.vault.reqs.length

/-- A request reaches the signer from the mailbox of a port. -/
def State.doeRequest (s : State) (p : Nat) (r : DoeReq) : State :=
  if s.portReady p then (s.modVault (fun v => { v with reqs := v.reqs ++ [(p, r)] })).signer else s

/-- GET_STATUS (R352). -/
def execGetStatus (port : Fin 2) (s : State) : Host.Outcome State Fault Refusal := .next (s.doeRequest port .status)

/-- GET_CERT (R352). -/
def execGetCert (port : Fin 2) (s : State) : Host.Outcome State Fault Refusal := .next (s.doeRequest port .cert)

/-- GET_QUOTE (R348, R350 to R352): bits of MASK above 10 are ignored. -/
def execGetQuote (port : Fin 2) (nonce : BitVec 256) (mask : BitVec 16) (s : State) : Host.Outcome State Fault Refusal :=
  .next (s.doeRequest port (.quote nonce (mask.toNat % 2048)))

/-- The answer of DOE Discovery to an index: the vendor and type that stand there, and the next index (log 46). -/
def discovery (index : Nat) : List Byte :=
  match index with
  | 0 => natBytes 1 2 ++ natBytes 0 1 ++ natBytes 1 1
  | 1 => natBytes Config.vendorId.toNat 2 ++ natBytes 1 1 ++ natBytes 0 1
  | _ => natBytes 0xFFFF 2 ++ natBytes 0 2

/-- DOE_UNSUPPORTED (R217, R352): DOE Discovery is answered; any other object, and one of the attestation exchange whose code or
length does not match, meets nothing but the mailbox's error indication. -/
def execDoeUnsupported (q : DoeFrame) (s : State) :
    Host.Outcome State Fault Refusal :=
  .next (
    if !s.portReady q.port then s
    else if q.vendor = 1 ∧ q.type = 0 then s.send (.doe q.port (doeObject 1 0 (discovery q.index.toNat)))
    else s.send (.doeError q.port))

/-- MIN_INTERVAL_EXPIRE (R352). -/
def execMinIntervalExpire (s : State) : Host.Outcome State Fault Refusal :=
  .next (if s.vault.spacing then (s.modVault (fun v => { v with spacing := false })).signer else s)

/-- A new attestation key's number drawn: the identity leaf that certifies it, durable from now on (R348, R350). -/
def Vault.certify (v : Vault) : Vault :=
  { v with idJournal := journalPut v.idJournal 0 (v.idNext + 1), certifying := some v.idNext }

/-- The record of the new key stored as pending. -/
def Vault.storeKey (v : Vault) (key : Nat) : Vault :=
  { v.putKey .pendingKey key 0 (certSig key) with certifying := none }

/-- ROLLOVER_KEY_READY (R348, R350): a generated key is certified; the next such command stores its record. A reset between the two
burns the identity leaf (DESIGN CHOICE, log 45: the row names one event, and the model takes the steps one by one). -/
def execRolloverKeyReady (s : State) : Host.Outcome State Fault Refusal :=
  .next (
    if s.regB .SEC_ATT_STAT_GENERATING 0 = false ∨ s.vaultWrites = false ∨ s.vault.vk = none then s
    else match s.vault.certifying with
      | none => if s.vault.idNext < idLeaves then (s.modVault Vault.certify).showKeys else s
      | some k => (((s.setReg .SEC_ATT_STAT_GENERATING 0 0).modVault (·.storeKey k)).keysMoved).signer)

/-- Whether a die's memory still holds the running image: BODY_HASH (R343, R379). -/
def State.imageHolds (s : State) (die : Nat) : Bool :=
  s.helm.loaded.contains die && decide (shake256 (Tbl.getD s.helm.dieMem die []) = s.helm.bodyHash)

/-- Bytes of a processor's private memory (R375). -/
def privSize : Nat := 0x40000

/-- The image as a processor takes it from its die's memory: its first bytes fill the private memory (DESIGN CHOICE, log 38). -/
def State.reloadImage (s : State) (die proc : Nat) : State :=
  { s with helm := { s.helm with privMem := Tbl.set s.helm.privMem (die, proc) ((Tbl.getD s.helm.dieMem die []).take privSize) } }

/-- HELM_PROCESSOR_RUNNING (R376, R377, R379): the image of the die memory is reloaded, its BODY_HASH checked again; what waited for a
checker goes on. -/
def execHelmProcessorRunning (die : Fin 8) (proc : Fin 4) (s : State) : Host.Outcome State Fault Refusal :=
  .next (
    if s.reg .HELM_STAT_STATE (die * 4 + proc) ≠ 1 ∨ s.imageHolds die = false then s
    else (((s.reloadImage die proc).setReg .HELM_STAT_STATE (die * 4 + proc) 0).setReg .HELM_STAT_DUTIES (die * 4 + proc) 0).keysSettle.signer)

/-! ## Keys (R342) -/

/-- A vault write begins. -/
def State.vaultBegin (s : State) (j : VaultJob) : State :=
  ((s.modVault (fun v => { v with job := some j })).setReg .SEC_VAULT_STAT_BUSY 0 1).setReg .SEC_VAULT_STAT_RESULT 0 0

/-- A vault operation ends with a RESULT (R342, R346, R382). -/
def State.vaultEnd (s : State) (result : Nat) : State :=
  (((s.modVault (fun v => { v with job := none })).setReg .SEC_VAULT_STAT_BUSY 0 0).setReg .SEC_VAULT_STAT_RESULT 0 result).raise 0 0x80

/-- A vault operation refused before it began. -/
def State.vaultRefuse (s : State) (result : Nat) : State := s.setReg .SEC_VAULT_STAT_RESULT 0 result

/-- Whether a GO acts: it comes from the lease holder while STOPPED, and nothing is being written (R342, R346). -/
def State.vaultGo (s : State) (src : Src) : Bool :=
  match src with
  | .port p => s.holdsLease p && s.pkgStopped && !s.regB .SEC_VAULT_STAT_BUSY 0
  | .helm _ _ => false

/-- Whether a target takes no key: it holds one, is revoked, is not used, or is RK with a failed PUF. -/
def State.keyRefused (s : State) (target : Nat) : Bool :=
  if target < 8 then (Tbl.get? s.vault.slots target).isSome
  else if target = 8 then s.vault.hasRk || decide (s.reg .SEC_STAT_PUF_FAIL 0 ≠ 0)
  else true

/-- Bytes of a key (R342). -/
def keyLen (target : Nat) : Nat := if target = 8 then 32 else 68

/-- KEY_INSTALL (R342); a stack that does not serve keeps the operation waiting (R181, R184). -/
def execKeyInstall (src : Src) (addr : BitVec 48) (target : BitVec 4) (s : State) : Host.Outcome State Fault Refusal :=
  .next (s.writeAs src .SEC_KEY_WR 0 0 (fun s =>
    let t := target.toNat
    let s := ((s.setReg .SEC_KEY_WR_SRC 0 addr.toNat).setReg .SEC_KEY_WR_TARGET 0 t).setReg .SEC_KEY_WR_REVOKE 0 0
    if s.vaultGo src = false then s
    else if s.keyRefused t then s.vaultRefuse 2
    else if s.hbmWaits addr.toNat (keyLen t) then s.vaultBegin (.fetchKey t addr.toNat)
    else
      let r := s.hbmTake addr.toNat (keyLen t)
      match r.2 with
      | none => r.1.vaultRefuse 4
      | some b => r.1.vaultBegin (.key t b)))

/-- KEY_REVOKE (R342): an empty slot, or one that holds a key, is marked. -/
def execKeyRevoke (src : Src) (target : BitVec 4) (s : State) : Host.Outcome State Fault Refusal :=
  .next (s.writeAs src .SEC_KEY_WR 0 0 (fun s =>
    let t := target.toNat
    let s := (s.setReg .SEC_KEY_WR_TARGET 0 t).setReg .SEC_KEY_WR_REVOKE 0 1
    if s.vaultGo src = false then s
    else if 8 ≤ t ∨ Tbl.get? s.vault.slots t = some .revoked then s.vaultRefuse 2
    else s.vaultBegin (.revoke t)))

/-- RK wrapped into the record of a die, under its key (R340, R342). -/
def Vault.putRk (v : Vault) (rk : List Byte) (die : Nat) : Vault :=
  let d := fin8 die
  let w := (v.wrapRec d).getD ([], none, none)
  v.put (madeRec (.wrap d)) (.wrap d) (.wrap w.1 (some (kwWrap (Tbl.getD v.dieKeys die 0) rk)) w.2.2)

/-- A finished vault record. -/
def Vault.stored (v : Vault) (dies : Nat) : VaultJob → Vault
  | .key t b =>
    if t = 8 then (List.range dies).foldl (fun v d => v.putRk b d) v
    else v.put none (.slot (fin16 t)) (.slot (.key b))
  | .revoke t => v.put none (.slot (fin16 t)) (.slot .revoked)
  | _ => v

/-- A key record written, or not (R336). -/
def State.keyStored (s : State) (ok : Bool) (j : VaultJob) : State :=
  if ok then (s.modVault (fun v => v.stored s.dies j)).vaultEnd 1 else s.vaultEnd 5

/-- KEY_WRITE_DONE (R336, R342, R377): a failed write leaves the record as it was. -/
def execKeyWriteDone (ok : Bool) (s : State) : Host.Outcome State Fault Refusal :=
  .next (
    match s.vault.job with
    | some (.fetchKey t a) =>
      if s.vaultWrites = false ∨ s.hbmWaits a (keyLen t) then s
      else
        let r := s.hbmTake a (keyLen t)
        match r.2 with
        | none => r.1.vaultEnd 4
        | some b => r.1.keyStored ok (.key t b)
    | some (.key t b) => if s.vaultWrites then s.keyStored ok (.key t b) else s
    | some (.revoke t) => if s.vaultWrites then s.keyStored ok (.revoke t) else s
    | _ => s)

/-! ## Firmware (R343 to R346) -/

/-- Whether a firmware image passes R344, its length aside. -/
def fwGood (img : List Byte) (floor : Nat) : Bool :=
  let n := leAt img 8 4
  decide (3076 ≤ img.length) && decide (img.take 4 = ascii [0x43, 0x52, 0x56, 0x46]) && decide (leAt img 4 2 = 1) &&
    zeroAt img 12 32 && zeroAt img 64 256 && decide (n ≤ 4191228) && decide (3076 + n ≤ img.length) &&
    xmssVerify Config.fwKey (img.take 256) ((img.drop 256).take 2820) &&
    decide ((img.drop 32).take 32 = natBytes (shake256 ((img.drop 3076).take n)).toNat 32) && decide (floor ≤ leAt img 6 2)

/-- Whether an image of `n` bytes is taken (R346). -/
def State.fwFits (s : State) (img : List Byte) (n : Nat) : Bool := fwGood img s.vault.floor0 && decide (n = 3076 + leAt img 8 4)

/-- FIRMWARE_WRITE (R346); a stack that does not serve keeps the operation waiting (R181, R184). -/
def execFirmwareWrite (src : Src) (addr : BitVec 48) (len : BitVec 32) (s : State) : Host.Outcome State Fault Refusal :=
  .next (s.writeAs src .SEC_FW_WR 0 0 (fun s =>
    let n := len.toNat
    let s := (s.setReg .SEC_FW_WR_SRC 0 addr.toNat).setReg .SEC_FW_WR_LEN 0 n
    if s.vaultGo src = false then s
    else if n < 3076 ∨ 0x400000 < n then s.vaultRefuse 3
    else if s.hbmWaits addr.toNat n then s.vaultBegin (.fetchImage addr.toNat n)
    else
      let r := s.hbmTake addr.toNat n
      let s := r.1
      match r.2 with
      | none => s.vaultRefuse 4
      | some img => if s.fwFits img n then s.vaultBegin (.firmware img) else s.vaultRefuse 3))

/-- The slot that firmware is written into: the one it did not boot from. -/
def State.setFwSlot (s : State) (f : FwSlot) : State :=
  if s.regB .SEC_STAT_FW_SLOT 0 then s.modVault (fun v => { v with fw0 := f }) else s.modVault (fun v => { v with fw1 := f })

/-- A firmware image written; a failed write leaves the slot without a valid image. -/
def State.imageStored (s : State) (ok : Bool) (img : List Byte) : State :=
  if ok then (s.setFwSlot (.image img)).vaultEnd 1 else (s.setFwSlot .broken).vaultEnd 5

/-- FIRMWARE_WRITE_DONE (R346, R377): a write that no second processor of D0 agrees to waits. -/
def execFirmwareWriteDone (ok : Bool) (s : State) : Host.Outcome State Fault Refusal :=
  .next (
    if s.vaultWrites = false then s
    else match s.vault.job with
    | some (.firmware img) => s.imageStored ok img
    | some (.fetchImage a n) =>
      if s.hbmWaits a n then s
      else
        let r := s.hbmTake a n
        match r.2 with
        | none => r.1.vaultEnd 4
        | some img => if r.1.fwFits img n then r.1.imageStored ok img else r.1.vaultEnd 3
    | _ => s)


end Sys2Proof.Machine
end

