-- ==== Sys2Proof/Machine/Pcie.lean ====
section
/-! DEFINITION. Link loss, function level resets, VF entries, BAR4, errors of the PCIe ports (R216 to R225, R230 to R232). -/

namespace Sys2Proof.Machine

/-! ## Link loss (R230, R231) -/

/-- A transfer whose host accesses under way are cut off. -/
def Xfer.cutHost (t : Xfer) : Xfer :=
  { t with hostOut := t.hostOut.map (fun w => { w with sent := false })
           pieces := t.pieces.map (fun p => { p with parts := mapIf (·.due) (fun q => { q with tag := 1 }) p.parts }) }

/-- The groups of a context with their host writes under way cut off. -/
def Ctx.cutHost (t : Ctx) : Ctx :=
  { t with grps := t.grps.map (fun g => { g with hostOut := g.hostOut.map (fun w => { w with sent := false }) }) }

/-- The contexts that a port owns. -/
def State.ownedBy (s : State) (p : Nat) : List Nat := (s.ctxs.map (·.1)).filter (fun x => s.owns p x)

/-- The transfers of some contexts that have failed go on without the reads that are cut off (R195). -/
def State.settleFailed (s : State) (l : List Nat) : State :=
  (s.xfers.filter (fun t => t.failed && l.contains t.ctx)).foldl (fun s t => s.settle t.id) s

/-- The host accesses and messages of a port and its contexts that the link has not carried through, cut off (R230). -/
def State.cutHost (s : State) (p : Nat) : State :=
  let l := s.ownedBy p
  let s := { s with xfers := mapIf (fun t => l.contains t.ctx) Xfer.cutHost s.xfers }
  let s := l.foldl (fun s x => ((s.modCtx x Ctx.cutHost).cqCut x).msgsCut x) s
  (s.portCut p).settleFailed l

/-- Transfers whose page requests have been discarded send new ones (R230, R232). -/
def State.askAnew (s : State) (which : Xfer → Bool) : State :=
  { s with xfers := mapIf which (fun t => match t.hold with
      | .page a w _ => { t with hold := .page a w false }
      | _ => t) s.xfers }

/-- A port's translations and page requests gone (R230, R232); its attestation requests are abandoned, and the signer goes on with the
other port's (R352). -/
def State.dropAts (s : State) (p : Nat) : State :=
  let s := (s.modPort p (fun q => { q with atc := [], pri := [], inval := [] })).askAnew (fun t => s.xport t == p)
  (s.modVault (fun v => { v with reqs := v.reqs.filter (fun r => r.1 != p) })).signer

/-- A RUNNING context pauses because its link is lost. -/
def State.pauseLink (s : State) (x : Nat) : State := (s.setReg .CTX_STATE_LINK x 1).pauseCtx x 3

/-- Contexts of a port, by a test of their state. -/
def State.ctxsOf (s : State) (p : Nat) (st : Nat → Bool) : List Nat := (s.ctxs.map (·.1)).filter (fun x => s.owns p x && st (s.cst x))

/-- LINK_LOSS (R230): in D3hot the Data Link Layer stays up; what takes it down later is not a new loss. -/
def execLinkLoss (port : Fin 2) (ev : LinkEvent) (s : State) : Host.Outcome State Fault Refusal :=
  .next (
    if s.regB .PCI_LINK_STAT_UP port = false then s
    else if (s.port port).lost then (if ev = .d3hot then s else s.setReg .PCI_LINK_STAT_UP port 0)
    else
      let s := ((s.raise port 0x70).bump .PCI_LINK_STAT_DOWN_COUNT port).setReg .PCI_LINK_STAT_TIMER_RUN port 1
      let s := if ev = .d3hot then s else s.setReg .PCI_LINK_STAT_UP port 0
      let s := s.modPort port (fun q => { q with lost := true, lostAt := s.timer })
      ((s.ctxsOf port (· == 2)).foldl State.pauseLink (s.cutHost port)).dropAts port)

/-- Transfers of a port that wait at a page fault wait no more, and its page requests are given up, once translations are not used
any more (R197, R202). -/
def State.atsOff (s : State) (p : Nat) : State :=
  let s := s.modPort p (fun q => { q with ats := false, atc := [], pri := [] })
  { s with xfers := mapIf (fun t => s.xport t == p && !s.pausedCtx t.ctx) (fun t => match t.hold with
      | .page _ _ _ => { t with hold := .none }
      | _ => t) s.xfers }

/-- The function and the vector of a place in a port's MSI-X tables. -/
def msixVec (k : Nat) : Option Nat × Nat := if k < 4096 then (none, k) else (some ((k - 4096) / 4), k % 4)

/-- Whether the message of a pending vector may go: it is not masked, and its function exists (R219, R222). -/
def State.pbaGoes (s : State) (p k : Nat) : Bool :=
  !s.msixMasked p (msixVec k).1 (msixVec k).2 && (match (msixVec k).1 with
    | some n => s.vfExists p n
    | none => true)

/-- The messages of pending vectors that may go, sent (R219); they are the port's own until the link acknowledges them (R230). -/
def State.pbaFlush (s : State) (p : Nat) : State :=
  if (s.port p).lost then s
  else
    let l := (s.port p).pba.filter (s.pbaGoes p)
    l.reverse.foldl (fun s k => s.portMsix p (msixVec k).1 (msixVec k).2) (s.modPort p (fun q => { q with pba := q.pba.filter (fun k => !l.contains k) }))

/-- What contexts that did not pause hold for the host, sent once the link is back. -/
def State.reissuePort (s : State) (p : Nat) : State :=
  (s.ctxsOf p (fun c => c == 2 || c == 4 || c == 5)).foldl (fun s x => ((s.cqGo x).releaseMsgs x).retirePasses x) s

/-- LINK_UP (R230, R231): the first link of a start comes up in the same way. -/
def execLinkUp (port : Fin 2) (s : State) : Host.Outcome State Fault Refusal :=
  .next (
    let was := s.regB .PCI_LINK_STAT_UP port && !(s.port port).lost
    let s := (if was then s else s.raise port 0x70).setReg .PCI_LINK_STAT_UP port 1
    if (s.port port).lost = false then s
    else
      let s := (s.setReg .PCI_LINK_STAT_TIMER_RUN port 0).modPort port (fun q =>
        { q with lost := false, lostAt := 0, vfEn := false, numVfs := 0, conf := [], aer := [] })
      (((s.atsOff port).pbaFlush port).reissuePort port).priAll)

/-- Whether a port's lease timer has reached its limit. -/
def State.leaseOver (s : State) (p : Nat) : Bool :=
  (s.port p).lost && decide (max 1 (s.reg .PKG_LEASE_TIMEOUT_SECONDS 0) * 1000000000 ≤ (s.timer + 2 ^ 48 - (s.port p).lostAt) % 2 ^ 48)

/-- Every context of a port killed, without entries, and its lease released (R231, R232). -/
def State.killPort (s : State) (p : Nat) : State := ((s.ctxsOf p (fun _ => true)).foldl (fun s x => s.killCtx x false) s).dropLease p

/-- LEASE_TIMEOUT (R231). -/
def execLeaseTimeout (port : Fin 2) (s : State) : Host.Outcome State Fault Refusal :=
  .next (if s.leaseOver port then s.killPort port else s)

/-! ## Function level resets (R232) -/

/-- PF_FLR (R224, R232): complete when every killed context is FREE. -/
def execPfFlr (port : Fin 2) (s : State) : Host.Outcome State Fault Refusal :=
  .next (
    if !s.portReady port then s
    else
      let s := (s.killPort port).dropAts port
      let left := (List.range 1024).any (fun x => s.owns port x)
      s.modPort port (fun q => { q with flr := left, ats := false, vfEn := false, numVfs := 0, conf := [], msix := [], pba := [] }))

/-- Whether a field of configuration space is a VF's. -/
def ofVf (vf : Nat) (f : ConfField) : Bool := f == .msixEnable (some vf) || f == .msixMask (some vf)

/-- The translations held for a VF and the page requests made through it given up, its MSI-X structures reset; a transfer that waits
for such a request sends a new one (R220, R232). -/
def State.resetVf (s : State) (p vf : Nat) : State :=
  let mine (k : Nat) : Bool := decide (4096 + 4 * vf ≤ k) && decide (k < 4100 + 4 * vf)
  (s.askAnew (fun t => s.xport t == p && decide (s.fnOf t.ctx = some vf))).modPort p (fun q => { q with
    conf := q.conf.filter (fun e => !ofVf vf e.1)
    atc := q.atc.filter (fun e => decide (e.vf ≠ some vf))
    pri := q.pri.filter (fun e => decide (e.vf ≠ some vf))
    msix := q.msix.filter (fun e => !mine e.1)
    pba := q.pba.filter (fun k => !mine k) })

/-- VF_FLR (R232): the entry stays valid. -/
def execVfFlr (port : Fin 2) (vf : Nat) (s : State) : Host.Outcome State Fault Refusal :=
  .next (
    let i := port.val * 511 + vf
    if !s.portReady port || !s.vfExists port vf then s
    else
      let x := s.reg .PCI_VF_CTX_CTX i
      let s := s.resetVf port vf
      (if s.regB .PCI_VF_CTX_VALID i ∧ s.owns port x then s.killCtx x false else s).priAll)

/-! ## VFs (R220 to R222) -/

/-- Whether another valid entry of either port names a context. -/
def State.namedElsewhere (s : State) (p i x : Nat) : Bool :=
  (List.range 2).any (fun q => (List.range 511).any (fun j => !(decide (q = p) && decide (j = i)) &&
    s.regB .PCI_VF_CTX_VALID (q * 511 + j) && s.reg .PCI_VF_CTX_CTX (q * 511 + j) == x))

/-- An entry of a port's PCI_VF_CTX written (R221, R222): a write that leaves the entry not valid names no context. -/
def State.vfCtxWritten (s : State) (p i v : Nat) : State :=
  let k := p * 511 + i
  let x := v % 1024
  let valid := natBits v 10 1 == 1
  let old := s.reg .PCI_VF_CTX_CTX k
  let was := s.regB .PCI_VF_CTX_VALID k
  if (s.port p).vfEn || (valid && (x == 0 || !s.owns p x || s.namedElsewhere p i x)) then s.violation p
  else
    let s := (s.setReg .PCI_VF_CTX_CTX k x).setReg .PCI_VF_CTX_VALID k (if valid then 1 else 0)
    if was then s.releaseMsgs old else s

/-- PCI_VF_CTX_WRITE (R221, R222). -/
def execPciVfCtxWrite (port : Fin 2) (i : Fin 511) (value : BitVec 32) (s : State) : Host.Outcome State Fault Refusal :=
  .next (s.writeAs (.port port) .PCI_VF_CTX port i (fun s => s.vfCtxWritten port i value.toNat))

/-- VF_ENABLE (R222): held messages of the contexts of VFs that exist now are sent, and pending ones whose entries are not masked. The
VFs' MSI-X entries survive VF Enable at 0 (DESIGN CHOICE, log 26). -/
def execVfEnable (port : Fin 2) (en : Bool) (num : Nat) (s : State) : Host.Outcome State Fault Refusal :=
  .next (
    if !s.portReady port then s
    else
      let s := s.modPort port (fun q => { q with vfEn := en, numVfs := min num 511 })
      ((s.ctxsOf port (fun _ => true)).foldl State.releaseMsgs s).pbaFlush port)

/-! ## BAR4 (R117, R126, R131, R169, R178, R223, R294) -/

/-- Whether a core is being Bleached, or belongs to a context that is (R131). -/
def State.coreCovered (s : State) (c : Nat) : Bool := (s.core c).bleaching || (s.coreRefuses c 0).isSome

/-- Whether a range of HBM meets an area of a BLEACHING context. -/
def State.hbmCovered (s : State) (a n : Nat) : Bool := s.ctxs.any (fun e => decide (s.cst e.1 = 6) && (s.areas e.1).any (fun r => meets r (a, n)))

/-- What `n` bytes from a device address are to BAR4; none where the access is refused. -/
def State.bar4At (s : State) (a n : Nat) : Option DevAt :=
  match s.devAt a with
  | .hbm => if a + n ≤ s.hbmTop ∧ s.hbmCovered a n = false then some .hbm else none
  | .row c r =>
    if a % 4096 + n ≤ 4096 ∧ s.absent c = false ∧ s.coreCovered c = false then some (.row c r) else none
  | .bram d o => if o + n ≤ 0x600000 then some (.bram d o) else none
  | _ => none

/-- The open aperture of a port: the device address of an offset. -/
def State.bar4 (s : State) (p : Nat) (off : Nat) : Option Nat :=
  if s.regB .PCI_DBG_CTL_OPEN p then some (s.reg .PCI_DBG_CTL_BASE p * 2 ^ 30 + off) else none

/-- The rows of a core that `n` bytes from a device address touch. -/
def bar4RowsOf (a n : Nat) : List Nat := (unitsIn 64 (a - 2 ^ 44) n).map (· % 64)

/-- Whether a BAR4 access to an open place has to wait: the brake, sleep, a row whose next grant the core is owed, for a write a write
that waits at the core before it, a stack that is not ready (R83, R116, R121, R162, R181). The host's command is then made again
(DESIGN CHOICE, log 11). -/
def State.bar4Waits (s : State) (a n : Nat) (d : DevAt) (write : Bool) : Bool :=
  match d with
  | .row c _ => !s.coreTakes c || (bar4RowsOf a n).any (fun r => (s.core c).owed (.engine r) [r]) || (write && !(s.core c).inq.isEmpty)
  | .hbm => match s.hbmAdmit (s.stackOf a) (a % s.stackE) n with
    | .wait => true
    | _ => false
  | _ => false

/-- A read refused by what it reaches: the value it returns is not given. -/
def State.bar4Free (s : State) (src : Src) (n : Nat) : State := (s.drew 1).send (.readDone src (s.freeVal % 2 ^ (8 * n)))

/-- A read through an open aperture, row by row, atom by atom, word by word, with what the ECC finds in each (R115, R117). -/
def State.bar4Read (s : State) (src : Src) (a n : Nat) (ecc : List AtomEcc) (d : DevAt) : State :=
  match d with
  | .row c _ =>
    let q := s.checkAll c (bar4RowsOf a n) (ecc.map (·.ecc))
    if q.2 then q.1.send (.readDone src (bytesNat ((List.range n).map (fun i => q.1.rowByte (a + i))))) else q.1.bar4Free src n
  | .hbm =>
    let h := s.stackOf a
    (match s.hbmAdmit h (a % s.stackE) n with
     | .serve =>
       let q := s.hbmRead h (a % s.stackE) n 0 ecc
       (match q.2 with
        | none => q.1.bar4Free src n
        | some b => q.1.send (.readDone src (bytesNat b)))
     | _ => s.bar4Free src n)
  | .bram die o =>
    if s.apertureOk die o n then
      let q := s.bramSeen die (unitsIn 8 o n).length (ecc.map (·.ecc))
      if q.2 then q.1.send (.readDone src (bytesNat (s.bramTake (die * 0x800000 + o) n))) else q.1.bar4Free src n
    else s.bar4Free src n
  | _ => s

/-- BAR4_READ (R131, R223). -/
def execBar4Read (port : Fin 2) (off : BitVec 30) (len : Nat) (ecc : List AtomEcc) (s : State) : Host.Outcome State Fault Refusal :=
  .next (
    let src : Src := .port port
    match s.reaches src with
    | .granted => (match s.bar4 port off.toNat with
      | none => (s.send (.readDone src 0)).violation port
      | some a => match s.bar4At a len with
        | none => (s.send (.readDone src 0)).violation port
        | some d => if s.bar4Waits a len d false then s else s.bar4Read src a len ecc d)
    | .unsupported => s.unsupported src
    | _ => s)

/-- Bytes written into rows of a core, tags untouched. -/
def Core.pokeBytes (k : Core) (a : Nat) : List Byte → Core
  | [] => k
  | b :: l =>
    let r := a / 64 % 64
    Core.pokeBytes { k with rows := vset k.rows r (rowPut (vget k.rows r 0) (a % 64) 1 b.toNat) } (a + 1) l

/-- How many 8-byte words `n` bytes from an address cover in part. -/
def partWords (a n : Nat) : Nat :=
  ((unitsIn 8 a n).filter (fun w => !(decide (a ≤ 8 * w) && decide (8 * w + 8 ≤ a + n)))).length

/-- The rows of a core that a write covers in part of a word, read before they are written, with what the ECC finds in each
(R115, R126). -/
def State.bar4Rows (s : State) (c a n : Nat) : List Nat → List Ecc → State
  | [], _ => s
  | u :: r, es =>
    let lo := max a (2 ^ 44 + 64 * u)
    let k := partWords lo (min (a + n) (2 ^ 44 + 64 * u + 64) - lo)
    if k = 0 then State.bar4Rows s c a n r es
    else State.bar4Rows (s.readRow c (u % 64) (eccOfWords (es.headD .clean) k)).1 c a n r es.tail

/-- The words of a block RAM that a write covers, each on its own (R291, R294). -/
def State.bar4Words (s : State) (die o : Nat) (b : List Byte) (es : List Ecc) : State :=
  let lo := o / 8 * 8
  let new := fitTo (8 * (unitsIn 8 o b.length).length) (List.replicate (o - lo) 0 ++ b)
  s.bramMaskWords die (die * 0x800000 + lo) new ((unitsIn 8 o b.length).map (fun w =>
    ((List.range 8).map (fun i => if o ≤ 8 * w + i ∧ 8 * w + i < o + b.length then 2 ^ i else 0)).sum)) es

/-- A write through an open aperture: a part of a unit is merged by a MASK_WRITE (R144, R171, R223). -/
def State.bar4Write (s : State) (a : Nat) (b : List Byte) (ecc : List AtomEcc) (d : DevAt) : State :=
  match d with
  | .row c _ => (s.bar4Rows c a b.length (unitsIn 64 (a - 2 ^ 44) b.length) (ecc.map (·.ecc))).modCore c (fun k => k.pokeBytes a b)
  | .hbm =>
    let h := s.stackOf a
    let o := a % s.stackE
    (match s.hbmAdmit h o b.length with
     | .serve => (((s.homeFirst a b.length).hbmAccept h 0 ((atomsOf o b.length).map (fun t => (t, atomMask o b.length t))) ecc).hbmWrite a b)
     | _ => s)
  | .bram die o => if s.apertureOk die o b.length then s.bar4Words die o b (ecc.map (·.ecc)) else s
  | _ => s

/-- BAR4_WRITE (R131, R223). -/
def execBar4Write (port : Fin 2) (off : BitVec 30) (bytes : List Byte) (ecc : List AtomEcc) (s : State) :
    Host.Outcome State Fault Refusal :=
  .next (
    let src : Src := .port port
    match s.reaches src with
    | .granted => (match s.bar4 port off.toNat with
      | none => s.violation port
      | some a => match s.bar4At a bytes.length with
        | none => s.violation port
        | some d =>
          if s.regB .PCI_DBG_CTL_WR_EN port = false then s.violation port
          else if s.bar4Waits a bytes.length d true then s
          else s.bar4Write a bytes ecc d)
    | .unsupported => s.unsupported src
    | _ => s)

/-! ## Errors (R224, R225) -/

/-- POISONED_WRITE (R225). -/
def execPoisonedWrite (port : Fin 2) (s : State) : Host.Outcome State Fault Refusal :=
  .next (if (s.port port).lost then s else s.aer port .poisoned)

/-- CONFIG_REQUEST_NOT_READY (R224, R232): before the port is ready, and during a function level reset. -/
def execConfigRequestNotReady (port : Fin 2) (s : State) : Host.Outcome State Fault Refusal :=
  .next (if (s.port port).lost || ((s.port port).ready && !(s.port port).flr) then s else s.send (.crs port))

end Sys2Proof.Machine
end

