-- ==== Sys2Proof/Machine/Startup.lean ====
section
/-! DEFINITION. The start sequence, Sounding, the numbering of the cores, module and partition resets (R344, R345, R391 to
R403). -/

namespace Sys2Proof.Machine

/-! ## The state byte of the management connector (R427) -/

/-- Whether the start has failed (R395). -/
def State.startFailed (s : State) : Bool := s.reg .YLD_START_PHASE 0 == 15

/-- Byte 0 of STATE: off, starting, ready, start failed, latched off. -/
def State.smbState (s : State) : Nat :=
  if s.module.off then (if s.module.latched then 4 else 0)
  else if s.startFailed then 3
  else if s.reg .YLD_START_PHASE 0 = 10 then 2
  else 1

/-- SMB_ALERT_N pulled low where STATE has changed. -/
def State.alertState (s : State) : State :=
  if s.smbState = s.module.shown then s
  else { s with module := { s.module with alert := true, shown := s.smbState } }

/-! ## The module reset (R325, R346, R394, R401) -/

/-- What a reset leaves of the vault: its records and journals, and the slot of a firmware write in progress without a valid image
(R336, R337, R346). -/
def Vault.restart (v : Vault) (slot1 : Bool) : Vault :=
  let v := match v.job with
    | some (.firmware _) => if slot1 then { v with fw0 := .broken } else { v with fw1 := .broken }
    | _ => v
  { Vault.reset with recs := v.recs, idJournal := v.idJournal, attJournal := v.attJournal, fw0 := v.fw0, fw1 := v.fw1 }

/-- The fields of MOD_STAT that the standby domain keeps (R423). -/
def standbyField (f : Fld) : Bool := f == .MOD_STAT_LAST_OFF || f == .MOD_STAT_TRIPS

/-- Everything reset but the vault, the flash and the standby domain. -/
def State.moduleReset (s : State) : State :=
  ({ State.reset with
      product := s.product
      regs := s.regs.filter (fun e => standbyField e.1.1)
      cfg := { Cfg.reset with flash := s.cfg.flash }
      vault := s.vault.restart (s.regB .SEC_STAT_FW_SLOT 0)
      module := s.module
      free := s.free
      out := s.out
      pending := s.pending } : State).alertState

/-- MODULE_RESET (R394, R401): one at power-on finds the standby domain new. -/
def execModuleReset (cause : ResetCause) (s : State) : Host.Outcome State Fault Refusal :=
  .next (
    match cause with
    | .powerOn =>
      let s := s.moduleReset
      ({ s with regs := [], module := .reset } : State).alertState
    | _ => if s.module.off then s else s.moduleReset)

/-- PKG_RESET (R403). -/
def execPkgReset (src : Src) (value : BitVec 32) (s : State) : Host.Outcome State Fault Refusal :=
  .next (s.writeAs src .PKG_RESET 0 0 (fun s =>
    match src with
    | .port p =>
      if s.holdsLease p && s.pkgStopped && decide (natBits value.toNat 8 1 = 1) && decide (natBits value.toNat 0 8 = 0xA5) then
        s.moduleReset
      else s
    | .helm _ _ => s))

/-! ## The orders of the start (R393, R395) -/

/-- The orders that an order follows. -/
def orderFollows : StartPhase → List StartPhase
  | .p1 => []
  | .p2 => [.p1]
  | .p3 => [.p2]
  | .p4 => [.p3]
  | .p5 => [.p4]
  | .p6a | .p6b | .p6c | .p6d | .p6e => [.p5]
  | .p7 => [.p6a, .p6b]
  | .p8 => [.p7]
  | .p9 => [.p8]

/-- PHASE once an order has ended. -/
def phaseAfter : StartPhase → Option Nat
  | .p1 => some 2
  | .p2 => some 3
  | .p3 => some 4
  | .p4 => some 5
  | .p5 => some 6
  | .p7 => some 8
  | .p8 => some 9
  | .p9 => some 10
  | _ => none

/-- Whether an order may begin or is in progress. -/
def State.inOrder (s : State) (p : StartPhase) : Bool :=
  !s.module.off && !s.startFailed && !s.start.done.contains p && (orderFollows p).all (fun q => s.start.done.contains q)

/-- What YLD_START.PHASE shows: 1 in order 1 (R393). -/
def State.phase (s : State) : Nat := if s.inOrder .p1 then 1 else s.reg .YLD_START_PHASE 0

/-- The start fails (R395). -/
def State.failStart (s : State) (cause : Nat) : State :=
  ((s.setReg .YLD_START_PHASE 0 15).setReg .YLD_START_FAIL 0 cause).alertState

/-- An order has ended. -/
def State.endOrder (s : State) (p : StartPhase) : State :=
  let done := p :: s.start.done
  let s := { s with start := { s.start with done := done } }
  let s := match phaseAfter p with
    | some n => s.setReg .YLD_START_PHASE 0 n
    | none => if done.contains .p6a ∧ done.contains .p6b ∧ s.reg .YLD_START_PHASE 0 = 6 then s.setReg .YLD_START_PHASE 0 7 else s
  s.alertState

/-- The dies of the module. -/
def State.dieList (s : State) : List Nat := List.range s.dies

/-- Order 1: FOSC and SOSC ready, MLOOP_SYS locked (R354, R393). -/
def State.order1 (s : State) : State :=
  s.dieList.foldl (fun s d => ((s.putBit .CLK_SRC_STAT_RDY d 2 true).putBit .CLK_SRC_STAT_RDY d 3 true).putBit .CLK_SRC_STAT_LOCK d 0 true) s

/-- The bytes of a firmware slot. -/
def FwSlot.bytes : FwSlot → List Byte
  | .factory => bytesOf (3076 + Config.factoryLen) Config.factoryFw
  | .image b => b
  | .broken => []

/-- The body of an image (R343). -/
def FwSlot.body (f : FwSlot) : List Byte :=
  match f with
  | .image b => (b.drop 3076).take (leAt b 8 4)
  | f => f.bytes.drop 3076

/-- SVN of the image in a firmware slot that passes R344; the image made at manufacture passes with SVN 0 (DESIGN CHOICE, log 45). -/
def FwSlot.verified (f : FwSlot) (floor : Nat) : Option Nat :=
  match f with
  | .factory => if floor = 0 then some 0 else none
  | .image b => if fwGood b floor then some (leAt b 6 2) else none
  | .broken => none

/-- The verified image runs; its header and signature are measured (R344, R353). -/
def State.runImage (s : State) (slot : Nat) (f : FwSlot) (svn : Nat) : State :=
  let s := (s.setReg .SEC_STAT_FW_SLOT 0 slot).setReg .SEC_STAT_FW_FALLBACK 0 slot
  let s := { s with helm := { s.helm with bodyHash := shake256 f.body } }
  (s.modVault (fun k => { k with fwSvn := svn })).extend 0 (shakeBytes (f.bytes.take 3076))

/-- The image that runs. -/
def State.runs (s : State) : FwSlot := if s.regB .SEC_STAT_FW_SLOT 0 then s.vault.fw1 else s.vault.fw0

/-- Whether a die's wrap record is lost. -/
def Vault.wrapLost (v : Vault) (d : Nat) : Bool := v.lost.contains (.wrap (fin8 d))

/-- Whether a die's PUF pattern was corrected (R339). -/
def State.pufOk (s : State) (d : Nat) : Bool := !(s.reg .SEC_STAT_PUF_FAIL 0).testBit d

/-- The die keys of a start: a pattern that cannot be corrected, or whose helper data is lost, gives none (R338, R339). -/
def State.deriveKeys (s : State) (puf : Nat) : State :=
  let fail := s.dieList.foldl (fun m d => if puf.testBit d || s.vault.wrapLost d then natSet m d 1 1 else m) 0
  let s := s.setReg .SEC_STAT_PUF_FAIL 0 fail
  s.modVault (fun v => { v with dieKeys := (s.dieList.filter s.pufOk).map (fun d => (d, Config.dieKey d)) })

/-- Order 2: die keys, and the firmware verified, with the fall-back set where slot 0 fails; with the counters lost no image passes (R338,
R339, R344, R395). -/
def State.order2 (s : State) (puf : Nat) (lost : List VaultRec) : State :=
  let s := (s.modVault (fun v => lost.foldl Vault.lose v)).deriveKeys puf
  let s := s.setReg .SEC_STAT_VAULT_ERR 0 (if s.vault.lost.isEmpty then 0 else 1)
  if s.vault.lost.contains .counters then (s.setReg .SEC_STAT_FW_FALLBACK 0 1).failStart 4
  else match s.vault.fw0.verified s.vault.floor0, s.vault.fw1.verified s.vault.floor0 with
  | some v, _ => (s.runImage 0 s.vault.fw0 v).endOrder .p2
  | none, some v => (s.runImage 1 s.vault.fw1 v).endOrder .p2
  | none, none => (s.setReg .SEC_STAT_FW_FALLBACK 0 1).failStart 1

/-- Order 3: the image in every die memory and every processor, all of them RUNNING (R375). -/
def State.order3 (s : State) : State :=
  let body := s.runs.body
  let procs := s.dieList.flatMap (fun d => (List.range 4).map (fun p => (d, p)))
  let s := { s with helm := { s.helm with
    loaded := s.dieList
    dieMem := s.dieList.map (fun d => (d, body))
    privMem := procs.map (fun e => (e, body.take privSize)) } }
  procs.foldl (fun s e => (s.setReg .HELM_STAT_STATE (e.1 * 4 + e.2) 0).setReg .HELM_STAT_DUTIES (e.1 * 4 + e.2) 0) s

/-- REFUSE_CAUSE of the records lost: attestation key records, the identity record, the wrap records of both D0 and D1 (R338; log
45). -/
def Vault.recordsGone (v : Vault) : Bool :=
  v.lost.contains .attestation || v.lost.contains .pendingKey || v.lost.contains .identity || (v.wrapLost 0 && v.wrapLost 1)

/-- RK as a die unwraps it (R340). -/
def Vault.rkOf (v : Vault) (d : Nat) : Option (List Byte) :=
  match Tbl.get? v.dieKeys d, v.wrapRec (fin8 d) with
  | some k, some (_, some w, _) => kwUnwrap k w
  | _, _ => none

/-- VK as a die's record gives it. -/
def Vault.vkOf (v : Vault) (d : Nat) : Option (List Byte) :=
  match Tbl.get? v.dieKeys d, v.wrapRec (fin8 d) with
  | some k, some (_, _, some w) => kwUnwrap k w
  | _, _ => none

/-- The leaf at which the current key's traversal was last checkpointed, from its record under VK (R341, R349). -/
def Vault.checkpoint (v : Vault) : Nat :=
  match v.vk, v.value (madeRec .attestation) .attestation with
  | some vk, some (.attKey _ _ _ iv text) =>
    let n := text.length - 16
    (match gcmOpen (BitVec.ofNat 256 (bytesNat vk)) iv [] (text.take n) (text.drop n) with
     | some b => leAt b 96 4
     | none => 0)
  | _, _ => 0

/-- Keys unwrapped (R338, R340, R341). -/
def State.unwrap (s : State) : State :=
  let vk := (s.vault.vkOf 0).or (s.vault.vkOf 1)
  let l := s.dieList.filterMap (fun d => (s.vault.rkOf d).map (fun k => (d, k)))
  let cause := if s.vault.recordsGone then 3 else if vk.isSome then 0 else 2
  let s := (s.setReg .SEC_STAT_VK_OK 0 (if vk.isSome then 1 else 0)).setReg .SEC_ATT_STAT_REFUSE_CAUSE 0 cause
  let s := s.setReg .SEC_STAT_RK_OK 0 (l.foldl (fun m e => natSet m e.1 1 1) 0)
  let s := s.modVault (fun v => { v with rootKeys := l, vk := vk })
  s.modVault (fun v => { v with traversal := v.checkpoint })

/-! ## The variant record (R391, R392) -/

/-- Exposed HBM in GiB. -/
def State.memGib (s : State) : Nat := s.hbmTop / 2 ^ 30

/-- The ordering code of a product (table Corovar modules). -/
def Product.code : Product → List Byte
  | .cvm2a192 => ascii [67, 86, 77, 45, 50, 65, 45, 49, 57, 50]
  | .cvm4a384 => ascii [67, 86, 77, 45, 52, 65, 45, 51, 56, 52]
  | .cvm8a768 => ascii [67, 86, 77, 45, 56, 65, 45, 55, 54, 56]
  | .cvm8b768 => ascii [67, 86, 77, 45, 56, 66, 45, 55, 54, 56]
  | .cvm8a576 => ascii [67, 86, 77, 45, 56, 65, 45, 53, 55, 54]

/-- The fields of the variant record that name the module's product. -/
def State.variantRow (s : State) : Nat × Nat × Nat × Nat × List Byte :=
  (s.dies, if s.gradeB then 1 else 0, s.memGib, s.stackE / 2 ^ 30, fitTo 32 s.product.code)

/-- The variant record that the module was made with (R335, R391); its SVN is 0 (DESIGN CHOICE, log 45). -/
def State.madeVariant (s : State) : Variant where
  magic := ascii [0x43, 0x52, 0x56, 0x52]
  format := 1
  svn := 0
  serial := Config.serial
  dies := s.dies
  grade := if s.gradeB then 1 else 0
  memGib := s.memGib
  stackGib := s.stackE / 2 ^ 30
  reserved := List.replicate 194 0
  order := fitTo 32 s.product.code
  sig := bytesOf 2820 Config.variantSig

/-- The variant record of the vault, where it can be read. -/
def State.variant (s : State) : Option Variant :=
  match s.vault.value (some (.variant s.madeVariant)) .variant with
  | some (.variant v) => some v
  | _ => none

/-- The serial of the identity record. -/
def Vault.idSerial (v : Vault) : Option (BitVec 128) :=
  match v.value (madeRec .identity) .identity with
  | some (.identity n _ _ _ _) => some n
  | _ => none

/-- Whether the variant record is accepted where some dies answer (R392). The record made at manufacture verifies, and the product that it
names is the module's (DESIGN CHOICE, log 45). -/
def State.variantOk (s : State) (v : Variant) (answering : Nat) : Bool :=
  decide (v.magic = ascii [0x43, 0x52, 0x56, 0x52]) && decide (v.format = 1) && v.reserved.all (· == 0) &&
    (decide (v = s.madeVariant) || xmssVerify (bytesOf 68 Config.variantKey) v.head v.sig) &&
    decide (s.vault.idSerial = some v.serial) && decide (s.vault.floor1 ≤ v.svn) && decide (v.dies = answering) &&
    decide ((v.dies, v.grade, v.memGib, v.stackGib, v.order) = s.variantRow) && decide (v.memGib = 2 * v.dies * v.stackGib)

/-- The accepted variant record enforced: the ID block of D0, measurement 1 (R392). -/
def State.enforce (s : State) (v : Variant) : State :=
  let s := (s.setReg .ID_MODULE_DIES 0 v.dies).setReg .ID_MODULE_GRADE 0 v.grade
  let s := (s.setReg .ID_MODULE_MEM_GIB 0 v.memGib).setReg .ID_MODULE_SVN 0 v.svn
  (s.setReg .ID_SERIAL_SERIAL 0 v.serial.toNat).extend 1 (shakeBytes v.bytes)

/-- The Chart of a die as its vault record has it; a lost one starts empty (R338, R397). -/
def State.readChart (s : State) (die : Nat) : State :=
  let r := match s.vault.value (madeRec (.chart (fin8 die))) (.chart (fin8 die)) with
    | some (.chart l n) => (l, n)
    | _ => ([], 0)
  { s.setReg .YLD_STAT_CHART_USED die r.1.length with
    helm := { s.helm with chart := Tbl.set s.helm.chart die r.1, starts := Tbl.set s.helm.starts die r.2 } }

/-- Order 4: vault records, keys, the variant record, counters (R338, R340, R341, R392). -/
def State.order4 (s : State) (answering : Nat) : State :=
  match s.variant with
  | none => s.failStart 2
  | some v =>
    if s.variantOk v answering = false then s.failStart 2
    else
      let s := s.dieList.foldl State.readChart s
      let s := (s.unwrap.setReg .SEC_STAT_FW_FLOOR 0 s.vault.floor0).keysMoved
      (s.enforce v).endOrder .p4

/-- The reference a loop takes: the one CLK_REF_SEL names while it is ready, else the other XIN, else FOSC (R356, R426). -/
def State.referLoop (s : State) (d l : Nat) : State :=
  let r := s.loopRef d l
  let r' := if s.clkReady d r then r else if r < 2 ∧ s.clkReady d (1 - r) then 1 - r else 2
  ((s.setReg .CLK_REF_SEL_REF d (natSet (s.reg .CLK_REF_SEL_REF d) (2 * l) 2 r')).putBit .CLK_SRC_STAT_LOCK d l true).putBit
    .CLK_SRC_STAT_COAST d l false

/-- Order 5: loops locked, and the blocks that can be gated enabled (R370); the stacks' training begins (R180). -/
def State.order5 (s : State) : State :=
  s.dieList.foldl (fun s d =>
    let s := (List.range 6).foldl (fun s l => s.referLoop d l) s
    let s := (((s.setReg .CLK_GATE_HBM d 3).setReg .CLK_GATE_SALLAN d 0xF).setReg .CLK_GATE_FAB d 1).setReg .CLK_GATE_MEAS d 1
    (s.hbmState (2 * d) 1).hbmState (2 * d + 1) 1) s

/-- A stack that Sounding has tested: zero-filled, both timing sets loaded for the rate it runs at (R180, table of HBM_TIMING; which rate
the set not in use is loaded for is open: DESIGN CHOICE, log 19), and READY, or LOST for this run (R133, R185, R396). -/
def State.soundStack (s : State) (training march h : Nat) : State :=
  let lo := h * s.stackE
  let s := { s with hbm := s.hbm.filter (fun c => !(decide (lo ≤ c.1) && decide (c.1 < lo + s.stackE))) }
  let s := s.modStk h (fun _ => { Stack.reset with trainTemp := s.reg .HBM_STATE_TEMP h })
  let s := (s.loadTiming h false (s.reg .HBM_STATE_FREQ h)).loadTiming h true (s.reg .HBM_STATE_FREQ h)
  if training.testBit h || march.testBit h then s.markLost h else s.hbmState h 2

/-- Order 6a. -/
def State.order6a (s : State) (training march : Nat) : State :=
  let s := (List.range (2 * s.dies)).foldl (fun s h => s.soundStack training march h) s
  { s with start := { s.start with training := training, march := march } }

/-! ## Sounding (R396) -/

/-- The rail regions that Sounding tests: a withheld one is not tested (R392). -/
def State.soundRegions (s : State) : List Nat :=
  (List.range (8 * s.dies)).filter (fun r => !(s.gradeB && decide (r % 8 = 7)))

/-- SOUNDING_REGION_DONE (R395, R396): a level-9 or level-10 router that fails ends the start. -/
def execSoundingRegionDone (die : Fin 8) (k : Fin 8) (fails : List SoundFail) (s : State) : Host.Outcome State Fault Refusal :=
  .next (
    let r := die.val * 8 + k.val
    if s.inOrder .p6b = false ∨ s.soundRegions.contains r = false ∨ s.start.sounded.contains r then s
    else
      let s := { s with start := { s.start with sounded := r :: s.start.sounded,
                                                fails := s.start.fails ++ fails.map (fun f => (die.val, f)) } }
      if fails.any (fun f => match f.part with
        | .router l _ => decide (9 ≤ l)
        | _ => false) then s.failStart 3 else s)

/-! ## The Chart and the numbering (R397 to R400) -/

/-- The code of a part that disables the whole core (table Sounding tests). -/
def soundCause (f : SoundFail) : Option Nat :=
  match f.part with
  | .matrix => some 0x10
  | .vector => some 0x12
  | .sequencer => some 0x13
  | .ni => some 0x14
  | _ => none

/-- The physical core number of a failure (R397). -/
def soundPhys (f : SoundFail) : Nat := 1056 * f.g + f.p

/-- Whether the Chart of a die holds an entry of a kind for a core. -/
def State.charted (s : State) (die kind phys : Nat) : Bool :=
  (Tbl.getD s.helm.chart die []).any (fun e => decide (e.kind = kind) && decide (e.where_ = phys))

/-- Whether more rows of a physical core fail than it has good spare rows (R396). -/
def State.rowsLost (s : State) (die phys : Nat) : Bool :=
  let bad := s.badRows die phys
  decide ((goodSpareRows bad).length < (rowsToMap bad).length)

/-- A CORE entry, once for a core. -/
def State.chartDead (s : State) (die phys cause : Nat) : State :=
  if s.charted die 1 phys then s else s.chartAdd die ⟨1, false, phys, 0, 0, cause, s.startNo die⟩

/-- The Chart entry of one failure; what the Chart already lists is not tested (R396, R397). -/
def State.chartFail (s : State) (die : Nat) (f : SoundFail) : State :=
  match soundCause f with
  | some c => s.chartDead die (soundPhys f) c
  | none => match f.part with
    | .row r =>
      if s.charted die 1 (soundPhys f) then s
      else if s.rowsLost die (soundPhys f) then s.chartDead die (soundPhys f) 0x15
      else s.chartAdd die ⟨2, false, (soundPhys f), r.val, 0, 0x15, s.startNo die⟩
    | .router l i => if l ≤ 8 then s.chartAdd die ⟨4, false, i, 0, l, 0x30, s.startNo die⟩ else s
    | _ => s

/-- The Chart entry of a stack: added where it failed, removed where it passed (R396, R399). -/
def State.chartStack (s : State) (h : Nat) : State :=
  let die := h / 2
  let bad := s.start.training.testBit h || s.start.march.testBit h
  if bad then s.chartAdd die ⟨5, false, h % 2, 0, 0, if s.start.training.testBit h then 0x20 else 0x21, s.startNo die⟩
  else s.chartSet die ((Tbl.getD s.helm.chart die []).filter (fun e => !(decide (e.kind = 5) && decide (e.where_ = h % 2))))

/-- The Chart record of a die written, where a second processor agrees: its start count goes up, its entries are those of this Sounding
besides the old (R377, R397). -/
def State.chartDie (s : State) (die : Nat) : State :=
  if s.agreed die 1 = false then s
  else
    let s := { s with helm := { s.helm with starts := Tbl.set s.helm.starts die (Tbl.getD s.helm.starts die 0 + 1) } }
    let s := (s.start.fails.filter (fun f => decide (f.1 = die))).foldl (fun s f => s.chartFail die f.2) s
    (s.chartStack (2 * die)).chartStack (2 * die + 1)

/-- The failed routers of a die: level and index (R396, R399, R400). -/
def State.badRouters (s : State) (die : Nat) : List (Nat × Nat) :=
  (Tbl.getD s.helm.chart die []).filterMap (fun e => if e.kind = 4 then some (e.level, e.where_) else none) ++
  s.start.fails.filterMap (fun f => match f.2.part with
    | .router l i => if f.1 = die then some (l, i) else none
    | _ => none)

/-- Whether a physical core lies under a router of its die, by level and index: spares enter at level 5 (R135, R137). -/
def underRouter (g p : Nat) (r : Nat × Nat) : Bool :=
  if r.1 ≤ 4 then decide (p < 1024) && decide ((1024 * g + p) / 4 ^ r.1 = r.2) else decide (r.1 ≤ 8) && decide (1024 * g / 4 ^ r.1 = r.2)

/-- Whether a physical core is good (R400). -/
def State.goodCore (s : State) (die g p : Nat) : Bool :=
  let phys := 1056 * g + p
  !s.charted die 1 phys && !s.rowsLost die phys &&
    !s.start.fails.any (fun f => decide (f.1 = die) && decide (soundPhys f.2 = phys) && (soundCause f.2).isSome) &&
    !(s.badRouters die).any (underRouter g p)

/-- The list of a group's cores in their order (R400 step 1). -/
def State.coreOrder (s : State) (die g : Nat) : List Nat :=
  let good := (List.range 1056).filter (s.goodCore die g)
  good.filter (fun p => !s.charted die 3 (1056 * g + p)) ++ good.filter (fun p => s.charted die 3 (1056 * g + p))

/-- Whether anything is known against a core of a group. -/
def State.groupHurt (s : State) (die g : Nat) : Bool :=
  (Tbl.getD s.helm.chart die []).any (fun e => decide (e.kind ≤ 3) && decide (e.where_ / 1056 = g)) ||
  (s.badRouters die).any (fun r => if r.1 ≤ 4 then decide (r.2 * 4 ^ r.1 / 1024 = g) else underRouter g 0 r) ||
  s.start.fails.any (fun f => decide (f.1 = die) && decide (f.2.g = g))

/-- The failing physical rows of logical cores mapped out, each number with the core that serves it (R127, R400). -/
def State.mapRows (s : State) (die g : Nat) (nums : List (Nat × Nat)) : State :=
  nums.foldl (fun s e =>
    let bad := s.badRows die (1056 * g + e.2)
    if bad.isEmpty then s else s.setCore e.1 (.withBad bad)) s

/-- A group that no spare map can be written for, as no second processor agrees: a number whose own core is not good is absent (R276,
R377). -/
def State.numberAlone (s : State) (die g : Nat) : State :=
  let base := die * 131072 + 1024 * g
  let split := (List.range 1024).partition (s.goodCore die g)
  let s := { s with net := { s.net with absent := s.net.absent ++ split.2.map (· + base) } }
  s.mapRows die g (split.1.map (fun p => (base + p, p)))

/-- A group numbered: its map, its absent numbers, its spares, its row maps (R400). -/
def State.numberGroup (s : State) (die g : Nat) : State :=
  if s.groupHurt die g = false then s
  else if s.agreed die 1 = false then s.numberAlone die g
  else
    let l := s.coreOrder die g
    let base := die * 131072 + 1024 * g
    let nums := (List.range (min 1024 l.length)).map (fun j => (base + j, l.getD j 0))
    let moved := nums.filter (fun e => decide (e.1 - base ≠ e.2))
    let gone := (List.range (1024 - l.length)).map (fun j => base + l.length + j)
    let s := { s with net := { s.net with mapped := s.net.mapped ++ moved, absent := s.net.absent ++ gone }
                      helm := { s.helm with spares := Tbl.set s.helm.spares (die * 128 + g) (l.drop 1024) } }
    s.mapRows die g nums

/-- The logical cores below the failed routers of levels 5 to 8 of a die (R396). -/
def State.belowRouters (s : State) (die : Nat) : List Nat :=
  ((s.badRouters die).filter (fun r => decide (5 ≤ r.1) && decide (r.1 ≤ 8))).flatMap (fun r =>
    (List.range (4 ^ r.1)).map (fun j => die * 131072 + r.2 * 4 ^ r.1 + j))

/-- A die numbered. -/
def State.numberDie (s : State) (die : Nat) : State :=
  let s := (List.range 128).foldl (fun s g => s.numberGroup die g) s
  { s with net := { s.net with absent := s.net.absent ++ (s.belowRouters die).filter (fun c => !s.net.absent.contains c) } }

/-- Order 7 (R397, R400). -/
def State.order7 (s : State) : State :=
  let s := s.dieList.foldl (fun s d => (s.chartDie d).numberDie d) s
  s.setReg .YLD_START_START_NO 0 (s.startNo 0)

/-- Order 8: rows zero, tags EMPTY, contexts FREE (R133). -/
def State.order8 (s : State) : State :=
  { s with cores := s.cores.map (fun e => (e.1, { e.2 with rows := Core.reset.rows, tags := Core.reset.tags }))
           ctxs := [] }

/-- Order 9: the counters raised, the ports ready (R224, R345, R392). -/
def State.order9 (s : State) : State :=
  let s := s.modVault (fun v => v.raiseCounters v.fwSvn (s.reg .ID_MODULE_SVN 0))
  let s := (s.setReg .SEC_STAT_FW_FLOOR 0 s.vault.floor0).setReg .YLD_START_DURATION 0 s.freeVal
  ((s.drew 1).modPort 0 (fun q => { q with ready := true })).modPort 1 (fun q => { q with ready := true })

/-- Whether what an order waits for has happened: every region sounded, every die's load ended, the write of the counters agreed to
(R377). -/
def State.orderReady (s : State) (p : StartPhase) : Bool :=
  match p with
  | .p6b => s.soundRegions.all (fun r => s.start.sounded.contains r)
  | .p6c => s.dieList.all (fun d => (s.cfgJobs d).isEmpty && (List.range 16).all (fun r => s.reg .CFG_REGIONS_STATE (d * 16 + r) != 1))
  | .p9 => s.vaultWrites
  | _ => true

/-- Order 6e: the traversal state advanced from its checkpoint to the journal's index (R349). -/
def State.order6e (s : State) : State := s.modVault (fun v => { v with traversal := v.attNext })

/-- START_PHASE_DONE (R339 to R345, R391 to R400): an order in progress ends. -/
def execStartPhaseDone (phase : StartPhase) (found : StartFinding) (s : State) : Host.Outcome State Fault Refusal :=
  .next (
    if s.inOrder phase = false ∨ s.orderReady phase = false then s
    else match phase with
      | .p1 => s.order1.endOrder .p1
      | .p2 => s.order2 (match found with
        | .puf m _ => m.toNat
        | _ => 0) (match found with
        | .puf _ l => l
        | _ => [])
      | .p3 => s.order3.endOrder .p3
      | .p4 => s.order4 (match found with
        | .answering n => n
        | _ => s.dies)
      | .p5 => s.order5.endOrder .p5
      | .p6a => (match found with
        | .stacks t m => s.order6a t.toNat m.toNat
        | _ => s.order6a 0 0).endOrder .p6a
      | .p6b => s.endOrder .p6b
      | .p6c => s.endOrder .p6c
      | .p6d => s.endOrder .p6d
      | .p6e => (s.order6e.endOrder .p6e).signer
      | .p7 => s.order7.endOrder .p7
      | .p8 => s.order8.endOrder .p8
      | .p9 => s.order9.endOrder .p9)

/-! ## Partition resets (R163, R164, R402) -/

/-- Whether a core lies in a partition: the PART of its level-6 subtree. -/
def State.inPart (s : State) (part c : Nat) : Bool := s.reg .PKG_PART_CORE_PART (c / 4096) == part

/-- The present cores of a partition. -/
def State.partCores (s : State) (part : Nat) : List Nat :=
  ((List.range (32 * s.dies)).filter (fun k => s.reg .PKG_PART_CORE_PART k == part)).flatMap (fun k =>
    ((List.range 4096).map (· + 4096 * k)).filter (fun c => !s.absent c))

/-- Contexts that hold a core of a partition and run, have stopped or have faulted (R402). -/
def State.partCtxs (s : State) (part : Nat) : List Nat :=
  (s.ctxs.filter (fun e => e.2.holds && (s.cst e.1 == 2 || s.cst e.1 == 4 || s.cst e.1 == 5) &&
    (s.coresOf e.1).any (s.inPart part))).map (·.1)

/-- The level-6 subtrees of a partition. -/
def State.partSubs (s : State) (part : Nat) : List Nat :=
  (List.range (32 * s.dies)).filter (fun k => s.reg .PKG_PART_CORE_PART k == part)

/-- PARTITION_RESET (R164, R402). -/
def execPartitionReset (port : Fin 2) (value : BitVec 32) (s : State) : Host.Outcome State Fault Refusal :=
  .next (s.writeAs (.port port) .PKG_PART_RST 0 0 (fun s =>
    let part := natBits value.toNat 0 4
    if s.holdsLease port = false then s.violation port
    else if natBits value.toNat 4 1 = 0 ∨ s.regB .PKG_PART_RST_BUSY 0 then s
    else
      let s := (s.setReg .PKG_PART_RST_BUSY 0 1).resetCoresOf (s.partCores part)
      let s := { s with start := { s.start with part := some part, partSubs := s.partSubs part } }
      (s.partCtxs part).foldl (fun s x => s.killCtx x true) s))

/-- The sinks of some level-6 subtrees turn off; their cores are idle and held by no context (R164). -/
def State.releaseSubs (s : State) (subs : List Nat) : State :=
  { s with cores := mapIf (fun e => subs.contains (e.1 / 4096) && e.2.sink) (fun e => (e.1, { e.2 with sink := false, run := .idle })) s.cores
           start := { s.start with partSubs := s.start.partSubs.filter (fun k => !subs.contains k) } }

/-- PARTITION_RESET_RELEASE (R164, R377, R402): each die releases its own part, and one whose processors do not agree keeps it in reset;
the reset is done once nothing is held. -/
def execPartitionResetRelease (checked : Bool) (s : State) : Host.Outcome State Fault Refusal :=
  .next (
    match s.start.part with
    | none => s
    | some _ =>
      if checked = false ∨ s.start.resetCores.isEmpty = false then s
      else
        let s := s.releaseSubs (s.start.partSubs.filter (fun k => s.agreed (k / 32) 3))
        if s.start.partSubs.isEmpty then
          ({ s with start := { s.start with part := none } }.setReg .PKG_PART_RST_BUSY 0 0).bump .PKG_PART_RST_DONE 0
        else s)

end Sys2Proof.Machine
end

