-- ==== Sys2Proof/Machine/Module.lean ====
section
/-! DEFINITION. The hot-swap switch, the cold plate and the management connector (R419 to R428). -/

namespace Sys2Proof.Machine

/-- The state with the standby domain changed. -/
def State.modModule (s : State) (f : ModS → ModS) : State := { s with module := f s.module }

/-! ## The switch (R422, R423, R428) -/

/-- LAST_OFF of a cause (table Switch openings). -/
def offCode : OffCause → Nat
  | .undervolt => 1
  | .overvolt => 2
  | .overcurrent => 3
  | .outshort => 4
  | .thermal => 5
  | .sense => 6

/-- Whether a cause latches the opening. -/
def offLatched : OffCause → Bool
  | .overcurrent | .outshort | .thermal => true
  | _ => false

/-- The switch opens: a module reset, with the cause in LAST_OFF; a latched opening adds to TRIPS (R422, R423). -/
def State.openSwitch (s : State) (c : OffCause) : State :=
  if s.module.off then s
  else
    let s := s.moduleReset.setReg .MOD_STAT_LAST_OFF 0 (offCode c)
    let s := if offLatched c then s.bump .MOD_STAT_TRIPS 0 else s
    (s.modModule (fun m => { m with off := true, latched := offLatched c })).alertState

/-- SWITCH_OPEN (R422, R423). -/
def execSwitchOpen (cause : OffCause) (s : State) : Host.Outcome State Fault Refusal := .next (s.openSwitch cause)

/-- The switch closes, and the start begins at order 1. -/
def State.closeSwitch (s : State) : State := (s.modModule (fun m => { m with off := false, latched := false })).alertState

/-- SWITCH_CLOSE (R422): a latched opening does not close by itself. -/
def execSwitchClose (s : State) : Host.Outcome State Fault Refusal :=
  .next (if s.module.off ∧ s.module.latched = false then s.closeSwitch else s)

/-- THERMAL_TRIP (R428). -/
def execThermalTrip (junction outlet : Nat) (s : State) : Host.Outcome State Fault Refusal :=
  .next (if 120 ≤ junction ∨ 70 ≤ outlet then s.openSwitch .thermal else s)

/-- A pulse of MGMT_RST_N that is not acted on, counted (R423, R426). -/
def State.ignorePulse (s : State) : State := s.modModule (fun m => { m with ignored := min (m.ignored + 1) 255 })

/-- MGMT_RST_N (R401, R423, R426): lengths of a low level in ns. -/
def execMgmtRstN (lowNs hotJunction outlet : Nat) (s : State) : Host.Outcome State Fault Refusal :=
  .next (
    if lowNs < 1000 then s
    else if lowNs < 10000 then s.ignorePulse
    else if s.module.latched then
      (if s.reg .MOD_STAT_LAST_OFF 0 = 5 ∧ (90 < hotJunction ∨ 50 < outlet) then s.ignorePulse else s.closeSwitch)
    else if s.module.off then s
    else s.moduleReset)

/-! ## The cold plate (R419) -/

/-- A flag of MOD_STAT set; SMB_ALERT_N goes low as it is set (R427). -/
def State.setFlag (s : State) (f : Fld) : State :=
  if s.regB f 0 then s else (s.setReg f 0 1).modModule (fun m => { m with alert := true })

/-- COOLANT_SAMPLE (R419, R427): Helm firmware of D0 samples while one of its processors runs. -/
def execCoolantSample (inlet outlet : Nat) (leak : Bool) (s : State) : Host.Outcome State Fault Refusal :=
  .next (
    if s.module.off ∨ (List.range 4).any (s.procRuns 0) = false then s
    else
      let s := (s.setReg .MOD_STAT_COOL_IN 0 (min inlet 255)).setReg .MOD_STAT_COOL_OUT 0 (min outlet 255)
      let s := if inlet + 20 ≤ outlet ∨ 60 ≤ outlet then s.setFlag .MOD_STAT_COOL_ALARM else s
      if leak then s.setFlag .MOD_STAT_LEAK else s)

/-! ## The management connector (R426, R427) -/

/-- MOD_READY: high once the ports are marked ready. -/
def State.modReady (s : State) : Bool := s.reg .YLD_START_PHASE 0 == 10

/-- Whether a die reads DIE_LOST. -/
def State.dieLost (s : State) (d : Nat) : Bool := (List.range 4).any (fun p => s.regB .HELM_STAT_DIE_LOST (d * 4 + p))

/-- MOD_FAULT_N low: the start has failed, a latched opening holds, or a die is lost. -/
def State.modFault (s : State) : Bool := s.startFailed || s.module.latched || s.dieList.any s.dieLost

/-- An answer of the SMBus responder. -/
def State.smb (s : State) (b : List Byte) : State := s.send (.smbus b)

/-- STATE (R427). -/
def execState (s : State) : Host.Outcome State Fault Refusal :=
  .next (s.smb (natBytes s.smbState 1 ++ natBytes (s.phase + 16 * s.reg .YLD_START_FAIL 0) 1 ++
    natBytes (s.reg .MOD_STAT_LAST_OFF 0) 1 ++ natBytes s.module.ignored 1))

/-- SERIAL (R427). -/
def execSerial (s : State) : Host.Outcome State Fault Refusal := .next (s.smb (natBytes (s.reg .ID_SERIAL_SERIAL 0) 16))

/-- POWER (R427): VIN as the standby domain measures it. -/
def execPower (vin : Nat) (s : State) : Host.Outcome State Fault Refusal :=
  .next ((s.modModule (fun m => { m with vin := vin })).smb (natBytes (min vin 65535) 2 ++ natBytes (s.reg .CLK_PWR_STAT_PIN 0) 2))

/-- COOLANT (R427). -/
def execCoolant (s : State) : Host.Outcome State Fault Refusal :=
  .next (s.smb (natBytes (s.reg .MOD_STAT_COOL_IN 0) 1 ++ natBytes (s.reg .MOD_STAT_COOL_OUT 0) 1 ++
    natBytes (s.reg .MOD_STAT_LEAK 0 + 2 * s.reg .MOD_STAT_COOL_ALARM 0) 1))

/-- DIES (R427). -/
def execDies (s : State) : Host.Outcome State Fault Refusal :=
  .next (s.smb (natBytes (s.dieList.foldl (fun m d => natSet m d 1 (if s.dieLost d then 1 else 0)) 0) 1))

/-- CLEAR_ALERT (R427). -/
def execClearAlert (s : State) : Host.Outcome State Fault Refusal :=
  .next (((s.setReg .MOD_STAT_LEAK 0 0).setReg .MOD_STAT_COOL_ALARM 0 0).modModule (fun m => { m with alert := false }))

/-- ALERT_RESPONSE_READ (R427). -/
def execAlertResponseRead (s : State) : Host.Outcome State Fault Refusal :=
  .next (s.modModule (fun m => { m with alert := false }))

/-- SMBUS_TIMEOUT (R429): the responder releases the bus, and nothing else changes. -/
def execSmbusTimeout (s : State) : Host.Outcome State Fault Refusal := .next s

end Sys2Proof.Machine
end

