-- ==== Sys2Proof/Machine/RegAccess.lean ====
section
/-! DEFINITION. REGISTER_WRITE and REGISTER_READ: an access by BAR0 offset to any register (R3, R15 to R21, R29, R30, R219, R371). -/

namespace Sys2Proof.Machine

/-! ## Where an offset leads (R3, R15, R29, R30, R219) -/

/-- What stands at a byte of BAR0: a register with the byte's place in it, nothing but zero, the MSI-X table of a port's PF or of one
of its VFs, or its pending-bit array. -/
inductive Spot where
  | zero
  | reg (die : Nat) (r : Rg) (inst elem byte : Nat)
  | table (port : Nat) (vf : Option Nat) (byte : Nat)
  | pba (port : Nat) (vf : Option Nat) (byte : Nat)
  deriving DecidableEq, Repr

/-- Whether a block's registers stand on a die (R29, R30). -/
def Scope.onDie (c : Scope) (die : Nat) : Bool :=
  match c with
  | .d0 => decide (die = 0)
  | .id => decide (die = 0)
  | .ctx => decide (die = 0)
  | .port => decide (die < 2)
  | _ => true

/-- The instance, element and byte of a register at an offset of a die's window. -/
def Rg.findIn (r : Rg) (die w : Nat) : Option (Nat × Nat × Nat) :=
  let i := r.info
  if i.scope.onDie die = false ∨ w / 0x100000 ≠ i.block / 0x100000 then none
  else
    let rel := w % 0x100000
    let at_ : Nat × Nat := match i.scope with
      | .stk => (2 * die + rel / 0x80000, rel % 0x80000)
      | .govstk => (2 * die + rel / 0x80000, rel % 0x80000)
      | .ctx => (rel / 0x400, rel % 0x400)
      | .d0 => (0, rel)
      | .id => (0, rel)
      | .clkout => (0, rel)
      | _ => (die, rel)
    let d := at_.2 - i.off
    let elem := if i.stride = 0 then 0 else d / i.stride
    let byte := if i.stride = 0 then d else d % i.stride
    if i.off ≤ at_.2 ∧ elem < i.count ∧ byte < i.width / 8 then some (at_.1, elem, byte) else none

/-- What stands at an offset of a die's window; none where it holds no register (R30). -/
def spotAt (die w : Nat) : Option Spot :=
  if 0 < die ∧ w < 0x100000 then some .zero
  else if die < 2 ∧ 0x980000 ≤ w ∧ w < 0x988000 then some (.table die none (w - 0x980000))
  else if die < 2 ∧ 0x988000 ≤ w ∧ w < 0x988100 then some (.pba die none (w - 0x988000))
  else Rg.all.findSome? (fun r => (r.findIn die w).map (fun e => .reg die r e.1 e.2.1 e.2.2))

/-- How many bytes from a spot on belong to the same register, entry or word. -/
def Spot.run : Spot → Nat
  | .zero => 1
  | .reg _ r _ _ b => r.info.width / 8 - b
  | .table _ _ b => 16 - b % 16
  | .pba _ _ b => 8 - b % 8

/-- One part of an access: what it meets, its length, and the byte of the access it begins at. -/
structure Part where
  spot : Spot
  len : Nat
  start : Nat
  deriving DecidableEq, Repr

/-- The parts of an access of `left` bytes from byte `start` on, by what stands at each byte; none where some byte has nothing. -/
def partsFrom (at_ : Nat → Option Spot) : Nat → Nat → Nat → Option (List Part)
  | 0, _, _ => some []
  | fuel + 1, start, left =>
    if left = 0 then some []
    else match at_ start with
      | none => none
      | some sp =>
        let n := min sp.run left
        (partsFrom at_ fuel (start + n) (left - n)).map (fun l => ⟨sp, n, start⟩ :: l)

/-- The parts of an access to a present die (R16, R30). -/
def State.parts (s : State) (off size : Nat) : Option (List Part) :=
  if s.dies ≤ off / 0x2000000 then none
  else partsFrom (fun k => spotAt (off / 0x2000000) (off % 0x2000000 + k)) size 0 size

/-- What stands at a byte of BAR0 of a VF of a port whose context is `x`: the view of the context's registers, its misses and its
refusals by die; the MSI-X table, the pending-bit array (R220). -/
def State.viewAt (s : State) (p vf x o : Nat) : Option Spot :=
  if o < 0x400 then some ((spotAt 0 (Rg.CTX_STATE.info.block + 0x400 * x + o)).getD .zero)
  else if o < 0x408 then some ((spotAt 0 (Rg.XFR_CTX_MISS.offset 0 x + o % 8)).getD .zero)
  else if o < 0x408 + 8 * s.dies then
    some ((spotAt (o / 8 - 0x81) (Rg.ROSE_CTX_REFUSE.offset (o / 8 - 0x81) x % 0x2000000 + o % 8)).getD .zero)
  else if o < 0x8000 then some .zero
  else if o < 0x8040 then some (.table p (some vf) (o - 0x8000))
  else if 0x8800 ≤ o ∧ o < 0x8808 then some (.pba p (some vf) (o - 0x8800))
  else none

/-! ## Copies that another register governs, and registers that read 0 -/

/-- How a copy of a register behaves: of its own, as a view of the governing register, or reading 0. -/
inductive CopyKind where
  | own
  | view
  | zero
  deriving DecidableEq, Repr

/-- The kind of a copy (R176, R370 and the tables' "D0 governs"; R388 for reserved numbers). -/
def State.copyKind (s : State) (die : Nat) (r : Rg) (inst elem : Nat) : CopyKind :=
  match r.info.scope with
  | .gov => if inst = 0 then .own else .view
  | .govstk => if inst = 0 then .own else .view
  | .pri => if inst < 2 then .own else .zero
  | .clkout => if s.hasClkOut die then .own else .zero
  | _ =>
    if (r = .PKG_PART_HBM ∧ s.memGib ≤ elem) ∨ (r = .INT_SRC ∧ reservedSource elem) then .zero else .own

/-! ## Field values -/

/-- The place of a field's repetition in the register tables. -/
def Fld.slot (f : Fld) (inst elem k : Nat) : Nat :=
  if f.info.rep = 1 then inst * f.reg.info.count + elem else inst * f.info.rep + k

/-- The first core number, the number of cores and the spare group of a group of a die. -/
def groupAbsent (s : State) (die g : Nat) : Nat :=
  (s.net.absent.filter (fun c => decide (c / 1024 = die * 128 + g))).eraseDups.length

/-- Whether a spare group lies in a withheld subtree of grade B (R10). -/
def State.groupWithheld (s : State) (die g : Nat) : Bool := s.absentR10 (die * 131072 + 1024 * g)

/-- The unused good spares of a group that no NOROWS entry names; none is known before order 7 has ended. -/
def State.sparesLeft (s : State) (die g : Nat) : Nat :=
  if s.start.done.contains .p7 = false ∨ s.groupWithheld die g then 0
  else ((s.spareList (die * 128 + g)).filter (fun p => !s.charted die 3 (1056 * g + p))).length

/-- What a read finds in a field: stored, or worked out from the state it reports. -/
def State.fieldVal (s : State) (src : Src) (f : Fld) (inst elem k : Nat) : Nat :=
  let stored := s.reg f (f.slot inst elem k)
  match f with
  | .PKG_LEASE_MINE => match src with
    | .port p => if s.holdsLease p then 1 else 0
    | .helm _ _ => 0
  | .CTX_RING_POS_FETCHED => min 255 ((s.ctx inst).copies.filter (fun c => !c.done)).length
  | .CTX_STREAM_HELD => match Tbl.get? (s.ctx inst).streams elem with
    | some q => q.queued
    | none => 0
  | .CTX_STREAM_VALID => if (Tbl.get? (s.ctx inst).streams elem).isSome then 1 else 0
  | .CTX_STREAM_SERVED => match Tbl.get? (s.ctx inst).streams elem with
    | some q => q.served % 2 ^ 32
    | none => 0
  | .CTX_FIX_HELD => (s.ctx inst).areasHeld.length
  | .CTX_FIX_OPEN => if (s.ctx inst).openGrp.isSome then 1 else 0
  | .HBM_FIX_MAP_USED => s.redirects inst
  | .FAB_TP_STAT_TXLVL => min 32 ((s.tile inst elem).tx.length + (match (s.tile inst elem).held with
    | some p => (fifoOf p).length
    | none => 0))
  | .FAB_TP_STAT_RXLVL => min 32 (s.tile inst elem).rx.length
  | .YLD_START_PHASE => s.phase
  | .YLD_STAT_SPARES_LEFT => ((List.range 128).map (s.sparesLeft inst)).sum
  | .YLD_STAT_ABSENT => (s.net.absent.filter (fun c => decide (dieOf c = inst) && !s.absentR10 c)).eraseDups.length
  | .YLD_GROUP_SPARES_LEFT => s.sparesLeft inst elem
  | .YLD_GROUP_ABSENT => if s.groupWithheld inst elem then 1024 else groupAbsent s inst elem
  | .YLD_GROUP_NOROWS =>
    min 63 ((Tbl.getD s.helm.chart inst []).filter (fun e => decide (e.kind = 3) && decide (e.where_ / 1056 = elem))).length
  | .YLD_GROUP_WITHHELD => if s.groupWithheld inst elem then 1 else 0
  | _ => stored

/-- The fields of a register with their repetitions. -/
def Rg.slots (r : Rg) : List (Fld × Nat) := r.fields.flatMap (fun f => (List.range f.info.rep).map (fun k => (f, k)))

/-- The lowest bit of a repetition of a field. -/
def Fld.bit (f : Fld) (k : Nat) : Nat := f.info.lo + f.info.dist * k

/-- A whole register as a read finds it: WO fields and reserved bits are 0 (R17, R18). -/
def State.regVal (s : State) (src : Src) (r : Rg) (inst elem : Nat) : Nat :=
  (r.slots.map (fun e => if e.1.info.acc = .wo then 0
    else (s.fieldVal src e.1 inst elem e.2 % 2 ^ e.1.info.width) * 2 ^ e.1.bit e.2)).sum

/-! ## Reading -/

/-- A claim by a processor of its own INT_CLAIM, with the word the read returns (R386). -/
def State.claimRead (s : State) (src : Src) (die proc : Nat) : State × Nat :=
  match src with
  | .port _ => (s, 0x20000)
  | .helm d p =>
    if d.val = die ∧ p.val = proc ∧ s.helm.asleep.contains die = false then
      match leastKey (s.claimable die proc) with
      | none => (s, 0x20000)
      | some (_, priv, n) => (s.claim die proc priv n, if priv then 0x10000 + n % 256 else die * 8192 + n)
    else (s, 0x20000)

/-- The pending-bit array of a function of a port as a number (R219, R220). -/
def State.pbaVal (s : State) (p : Nat) (vf : Option Nat) : Nat :=
  (List.range (if vf.isSome then 4 else 2048)).foldl (fun v k => if (s.port p).pba.contains (msixKey vf k) then natSet v k 1 1 else v) 0

/-- Whether a source may use a port's MSI-X structures (R219). -/
def ownsMsix (src : Src) (p : Nat) : Bool :=
  match src with
  | .port q => decide (q.val = p)
  | .helm _ _ => true

/-- An access that a port's class forbids, counted (R20). -/
def State.countDenied (s : State) (src : Src) : State :=
  match src with
  | .port p => s.violation p
  | .helm _ _ => s

/-- One part of a read, with its bytes as a number (R17, R20). -/
def State.readPart (s : State) (src : Src) (part : Part) : State × Nat :=
  let cut := fun (v b : Nat) => natBits v (8 * b) (8 * part.len)
  match part.spot with
  | .zero => (s, 0)
  | .table p vf b => if ownsMsix src p then (s, cut (s.msixEntry p (msixKey vf (b / 16))).toNat (b % 16)) else (s.countDenied src, 0)
  | .pba p vf b => if ownsMsix src p then (s, cut (s.pbaVal p vf) b) else (s.countDenied src, 0)
  | .reg die r inst elem b =>
    if !s.classAdmits src r inst elem false then (s.deny src r inst elem b false, 0)
    else match s.copyKind die r inst elem with
      | .zero => (s, 0)
      | .view => (s, cut (s.regVal src r 0 elem) b)
      | .own =>
        if r = .INT_CLAIM then
          let a := s.claimRead src inst elem
          (a.1, cut a.2 b)
        else (s, cut (s.regVal src r inst elem) b)

/-- The parts of a read one after the other, their bytes joined. -/
def State.readParts (s : State) (src : Src) : List Part → State × Nat
  | [] => (s, 0)
  | p :: l =>
    let a := s.readPart src p
    let b := a.1.readParts src l
    (b.1, a.2 * 2 ^ (8 * p.start) + b.2)

/-! ## Writing -/

/-- The register as a write of `len` bytes at byte `b` leaves its written fields: fields that a write sets keep the bits
that the write does not cover, and action and W1C bits not covered are 0 (R17). -/
def State.merged (s : State) (r : Rg) (inst elem b len v : Nat) : Nat :=
  let cur := (r.slots.map (fun e => if e.1.info.acc = .rw ∨ e.1.info.acc = .rwl then
    (s.reg e.1 (e.1.slot inst elem e.2)) * 2 ^ e.1.bit e.2 else 0)).sum
  natSet cur (8 * b) (8 * len) v

/-- The fields that a write of `len` bytes at byte `b` reaches. -/
def Rg.touched (r : Rg) (b len : Nat) : List (Fld × Nat) :=
  r.slots.filter (fun e => decide (8 * b < e.1.bit e.2 + e.1.info.width) && decide (e.1.bit e.2 < 8 * (b + len)))

/-- One field written under its access code (R17); WO fields act through the commands of their registers. -/
def State.putField (s : State) (inst elem m : Nat) (e : Fld × Nat) : State :=
  let v := natBits m (e.1.bit e.2) e.1.info.width
  let i := e.1.slot inst elem e.2
  match e.1.info.acc with
  | .rw => s.setReg e.1 i v
  | .rwl => s.setReg e.1 i v
  | .w1c => s.setReg e.1 i (s.reg e.1 i - (s.reg e.1 i &&& v))
  | .w1s => s.setReg e.1 i (s.reg e.1 i ||| v)
  | .ro => s
  | .wo => s

/-- Fields written one after the other. -/
def State.putFields (s : State) (inst elem m : Nat) (l : List (Fld × Nat)) : State :=
  l.foldl (fun s e => s.putField inst elem m e) s

/-- A number as one of four processors or Sallan ports. -/
def fin4 (n : Nat) : Fin 4 := ⟨n % 4, Nat.mod_lt _ (by decide)⟩

/-- A number as one of the contexts. -/
def fin1024 (n : Nat) : Fin 1024 := ⟨n % 1024, Nat.mod_lt _ (by decide)⟩

/-- A number as one of the entries of PCI_VF_CTX. -/
def fin511 (n : Nat) : Fin 511 := ⟨n % 511, Nat.mod_lt _ (by decide)⟩

/-- A number as one of a die's interrupt sources. -/
def fin8192 (n : Nat) : Fin 8192 := ⟨n % 8192, Nat.mod_lt _ (by decide)⟩

/-- The state a meaning answers. -/
def after (s : State) (o : Host.Outcome State Fault Refusal) : State :=
  match o with
  | .next t => t
  | _ => s

/-- A command that a bit of a written value asks for. -/
def doIf (c : Bool) (act : State → Host.Outcome State Fault Refusal) (s : State) : State := if c then after s (act s) else s

/-- What a port's command does to the state; Helm firmware gives none of these commands. -/
def byPort (s : State) (src : Src) (act : Fin 2 → Host.Outcome State Fault Refusal) : State :=
  match src with
  | .port p => after s (act p)
  | .helm _ _ => s

/-- A write to CTX_CMD (R234, R235). -/
def State.ctxCmd (s : State) (src : Src) (x : Fin 1024) (cmd : Nat) : State :=
  byPort s src (fun p => match cmd with
    | 0 => .next s
    | 1 => execCtxOpen p x s
    | 2 => execCtxRun p x s
    | 3 => execCtxPause p x s
    | 4 => execCtxResume p x s
    | 5 => execCtxStop p x s
    | 6 => execCtxKill p x s
    | _ => execCtxCmdReserved p x s)

/-- A write to PKG_LEASE: of ACQUIRE and RELEASE both 1, ACQUIRE acts first (R227, R228; DESIGN CHOICE, log 23: the spec gives no
order). -/
def State.leaseCmd (s : State) (src : Src) (m : Nat) : State :=
  let s := if natBits m 3 1 = 1 then byPort s src (fun p => execLeaseAcquire p s) else s
  if natBits m 4 1 = 1 then byPort s src (fun p => execLeaseRelease p s) else s

/-- A write to SAL_PORT_CMD (R409, R411). -/
def State.salCmd (s : State) (src : Src) (die : Fin 8) (p : Fin 4) (m : Nat) : State :=
  doIf (m.testBit 2) (execSallanTestEnd src die p)
    (doIf (m.testBit 1) (execSallanTest src die p) (doIf (m.testBit 0) (execSallanRetrain die p (.command src)) s))

/-- A write to SEC_KEY_WR (R343). -/
def State.keyCmd (s : State) (src : Src) (m : Nat) (plain : State) : State :=
  if natBits m 69 1 = 0 then plain
  else if natBits m 68 1 = 1 then after s (execKeyRevoke src (BitVec.ofNat 4 (natBits m 64 4)) plain)
  else after s (execKeyInstall src (BitVec.ofNat 48 m) (BitVec.ofNat 4 (natBits m 64 4)) plain)

/-- A write that a context's state does not admit: ignored, and counted (R238, R258's registers). -/
def State.onlyIn (s : State) (src : Src) (x : Nat) (states : List Nat) (done : State) : State :=
  if states.contains (s.reg .CTX_STATE_STATE x) then done else s.countDenied src

/-- CTX_RING written: the ring positions start again (R238). -/
def State.ringWritten (s : State) (src : Src) (x m : Nat) (done : State) : State :=
  s.onlyIn src x [1, 4] (
    if 11 ≤ natBits m 128 4 ∨ 11 ≤ natBits m 132 4 then s.countDenied src
    else
      let s := ((done.setReg .CTX_RING_POS_SQ_HEAD x 0).setReg .CTX_RING_POS_CQ_TAIL x 0).setReg .CTX_RING_POS_LAP x 0
      (s.setReg .CTX_RING_POS_PHASE x 1).setReg .CTX_RING_POS_RETIRED_SEQ x 0)

/-- A write whose refused fields stay and are recorded in PKG_LWR_ERR. -/
def State.sparing (s : State) (src : Src) (r : Rg) (inst elem m : Nat) (l : List (Fld × Nat)) (bad : Fld → Bool) : State :=
  let s' := s.putFields inst elem m (l.filter (fun e => !bad e.1))
  if l.any (fun e => bad e.1) then s'.lwrErr src (r.offset inst elem) else s'

/-- A value that a field of SAL_PORT_CTL does not take. -/
def badSalField (m : Nat) (f : Fld) : Bool :=
  match f with
  | .SAL_PORT_CTL_WIDTH => decide (5 ≤ natBits m 1 3)
  | .SAL_PORT_CTL_PAT => decide (natBits m 6 2 = 3)
  | .SAL_PORT_CTL_DWELL_LOG2 => decide (natBits m 8 5 < 20)
  | _ => false

/-- SAL_PORT_CTL written; EN cleared idles the port (R406). -/
def State.salCtl (s : State) (src : Src) (inst elem m : Nat) (l : List (Fld × Nat)) : State :=
  let was := s.regB .SAL_PORT_CTL_EN (inst * 4 + elem)
  let s := s.sparing src .SAL_PORT_CTL inst elem m l (badSalField m)
  if was && !s.regB .SAL_PORT_CTL_EN (inst * 4 + elem) then s.salIdle inst elem else s

/-- HBM_HAMMER written (R176). -/
def State.hammer (s : State) (src : Src) (m : Nat) (l : List (Fld × Nat)) : State :=
  let bad : Fld → Bool := fun f => decide (f = .HBM_HAMMER_PROB) && decide (5 ≤ natBits m 0 3)
  let s' := s.sparing src .HBM_HAMMER 0 0 m l bad
  if l.any (fun e => bad e.1) then s'.setReg .HBM_STATE_CFGERR 0 1 else s'

/-- HELM_WDOG written by any processor (R378). -/
def State.wdogWritten (s : State) (die p m : Nat) (done : State) : State :=
  if natBits m 16 1 = 1 then { done with helm := { s.helm with warned := s.helm.warned.filter (· != (die, p)) } } else done

/-- A register that its class lets be written: `m` is the merged value, `l` the fields the write reaches. -/
def State.regWrite (s : State) (src : Src) (r : Rg) (inst elem m : Nat) (l : List (Fld × Nat)) : State :=
  let done := s.putFields inst elem m l
  let refused := s.lwrErr src (r.offset inst elem)
  let timing := fun (set : Nat) =>
    if 2 ≤ s.reg .HBM_STATE_STATE inst ∧ s.reg .HBM_STATE_TSET inst = set then s.setReg .HBM_STATE_CFGERR inst 1 else done
  match r with
  | .CTX_CMD => s.ctxCmd src (fin1024 inst) (natBits m 0 3)
  | .CTX_RING => s.ringWritten src inst m done
  | .CTX_AREA => s.onlyIn src inst [1] done
  | .CTX_CORES => s.onlyIn src inst [1] done
  | .CTX_HBM => s.onlyIn src inst [1] done
  | .PKG_CTL => byPort s src (fun p => match natBits m 0 2 with
    | 1 => execPkgStop p s
    | 2 => execPkgRestart p s
    | _ => .next (if s.holdsLease p then s else s.violation p))
  | .PKG_LEASE => s.leaseCmd src m
  | .PKG_PART_RST => byPort s src (fun p => execPartitionReset p (BitVec.ofNat 32 m) s)
  | .PKG_RESET => after s (execPkgReset src (BitVec.ofNat 32 m) s)
  | .PKG_LOG_MODE => s.sparing src r inst elem m l (fun f => decide (f = .PKG_LOG_MODE_MODE) && decide (natBits m 0 2 = 3))
  | .PCI_VF_CTX => s.vfCtxWritten inst elem m
  | .HBM_FREQ_REQ => after s (execHbmFreqReq src (fin16 inst) (BitVec.ofNat 32 m) s)
  | .HBM_RETRAIN_REQ => after s (execHbmRetrainReq src (fin16 inst) (BitVec.ofNat 32 m) s)
  | .HBM_TIMING_A => timing 0
  | .HBM_TIMING_B => timing 1
  | .HBM_HAMMER => s.hammer src m l
  | .CLK_REF_SEL => after s (execClkRefSelWrite src (fin8 inst) (BitVec.ofNat 32 m) s)
  | .CLK_SRC_SEL => after s (execClkSrcSelWrite src (fin8 inst) (BitVec.ofNat 64 m) s)
  | .CLK_FAB_FREQ => after s (execClkFabFreqWrite src (fin8 inst) (BitVec.ofNat 32 m) s)
  | .CLK_MEAS_CTL => after s (execClkMeasGo src (fin8 inst) (BitVec.ofNat 32 m) s)
  | .CLK_OUT_CTL => after s (execClkOutCtlWrite src (fin8 inst) (BitVec.ofNat 32 m) s)
  | .CLK_GATE => after s (execClkGateWrite src (fin8 inst) (BitVec.ofNat 32 m) s)
  | .CLK_APER =>
    if natBits m 0 2 = 3 ∨ natBits m 16 8 ≤ natBits m 8 8 ∨ 115 < natBits m 16 8 then refused else done
  | .INT_COMPLETE => after s (execIntComplete src (fin8 inst) (fin4 elem) (BitVec.ofNat 32 m) s)
  | .INT_RAISE => after s (execIntRaise src (fin8 inst) (BitVec.ofNat 32 m) s)
  | .INT_SRC => after s (execIntSrcWrite src (fin8 inst) (fin8192 elem) (BitVec.ofNat 32 m) s)
  | .HELM_WDOG => s.wdogWritten inst elem m done
  | .SAL_PORT_CTL => s.salCtl src inst elem m l
  | .SAL_PORT_CMD => s.salCmd src (fin8 inst) (fin4 elem) m
  | .FAB_TP_BIND => if natBits m 10 1 = 1 ∧ natBits m 0 10 = 0 then refused else done.txRun inst elem
  | .FAB_GPIO_STAT => after s (execGpioShortClear src (fin8 inst) (BitVec.ofNat 32 m) s)
  | .CFG_REGION_OWN => if natBits m 10 1 = 1 ∧ natBits m 0 10 = 0 then refused else done
  | .CFG_FLASH_WR => after s (execFlashWrite src (fin8 inst) (BitVec.ofNat 128 m) s)
  | .SEC_KEY_WR => s.keyCmd src m done
  | .SEC_FW_WR =>
    if natBits m 96 1 = 1 then after s (execFirmwareWrite src (BitVec.ofNat 48 m) (BitVec.ofNat 32 (natBits m 64 32)) s) else done
  | _ => done

/-- An entry of an MSI-X table written: a pending vector whose mask opens sends its message (R219). -/
def State.msixWritten (s : State) (p key b len v : Nat) : State :=
  let e := BitVec.ofNat 128 (natSet (s.msixEntry p key).toNat (8 * b) (8 * len) v % 2 ^ 97)
  let s := s.modPort p (fun q => { q with msix := Tbl.set q.msix key e })
  if (s.port p).lost then s else s.pbaFlush p

/-- Whether a write reaches an RWL field (R17, R388). -/
def Rg.reachesRwl (r : Rg) (elem : Nat) (l : List (Fld × Nat)) : Bool :=
  l.any (fun e => decide (e.1.info.acc = .rwl)) || (decide (r = .INT_SRC) && decide (0x1000 ≤ elem) && !l.isEmpty)

/-- One part of a write (R17, R20, R257). -/
def State.writePart (s : State) (src : Src) (v : Nat) (part : Part) : State :=
  let v := natBits v (8 * part.start) (8 * part.len)
  match part.spot with
  | .zero => s
  | .table p vf b => if ownsMsix src p then s.msixWritten p (msixKey vf (b / 16)) (b % 16) part.len v else s.countDenied src
  | .pba p _ _ => if ownsMsix src p then s else s.countDenied src
  | .reg die r inst elem b =>
    let l := r.touched b part.len
    if !s.classAdmits src r inst elem true then
      let s := s.countDenied src
      if r.reachesRwl elem l then s.lwrErr src (r.offset inst elem + b) else s
    else match s.copyKind die r inst elem with
      | .own => s.regWrite src r inst elem (s.merged r inst elem b part.len v) l
      | _ => s

/-! ## The access to BAR0 -/

/-- The gated block that the first part of an access to one meets: its die and its bit (R371). -/
def State.gatedPart (s : State) (l : List Part) : Option (Nat × Nat) :=
  l.findSome? (fun p => match p.spot with
    | .reg die r inst elem _ => match r.gateBit inst elem with
      | some b => if s.gateOn die b then none else some (die, b)
      | none => none
    | _ => none)

/-- An access whose parts are known: unsupported where some byte has no register, aborted where its block is gated, else carried
out (R30, R371). -/
def State.onParts (s : State) (src : Src) (parts : Option (List Part)) (act : List Part → State) : State :=
  match parts with
  | none => s.unsupported src
  | some l => match s.gatedPart l with
    | some (die, b) => (s.completerAbort src).gateErr die b
    | none => act l

/-- An access to a VF's BAR: unsupported where the VF does not exist or its entry is not valid (R220). -/
def State.onVf (s : State) (src : Src) (p vf : Nat) (act : Nat → State) : State :=
  if s.vfExists p vf && s.regB .PCI_VF_CTX_VALID (p * 511 + vf) then act (s.reg .PCI_VF_CTX_CTX (p * 511 + vf)) else s.unsupported src

/-- An access by its offset in BAR0, of Helm firmware, of a PF or of a VF: refused, or carried out over its parts (R16, R30, R220, R224,
R371). -/
def State.barAccess (s : State) (src : Src) (sp : Space) (off size : Nat) (act : List Part → State) : State :=
  match s.reaches src with
  | .granted => (match sp, src with
    | .vfBar0 n, .port p => s.onVf src p n (fun x => s.onParts src (partsFrom (fun k => s.viewAt p n x (off + k)) size 0 size) act)
    | _, _ => s.onParts src (s.parts off size) act)
  | .unsupported => s.unsupported src
  | _ => s

/-! ## Doorbell pages (R218, R220, R237, R239) -/

/-- What a doorbell page reads at the register of an offset. -/
def State.pageVal (s : State) (x o : Nat) : Nat :=
  match o / 8 * 8 with
  | 0x000 => (s.ctx x).sqTail
  | 0x010 => (s.ctx x).cqHead
  | 0x018 => s.regVal (.port 0) .CTX_EVENT x 0
  | _ => 0

/-- A read of `size` bytes of a doorbell page. -/
def State.pageRead (s : State) (via : Via) (src : Src) (x o size : Nat) : State :=
  s.onPage via x (fun s => s.send (.readDone src (bytesNat ((List.range size).map (fun i =>
      BitVec.ofNat 8 (natBits (s.pageVal x (o + i)) (8 * ((o + i) % 8)) 8))))))
    (fun s => s.send (.readDone src 0))

/-- A write of `size` bytes to a doorbell page: it counts as a write of every register whose first byte it covers, with the bytes that
it does not cover 0. -/
def State.pageWrite (s : State) (via : Via) (x o size value : Nat) : State :=
  let hit (r : Nat) : Bool := decide (o ≤ r) && decide (r < o + size)
  let v (r : Nat) : BitVec 64 := BitVec.ofNat 64 (natBits value (8 * (r - o)) (min 64 (8 * (size - (r - o)))))
  let c := fin1024 x
  if [0x000, 0x008, 0x010, 0x018].all (fun r => !hit r) then s.doorbellPage via x id
  else
    let s := doIf (hit 0x008) (execStreamArmDoorbell via c (v 0x008)) (doIf (hit 0x000) (execSqTail via c (v 0x000)) s)
    doIf (hit 0x018) (execEventAck via c (v 0x018)) (doIf (hit 0x010) (execCqHead via c (v 0x010)) s)

/-- The function, the context and the offset of an access to BAR2 of a PF or of a VF; none where it is no such access. -/
def State.pageOf (s : State) (p : Fin 2) (sp : Space) (off : Nat) : Option (Via × Nat × Nat) :=
  match sp with
  | .bar2 => if off < 0x400000 then some (.pf p, off / 0x1000, off % 0x1000) else none
  | .vfBar2 n => if off < 0x1000 then some (.vf p n, s.reg .PCI_VF_CTX_CTX (p.val * 511 + n), off) else none
  | _ => none

/-! ## Configuration space (R216, R219, R222, R231) -/

/-- The bit of an error in the AER status (log 46). -/
def AerErr.bit : AerErr → Nat
  | .unsupported => 0
  | .abort => 1
  | .poisoned => 2
  | .unexpected => 3

/-- A field of a port's configuration space. Capabilities are numbered by the tables PCIe features used, 0 to 10, and PCIe features not
offered, from 11 on. -/
def State.confVal (s : State) (p : Nat) (f : ConfField) : Nat :=
  let q := s.port p
  match f with
  | .atsEnable => if q.ats then 1 else 0
  | .vfEnable => if q.vfEn then 1 else 0
  | .numVfs => q.numVfs
  | .maxPayload => Tbl.getD q.conf f 0
  | .maxReadRequest => Tbl.getD q.conf f 2
  | .tagWidth => Tbl.getD q.conf f 0
  | .msixEnable _ => Tbl.getD q.conf f 0
  | .msixMask _ => Tbl.getD q.conf f 0
  | .priEnable => Tbl.getD q.conf f 0
  | .pasidEnable => Tbl.getD q.conf f 0
  | .aerStatus => (List.range 4).foldl (fun v k => if q.aer.any (fun e => e.bit == k) then natSet v k 1 1 else v) 0
  | .msixTable => p * 0x2000000 + 0x980000
  | .msixPba => p * 0x2000000 + 0x988000
  | .cap n => if n.val < 11 then 1 else 0

/-- A field of a port's configuration space written: a value beyond what R216 offers is ignored. -/
def State.confWrite (s : State) (p : Fin 2) (f : ConfField) (v : Nat) : State :=
  let put (top : Nat) : State := if v ≤ top then s.modPort p (fun q => { q with conf := Tbl.set q.conf f v }) else s
  match f with
  | .atsEnable => if v % 2 = 1 then s.modPort p (fun q => { q with ats := true }) else (s.atsOff p).flushAll
  | .vfEnable => after s (execVfEnable p (v % 2 == 1) (s.port p).numVfs s)
  | .numVfs => if (s.port p).vfEn then s else after s (execVfEnable p false v s)
  | .maxPayload => put 2
  | .maxReadRequest => put 5
  | .tagWidth => put 2
  | .msixEnable _ => (put 1).pbaFlush p
  | .msixMask _ => (put 1).pbaFlush p
  | .priEnable => put 1
  | .pasidEnable => put 1
  | .aerStatus => s.modPort p (fun q => { q with aer := q.aer.filter (fun e => !v.testBit e.bit) })
  | .msixTable => s
  | .msixPba => s
  | .cap _ => s

/-- A configuration request: with no link it does not arrive, and until the port is ready it is to be sent again (R224). -/
def State.onConfig (s : State) (p : Fin 2) (act : State) : State :=
  if (s.port p).lost then s else if s.portReady p then act else s.send (.crs p)

/-! ## The two commands -/

/-- REGISTER_WRITE (R17 to R21, R30, R218 to R222, R239): Helm firmware reaches the setup registers alone. -/
def execRegisterWrite (src : Src) (place : RegPlace) (size value : Nat) (s : State) : Host.Outcome State Fault Refusal :=
  .next (
    let setup (s : State) : State := s.barAccess src place.space place.off.toNat size (fun l => l.foldl (fun s p => s.writePart src value p) s)
    match place.space, src with
    | .bar0, _ => setup s
    | .vfBar0 _, .port _ => setup s
    | .config f, .port p => s.onConfig p (s.confWrite p f value)
    | _, .port p => (match s.pageOf p place.space place.off.toNat with
      | some (via, x, o) => s.pageWrite via x o size value
      | none => s)
    | _, .helm _ _ => s)

/-- REGISTER_READ (R17 to R20, R30, R218 to R222, R239). -/
def execRegisterRead (src : Src) (place : RegPlace) (size : Nat) (s : State) : Host.Outcome State Fault Refusal :=
  .next (
    let setup (s : State) : State := s.barAccess src place.space place.off.toNat size (fun l =>
      let a := s.readParts src l
      a.1.send (.readDone src a.2))
    match place.space, src with
    | .bar0, _ => setup s
    | .vfBar0 _, .port _ => setup s
    | .config f, .port p => s.onConfig p (s.send (.readDone src (s.confVal p f)))
    | _, .port p => (match s.pageOf p place.space place.off.toNat with
      | some (via, x, o) => s.pageRead via src x o size
      | none => s)
    | _, .helm _ _ => s)

end Sys2Proof.Machine
end

