-- ==== Sys2Proof/Machine/Dispatch.lean ====
section
/-! DEFINITION. The meaning of each command, one arm a row of the table. -/

namespace Sys2Proof.Machine

/-- The effect of a command on everything but the queue. -/
def exec (i : Instr) (s : State) : Host.Outcome State Fault Refusal :=
  match i with
  | .nop c => Sys2Proof.Machine.execNop c s
  | .alu c => Sys2Proof.Machine.execAlu c s
  | .alui c => Sys2Proof.Machine.execAlui c s
  | .movi c => Sys2Proof.Machine.execMovi c s
  | .br c => Sys2Proof.Machine.execBr c s
  | .rdnf c => Sys2Proof.Machine.execRdnf c s
  | .clnf c => Sys2Proof.Machine.execClnf c s
  | .srseed c => Sys2Proof.Machine.execSrseed c s
  | .seta c => Sys2Proof.Machine.execSeta c s
  | .geta c => Sys2Proof.Machine.execGeta c s
  | .adva c => Sys2Proof.Machine.execAdva c s
  | .rdsp c => Sys2Proof.Machine.execRdsp c s
  | .wrsp c => Sys2Proof.Machine.execWrsp c s
  | .vbc c => Sys2Proof.Machine.execVbc c s
  | .vext c => Sys2Proof.Machine.execVext c s
  | .vmov c => Sys2Proof.Machine.execVmov c s
  | .loop c => Sys2Proof.Machine.execLoop c s
  | .yield c => Sys2Proof.Machine.execYield c s
  | .halt c => Sys2Proof.Machine.execHalt c s
  | .sld c lost ecc => Sys2Proof.Machine.execSld c lost ecc s
  | .sst c lost => Sys2Proof.Machine.execSst c lost s
  | .tset c => Sys2Proof.Machine.execTset c s
  | .tclr c => Sys2Proof.Machine.execTclr c s
  | .lds c => Sys2Proof.Machine.execLds c s
  | .strm c => Sys2Proof.Machine.execStrm c s
  | .drn c => Sys2Proof.Machine.execDrn c s
  | .acci c => Sys2Proof.Machine.execAcci c s
  | .vadd c => Sys2Proof.Machine.execVadd c s
  | .vsub c => Sys2Proof.Machine.execVsub c s
  | .vmul c => Sys2Proof.Machine.execVmul c s
  | .vfma c => Sys2Proof.Machine.execVfma c s
  | .vmin c => Sys2Proof.Machine.execVmin c s
  | .vmax c => Sys2Proof.Machine.execVmax c s
  | .vcmp c => Sys2Proof.Machine.execVcmp c s
  | .vexp2 c => Sys2Proof.Machine.execVexp2 c s
  | .vrcp c => Sys2Proof.Machine.execVrcp c s
  | .vrsq c => Sys2Proof.Machine.execVrsq c s
  | .vcvt c => Sys2Proof.Machine.execVcvt c s
  | .vscl c => Sys2Proof.Machine.execVscl c s
  | .vscm c => Sys2Proof.Machine.execVscm c s
  | .vexpx c => Sys2Proof.Machine.execVexpx c s
  | .vsrch c => Sys2Proof.Machine.execVsrch c s
  | .vectorResultWrite c k => Sys2Proof.Machine.execVectorResultWrite c k s
  | .send c rows => Sys2Proof.Machine.execSend c rows s
  | .sendv c => Sys2Proof.Machine.execSendv c s
  | .recv c => Sys2Proof.Machine.execRecv c s
  | .tally c => Sys2Proof.Machine.execTally c s
  | .twait c => Sys2Proof.Machine.execTwait c s
  | .streamVectorEnterA c rows parityOk => Sys2Proof.Machine.execStreamVectorEnterA c rows parityOk s
  | .accumulatorCombine c parityOk => Sys2Proof.Machine.execAccumulatorCombine c parityOk s
  | .drainRead c parityOk => Sys2Proof.Machine.execDrainRead c parityOk s
  | .stageWatchdogTimeout c => Sys2Proof.Machine.execStageWatchdogTimeout c s
  | .tagWaitRetry c w rows => Sys2Proof.Machine.execTagWaitRetry c w rows s
  | .rowArbiterDeferredGrant c w ecc => Sys2Proof.Machine.execRowArbiterDeferredGrant c w ecc s
  | .preemptStop c => Sys2Proof.Machine.execPreemptStop c s
  | .coreQuietSave c ecc parityOk => Sys2Proof.Machine.execCoreQuietSave c ecc parityOk s
  | .yieldLimitExpire c => Sys2Proof.Machine.execYieldLimitExpire c s
  | .coreRestore c readable => Sys2Proof.Machine.execCoreRestore c readable s
  | .brakeApply die k => Sys2Proof.Machine.execBrakeApply die k s
  | .brakeRelease die k => Sys2Proof.Machine.execBrakeRelease die k s
  | .write p lost => Sys2Proof.Machine.execWrite p lost s
  | .read p rows => Sys2Proof.Machine.execRead p rows s
  | .ibufWrite p c => Sys2Proof.Machine.execIbufWrite p c s
  | .routeWrite p c => Sys2Proof.Machine.execRouteWrite p c s
  | .start p c => Sys2Proof.Machine.execStart p c s
  | .programLoad c => Sys2Proof.Machine.execProgramLoad c s
  | .stop p c => Sys2Proof.Machine.execStop p c s
  | .maskWrite p atoms => Sys2Proof.Machine.execMaskWrite p atoms s
  | .memWrite p ecc => Sys2Proof.Machine.execMemWrite p ecc s
  | .memRead p ecc => Sys2Proof.Machine.execMemRead p ecc s
  | .readData p => Sys2Proof.Machine.execReadData p s
  | .faultReport p => Sys2Proof.Machine.execFaultReport p s
  | .tallyArrival p => Sys2Proof.Machine.execTallyArrival p s
  | .answer p => Sys2Proof.Machine.execAnswer p s
  | .passDone p => Sys2Proof.Machine.execPassDone p s
  | .routerForward idx => Sys2Proof.Machine.execRouterForward idx s
  | .tallyHoldExpire idx => Sys2Proof.Machine.execTallyHoldExpire idx s
  | .coreSleep c => Sys2Proof.Machine.execCoreSleep c s
  | .routerSleep level index => Sys2Proof.Machine.execRouterSleep level index s
  | .wake e => Sys2Proof.Machine.execWake e s
  | .wakeDone e => Sys2Proof.Machine.execWakeDone e s
  | .coreBleachDone c => Sys2Proof.Machine.execCoreBleachDone c s
  | .hbmBleachDone x stack => Sys2Proof.Machine.execHbmBleachDone x stack s
  | .hbmWriteQueueDrain stack pc => Sys2Proof.Machine.execHbmWriteQueueDrain stack pc s
  | .hbmRefresh stack pc bank => Sys2Proof.Machine.execHbmRefresh stack pc bank s
  | .hbmNeighbourRefresh stack pc bank => Sys2Proof.Machine.execHbmNeighbourRefresh stack pc bank s
  | .hbmScrubRead stack atom ecc => Sys2Proof.Machine.execHbmScrubRead stack atom ecc s
  | .hbmFreqReq src stack value => Sys2Proof.Machine.execHbmFreqReq src stack value s
  | .hbmFreqChangeDone stack => Sys2Proof.Machine.execHbmFreqChangeDone stack s
  | .hbmRetrainReq src stack value => Sys2Proof.Machine.execHbmRetrainReq src stack value s
  | .hbmRetrainTrigger stack cause => Sys2Proof.Machine.execHbmRetrainTrigger stack cause s
  | .hbmRetrainDone stack ok => Sys2Proof.Machine.execHbmRetrainDone stack ok s
  | .descriptorFetch x slot => Sys2Proof.Machine.execDescriptorFetch x slot s
  | .ringPoll x slot => Sys2Proof.Machine.execRingPoll x slot s
  | .descNop x idx => Sys2Proof.Machine.execDescNop x idx s
  | .xfer x idx shape => Sys2Proof.Machine.execXfer x idx shape s
  | .launch x slot => Sys2Proof.Machine.execLaunch x slot s
  | .wait x idx flag => Sys2Proof.Machine.execWait x idx flag s
  | .waitPoll x idx flag => Sys2Proof.Machine.execWaitPoll x idx flag s
  | .signal x idx flag => Sys2Proof.Machine.execSignal x idx flag s
  | .fixOpen x idx => Sys2Proof.Machine.execFixOpen x idx s
  | .fixClose x idx => Sys2Proof.Machine.execFixClose x idx s
  | .fixAbort x idx => Sys2Proof.Machine.execFixAbort x idx s
  | .windowOpen x idx => Sys2Proof.Machine.execWindowOpen x idx s
  | .windowClose x idx => Sys2Proof.Machine.execWindowClose x idx s
  | .config x idx => Sys2Proof.Machine.execConfig x idx s
  | .reduce x idx table => Sys2Proof.Machine.execReduce x idx table s
  | .reshard x idx map => Sys2Proof.Machine.execReshard x idx map s
  | .streamCreate x idx => Sys2Proof.Machine.execStreamCreate x idx s
  | .streamDestroy x idx => Sys2Proof.Machine.execStreamDestroy x idx s
  | .streamArm x idx => Sys2Proof.Machine.execStreamArm x idx s
  | .fence x idx => Sys2Proof.Machine.execFence x idx s
  | .timestamp x idx => Sys2Proof.Machine.execTimestamp x idx s
  | .streamArmService x n => Sys2Proof.Machine.execStreamArmService x n s
  | .pieceIssue t => Sys2Proof.Machine.execPieceIssue t s
  | .transferComplete t => Sys2Proof.Machine.execTransferComplete t s
  | .deadlineMiss t => Sys2Proof.Machine.execDeadlineMiss t s
  | .pageResponse port t code => Sys2Proof.Machine.execPageResponse port t code s
  | .pageResponseTimeout port t => Sys2Proof.Machine.execPageResponseTimeout port t s
  | .atsInvalidation fn page pasid => Sys2Proof.Machine.execAtsInvalidation fn page pasid s
  | .gatewayOutbound die sp p => Sys2Proof.Machine.execGatewayOutbound die sp p s
  | .gatewayInbound die sp p => Sys2Proof.Machine.execGatewayInbound die sp p s
  | .sqTail via x value => Sys2Proof.Machine.execSqTail via x value s
  | .streamArmDoorbell via x value => Sys2Proof.Machine.execStreamArmDoorbell via x value s
  | .cqHead via x value => Sys2Proof.Machine.execCqHead via x value s
  | .eventAck via x value => Sys2Proof.Machine.execEventAck via x value s
  | .ctxOpen port x => Sys2Proof.Machine.execCtxOpen port x s
  | .ctxRun port x => Sys2Proof.Machine.execCtxRun port x s
  | .ctxPause port x => Sys2Proof.Machine.execCtxPause port x s
  | .ctxPauseDone x => Sys2Proof.Machine.execCtxPauseDone x s
  | .ctxResume port x => Sys2Proof.Machine.execCtxResume port x s
  | .ctxStop port x => Sys2Proof.Machine.execCtxStop port x s
  | .ctxStopDone x => Sys2Proof.Machine.execCtxStopDone x s
  | .ctxKill port x => Sys2Proof.Machine.execCtxKill port x s
  | .ctxCmdReserved port x => Sys2Proof.Machine.execCtxCmdReserved port x s
  | .pkgStop port => Sys2Proof.Machine.execPkgStop port s
  | .pkgStopped => Sys2Proof.Machine.execPkgStopped s
  | .pkgRestart port => Sys2Proof.Machine.execPkgRestart port s
  | .leaseAcquire port => Sys2Proof.Machine.execLeaseAcquire port s
  | .leaseRelease port => Sys2Proof.Machine.execLeaseRelease port s
  | .leaseTimeout port => Sys2Proof.Machine.execLeaseTimeout port s
  | .fixFlip x => Sys2Proof.Machine.execFixFlip x s
  | .fixPageCopyHome stack page => Sys2Proof.Machine.execFixPageCopyHome stack page s
  | .fixPublishSignals x flag => Sys2Proof.Machine.execFixPublishSignals x flag s
  | .coreSpareAssign c agreed => Sys2Proof.Machine.execCoreSpareAssign c agreed s
  | .replay x pass => Sys2Proof.Machine.execReplay x pass s
  | .linkLoss port ev => Sys2Proof.Machine.execLinkLoss port ev s
  | .linkUp port => Sys2Proof.Machine.execLinkUp port s
  | .pfFlr port => Sys2Proof.Machine.execPfFlr port s
  | .vfFlr port vf => Sys2Proof.Machine.execVfFlr port vf s
  | .pciVfCtxWrite port idx value => Sys2Proof.Machine.execPciVfCtxWrite port idx value s
  | .bar4Read port off len ecc => Sys2Proof.Machine.execBar4Read port off len ecc s
  | .bar4Write port off bytes ecc => Sys2Proof.Machine.execBar4Write port off bytes ecc s
  | .poisonedWrite port => Sys2Proof.Machine.execPoisonedWrite port s
  | .configRequestNotReady port => Sys2Proof.Machine.execConfigRequestNotReady port s
  | .getStatus port => Sys2Proof.Machine.execGetStatus port s
  | .getCert port => Sys2Proof.Machine.execGetCert port s
  | .getQuote port nonce mask => Sys2Proof.Machine.execGetQuote port nonce mask s
  | .doeUnsupported q => Sys2Proof.Machine.execDoeUnsupported q s
  | .rolloverKeyReady => Sys2Proof.Machine.execRolloverKeyReady s
  | .keyInstall src addr target => Sys2Proof.Machine.execKeyInstall src addr target s
  | .keyRevoke src target => Sys2Proof.Machine.execKeyRevoke src target s
  | .firmwareWrite src addr len => Sys2Proof.Machine.execFirmwareWrite src addr len s
  | .firmwareWriteDone ok => Sys2Proof.Machine.execFirmwareWriteDone ok s
  | .dspNop n io => Sys2Proof.Machine.execDspNop n io s
  | .dspMac n io => Sys2Proof.Machine.execDspMac n io s
  | .dspMov n io => Sys2Proof.Machine.execDspMov n io s
  | .dspOut n io => Sys2Proof.Machine.execDspOut n io s
  | .dspSrch n io => Sys2Proof.Machine.execDspSrch n io s
  | .dspAg n io => Sys2Proof.Machine.execDspAg n io s
  | .dspAgset n io => Sys2Proof.Machine.execDspAgset n io s
  | .dspLoop n io => Sys2Proof.Machine.execDspLoop n io s
  | .dspHalt n io => Sys2Proof.Machine.execDspHalt n io s
  | .dspRun n => Sys2Proof.Machine.execDspRun n s
  | .bramPortAccess die block portB acc ecc => Sys2Proof.Machine.execBramPortAccess die block portB acc ecc s
  | .tileTxPacket die tp p wellFramed => Sys2Proof.Machine.execTileTxPacket die tp p wellFramed s
  | .tileRxDelivery die tp p => Sys2Proof.Machine.execTileRxDelivery die tp p s
  | .tileReadTimeout die tp tag => Sys2Proof.Machine.execTileReadTimeout die tp tag s
  | .tlyClr die tp => Sys2Proof.Machine.execTlyClr die tp s
  | .rawBlockReceive die lane block bad => Sys2Proof.Machine.execRawBlockReceive die lane block bad s
  | .rawBlockTransmit die lane block => Sys2Proof.Machine.execRawBlockTransmit die lane block s
  | .gpioShort die pin => Sys2Proof.Machine.execGpioShort die pin s
  | .gpioShortClear src die mask => Sys2Proof.Machine.execGpioShortClear src die mask s
  | .fabricIrq die region num => Sys2Proof.Machine.execFabricIrq die region num s
  | .configHeaderChecked die => Sys2Proof.Machine.execConfigHeaderChecked die s
  | .configSegmentVerified die => Sys2Proof.Machine.execConfigSegmentVerified die s
  | .configBleachDone die => Sys2Proof.Machine.execConfigBleachDone die s
  | .configStartOrder die => Sys2Proof.Machine.execConfigStartOrder die s
  | .waitLockTimeout die => Sys2Proof.Machine.execWaitLockTimeout die s
  | .fullStreamLoad die => Sys2Proof.Machine.execFullStreamLoad die s
  | .flashWrite src die value => Sys2Proof.Machine.execFlashWrite src die value s
  | .flashWriteDone die ok => Sys2Proof.Machine.execFlashWriteDone die ok s
  | .clockSourceFail die clk => Sys2Proof.Machine.execClockSourceFail die clk s
  | .clockSourceReady die clk => Sys2Proof.Machine.execClockSourceReady die clk s
  | .loopLock die loop => Sys2Proof.Machine.execLoopLock die loop s
  | .clkRefSelWrite src die value => Sys2Proof.Machine.execClkRefSelWrite src die value s
  | .clkSrcSelWrite src die value => Sys2Proof.Machine.execClkSrcSelWrite src die value s
  | .clkFabFreqWrite src die value => Sys2Proof.Machine.execClkFabFreqWrite src die value s
  | .fabFreqSeqDone die => Sys2Proof.Machine.execFabFreqSeqDone die s
  | .clkMeasGo src die value => Sys2Proof.Machine.execClkMeasGo src die value s
  | .clkMeasDone die edges => Sys2Proof.Machine.execClkMeasDone die edges s
  | .clkOutCtlWrite src die value => Sys2Proof.Machine.execClkOutCtlWrite src die value s
  | .clkGateWrite src die value => Sys2Proof.Machine.execClkGateWrite src die value s
  | .gatedBlockAccess src die block => Sys2Proof.Machine.execGatedBlockAccess src die block s
  | .governorTick watts vin => Sys2Proof.Machine.execGovernorTick watts vin s
  | .levelSlewDone die k => Sys2Proof.Machine.execLevelSlewDone die k s
  | .regionCurrentAlarm die k => Sys2Proof.Machine.execRegionCurrentAlarm die k s
  | .inputFastTrip => Sys2Proof.Machine.execInputFastTrip s
  | .thermalSample die k temp => Sys2Proof.Machine.execThermalSample die k temp s
  | .watchdogKick die proc value => Sys2Proof.Machine.execWatchdogKick die proc value s
  | .watchdogWarning die proc => Sys2Proof.Machine.execWatchdogWarning die proc s
  | .watchdogExpire die proc => Sys2Proof.Machine.execWatchdogExpire die proc s
  | .helmProcessorRunning die proc => Sys2Proof.Machine.execHelmProcessorRunning die proc s
  | .crossCheck die proc act agree => Sys2Proof.Machine.execCrossCheck die proc act agree s
  | .intMessage die num helm => Sys2Proof.Machine.execIntMessage die num helm s
  | .intMsixDelivery die n => Sys2Proof.Machine.execIntMsixDelivery die n s
  | .intClaim src die proc => Sys2Proof.Machine.execIntClaim src die proc s
  | .intComplete src die proc value => Sys2Proof.Machine.execIntComplete src die proc value s
  | .intRaise src die value => Sys2Proof.Machine.execIntRaise src die value s
  | .intSrcWrite src die n value => Sys2Proof.Machine.execIntSrcWrite src die n value s
  | .intControllerSleep die => Sys2Proof.Machine.execIntControllerSleep die s
  | .intControllerWake die => Sys2Proof.Machine.execIntControllerWake die s
  | .moduleReset cause => Sys2Proof.Machine.execModuleReset cause s
  | .pkgReset src value => Sys2Proof.Machine.execPkgReset src value s
  | .startPhaseDone phase found => Sys2Proof.Machine.execStartPhaseDone phase found s
  | .soundingRegionDone die k fails => Sys2Proof.Machine.execSoundingRegionDone die k fails s
  | .partitionReset port value => Sys2Proof.Machine.execPartitionReset port value s
  | .partitionResetRelease checked => Sys2Proof.Machine.execPartitionResetRelease checked s
  | .sallanBringup die sp => Sys2Proof.Machine.execSallanBringup die sp s
  | .sallanDetectDone die sp res => Sys2Proof.Machine.execSallanDetectDone die sp res s
  | .sallanRungDwellDone die sp errs => Sys2Proof.Machine.execSallanRungDwellDone die sp errs s
  | .sallanRetryTimer die sp => Sys2Proof.Machine.execSallanRetryTimer die sp s
  | .sallanRetrain die sp trig => Sys2Proof.Machine.execSallanRetrain die sp trig s
  | .sallanQuickRetrainDone die sp ok => Sys2Proof.Machine.execSallanQuickRetrainDone die sp ok s
  | .sallanTest src die sp => Sys2Proof.Machine.execSallanTest src die sp s
  | .sallanTestEnd src die sp => Sys2Proof.Machine.execSallanTestEnd src die sp s
  | .sallanFlitReceive die sp seq crcOk ackTo pkts => Sys2Proof.Machine.execSallanFlitReceive die sp seq crcOk ackTo pkts s
  | .switchOpen cause => Sys2Proof.Machine.execSwitchOpen cause s
  | .switchClose => Sys2Proof.Machine.execSwitchClose s
  | .mgmtRstN lowNs hotJunction outlet => Sys2Proof.Machine.execMgmtRstN lowNs hotJunction outlet s
  | .coolantSample inlet outlet leak => Sys2Proof.Machine.execCoolantSample inlet outlet leak s
  | .thermalTrip junction outlet => Sys2Proof.Machine.execThermalTrip junction outlet s
  | .state => Sys2Proof.Machine.execState s
  | .serial => Sys2Proof.Machine.execSerial s
  | .power vin => Sys2Proof.Machine.execPower vin s
  | .coolant => Sys2Proof.Machine.execCoolant s
  | .dies => Sys2Proof.Machine.execDies s
  | .clearAlert => Sys2Proof.Machine.execClearAlert s
  | .alertResponseRead => Sys2Proof.Machine.execAlertResponseRead s
  | .smbusTimeout => Sys2Proof.Machine.execSmbusTimeout s
  | .registerWrite src place size value => Sys2Proof.Machine.execRegisterWrite src place size value s
  | .hostReadCompletion port t n data => Sys2Proof.Machine.execHostReadCompletion port t n data s
  | .hostWriteAck port t n => Sys2Proof.Machine.execHostWriteAck port t n s
  | .atsTranslationCompletion fn page pasid r w => Sys2Proof.Machine.execAtsTranslationCompletion fn page pasid r w s
  | .registerRead src place size => Sys2Proof.Machine.execRegisterRead src place size s
  | .vfEnable port en num => Sys2Proof.Machine.execVfEnable port en num s
  | .hbmHot stack temp => Sys2Proof.Machine.execHbmHot stack temp s
  | .hbmOpenIdle stack pc bank => Sys2Proof.Machine.execHbmOpenIdle stack pc bank s
  | .rxEntryTaken die tp rsp => Sys2Proof.Machine.execRxEntryTaken die tp rsp s
  | .helmTimerExpire die proc => Sys2Proof.Machine.execHelmTimerExpire die proc s
  | .dutyBrakeEnd => Sys2Proof.Machine.execDutyBrakeEnd s
  | .keyWriteDone ok => Sys2Proof.Machine.execKeyWriteDone ok s
  | .ctxResumeDone x => Sys2Proof.Machine.execCtxResumeDone x s
  | .pkgRestartDone => Sys2Proof.Machine.execPkgRestartDone s
  | .minIntervalExpire => Sys2Proof.Machine.execMinIntervalExpire s

end Sys2Proof.Machine
end

