-- ==== Sys2Proof/Safety.lean ====
section
/-! DEFINITION. What counts as a sound state and a safe step of the module, in the terms the statements use. -/

namespace Sys2Proof.Machine

/-- HBM, block RAM and flash are held in canonical form: addresses rising, nothing listed that reads as an unlisted
address does. -/
def State.Canonical (s : State) : Prop :=
  Memory.wf s.hbm = true ∧ Memory.wf s.fab.bram = true ∧ Memory.wf s.cfg.flash = true

/-- What the vault never takes back: its counters only rise, and the leaves of the identity key only run on (R345, R347). -/
def Vault.Onward (v w : Vault) : Prop := v.floor0 ≤ w.floor0 ∧ v.floor1 ≤ w.floor1 ∧ v.idNext ≤ w.idNext

/-- The parts of a state, besides its product and its queue. -/
inductive Area where
  | regs | cores | net | hbm | hbmc | xfers | nextId | ctxs | ports | helm | power | fab
  | cfg | vault | sal | module | start | timer | free | out
  deriving DecidableEq, Repr

/-- A part is the same in two states. -/
def State.Agree (s t : State) : Area → Prop
  | .regs => t.regs = s.regs
  | .cores => t.cores = s.cores
  | .net => t.net = s.net
  | .hbm => t.hbm = s.hbm
  | .hbmc => t.hbmc = s.hbmc
  | .xfers => t.xfers = s.xfers
  | .nextId => t.nextId = s.nextId
  | .ctxs => t.ctxs = s.ctxs
  | .ports => t.ports = s.ports
  | .helm => t.helm = s.helm
  | .power => t.power = s.power
  | .fab => t.fab = s.fab
  | .cfg => t.cfg = s.cfg
  | .vault => t.vault = s.vault
  | .sal => t.sal = s.sal
  | .module => t.module = s.module
  | .start => t.start = s.start
  | .timer => t.timer = s.timer
  | .free => t.free = s.free
  | .out => t.out = s.out

/-- What a change that reaches only the parts `l` keeps: the queue and the product, every other part, the canonical form of
the memories, and the vault's counters, which only go on. -/
structure State.Within (l : List Area) (s t : State) : Prop where
  queue : t.pending = s.pending
  product : t.product = s.product
  frame : ∀ p, p ∉ l → s.Agree t p
  canonical : s.Canonical → t.Canonical
  onward : s.vault.Onward t.vault

/-- The parts of a state that a command may change: no command changes any other, whatever it meets. -/
def reach : Instr → List Area
  | .nop .. | .alu .. | .alui .. | .movi .. | .br .. | .rdnf .. | .clnf .. | .srseed .. | .seta .. | .geta ..
    | .adva .. | .rdsp .. | .wrsp .. | .vbc .. | .vext .. | .vmov .. | .yield .. | .halt .. | .lds .. | .strm ..
    | .drn .. | .acci .. | .vadd .. | .vsub .. | .vmul .. | .vfma .. | .vmin .. | .vmax .. | .vcmp .. | .vcvt ..
    | .vscl .. | .vscm .. | .vexpx .. | .vsrch .. | .sendv .. | .recv .. | .tally .. | .twait ..
    | .accumulatorCombine .. | .drainRead .. | .programLoad .. | .wake .. | .wakeDone .. => [.cores, .net]
  | .loop .. | .vexp2 .. | .vrcp .. | .vrsq .. => [.cores, .net, .free]
  | .sld .. | .sst .. | .tset .. | .tclr .. | .send .. | .tagWaitRetry .. | .rowArbiterDeferredGrant .. =>
    [.regs, .cores, .net, .helm, .vault, .start]
  | .vectorResultWrite .. | .preemptStop .. | .yieldLimitExpire .. | .coreSleep .. => [.cores]
  | .streamVectorEnterA .. => [.regs, .cores, .net, .helm, .vault, .start, .free]
  | .stageWatchdogTimeout .. | .ibufWrite .. | .routeWrite .. | .start .. | .stop .. => [.regs, .cores, .net]
  | .coreQuietSave .. => [.regs, .cores, .net, .hbm, .hbmc, .ctxs, .helm, .vault, .start, .free]
  | .coreRestore .. => [.regs, .cores, .hbmc, .ctxs, .helm, .free]
  | .brakeApply .. | .fabFreqSeqDone .. | .clkMeasDone .. | .levelSlewDone .. | .regionCurrentAlarm ..
    | .inputFastTrip => [.regs, .power]
  | .brakeRelease .. | .dutyBrakeEnd => [.regs, .cores, .net, .power]
  | .write .. => [.regs, .cores, .net, .ctxs, .helm, .fab, .vault, .start, .out]
  | .read .. => [.regs, .cores, .net, .helm, .fab, .vault, .start, .out]
  | .maskWrite .. => [.regs, .cores, .net, .hbm, .hbmc, .ctxs, .helm, .fab, .vault, .start, .free, .out]
  | .memWrite .. => [.regs, .net, .hbm, .hbmc, .ctxs, .helm, .fab, .free, .out]
  | .memRead .. => [.regs, .net, .hbmc, .helm, .fab, .free, .out]
  | .readData .. => [.regs, .net, .hbmc, .xfers, .ctxs, .ports, .helm, .fab, .free, .out]
  | .faultReport .. => [.regs, .cores, .net, .hbm, .hbmc, .ctxs, .ports, .helm, .fab, .free, .out]
  | .tallyArrival .. => [.regs, .cores, .net, .fab, .out]
  | .answer .. => [.regs, .cores, .net, .hbm, .hbmc, .xfers, .ctxs, .ports, .helm, .fab, .free, .out]
  | .passDone .. => [.regs, .net, .hbm, .hbmc, .ctxs, .ports, .helm, .fab, .free, .out]
  | .routerForward .. | .tileTxPacket .. | .tileRxDelivery .. | .rxEntryTaken .. => [.regs, .net, .fab, .out]
  | .tallyHoldExpire .. => [.regs, .net]
  | .routerSleep .. => [.net]
  | .coreBleachDone .. => [.regs, .cores, .ctxs, .ports, .start, .out]
  | .hbmBleachDone .. => [.regs, .hbm, .hbmc, .ctxs, .ports, .out]
  | .hbmWriteQueueDrain .. => [.regs, .hbmc, .free]
  | .hbmRefresh .. | .hbmOpenIdle .. => [.hbmc]
  | .hbmNeighbourRefresh .. => [.regs, .hbmc]
  | .hbmScrubRead .. | .hbmFreqChangeDone .. => [.regs, .hbmc, .helm, .free]
  | .hbmFreqReq .. | .hbmRetrainReq .. | .watchdogKick .. | .intClaim .. | .intComplete .. | .intRaise ..
    | .sallanTest .. | .registerRead .. => [.regs, .ports, .helm, .out]
  | .hbmRetrainTrigger .. | .loopLock .. => [.regs, .hbmc, .helm]
  | .hbmRetrainDone .. => [.regs, .hbmc, .helm, .vault, .start, .free]
  | .descriptorFetch .. | .ringPoll .. => [.regs, .nextId, .ctxs, .ports, .out]
  | .descNop .. | .fixOpen .. | .fixClose .. | .fixAbort .. | .windowOpen .. | .windowClose .. | .streamCreate ..
    | .streamDestroy .. | .streamArm .. | .fence .. | .sqTail .. | .streamArmDoorbell .. | .ctxOpen ..
    | .ctxStopDone .. | .pciVfCtxWrite .. | .vfEnable .. => [.regs, .ctxs, .ports, .out]
  | .xfer .. | .signal .. | .reduce .. | .reshard .. | .pieceIssue .. | .fixPublishSignals .. =>
    [.regs, .cores, .net, .hbmc, .xfers, .nextId, .ctxs, .ports, .helm, .vault, .start, .free, .out]
  | .launch .. | .replay .. =>
    [.regs, .cores, .net, .hbm, .hbmc, .nextId, .ctxs, .ports, .helm, .vault, .start, .free, .out]
  | .wait .. | .waitPoll .. => [.regs, .cores, .net, .hbmc, .ctxs, .ports, .helm, .vault, .start, .free, .out]
  | .config .. => [.regs, .ctxs, .ports, .cfg, .out]
  | .timestamp .. => [.regs, .hbmc, .xfers, .nextId, .ctxs, .ports, .helm, .free, .out]
  | .streamArmService .. => [.regs, .xfers, .nextId, .ctxs, .ports, .out]
  | .transferComplete .. => [.regs, .cores, .net, .hbmc, .xfers, .ctxs, .ports, .helm, .vault, .start, .free, .out]
  | .deadlineMiss .. => [.regs, .xfers, .ctxs, .ports, .out]
  | .pageResponse .. | .pageResponseTimeout .. | .hostReadCompletion .. | .hostWriteAck ..
    | .atsTranslationCompletion .. => [.regs, .net, .hbmc, .xfers, .ctxs, .ports, .helm, .free, .out]
  | .atsInvalidation .. | .eventAck .. | .ctxCmdReserved .. | .leaseAcquire .. | .leaseRelease .. | .clkRefSelWrite ..
    | .clkSrcSelWrite .. | .clkOutCtlWrite .. | .gatedBlockAccess .. | .intMsixDelivery .. | .intSrcWrite .. =>
    [.regs, .ports, .out]
  | .gatewayOutbound .. => [.regs, .net, .sal, .out]
  | .gatewayInbound .. => [.regs, .net, .sal]
  | .cqHead .. => [.regs, .hbm, .hbmc, .ctxs, .ports, .helm, .free, .out]
  | .ctxRun .. | .ctxResume .. | .ctxStop .. => [.regs, .cores, .ctxs, .ports, .out]
  | .ctxPause .. | .pkgStop .. => [.regs, .cores, .xfers, .ctxs, .ports, .out]
  | .ctxPauseDone .. | .ctxResumeDone .. => [.regs, .cores, .hbm, .hbmc, .xfers, .ctxs, .ports, .helm, .free, .out]
  | .ctxKill .. | .leaseTimeout .. | .vfFlr .. =>
    [.regs, .cores, .net, .hbm, .hbmc, .xfers, .ctxs, .ports, .helm, .fab, .cfg, .free, .out]
  | .pkgStopped | .clockSourceReady .. | .pkgRestartDone => [.regs]
  | .pkgRestart .. => [.regs, .cores, .hbmc, .ctxs, .ports, .helm, .power, .sal, .free, .out]
  | .fixFlip .. => [.regs, .net, .nextId, .ctxs]
  | .fixPageCopyHome .. => [.regs, .hbm, .hbmc, .ctxs, .helm, .free]
  | .coreSpareAssign .. => [.regs, .cores, .net, .hbm, .hbmc, .ctxs, .ports, .helm, .vault, .start, .free, .out]
  | .linkLoss .. => [.regs, .cores, .net, .hbmc, .xfers, .ctxs, .ports, .helm, .vault, .free, .out]
  | .linkUp .. => [.regs, .hbm, .hbmc, .xfers, .ctxs, .ports, .helm, .free, .out]
  | .pfFlr .. => [.regs, .cores, .net, .hbm, .hbmc, .xfers, .ctxs, .ports, .helm, .fab, .cfg, .vault, .free, .out]
  | .bar4Read .. => [.regs, .cores, .net, .hbmc, .ports, .helm, .vault, .start, .free, .out]
  | .bar4Write .. => [.regs, .cores, .net, .hbm, .hbmc, .ctxs, .ports, .helm, .fab, .vault, .start, .free, .out]
  | .poisonedWrite .. => [.ports]
  | .configRequestNotReady .. | .doeUnsupported .. | .state | .serial | .coolant | .dies => [.out]
  | .getStatus .. | .getCert .. | .getQuote .. | .rolloverKeyReady | .minIntervalExpire => [.regs, .vault, .free, .out]
  | .keyInstall .. | .firmwareWrite .. => [.regs, .hbmc, .ports, .helm, .vault, .free, .out]
  | .keyRevoke .. => [.regs, .ports, .vault, .out]
  | .firmwareWriteDone .. | .keyWriteDone .. => [.regs, .hbmc, .helm, .vault, .free]
  | .dspNop .. | .dspMac .. | .dspOut .. | .dspSrch .. | .dspAg .. | .dspAgset .. | .dspLoop .. | .dspHalt ..
    | .rawBlockReceive .. | .gpioShort .. => [.regs, .fab]
  | .dspMov .. | .bramPortAccess .. => [.regs, .fab, .free]
  | .dspRun .. | .tlyClr .. => [.fab]
  | .tileReadTimeout .. => [.regs, .net, .fab]
  | .rawBlockTransmit .. => [.regs, .out]
  | .gpioShortClear .. => [.regs, .ports, .fab, .out]
  | .fabricIrq .. | .clockSourceFail .. | .watchdogWarning .. | .intMessage .. | .intControllerWake .. | .hbmHot ..
    | .helmTimerExpire .. => [.regs, .helm]
  | .configHeaderChecked .. | .configSegmentVerified .. =>
    [.regs, .net, .hbmc, .ctxs, .ports, .helm, .fab, .cfg, .free, .out]
  | .configBleachDone .. => [.fab, .cfg]
  | .configStartOrder .. | .waitLockTimeout .. => [.regs, .ctxs, .ports, .helm, .fab, .cfg, .vault, .out]
  | .fullStreamLoad .. => [.regs, .net, .fab, .cfg, .out]
  | .flashWrite .. => [.regs, .hbmc, .ports, .helm, .cfg, .free, .out]
  | .flashWriteDone .. => [.regs, .hbmc, .helm, .cfg, .free]
  | .clkFabFreqWrite .. | .clkMeasGo .. => [.regs, .ports, .power, .out]
  | .clkGateWrite .. => [.regs, .net, .hbmc, .ports, .helm, .sal, .free, .out]
  | .governorTick .. => [.regs, .helm, .power, .module]
  | .thermalSample .. => [.regs, .cores, .net, .helm, .power, .free]
  | .watchdogExpire .. | .crossCheck .. => [.regs, .helm, .module]
  | .helmProcessorRunning .. => [.regs, .helm, .vault, .free, .out]
  | .intControllerSleep .. => [.helm]
  | .moduleReset .. | .switchOpen .. | .mgmtRstN .. | .thermalTrip .. =>
    [.regs, .cores, .net, .hbm, .hbmc, .xfers, .nextId, .ctxs, .ports, .helm, .power, .fab, .cfg, .vault, .sal, .module, .start, .timer]
  | .pkgReset .. =>
    [.regs, .cores, .net, .hbm, .hbmc, .xfers, .nextId, .ctxs, .ports, .helm, .power, .fab, .cfg, .vault, .sal, .module, .start, .timer, .out]
  | .startPhaseDone .. => [.regs, .cores, .net, .hbm, .hbmc, .ctxs, .ports, .helm, .vault, .module, .start, .free, .out]
  | .soundingRegionDone .. => [.regs, .module, .start]
  | .partitionReset .. =>
    [.regs, .cores, .net, .hbm, .hbmc, .xfers, .ctxs, .ports, .helm, .fab, .cfg, .start, .free, .out]
  | .partitionResetRelease .. => [.regs, .cores, .start]
  | .sallanBringup .. | .sallanRetryTimer .. => [.regs, .helm, .sal]
  | .sallanDetectDone .. | .sallanRungDwellDone .. => [.regs, .net, .helm, .sal, .out]
  | .sallanRetrain .. => [.regs, .ports, .helm, .sal, .out]
  | .sallanQuickRetrainDone .. => [.regs, .helm, .sal, .out]
  | .sallanTestEnd .. => [.regs, .ports, .helm, .sal, .free, .out]
  | .sallanFlitReceive .. => [.sal, .out]
  | .switchClose | .alertResponseRead => [.module]
  | .coolantSample .. | .clearAlert => [.regs, .module]
  | .power .. => [.module, .out]
  | .smbusTimeout => []
  | .registerWrite .. =>
    [.regs, .cores, .net, .hbm, .hbmc, .xfers, .nextId, .ctxs, .ports, .helm, .power, .fab, .cfg, .vault, .sal, .module, .start, .timer, .free, .out]

/-- A core whose next step runs the word at its PC: it runs, no stop is in effect and it waits for nothing, the PC lies in
the program, and the word is an issuable instruction of opcode `o` with no interlock against it (R73, R88, R94, R107). -/
structure State.Ready (s : State) (c : CoreAddr) (o : Nat) (w : W32) : Prop where
  clocked : s.braked c.toNat = false
  running : (s.core c.toNat).run = .running
  unstopped : (s.core c.toNat).stop = .none ∨ (s.core c.toNat).stop = .latched
  waitless : (s.core c.toNat).waits = [] ∧ (s.core c.toNat).deferred = []
  inProgram : (s.core c.toNat).pc < (s.core c.toNat).plen
  fetched : vget (s.core c.toNat).ibuf (s.core c.toNat).pc 0 = w
  coded : opc w = o
  staged : (s.core c.toNat).suppressed = false
  unreserved : reservedField w = false
  unhazarded : (s.core c.toNat).hazard w = false

/-- A packet for a core that stands there and that the core takes: none of its flow stands before it, the NI is awake and
unbraked, and R156 refuses it not. -/
structure State.Admits (s : State) (c : CoreAddr) (p : Packet) : Prop where
  aimed : p.target = c ∧ p.tkind = 0
  stands : s.standsAt (.core c) p = true
  takes : s.coreTakes c.toNat = true
  admitted : s.coreRefuses c.toNat p.ctx.toNat = none

/-- A context's state once its copy `i` has begun (R241). -/
def State.begun (s : State) (x i : Nat) : State :=
  ((((s.ctx x).copy? i).map (s.missCopy x)).getD s).modCtx x
    (fun t => { t with copies := mapIf (fun c => c.id == i) (fun c => { c with begun := true }) t.copies })

/-- Whether a descriptor that begins reads `n` bytes of an endpoint at once: host memory that is within reach and translated,
or device memory that need not wait (R181, R197, R230). -/
def State.reads (s : State) (x : Nat) (d : EndSpec) (n : Nat) : Bool :=
  if d.kind = 0 then !(s.port (s.portOf x)).lost && (s.unreached x d.addr n d.pasid? false).isNone else !s.devWaits d d.addr n

/-- The state in which it reads them: of host memory, the translation has been used (R434). -/
def State.readAs (s : State) (x i : Nat) (d : EndSpec) : State :=
  if d.kind = 0 then (s.modCopy x i (fun c => { c with wants := none, tries := 0 })).useTr x (d.addr / 4096) d.pasid? else s

/-- A fetched copy of operation `op` that can begin: it is eligible, the held list has room, R247 does not refuse it. -/
structure State.Begins (s : State) (x i op : Nat) (c : Copy) : Prop where
  fetched : (s.ctx x).copy? i = some c
  coded : dOp c.bytes = op
  eligible : s.eligible x c = true
  room : s.heldFull x = false
  sound : badMember c = false

/-- The port a doorbell write comes through. -/
def viaPort : Via → Fin 2
  | .pf p => p
  | .vf p _ => p

/-- Whether a function's doorbell pages include a context's: a PF's all, a VF's the one its entry names (R218, R220). -/
def State.pageNamed (s : State) (x : Nat) : Via → Bool
  | .pf _ => true
  | .vf p n => s.vfExists p n && s.regB .PCI_VF_CTX_VALID (p * 511 + n) && s.reg .PCI_VF_CTX_CTX (p * 511 + n) == x

/-- A doorbell write that acts: the port takes requests, the page is there, the port owns the context, which is not FREE. -/
structure State.Rings (s : State) (via : Via) (x : Nat) : Prop where
  reached : s.reaches (.port (viaPort via)) = .granted
  named : s.pageNamed x via = true
  owned : s.owns (viaPort via) x = true
  live : s.cst x ≠ 0

/-- A command to a context that the device does not refuse for its sender, its BUSY or its state, which is `st` (R235). -/
structure State.Commands (s : State) (port : Fin 2) (x : Fin 1024) (st : Nat) : Prop where
  reached : s.access (.port port) .CTX_CMD x 0 true = .granted
  real : x ≠ 0
  owned : s.owns port x = true
  free : s.isBusy x = false
  inState : s.cst x = st

/-- A DSP slice whose next cycle runs the word at its PC, an instruction with opcode `o`: it runs, its region captures, no
stage predication and no reserved field holds the word off, and an element is offered where the word reads one (R300 to R303). -/
structure State.DspReady (s : State) (i : SliceId) (io : DspIn) (o : Nat) (w : W32) : Prop where
  running : (s.slice i.die i.n).running = true
  clocked : s.fabRuns i.die (i.n.val / 512) = true
  inProgram : (s.slice i.die i.n).pc < 32
  fetched : vget (s.slice i.die i.n).prog (s.slice i.die i.n).pc 0 = w
  coded : dOpc w = o
  staged : (s.slice i.die i.n).suppressed = false
  unreserved : dspReserved w = false
  offered : readsInput w = true → io.iv = true

/-- Nothing but the cores has changed, and of the cores only `c`. -/
def State.OnlyCore (s t : State) (c : Nat) : Prop :=
  t = { s with cores := t.cores } ∧ ∀ d, d ≠ c → t.core d = s.core d

/-- A step ends in a next state, never in a fault or a refusal. -/
def Completes (o : Host.Outcome State Fault Refusal) : Prop := ∃ t, o = .next t

end Sys2Proof.Machine
end

