-- ==== Sys2Proof/WellFormed.lean ====
section
/-! DEFINITION. Which commands are well formed: the limits of the spec on operands that the operand types do not carry. -/

namespace Sys2Proof

/-- A packet has at most 16 data units, COUNT among 0 to 16, and an extension unit only with EXT = 1 (R142, R143, R146). -/
def Packet.wf (p : Packet) : Bool :=
  decide (p.data.length ≤ 16) && decide (p.count.toNat ≤ 16) && (p.ext || p.xu == 0)

/-- A router's index lies below the number of routers of its level (R135). -/
def routerWf (level : Fin 11) (index : Nat) : Bool := decide (1 ≤ level.val) && decide (index < 4 ^ (10 - level.val))

/-- An element that sleeps and wakes is a core or a router that exists. -/
def Elem.wf : Elem → Bool
  | .core _ => true
  | .router l i => routerWf l i

/-- A read that corrected words corrected at least one. -/
def Ecc.wf : Ecc → Bool
  | .corrected n => decide (0 < n)
  | _ => true

/-- A failure names a position of a spare group (R398), and a router of a level and an index on its die. -/
def SoundFail.wf (f : SoundFail) : Bool :=
  decide (f.g < 128) && decide (f.p < 1056) && (match f.part with
    | .router l i => decide (1 ≤ l) && decide (l ≤ 10) && decide (i * 4 ^ l < 131072)
    | _ => true)

/-- A width code of the far end is one of 0 to 4 (R405). -/
def DetectResult.wf (d : DetectResult) : Bool := decide (d.peerWidth ≤ 4)

/-- A finding names at most eight dies. -/
def StartFinding.wf : StartFinding → Bool
  | .answering n => decide (n ≤ 8)
  | _ => true

/-- A virtual function is one of a port's 511 (R218). -/
def Via.wf : Via → Bool
  | .pf _ => true
  | .vf _ n => decide (n < 511)

/-- Each read that an atom's ECC describes is one that it can. -/
def AtomEcc.wf (a : AtomEcc) : Bool := a.ecc.wf

/-- Every row's ECC is one that it can be. -/
def RowTry.wf (r : RowTry) : Bool := r.ecc.all Ecc.wf

/-- The same of atoms. -/
def AtomTry.wf (r : AtomTry) : Bool := r.ecc.all AtomEcc.wf

/-- The same of what engines' reads meet. -/
def DevSeen.wf (d : DevSeen) : Bool := d.rows.all Ecc.wf && d.atoms.all AtomEcc.wf

/-- The same of what the reads of a descriptor, a transfer or a replay meet. -/
def SlotSeen.wf (r : SlotSeen) : Bool := r.dev.wf

/-- The same of a flag. -/
def FlagSeen.wf (f : FlagSeen) : Bool := f.dev.wf

/-- A function is the PF or one of a port's 511 VFs (R216). -/
def PcieFn.wf (f : PcieFn) : Bool := f.vf.all (fun n => decide (n < 511))

/-- A VF's BAR is that of one of the 511 (R220). -/
def Space.wf : Space → Bool
  | .vfBar0 n => decide (n < 511)
  | .vfBar2 n => decide (n < 511)
  | _ => true

/-- A register access covers at least one byte, and lies within the largest BAR it can address (R15, R218). -/
def RegPlace.wf (q : RegPlace) (size : Nat) : Bool :=
  q.space.wf && decide (1 ≤ size) && decide (q.off.toNat + size ≤ 2 ^ 28)

/-- A temperature reading is one that its register can hold (R174). -/
def RetrainCause.wf : RetrainCause → Bool
  | .temperature t => decide (t < 256)
  | _ => true

/-- The operands of a command keep to the spec's limits. -/
def Instr.wf : Instr → Bool
  | .sld _ _ e => e.wf
  | .send _ r => r.wf
  | .streamVectorEnterA _ r _ => r.wf
  | .tagWaitRetry _ _ r => r.wf
  | .rowArbiterDeferredGrant _ _ e => e.all Ecc.wf
  | .coreQuietSave _ e _ => e.all Ecc.wf
  | .write p _ => p.wf
  | .read p r => p.wf && r.wf
  | .ibufWrite p _ => p.wf
  | .routeWrite p _ => p.wf
  | .start p _ => p.wf
  | .stop p _ => p.wf
  | .maskWrite p r => p.wf && r.wf
  | .memWrite p e => p.wf && e.all AtomEcc.wf
  | .memRead p e => p.wf && e.all AtomEcc.wf
  | .readData p => p.wf
  | .faultReport p => p.wf
  | .tallyArrival p => p.wf
  | .answer p => p.wf
  | .passDone p => p.wf
  | .routerSleep l i => routerWf l i
  | .wake e => e.wf
  | .wakeDone e => e.wf
  | .hbmScrubRead _ _ e => e.wf
  | .hbmRetrainTrigger _ c => c.wf
  | .xfer _ _ f => f.wf
  | .reduce _ _ f => f.wf
  | .reshard _ _ f => f.wf
  | .transferComplete q => q.wf
  | .launch _ q => q.wf
  | .replay _ q => q.wf
  | .wait _ _ f => f.wf
  | .waitPoll _ _ f => f.wf
  | .signal _ _ f => f.wf
  | .fixPublishSignals _ f => f.wf
  | .atsInvalidation f _ _ => f.wf
  | .atsTranslationCompletion f _ _ _ _ => f.wf
  | .gatewayOutbound _ _ p => p.wf
  | .gatewayInbound _ _ p => p.wf
  | .sqTail v _ _ => v.wf
  | .streamArmDoorbell v _ _ => v.wf
  | .cqHead v _ _ => v.wf
  | .eventAck v _ _ => v.wf
  | .vfFlr _ n => decide (n < 511)
  | .bar4Read _ off n e => decide (1 ≤ n) && decide (off.toNat + n ≤ 2 ^ 30) && e.all AtomEcc.wf
  | .bar4Write _ off b e => decide (1 ≤ b.length) && decide (off.toNat + b.length ≤ 2 ^ 30) && e.all AtomEcc.wf
  | .bramPortAccess _ _ _ _ e => e.wf
  | .tileRxDelivery _ _ p => p.wf
  | .thermalSample _ _ t => decide (t < 256)
  | .startPhaseDone _ f => f.wf
  | .soundingRegionDone _ _ l => l.all SoundFail.wf
  | .sallanDetectDone _ _ d => d.wf
  | .sallanFlitReceive _ _ _ _ _ l => l.all Packet.wf
  | .registerWrite _ q n v => q.wf n && decide (v < 2 ^ (8 * n))
  | .registerRead _ q n => q.wf n
  | .vfEnable _ _ n => decide (n ≤ 511)
  | .hbmHot _ t => decide (t < 256)
  | _ => true

end Sys2Proof
end

