-- ==== Sys2Proof/Certificates/Slice0/Obligations.lean ====
section
/-! DEFINITION. The statements about the model, each a proposition named after what it states. -/

open Sys2Proof Sys2Proof.Machine

/-! ## The block -/

/-- Derived (the block's own form: a queue of commands, first in, first out). A step with a command at the front is that
command's effect on the state with the queue's rest. -/
def Obligations.StepRunsFrontCommand : Prop :=
  ∀ (s : State) (i : Instr) (rest : List Instr), s.pending = i :: rest → step s = exec i { s with pending := rest }

/-- Derived (log 7: what an empty queue does is the model's choice). A step with no command waiting lets a nanosecond
pass: the completion timer counts, modulo 2^48, unless the input switch is open; but for the timer, the raw lanes' receive
buffers, what the logic cells, segments, borders and pins hold, the slices that stand and the UE of block RAM ports nothing
changes. With no region configured the logic holds as well; a lane gives at most its first block, a slice that runs stays. -/
def Obligations.IdleStepPassesTime : Prop :=
  ∀ s : State, s.pending = [] →
    ∃ t, step s = .next t ∧ t = { s with timer := t.timer, free := t.free, fab := { s.fab with
      raw := t.fab.raw, elems := t.fab.elems, segs := t.fab.segs, border := t.fab.border, pinIn := t.fab.pinIn,
      slices := t.fab.slices, ports := t.fab.ports } } ∧
      (s.framedRegions = [] → t = { s with timer := t.timer, fab := { s.fab with
        raw := t.fab.raw, slices := t.fab.slices, ports := t.fab.ports } }) ∧
      (s.module.off = false → t.timer = (s.timer + 1) % 2 ^ 48) ∧ (s.module.off = true → t = s) ∧
      (∀ e ∈ t.fab.raw, ∃ l, (e.1, l) ∈ s.fab.raw ∧ (e.2 = l ∨ e.2 = l.drop 1)) ∧
      (∀ e ∈ t.fab.slices, ∃ k, (e.1, k) ∈ s.fab.slices ∧ (e.2 = k ∨ k.running = false ∧ e.2 = k.cycle)) ∧
      ∀ e ∈ t.fab.ports, ∃ v, (e.1, v) ∈ s.fab.ports ∧ e.2.1 = v.1 ∧ (e.2.2 = v.2 ∨ e.2.2 = false)

/-- Derived. The frame of every command: it ends in a next state from every state, it changes no part of the state but those
that `reach` names for it, and it leaves the queue and the product as they are. -/
def Obligations.EveryCommandStaysWithinItsReach : Prop :=
  ∀ (i : Instr) (s : State), ∃ t, exec i s = .next t ∧ s.Within (reach i) t

/-- Derived (log 9). Every step keeps HBM, block RAM and flash in canonical form. -/
def Obligations.StepKeepsCanonical : Prop := ∀ s t : State, s.Canonical → step s = .next t → t.Canonical

/-- Derived. The state after reset holds its memories in canonical form, and no command waits in it. -/
def Obligations.ResetIsCanonical : Prop := State.reset.Canonical ∧ State.reset.pending = []

/-- Derived (R345). A vault counter only ever rises; with the counters, the leaves of the identity key only run on. Over every step. -/
def Obligations.VaultOnlyMovesOn : Prop := ∀ s t : State, step s = .next t → s.vault.Onward t.vault

/-- Derived (R17's tables). Right after reset every register field holds the reset value of its table. -/
def Obligations.ResetRegisters : Prop :=
  (∀ (f : Fld) (i : Nat), State.reset.reg f i = f.info.reset) ∧ ∀ f : Fld, f.info.reset < 2 ^ f.info.width

/-- Derived. A byte written to HBM is read back and no other byte changes, in any canonical memory. -/
def Obligations.HbmReadAfterWrite : Prop :=
  ∀ (m : List Host.Cell) (a : Nat) (l : List Byte) (b : Nat), Memory.wf m = true →
    memGet (memPut m a l) b = if a ≤ b ∧ b < a + l.length then l.getD (b - a) 0 else memGet m b

/-! ## Core instructions (03, 04) -/

/-- Derived (R94, R96, R58, R59, R91, R92). A scalar or move instruction that issues counts a step, has its effect on its
core's registers and passes on; nothing but the core changes. -/
def Obligations.ScalarInstructionsComplete : Prop :=
  ∀ (c : CoreAddr) (s : State) (w : W32),
    let k := (s.core c.toNat).tick
    (s.Ready c 0x00 w → exec (.nop c) s = .next (s.setCore c.toNat k.next)) ∧
    (s.Ready c 0x01 w → wf w 0 4 ≠ 8 → exec (.alu c) s = .next (s.setCore c.toNat
      (k.setG (fD w) (aluFn (wf w 0 4) (k.greg (fS w)) (k.greg (fT w)))).next)) ∧
    (s.Ready c 0x01 w → wf w 0 4 = 8 → exec (.alu c) s = .next (s.setCore c.toNat
      ((k.setG (fD w) (k.greg (fS w) * k.greg (fT w))).lateG (fD w)).next)) ∧
    (s.Ready c 0x02 w → wf w 14 4 ≠ 8 → exec (.alui c) s = .next (s.setCore c.toNat
      (k.setG (fD w) (aluFn (wf w 14 4) (k.greg (fS w)) ((w.extractLsb' 0 14).signExtend 32))).next)) ∧
    (s.Ready c 0x02 w → wf w 14 4 = 8 → exec (.alui c) s = .next (s.setCore c.toNat
      ((k.setG (fD w) (k.greg (fS w) * (w.extractLsb' 0 14).signExtend 32)).lateG (fD w)).next)) ∧
    (s.Ready c 0x03 w → wf w 16 1 = 0 → exec (.movi c) s = .next (s.setCore c.toNat
      (k.setG (fD w) ((w.extractLsb' 0 16).signExtend 32)).next)) ∧
    (s.Ready c 0x03 w → wf w 16 1 = 1 → exec (.movi c) s = .next (s.setCore c.toNat
      (k.setG (fD w) (w.extractLsb' 0 16 ++ (k.greg (fD w)).extractLsb' 0 16)).next)) ∧
    (s.Ready c 0x05 w → exec (.rdnf c) s = .next (s.setCore c.toNat (k.setG (fD w) k.nflags).next)) ∧
    (s.Ready c 0x06 w → exec (.clnf c) s = .next (s.setCore c.toNat
      ({ k with nflags := k.nflags &&& ~~~ (k.greg (fS w)) } : Core).next)) ∧
    (s.Ready c 0x07 w → exec (.srseed c) s = .next (s.setCore c.toNat
      ({ k with rng := if k.greg (fS w) = 0 then 1 else k.greg (fS w) } : Core).next)) ∧
    (s.Ready c 0x08 w → exec (.seta c) s = .next (s.setCore c.toNat (k.setA (wf w 23 3) (setaVal (k.greg (fS w)))).next)) ∧
    (s.Ready c 0x09 w → exec (.geta c) s = .next (s.setCore c.toNat (k.setG (fD w) (k.areg (wf w 19 3))).next)) ∧
    (s.Ready c 0x0A w → exec (.adva c) s = .next (s.setCore c.toNat
      (k.setA (wf w 23 3) (aWith (k.areg (wf w 23 3))
        ((aRow (k.areg (wf w 23 3)) + wf w 0 6) % aLen (k.areg (wf w 23 3))) 0 (aPh (k.areg (wf w 23 3))))).next)) ∧
    (s.Ready c 0x0B w → wf w 0 4 = 4 → exec (.rdsp c) s = .next (s.setCore c.toNat (k.setG (fD w) k.steps).next)) ∧
    (s.Ready c 0x0B w → wf w 0 4 = 5 → exec (.rdsp c) s = .next (s.setCore c.toNat
      (k.setG (fD w) (BitVec.ofNat 32 c.toNat)).next)) ∧
    (s.Ready c 0x0B w → exec (.rdsp c) s = .next (s.setCore c.toNat
      ((if wf w 0 4 = 6 ∨ wf w 0 4 = 7 then k.searchRead else k).setG (fD w) (k.special c.toNat (wf w 0 4))).next)) ∧
    (s.Ready c 0x0C w → wf w 0 4 = 0 → exec (.wrsp c) s = .next (s.setCore c.toNat
      ({ k with l0 := { k.l0 with cnt := k.greg (fS w) } } : Core).next)) ∧
    (s.Ready c 0x0C w → wf w 0 4 = 1 → exec (.wrsp c) s = .next (s.setCore c.toNat
      ({ k with l1 := { k.l1 with cnt := k.greg (fS w) } } : Core).next)) ∧
    (s.Ready c 0x0C w → 2 < wf w 0 4 → exec (.wrsp c) s = .next (s.setCore c.toNat k.next)) ∧
    (s.Ready c 0x0C w → wf w 0 4 = 2 → exec (.wrsp c) s = .next (s.setCore c.toNat
      ({ k with rrb := (k.greg (fS w)).setWidth 3 } : Core).next)) ∧
    (s.Ready c 0x0D w → ∃ x : VReg, exec (.vbc c) s = .next (s.setCore c.toNat (k.setV (fD w) x).next) ∧
      (wf w 0 1 = 1 → ∀ i, i < 8 → natBits x.toNat (32 * i) 32 = (k.greg (fS w)).toNat) ∧
      (wf w 0 1 = 0 → ∀ i, i < 16 → natBits x.toNat (16 * i) 16 = (k.greg (fS w)).toNat % 65536)) ∧
    (s.Ready c 0x0E w → ∃ x : W32, exec (.vext c) s = .next (s.setCore c.toNat (k.setG (fD w) x).next) ∧
      (wf w 0 1 = 1 → x.toNat = natBits (k.vreg (fS w)).toNat (32 * wf w 1 3) 32) ∧
      (wf w 0 1 = 0 → x.toNat = natBits (k.vreg (fS w)).toNat (16 * wf w 1 4) 16)) ∧
    (s.Ready c 0x0F w → exec (.vmov c) s = .next (s.setCore c.toNat (k.setV (fD w) (k.vreg (fS w))).next))

/-- Derived (R94, R101, R103 to R105). BR, LOOP, YIELD and HALT: a taken branch costs a second step and leaves the loops it
jumps out of; LOOP opens a loop over the next L instructions, or skips them for a count of 0; YIELD takes a latched stop
in a yield-mode context; HALT, when everything the core issued has completed, reports the pass and ends the program. -/
def Obligations.ControlInstructionsComplete : Prop :=
  ∀ (c : CoreAddr) (s : State) (w : W32),
    let k := (s.core c.toNat).tick
    (s.Ready c 0x04 w → condHolds (wf w 23 3) (k.greg (wf w 19 4)) (k.greg (wf w 15 4)) = true → wf w 0 8 < k.plen →
      exec (.br c) s = .next (s.setCore c.toNat { k.tick with
        pc := wf w 0 8, l0 := k.l0.leave (wf w 0 8), l1 := k.l1.leave (wf w 0 8) })) ∧
    (s.Ready c 0x04 w → condHolds (wf w 23 3) (k.greg (wf w 19 4)) (k.greg (wf w 15 4)) = false →
      exec (.br c) s = .next (s.setCore c.toNat k.next)) ∧
    (s.Ready c 0x10 w → k.loopError w = false → wf w 24 1 = 0 → wf w 23 1 = 0 → wf w 8 9 ≠ 0 →
      exec (.loop c) s = .next ((s.setCore c.toNat { k.setLp (wf w 25 1 == 1)
        ⟨BitVec.ofNat 32 (wf w 8 9), k.pc + 1, k.pc + wf w 0 8, true, false, 0, BitVec.ofNat 32 (wf w 8 9), 0⟩
        with pc := k.pc + 1 }).drew 1)) ∧
    (s.Ready c 0x10 w → k.loopError w = false → exec (.loop c) s =
      .next ((s.setCore c.toNat (k.openLoop w s.freeVal)).drew 1)) ∧
    (s.Ready c 0x10 w → k.loopError w = false → wf w 23 1 = 0 → wf w 8 9 = 0 → exec (.loop c) s =
      .next ((s.setCore c.toNat ((k.setLp (wf w 25 1 == 1) (k.lp (wf w 25 1 == 1)).closed).past (k.pc + wf w 0 8))).drew 1)) ∧
    (s.Ready c 0x11 w → ¬ (s.yieldMode c.toNat = true ∧ k.stop = .latched) →
      exec (.yield c) s = .next (s.setCore c.toNat k.next)) ∧
    (s.Ready c 0x11 w → s.yieldMode c.toNat = true → k.stop = .latched →
      exec (.yield c) s = .next (s.setCore c.toNat (k.takeStop true (w.extractLsb' 0 4)).next)) ∧
    (s.Ready c 0x12 w → k.sq = [] → k.cPipe = [] → k.wb = [] → (s.modCore c.toNat Core.tick).outbound c.toNat = [] →
      k.startInfo = none →
      exec (.halt c) s = .next (s.setCore c.toNat { k.next with run := .idle, arrv := 0, tsum := 0, tcnt := 0 })) ∧
    (s.Ready c 0x12 w → k.sq = [] → k.cPipe = [] → k.wb = [] → (s.modCore c.toNat Core.tick).outbound c.toNat = [] →
      exec (.halt c) s = .next (((s.setCore c.toNat k).sendDone c.toNat).modCore c.toNat
        (fun k => { k.next with run := .idle, arrv := 0, tsum := 0, tcnt := 0 }))) ∧
    (s.Ready c 0x12 w → (s.modCore c.toNat Core.tick).outbound c.toNat ≠ [] → exec (.halt c) s = .next (s.setCore c.toNat k))

/-- Derived (R82, R95, R99, R105). Where an instruction faults: a word of opcode 0 or of no listed opcode with a reserved
field with cause 5, a PC beyond the program with cause 7, a taken branch beyond the program with cause 7, a loop structure
error with cause 6, a SENDV through an entry that is not valid with cause 8. A fault stops the core, discards what its matrix
engine has queued and sends one packet. -/
def Obligations.InstructionFaults : Prop :=
  ∀ (c : CoreAddr) (s : State) (w : W32),
    (∀ j : Core, s.core c.toNat = j → s.braked c.toNat = false → j.run = .running → (j.stop = .none ∨ j.stop = .latched) →
      j.waits = [] → j.deferred = [] →
      (j.plen ≤ j.pc → exec (.nop c) s = .next ((s.modCore c.toNat Core.tick).fault c.toNat 7)) ∧
      (j.pc < j.plen → vget j.ibuf j.pc 0 = w → opc w = 0 ∨ listedOpcode (opc w) = false → j.suppressed = false →
        reservedField w = true → exec (.nop c) s = .next ((s.modCore c.toNat Core.tick).fault c.toNat 5))) ∧
    (s.Ready c 0x04 w → condHolds (wf w 23 3) ((s.core c.toNat).greg (wf w 19 4)) ((s.core c.toNat).greg (wf w 15 4)) = true →
      (s.core c.toNat).plen ≤ wf w 0 8 → exec (.br c) s = .next ((s.modCore c.toNat Core.tick).fault c.toNat 7)) ∧
    (s.Ready c 0x10 w → (s.core c.toNat).tick.loopError w = true →
      exec (.loop c) s = .next ((s.modCore c.toNat Core.tick).fault c.toNat 6)) ∧
    (s.Ready c 0x31 w → rValid (vget (s.core c.toNat).routes (wf w 21 5) 0) = false →
      exec (.sendv c) s = .next ((s.modCore c.toNat Core.tick).fault c.toNat 8)) ∧
    (∀ cause, s.braked c.toNat = false → (s.core c.toNat).run = .running →
      ((s.fault c.toNat cause).core c.toNat).run = .faulted cause ∧ ((s.fault c.toNat cause).core c.toNat).sq = [] ∧
      (s.fault c.toNat cause).regs = s.regs ∧ (s.fault c.toNat cause).hbm = s.hbm ∧
      (s.fault c.toNat cause).net.flights.length = s.net.flights.length + 1)

/-- Derived (R97, R98, R116, R119). SLD and SST move a slot between the row that the address register names and vector
registers, under the row's tag where T is set; TSET and TCLR set and clear the tags of n rows; an access that waits on its
tag or lost its row's arbitration is taken up again. -/
def Obligations.SlotInstructionsComplete : Prop :=
  ∀ (c : CoreAddr) (s : State) (w : W32),
    let k := (s.core c.toNat).tick
    (s.Ready c 0x14 w → (wf w 18 1 = 0 ∨ k.full (k.slotRow w) = true) →
      exec (.sld c false .clean) s = .next (s.setCore c.toNat (k.slotLoad w (vget k.rows (k.slotRow w) 0)))) ∧
    (s.Ready c 0x14 w → wf w 18 1 = 1 → k.full (k.slotRow w) = false →
      exec (.sld c false .clean) s = .next (s.setCore c.toNat (k.waitOn .seq))) ∧
    (s.Ready c 0x15 w → (wf w 18 1 = 0 ∨ k.full (k.slotRow w) = false) →
      exec (.sst c false) s = .next (s.setCore c.toNat (k.slotStore w))) ∧
    (s.Ready c 0x15 w → wf w 18 1 = 0 → exec (.sst c true) s = .next (s.setCore c.toNat (k.defer .seq))) ∧
    (s.Ready c 0x16 w → exec (.tset ⟨c, false⟩) s = .next (s.setCore c.toNat
      (k.setTags (tagRows (k.areg (wf w 23 3)) (wf w 0 6 + 1)) true).next)) ∧
    (s.Ready c 0x17 w → exec (.tclr ⟨c, false⟩) s = .next (s.setCore c.toNat
      (k.setTags (tagRows (k.areg (wf w 23 3)) (wf w 0 6 + 1)) false).next)) ∧
    (∀ j : Core, s.core c.toNat = j → s.braked c.toNat = false → s.killing c.toNat = false → j.waits = [.seq] → j.deferred = [] → j.run = .running →
      j.stop = .none → vget j.ibuf j.pc 0 = w → opc w = 0x15 → wf w 18 1 = 1 → j.full (j.slotRow w) = false →
      exec (.tagWaitRetry c .seq ⟨[], []⟩) s = .next (s.setCore c.toNat ((j.unwait .seq).tick.slotStore w))) ∧
    (∀ j : Core, s.core c.toNat = j → s.braked c.toNat = false → s.killing c.toNat = false → j.deferred = [.seq] → j.run = .running → j.stop = .none →
      vget j.ibuf j.pc 0 = w → opc w = 0x15 → wf w 18 1 = 0 →
      exec (.rowArbiterDeferredGrant c .seq []) s = .next (s.setCore c.toNat ((j.unwait .seq).tick.slotStore w)))

/-- Derived (R97, R115). A 32-byte store without a tag writes the 32 bytes of its slot and leaves the row's other half, every
other row and every tag. -/
def Obligations.SlotStoreRow : Prop :=
  ∀ (k : Core) (w : W32), wf w 16 1 = 0 → wf w 18 1 = 0 →
    let r := k.slotRow w
    let lo := aStart (k.areg (wf w 19 3)) 32 false
    rowNat (vget (k.slotStore w).rows r 0) lo 32 = (k.vreg (fD w)).toNat ∧
    rowNat (vget (k.slotStore w).rows r 0) (32 - lo) 32 = rowNat (vget k.rows r 0) (32 - lo) 32 ∧
    (∀ q, q ≠ r → vget (k.slotStore w).rows q 0 = vget k.rows q 0) ∧ (k.slotStore w).tags = k.tags

/-- Derived (R61 to R65, R71 to R73). LDS, STRM, DRN and ACCI join the queue of the matrix engine while it has room; a stream
vector enters stage A, the oldest column results combine with their group, a drain is read after the last of them. -/
def Obligations.MatrixCommandsComplete : Prop :=
  ∀ (c : CoreAddr) (s : State) (w : W32),
    let k := (s.core c.toNat).tick
    (s.Ready c 0x18 w → k.sq.length < 4 → exec (.lds c) s = .next (s.setCore c.toNat
      ({ k with sq := k.sq ++ [⟨w, physReg k.rrb 0, 1⟩] } : Core).next)) ∧
    (s.Ready c 0x19 w → k.sq.length < 4 → exec (.strm c) s = .next (s.setCore c.toNat
      ({ k with sq := k.sq ++ [⟨w, physReg k.rrb 0, wf w 20 6 + 1⟩] } : Core).next)) ∧
    (s.Ready c 0x1A w → k.sq.length < 4 → exec (.drn c) s = .next (s.setCore c.toNat
      ({ k with sq := k.sq ++ [⟨w, physReg k.rrb (fD w), 1⟩] } : Core).next)) ∧
    (s.Ready c 0x1B w → k.sq.length < 4 → exec (.acci c) s = .next (s.setCore c.toNat
      ({ k with sq := k.sq ++ [⟨w, physReg k.rrb (fD w), 1⟩] } : Core).next)) ∧
    (∀ (j : Core) (o : StreamOp), s.core c.toNat = j → j.headOp s.freeVal = some o → s.engineRuns c.toNat = true →
      j.waits = [] → j.deferred = [] → j.stageFree = true → j.got = [] → j.streamBlocked = false →
      exec (.streamVectorEnterA c ⟨[], []⟩ true) s = .next ((s.setCore c.toNat
        (j.enterA o (vget j.rows (aRowOf (j.areg o.ai)) 0) (vget j.rows (aRowOf (j.areg o.as_)) 0) (s.freeVal / 2))).drew 1)) ∧
    (∀ (j : Core) (r : ColRes) (rest : List ColRes), s.core c.toNat = j → s.braked c.toNat = false → j.run = .running →
      j.cPipe = r :: rest →
      exec (.accumulatorCombine c true) s = .next (s.setCore c.toNat (({ j with cPipe := rest } : Core).stageC r)) ∧
      exec (.accumulatorCombine c false) s = .next (s.fault c.toNat 1)) ∧
    (∀ (j : Core) (e : SqE) (rest : List SqE), s.core c.toNat = j → s.engineRuns c.toNat = true → j.sq = e :: rest →
      opc e.word = 0x1A → j.cPipe = [] →
      exec (.drainRead c true) s = .next (s.setCore c.toNat (j.drainHead e rest)) ∧
      exec (.drainRead c false) s = .next (s.fault c.toNat 1))

/-- Derived (R49 to R58, R75, R77). Every vector instruction that issues completes: its result, lane by lane and rounded once, joins
the writes that wait for their latency, the flags of its lanes are set and it passes on; the special functions draw one free
value per lane within the accuracy of R56. VSRCH meets its lanes in order, after a reset where it asks for one.
VECTOR_RESULT_WRITE carries one write out. -/
def Obligations.VectorInstructionsComplete : Prop :=
  ∀ (c : CoreAddr) (s : State) (w : W32),
    let k := (s.core c.toNat).tick
    let f := laneFmt (fLF w)
    let n := lanes f
    let x := fun i => lane f (k.vreg (fS w)) i
    let y := fun i => lane f (k.vreg (fT w)) i
    let z := fun i => lane f (k.vreg (fC w)) i
    let put := fun (bits : Nat) (r : Nat × NFlags) => s.setCore c.toNat (k.vecOut (fD w) bits r).next
    let two := fun (op : Machine.Num → Machine.Num → Machine.Num × NFlags) => put 256 (lanewise n f.bits (fun i =>
      let r := toLane f (op (x i).1 (y i).1)
      (r.1, (x i).2 ||| (y i).2 ||| r.2)))
    let special := fun (g : FmtInfo → Machine.Num → Nat → Nat × NFlags) (inf : FmtInfo) =>
      (put 256 (lanewise n f.bits (fun i =>
        let r := g inf (x i).1 (Config.free (s.free + i))
        (r.1, (x i).2 ||| r.2)))).drew n
    (s.Ready c 0x20 w → exec (.vadd c) s = .next (two addNum)) ∧
    (s.Ready c 0x21 w → exec (.vsub c) s = .next (two (fun a b => addNum a b.negate))) ∧
    (s.Ready c 0x22 w → exec (.vmul c) s = .next (two mulNum)) ∧
    (s.Ready c 0x23 w → exec (.vfma c) s = .next (put 256 (lanewise n f.bits (fun i =>
      let p := mulNum (x i).1 (y i).1
      let r := toLane f (addNum p.1 (z i).1)
      (r.1, (x i).2 ||| (y i).2 ||| (z i).2 ||| p.2 ||| r.2))))) ∧
    (s.Ready c 0x24 w → exec (.vmin c) s = .next (two (fun a b => (minNum a b, 0)))) ∧
    (s.Ready c 0x25 w → exec (.vmax c) s = .next (two (fun a b => (maxNum a b, 0)))) ∧
    (s.Ready c 0x26 w → ∃ (m : W32) (g : NFlags),
      exec (.vcmp c) s = .next (s.setCore c.toNat
        ({ k.flag g with wb := k.wb ++ [.gen (gReg (fD w)) m] } : Core).next) ∧
      (∀ i, i < n → m.getLsbD i = cmpHolds (wf w 0 3) (x i).1 (y i).1) ∧ (∀ i, n ≤ i → m.getLsbD i = false) ∧
      ∀ j, g.getLsbD j = true ↔ ∃ i, i < n ∧ ((x i).2 ||| (y i).2).getLsbD j = true) ∧
    (∀ inf, f.info = some inf → s.Ready c 0x27 w → exec (.vexp2 c) s = .next (special (exp2Num f) inf)) ∧
    (∀ inf, f.info = some inf → s.Ready c 0x28 w → exec (.vrcp c) s = .next (special (rcpNum f) inf)) ∧
    (∀ inf, f.info = some inf → s.Ready c 0x29 w → exec (.vrsq c) s = .next (special (rsqNum f) inf)) ∧
    (let nf := narrowFmt (wf w 0 4)
     (s.Ready c 0x2A w → wf w 4 1 = 1 → exec (.vcvt c) s = .next (put 256 (lanewise n f.bits (fun i =>
       toLane f (decodeNum nf (natBits (k.vreg (fS w)).toNat (nf.bits * i) nf.bits)))))) ∧
     (s.Ready c 0x2A w → wf w 4 1 = 0 → (wf w 6 1 = 0 ∨ 1 < wf w 0 4) →
       exec (.vcvt c) s = .next (put (n * nf.bits) (lanewise n nf.bits (fun i =>
         let r := encodeNum nf .rne (wf w 5 1 == 1) true (x i).1
         (r.1, (x i).2 ||| r.2))))) ∧
     (s.Ready c 0x2A w → wf w 4 1 = 0 → wf w 6 1 = 1 → wf w 0 4 ≤ 1 →
       exec (.vcvt c) s = .next (s.setCore c.toNat ({ k.vecOut (fD w) (n * nf.bits) (lanewise n nf.bits (fun i =>
         let r := encodeNum nf (.sr ((advanceN k.rng (i + 1)).toNat % 65536)) (wf w 5 1 == 1) true (x i).1
         (r.1, (x i).2 ||| r.2))) with rng := advanceN k.rng n } : Core).next))) ∧
    (s.Ready c 0x2B w → exec (.vscl c) s = .next (put 256 (lanewise n f.bits (fun i =>
      let q := divNum (x i).1 (k.scale w).1
      let r := encodeNum f .rne false true q.1
      (r.1, (x i).2 ||| (k.scale w).2 ||| q.2 ||| r.2))))) ∧
    (s.Ready c 0x2C w → exec (.vscm c) s = .next (put 256 (lanewise n f.bits (fun i =>
      let r := toLane f (mulNum (x i).1 (k.scale w).1)
      (r.1, (x i).2 ||| (k.scale w).2 ||| r.2))))) ∧
    (s.Ready c 0x2D w → exec (.vexpx c) s = .next (put (8 * n) (lanewise n 8 (fun i =>
      ((e8m0Of (x i).1).1, (x i).2 ||| (e8m0Of (x i).1).2))))) ∧
    (let k0 := if wf w 1 1 = 1 then k.searchReset (wf w 0 1 == 1) (decide (f = .int16)) else k
     (s.Ready c 0x2E w → k0.skindInt = decide (f = .int16) → exec (.vsrch c) s = .next (s.setCore c.toNat
       ((List.range n).foldl (fun j i => j.searchLane f (x i) (k.greg (fC w) + BitVec.ofNat 32 i)) k0).next)) ∧
     (s.Ready c 0x2E w → k0.skindInt ≠ decide (f = .int16) →
       exec (.vsrch c) s = .next (s.setCore c.toNat (k0.flag fFMT).next))) ∧
    (∀ (m : Nat) (b : Wb), s.braked c.toNat = false → (s.core c.toNat).wb[m]? = some b →
      exec (.vectorResultWrite c m) s =
        .next (s.setCore c.toNat (({ s.core c.toNat with wb := dropAt (s.core c.toNat).wb m } : Core).writeBack b)))

/-- Derived (R75, R59). Where the results of the lanes lie, and the flags: lane `i` of `b` bits lies at `b` times its number, the bits
above the last lane are 0, and the flags are those of some lane. -/
def Obligations.VectorLaneResults : Prop :=
  ∀ (n b : Nat) (g : Nat → Nat × NFlags),
    (∀ i, i < n → natBits (lanewise n b g).1 (b * i) b = (g i).1 % 2 ^ b) ∧ (lanewise n b g).1 < 2 ^ (b * n) ∧
    ∀ j, (lanewise n b g).2.getLsbD j = true ↔ ∃ i, i < n ∧ (g i).2.getLsbD j = true

/-- Derived (R99, R100). SEND, SENDV and TALLY build one packet through a valid route entry while the outbound queue has
room; RECV takes from ARRV and TWAIT from the tally count what is there, and waits for what is not. -/
def Obligations.SendInstructionsComplete : Prop :=
  ∀ (c : CoreAddr) (s : State) (w : W32),
    let k := (s.core c.toNat).tick
    let s1 := s.modCore c.toNat Core.tick
    let e := vget k.routes (wf w 21 5) 0
    (s.Ready c 0x30 w → rValid e = true → (s1.outbound c.toNat).length < 4 → k.sendReady w = true → wf w 6 1 = 0 →
      exec (.send c ⟨[], []⟩) s = .next ((s.setCore c.toNat
          (k.setA (wf w 18 3) (sendSource (wf w 9 5) (k.areg (wf w 18 3))).2).next).inject (.core (BitVec.ofNat 20 c.toNat))
        (s1.routed c.toNat e cWRITE (sendVar e (k.greg (wf w 14 4)).toNat) (wf w 8 1 == 1) (wf w 7 1 == 1)
          ((sendSource (wf w 9 5) (k.areg (wf w 18 3))).1.map k.unit)))) ∧
    (s.Ready c 0x31 w → rValid e = true → (s1.outbound c.toNat).length < 4 →
      exec (.sendv c) s = .next ((s.setCore c.toNat k.next).inject (.core c)
        (s1.routed c.toNat e cWRITE (sendVar e (k.greg (wf w 13 4)).toNat) (wf w 12 1 == 1) (wf w 11 1 == 1)
          [BitVec.ofNat 128 (natBits (k.vreg (wf w 17 4)).toNat 0 128),
           BitVec.ofNat 128 (natBits (k.vreg (wf w 17 4)).toNat 128 128)]))) ∧
    (s.Ready c 0x33 w → rValid e = true → (s1.outbound c.toNat).length < 4 →
      exec (.tally c) s = .next ((s.setCore c.toNat k.next).inject (.core c)
        (s1.routed c.toNat e cTALLY 0 false false [tallyUnit (k.greg (wf w 17 4)).toNat 1 0 0]))) ∧
    (s.Ready c 0x32 w → (k.greg (fS w)).toNat ≤ k.arrv.toNat →
      exec (.recv c) s = .next (s.setCore c.toNat ({ k with arrv := k.arrv - k.greg (fS w) } : Core).next)) ∧
    (s.Ready c 0x32 w → k.arrv.toNat < (k.greg (fS w)).toNat → exec (.recv c) s = .next (s.setCore c.toNat k)) ∧
    (s.Ready c 0x34 w → (k.greg (fS w)).toNat ≤ k.tcnt.toNat →
      exec (.twait c) s = .next (s.setCore c.toNat
        ({ k.setG (fD w) k.tsum with tsum := 0, tcnt := k.tcnt - k.greg (fS w) } : Core).next)) ∧
    (s.Ready c 0x34 w → k.tcnt.toNat < (k.greg (fS w)).toNat → exec (.twait c) s = .next (s.setCore c.toNat k))

/-- Derived (R80, R81, R84, R101, R111, R112). Watchdogs and stops: a stage over the limit is counted and faults with cause 3
unless only reports are asked; a latched stop takes effect at an instruction boundary; a quiet core's state goes to its
image in the save area. -/
def Obligations.StopsComplete : Prop :=
  ∀ (c : CoreAddr) (s : State),
    let n := c.toNat
    let d := dieOf n
    (s.reg .YLD_STAGE_WDOG_LIMIT d ≠ 0 → s.braked n = false → (s.core n).run = .running →
      (s.core n).atWork = true → s.reg .YLD_STAGE_WDOG_REPORT_ONLY d = 1 →
      exec (.stageWatchdogTimeout c) s = .next (s.bump .YLD_STAGE_TMO_CNT_COUNT d)) ∧
    (s.reg .YLD_STAGE_WDOG_LIMIT d ≠ 0 → s.braked n = false → (s.core n).run = .running →
      (s.core n).atWork = true → s.reg .YLD_STAGE_WDOG_REPORT_ONLY d ≠ 1 →
      exec (.stageWatchdogTimeout c) s = .next ((s.bump .YLD_STAGE_TMO_CNT_COUNT d).fault n 3)) ∧
    ((s.core n).stop = .latched → s.braked n = false → s.yieldMode n = false →
      exec (.preemptStop c) s = .next (s.modCore n (fun k => k.takeStop false 0))) ∧
    ((s.core n).stop = .latched → s.braked n = false →
      exec (.yieldLimitExpire c) s = .next (s.modCore n (fun k => k.takeStop false 0))) ∧
    (∀ (x : Nat) (y : Bool) (dead : BitVec 4), s.holder n = some x → (s.core n).stop = .taken y dead → (s.ctx x).busy = .pausing →
      (s.core n).saved = false → s.braked n = false → (s.core n).run = .running → s.quiet n = true →
      s.hbmWaits (s.imageAt x n) 5120 = false →
      exec (.coreQuietSave c [] true) s = .next (s.saveCore x n y dead) ∧
      (s.saveCore x n y dead).net = s.net ∧
      ((s.saveCore x n y dead).core n).saved = true ∧ ((s.saveCore x n y dead).core n).run = .quiet)

/-- Derived. The frame of the instructions that act on their core alone: whether they issue, wait, are skipped or do
nothing, so long as they do not fault, nothing but their core changes; of its registers they keep the rows, tags, program,
routes and accumulators, and every general register but the one named as destination. -/
def Obligations.CoreInstructionFrame : Prop :=
  ∀ (c : CoreAddr) (s t : State) (i : Instr) (o : Nat),
    (i, o) ∈ [(Instr.nop c, 0x00), (.alu c, 0x01), (.alui c, 0x02), (.movi c, 0x03), (.rdnf c, 0x05), (.clnf c, 0x06),
      (.srseed c, 0x07), (.seta c, 0x08), (.geta c, 0x09), (.adva c, 0x0A), (.rdsp c, 0x0B), (.wrsp c, 0x0C), (.vbc c, 0x0D),
      (.vext c, 0x0E), (.vmov c, 0x0F), (.vadd c, 0x20), (.vsub c, 0x21), (.vmul c, 0x22), (.vfma c, 0x23), (.vmin c, 0x24),
      (.vmax c, 0x25), (.vcmp c, 0x26), (.vcvt c, 0x2A), (.vscl c, 0x2B), (.vscm c, 0x2C), (.vexpx c, 0x2D), (.vsrch c, 0x2E)] →
    (∀ f, (s.core c.toNat).grant o ≠ .fault f) → exec i s = .next t →
    let k := s.core c.toNat
    let k' := t.core c.toNat
    s.OnlyCore t c.toNat ∧ k'.rows = k.rows ∧ k'.tags = k.tags ∧ k'.ibuf = k.ibuf ∧ k'.plen = k.plen ∧ k'.routes = k.routes ∧
      k'.acc = k.acc ∧ k'.sq = k.sq ∧ k'.run = k.run ∧ k'.arrv = k.arrv ∧
      (∀ r, r ≠ fD (vget k.ibuf k.pc 0) → k'.greg r = k.greg r) ∧
      (∀ r, r ≠ wf (vget k.ibuf k.pc 0) 23 3 → k'.areg r = k.areg r) ∧
      (o ∉ [0x05, 0x06, 0x0B] → o < 0x20 → k'.nflags = k.nflags)

/-! ## Packets at cores and the Rose (06) -/

/-- Derived (R97, R115, R119, R142 to R144, R156). A packet admitted by a core has its effect there: a one-unit WRITE puts its
unit in the row it names; a MASK_WRITE of whole words changes the bytes its mask names in one row; a READ is answered with the
units it asks for. The WRITE and the MASK_WRITE change nothing in
HBM. -/
def Obligations.CoreAccessesComplete : Prop :=
  ∀ (c : CoreAddr) (p : Packet) (s : State), s.Admits c p → (s.core c.toNat).deferred = [] →
    let k := s.core c.toNat
    (p.cmd = cWRITE → p.data.length = 1 → p.t = false → k.saved = false → k.inq = [] →
      ∃ t, exec (.write p false) s = .next t ∧ t.hbm = s.hbm ∧
        (t.core c.toNat).rows = (k.putUnit (4 * pRow p + pUnit p) (p.data.getD 0 0)).rows ∧
        (t.core c.toNat).tags = k.tags ∧ (t.core c.toNat).inq = [] ∧ (t.core c.toNat).g = k.g ∧
        (p.cnt = true → (t.core c.toNat).arrv = BitVec.ofNat 32 (satInc 32 k.arrv.toNat)) ∧
        (p.cnt = false → (t.core c.toNat).arrv = k.arrv)) ∧
    (p.cmd = cWRITE → p.data = [] → k.saved = false → ∃ t, exec (.write p false) s = .next t ∧ (t.core c.toNat).rows = k.rows ∧
        (p.cnt = true → (t.core c.toNat).arrv = BitVec.ofNat 32 (satInc 32 k.arrv.toNat))) ∧
    (p.cmd = cMASK → p.data.length = 5 → p.t = false → k.saved = false → k.inq = [] → partialWords (pByteMask p) = 0 →
      ∃ t, exec (.maskWrite p ⟨false, []⟩) s = .next t ∧ t.hbm = s.hbm ∧
        (t.core c.toNat).rows = vset k.rows (pRow p) (rowMask (vget k.rows (pRow p) 0) (pBlock p) (pByteMask p)) ∧
        (t.core c.toNat).tags = k.tags) ∧
    (p.cmd = cREAD → p.t = false → k.waits = [] → k.rdGot = [] → p.ext = false →
      ∃ t, exec (.read p ⟨[], []⟩) s = .next t ∧ t.hbm = s.hbm ∧ (t.core c.toNat).rows = k.rows ∧ (t.core c.toNat).tags = k.tags ∧
        ∃ f ∈ t.net.flights, f.loc = .out (.core c) ∧ f.pkt.cmd = cRDATA ∧ f.pkt.tag = p.tag ∧ f.pkt.ctx = p.ctx ∧
          f.pkt.data = (unitRun (pRow p) (pUnit p) p.count.toNat).map k.unit)

/-- Derived (R80, R108, R109, R145, R148). The packets that load and steer a core: blocks of the program and route entries
are stored and answered where asked, a START is held until its load is complete and PROGRAM_LOAD then begins the program at
PC 0, a STOP stops an idle core, a tally adds to the core's sum and to its count, which stays at its greatest value. -/
def Obligations.ProgramPacketsComplete : Prop :=
  ∀ (c : CoreAddr) (p : Packet) (s : State),
    let n := c.toNat
    let here := s.arrive (.core c) p
    (s.Admits c p → p.cmd = cIBUF → exec (.ibufWrite p c) s = .next ((here.modCore n (fun k =>
      { k with ibuf := putWords k.ibuf (64 * (p.var.toNat % 4)) ((ibufWords p).take 64),
               load := { k.load with blocks := if k.load.blocks.contains (p.var.toNat % 4) then k.load.blocks
                 else (p.var.toNat % 4) :: k.load.blocks } })).accept (.core c) p)) ∧
    (s.Admits c p → p.cmd = cROUTE → exec (.routeWrite p c) s =
      .next ((here.putRoute n (p.var.toNat % 32) (p.data.getD 0 0)).accept (.core c) p)) ∧
    (s.Admits c p → p.cmd = cSTART → exec (.start p c) s =
      .next (here.modCore n (fun k => { k with load := { k.load with held := some p } }))) ∧
    ((s.core n).load.held = some p → (s.core n).loadReady p = true → s.coreTakes n = true → s.coreRefuses n 0 = none →
      exec (.programLoad c) s = .next ((s.setCore n ((s.core n).loaded n p)).accept (.core c) p) ∧
      ((s.core n).loaded n p).pc = 0 ∧ ((s.core n).loaded n p).run = .running ∧
      ((s.core n).loaded n p).greg 15 = BitVec.ofNat 32 n ∧ ((s.core n).loaded n p).plen = startLen p ∧
      ((s.core n).loaded n p).rows = (s.core n).rows ∧ ((s.core n).loaded n p).tags = (s.core n).tags) ∧
    (s.Admits c p → p.cmd = cSTOP → (s.core n).run = .idle → (s.core n).stop = .none →
      exec (.stop p c) s = .next ((here.modCore n (fun k => k.takeStop false 0)).accept (.core c) p)) ∧
    (s.Admits c p → p.cmd = cTALLY → exec (.tallyArrival p) s = .next ((here.modCore n (fun k =>
      { k with tsum := k.tsum + BitVec.ofNat 32 (tallyField p 0),
               tcnt := BitVec.ofNat 32 (min (k.tcnt.toNat + tallyField p 1) (2 ^ 32 - 1)) })).accept (.core c) p))

/-- Derived (R143, R145, R158). READ_DATA, PASS_DONE, ANSWER and FAULT_REPORT at their targets: an engine of a hub takes its
data, its pass's done counts and its answers; a core's refused answers are counted for its context; a report lies in the
mailbox of the half-die for Helm firmware. -/
def Obligations.ResponsesComplete : Prop :=
  ∀ (h i : Nat) (c : CoreAddr) (p : Packet) (s : State),
    (p.cmd = cRDATA → addrEp p.target p.tkind = .hub h i → s.standsAt (.hub h i) p = true → 1 ≤ i → i ≤ 4 →
      exec (.readData p) s = .next ((s.arrive (.hub h i) p).engineData h (i - 1) p)) ∧
    (p.cmd = cDONE → addrEp p.target p.tkind = .hub h i → s.standsAt (.hub h i) p = true → 1 ≤ i → i ≤ 4 →
      exec (.passDone p) s = .next ((s.arrive (.hub h i) p).engineDone h (i - 1) p)) ∧
    (p.cmd = cANSWER → addrEp p.target p.tkind = .hub h i → s.standsAt (.hub h i) p = true → 1 ≤ i → i ≤ 4 →
      exec (.answer p) s = .next ((s.arrive (.hub h i) p).engineAnswer h (i - 1) p)) ∧
    (p.cmd = cANSWER → s.Admits c p → tallyField p 2 = 1 → tallyField p 0 = 0 → tallyField p 3 = 0 →
      ∃ t, exec (.answer p) s = .next t ∧
        t.reg .ROSE_CTX_REFUSE_RST (dieOf c.toNat * 1024 + p.ctx.toNat) =
          min (s.reg .ROSE_CTX_REFUSE_RST (dieOf c.toNat * 1024 + p.ctx.toNat) + 1) (2 ^ 20 - 1) ∧
        t.reg .CTX_EVENT_REFUSE p.ctx.toNat = 1) ∧
    (p.cmd = cFAULT → addrEp p.target p.tkind = .hub h 0x0D → s.standsAt (.hub h 0x0D) p = true →
      exec (.faultReport p) s = .next ((s.arrive (.hub h 0x0D) p).faultArrives h p))

/-- Derived (R137 to R139, R151 to R153, R159, R162). What forwards: a packet that waits behind none of its flow at a router that is
awake and unbraked goes one router on, one at an endpoint enters the router above it, and a tally slot whose hold has ended takes
its output, when the next buffer has room and the output chooses the channel. The packet moves, and nothing but the net changes, but
that a tile port whose packet has left goes on with the entries it has taken. -/
def Obligations.RoutersForward : Prop :=
  ∀ (i : Nat) (s : State) (f : Flight) (q : Packet) (l : Loc) (n idx : Nat),
    (s.net.flights[i]? = some f → routerOf f.loc = some (n, idx) → s.routerHeld n idx = false → behind s.net.flights i f = false →
      tallyClass f.pkt = false → f.left = none → s.hop f = some (.go [(q, l)]) → s.starts n idx (q, l) = true →
      ∃ t, exec (.routerForward i) s = .next t ∧ t = { s with net := t.net } ∧ t.net.slots = s.net.slots ∧
        t.net.flights = dropAt s.net.flights i ++ [⟨q, l, false, none⟩]) ∧
    (∀ e : Ep, s.net.flights[i]? = some f → f.loc = .out e → s.outHeld e = false →
      (∀ g ∈ s.net.flights.take i, g.loc = .out e → pChan g.pkt ≠ pChan f.pkt) → s.room f.pkt (s.entry e f.pkt) = true →
      s.chosen (.ep e) (s.readyOut e) (pChan f.pkt) = true →
      ∃ t : State, exec (.routerForward i) s = .next (t.afterOut e) ∧ t = { s with net := t.net } ∧ t.net.slots = s.net.slots ∧
        t.net.flights = dropAt s.net.flights i ++ [⟨f.pkt, s.entry e f.pkt, false, none⟩] ∧
        ((∀ d j, e ≠ .tile d j) → t.afterOut e = t)) ∧
    (∀ r : Slot, s.net.slots[i]? = some r → s.routerHeld r.lvl r.idx = false → r.out = .up → r.comb = true →
      s.room r.pkt r.nxt = true → s.chosen (.router r.lvl r.idx .up) (.tally :: s.readyAt r.lvl r.idx .up) .tally = true →
      ∃ t, exec (.tallyHoldExpire i) s = .next t ∧ t = { s with net := t.net } ∧ t.net.slots = dropAt s.net.slots i ∧
        t.net.flights = s.net.flights ++ [⟨r.pkt, r.nxt, true, none⟩])

/-- Derived (R161, R162). An idle core and a quiet router sleep, a header that waits for them, there or at the sending side, starts
their waking, or under the brake is latched for one, and a waking ends. While an element sleeps or wakes its buffers take no header. -/
def Obligations.SleepAndWakeComplete : Prop :=
  ∀ (c : CoreAddr) (level : Fin 11) (index : Nat) (s : State),
    (s.reg .ROSE_MODE_CORE_SLEEP 0 = 1 → s.absent c.toNat = false → (s.core c.toNat).asleep = false →
      (s.core c.toNat).waking = false → (s.core c.toNat).bleaching = false → (s.core c.toNat).inq = [] →
      (s.core c.toNat).run = .idle → (∀ f ∈ s.net.flights, f.loc ≠ .at_ (.core c)) →
      exec (.coreSleep c) s = .next (s.modCore c.toNat (fun k => { k with asleep := true }))) ∧
    (s.reg .ROSE_MODE_RTR_SLEEP 0 = 1 → s.hasRouter level index = true → (level.val, index) ∉ s.net.asleep →
      (level.val, index) ∉ s.net.waking → s.net.flights = [] → s.net.slots = [] → s.belowAsleep level index = true →
      exec (.routerSleep level index) s = .next { s with net := { s.net with asleep := (level.val, index) :: s.net.asleep } }) ∧
    (s.awaited (fun l => decide (l = .at_ (.core c))) = true → (s.core c.toNat).asleep = true → s.braked c.toNat = false →
      exec (.wake (.core c)) s = .next (s.modCore c.toNat (fun k => { k with asleep := false, waking := true, wakeDue := false }))) ∧
    (s.awaited (fun l => decide (routerOf l = some (level.val, index))) = true → (level.val, index) ∈ s.net.asleep →
      s.routerBraked level index = false →
      exec (.wake (.router level index)) s = .next (s.wakeRouter (level.val, index)) ∧
      (level.val, index) ∉ (s.wakeRouter (level.val, index)).net.asleep) ∧
    (∀ f ∈ s.net.flights, f.loc = .at_ (.core c) ∨ f.loc = .out (.core c) ∧ s.entry (.core c) f.pkt = .at_ (.core c) →
      s.awaited (fun l => decide (l = .at_ (.core c))) = true) ∧
    ((s.core c.toNat).asleep = true ∨ (s.core c.toNat).waking = true → ∀ p : Packet, s.room p (.at_ (.core c)) = false) ∧
    (s.awaited (fun l => decide (l = .at_ (.core c))) = true → (s.core c.toNat).asleep = true → s.braked c.toNat = true →
      exec (.wake (.core c)) s = .next (s.modCore c.toNat (fun k => { k with wakeDue := true }))) ∧
    ((s.core c.toNat).waking = true →
      exec (.wakeDone (.core c)) s = .next (s.modCore c.toNat (fun k => { k with waking := false }))) ∧
    exec (.wakeDone (.router level index)) s =
      .next { s with net := { s.net with waking := s.net.waking.filter (fun r => r ≠ (level.val, index)) } }

/-- Derived (R156's rows for a core). What the NI of a core refuses: a core in the reset sink, of a BLEACHING context or in the Bleach of
a kill that has not ended answers RST; a core that another context holds answers DEN to a context other than 0; a core nobody
holds answers RST; context 0 and the holder are taken. -/
def Obligations.CoreAdmission : Prop :=
  ∀ (s : State) (c x : Nat), x ≠ 0 →
    ((s.core c).sink = true → s.coreRefuses c x = some .rst ∧ s.coreRefuses c 0 = some .rst) ∧
    (s.killBleach c = true → s.coreRefuses c x = some .rst ∧ s.coreRefuses c 0 = some .rst) ∧
    (s.holder c = none → s.coreRefuses c x = some .rst) ∧
    (∀ y, s.holder c = some y → s.reg .CTX_STATE_STATE y = 6 → s.coreRefuses c x = some .rst ∧ s.coreRefuses c 0 = some .rst) ∧
    ((s.core c).sink = false → s.killBleach c = false →
      (s.holder c = none → s.coreRefuses c 0 = none) ∧
      (∀ y, s.holder c = some y → s.reg .CTX_STATE_STATE y ≠ 6 →
        s.coreRefuses c y = none ∧ s.coreRefuses c 0 = none ∧ (y ≠ x → s.coreRefuses c x = some .den)))

/-! ## HBM (07) -/

/-- Derived (R168 to R171). A MEM_WRITE that a controller serves writes its bytes at the stack's device address, and a
MEM_READ that it serves completes and changes no byte, core or context. -/
def Obligations.HbmAccessesComplete : Prop :=
  ∀ (h : Nat) (p : Packet) (ecc : List AtomEcc) (s : State), addrEp p.target p.tkind = .hub h 0 → s.standsAt (.hub h 0) p = true →
    (p.cmd = cMEMW → s.hbmAdmit h (pOff p * 16) (p.data.length * 16) = .serve →
      exec (.memWrite p ecc) s = .next (((((s.homeFirst (h * s.stackE + pOff p * 16) (p.data.length * 16)).hbmAccept h (pHint p)
        (atomMasks (pOff p * 16) (p.data.length * 16)) ecc).hbmWrite (h * s.stackE + pOff p * 16) (pBytes p)).accept
        (.hub h 0) p).arrive (.hub h 0) p)) ∧
    (p.cmd = cMEMR → s.hbmAdmit h (pOff p * 16) (p.count.toNat * 16) = .serve →
      ∃ t, exec (.memRead p ecc) s = .next t ∧ t.hbm = s.hbm ∧ t.cores = s.cores ∧ t.ctxs = s.ctxs)

/-- Derived (R170, R172, R174, R175, R179, R382). The controllers' own work: a pseudo-channel's write queue drains, a refresh
closes its bank's row and is counted, an idle row closes, a scrub read meets one atom, a temperature crossing 85 °C is
shown and reported. A drain and a refresh leave the bytes of HBM. -/
def Obligations.HbmBackgroundComplete : Prop :=
  ∀ (stack : Fin 16) (pc : Fin 64) (bank : Fin 64) (s : State),
    let h := stack.val
    (s.stackUp h = true → (∀ e ∈ (s.stk h).wq, e.pc = (stackPlace (e.atom * 64)).1) →
      ∃ t, exec (.hbmWriteQueueDrain stack pc) s = .next t ∧ t.hbm = s.hbm ∧
        (t.stk h).wq = (s.stk h).wq.filter (fun e => !(e.pc == pc.val))) ∧
    (s.stackUp h = true → ∃ t, exec (.hbmRefresh stack pc bank) s = .next t ∧ t.hbm = s.hbm ∧
      Tbl.getD (t.stk h).refreshed (pc.val, bank.val) (0, 0) =
        ((Tbl.getD (s.stk h).refreshed (pc.val, bank.val) (0, 0)).1 + 1, s.refreshEvery h) ∧
      (t.stk h).openRows = ((s.stk h).closeRow pc bank).openRows ∧ (t.stk h).wq = (s.stk h).wq) ∧
    (exec (.hbmOpenIdle stack pc bank) s = .next (s.modStk h (fun k => k.closeRow pc bank))) ∧
    (exec (.hbmNeighbourRefresh stack pc bank) s = .next (s.neighbourRefresh h pc bank)) ∧
    (∀ atom, s.stackUp h = true → s.reg .HBM_STATE_STATE h = 2 → s.reg .HBM_CTL_SCRUB_EN h = 1 → atom < stackAtoms →
      exec (.hbmScrubRead stack atom ⟨0, .clean⟩) s =
        .next (s.readAtoms h 0 (s.uncovered h (atom * 64) 64) [⟨0, .clean⟩]).1) ∧
    (∀ temp, h < 2 * s.dies → temp < 256 → ∃ t, exec (.hbmHot stack temp) s = .next t ∧
      t.reg .HBM_STATE_TEMP h = temp ∧ t.reg .HBM_STATE_HOT h = (if 85 < temp then 1 else 0))

/-- Derived (R181, R183 to R185, R356, R397). Rate changes and retraining: a GO in READY enters FREQ_CHANGE, and its end loads the rate,
switches the timing set and returns to READY, or retrains where the loop has coasted meanwhile; a retraining request, the sixteenth interface error of a millisecond or a
temperature 20 degrees from that of the last training enters RETRAIN in READY, an earlier interface error changes no state of
the stack, and its success returns to READY, after two failures at the next lower rate, while the third failure in a row loses
the stack. The end of a rate change and a retraining that succeeds leave the bytes of HBM. -/
def Obligations.HbmRateAndRetrainComplete : Prop :=
  ∀ (d : Fin 8) (q : Fin 4) (stack : Fin 16) (v : BitVec 32) (s : State),
    let h := stack.val
    (s.access (.helm d q) .HBM_FREQ_REQ h 0 true = .granted → s.reg .HBM_STATE_STATE h = 2 → natBits v.toNat 2 1 = 1 →
      exec (.hbmFreqReq (.helm d q) stack v) s = .next ((s.setReg .HBM_FREQ_REQ_FREQ h (natBits v.toNat 0 2)).hbmState h 3)) ∧
    (s.reg .HBM_STATE_STATE h = 3 → s.gateOn (h / 2) (h % 2) = true → ∃ t, exec (.hbmFreqChangeDone stack) s = .next t ∧
      t.reg .HBM_STATE_STATE h = (if (s.stk h).recoast then 4 else 2) ∧
      t.reg .HBM_STATE_FREQ h = s.reg .HBM_FREQ_REQ_FREQ h % 4 ∧ t.reg .HBM_STATE_TSET h = (s.reg .HBM_STATE_TSET h + 1) % 2 ∧
      t.hbm = s.hbm) ∧
    (s.access (.helm d q) .HBM_RETRAIN_REQ h 0 true = .granted → s.reg .HBM_STATE_STATE h = 2 → v.toNat % 2 = 1 →
      exec (.hbmRetrainReq (.helm d q) stack v) s = .next (s.hbmState h 4)) ∧
    (∀ c : RetrainCause, (c = .commandParity ∨ ∃ n, 4 < n ∧ c = .writeCrc n) → s.stackUp h = true → s.reg .HBM_STATE_STATE h = 2 →
      ∃ t, exec (.hbmRetrainTrigger stack c) s = .next t ∧ t.hbm = s.hbm ∧
        t.reg .HBM_STATE_STATE h =
          if 15 ≤ ((s.stk h).errs.filter (fun u => decide ((s.timer + 2 ^ 48 - u) % 2 ^ 48 < 1000000))).length then 4 else 2) ∧
    (∀ n, n ≤ 4 → exec (.hbmRetrainTrigger stack (.writeCrc n)) s = .next s) ∧
    (∀ deg, s.stackUp h = true → s.reg .HBM_STATE_STATE h = 2 → ((s.stk h).trainTemp + 20 ≤ deg ∨ deg + 20 ≤ (s.stk h).trainTemp) →
      ∃ t, exec (.hbmRetrainTrigger stack (.temperature deg)) s = .next t ∧ t.reg .HBM_STATE_STATE h = 4) ∧
    (s.reg .HBM_STATE_STATE h = 4 → s.gateOn (h / 2) (h % 2) = true → s.reg .PKG_STATE_STATE 0 ≠ 3 →
      ∃ t, exec (.hbmRetrainDone stack true) s = .next t ∧ t.reg .HBM_STATE_STATE h = 2 ∧
        t.reg .HBM_STATE_FAILS h = 0 ∧ t.hbm = s.hbm ∧
        (s.reg .HBM_STATE_FAILS h = 2 → s.reg .HBM_STATE_FREQ h < 3 → t.reg .HBM_STATE_FREQ h = s.reg .HBM_STATE_FREQ h + 1)) ∧
    (s.reg .HBM_STATE_STATE h = 4 → s.gateOn (h / 2) (h % 2) = true → s.reg .HBM_STATE_FAILS h < 2 →
      ∃ t, exec (.hbmRetrainDone stack false) s = .next t ∧ t.reg .HBM_STATE_STATE h = 4 ∧
        t.reg .HBM_STATE_FAILS h = s.reg .HBM_STATE_FAILS h + 1) ∧
    (s.reg .HBM_STATE_STATE h = 4 → s.gateOn (h / 2) (h % 2) = true → s.reg .HBM_STATE_FAILS h = 2 →
      ∃ t, exec (.hbmRetrainDone stack false) s = .next t ∧ t.reg .HBM_STATE_STATE h = 5)

/-- Derived (R129, R130, R132). A core that ends its Bleach is as after a start but for its row map and counters; a stack
that ends its part of a context's Bleach holds zeros there. -/
def Obligations.BleachesComplete : Prop :=
  (∀ (c : CoreAddr) (s : State), (s.core c.toNat).bleaching = true → s.braked c.toNat = false → ∃ t,
    exec (.coreBleachDone c) s = .next t ∧ t.core c.toNat = (s.core c.toNat).bleached ∧ t.hbm = s.hbm ∧
    t.start.resetCores = s.start.resetCores.erase c.toNat) ∧
  (∀ (x : Fin 1024) (stack : Fin 16) (s : State), s.reg .CTX_STATE_STATE x = 6 → stack.val ∈ (s.ctx x).owedStacks → ∃ t,
    exec (.hbmBleachDone x stack) s = .next t ∧
    t.hbm = s.hbm.filter (fun c => !inRanges (s.areasOn x stack) c.1) ∧
    (∀ a, memGet t.hbm a = if inRanges (s.areasOn x stack) a then 0 else memGet s.hbm a))

/-! ## Rings, doorbells and descriptors (10, 11) -/

/-- Derived (R220, R226, R239, R240, R252). Ring work. A context reads the slot at its head and takes it when its
generation matches the lap, else notes the mismatch; a poll reads the slot again. SQ_TAIL, EVENT_ACK, CQ_HEAD and
STREAM_ARM act on the context whose page they are written to, through a PF or a VF. -/
def Obligations.RingsComplete : Prop :=
  ∀ (x : Fin 1024) (b : List Byte) (via : Via) (v : BitVec 64) (s : State),
    let d : BitVec 512 := BitVec.ofNat 512 (bytesNat (b.take 64))
    let u := (s.useTr x (s.sqAddr x / 4096) (s.ringPasid x)).setTries x true 0
    (s.fetches x = true → s.translated x (s.sqAddr x / 4096) (s.ringPasid x) false = true →
      dGen d = s.reg .CTX_RING_POS_LAP x → u.openWaits x d = false →
      exec (.descriptorFetch x (.bytes b)) s = .next ((u.takeSlot x d).markElig x)) ∧
    (s.fetches x = true → s.translated x (s.sqAddr x / 4096) (s.ringPasid x) false = true →
      dGen d ≠ s.reg .CTX_RING_POS_LAP x → ∃ t, exec (.descriptorFetch x (.bytes b)) s = .next t ∧
        (t.ctx x).genWait = true ∧ (t.ctx x).copies = (s.ctx x).copies ∧
        t.reg .CTX_RING_POS_SQ_HEAD x = s.reg .CTX_RING_POS_SQ_HEAD x) ∧
    ((s.ctx x).genWait = true → exec (.ringPoll x (.bytes b)) s =
      exec (.descriptorFetch x (.bytes b)) (s.modCtx x (fun t => { t with genWait := false })) ∧
      ∃ t, exec (.ringPoll x (.bytes b)) s = .next t) ∧
    (s.Rings via x → exec (.sqTail via x v) s =
      .next (s.modCtx x (fun t => { t with sqTail := v.toNat % 2 ^ 16, genWait := false }))) ∧
    (s.Rings via x → ∃ t, exec (.eventAck via x v) s = .next t ∧ t = { s with regs := t.regs } ∧
      ∀ e ∈ [(0, Fld.CTX_EVENT_REFUSE), (1, .CTX_EVENT_DEADLINE), (2, .CTX_EVENT_STATE), (3, .CTX_EVENT_RING), (4, .CTX_EVENT_MSIX)],
        t.reg e.2 x = if natBits v.toNat e.1 1 = 1 then 0 else s.reg e.2 x) ∧
    (s.Rings via x → v.toNat % 2 ^ 16 < s.cqSize x →
      slotsTo (s.ctx x).cqHead (v.toNat % 2 ^ 16) (s.cqSize x) ≤
        slotsTo (s.ctx x).cqHead (s.reg .CTX_RING_POS_CQ_TAIL x) (s.cqSize x) →
      exec (.cqHead via x v) s = .next (s.cqHeadTo x (v.toNat % 2 ^ 16))) ∧
    (s.Rings via x → s.cqSize x ≤ v.toNat % 2 ^ 16 → exec (.cqHead via x v) s = .next (s.bump .CTX_ERR_DBELL x)) ∧
    (∀ q : Stream, s.Rings via x → s.stream x (natBits v.toNat 0 6) = some q → q.queued + natBits v.toNat 16 8 ≤ 255 →
      exec (.streamArmDoorbell via x v) s =
        .next (s.setStream x (natBits v.toNat 0 6) { q with queued := q.queued + natBits v.toNat 16 8 })) ∧
    (s.Rings via x → s.stream x (natBits v.toNat 0 6) = none →
      exec (.streamArmDoorbell via x v) s = .next ((s.bump .CTX_ERR_DBELL x).event .CTX_EVENT_RING x))

/-- Derived (R241, R247 to R249, R259, R269). A descriptor that begins and needs no engine: NOP and reserved operations
complete, FENCE and TIMESTAMP complete once every earlier one has, WAIT completes where its condition holds, FIX_OPEN,
FIX_CLOSE and FIX_ABORT act on the group they stand in; a SIGNAL begins its write, of its value or of the flag's sum with it.
A flag in host memory is within reach and translated, one in device memory can be read at once. -/
def Obligations.SmallDescriptorsComplete : Prop :=
  ∀ (x : Fin 1024) (i : Nat) (c k : Copy) (flag : FlagSeen) (s : State),
    let b := s.begun x i
    let d := dSpec c.bytes 16
    (b.ctx x).copy? i = some k →
    (s.Begins x i 0x00 c → exec (.descNop x i) s = .next (b.complete x i 0 0)) ∧
    (∀ op, 0x0F ≤ op → s.Begins x i op c → exec (.descNop x i) s = .next (b.complete x i 0x0001 0)) ∧
    (s.Begins x i 0x0D c → (s.ctx x).earlierDone i = true → (dF c.bytes 8 1 % 2 = 1 → s.armsDone x c.armsBefore = true) →
      exec (.fence x i) s = .next (b.complete x i 0 0)) ∧
    (s.Begins x i 0x0E c → (s.ctx x).earlierDone i = true → dF c.bytes 8 1 % 2 = 0 →
      exec (.timestamp x i) s = .next (b.complete x i 0 0)) ∧
    (s.Begins x i 0x0E c → (s.ctx x).earlierDone i = true → dF c.bytes 8 1 % 2 = 1 → ¬ (dMember c.bytes = true ∧ noMemberDst d = true) →
      b.rangeOk x d 8 = true → exec (.timestamp x i) s = .next (if dMember c.bytes then b.stampMember x k d
        else b.putBegins x (.desc i) d (natBytes (s.timer % 2 ^ 48) 8))) ∧
    (let e := b.modCopy x i (fun k => { k with eng := some (b.pickEngine x (d.kind == 0) d) })
     ∀ (t : State) (n : Nat), s.Begins x i 0x03 c → dF c.bytes 8 1 < 2 → badFlag d = false → e.rangeOk x d 8 = true →
      e.reads x d 8 = true → (e.readAs x i d).flagRead x i d flag = (t, some (7, n)) →
      waitHolds (dF c.bytes 8 1) (dF c.bytes 32 8) n = true → exec (.wait x i flag) s = .next (t.complete x i 0 0)) ∧
    (∀ (t : State) (n : Nat), (s.ctx x).copy? i = some c → c.waiting = true → s.pausedCtx x = false → s.heldFull x = false →
      dF c.bytes 8 1 < 2 → s.rangeOk x d 8 = true → s.reads x d 8 = true →
      (s.readAs x i d).flagRead x i d flag = (t, some (7, n)) →
      waitHolds (dF c.bytes 8 1) (dF c.bytes 32 8) n = true → exec (.waitPoll x i flag) s = .next (t.complete x i 0 0)) ∧
    (s.Begins x i 0x04 c → s.signalBusy x d = false → (s.ctx x).earlierDone i = true → dF c.bytes 8 1 = 0 → badFlag d = false →
      dMember c.bytes = false → b.rangeOk x d 8 = true →
      exec (.signal x i flag) s = .next (b.putBegins x (.desc i) d (natBytes (dF c.bytes 32 8) 8))) ∧
    (∀ (t : State) (n : Nat), s.Begins x i 0x04 c → s.signalBusy x d = false → (s.ctx x).earlierDone i = true →
      dF c.bytes 8 1 = 1 → badFlag d = false → dMember c.bytes = false → b.rangeOk x d 8 = true → b.reads x d 8 = true →
      (b.readAs x i d).flagRead x i d flag = (t, some (7, n)) →
      exec (.signal x i flag) s = .next (t.putBegins x (.desc i) d (natBytes ((n + dF c.bytes 32 8) % 2 ^ 64) 8))) ∧
    (∀ g, s.Begins x i 0x05 c → c.grp = some g → exec (.fixOpen x i) s = .next (b.complete x i 0 0)) ∧
    (s.Begins x i 0x05 c → c.grp = none → exec (.fixOpen x i) s = .next (b.complete x i 0x0001 0)) ∧
    (∀ (g : Nat) (q : Grp), s.Begins x i 0x06 c → c.grp = some g → (b.ctx x).grp? g = some q → q.st ≠ .aborted →
      exec (.fixClose x i) s = .next b) ∧
    (s.Begins x i 0x06 c → c.grp = none → exec (.fixClose x i) s = .next (b.complete x i 0x0001 0)) ∧
    (∀ (g : Nat) (q : Grp), s.Begins x i 0x07 c → c.grp = some g → (b.ctx x).grp? g = some q →
      exec (.fixAbort x i) s = .next (b.closeAborted x i q)) ∧
    (s.Begins x i 0x07 c → c.grp = none → exec (.fixAbort x i) s = .next (b.complete x i 0x0001 0))

/-- Derived (R203 to R205, R247, R251 to R253, R377). Streams and windows: a create, a destroy and an arm act on the
context's stream of that number, an arm in its turn becomes a transfer, a window takes a free entry and frees it again. -/
def Obligations.StreamsAndWindowsComplete : Prop :=
  ∀ (x : Fin 1024) (i : Nat) (n : Fin 64) (c : Copy) (q : Stream) (s : State),
    let b := s.begun x i
    let d := c.bytes
    (s.Begins x i 0x0C c → dSop d = 0 → dMember d = false → s.stream x (dStream d) = none →
      exec (.streamCreate x i) s = .next ((b.setStream x (dStream d) (Stream.create i d)).complete x i 0 0)) ∧
    (s.Begins x i 0x0C c → dSop d = 0 → s.stream x (dStream d) = some q →
      exec (.streamCreate x i) s = .next (b.complete x i 0x0001 0)) ∧
    (s.Begins x i 0x0C c → dSop d = 1 → dMember d = false → s.stream x (dStream d) = some q →
      exec (.streamDestroy x i) s = .next
        ((b.modCtx x (fun t => { t with streams := Tbl.erase t.streams (dStream d) })).complete x i 0
          (q.queued - (if q.inService.isSome then 1 else 0)))) ∧
    (s.Begins x i 0x0C c → dSop d = 1 → dMember d = false → s.stream x (dStream d) = none →
      exec (.streamDestroy x i) s = .next (b.complete x i 0 0)) ∧
    (s.Begins x i 0x0C c → dSop d = 2 → dMember d = false → s.stream x (dStream d) = some q → 0 < dF d 14 1 →
      q.queued + dF d 14 1 ≤ 255 → exec (.streamArm x i) s = .next
        ((b.setStream x (dStream d) { q with queued := q.queued + dF d 14 1 }).complete x i 0 0)) ∧
    (s.Begins x i 0x0C c → dSop d = 2 → s.stream x (dStream d) = none →
      exec (.streamArm x i) s = .next (b.complete x i 0x0001 0)) ∧
    (let j := q.served % q.wrap
     let src := armSpec q.src q.sadv j
     let dst := armSpec q.dst q.dadv j
     s.stream x n = some q → q.queued ≠ 0 → q.inService = none → s.cst x = 2 → (s.ctx x).busy = .none → s.heldFull x = false →
      exec (.streamArmService x n) s = .next
        (if s.xferOk x src dst (oneRun q.len0) then
          (s.setStream x n { q with inService := some s.nextId }).startXfer x (.arm q.id q.served q.seq q.flags)
            (s.pickEngine x (src.kind == 0 || dst.kind == 0) dst) src dst (.shape (oneRun q.len0)) [0, 0, 0, 0] s.timer
            (if natBits q.flags 2 1 = 1 then q.deadline else 0) false none
         else s.armDone x s.nextId q.id q.served q.seq q.flags 0x0102)) ∧
    (∀ w, s.agreed 0 3 = true → s.Begins x i 0x08 c → dF d 10 1 = 0 →
      b.windowOk x (dF d 16 8 % 2 ^ 48) (dF d 24 4 % 2 ^ 28 * 4096) = true → b.windowOf x (dF d 8 2 % 4096) = none →
      (List.range windowCount).find? (fun w => !b.regB .XFR_WIN_VALID w) = some w →
      exec (.windowOpen x i) s = .next ((b.putWindow w x d).complete x i 0 0)) ∧
    (s.agreed 0 3 = true → s.Begins x i 0x08 c → dF d 10 1 = 0 →
      b.windowOk x (dF d 16 8 % 2 ^ 48) (dF d 24 4 % 2 ^ 28 * 4096) = false →
      exec (.windowOpen x i) s = .next (b.complete x i 0x0102 0)) ∧
    (∀ w, s.agreed 0 3 = true → s.Begins x i 0x08 c → dF d 10 1 = 1 → b.windowOf x (dF d 8 2 % 4096) = some w →
      exec (.windowClose x i) s = .next ((b.dropWindow w).complete x i 0 0)) ∧
    (s.agreed 0 3 = true → s.Begins x i 0x08 c → dF d 10 1 = 1 → b.windowOf x (dF d 8 2 % 4096) = none →
      exec (.windowClose x i) s = .next (b.complete x i 0 0))

/-! ## Transfers (08) -/

/-- Derived (R190 to R195, R207 to R212, R214, R237, R242, R247). XFER, RESHARD and REDUCE that pass their checks put one
transfer into service; an XFER whose ranges fail completes with 0x0102; a piece is issued in its turn; a REDUCE whose links have
all come is computed; a transfer whose pieces have settled leaves and completes its descriptor. -/
def Obligations.TransfersComplete : Prop :=
  ∀ (x : Fin 1024) (i : Nat) (c k : Copy) (ext : FlagSeen) (dev : DevSeen) (s : State),
    let b := s.begun x i
    let d := c.bytes
    let src := dSpec d 16
    let dst := dSpec d 32
    ((b.ctx x).copy? i = some k →
    (∀ sh : Shape, s.Begins x i 0x01 c → ¬ (dMember d = true ∧ noMemberDst dst = true) → dF d 12 1 % 2 = 0 →
      sh = oneRun (dF d 48 8) → exec (.xfer x i ext) s = .next (if b.xferOk x src dst sh then
        b.startXfer x (.desc i) (b.pickEngine x (src.kind == 0 || dst.kind == 0) dst) src dst (.shape sh) [0, 0, 0, 0] (b.eligAt k)
          (realTime d) k.late k.stagesIn
        else b.complete x i 0x0102 0)) ∧
    (∀ (t : State) (l : List Byte), let m := shapeSpec d
      s.Begins x i 0x01 c → ¬ (dMember d = true ∧ noMemberDst dst = true) → dF d 12 1 % 2 = 1 →
      ¬ (m.kind = 1 ∧ 2 ^ 44 ≤ m.addr) → b.reads x m 128 = true → (b.readAs x i m).fetchBytes x m m.addr 128 ext = (t, 7, l) →
      t.xferOk x src dst (shapeOf l) = true →
      exec (.xfer x i ext) s = .next (t.startXfer x (.desc i)
        (t.pickEngine x (src.kind == 0 || dst.kind == 0 || m.kind == 0) dst) src dst (.shape (shapeOf l))
        (if (shapeOf l).cnt.any (· == 0) then [] else [0, 0, 0, 0]) (t.eligAt k) (realTime d) k.late k.stagesIn)) ∧
    (∀ (t u : State) (h r : List Byte), let n := bF h 0 4
      s.Begins x i 0x0B c → notHostDev src = false → b.rangeOk x src 16 = true → b.reads x src 16 = true →
      (b.readAs x i src).fetchBytes x src src.addr 16 ext = (t, 7, h) → 0 < n → n ≤ 65536 →
      t.rangeOk x src (16 + 32 * n) = true → t.reads x src (16 + 32 * n) = true →
      (t.readAs x i src).fetchBytes x src src.addr (16 + 32 * n) { ext with dev := seenPast ext.dev src.addr 16 } = (u, 7, r) →
      exec (.reshard x i ext) s =
        .next (u.reshardBegins x k (src.kind == 0) ((chunks 32 n (r.drop 16)).map reRecOf))) ∧
    (∀ (t : State) (l : List Byte),
      let links := (chunks 16 (dF d 52 2) l).map (fun e => specOf (bytesNat e))
      let op : RedOp := ⟨dF d 13 1, dF d 14 1, dF d 12 1 % 4, dF d 48 4, natBits (dF d 12 1) 2 1 == 1⟩
      s.Begins x i 0x0A c → badReduce d = false → ¬ (dMember d = true ∧ noMemberDst dst = true) →
      b.rangeOk x src (16 * dF d 52 2) = true → b.reads x src (16 * dF d 52 2) = true →
      (b.readAs x i src).fetchBytes x src src.addr (16 * dF d 52 2) ext = (t, 7, l) →
      (∀ k ∈ links, t.rangeOk x k op.len = true ∧ overlap k op.len dst (op.len / elemBytes op.lf * elemBytes op.rf) = false) →
      t.rangeOk x dst (op.len / elemBytes op.lf * elemBytes op.rf) = true →
      exec (.reduce x i ext) s = .next (t.startXfer x (.desc i)
        (t.pickEngine x (dst.kind == 0 || src.kind == 0 || links.any (fun k => k.kind == 0)) dst) (links.headD dst) dst
        (.reduce op (links.map (fun k => (k, t.egressOf k))) []) [] (t.eligAt k) (realTime d) k.late k.stagesIn))) ∧
    (∀ (n : Nat) (u : Xfer) (op : RedOp) (got : List Byte),
      let r := reduceAll op.lf op.rf op.how op.len op.ovf (chunks op.len (got.length + 1) got)
      s.xfer? n = some u → u.plan = .reduce op [] got → u.failed = false → u.hold = .none → u.pieces = [] → u.hostOut = [] →
      exec (.pieceIssue n) s = .next ((s.modXfer n (fun v => { v with
        plan := .result r.1, src := { v.dst with kind := 1 }, egrS := none, ix := [], i0 := 0 })).redStat (u.half / 2) r.2)) ∧
    (∀ (n : Nat) (u : Xfer) (k : Cut), let r := s.modXfer n (fun _ => u.nextRecord)
      s.xfer? n = some u → u.nextRecord.failed = false → s.mayIssue u = true →
      s.turnOf u = true → s.linkOk u = true → s.outstanding u.half u.eng < 256 → u.again = none → u.againRead = none →
      u.nextRecord.cut = some k → (u.nextRecord.sides.1 = true ∨ r.stageWaits u.nextRecord k.dst = false) →
      r.missingPage u.nextRecord k = none → exec (.pieceIssue n) s = .next ((r.issuePiece u.nextRecord k).settle n)) ∧
    (∀ (n : Nat) (u : Xfer), s.xfer? n = some u → u.role = .desc i → u.over = true → u.rank = 7 → u.late = false →
      s.passed u.t0 u.deadline = false → s.heldFull u.ctx = false → s.pausedCtx u.ctx = false → s.signalled u = none →
      exec (.transferComplete ⟨n, dev⟩) s =
        .next (({ s with xfers := s.xfers.filter (fun v => v.id != u.id) } : State).complete u.ctx i 0 0)) ∧
    (∀ (n : Nat) (u : Xfer), s.xfer? n = some u → u.late = false → s.passed u.t0 u.deadline = true →
      exec (.deadlineMiss n) s = .next ((s.modXfer u.id (fun v => { v with late := true })).missed u.ctx))

/-- Derived (R194, R197 to R202, R434). The host's side of a transfer: read data reaches its piece, an acknowledged write
leaves the list, a translation joins the cache of its port for its function, a Page Response or its timeout ends the page
request, an invalidation takes the translation it names and is answered once no piece issued under it is outstanding. A
translation leaves HBM and the cores. -/
def Obligations.HostSideComplete : Prop :=
  ∀ (port : Fin 2) (n k : Nat) (fn : PcieFn) (page : BitVec 64) (pasid : Option (BitVec 20)) (s : State),
    (s.port port).lost = false →
    (∀ (u : Xfer) (data : HostData), s.xfer? n = some u → s.xport u = port.val → (∃ p ∈ u.pieces, p.n = k ∧ hostDue p = true) →
      exec (.hostReadCompletion port n k data) s =
        .next ((((s.badCompletion port data).modXfer n (fun u =>
          { (if data.get?.isSome then u else u.fail 2) with pieces := fillHost k data.get? u.pieces })).settle n).invalsDone port)) ∧
    (∀ u : Xfer, s.xfer? n = some u → s.xport u = port.val → exec (.hostWriteAck port n k) s =
      .next (((s.modXfer n (fun u => { u with hostOut := u.hostOut.filter (fun w => w.n != k || !w.sent) })).settle n).invalsDone port)) ∧
    (∀ r w, fn.port = port → (s.port port).ats = true → (r || w) = true →
      ∃ t, exec (.atsTranslationCompletion fn page pasid r w) s = .next t ∧ t.hbm = s.hbm ∧ t.cores = s.cores ∧
        (⟨page.toNat, pasid.map (·.toNat), fn.vf, r, w⟩ : Tr) ∈ (t.port port).atc) ∧
    (s.asked port n = true → exec (.pageResponse port n .success) s = .next (s.pageEnds port n true)) ∧
    (∀ code, code ≠ .success → s.asked port n = true → exec (.pageResponse port n code) s = .next (s.pageEnds port n false)) ∧
    (∀ e, (s.port port).pri.find? (fun e => e.t == n) = some e →
      1000000 * max 1 (s.reg .XFR_PRI_CTL_TIMEOUT port) ≤ (s.timer + 2 ^ 48 - e.at_) % 2 ^ 48 →
      exec (.pageResponseTimeout port n) s = .next (s.pageEnds port n false)) ∧
    (fn.port = port → s.pageBusy port page.toNat (pasid.map (·.toNat)) fn.vf = false → (s.port port).inval = [] →
      ∃ t, exec (.atsInvalidation fn page pasid) s = .next t ∧ t.xfers = s.xfers ∧ t.hbm = s.hbm ∧
        t.out = s.out ++ [.invalDone port fn.vf page.toNat (pasid.map (·.toNat))] ∧
        ∀ e, e ∈ (t.port port).atc ↔ e ∈ (s.port port).atc ∧ e.is page.toNat (pasid.map (·.toNat)) fn.vf = false)

/-! ## Passes, the Logbook and Fix groups (11) -/

/-- Derived (R108, R110, R250, R272 to R279, R377). A LAUNCH that begins puts a pass into service, with its input list where the
mode covers it; one whose image is refused completes. In service, a pass writes its record once it may, and sends its image and
START once no earlier pass needs its cores, or completes where its image is no longer sound. A spare serves a core that failed, when
a second processor has agreed; where none can check it, the core becomes absent; an abandoned pass that is to be replayed runs again. -/
def Obligations.LaunchesComplete : Prop :=
  ∀ (x : Fin 1024) (i : Nat) (c k : Copy) (dev : DevSeen) (s : State),
    let b := s.begun x i
    let p := b.newPass k
    let rest := fun (t : State) (l : List (List Byte)) => seenPast (t.pastImage p.image dev) (dF c.bytes 32 8) (32 * l.length)
    let put := fun (s : State) (l : List (List Byte)) => { s with nextId := s.nextId + 1 }.modCtx x (fun t =>
      { t with passes := t.passes ++ [{ p with inputs := l }] })
    ((b.ctx x).copy? i = some k →
    (∀ t : State, s.Begins x i 0x02 c → s.launchWaits x c = false → (s.ctx x).passes.find? (fun q => q.copy == i) = none →
      b.imageBad x p.image dev = (t, none) → t.covers k = false →
      exec (.launch x ⟨i, dev⟩) s = .next (((put t []).passGo x p.id false (rest t [])).retirePasses x)) ∧
    (∀ (t : State) (st : Nat), s.Begins x i 0x02 c → s.launchWaits x c = false →
      (s.ctx x).passes.find? (fun q => q.copy == i) = none → b.imageBad x p.image dev = (t, some st) →
      exec (.launch x ⟨i, dev⟩) s = .next ((t.complete x i st 0).retirePasses x)) ∧
    (∀ (t u : State) (l : List (List Byte)), s.Begins x i 0x02 c → s.launchWaits x c = false →
      (s.ctx x).passes.find? (fun q => q.copy == i) = none → b.imageBad x p.image dev = (t, none) → t.covers k = true →
      recLen (dF c.bytes 40 2) ≤ t.logSize x → t.readInputs x k p (t.pastImage p.image dev) = (u, .ok l) →
      exec (.launch x ⟨i, dev⟩) s = .next (((put u l).passGo x p.id false (rest t l)).retirePasses x))) ∧
    (∀ q : Pass, (s.ctx x).copy? i = some c → (s.ctx x).passes.find? (fun q => q.copy == i) = some q →
      (s.ctx x).passes.find? (fun r => r.id == q.id) = some q → s.pausedCtx x = false →
      (∀ t : State, q.st = .waitsCores → s.mayLoad x q = true → s.imageWaits q.image = false →
        s.imageBad x q.image dev = (t, none) → exec (.launch x ⟨i, dev⟩) s = .next ((t.sendImage x q).retirePasses x)) ∧
      (∀ (t : State) (st : Nat), q.st = .waitsCores → s.mayLoad x q = true → s.imageWaits q.image = false →
        s.imageBad x q.image dev = (t, some st) →
        exec (.launch x ⟨i, dev⟩) s = .next ((t.refusePass x q st).retirePasses x)) ∧
      (q.st = .waitsLog → s.logWaits x q = false →
        exec (.launch x ⟨i, dev⟩) s = .next (((s.recordPass x q dev).loadPass x q.id (some (s.pastCaptures q dev))).retirePasses x))) ∧
    (∀ (core : CoreAddr) (sp : Nat), s.failedCore core.toNat = true → s.agreed (dieOf core.toNat) 1 = true →
      s.nextSpare core.toNat = some sp → ∃ t, exec (.coreSpareAssign core true) s = .next t ∧
        Tbl.get? t.net.mapped core.toNat = some sp ∧ t.net.absent = s.net.absent ∧ ∃ l, t.core core.toNat = Core.withBad l) ∧
    (∀ core : CoreAddr, s.failedCore core.toNat = true → s.agreed (dieOf core.toNat) 1 = true → s.nextSpare core.toNat = none →
      ∃ t, exec (.coreSpareAssign core true) s = .next t ∧ t.absent core.toNat = true) ∧
    (∀ (core : CoreAddr) (a : Bool), s.failedCore core.toNat = true → s.canCheck (dieOf core.toNat) = false →
      ∃ t, exec (.coreSpareAssign core a) s = .next t ∧ t.absent core.toNat = true) ∧
    (∀ (n : Nat) (q : Pass) (t u : State) (r : Refill), (s.ctx x).passes.find? (fun r => r.id == n) = some q → q.toReplay = true →
      s.pausedCtx x = false → s.heldFull x = false → s.replayWaits x q = false → s.inputsSame x q q.inputs dev = (u, some true) →
      u.refillAll x q (s.pastCaptures q dev) = r → r.ok = some true → r.s.imageBad x q.image r.dev = (t, none) → exec (.replay x ⟨n, dev⟩) s = .next (t.relaunch x q))

/-- Derived (R265 to R267, R270). A closed group whose members have completed flips once every earlier one has or has
aborted; a page goes home; of a flipped group whose writes have settled one SIGNAL after the other begins its write, and with
none left the group is published and its FIX_CLOSE completes. -/
def Obligations.GroupsPublish : Prop :=
  ∀ (x : Fin 1024) (stack : Fin 16) (page : Nat) (flag : FlagSeen) (s : State),
    (∀ q : Grp, s.pausedCtx x = false → s.cst x ≠ 6 → (s.ctx x).grps.find? (s.flippable x) = some q →
      exec (.fixFlip x) s = .next (s.flip x q)) ∧
    (∀ l, s.stackOf (page * 4096) = stack.val → s.hbmWaits (page * 4096) 4096 = false → s.reg .HBM_STATE_STATE stack ≠ 5 →
      s.staged page = some l →
      ∃ t, exec (.fixPageCopyHome stack page) s = .next t ∧ t.hbm = memPut s.hbm (page * 4096) l ∧ t.cores = s.cores ∧ t.net = s.net) ∧
    (∀ q : Grp, s.pausedCtx x = false → s.cst x ≠ 6 → s.heldFull x = false → (s.ctx x).grps.find? Grp.written = some q →
      q.sigNow = false → q.sigsLeft = [] → exec (.fixPublishSignals x flag) s = .next (s.publish x q)) ∧
    (∀ (q : Grp) (d : BitVec 512) (l : List (BitVec 512)), s.pausedCtx x = false → s.cst x ≠ 6 → s.heldFull x = false →
      (s.ctx x).grps.find? Grp.written = some q → q.sigNow = false → q.sigsLeft = d :: l → dF d 8 1 = 0 →
      s.signalBusy x (dSpec d 16) = false → s.rangeOk x (dSpec d 16) 8 = true → exec (.fixPublishSignals x flag) s =
        .next ((s.putBegins x (.sig q.id) (dSpec d 16) (natBytes (dF d 32 8) 8)).modGrp x q.id
          (fun q => { q with sigs := some (q.sigsLeft.drop 1), sigNow := true })))

/-! ## Contexts and the package (10) -/

/-- Derived (R226, R234 to R236). The commands to a context: OPEN of a FREE context gives it to the port; RUN takes
hold or goes on, and in a wrong state sets CMDERR 1; STOP and PAUSE begin; reserved codes set CMDERR 2; STOP and PAUSE end in STOPPED and PAUSED. -/
def Obligations.ContextCommandsComplete : Prop :=
  ∀ (port : Fin 2) (x : Fin 1024) (s : State),
    (s.access (.port port) .CTX_CMD x 0 true = .granted → x ≠ 0 → s.isBusy x = false → s.cst x = 0 →
      exec (.ctxOpen port x) s = .next (s.openCtx port x) ∧ (s.openCtx port x).cst x = 1 ∧ (s.openCtx port x).owns port x = true ∧
      (s.openCtx port x).cores = s.cores ∧ (s.openCtx port x).hbm = s.hbm) ∧
    (s.Commands port x 1 → s.reg .PKG_STATE_STATE 0 = 0 → s.holdErr x = 0 → ∃ t, exec (.ctxRun port x) s = .next t ∧
      t.cst x = 2 ∧ (t.ctx x).holds = true ∧ t.reg .CTX_STATE_CMDERR x = 0 ∧ t.hbm = s.hbm) ∧
    (s.Commands port x 1 → s.reg .PKG_STATE_STATE 0 = 0 → s.holdErr x ≠ 0 →
      exec (.ctxRun port x) s = .next (s.cmdErr x (s.holdErr x))) ∧
    (s.Commands port x 4 → s.reg .PKG_STATE_STATE 0 = 0 →
      exec (.ctxRun port x) s = .next (((s.setReg .CTX_STATE_STATE x 2).cmdDone x).markElig x)) ∧
    (∀ st, s.Commands port x st → st ≠ 1 → st ≠ 4 → exec (.ctxRun port x) s = .next (s.cmdErr x 1)) ∧
    (s.Commands port x 2 → exec (.ctxStop port x) s =
      .next (((s.dropWaits x).modCtx x (fun t => { t with busy := .stopping })).cmdBusy x)) ∧
    ((s.ctx x).busy = .stopping → s.cst x = 2 → s.allEnded x = true → ∃ t, exec (.ctxStopDone x) s = .next t ∧ t.cst x = 4 ∧
      t.isBusy x = false ∧ t.reg .CTX_EVENT_STATE x = 1 ∧ t.cores = s.cores ∧ t.hbm = s.hbm) ∧
    (∀ st, st = 2 ∨ st = 4 → s.Commands port x st → exec (.ctxPause port x) s = .next ((s.pauseCtx x 2).cmdErr x 0)) ∧
    ((s.ctx x).busy = .pausing → s.paused x = true → s.recordWaits x = false → ∃ t, exec (.ctxPauseDone x) s = .next t ∧ t.cst x = 3 ∧
      t.isBusy x = false ∧ (t.ctx x).holds = false ∧ (t.ctx x).busy = .none) ∧
    (s.access (.port port) .CTX_CMD x 0 true = .granted → x ≠ 0 → s.owns port x = true →
      exec (.ctxCmdReserved port x) s = .next (s.cmdErr x 2))

/-- Derived (R112, R129 to R132, R234 to R236). RESUME begins, and each saved core comes back from its image, or idle
at PC 0 where the image cannot be read; the context goes on once all have; KILL acts from every state but FREE and
BLEACHING. -/
def Obligations.ResumeAndKillComplete : Prop :=
  ∀ (port : Fin 2) (x : Fin 1024) (c : CoreAddr) (s : State),
    let n := c.toNat
    let u := (s.hbmSeen (s.imageAt x n) 5120 []).1.modCtx x (fun t => { t with toRestore := t.toRestore.erase n })
    (s.Commands port x 3 → s.regB .CTX_STATE_PKG_HELD x = false → s.reg .PKG_STATE_STATE 0 = 0 → s.holdErr x = 0 →
      exec (.ctxResume port x) s = .next (s.resumeCtx x)) ∧
    (s.Commands port x 3 → s.regB .CTX_STATE_PKG_HELD x = true → exec (.ctxResume port x) s = .next (s.cmdErr x 6)) ∧
    (s.holder n = some x.val → (s.ctx x).busy = .resuming → n ∈ (s.ctx x).toRestore → (s.core n).bleaching = false →
      s.braked n = false → s.restoreWaits x n = false → (s.hbmSeen (s.imageAt x n) 5120 []).2 = none → exec (.coreRestore c true) s =
        .next (u.setCore n ((u.reload x n (u.core n)).ofImage (u.hbmBytes (u.imageAt x n) 5120)))) ∧
    (s.holder n = some x.val → (s.ctx x).busy = .resuming → n ∈ (s.ctx x).toRestore → (s.core n).bleaching = false →
      s.braked n = false → s.restoreWaits x n = false → ∃ t, exec (.coreRestore c false) s = .next t ∧ t.core n = (u.reload x n (s.core n)).unrestored n ∧
        (t.core n).run = .idle ∧ (t.core n).pc = 0 ∧ t.hbm = s.hbm ∧ (t.ctx x).toRestore = (s.ctx x).toRestore.erase n) ∧
    ((s.ctx x).busy = .resuming → (s.ctx x).toRestore = [] → (∀ k ∈ s.coresOf x, (s.core k).bleaching = false) →
      s.ratesSettled = true → s.recordWaits x = false → exec (.ctxResumeDone x) s = .next ((s.continueCtx x).pauseAgain x)) ∧
    (∀ st ∈ [1, 2, 3, 4, 5], s.Commands port x st → exec (.ctxKill port x) s = .next ((s.cmdErr x 0).killCtx x true)) ∧
    (∀ st, st = 0 ∨ 6 ≤ st → s.Commands port x st → exec (.ctxKill port x) s = .next (s.cmdErr x 1))

/-- Derived (R227 to R229, R231, R256). The setup lease and the package: a free lease is granted and its holder releases
it, which leaves the package as it is; STOP pauses every context that has cores, the package is STOPPED when all are
paused, RESTART resumes them, and the package runs again. -/
def Obligations.PackageCommandsComplete : Prop :=
  ∀ (port : Fin 2) (s : State),
    (s.access (.port port) .PKG_LEASE 0 0 true = .granted → s.reg .PKG_LEASE_HOLDER 0 = 0 →
      exec (.leaseAcquire port) s = .next (s.setReg .PKG_LEASE_HOLDER 0 (port + 1))) ∧
    (s.access (.port port) .PKG_LEASE 0 0 true = .granted → s.reg .PKG_LEASE_HOLDER 0 ≠ 0 → s.holdsLease port = false →
      exec (.leaseAcquire port) s = .next (s.violation port)) ∧
    (s.access (.port port) .PKG_LEASE 0 0 true = .granted → s.holdsLease port = true →
      exec (.leaseRelease port) s = .next (s.setReg .PKG_LEASE_HOLDER 0 0) ∧
      (s.setReg .PKG_LEASE_HOLDER 0 0).reg .PKG_STATE_STATE 0 = s.reg .PKG_STATE_STATE 0) ∧
    (s.leaseOver port = true → exec (.leaseTimeout port) s = .next (s.killPort port)) ∧
    (s.access (.port port) .PKG_CTL 0 0 true = .granted → s.holdsLease port = true → s.reg .PKG_STATE_STATE 0 = 0 →
      exec (.pkgStop port) s = .next
        (((s.ctxs.map (·.1)).filter (fun x => decide (s.cst x = 2) || decide (s.cst x = 4) || decide (s.cst x = 5))).foldl
          (fun s x => (s.setReg .CTX_STATE_PKG_HELD x 1).pauseCtx x 2) (s.setReg .PKG_STATE_STATE 0 1))) ∧
    (s.access (.port port) .PKG_CTL 0 0 true = .granted → s.holdsLease port = true → s.reg .PKG_STATE_STATE 0 ≠ 0 →
      exec (.pkgStop port) s = .next (s.setReg .PKG_STATE_CMDERR 0 1)) ∧
    (s.reg .PKG_STATE_STATE 0 = 1 → s.configsServed = false → (∀ e ∈ s.ctxs, s.cst e.1 = 6 ∨ (e.2.holds = false ∧ e.2.busy = .none)) →
      exec .pkgStopped s = .next ((s.setReg .PKG_STATE_STATE 0 2).bump .PKG_STATE_STOPS 0)) ∧
    (s.access (.port port) .PKG_CTL 0 0 true = .granted → s.holdsLease port = true → s.reg .PKG_STATE_STATE 0 = 2 →
      ∃ t, exec (.pkgRestart port) s = .next t ∧ t.reg .PKG_STATE_STATE 0 = 3 ∧ t.hbm = s.hbm) ∧
    (s.reg .PKG_STATE_STATE 0 = 3 → (∀ e ∈ s.ctxs, e.2.busy ≠ .resuming) → s.ratesSettled = true →
      exec .pkgRestartDone s = .next (s.setReg .PKG_STATE_STATE 0 0))

/-! ## Ports (09) -/

/-- Derived (R221, R222, R224, R225, R230 to R232). The ports: a link loss starts the port's timer and empties
its translations, a link that comes back stops the timer, an FLR of the PF ends ATS and VF Enable and gives up the lease, one
of a VF kills its context, VF entries and VF Enable take their values, a poisoned write is logged, a port that is not ready asks for a retry. -/
def Obligations.PortEventsComplete : Prop :=
  ∀ (port : Fin 2) (s : State),
    (∀ ev, (s.port port).lost = false → s.regB .PCI_LINK_STAT_UP port = true → ∃ t, exec (.linkLoss port ev) s = .next t ∧
      (t.port port).lost = true ∧ (t.port port).lostAt = s.timer ∧ (t.port port).atc = [] ∧ (t.port port).pri = [] ∧
      t.reg .PCI_LINK_STAT_TIMER_RUN port = 1 ∧ t.hbm = s.hbm ∧
      t.reg .PCI_LINK_STAT_UP port = (if ev = .d3hot then 1 else 0)) ∧
    ((s.port port).lost = true → ∃ t, exec (.linkUp port) s = .next t ∧ (t.port port).lost = false ∧
      t.reg .PCI_LINK_STAT_UP port = 1 ∧ t.reg .PCI_LINK_STAT_TIMER_RUN port = 0 ∧ (t.port port).ats = false ∧
      ((∀ e ∈ s.ctxs, e.2.passes = [] ∧ e.2.owed = []) → t.hbm = s.hbm ∧ t.cores = s.cores)) ∧
    ((s.port port).lost = false → ∃ t, exec (.linkUp port) s = .next t ∧ t.reg .PCI_LINK_STAT_UP port = 1 ∧ t.ports = s.ports ∧
      t.hbm = s.hbm ∧ t.cores = s.cores ∧ t.ctxs = s.ctxs) ∧
    (s.portReady port = true → ∃ t, exec (.pfFlr port) s = .next t ∧ (t.port port).ats = false ∧ (t.port port).vfEn = false ∧
      (t.port port).atc = [] ∧ t.holdsLease port = false) ∧
    (∀ vf, s.portReady port = true → s.vfExists port vf = true → s.regB .PCI_VF_CTX_VALID (port.val * 511 + vf) = true →
      s.owns port (s.reg .PCI_VF_CTX_CTX (port.val * 511 + vf)) = true → exec (.vfFlr port vf) s =
        .next (((s.resetVf port vf).killCtx
          (s.reg .PCI_VF_CTX_CTX (port.val * 511 + vf)) false).priAll)) ∧
    (∀ en num, s.portReady port = true → ∃ t, exec (.vfEnable port en num) s = .next t ∧ (t.port port).vfEn = en ∧
      (t.port port).numVfs = min num 511 ∧ t.hbm = s.hbm) ∧
    (∀ (i : Fin 511) (v : BitVec 32),
      let k := port.val * 511 + i.val
      s.access (.port port) .PCI_VF_CTX port i true = .granted → (s.port port).vfEn = false → natBits v.toNat 10 1 = 1 →
      v.toNat % 1024 ≠ 0 → s.owns port (v.toNat % 1024) = true → s.namedElsewhere port i (v.toNat % 1024) = false →
      ∃ t, exec (.pciVfCtxWrite port i v) s = .next t ∧ t.reg .PCI_VF_CTX_CTX k = v.toNat % 1024 ∧ t.reg .PCI_VF_CTX_VALID k = 1) ∧
    ((s.port port).lost = false → exec (.poisonedWrite port) s = .next (s.aer port .poisoned)) ∧
    ((s.port port).lost = false → ((s.port port).ready = false ∨ (s.port port).flr = true) → exec (.configRequestNotReady port) s = .next (s.send (.crs port)))

/-- Derived (R131, R223). Through an open debug aperture a read returns the bytes at the device address and a write puts
them there; an access that the aperture or its state forbids is counted, and a read then returns zeros. -/
def Obligations.DebugApertureComplete : Prop :=
  ∀ (port : Fin 2) (off : BitVec 30) (n : Nat) (bytes : List Byte) (a : Nat) (s : State), s.reaches (.port port) = .granted →
    (s.bar4 port off.toNat = none → exec (.bar4Read port off n []) s =
      .next ((s.send (.readDone (.port port) 0)).violation port)) ∧
    (s.bar4 port off.toNat = none → exec (.bar4Write port off bytes []) s = .next (s.violation port)) ∧
    (s.bar4 port off.toNat = some a → s.bar4At a n = none → exec (.bar4Read port off n []) s =
      .next ((s.send (.readDone (.port port) 0)).violation port)) ∧
    (s.bar4 port off.toNat = some a → s.bar4At a bytes.length = none → exec (.bar4Write port off bytes []) s =
      .next (s.violation port)) ∧
    (∀ c r, s.bar4 port off.toNat = some a → s.bar4At a n = some (.row c r) → s.coreTakes c = true →
      (∀ q ∈ bar4RowsOf a n, (s.core c).owed (.engine q) [q] = false) → exec (.bar4Read port off n []) s =
        .next (s.send (.readDone (.port port) (bytesNat ((List.range n).map (fun i => s.rowByte (a + i))))))) ∧
    (∀ d o, s.bar4 port off.toNat = some a → s.bar4At a n = some (.bram d o) → s.apertureOk d o n = true →
      exec (.bar4Read port off n []) s =
        .next (s.send (.readDone (.port port) (bytesNat (s.bramTake (d * 0x800000 + o) n))))) ∧
    (s.bar4 port off.toNat = some a → s.bar4At a n = some .hbm → s.hbmAdmit (s.stackOf a) (a % s.stackE) n = .serve →
      ∃ t, exec (.bar4Read port off n []) s = .next t ∧ t.hbm = s.hbm ∧ t.out.length = s.out.length + 1) ∧
    (∀ c r, s.bar4 port off.toNat = some a → s.bar4At a bytes.length = some (.row c r) → s.regB .PCI_DBG_CTL_WR_EN port = true →
      s.coreTakes c = true → (s.core c).inq = [] → (∀ q ∈ bar4RowsOf a bytes.length, (s.core c).owed (.engine q) [q] = false) →
      exec (.bar4Write port off bytes []) s = .next (s.modCore c (fun k => k.pokeBytes a bytes))) ∧
    (∀ d o, s.bar4 port off.toNat = some a → s.bar4At a bytes.length = some (.bram d o) → s.regB .PCI_DBG_CTL_WR_EN port = true →
      s.apertureOk d o bytes.length = true →
      exec (.bar4Write port off bytes []) s = .next (s.bar4Words d o bytes [])) ∧
    (∀ h o, s.bar4 port off.toNat = some a → s.bar4At a bytes.length = some .hbm → s.regB .PCI_DBG_CTL_WR_EN port = true →
      h = s.stackOf a → o = a % s.stackE → s.hbmAdmit h o bytes.length = .serve → exec (.bar4Write port off bytes []) s =
        .next (((s.homeFirst a bytes.length).hbmAccept h 0 (atomMasks o bytes.length) []).hbmWrite a bytes)) ∧
    (∀ d, s.bar4 port off.toNat = some a → s.bar4At a bytes.length = some d → s.regB .PCI_DBG_CTL_WR_EN port = false →
      exec (.bar4Write port off bytes []) s = .next (s.violation port))

/-! ## Sallan links and gateways (18) -/

/-- Derived (R405 to R409, R411, R417). Bring-up: a port that is due enters DETECT; a good detection chooses the widest width
whose lanes are good and enters TRAINING; a rung without too many errors leads to the next, the last one to UP; a retraining
and a test leave UP and lead back to it. -/
def Obligations.SallanBringupComplete : Prop :=
  ∀ (die : Fin 8) (sp : Fin 4) (s : State),
    let i := die.val * 4 + sp.val
    let q := s.salp die sp
    (s.salDue die sp = true → exec (.sallanBringup die sp) s = .next (s.salDetect die sp)) ∧
    ((s.salDetect die sp).salSt die sp = 1 ∧ ((s.salDetect die sp).salp die sp).sent = q.sent ∧
      (s.salSt die sp = 3 ∨ s.salSt die sp = 4 ∨ s.salSt die sp = 5 → (s.salDetect die sp).reg .SAL_PORT_PEER_VALID i = 0)) ∧
    (∀ (res : DetectResult) (n : Nat),
      let good := goodLanes res
      s.salLive die sp = true → s.salSt die sp = 1 → res.order ≠ .other → res.peerWidth = q.width →
      widest (laneCount q.width) good = some n → ∃ t, exec (.sallanDetectDone die sp res) s = .next t ∧ t.salSt die sp = 2 ∧
        (t.salp die sp).used = n ∧ (t.salp die sp).good = good ∧ (t.salp die sp).rung = 0 ∧
        t.reg .SAL_PORT_STAT_WIDTH i = widthCode n % 8 ∧ t.reg .SAL_PORT_PEER_PKG i = res.peerPkg.toNat ∧ t.hbm = s.hbm ∧
        ∃ bad, .hello die sp (q.pkg % 65536) (decide (65536 ≤ q.pkg)) q.width bad ∈ t.out) ∧
    (∀ res : DwellResult, s.salLive die sp = true → s.salSt die sp = 2 →
      (∀ j, j < q.used → res.errs.getD j 0 ≤ s.maxErr die sp ∧ res.far.getLsbD j = false) →
      q.rung < s.maxRung die sp → res.climb = true → ∃ t, exec (.sallanRungDwellDone die sp res) s = .next t ∧
        (t.salp die sp).rung = q.rung + 1 ∧ (t.salp die sp).passed = some q.rung ∧ t.salSt die sp = 2) ∧
    (∀ res : DwellResult, s.salLive die sp = true → s.salSt die sp = 2 →
      (∀ j, j < q.used → res.errs.getD j 0 ≤ s.maxErr die sp ∧ res.far.getLsbD j = false) →
      s.maxRung die sp ≤ q.rung ∨ res.climb = false → ∃ t, exec (.sallanRungDwellDone die sp res) s = .next t ∧ t.salSt die sp = 3 ∧
        t.reg .SAL_PORT_STAT_RATE i = q.rung % 4) ∧
    (s.salLive die sp = true → s.salEn die sp = true → s.salSt die sp = 6 → s.reg .SAL_PORT_CTL_RETRY_S i ≠ 0 →
      exec (.sallanRetryTimer die sp) s = .next (s.salDetect die sp)) ∧
    (s.mayRetrain die sp = true → exec (.sallanRetrain die sp .replays) s = .next (s.salRetrain die sp)) ∧
    (∀ lane : Fin 8, lane.val < q.used → s.mayRetrain die sp = true →
      exec (.sallanRetrain die sp (.lostLock lane)) s = .next (s.salRetrain die sp)) ∧
    (∀ lane : Fin 8, ¬ (lane.val < q.used ∧ s.mayRetrain die sp = true) → q.rawUp.contains lane.val = true →
      exec (.sallanRetrain die sp (.lostLock lane)) s = .next (s.modSal die sp (fun q =>
        { q with rawUp := q.rawUp.filter (· != lane.val), rawRung := Tbl.set q.rawRung lane.val 0 }))) ∧
    (∀ (lane : Fin 8) (supply : Bool), s.salLive die sp = true → lane.val < q.used → s.mayRetrain die sp = true →
      ∃ t, exec (.sallanRetrain die sp (.short lane supply)) s = .next t ∧ t.salSt die sp = 4 ∧
        t.reg .SAL_LANE_STAT_FAULT (laneNo die sp lane) = (if supply then 3 else 2) ∧ lane.val ∉ (t.salp die sp).good) ∧
    (∀ src, s.access src .SAL_PORT_CMD die sp true = .granted → s.mayRetrain die sp = true →
      exec (.sallanRetrain die sp (.command src)) s = .next (s.salRetrain die sp)) ∧
    (s.salSt die sp = 4 → exec (.sallanQuickRetrainDone die sp true) s = .next (s.salUp die sp q.rung) ∧
      exec (.sallanQuickRetrainDone die sp false) s = .next (s.salDetect die sp)) ∧
    (∀ src, s.access src .SAL_PORT_CMD die sp true = .granted → s.salSt die sp = 3 → ∃ t, exec (.sallanTest src die sp) s = .next t ∧
      t.salSt die sp = 5 ∧ ∀ j, j < q.used → j < 8 → t.reg .SAL_LANE_STAT_PRBS_ERR (laneNo die sp j) = 0) ∧
    (∀ src, s.access src .SAL_PORT_CMD die sp true = .granted → s.salSt die sp = 5 →
      ∃ t, exec (.sallanTestEnd src die sp) s = .next t ∧ t.salSt die sp = 4 ∧ (t.salp die sp).retraining = true)

/-- Derived (R206, R410, R412 to R416). Traffic: a flit in order gives its packets to the gateway and acknowledges them; a
packet out goes to the link of its peer; a packet in for this module is injected. -/
def Obligations.SallanTrafficComplete : Prop :=
  ∀ (die : Fin 8) (sp : Fin 4) (p : Packet) (s : State),
    let e := gateEp die sp
    let q := s.salp die sp
    (∀ (seq ack : Nat) (l : List Packet), s.salSt die sp = 3 → seq = q.rxSeq →
      exec (.sallanFlitReceive die sp seq true ack l) s = .next (((s.modSal die sp (fun q =>
        { q with sent := q.sent.filter (fun f => decide (ack ≤ f.1)), rxSeq := q.rxSeq + 1, arrived := q.arrived ++ l }))).send
          (.linkAck die sp (q.rxSeq + 1) false))) ∧
    (∀ (seq ack : Nat) (l : List Packet), s.salSt die sp = 3 →
      exec (.sallanFlitReceive die sp seq false ack l) s = .next (s.send (.linkAck die sp q.rxSeq true))) ∧
    (s.standsAt e p = true → p.ext = true → xIn p = false → ownAnswer die sp p = false → s.regB .SAL_PKG_VALID 0 = true →
      xDpkg p ≠ s.reg .SAL_PKG_NUM 0 → s.salSt die sp = 3 → s.gateOn die (2 + sp) = true → q.sent.length < replayMax →
      xDpkg p = s.reg .SAL_PORT_PEER_PKG (die.val * 4 + sp.val) →
      exec (.gatewayOutbound die sp p) s = .next ((s.arrive e p).linkOut die sp p)) ∧
    (s.standsAt e p = true → p.ext = true → xIn p = false → ownAnswer die sp p = false → s.regB .SAL_PKG_VALID 0 = false →
      exec (.gatewayOutbound die sp p) s = .next ((s.arrive e p).gateRefuse die sp .rst p)) ∧
    (q.arrived.head? = some p → malformedPkt p = false → s.regB .SAL_PKG_VALID 0 = true → xDpkg p = s.reg .SAL_PKG_NUM 0 →
      exec (.gatewayInbound die sp p) s =
        .next ((s.modSal die sp (fun q => { q with arrived := q.arrived.drop 1 })).gateInject die sp p)) ∧
    (q.arrived.head? = some p → malformedPkt p = true → ∃ t, exec (.gatewayInbound die sp p) s = .next t ∧
      t.net = s.net ∧ t.hbm = s.hbm ∧ (t.salp die sp).arrived = q.arrived.drop 1)

/-! ## The fabric (12) -/

/-- Derived (R290 to R294, R304 to R310, R323, R329). Block RAM ports and tile ports: a word is read or written through
either port of a block; a packet of the fabric is sent for the bound context; a packet from the Rose enters RX and is
answered, a tally its sums; entries are taken, an overdue read is answered, the sums are cleared. -/
def Obligations.BlocksAndTilesComplete : Prop :=
  ∀ (die : Fin 8) (tp : Fin 512) (block : Fin 1536) (portB : Bool) (acc : BramAcc) (ecc : Ecc) (p : Packet) (e : FifoE)
      (l : List FifoE) (s : State),
    let i := die.val * 512 + tp.val
    let k := s.tile die tp
    let here : Ep := .tile die tp
    let runs := s.fabRuns die (tp.val / 32) = true ∧ s.maskOpen die (tp.val / 32) = true
    let port := 2 * (die.val * 1536 + block.val) + (if portB then 1 else 0)
    let w := s.portBytes die (block.val / 96) port
    let a := die.val * 0x800000 + block.val * 0x1000 + acc.addr.val / 8 * 8
    let o := acc.addr.val % 8 / w * w
    let new := natBytes (acc.data.toNat * 2 ^ (8 * o)) 8
    let x := packetOf e l
    let sent (f : TileP → TileP) := s.modTile die tp (fun k => f { k with tx := [], skip := false })
    let offered := runs ∧ s.withheldTile tp = false ∧ k.held = none ∧ k.tx = [] ∧ e.hdr = true ∧ l.length < 32 ∧ ∀ q ∈ l, q.hdr = false
    let whole := offered ∧ s.regB .FAB_TP_BIND_EN i = true ∧ badHeader e = false ∧ l.length = entriesDue e ∧ s.txBusy die tp = false
    (s.fabRuns die (block.val / 96) = true → (portB && s.fab.ap.contains (die.val * 1536 + block.val)) = false → acc.write = true →
      acc.read = false →
      exec (.bramPortAccess die block portB acc ecc) s = .next ((s.bramWrite die a (portEnables o w) new ecc).bramQuiet port)) ∧
    (s.fabOn die = true → (s.fabRegion die (block.val / 96)).gsr = false →
      (portB && s.fab.ap.contains (die.val * 1536 + block.val)) = false → acc.write = false → acc.read = true →
      exec (.bramPortAccess die block portB acc ecc) s = .next ((s.bramRead die port a ecc).bramNarrow port o w)) ∧
    (s.fabRuns die (block.val / 96) = true → (portB && s.fab.ap.contains (die.val * 1536 + block.val)) = false → acc.write = true →
      acc.read = true → exec (.bramPortAccess die block portB acc ecc) s =
        .next ((s.bramBoth die (block.val / 96) port a (portEnables o w) new ecc).bramNarrow port o w)) ∧
    (whole → x.cmd ≠ cRDATA → x.cmd ≠ cREAD → x.cmd ≠ cMEMR →
      exec (.tileTxPacket die tp e l) s = .next ((sent id).inject here (s.txFields die tp x))) ∧
    (whole → x.cmd = cREAD ∨ x.cmd = cMEMR → k.rspFree x.count.toNat = true → exec (.tileTxPacket die tp e l) s =
      .next ((sent (fun k => { k with resv := k.resv ++ [(x.tag.toNat, x.count.toNat)] })).inject here (s.txFields die tp x))) ∧
    (∀ r, whole → x.cmd = cRDATA → k.answers x = some r → exec (.tileTxPacket die tp e l) s =
      .next ((sent (fun k => { k with reads := k.reads.erase r })).reply here none { r with ctx := (s.txFields die tp x).ctx } cRDATA
        (natBits x.var.toNat 0 16) x.data)) ∧
    (offered → s.regB .FAB_TP_BIND_EN i = false → exec (.tileTxPacket die tp e l) s =
      .next ((s.modTile die tp (fun k => { k with tx := [], skip := true })).txDiscard die tp .FAB_TP_STAT_UNBOUND)) ∧
    (offered → s.regB .FAB_TP_BIND_EN i = true → badHeader e = true → exec (.tileTxPacket die tp e l) s =
      .next ((s.modTile die tp (fun k => { k with tx := [], skip := true })).txDiscard die tp .FAB_TP_STAT_BADHDR)) ∧
    (s.standsAt here p = true → s.tileDead die tp = false → tallyClass p = true →
      exec (.tileRxDelivery die tp p) s = .next (((s.modTile die tp (fun k => k.tally p)).accept here p).arrive here p)) ∧
    (s.standsAt here p = true → s.tileDead die tp = true ∨ (tallyClass p = false ∧ s.regB .FAB_TP_BIND_EN i = false) →
      exec (.tileRxDelivery die tp p) s = .next ((s.tileRefuse die tp p).arrive here p)) ∧
    (s.standsAt here p = true → p.cmd = cWRITE → tallyClass p = false → s.regB .FAB_TP_BIND_EN i = true → s.tileDead die tp = false →
      s.maskOpen die (tp.val / 32) = true →
      k.rx.length + (fifoOf p).length ≤ 32 → exec (.tileRxDelivery die tp p) s =
        .next (((s.modTile die tp (fun k => { k with rx := k.rx ++ fifoOf p })).accept here p).arrive here p)) ∧
    (runs → exec (.rxEntryTaken die tp false) s = .next (s.modTile die tp (fun k => { k with rx := k.rx.drop 1 }))) ∧
    (runs → exec (.rxEntryTaken die tp true) s =
      .next ((s.modTile die tp (fun k => { k with rsp := k.rsp.drop 1 })).txRun die tp)) ∧
    (∀ (tag : BitVec 16) (r : Packet), k.reads.find? (fun r => r.tag == tag) = some r → exec (.tileReadTimeout die tp tag) s =
      .next ((s.tileNack die tp r).bump .FAB_TP_STAT_RD_TMO i)) ∧
    (runs → exec (.tlyClr die tp) s = .next (s.modTile die tp (fun k => { k with tv := 0, tn := 0, trst := 0, tden := 0 })))

/-- Derived (R295 to R303; log 30). An instruction of a running slice has its effect on its slice and nothing else
changes, but for the free value that a MOV draws; HALT stops the slice, RUN starts it at entry 0, a bad loop stops it with an
error. -/
def Obligations.DspInstructionsComplete : Prop :=
  ∀ (i : SliceId) (io : DspIn) (w : W32) (s : State),
    let k := s.slice i.die i.n
    let k1 : Slice := { k.cycle with ir := readsInput w }
    let put := fun (j : Slice) => s.setSlice i.die i.n j
    (s.DspReady i io 0x0 w → exec (.dspNop i io) s = .next (put k1.next)) ∧
    (s.DspReady i io 0x1 w → exec (.dspMac i io) s = .next (put ({ k1 with
      acc := (k.mac io (s.cin i.die i.n) w).1, sat := k1.sat || (k.mac io (s.cin i.die i.n) w).2 } : Slice).next)) ∧
    (s.DspReady i io 0x2 w → ∃ x : BitVec 56, exec (.dspMov i io) s =
        .next ((s.setSlice i.die i.n (k1.setReg (wf w 24 4) x).next).drew 1) ∧
      (wf w 19 5 = 0x1F → x = k.acc2) ∧ (wf w 19 5 ≠ 0x1F → x.extractLsb' 0 24 = k.source io (wf w 19 5))) ∧
    (s.DspReady i io 0x3 w → exec (.dspOut i io) s = .next (put ({ k1 with
      outNext := some (k.outValue w).1, sat := k1.sat || (k.outValue w).2 } : Slice).next)) ∧
    (s.DspReady i io 0x4 w → exec (.dspSrch i io) s = .next (put ((if wf w 21 1 = 1 then k1.beginChain else k1).search
      (k.source io (wf w 23 5)) (decide (wf w 22 1 = 1)) (decide (wf w 20 1 = 1))).next)) ∧
    (s.DspReady i io 0x5 w → exec (.dspAg i io) s = .next (put (k1.ag w).next)) ∧
    (s.DspReady i io 0x6 w → wf w 27 1 = 0 →
      exec (.dspAgset i io) s = .next (put ({ k1 with p0 := k1.p0.set (wf w 25 2) (BitVec.ofNat 16 (wf w 9 16)) } : Slice).next)) ∧
    (s.DspReady i io 0x6 w → wf w 27 1 = 1 →
      exec (.dspAgset i io) s = .next (put ({ k1 with p1 := k1.p1.set (wf w 25 2) (BitVec.ofNat 16 (wf w 9 16)) } : Slice).next)) ∧
    (s.DspReady i io 0x7 w → k.loopError w = false → exec (.dspLoop i io) s = .next (put (k.cycle.openLoop w))) ∧
    (s.DspReady i io 0x7 w → k.loopError w = true → exec (.dspLoop i io) s = .next (s.dspError i.die i.n k.cycle)) ∧
    (s.DspReady i io 0xF w → exec (.dspHalt i io) s = .next (put { k.cycle with running := false })) ∧
    (s.fabRuns i.die (i.n.val / 512) = true → ∃ j : Slice, exec (.dspRun i) s = .next (put j) ∧ j.running = true ∧ j.pc = 0 ∧
      j.err = false ∧ j.regs = k.regs ∧ j.acc = k.acc ∧ j.prog = k.prog)

/-- Derived (R312 to R314, R329, R417). Raw lanes, pins: a block received on a raw lane that is UP joins its buffer, or is
counted where there is no room; a block of a region goes out; a shorted pin's driver goes off and comes back when software
clears the bit. -/
def Obligations.LanesAndPinsComplete : Prop :=
  ∀ (die : Fin 8) (lane : Fin 32) (block : BitVec 256) (s : State),
    let i := die.val * 32 + lane.val
    (s.rawUp die lane = true → (s.fabRegion die (lane.val / 2)).open_ = true → (s.rawBuf i).length < 64 →
      ∃ t, exec (.rawBlockReceive die lane block false) s = .next t ∧ t.rawBuf i = s.rawBuf i ++ [(block, false)] ∧ t.regs = s.regs) ∧
    (s.rawUp die lane = true → (s.fabRegion die (lane.val / 2)).open_ = false ∨ 64 ≤ (s.rawBuf i).length →
      exec (.rawBlockReceive die lane block false) s = .next (s.bump .FAB_RAW_STAT_RXDROP i)) ∧
    (die.val < s.dies → s.rawLane die lane = true → s.maskOpen die (lane.val / 2) = true → s.fabRuns die (lane.val / 2) = true →
      s.rawUp die lane = true → exec (.rawBlockTransmit die lane block) s = .next (s.send (.rawBlock die lane block))) ∧
    (s.pinDrive die lane ≠ none →
      ∃ t, exec (.gpioShort die lane) s = .next t ∧ t.fab.gpioOff = i :: s.fab.gpioOff ∧
        (t.reg .FAB_GPIO_STAT_SHORT die).testBit lane.val = true ∧ t.hbm = s.hbm) ∧
    (∀ (src : Src) (mask : BitVec 32), s.access src .FAB_GPIO_STAT die 0 true = .granted →
      ∃ t, exec (.gpioShortClear src die mask) s = .next t ∧
        (∀ j, j < 32 → (t.reg .FAB_GPIO_STAT_SHORT die).testBit j = ((s.reg .FAB_GPIO_STAT_SHORT die).testBit j && !mask.getLsbD j)) ∧
        ∀ j, j < 32 → mask.getLsbD j = true → (die.val * 32 + j) ∉ t.fab.gpioOff)

/-- R384. What an interrupt port of a region sends: a transfer sends the source number of its region and number to the
controller of its die; a region whose Mask is closed, or which is FAILED, sends none. -/
def Obligations.FabricInterrupts : Prop :=
  ∀ (die : Fin 8) (region : Fin 16) (num : BitVec 8) (s : State),
    (s.maskOpen die region = true → s.reg .CFG_REGIONS_STATE (die.val * 16 + region.val) ≠ 2 →
      exec (.fabricIrq die region num) s = .next (s.raise die (0x1000 + 256 * region.val + num.toNat))) ∧
    (s.maskOpen die region = false ∨ s.reg .CFG_REGIONS_STATE (die.val * 16 + region.val) = 2 →
      exec (.fabricIrq die region num) s = .next s)

/-! ## Configuration (13) -/

/-- Derived (R248, R319 to R328, R334). A CONFIG joins its block's streams; the block checks the header, closes the Mask,
Bleaches, verifies each segment, carries out the start order; a die loads its full stream once a start; a flash write begins
and ends. What the cryptographic checks find decides between the two ends each step has. -/
def Obligations.ConfigurationComplete : Prop :=
  ∀ (die : Fin 8) (x : Fin 1024) (i : Nat) (c : Copy) (j : CfgJob) (rest : List CfgJob) (s : State),
    let b := s.begun x i
    let d := dF c.bytes 28 1 % 8
    let r := dF c.bytes 29 1 % 16
    (s.Begins x i 0x09 c → s.configTurn x c = true → d < s.dies → dF c.bytes 30 1 = 0 → s.regB .CFG_REGION_OWN_EN (d * 16 + r) = true →
      s.reg .CFG_REGION_OWN_CTX (d * 16 + r) = x.val → b.hbmAllowed x (dF c.bytes 16 8) (dF c.bytes 24 4) = true →
      s.gateOn d 6 = true → exec (.config x i) s = .next (b.setJobs d
        (s.cfgJobs d ++ [newJob (some (x.val, i)) (some r) false (dF c.bytes 16 8) (dF c.bytes 24 4)]))) ∧
    (s.cfgJobs die = j :: rest → j.checked = false → s.strmWaits j.strm = false → exec (.configHeaderChecked die) s = .next
      (let e := s.checkStream j.strm die j.region
       let t := match j.region with
         | some r => e.1.closeMask die r
         | none => e.1
       let rk := Tbl.get? e.1.vault.rootKeys die.val
       if e.2.1 = 0 then t.setJob die { j with hdr := e.2.2, checked := true, key := firstKey rk e.2.2 }
       else e.1.failJob die { j with hdr := e.2.2 } e.2.1)) ∧
    (∀ r, s.cfgJobs die = j :: rest → j.checked = true → j.bleached = false → j.region = some r →
      exec (.configBleachDone die) s = .next ((s.bleachRegion die r).setJob die { j with bleached := true })) ∧
    (s.cfgJobs die = j :: rest → j.checked = true → j.bleached = true → j.ended = false → j.seg < hNseg j.hdr →
      s.strmWaits j.strm = false → ∀ (u : State) (l : List Byte), s.strmRead j.strm j.segAt (j.segLen + 16) = (u, some l) →
      exec (.configSegmentVerified die) s = .next
      (if natBytes (shake256 l).toNat 32 ≠ (j.hdr.drop (256 + 32 * j.seg)).take 32 then u.failJob die j 7
       else if u.vault.unwrapped.contains die.val = false then u.failJob die j 8
       else match gcmOpen j.key (segIv j.seg) (j.hdr.take 64) (l.take j.segLen) (l.drop j.segLen) with
         | none => u.failJob die j 8
         | some plain => u.segment die j plain)) ∧
    (s.cfgJobs die = j :: rest → j.ended = true → exec (.configStartOrder die) s = .next (s.startOrder die j j.steps)) ∧
    (∀ l, s.cfgJobs die = j :: rest → j.ended = true → j.steps = 1 :: l → s.fabLocked die = false →
      exec (.waitLockTimeout die) s = .next ((s.setReg .CFG_STAT_LOCKTMO die 1).startOrder die j l)) ∧
    (die.val < s.dies → .p5 ∈ s.start.done → .p6c ∉ s.start.done → s.cfgJobs die = [] →
      (∀ r, r < 16 → s.reg .CFG_REGIONS_STATE (die.val * 16 + r) = 1) →
      exec (.fullStreamLoad die) s = .next ((s.bleachDie die).setJobs die [slotJob die 0])) ∧
    (∀ (port : Fin 2) (v : BitVec 128),
      let a := natBits v.toNat 0 48
      let n := natBits v.toNat 64 32
      let slot := natBits v.toNat 96 1
      let t := ((s.setReg .CFG_FLASH_WR_SRC die a).setReg .CFG_FLASH_WR_LEN die n).setReg .CFG_FLASH_WR_SLOT die slot
      s.access (.port port) .CFG_FLASH_WR die 0 true = .granted → natBits v.toNat 97 1 = 1 → s.holdsLease port = true →
      s.pkgStopped = true → s.regB .CFG_FLASH_STAT_BUSY die = false → ∃ u, exec (.flashWrite (.port port) die v) s = .next u ∧
        u.hbm = s.hbm ∧ (s.hbmWaits a n = true → u = t.flashBegin die ⟨a, n, slot, false⟩) ∧
        (s.hbmWaits a n = false → (t.flashResult die a n slot).2 ≠ 0 →
          u = (t.flashResult die a n slot).1.flashRefuse die (t.flashResult die a n slot).2) ∧
        (s.hbmWaits a n = false → (t.flashResult die a n slot).2 = 0 → u.regB .CFG_FLASH_STAT_BUSY die = true ∧
          u.cfg.flash = memPut s.cfg.flash (slotBase die slot) (List.replicate 4096 0))) ∧
    (∀ (w : FlashJob) (b : List Byte), Tbl.get? s.cfg.writing die.val = some w → w.checked = true →
      s.hbmWaits w.src w.len = false → (s.hbmTake w.src w.len).2 = some b → ∃ u, exec (.flashWriteDone die true) s = .next u ∧ u.regB .CFG_FLASH_STAT_BUSY die = false ∧
        u.reg .CFG_FLASH_STAT_RESULT die = 1 ∧ u.hbm = s.hbm ∧
        u.cfg.flash = memPut s.cfg.flash (slotBase die w.slot) b) ∧
    (∀ (w : FlashJob) (b : List Byte), Tbl.get? s.cfg.writing die.val = some w → w.checked = true →
      s.hbmWaits w.src w.len = false → (s.hbmTake w.src w.len).2 = some b → ∃ u, exec (.flashWriteDone die false) s = .next u ∧ u.reg .CFG_FLASH_STAT_RESULT die = 5 ∧ u.cfg.flash = s.cfg.flash)

/-! ## Clocks and power (15) -/

/-- Derived (R354 to R360, R370 to R373). Clocks: a failed source leaves its loops coasting, a ready reference locks them, a
switch takes effect only to a ready target, the fabric's sequencer takes new targets, a measurement counts edges, gates
open and close, a gated block refuses its accesses. -/
def Obligations.ClocksComplete : Prop :=
  ∀ (src : Src) (die : Fin 8) (clk : Fin 4) (up : Bool) (loop : Fin 6) (v : BitVec 32) (v64 : BitVec 64) (edges : Nat) (s : State),
    let d := die.val
    let n := v.toNat
    (d < s.dies → ∃ t, exec (.clockSourceFail die clk) s = .next t ∧ t.clkReady d clk = false ∧ t.hbm = s.hbm ∧
      ∀ l, l < 6 → t.locked d l = (s.locked d l && decide (s.loopRef d l ≠ clk.val)) ∧
        t.coasting d l = (s.coasting d l || decide (s.loopRef d l = clk.val))) ∧
    (d < s.dies → exec (.clockSourceReady die ⟨clk, up⟩) s = .next (s.putBit .CLK_SRC_STAT_RDY d clk up)) ∧
    (s.clkReady d (s.loopRef d loop) = true → s.loopRef d loop ≠ 3 → ∃ t, exec (.loopLock die loop) s = .next t ∧
      t.locked d loop = true ∧ t.coasting d loop = false ∧ t.hbm = s.hbm ∧
      (s.coasting d loop = true → loop.val = 1 → ∀ h, h / 2 = d → s.reg .HBM_STATE_STATE h = 2 → t.reg .HBM_STATE_STATE h = 4)) ∧
    (s.access src .CLK_REF_SEL die 0 true = .granted → ∃ t, exec (.clkRefSelWrite src die v) s = .next t ∧ ∀ l, l < 6 →
      t.loopRef d l = if natBits n (2 * l) 2 = 3 ∨ s.clkReady d (natBits n (2 * l) 2) = false then s.loopRef d l
        else natBits n (2 * l) 2) ∧
    (s.access src .CLK_SRC_SEL die 0 true = .granted → ∃ t, exec (.clkSrcSelWrite src die v64) s = .next t ∧ ∀ k, k < 5 →
      s.srcReady d k (natBits v64.toNat (8 * k) 2) (natBits v64.toNat (8 * k + 2) 6) = true →
      t.reg .CLK_SRC_SEL_SEL (d * 5 + k) = natBits v64.toNat (8 * k) 2 ∧
      t.reg .CLK_SRC_SEL_DIVM1 (d * 5 + k) = natBits v64.toNat (8 * k + 2) 6) ∧
    (s.access src .CLK_FAB_FREQ die 0 true = .granted → (∀ k, k < 4 → 10 ≤ natBits n (8 * k) 8 ∧ natBits n (8 * k) 8 ≤ 80) →
      Tbl.get? s.power.fabBusy d = none → (List.range 4).map (fun k => natBits n (8 * k) 8) ≠ s.fabNow d →
      ∃ t, exec (.clkFabFreqWrite src die v) s = .next t ∧
        Tbl.get? t.power.fabBusy d = some ((List.range 4).map (fun k => natBits n (8 * k) 8)) ∧
        t.fabTargets d = (List.range 4).map (fun k => natBits n (8 * k) 8)) ∧
    (s.access src .CLK_FAB_FREQ die 0 true = .granted → (∀ k, k < 4 → 10 ≤ natBits n (8 * k) 8 ∧ natBits n (8 * k) 8 ≤ 80) →
      Tbl.get? s.power.fabBusy d ≠ none → ∃ t, exec (.clkFabFreqWrite src die v) s = .next t ∧ t.regs = s.regs ∧
        t.fabWaiting d = s.fabWaiting d ++ [n] ∧ t.power.fabBusy = s.power.fabBusy) ∧
    (∀ new, Tbl.get? s.power.fabBusy d = some new → Tbl.get? s.power.fabNext d = none →
      ∃ t, exec (.fabFreqSeqDone die) s = .next t ∧ t.fabNow d = new ∧ Tbl.get? t.power.fabBusy d = none ∧ t.railMv d = fabRail new ∧
        t.hbm = s.hbm) ∧
    (s.access src .CLK_MEAS_CTL die 0 true = .granted → natBits n 8 1 = 1 → s.gateOn d 7 = true → d ∉ s.power.measuring →
      natBits n 0 4 ≠ 15 → natBits n 4 4 ≠ 15 → ∃ t, exec (.clkMeasGo src die v) s = .next t ∧ d ∈ t.power.measuring ∧
        t.reg .CLK_MEAS_RES_COUNT d = 0 ∧ t.reg .CLK_MEAS_RES_DONE d = 0 ∧ t.reg .CLK_MEAS_RES_OVF d = 0) ∧
    (d ∈ s.power.measuring → ∃ t, exec (.clkMeasDone die edges) s = .next t ∧ d ∉ t.power.measuring ∧
      t.reg .CLK_MEAS_RES_COUNT d = min edges (2 ^ 32 - 1) ∧ t.reg .CLK_MEAS_RES_DONE d = 1 ∧
      t.reg .CLK_MEAS_RES_OVF d = (if 2 ^ 32 ≤ edges then 1 else 0)) ∧
    (s.access src .CLK_SRC_STAT die 0 true = .granted → s.hasClkOut die = true → natBits n 0 4 ≠ 15 →
      (s.nominalMhz 0 (natBits n 0 4)).1 ≤ 200 * (natBits n 4 12 + 1) * (s.nominalMhz 0 (natBits n 0 4)).2 →
      ∃ t, exec (.clkOutCtlWrite src die v) s = .next t ∧ t.reg .CLK_OUT_CTL_SEL 0 = natBits n 0 4 ∧
        t.reg .CLK_OUT_CTL_DIVM1 0 = natBits n 4 12 ∧ t.reg .CLK_OUT_CTL_EN 0 = natBits n 16 1) ∧
    (s.access src .CLK_GATE die 0 true = .granted → s.hbmGate d (n % 4) = n % 4 → ∃ t, exec (.clkGateWrite src die v) s = .next t ∧
      t.reg .CLK_GATE_HBM d = n % 4 ∧ t.reg .CLK_GATE_SALLAN d = natBits n 2 4 ∧ t.reg .CLK_GATE_FAB d = natBits n 6 1 ∧
      t.reg .CLK_GATE_MEAS d = natBits n 7 1 ∧ t.reg .CLK_GATE_CLKOUT d = natBits n 8 1 ∧ t.hbm = s.hbm) ∧
    (s.access src .CLK_GATE die 0 true = .granted → s.hbmGate d (n % 4) ≠ n % 4 →
      exec (.clkGateWrite src die v) s = .next (s.lwrErr src (Rg.offset .CLK_GATE die 0))) ∧
    (∀ block : Fin 9, s.reaches src = .granted → d < s.dies → s.gateOn d block = false →
      exec (.gatedBlockAccess src die block) s = .next ((s.completerAbort src).gateErr d block))

/-- Derived (R83, R84, R362, R365, R368, R369, R422). The brake holds a region while a reason for it holds and the faults
latched meanwhile take effect at its release; the governor moves the regions by the measured power; a hot region shows
it and, hotter, is braked. -/
def Obligations.PowerControlComplete : Prop :=
  ∀ (die k : Fin 8) (watts vin temp : Nat) (s : State),
    let r := die.val * 8 + k.val
    let m := ((s.readVin vin).setReg .CLK_PWR_STAT_PIN 0 (min watts 65535)).setReg .CLK_PWR_STAT_VIN 0 (min vin 65535)
    (r < s.dies * 8 → (s.region r).current = false → exec (.brakeApply die k) s = exec (.regionCurrentAlarm die k) s ∧
      exec (.brakeApply die k) s = .next ((s.modRegion r (fun g => { g with current := true })).braking r) ∧
      ((s.modRegion r (fun g => { g with current := true })).braking r).reg .CLK_REGION_BRAKED r = 1) ∧
    (die.val < s.dies → s.regB .CLK_REGION_BRAKED r = true → (s.region r).thermal = false → (s.region r).duty = false →
      exec (.brakeRelease die k) s = .next
        (((s.modRegion r (fun g => { g with current := false })).setReg .CLK_REGION_BRAKED r 0).latchedAll r)) ∧
    (∃ t, exec .inputFastTrip s = .next t ∧ t.hbm = s.hbm ∧ t.cores = s.cores ∧
      ∀ q, q < s.dies * 8 → (t.region q).current = true) ∧
    (die.val < s.dies → ∃ t, exec (.levelSlewDone die k) s = .next t ∧ t.regs = (s.setReg .CLK_REGION_LEVEL r (s.region r).target).regs ∧
      t.spineLevel die = t.highest die ∧ t.power.regions = s.power.regions) ∧
    (s.pkgStopped = true → exec (.governorTick watts vin) s = .next m) ∧
    (s.pkgStopped = false → m.ceiling < watts → exec (.governorTick watts vin) s = .next m.governAbove) ∧
    (s.pkgStopped = false → watts = m.ceiling → exec (.governorTick watts vin) s = .next m.governAt) ∧
    (s.pkgStopped = false → watts < m.ceiling → exec (.governorTick watts vin) s =
      .next (m.governBelow (decide (watts * 10 < m.ceiling * 8)))) ∧
    (∃ t, exec .dutyBrakeEnd s = .next t ∧ t.hbm = s.hbm ∧ ∀ q, q < s.dies * 8 → (t.region q).duty = false) ∧
    (die.val < s.dies → (s.region r).slow = none → (s.region r).thermal = false → ∃ t, exec (.thermalSample die k temp) s = .next t ∧
      t.reg .CLK_REGION_TEMP r = min temp 255 ∧ (s.reg .CLK_APER_T_SLOW 0 ≤ temp → t.reg .CLK_REGION_HOT r = 1) ∧
      (s.reg .CLK_APER_T_BRAKE 0 ≤ temp → t.reg .CLK_REGION_BRAKED r = 1) ∧ s.leastRate r temp ≤ t.reg .CLK_REGION_RATE r)

/-! ## Helm and interrupts (16) -/

/-- Derived (R376 to R379, R389). Helm processors: kicks, warnings and expiries of watchdogs, agreements and disagreements of
the cross-check, timers, and a processor that runs again. -/
def Obligations.HelmEventsComplete : Prop :=
  ∀ (die : Fin 8) (proc : Fin 4) (v : BitVec 32) (act : CheckedAction) (q : Nat) (s : State),
    let i := die.val * 4 + proc.val
    let me := (die.val, proc.val)
    (s.access (.helm die proc) .HELM_WDOG die proc true = .granted → natBits v.toNat 16 1 = 1 →
      ∃ t, exec (.watchdogKick die proc v) s = .next t ∧ t.reg .HELM_WDOG_PERIOD i = natBits v.toNat 0 16 ∧ me ∉ t.helm.warned) ∧
    (s.watched die proc = true → me ∉ s.helm.warned → exec (.watchdogWarning die proc) s =
      .next (({ s with helm := { s.helm with warned := me :: s.helm.warned } } : State).raisePriv die proc 0)) ∧
    (s.watched die proc = true → exec (.watchdogExpire die proc) s = .next (s.resetProc die proc) ∧
      (s.resetProc die proc).reg .HELM_STAT_STATE i ∈ [1, 2] ∧ (s.resetProc die proc).hbm = s.hbm) ∧
    (s.procRuns die proc = true → die.val < s.dies → s.checker die proc = some q → ∃ t, exec (.crossCheck die proc act true) s =
      .next t ∧ me ∉ t.helm.disagreed ∧ t.regs = s.regs) ∧
    (s.procRuns die proc = true → die.val < s.dies → s.checker die proc = some q → me ∉ s.helm.disagreed →
      ∃ t, exec (.crossCheck die proc act false) s = .next t ∧ me ∈ t.helm.disagreed ∧
        t.regs = (s.bump .HELM_STAT_MISMATCH i).regs) ∧
    (s.procRuns die proc = true → die.val < s.dies → s.checker die proc = some q → me ∈ s.helm.disagreed →
      exec (.crossCheck die proc act false) s =
        .next (((s.bump .HELM_STAT_MISMATCH i).resetProc die proc).resetProc die q)) ∧
    (s.procRuns die proc = true → die.val < s.dies → exec (.helmTimerExpire die proc) s = .next (s.raisePriv die proc 1)) ∧
    (s.reg .HELM_STAT_STATE i = 1 → s.imageHolds die = true → ∃ t, exec (.helmProcessorRunning die proc) s = .next t ∧
      t.reg .HELM_STAT_STATE i = 0 ∧ t.reg .HELM_STAT_DUTIES i = 0 ∧ t.hbm = s.hbm ∧
      Tbl.get? t.helm.privMem me = some ((Tbl.getD s.helm.dieMem die []).take privSize))

/-- Derived (R383 to R390). Interrupt sources: a message makes its source pending or merges, or waits in the queue of a
sleeping controller; a processor claims the first of its sources and completes it; a port's source is sent as MSI-X; a
controller with nothing to deliver sleeps, and wakes with its queue. -/
def Obligations.InterruptsComplete : Prop :=
  ∀ (die : Fin 8) (proc : Fin 4) (n : Fin 8192) (v : BitVec 32) (src : Src) (s : State),
    let i := die.val * 8192 + n.val
    let num : BitVec 16 := BitVec.ofNat 16 i
    (die.val < s.dies → die.val ∉ s.helm.asleep → reservedSource n = false → s.regB .INT_SRC_PEND i = false →
      exec (.intMessage die num false) s = .next (s.setReg .INT_SRC_PEND i 1)) ∧
    (die.val < s.dies → die.val ∉ s.helm.asleep → reservedSource n = false → s.regB .INT_SRC_PEND i = true →
      exec (.intMessage die num false) s = .next (s.bump .INT_STAT_MERGED die)) ∧
    (∀ h, die.val < s.dies → die.val ∈ s.helm.asleep →
      ∃ t, exec (.intMessage die num h) s = .next t ∧ t.regs = s.regs ∧
        Tbl.getD t.helm.wakeQ die.val [] = Tbl.getD s.helm.wakeQ die.val [] ++ [(i, h)]) ∧
    (4 ≤ s.reg .INT_SRC_TARGET i → die.val ∉ s.helm.asleep → s.deliverable die n = true → exec (.intMsixDelivery die n) s =
      .next ((s.setReg .INT_SRC_PEND i 0).portMsix (s.reg .INT_SRC_TARGET i - 4) none (s.reg .INT_SRC_VECTOR i))) ∧
    (s.access (.helm die proc) .INT_CLAIM die proc false = .granted → die.val ∉ s.helm.asleep → leastKey (s.claimable die proc) = none →
      exec (.intClaim (.helm die proc) die proc) s = .next (s.send (.readDone (.helm die proc) 0x20000))) ∧
    (∀ k m, s.access (.helm die proc) .INT_CLAIM die proc false = .granted → die.val ∉ s.helm.asleep →
      leastKey (s.claimable die proc) = some (k, false, m) → exec (.intClaim (.helm die proc) die proc) s =
        .next ((s.claim die proc false m).send (.readDone (.helm die proc) (die.val * 8192 + m)))) ∧
    (s.access src .INT_COMPLETE die proc true = .granted → v.toNat % 2 ^ 17 = i → die.val < 8 →
      Tbl.get? s.helm.claimed (die.val, n.val) = some proc.val → s.regB .INT_SRC_ACTIVE i = true →
      ∃ t, exec (.intComplete src die proc v) s = .next t ∧ t.regB .INT_SRC_ACTIVE i = false ∧
        Tbl.get? t.helm.claimed (die.val, n.val) = none) ∧
    (∀ p, s.access (.helm die p) .INT_RAISE die 0 true = .granted → natBits v.toNat 16 1 = 0 →
      exec (.intRaise (.helm die p) die v) s = .next (s.message die (natBits v.toNat 0 16) true)) ∧
    (∀ p, s.access (.helm die p) .INT_RAISE die 0 true = .granted → natBits v.toNat 16 1 = 1 →
      exec (.intRaise (.helm die p) die v) s = .next (s.raisePriv die (natBits v.toNat 17 2) (v.toNat % 256))) ∧
    (s.access src .INT_SRC die n true = .granted → reservedSource n = false → natBits v.toNat 0 3 < 6 →
      ∃ t, exec (.intSrcWrite src die n v) s = .next t ∧ t.reg .INT_SRC_TARGET i = natBits v.toNat 0 3 ∧
        t.reg .INT_SRC_PRIO i = natBits v.toNat 4 2 ∧ t.reg .INT_SRC_EN i = natBits v.toNat 24 1 ∧
        t.reg .INT_SRC_PEND i = (if natBits v.toNat 28 1 = 1 then 0 else s.reg .INT_SRC_PEND i) ∧
        t.reg .INT_SRC_ACTIVE i = s.reg .INT_SRC_ACTIVE i) ∧
    (∀ waits : List (Fin 4), die.val < s.dies → die.val ∉ s.helm.asleep → s.regB .INT_CTL_SLEEP_EN die = true →
      s.anyDeliverable die = false → (∀ p : Fin 4, s.procRuns die p = true → p ∈ waits) →
      exec (.intControllerSleep ⟨die, waits⟩) s = .next { s with helm := { s.helm with asleep := die.val :: s.helm.asleep } }) ∧
    (die.val ∈ s.helm.asleep → Tbl.getD s.helm.wakeQ die.val [] ≠ [] → ∃ t, exec (.intControllerWake die) s = .next t ∧
      die.val ∉ t.helm.asleep ∧ t.hbm = s.hbm ∧ t.cores = s.cores)

/-! ## Security (14) -/

/-- Derived (R342 to R352). The attestation exchange answers GET_STATUS, GET_CERT and GET_QUOTE, a quote with a leaf of its
own, and without a signature where attestation is refused; keys and firmware are written to the vault in two steps, and
what the firmware's verification finds decides how its first step ends. -/
def Obligations.SecurityComplete : Prop :=
  ∀ (port : Fin 2) (s : State),
    (s.portReady port = true → s.vault.reqs = [] → ∃ t, exec (.getStatus port) s = .next t ∧
      t.out = s.out ++ [.doe port (doeObject Config.vendorId.toNat 1 s.vault.statusAnswer)] ∧ t.vault = s.vault ∧ t.regs = s.regs) ∧
    (s.portReady port = true → s.vault.reqs = [] → ∃ t, exec (.getCert port) s = .next t ∧
      t.out = s.out ++ [.doe port (doeObject Config.vendorId.toNat 1 (s.vault.certAnswer s.freeVal))] ∧ t.vault = s.vault ∧ t.regs = s.regs) ∧
    (∀ (nonce : BitVec 256) (mask : BitVec 16), s.portReady port = true → s.vault.reqs = [] →
      s.reg .SEC_ATT_STAT_REFUSE_CAUSE 0 = 0 → s.quoteTurn = true → ∃ t, exec (.getQuote port nonce mask) s = .next t ∧
        t.vault.attJournal = journalPut s.vault.attJournal s.vault.attKey (s.vault.attNext + 1) ∧ t.vault.reqs = [] ∧
        ∃ sig, sig.length = 2820 ∧ t.out = s.out ++ [.doe port
          (doeObject Config.vendorId.toNat 1 (s.vault.quoteHead 0 nonce (mask.toNat % 2048) ++ sig))]) ∧
    (∀ (nonce : BitVec 256) (mask : BitVec 16), s.portReady port = true → s.vault.reqs = [] →
      s.reg .SEC_ATT_STAT_REFUSE_CAUSE 0 ≠ 0 → ∃ t, exec (.getQuote port nonce mask) s = .next t ∧ t.vault = s.vault ∧
        t.out = s.out ++ [.doe port (doeObject Config.vendorId.toNat 1 (s.vault.quoteHead 0x0901 nonce (mask.toNat % 2048)))]) ∧
    (∀ q : DoeFrame, s.portReady q.port = true →
      (q.vendor = 1 → q.type = 0 → exec (.doeUnsupported q) s = .next (s.send (.doe q.port (doeObject 1 0 (discovery q.index.toNat))))) ∧
      (¬ (q.vendor = 1 ∧ q.type = 0) → exec (.doeUnsupported q) s = .next (s.send (.doeError q.port)))) ∧
    (s.vault.spacing = true → exec .minIntervalExpire s = .next (s.modVault (fun v => { v with spacing := false })).signer) ∧
    (∀ vk, s.regB .SEC_ATT_STAT_GENERATING 0 = true → s.vaultWrites = true → s.vault.vk = some vk →
      (s.vault.certifying = none → s.vault.idNext < idLeaves → ∃ t, exec .rolloverKeyReady s = .next t ∧
        t.vault.certifying = some s.vault.idNext ∧ t.vault.idJournal = journalPut s.vault.idJournal 0 (s.vault.idNext + 1) ∧
        t.vault.recs = s.vault.recs) ∧
      (∀ k, s.vault.certifying = some k → exec .rolloverKeyReady s =
          .next ((((s.setReg .SEC_ATT_STAT_GENERATING 0 0).modVault (fun v => v.storeKey k)).keysMoved).signer) ∧
        (s.vault.storeKey k).value none .pendingKey = some (attKeyRec vk k 0 (certSig k)))) ∧
    (∀ (addr : BitVec 48) (target : BitVec 4),
      let t := ((s.setReg .SEC_KEY_WR_SRC 0 addr.toNat).setReg .SEC_KEY_WR_TARGET 0 target.toNat).setReg .SEC_KEY_WR_REVOKE 0 0
      s.access (.port port) .SEC_KEY_WR 0 0 true = .granted → s.holdsLease port = true → s.pkgStopped = true →
      s.regB .SEC_VAULT_STAT_BUSY 0 = false →
      (s.keyRefused target.toNat = false → s.hbmWaits addr.toNat (keyLen target.toNat) = false →
        ∀ u b, t.hbmTake addr.toNat (keyLen target.toNat) = (u, some b) →
          exec (.keyInstall (.port port) addr target) s = .next (u.vaultBegin (.key target.toNat b))) ∧
      (s.keyRefused target.toNat = false → s.hbmWaits addr.toNat (keyLen target.toNat) = true →
        exec (.keyInstall (.port port) addr target) s = .next (t.vaultBegin (.fetchKey target.toNat addr.toNat))) ∧
      (∀ u, s.keyRefused target.toNat = false → s.hbmWaits addr.toNat (keyLen target.toNat) = false →
        t.hbmTake addr.toNat (keyLen target.toNat) = (u, none) → exec (.keyInstall (.port port) addr target) s = .next (u.vaultRefuse 4)) ∧
      (s.keyRefused target.toNat = true → exec (.keyInstall (.port port) addr target) s = .next (t.vaultRefuse 2))) ∧
    (∀ target : BitVec 4, s.access (.port port) .SEC_KEY_WR 0 0 true = .granted → s.holdsLease port = true →
      s.pkgStopped = true → s.regB .SEC_VAULT_STAT_BUSY 0 = false → target.toNat < 8 →
      Tbl.get? s.vault.slots target.toNat ≠ some .revoked → exec (.keyRevoke (.port port) target) s =
        .next (((s.setReg .SEC_KEY_WR_TARGET 0 target.toNat).setReg .SEC_KEY_WR_REVOKE 0 1).vaultBegin (.revoke target.toNat))) ∧
    (∀ (k : Nat) (b : List Byte), s.vault.job = some (.key k b) → s.vaultWrites = true →
      (exec (.keyWriteDone true) s = .next ((s.modVault (fun v => v.stored s.dies (.key k b))).vaultEnd 1)) ∧
      (exec (.keyWriteDone false) s = .next (s.vaultEnd 5)) ∧ (s.vaultEnd 5).vault.slots = s.vault.slots ∧
      (k < 8 → (s.vault.stored s.dies (.key k b)).value none (.slot (fin16 k)) = some (.slot (.key b)))) ∧
    (∀ (addr : BitVec 48) (len : BitVec 32),
      let t := (s.setReg .SEC_FW_WR_SRC 0 addr.toNat).setReg .SEC_FW_WR_LEN 0 len.toNat
      s.access (.port port) .SEC_FW_WR 0 0 true = .granted → s.holdsLease port = true → s.pkgStopped = true →
      s.regB .SEC_VAULT_STAT_BUSY 0 = false → 3076 ≤ len.toNat → len.toNat ≤ 0x400000 → s.hbmWaits addr.toNat len.toNat = false →
      ∀ u img, t.hbmTake addr.toNat len.toNat = (u, some img) → exec (.firmwareWrite (.port port) addr len) s = .next
        (if fwGood img u.vault.floor0 = true ∧ len.toNat = 3076 + leAt img 8 4 then u.vaultBegin (.firmware img)
         else u.vaultRefuse 3)) ∧
    (∀ img, s.vault.job = some (.firmware img) → s.vaultWrites = true →
      exec (.firmwareWriteDone true) s = .next ((s.setFwSlot (.image img)).vaultEnd 1) ∧
      exec (.firmwareWriteDone false) s = .next ((s.setFwSlot .broken).vaultEnd 5))

/-! ## Start and resets (17, 19) -/

/-- Derived (R133, R339 to R345, R391 to R402). The start: an order that is in progress ends, and PHASE shows the next; the
last orders zero the rows, raise the counters and make the ports ready; Sounding notes its failures, of which one of a
level-9 or level-10 router ends the start; a module reset keeps the vault's records and journals and the flash; a partition
reset begins, and each die's part is released once its cores are Bleached and a second processor agrees. -/
def Obligations.StartAndResetsComplete : Prop :=
  ∀ (found : StartFinding) (s : State),
    (∀ p, s.inOrder p = true → s.orderReady p = true → ∃ t, exec (.startPhaseDone p found) s = .next t ∧
      (p ≠ .p2 → p ≠ .p4 → p ∈ t.start.done ∧ ∀ n, phaseAfter p = some n → t.reg .YLD_START_PHASE 0 = n) ∧
      (p = .p8 → t.ctxs = [] ∧ ∀ c, (t.core c).rows = Core.reset.rows ∧ (t.core c).tags = Core.reset.tags) ∧
      (p = .p9 → (t.port 0).ready = true ∧ (t.port 1).ready = true ∧
        t.vault.floor0 = max s.vault.floor0 (min s.vault.fwSvn 0xFFFF))) ∧
    (∀ (die k : Fin 8) (fails : List SoundFail), s.inOrder .p6b = true → die.val * 8 + k.val ∈ s.soundRegions →
      die.val * 8 + k.val ∉ s.start.sounded → ∃ t, exec (.soundingRegionDone die k fails) s = .next t ∧
        t.start.sounded = (die.val * 8 + k.val) :: s.start.sounded ∧ t.start.fails = s.start.fails ++ fails.map (fun f => (die.val, f)) ∧
        ((∃ f ∈ fails, ∃ l i, f.part = .router l i ∧ 9 ≤ l) → t.reg .YLD_START_PHASE 0 = 15 ∧ t.reg .YLD_START_FAIL 0 = 3)) ∧
    (∀ cause, cause ≠ .powerOn → s.module.off = false → exec (.moduleReset cause) s = .next s.moduleReset ∧
      s.moduleReset.hbm = [] ∧ s.moduleReset.cores = [] ∧ s.moduleReset.ctxs = [] ∧ s.moduleReset.cfg.flash = s.cfg.flash ∧
      s.vault.Onward s.moduleReset.vault ∧ s.moduleReset.vault.recs = s.vault.recs ∧ s.moduleReset.vault.idJournal = s.vault.idJournal ∧
      s.moduleReset.vault.attJournal = s.vault.attJournal ∧ s.moduleReset.vault.slots = s.vault.slots) ∧
    (∃ t, exec (.moduleReset .powerOn) s = .next t ∧ t.cfg.flash = s.cfg.flash ∧ s.vault.Onward t.vault ∧ t.cores = [] ∧
      t.module.off = ModS.reset.off) ∧
    (∀ (port : Fin 2) (v : BitVec 32),
      let part := natBits v.toNat 0 4
      s.access (.port port) .PKG_PART_RST 0 0 true = .granted → s.holdsLease port = true → natBits v.toNat 4 1 = 1 →
      s.regB .PKG_PART_RST_BUSY 0 = false → ∃ t, exec (.partitionReset port v) s = .next t ∧
        t.start.part = some part ∧ t.start.partSubs = s.partSubs part ∧ t.reg .PKG_PART_RST_BUSY 0 = 1) ∧
    (∀ part, s.start.part = some part → s.start.resetCores = [] →
      let go := s.start.partSubs.filter (fun k => s.agreed (k / 32) 3)
      let u := s.releaseSubs go
      (go = s.start.partSubs → exec (.partitionResetRelease true) s = .next
        ((({ u with start := { u.start with part := none } } : State).setReg .PKG_PART_RST_BUSY 0 0).bump .PKG_PART_RST_DONE 0)) ∧
      (go ≠ s.start.partSubs → exec (.partitionResetRelease true) s = .next u ∧ u.start.part = some part))

/-- R403: a module reset by PKG_RESET. The lease holder's write with GO = 1 and CONFIRM = 0xA5 while the package is STOPPED
starts it; any other write changes no register but the count of the violation. -/
def Obligations.PackageReset : Prop :=
  ∀ (src : Src) (v : BitVec 32) (s : State),
    (∀ port, src = .port port → s.access src .PKG_RESET 0 0 true = .granted → s.holdsLease port = true → s.pkgStopped = true →
      natBits v.toNat 8 1 = 1 → natBits v.toNat 0 8 = 0xA5 → exec (.pkgReset src v) s = .next s.moduleReset) ∧
    (¬ (∃ port, src = .port port ∧ s.access src .PKG_RESET 0 0 true = .granted ∧ s.holdsLease port = true ∧ s.pkgStopped = true ∧
      natBits v.toNat 8 1 = 1 ∧ natBits v.toNat 0 8 = 0xA5) →
      ∃ t, exec (.pkgReset src v) s = .next t ∧
        t = { s with regs := t.regs, ports := t.ports, out := t.out } ∧
        ∀ f i, f ≠ .PCI_ACC_VIOL_COUNT → t.reg f i = s.reg f i)

/-- Derived (R419, R422, R423, R426 to R429). The module: the switch opens and closes, the thermal trip opens it, a pulse of
MGMT_RST_N resets the module or clears a latched opening, the coolant is sampled, the SMBus responder answers and clears. -/
def Obligations.ModuleEventsComplete : Prop :=
  ∀ (low junction outlet inlet vin : Nat) (cause : OffCause) (leak : Bool) (s : State),
    (s.module.off = false → ∃ t, exec (.switchOpen cause) s = .next t ∧ t.module.off = true ∧ t.module.latched = offLatched cause ∧
      t.reg .MOD_STAT_LAST_OFF 0 = offCode cause ∧ t.cores = [] ∧ t.hbm = []) ∧
    (s.module.off = true → s.module.latched = false → exec .switchClose s = .next s.closeSwitch ∧
      s.closeSwitch.module.off = false) ∧
    (120 ≤ junction ∨ 70 ≤ outlet → exec (.thermalTrip junction outlet) s = .next (s.openSwitch .thermal)) ∧
    (1000 ≤ low → low < 10000 → exec (.mgmtRstN low junction outlet) s = .next s.ignorePulse) ∧
    (10000 ≤ low → s.module.latched = false → s.module.off = false →
      exec (.mgmtRstN low junction outlet) s = .next s.moduleReset) ∧
    (10000 ≤ low → s.module.latched = true → ¬ (s.reg .MOD_STAT_LAST_OFF 0 = 5 ∧ (90 < junction ∨ 50 < outlet)) →
      exec (.mgmtRstN low junction outlet) s = .next s.closeSwitch) ∧
    (s.module.off = false → (∃ p, p < 4 ∧ s.procRuns 0 p = true) → ∃ t, exec (.coolantSample inlet outlet leak) s = .next t ∧
      t.reg .MOD_STAT_COOL_IN 0 = min inlet 255 ∧ t.reg .MOD_STAT_COOL_OUT 0 = min outlet 255 ∧
      (inlet + 20 ≤ outlet ∨ 60 ≤ outlet → t.regB .MOD_STAT_COOL_ALARM 0 = true) ∧
      (leak = true → t.regB .MOD_STAT_LEAK 0 = true)) ∧
    (exec .state s = .next (s.send (.smbus (natBytes s.smbState 1 ++
      natBytes (s.phase + 16 * s.reg .YLD_START_FAIL 0) 1 ++ natBytes (s.reg .MOD_STAT_LAST_OFF 0) 1 ++
      natBytes s.module.ignored 1)))) ∧
    (exec .serial s = .next (s.send (.smbus (natBytes (s.reg .ID_SERIAL_SERIAL 0) 16)))) ∧
    (∃ t, exec (.power vin) s = .next t ∧ t.module = { s.module with vin := vin } ∧ t.regs = s.regs ∧
      t.out = s.out ++ [.smbus (natBytes (min vin 65535) 2 ++ natBytes (s.reg .CLK_PWR_STAT_PIN 0) 2)]) ∧
    (exec .coolant s = .next (s.send (.smbus (natBytes (s.reg .MOD_STAT_COOL_IN 0) 1 ++ natBytes (s.reg .MOD_STAT_COOL_OUT 0) 1 ++
      natBytes (s.reg .MOD_STAT_LEAK 0 + 2 * s.reg .MOD_STAT_COOL_ALARM 0) 1)))) ∧
    (∃ m, exec .dies s = .next (s.send (.smbus (natBytes m 1))) ∧
      ∀ d, d < 8 → m.testBit d = (decide (d < s.dies) && s.dieLost d)) ∧
    (∃ t, exec .clearAlert s = .next t ∧ t.module.alert = false ∧ t.regB .MOD_STAT_LEAK 0 = false ∧
      t.regB .MOD_STAT_COOL_ALARM 0 = false) ∧
    (exec .alertResponseRead s = .next { s with module := { s.module with alert := false } }) ∧
    (exec .smbusTimeout s = .next s)

/-! ## Registers (00, 01) -/

/-- Derived (R15, R17, R18, R20). An access to one whole register that the class lets through: a read returns its fields in
their places; a write of a register that only holds plain fields puts them. -/
def Obligations.RegisterAccessComplete : Prop :=
  ∀ (src : Src) (off : BitVec 28) (size v die inst elem : Nat) (r : Rg) (s : State),
    s.reaches src = .granted → s.parts off.toNat size = some [⟨.reg die r inst elem 0, size, 0⟩] →
    s.gatedPart [⟨.reg die r inst elem 0, size, 0⟩] = none → s.copyKind die r inst elem = .own → size = r.info.width / 8 →
    (s.classAdmits src r inst elem false = true → r ≠ .INT_CLAIM → exec (.registerRead src ⟨.bar0, off⟩ size) s =
      .next (s.send (.readDone src (natBits (s.regVal src r inst elem) 0 (8 * size))))) ∧
    (s.classAdmits src r inst elem true = true →
      r ∈ [Rg.XFR_MODE, .CTX_MSIX, .YLD_STAGE_WDOG, .YLD_ROW_CE_LIMIT, .INT_CTL, .PKG_PART_CORE, .PCI_DBG_CTL] →
      exec (.registerWrite src ⟨.bar0, off⟩ size v) s =
        .next (s.putFields inst elem (s.merged r inst elem 0 size (natBits v 0 (8 * size))) (r.touched 0 size)))

/-- Derived (R16, R20, R30, R257, R371). Accesses that the device refuses. To a die that is not present, or an offset
without a register: Unsupported Request, and no register changes. To a gated block: an abort, and its bit of CLK_GATE_ERR.
By a port that the class forbids: a read returns 0, a write changes no register but the counts of the violation and, of an
RWL field, its record. -/
def Obligations.RefusedAccesses : Prop :=
  ∀ (src : Src) (off : BitVec 28) (size v : Nat) (s : State), s.reaches src = .granted →
    (s.dies ≤ off.toNat / 0x2000000 ∨ s.parts off.toNat size = none →
      exec (.registerRead src ⟨.bar0, off⟩ size) s = .next (s.unsupported src) ∧
      exec (.registerWrite src ⟨.bar0, off⟩ size v) s = .next (s.unsupported src) ∧ (s.unsupported src).regs = s.regs) ∧
    (∀ l die b, s.parts off.toNat size = some l → s.gatedPart l = some (die, b) →
      exec (.registerRead src ⟨.bar0, off⟩ size) s = .next ((s.completerAbort src).gateErr die b) ∧
      exec (.registerWrite src ⟨.bar0, off⟩ size v) s = .next ((s.completerAbort src).gateErr die b)) ∧
    (∀ (p : Fin 2) (die inst elem : Nat) (r : Rg), src = .port p → s.parts off.toNat size = some [⟨.reg die r inst elem 0, size, 0⟩] →
      s.gatedPart [⟨.reg die r inst elem 0, size, 0⟩] = none →
      (s.classAdmits src r inst elem false = false → exec (.registerRead src ⟨.bar0, off⟩ size) s =
        .next ((s.violation p).send (.readDone src 0))) ∧
      (s.classAdmits src r inst elem true = false → ∃ t, exec (.registerWrite src ⟨.bar0, off⟩ size v) s = .next t ∧
        t = { s with regs := t.regs } ∧
        ∀ f i, f ∉ [Fld.PCI_ACC_VIOL_COUNT, .PKG_LWR_ERR_OFFSET, .PKG_LWR_ERR_SRC, .PKG_LWR_ERR_COUNT] → t.reg f i = s.reg f i))

/-- Derived (R431). What a counter does at its end: one that saturates keeps its greatest value, one that wraps goes on from 0, and
neither changes anything but itself. -/
def Obligations.CountersAtTheirEnd : Prop :=
  ∀ (s : State) (f : Fld) (i : Nat),
    (s.reg f i = 2 ^ f.info.width - 1 → (s.bump f i).reg f i = 2 ^ f.info.width - 1 ∧ (s.wrapInc f i).reg f i = 0) ∧
    (s.reg f i < 2 ^ f.info.width - 1 → (s.bump f i).reg f i = s.reg f i + 1 ∧ (s.wrapInc f i).reg f i = s.reg f i + 1) ∧
    (∀ t : State, t = s.bump f i ∨ t = s.wrapInc f i → t = { s with regs := t.regs } ∧
      ∀ g k, (g, k) ≠ (f, i) → t.reg g k = s.reg g k)

/-- R98: TSET and TCLR. The tags of the rows named, from the row of the address register on and within its buffer, become
FULL or EMPTY; no other tag, no row and no address register changes. -/
def Obligations.TagInstructions : Prop :=
  ∀ (c : CoreAddr) (s : State) (w : W32) (full : Bool), s.Ready c (if full then 0x16 else 0x17) w →
    let k := s.core c.toNat
    let a := k.areg (wf w 23 3)
    ∃ t, exec (if full then .tset ⟨c, false⟩ else .tclr ⟨c, false⟩) s = .next t ∧ s.OnlyCore t c.toNat ∧
      (t.core c.toNat).rows = k.rows ∧ (t.core c.toNat).a = k.a ∧
      ∀ r, r < 64 → (t.core c.toNat).full r =
        if ∃ j, j < wf w 0 6 + 1 ∧ r = (aBase a + (aRow a + j) % aLen a) % 64 then full else k.full r
end

