-- ==== Sys2Proof/Laws/Tables.lean ====
section
/-! SUPPORT. What reading a sparse table gives after a change of it. -/

namespace Sys2Proof.Machine

variable {κ α : Type} [DecidableEq κ]

@[simp] theorem Tbl.get?_set_self (t : Tbl κ α) (k : κ) (v : α) : Tbl.get? (Tbl.set t k v) k = some v := by
  induction t with
  | nil => simp [Tbl.set, Tbl.get?]
  | cons e r ih =>
    obtain ⟨k', v'⟩ := e
    by_cases h : k' = k
    · simp [Tbl.set, Tbl.get?, h]
    · simp [Tbl.set, Tbl.get?, h, ih]

theorem Tbl.get?_set_other (t : Tbl κ α) (k j : κ) (v : α) (h : j ≠ k) : Tbl.get? (Tbl.set t k v) j = Tbl.get? t j := by
  induction t with
  | nil => simp [Tbl.set, Tbl.get?, Ne.symm h]
  | cons e r ih =>
    obtain ⟨k', v'⟩ := e
    by_cases hk : k' = k
    · subst hk; simp [Tbl.set, Tbl.get?, Ne.symm h]
    · by_cases hj : k' = j
      · subst hj; simp [Tbl.set, Tbl.get?, hk]
      · simp [Tbl.set, Tbl.get?, hk, hj, ih]

@[simp] theorem Tbl.getD_set_self (t : Tbl κ α) (k : κ) (v d : α) : Tbl.getD (Tbl.set t k v) k d = v := by
  simp [Tbl.getD]

theorem Tbl.getD_set_other (t : Tbl κ α) (k j : κ) (v d : α) (h : j ≠ k) :
    Tbl.getD (Tbl.set t k v) j d = Tbl.getD t j d := by
  simp [Tbl.getD, Tbl.get?_set_other t k j v h]

theorem Tbl.getD_set (t : Tbl κ α) (k j : κ) (v d : α) :
    Tbl.getD (Tbl.set t k v) j d = if j = k then v else Tbl.getD t j d := by
  by_cases h : j = k
  · simp [h]
  · simp [h, Tbl.getD_set_other t k j v d h]

@[simp] theorem Tbl.getD_nil (k : κ) (d : α) : Tbl.getD ([] : Tbl κ α) k d = d := rfl

end Sys2Proof.Machine
end

