-- ==== Sys2Proof/Laws/State.lean ====
section
/-! SUPPORT. What each elementary change of the state leaves as it was, field by field, and what it changes. -/

namespace Sys2Proof.Machine

/-! ## setReg -/

@[simp] theorem State.setReg_product (s : State) (f : Fld) (i v : Nat) : (s.setReg f i v).product = s.product := rfl
@[simp] theorem State.setReg_cores (s : State) (f : Fld) (i v : Nat) : (s.setReg f i v).cores = s.cores := rfl
@[simp] theorem State.setReg_net (s : State) (f : Fld) (i v : Nat) : (s.setReg f i v).net = s.net := rfl
@[simp] theorem State.setReg_hbm (s : State) (f : Fld) (i v : Nat) : (s.setReg f i v).hbm = s.hbm := rfl
@[simp] theorem State.setReg_hbmc (s : State) (f : Fld) (i v : Nat) : (s.setReg f i v).hbmc = s.hbmc := rfl
@[simp] theorem State.setReg_xfers (s : State) (f : Fld) (i v : Nat) : (s.setReg f i v).xfers = s.xfers := rfl
@[simp] theorem State.setReg_nextId (s : State) (f : Fld) (i v : Nat) : (s.setReg f i v).nextId = s.nextId := rfl
@[simp] theorem State.setReg_ctxs (s : State) (f : Fld) (i v : Nat) : (s.setReg f i v).ctxs = s.ctxs := rfl
@[simp] theorem State.setReg_ports (s : State) (f : Fld) (i v : Nat) : (s.setReg f i v).ports = s.ports := rfl
@[simp] theorem State.setReg_helm (s : State) (f : Fld) (i v : Nat) : (s.setReg f i v).helm = s.helm := rfl
@[simp] theorem State.setReg_power (s : State) (f : Fld) (i v : Nat) : (s.setReg f i v).power = s.power := rfl
@[simp] theorem State.setReg_fab (s : State) (f : Fld) (i v : Nat) : (s.setReg f i v).fab = s.fab := rfl
@[simp] theorem State.setReg_cfg (s : State) (f : Fld) (i v : Nat) : (s.setReg f i v).cfg = s.cfg := rfl
@[simp] theorem State.setReg_vault (s : State) (f : Fld) (i v : Nat) : (s.setReg f i v).vault = s.vault := rfl
@[simp] theorem State.setReg_sal (s : State) (f : Fld) (i v : Nat) : (s.setReg f i v).sal = s.sal := rfl
@[simp] theorem State.setReg_module (s : State) (f : Fld) (i v : Nat) : (s.setReg f i v).module = s.module := rfl
@[simp] theorem State.setReg_start (s : State) (f : Fld) (i v : Nat) : (s.setReg f i v).start = s.start := rfl
@[simp] theorem State.setReg_timer (s : State) (f : Fld) (i v : Nat) : (s.setReg f i v).timer = s.timer := rfl
@[simp] theorem State.setReg_free (s : State) (f : Fld) (i v : Nat) : (s.setReg f i v).free = s.free := rfl
@[simp] theorem State.setReg_out (s : State) (f : Fld) (i v : Nat) : (s.setReg f i v).out = s.out := rfl
@[simp] theorem State.setReg_pending (s : State) (f : Fld) (i v : Nat) : (s.setReg f i v).pending = s.pending := rfl
@[simp] theorem State.setReg_core (s : State) (f : Fld) (i v : Nat) (j : Nat) : (s.setReg f i v).core j = s.core j := rfl
@[simp] theorem State.setReg_ctx (s : State) (f : Fld) (i v : Nat) (j : Nat) : (s.setReg f i v).ctx j = s.ctx j := rfl

/-! ## bumpN -/

@[simp] theorem State.bumpN_product (s : State) (f : Fld) (i n : Nat) : (s.bumpN f i n).product = s.product := rfl
@[simp] theorem State.bumpN_cores (s : State) (f : Fld) (i n : Nat) : (s.bumpN f i n).cores = s.cores := rfl
@[simp] theorem State.bumpN_net (s : State) (f : Fld) (i n : Nat) : (s.bumpN f i n).net = s.net := rfl
@[simp] theorem State.bumpN_hbm (s : State) (f : Fld) (i n : Nat) : (s.bumpN f i n).hbm = s.hbm := rfl
@[simp] theorem State.bumpN_hbmc (s : State) (f : Fld) (i n : Nat) : (s.bumpN f i n).hbmc = s.hbmc := rfl
@[simp] theorem State.bumpN_xfers (s : State) (f : Fld) (i n : Nat) : (s.bumpN f i n).xfers = s.xfers := rfl
@[simp] theorem State.bumpN_nextId (s : State) (f : Fld) (i n : Nat) : (s.bumpN f i n).nextId = s.nextId := rfl
@[simp] theorem State.bumpN_ctxs (s : State) (f : Fld) (i n : Nat) : (s.bumpN f i n).ctxs = s.ctxs := rfl
@[simp] theorem State.bumpN_ports (s : State) (f : Fld) (i n : Nat) : (s.bumpN f i n).ports = s.ports := rfl
@[simp] theorem State.bumpN_helm (s : State) (f : Fld) (i n : Nat) : (s.bumpN f i n).helm = s.helm := rfl
@[simp] theorem State.bumpN_power (s : State) (f : Fld) (i n : Nat) : (s.bumpN f i n).power = s.power := rfl
@[simp] theorem State.bumpN_fab (s : State) (f : Fld) (i n : Nat) : (s.bumpN f i n).fab = s.fab := rfl
@[simp] theorem State.bumpN_cfg (s : State) (f : Fld) (i n : Nat) : (s.bumpN f i n).cfg = s.cfg := rfl
@[simp] theorem State.bumpN_vault (s : State) (f : Fld) (i n : Nat) : (s.bumpN f i n).vault = s.vault := rfl
@[simp] theorem State.bumpN_sal (s : State) (f : Fld) (i n : Nat) : (s.bumpN f i n).sal = s.sal := rfl
@[simp] theorem State.bumpN_module (s : State) (f : Fld) (i n : Nat) : (s.bumpN f i n).module = s.module := rfl
@[simp] theorem State.bumpN_start (s : State) (f : Fld) (i n : Nat) : (s.bumpN f i n).start = s.start := rfl
@[simp] theorem State.bumpN_timer (s : State) (f : Fld) (i n : Nat) : (s.bumpN f i n).timer = s.timer := rfl
@[simp] theorem State.bumpN_free (s : State) (f : Fld) (i n : Nat) : (s.bumpN f i n).free = s.free := rfl
@[simp] theorem State.bumpN_out (s : State) (f : Fld) (i n : Nat) : (s.bumpN f i n).out = s.out := rfl
@[simp] theorem State.bumpN_pending (s : State) (f : Fld) (i n : Nat) : (s.bumpN f i n).pending = s.pending := rfl
@[simp] theorem State.bumpN_core (s : State) (f : Fld) (i n : Nat) (j : Nat) : (s.bumpN f i n).core j = s.core j := rfl
@[simp] theorem State.bumpN_ctx (s : State) (f : Fld) (i n : Nat) (j : Nat) : (s.bumpN f i n).ctx j = s.ctx j := rfl

/-! ## bump -/

@[simp] theorem State.bump_product (s : State) (f : Fld) (i : Nat) : (s.bump f i).product = s.product := rfl
@[simp] theorem State.bump_cores (s : State) (f : Fld) (i : Nat) : (s.bump f i).cores = s.cores := rfl
@[simp] theorem State.bump_net (s : State) (f : Fld) (i : Nat) : (s.bump f i).net = s.net := rfl
@[simp] theorem State.bump_hbm (s : State) (f : Fld) (i : Nat) : (s.bump f i).hbm = s.hbm := rfl
@[simp] theorem State.bump_hbmc (s : State) (f : Fld) (i : Nat) : (s.bump f i).hbmc = s.hbmc := rfl
@[simp] theorem State.bump_xfers (s : State) (f : Fld) (i : Nat) : (s.bump f i).xfers = s.xfers := rfl
@[simp] theorem State.bump_nextId (s : State) (f : Fld) (i : Nat) : (s.bump f i).nextId = s.nextId := rfl
@[simp] theorem State.bump_ctxs (s : State) (f : Fld) (i : Nat) : (s.bump f i).ctxs = s.ctxs := rfl
@[simp] theorem State.bump_ports (s : State) (f : Fld) (i : Nat) : (s.bump f i).ports = s.ports := rfl
@[simp] theorem State.bump_helm (s : State) (f : Fld) (i : Nat) : (s.bump f i).helm = s.helm := rfl
@[simp] theorem State.bump_power (s : State) (f : Fld) (i : Nat) : (s.bump f i).power = s.power := rfl
@[simp] theorem State.bump_fab (s : State) (f : Fld) (i : Nat) : (s.bump f i).fab = s.fab := rfl
@[simp] theorem State.bump_cfg (s : State) (f : Fld) (i : Nat) : (s.bump f i).cfg = s.cfg := rfl
@[simp] theorem State.bump_vault (s : State) (f : Fld) (i : Nat) : (s.bump f i).vault = s.vault := rfl
@[simp] theorem State.bump_sal (s : State) (f : Fld) (i : Nat) : (s.bump f i).sal = s.sal := rfl
@[simp] theorem State.bump_module (s : State) (f : Fld) (i : Nat) : (s.bump f i).module = s.module := rfl
@[simp] theorem State.bump_start (s : State) (f : Fld) (i : Nat) : (s.bump f i).start = s.start := rfl
@[simp] theorem State.bump_timer (s : State) (f : Fld) (i : Nat) : (s.bump f i).timer = s.timer := rfl
@[simp] theorem State.bump_free (s : State) (f : Fld) (i : Nat) : (s.bump f i).free = s.free := rfl
@[simp] theorem State.bump_out (s : State) (f : Fld) (i : Nat) : (s.bump f i).out = s.out := rfl
@[simp] theorem State.bump_pending (s : State) (f : Fld) (i : Nat) : (s.bump f i).pending = s.pending := rfl
@[simp] theorem State.bump_core (s : State) (f : Fld) (i : Nat) (j : Nat) : (s.bump f i).core j = s.core j := rfl
@[simp] theorem State.bump_ctx (s : State) (f : Fld) (i : Nat) (j : Nat) : (s.bump f i).ctx j = s.ctx j := rfl

/-! ## wrapInc -/

@[simp] theorem State.wrapInc_product (s : State) (f : Fld) (i : Nat) : (s.wrapInc f i).product = s.product := rfl
@[simp] theorem State.wrapInc_cores (s : State) (f : Fld) (i : Nat) : (s.wrapInc f i).cores = s.cores := rfl
@[simp] theorem State.wrapInc_net (s : State) (f : Fld) (i : Nat) : (s.wrapInc f i).net = s.net := rfl
@[simp] theorem State.wrapInc_hbm (s : State) (f : Fld) (i : Nat) : (s.wrapInc f i).hbm = s.hbm := rfl
@[simp] theorem State.wrapInc_hbmc (s : State) (f : Fld) (i : Nat) : (s.wrapInc f i).hbmc = s.hbmc := rfl
@[simp] theorem State.wrapInc_xfers (s : State) (f : Fld) (i : Nat) : (s.wrapInc f i).xfers = s.xfers := rfl
@[simp] theorem State.wrapInc_nextId (s : State) (f : Fld) (i : Nat) : (s.wrapInc f i).nextId = s.nextId := rfl
@[simp] theorem State.wrapInc_ctxs (s : State) (f : Fld) (i : Nat) : (s.wrapInc f i).ctxs = s.ctxs := rfl
@[simp] theorem State.wrapInc_ports (s : State) (f : Fld) (i : Nat) : (s.wrapInc f i).ports = s.ports := rfl
@[simp] theorem State.wrapInc_helm (s : State) (f : Fld) (i : Nat) : (s.wrapInc f i).helm = s.helm := rfl
@[simp] theorem State.wrapInc_power (s : State) (f : Fld) (i : Nat) : (s.wrapInc f i).power = s.power := rfl
@[simp] theorem State.wrapInc_fab (s : State) (f : Fld) (i : Nat) : (s.wrapInc f i).fab = s.fab := rfl
@[simp] theorem State.wrapInc_cfg (s : State) (f : Fld) (i : Nat) : (s.wrapInc f i).cfg = s.cfg := rfl
@[simp] theorem State.wrapInc_vault (s : State) (f : Fld) (i : Nat) : (s.wrapInc f i).vault = s.vault := rfl
@[simp] theorem State.wrapInc_sal (s : State) (f : Fld) (i : Nat) : (s.wrapInc f i).sal = s.sal := rfl
@[simp] theorem State.wrapInc_module (s : State) (f : Fld) (i : Nat) : (s.wrapInc f i).module = s.module := rfl
@[simp] theorem State.wrapInc_start (s : State) (f : Fld) (i : Nat) : (s.wrapInc f i).start = s.start := rfl
@[simp] theorem State.wrapInc_timer (s : State) (f : Fld) (i : Nat) : (s.wrapInc f i).timer = s.timer := rfl
@[simp] theorem State.wrapInc_free (s : State) (f : Fld) (i : Nat) : (s.wrapInc f i).free = s.free := rfl
@[simp] theorem State.wrapInc_out (s : State) (f : Fld) (i : Nat) : (s.wrapInc f i).out = s.out := rfl
@[simp] theorem State.wrapInc_pending (s : State) (f : Fld) (i : Nat) : (s.wrapInc f i).pending = s.pending := rfl
@[simp] theorem State.wrapInc_core (s : State) (f : Fld) (i : Nat) (j : Nat) : (s.wrapInc f i).core j = s.core j := rfl
@[simp] theorem State.wrapInc_ctx (s : State) (f : Fld) (i : Nat) (j : Nat) : (s.wrapInc f i).ctx j = s.ctx j := rfl

/-! ## drew -/

@[simp] theorem State.drew_product (s : State) (n : Nat) : (s.drew n).product = s.product := rfl
@[simp] theorem State.drew_regs (s : State) (n : Nat) : (s.drew n).regs = s.regs := rfl
@[simp] theorem State.drew_cores (s : State) (n : Nat) : (s.drew n).cores = s.cores := rfl
@[simp] theorem State.drew_net (s : State) (n : Nat) : (s.drew n).net = s.net := rfl
@[simp] theorem State.drew_hbm (s : State) (n : Nat) : (s.drew n).hbm = s.hbm := rfl
@[simp] theorem State.drew_hbmc (s : State) (n : Nat) : (s.drew n).hbmc = s.hbmc := rfl
@[simp] theorem State.drew_xfers (s : State) (n : Nat) : (s.drew n).xfers = s.xfers := rfl
@[simp] theorem State.drew_nextId (s : State) (n : Nat) : (s.drew n).nextId = s.nextId := rfl
@[simp] theorem State.drew_ctxs (s : State) (n : Nat) : (s.drew n).ctxs = s.ctxs := rfl
@[simp] theorem State.drew_ports (s : State) (n : Nat) : (s.drew n).ports = s.ports := rfl
@[simp] theorem State.drew_helm (s : State) (n : Nat) : (s.drew n).helm = s.helm := rfl
@[simp] theorem State.drew_power (s : State) (n : Nat) : (s.drew n).power = s.power := rfl
@[simp] theorem State.drew_fab (s : State) (n : Nat) : (s.drew n).fab = s.fab := rfl
@[simp] theorem State.drew_cfg (s : State) (n : Nat) : (s.drew n).cfg = s.cfg := rfl
@[simp] theorem State.drew_vault (s : State) (n : Nat) : (s.drew n).vault = s.vault := rfl
@[simp] theorem State.drew_sal (s : State) (n : Nat) : (s.drew n).sal = s.sal := rfl
@[simp] theorem State.drew_module (s : State) (n : Nat) : (s.drew n).module = s.module := rfl
@[simp] theorem State.drew_start (s : State) (n : Nat) : (s.drew n).start = s.start := rfl
@[simp] theorem State.drew_timer (s : State) (n : Nat) : (s.drew n).timer = s.timer := rfl
@[simp] theorem State.drew_out (s : State) (n : Nat) : (s.drew n).out = s.out := rfl
@[simp] theorem State.drew_pending (s : State) (n : Nat) : (s.drew n).pending = s.pending := rfl
@[simp] theorem State.drew_reg (s : State) (n : Nat) (fl : Fld) (j : Nat) : (s.drew n).reg fl j = s.reg fl j := rfl
@[simp] theorem State.drew_core (s : State) (n : Nat) (j : Nat) : (s.drew n).core j = s.core j := rfl
@[simp] theorem State.drew_ctx (s : State) (n : Nat) (j : Nat) : (s.drew n).ctx j = s.ctx j := rfl

/-! ## send -/

@[simp] theorem State.send_product (s : State) (o : Out) : (s.send o).product = s.product := rfl
@[simp] theorem State.send_regs (s : State) (o : Out) : (s.send o).regs = s.regs := rfl
@[simp] theorem State.send_cores (s : State) (o : Out) : (s.send o).cores = s.cores := rfl
@[simp] theorem State.send_net (s : State) (o : Out) : (s.send o).net = s.net := rfl
@[simp] theorem State.send_hbm (s : State) (o : Out) : (s.send o).hbm = s.hbm := rfl
@[simp] theorem State.send_hbmc (s : State) (o : Out) : (s.send o).hbmc = s.hbmc := rfl
@[simp] theorem State.send_xfers (s : State) (o : Out) : (s.send o).xfers = s.xfers := rfl
@[simp] theorem State.send_nextId (s : State) (o : Out) : (s.send o).nextId = s.nextId := rfl
@[simp] theorem State.send_ctxs (s : State) (o : Out) : (s.send o).ctxs = s.ctxs := rfl
@[simp] theorem State.send_ports (s : State) (o : Out) : (s.send o).ports = s.ports := rfl
@[simp] theorem State.send_helm (s : State) (o : Out) : (s.send o).helm = s.helm := rfl
@[simp] theorem State.send_power (s : State) (o : Out) : (s.send o).power = s.power := rfl
@[simp] theorem State.send_fab (s : State) (o : Out) : (s.send o).fab = s.fab := rfl
@[simp] theorem State.send_cfg (s : State) (o : Out) : (s.send o).cfg = s.cfg := rfl
@[simp] theorem State.send_vault (s : State) (o : Out) : (s.send o).vault = s.vault := rfl
@[simp] theorem State.send_sal (s : State) (o : Out) : (s.send o).sal = s.sal := rfl
@[simp] theorem State.send_module (s : State) (o : Out) : (s.send o).module = s.module := rfl
@[simp] theorem State.send_start (s : State) (o : Out) : (s.send o).start = s.start := rfl
@[simp] theorem State.send_timer (s : State) (o : Out) : (s.send o).timer = s.timer := rfl
@[simp] theorem State.send_free (s : State) (o : Out) : (s.send o).free = s.free := rfl
@[simp] theorem State.send_pending (s : State) (o : Out) : (s.send o).pending = s.pending := rfl
@[simp] theorem State.send_reg (s : State) (o : Out) (fl : Fld) (j : Nat) : (s.send o).reg fl j = s.reg fl j := rfl
@[simp] theorem State.send_core (s : State) (o : Out) (j : Nat) : (s.send o).core j = s.core j := rfl
@[simp] theorem State.send_ctx (s : State) (o : Out) (j : Nat) : (s.send o).ctx j = s.ctx j := rfl

/-! ## setCore -/

@[simp] theorem State.setCore_product (s : State) (c : Nat) (k : Core) : (s.setCore c k).product = s.product := rfl
@[simp] theorem State.setCore_regs (s : State) (c : Nat) (k : Core) : (s.setCore c k).regs = s.regs := rfl
@[simp] theorem State.setCore_net (s : State) (c : Nat) (k : Core) : (s.setCore c k).net = s.net := rfl
@[simp] theorem State.setCore_hbm (s : State) (c : Nat) (k : Core) : (s.setCore c k).hbm = s.hbm := rfl
@[simp] theorem State.setCore_hbmc (s : State) (c : Nat) (k : Core) : (s.setCore c k).hbmc = s.hbmc := rfl
@[simp] theorem State.setCore_xfers (s : State) (c : Nat) (k : Core) : (s.setCore c k).xfers = s.xfers := rfl
@[simp] theorem State.setCore_nextId (s : State) (c : Nat) (k : Core) : (s.setCore c k).nextId = s.nextId := rfl
@[simp] theorem State.setCore_ctxs (s : State) (c : Nat) (k : Core) : (s.setCore c k).ctxs = s.ctxs := rfl
@[simp] theorem State.setCore_ports (s : State) (c : Nat) (k : Core) : (s.setCore c k).ports = s.ports := rfl
@[simp] theorem State.setCore_helm (s : State) (c : Nat) (k : Core) : (s.setCore c k).helm = s.helm := rfl
@[simp] theorem State.setCore_power (s : State) (c : Nat) (k : Core) : (s.setCore c k).power = s.power := rfl
@[simp] theorem State.setCore_fab (s : State) (c : Nat) (k : Core) : (s.setCore c k).fab = s.fab := rfl
@[simp] theorem State.setCore_cfg (s : State) (c : Nat) (k : Core) : (s.setCore c k).cfg = s.cfg := rfl
@[simp] theorem State.setCore_vault (s : State) (c : Nat) (k : Core) : (s.setCore c k).vault = s.vault := rfl
@[simp] theorem State.setCore_sal (s : State) (c : Nat) (k : Core) : (s.setCore c k).sal = s.sal := rfl
@[simp] theorem State.setCore_module (s : State) (c : Nat) (k : Core) : (s.setCore c k).module = s.module := rfl
@[simp] theorem State.setCore_start (s : State) (c : Nat) (k : Core) : (s.setCore c k).start = s.start := rfl
@[simp] theorem State.setCore_timer (s : State) (c : Nat) (k : Core) : (s.setCore c k).timer = s.timer := rfl
@[simp] theorem State.setCore_free (s : State) (c : Nat) (k : Core) : (s.setCore c k).free = s.free := rfl
@[simp] theorem State.setCore_out (s : State) (c : Nat) (k : Core) : (s.setCore c k).out = s.out := rfl
@[simp] theorem State.setCore_pending (s : State) (c : Nat) (k : Core) : (s.setCore c k).pending = s.pending := rfl
@[simp] theorem State.setCore_reg (s : State) (c : Nat) (k : Core) (fl : Fld) (j : Nat) : (s.setCore c k).reg fl j = s.reg fl j := rfl
@[simp] theorem State.setCore_ctx (s : State) (c : Nat) (k : Core) (j : Nat) : (s.setCore c k).ctx j = s.ctx j := rfl

/-! ## modCore -/

@[simp] theorem State.modCore_product (s : State) (c : Nat) (g : Core → Core) : (s.modCore c g).product = s.product := rfl
@[simp] theorem State.modCore_regs (s : State) (c : Nat) (g : Core → Core) : (s.modCore c g).regs = s.regs := rfl
@[simp] theorem State.modCore_net (s : State) (c : Nat) (g : Core → Core) : (s.modCore c g).net = s.net := rfl
@[simp] theorem State.modCore_hbm (s : State) (c : Nat) (g : Core → Core) : (s.modCore c g).hbm = s.hbm := rfl
@[simp] theorem State.modCore_hbmc (s : State) (c : Nat) (g : Core → Core) : (s.modCore c g).hbmc = s.hbmc := rfl
@[simp] theorem State.modCore_xfers (s : State) (c : Nat) (g : Core → Core) : (s.modCore c g).xfers = s.xfers := rfl
@[simp] theorem State.modCore_nextId (s : State) (c : Nat) (g : Core → Core) : (s.modCore c g).nextId = s.nextId := rfl
@[simp] theorem State.modCore_ctxs (s : State) (c : Nat) (g : Core → Core) : (s.modCore c g).ctxs = s.ctxs := rfl
@[simp] theorem State.modCore_ports (s : State) (c : Nat) (g : Core → Core) : (s.modCore c g).ports = s.ports := rfl
@[simp] theorem State.modCore_helm (s : State) (c : Nat) (g : Core → Core) : (s.modCore c g).helm = s.helm := rfl
@[simp] theorem State.modCore_power (s : State) (c : Nat) (g : Core → Core) : (s.modCore c g).power = s.power := rfl
@[simp] theorem State.modCore_fab (s : State) (c : Nat) (g : Core → Core) : (s.modCore c g).fab = s.fab := rfl
@[simp] theorem State.modCore_cfg (s : State) (c : Nat) (g : Core → Core) : (s.modCore c g).cfg = s.cfg := rfl
@[simp] theorem State.modCore_vault (s : State) (c : Nat) (g : Core → Core) : (s.modCore c g).vault = s.vault := rfl
@[simp] theorem State.modCore_sal (s : State) (c : Nat) (g : Core → Core) : (s.modCore c g).sal = s.sal := rfl
@[simp] theorem State.modCore_module (s : State) (c : Nat) (g : Core → Core) : (s.modCore c g).module = s.module := rfl
@[simp] theorem State.modCore_start (s : State) (c : Nat) (g : Core → Core) : (s.modCore c g).start = s.start := rfl
@[simp] theorem State.modCore_timer (s : State) (c : Nat) (g : Core → Core) : (s.modCore c g).timer = s.timer := rfl
@[simp] theorem State.modCore_free (s : State) (c : Nat) (g : Core → Core) : (s.modCore c g).free = s.free := rfl
@[simp] theorem State.modCore_out (s : State) (c : Nat) (g : Core → Core) : (s.modCore c g).out = s.out := rfl
@[simp] theorem State.modCore_pending (s : State) (c : Nat) (g : Core → Core) : (s.modCore c g).pending = s.pending := rfl
@[simp] theorem State.modCore_reg (s : State) (c : Nat) (g : Core → Core) (fl : Fld) (j : Nat) : (s.modCore c g).reg fl j = s.reg fl j := rfl
@[simp] theorem State.modCore_ctx (s : State) (c : Nat) (g : Core → Core) (j : Nat) : (s.modCore c g).ctx j = s.ctx j := rfl

/-! ## modCtx -/

@[simp] theorem State.modCtx_product (s : State) (x : Nat) (g : Ctx → Ctx) : (s.modCtx x g).product = s.product := rfl
@[simp] theorem State.modCtx_regs (s : State) (x : Nat) (g : Ctx → Ctx) : (s.modCtx x g).regs = s.regs := rfl
@[simp] theorem State.modCtx_cores (s : State) (x : Nat) (g : Ctx → Ctx) : (s.modCtx x g).cores = s.cores := rfl
@[simp] theorem State.modCtx_net (s : State) (x : Nat) (g : Ctx → Ctx) : (s.modCtx x g).net = s.net := rfl
@[simp] theorem State.modCtx_hbm (s : State) (x : Nat) (g : Ctx → Ctx) : (s.modCtx x g).hbm = s.hbm := rfl
@[simp] theorem State.modCtx_hbmc (s : State) (x : Nat) (g : Ctx → Ctx) : (s.modCtx x g).hbmc = s.hbmc := rfl
@[simp] theorem State.modCtx_xfers (s : State) (x : Nat) (g : Ctx → Ctx) : (s.modCtx x g).xfers = s.xfers := rfl
@[simp] theorem State.modCtx_nextId (s : State) (x : Nat) (g : Ctx → Ctx) : (s.modCtx x g).nextId = s.nextId := rfl
@[simp] theorem State.modCtx_ports (s : State) (x : Nat) (g : Ctx → Ctx) : (s.modCtx x g).ports = s.ports := rfl
@[simp] theorem State.modCtx_helm (s : State) (x : Nat) (g : Ctx → Ctx) : (s.modCtx x g).helm = s.helm := rfl
@[simp] theorem State.modCtx_power (s : State) (x : Nat) (g : Ctx → Ctx) : (s.modCtx x g).power = s.power := rfl
@[simp] theorem State.modCtx_fab (s : State) (x : Nat) (g : Ctx → Ctx) : (s.modCtx x g).fab = s.fab := rfl
@[simp] theorem State.modCtx_cfg (s : State) (x : Nat) (g : Ctx → Ctx) : (s.modCtx x g).cfg = s.cfg := rfl
@[simp] theorem State.modCtx_vault (s : State) (x : Nat) (g : Ctx → Ctx) : (s.modCtx x g).vault = s.vault := rfl
@[simp] theorem State.modCtx_sal (s : State) (x : Nat) (g : Ctx → Ctx) : (s.modCtx x g).sal = s.sal := rfl
@[simp] theorem State.modCtx_module (s : State) (x : Nat) (g : Ctx → Ctx) : (s.modCtx x g).module = s.module := rfl
@[simp] theorem State.modCtx_start (s : State) (x : Nat) (g : Ctx → Ctx) : (s.modCtx x g).start = s.start := rfl
@[simp] theorem State.modCtx_timer (s : State) (x : Nat) (g : Ctx → Ctx) : (s.modCtx x g).timer = s.timer := rfl
@[simp] theorem State.modCtx_free (s : State) (x : Nat) (g : Ctx → Ctx) : (s.modCtx x g).free = s.free := rfl
@[simp] theorem State.modCtx_out (s : State) (x : Nat) (g : Ctx → Ctx) : (s.modCtx x g).out = s.out := rfl
@[simp] theorem State.modCtx_pending (s : State) (x : Nat) (g : Ctx → Ctx) : (s.modCtx x g).pending = s.pending := rfl
@[simp] theorem State.modCtx_reg (s : State) (x : Nat) (g : Ctx → Ctx) (fl : Fld) (j : Nat) : (s.modCtx x g).reg fl j = s.reg fl j := rfl
@[simp] theorem State.modCtx_core (s : State) (x : Nat) (g : Ctx → Ctx) (j : Nat) : (s.modCtx x g).core j = s.core j := rfl

/-! ## modPort -/

@[simp] theorem State.modPort_product (s : State) (p : Nat) (g : PortS → PortS) : (s.modPort p g).product = s.product := rfl
@[simp] theorem State.modPort_regs (s : State) (p : Nat) (g : PortS → PortS) : (s.modPort p g).regs = s.regs := rfl
@[simp] theorem State.modPort_cores (s : State) (p : Nat) (g : PortS → PortS) : (s.modPort p g).cores = s.cores := rfl
@[simp] theorem State.modPort_net (s : State) (p : Nat) (g : PortS → PortS) : (s.modPort p g).net = s.net := rfl
@[simp] theorem State.modPort_hbm (s : State) (p : Nat) (g : PortS → PortS) : (s.modPort p g).hbm = s.hbm := rfl
@[simp] theorem State.modPort_hbmc (s : State) (p : Nat) (g : PortS → PortS) : (s.modPort p g).hbmc = s.hbmc := rfl
@[simp] theorem State.modPort_xfers (s : State) (p : Nat) (g : PortS → PortS) : (s.modPort p g).xfers = s.xfers := rfl
@[simp] theorem State.modPort_nextId (s : State) (p : Nat) (g : PortS → PortS) : (s.modPort p g).nextId = s.nextId := rfl
@[simp] theorem State.modPort_ctxs (s : State) (p : Nat) (g : PortS → PortS) : (s.modPort p g).ctxs = s.ctxs := rfl
@[simp] theorem State.modPort_helm (s : State) (p : Nat) (g : PortS → PortS) : (s.modPort p g).helm = s.helm := rfl
@[simp] theorem State.modPort_power (s : State) (p : Nat) (g : PortS → PortS) : (s.modPort p g).power = s.power := rfl
@[simp] theorem State.modPort_fab (s : State) (p : Nat) (g : PortS → PortS) : (s.modPort p g).fab = s.fab := rfl
@[simp] theorem State.modPort_cfg (s : State) (p : Nat) (g : PortS → PortS) : (s.modPort p g).cfg = s.cfg := rfl
@[simp] theorem State.modPort_vault (s : State) (p : Nat) (g : PortS → PortS) : (s.modPort p g).vault = s.vault := rfl
@[simp] theorem State.modPort_sal (s : State) (p : Nat) (g : PortS → PortS) : (s.modPort p g).sal = s.sal := rfl
@[simp] theorem State.modPort_module (s : State) (p : Nat) (g : PortS → PortS) : (s.modPort p g).module = s.module := rfl
@[simp] theorem State.modPort_start (s : State) (p : Nat) (g : PortS → PortS) : (s.modPort p g).start = s.start := rfl
@[simp] theorem State.modPort_timer (s : State) (p : Nat) (g : PortS → PortS) : (s.modPort p g).timer = s.timer := rfl
@[simp] theorem State.modPort_free (s : State) (p : Nat) (g : PortS → PortS) : (s.modPort p g).free = s.free := rfl
@[simp] theorem State.modPort_out (s : State) (p : Nat) (g : PortS → PortS) : (s.modPort p g).out = s.out := rfl
@[simp] theorem State.modPort_pending (s : State) (p : Nat) (g : PortS → PortS) : (s.modPort p g).pending = s.pending := rfl
@[simp] theorem State.modPort_reg (s : State) (p : Nat) (g : PortS → PortS) (fl : Fld) (j : Nat) : (s.modPort p g).reg fl j = s.reg fl j := rfl
@[simp] theorem State.modPort_core (s : State) (p : Nat) (g : PortS → PortS) (j : Nat) : (s.modPort p g).core j = s.core j := rfl
@[simp] theorem State.modPort_ctx (s : State) (p : Nat) (g : PortS → PortS) (j : Nat) : (s.modPort p g).ctx j = s.ctx j := rfl

/-! ## modStk -/

@[simp] theorem State.modStk_product (s : State) (h : Nat) (g : Stack → Stack) : (s.modStk h g).product = s.product := rfl
@[simp] theorem State.modStk_regs (s : State) (h : Nat) (g : Stack → Stack) : (s.modStk h g).regs = s.regs := rfl
@[simp] theorem State.modStk_cores (s : State) (h : Nat) (g : Stack → Stack) : (s.modStk h g).cores = s.cores := rfl
@[simp] theorem State.modStk_net (s : State) (h : Nat) (g : Stack → Stack) : (s.modStk h g).net = s.net := rfl
@[simp] theorem State.modStk_hbm (s : State) (h : Nat) (g : Stack → Stack) : (s.modStk h g).hbm = s.hbm := rfl
@[simp] theorem State.modStk_xfers (s : State) (h : Nat) (g : Stack → Stack) : (s.modStk h g).xfers = s.xfers := rfl
@[simp] theorem State.modStk_nextId (s : State) (h : Nat) (g : Stack → Stack) : (s.modStk h g).nextId = s.nextId := rfl
@[simp] theorem State.modStk_ctxs (s : State) (h : Nat) (g : Stack → Stack) : (s.modStk h g).ctxs = s.ctxs := rfl
@[simp] theorem State.modStk_ports (s : State) (h : Nat) (g : Stack → Stack) : (s.modStk h g).ports = s.ports := rfl
@[simp] theorem State.modStk_helm (s : State) (h : Nat) (g : Stack → Stack) : (s.modStk h g).helm = s.helm := rfl
@[simp] theorem State.modStk_power (s : State) (h : Nat) (g : Stack → Stack) : (s.modStk h g).power = s.power := rfl
@[simp] theorem State.modStk_fab (s : State) (h : Nat) (g : Stack → Stack) : (s.modStk h g).fab = s.fab := rfl
@[simp] theorem State.modStk_cfg (s : State) (h : Nat) (g : Stack → Stack) : (s.modStk h g).cfg = s.cfg := rfl
@[simp] theorem State.modStk_vault (s : State) (h : Nat) (g : Stack → Stack) : (s.modStk h g).vault = s.vault := rfl
@[simp] theorem State.modStk_sal (s : State) (h : Nat) (g : Stack → Stack) : (s.modStk h g).sal = s.sal := rfl
@[simp] theorem State.modStk_module (s : State) (h : Nat) (g : Stack → Stack) : (s.modStk h g).module = s.module := rfl
@[simp] theorem State.modStk_start (s : State) (h : Nat) (g : Stack → Stack) : (s.modStk h g).start = s.start := rfl
@[simp] theorem State.modStk_timer (s : State) (h : Nat) (g : Stack → Stack) : (s.modStk h g).timer = s.timer := rfl
@[simp] theorem State.modStk_free (s : State) (h : Nat) (g : Stack → Stack) : (s.modStk h g).free = s.free := rfl
@[simp] theorem State.modStk_out (s : State) (h : Nat) (g : Stack → Stack) : (s.modStk h g).out = s.out := rfl
@[simp] theorem State.modStk_pending (s : State) (h : Nat) (g : Stack → Stack) : (s.modStk h g).pending = s.pending := rfl
@[simp] theorem State.modStk_reg (s : State) (h : Nat) (g : Stack → Stack) (fl : Fld) (j : Nat) : (s.modStk h g).reg fl j = s.reg fl j := rfl
@[simp] theorem State.modStk_core (s : State) (h : Nat) (g : Stack → Stack) (j : Nat) : (s.modStk h g).core j = s.core j := rfl
@[simp] theorem State.modStk_ctx (s : State) (h : Nat) (g : Stack → Stack) (j : Nat) : (s.modStk h g).ctx j = s.ctx j := rfl

/-! ## modVault -/

@[simp] theorem State.modVault_product (s : State) (g : Vault → Vault) : (s.modVault g).product = s.product := rfl
@[simp] theorem State.modVault_regs (s : State) (g : Vault → Vault) : (s.modVault g).regs = s.regs := rfl
@[simp] theorem State.modVault_cores (s : State) (g : Vault → Vault) : (s.modVault g).cores = s.cores := rfl
@[simp] theorem State.modVault_net (s : State) (g : Vault → Vault) : (s.modVault g).net = s.net := rfl
@[simp] theorem State.modVault_hbm (s : State) (g : Vault → Vault) : (s.modVault g).hbm = s.hbm := rfl
@[simp] theorem State.modVault_hbmc (s : State) (g : Vault → Vault) : (s.modVault g).hbmc = s.hbmc := rfl
@[simp] theorem State.modVault_xfers (s : State) (g : Vault → Vault) : (s.modVault g).xfers = s.xfers := rfl
@[simp] theorem State.modVault_nextId (s : State) (g : Vault → Vault) : (s.modVault g).nextId = s.nextId := rfl
@[simp] theorem State.modVault_ctxs (s : State) (g : Vault → Vault) : (s.modVault g).ctxs = s.ctxs := rfl
@[simp] theorem State.modVault_ports (s : State) (g : Vault → Vault) : (s.modVault g).ports = s.ports := rfl
@[simp] theorem State.modVault_helm (s : State) (g : Vault → Vault) : (s.modVault g).helm = s.helm := rfl
@[simp] theorem State.modVault_power (s : State) (g : Vault → Vault) : (s.modVault g).power = s.power := rfl
@[simp] theorem State.modVault_fab (s : State) (g : Vault → Vault) : (s.modVault g).fab = s.fab := rfl
@[simp] theorem State.modVault_cfg (s : State) (g : Vault → Vault) : (s.modVault g).cfg = s.cfg := rfl
@[simp] theorem State.modVault_sal (s : State) (g : Vault → Vault) : (s.modVault g).sal = s.sal := rfl
@[simp] theorem State.modVault_module (s : State) (g : Vault → Vault) : (s.modVault g).module = s.module := rfl
@[simp] theorem State.modVault_start (s : State) (g : Vault → Vault) : (s.modVault g).start = s.start := rfl
@[simp] theorem State.modVault_timer (s : State) (g : Vault → Vault) : (s.modVault g).timer = s.timer := rfl
@[simp] theorem State.modVault_free (s : State) (g : Vault → Vault) : (s.modVault g).free = s.free := rfl
@[simp] theorem State.modVault_out (s : State) (g : Vault → Vault) : (s.modVault g).out = s.out := rfl
@[simp] theorem State.modVault_pending (s : State) (g : Vault → Vault) : (s.modVault g).pending = s.pending := rfl
@[simp] theorem State.modVault_reg (s : State) (g : Vault → Vault) (fl : Fld) (j : Nat) : (s.modVault g).reg fl j = s.reg fl j := rfl
@[simp] theorem State.modVault_core (s : State) (g : Vault → Vault) (j : Nat) : (s.modVault g).core j = s.core j := rfl
@[simp] theorem State.modVault_ctx (s : State) (g : Vault → Vault) (j : Nat) : (s.modVault g).ctx j = s.ctx j := rfl

/-! ## modModule -/

@[simp] theorem State.modModule_product (s : State) (g : ModS → ModS) : (s.modModule g).product = s.product := rfl
@[simp] theorem State.modModule_regs (s : State) (g : ModS → ModS) : (s.modModule g).regs = s.regs := rfl
@[simp] theorem State.modModule_cores (s : State) (g : ModS → ModS) : (s.modModule g).cores = s.cores := rfl
@[simp] theorem State.modModule_net (s : State) (g : ModS → ModS) : (s.modModule g).net = s.net := rfl
@[simp] theorem State.modModule_hbm (s : State) (g : ModS → ModS) : (s.modModule g).hbm = s.hbm := rfl
@[simp] theorem State.modModule_hbmc (s : State) (g : ModS → ModS) : (s.modModule g).hbmc = s.hbmc := rfl
@[simp] theorem State.modModule_xfers (s : State) (g : ModS → ModS) : (s.modModule g).xfers = s.xfers := rfl
@[simp] theorem State.modModule_nextId (s : State) (g : ModS → ModS) : (s.modModule g).nextId = s.nextId := rfl
@[simp] theorem State.modModule_ctxs (s : State) (g : ModS → ModS) : (s.modModule g).ctxs = s.ctxs := rfl
@[simp] theorem State.modModule_ports (s : State) (g : ModS → ModS) : (s.modModule g).ports = s.ports := rfl
@[simp] theorem State.modModule_helm (s : State) (g : ModS → ModS) : (s.modModule g).helm = s.helm := rfl
@[simp] theorem State.modModule_power (s : State) (g : ModS → ModS) : (s.modModule g).power = s.power := rfl
@[simp] theorem State.modModule_fab (s : State) (g : ModS → ModS) : (s.modModule g).fab = s.fab := rfl
@[simp] theorem State.modModule_cfg (s : State) (g : ModS → ModS) : (s.modModule g).cfg = s.cfg := rfl
@[simp] theorem State.modModule_vault (s : State) (g : ModS → ModS) : (s.modModule g).vault = s.vault := rfl
@[simp] theorem State.modModule_sal (s : State) (g : ModS → ModS) : (s.modModule g).sal = s.sal := rfl
@[simp] theorem State.modModule_start (s : State) (g : ModS → ModS) : (s.modModule g).start = s.start := rfl
@[simp] theorem State.modModule_timer (s : State) (g : ModS → ModS) : (s.modModule g).timer = s.timer := rfl
@[simp] theorem State.modModule_free (s : State) (g : ModS → ModS) : (s.modModule g).free = s.free := rfl
@[simp] theorem State.modModule_out (s : State) (g : ModS → ModS) : (s.modModule g).out = s.out := rfl
@[simp] theorem State.modModule_pending (s : State) (g : ModS → ModS) : (s.modModule g).pending = s.pending := rfl
@[simp] theorem State.modModule_reg (s : State) (g : ModS → ModS) (fl : Fld) (j : Nat) : (s.modModule g).reg fl j = s.reg fl j := rfl
@[simp] theorem State.modModule_core (s : State) (g : ModS → ModS) (j : Nat) : (s.modModule g).core j = s.core j := rfl
@[simp] theorem State.modModule_ctx (s : State) (g : ModS → ModS) (j : Nat) : (s.modModule g).ctx j = s.ctx j := rfl

/-! ## modTile -/

@[simp] theorem State.modTile_product (s : State) (d t : Nat) (g : TileP → TileP) : (s.modTile d t g).product = s.product := rfl
@[simp] theorem State.modTile_regs (s : State) (d t : Nat) (g : TileP → TileP) : (s.modTile d t g).regs = s.regs := rfl
@[simp] theorem State.modTile_cores (s : State) (d t : Nat) (g : TileP → TileP) : (s.modTile d t g).cores = s.cores := rfl
@[simp] theorem State.modTile_net (s : State) (d t : Nat) (g : TileP → TileP) : (s.modTile d t g).net = s.net := rfl
@[simp] theorem State.modTile_hbm (s : State) (d t : Nat) (g : TileP → TileP) : (s.modTile d t g).hbm = s.hbm := rfl
@[simp] theorem State.modTile_hbmc (s : State) (d t : Nat) (g : TileP → TileP) : (s.modTile d t g).hbmc = s.hbmc := rfl
@[simp] theorem State.modTile_xfers (s : State) (d t : Nat) (g : TileP → TileP) : (s.modTile d t g).xfers = s.xfers := rfl
@[simp] theorem State.modTile_nextId (s : State) (d t : Nat) (g : TileP → TileP) : (s.modTile d t g).nextId = s.nextId := rfl
@[simp] theorem State.modTile_ctxs (s : State) (d t : Nat) (g : TileP → TileP) : (s.modTile d t g).ctxs = s.ctxs := rfl
@[simp] theorem State.modTile_ports (s : State) (d t : Nat) (g : TileP → TileP) : (s.modTile d t g).ports = s.ports := rfl
@[simp] theorem State.modTile_helm (s : State) (d t : Nat) (g : TileP → TileP) : (s.modTile d t g).helm = s.helm := rfl
@[simp] theorem State.modTile_power (s : State) (d t : Nat) (g : TileP → TileP) : (s.modTile d t g).power = s.power := rfl
@[simp] theorem State.modTile_cfg (s : State) (d t : Nat) (g : TileP → TileP) : (s.modTile d t g).cfg = s.cfg := rfl
@[simp] theorem State.modTile_vault (s : State) (d t : Nat) (g : TileP → TileP) : (s.modTile d t g).vault = s.vault := rfl
@[simp] theorem State.modTile_sal (s : State) (d t : Nat) (g : TileP → TileP) : (s.modTile d t g).sal = s.sal := rfl
@[simp] theorem State.modTile_module (s : State) (d t : Nat) (g : TileP → TileP) : (s.modTile d t g).module = s.module := rfl
@[simp] theorem State.modTile_start (s : State) (d t : Nat) (g : TileP → TileP) : (s.modTile d t g).start = s.start := rfl
@[simp] theorem State.modTile_timer (s : State) (d t : Nat) (g : TileP → TileP) : (s.modTile d t g).timer = s.timer := rfl
@[simp] theorem State.modTile_free (s : State) (d t : Nat) (g : TileP → TileP) : (s.modTile d t g).free = s.free := rfl
@[simp] theorem State.modTile_out (s : State) (d t : Nat) (g : TileP → TileP) : (s.modTile d t g).out = s.out := rfl
@[simp] theorem State.modTile_pending (s : State) (d t : Nat) (g : TileP → TileP) : (s.modTile d t g).pending = s.pending := rfl
@[simp] theorem State.modTile_reg (s : State) (d t : Nat) (g : TileP → TileP) (fl : Fld) (j : Nat) : (s.modTile d t g).reg fl j = s.reg fl j := rfl
@[simp] theorem State.modTile_core (s : State) (d t : Nat) (g : TileP → TileP) (j : Nat) : (s.modTile d t g).core j = s.core j := rfl
@[simp] theorem State.modTile_ctx (s : State) (d t : Nat) (g : TileP → TileP) (j : Nat) : (s.modTile d t g).ctx j = s.ctx j := rfl

/-! ## fly -/

@[simp] theorem State.fly_product (s : State) (p : Packet) (l : Loc) : (s.fly p l).product = s.product := rfl
@[simp] theorem State.fly_regs (s : State) (p : Packet) (l : Loc) : (s.fly p l).regs = s.regs := rfl
@[simp] theorem State.fly_cores (s : State) (p : Packet) (l : Loc) : (s.fly p l).cores = s.cores := rfl
@[simp] theorem State.fly_hbm (s : State) (p : Packet) (l : Loc) : (s.fly p l).hbm = s.hbm := rfl
@[simp] theorem State.fly_hbmc (s : State) (p : Packet) (l : Loc) : (s.fly p l).hbmc = s.hbmc := rfl
@[simp] theorem State.fly_xfers (s : State) (p : Packet) (l : Loc) : (s.fly p l).xfers = s.xfers := rfl
@[simp] theorem State.fly_nextId (s : State) (p : Packet) (l : Loc) : (s.fly p l).nextId = s.nextId := rfl
@[simp] theorem State.fly_ctxs (s : State) (p : Packet) (l : Loc) : (s.fly p l).ctxs = s.ctxs := rfl
@[simp] theorem State.fly_ports (s : State) (p : Packet) (l : Loc) : (s.fly p l).ports = s.ports := rfl
@[simp] theorem State.fly_helm (s : State) (p : Packet) (l : Loc) : (s.fly p l).helm = s.helm := rfl
@[simp] theorem State.fly_power (s : State) (p : Packet) (l : Loc) : (s.fly p l).power = s.power := rfl
@[simp] theorem State.fly_fab (s : State) (p : Packet) (l : Loc) : (s.fly p l).fab = s.fab := rfl
@[simp] theorem State.fly_cfg (s : State) (p : Packet) (l : Loc) : (s.fly p l).cfg = s.cfg := rfl
@[simp] theorem State.fly_vault (s : State) (p : Packet) (l : Loc) : (s.fly p l).vault = s.vault := rfl
@[simp] theorem State.fly_sal (s : State) (p : Packet) (l : Loc) : (s.fly p l).sal = s.sal := rfl
@[simp] theorem State.fly_module (s : State) (p : Packet) (l : Loc) : (s.fly p l).module = s.module := rfl
@[simp] theorem State.fly_start (s : State) (p : Packet) (l : Loc) : (s.fly p l).start = s.start := rfl
@[simp] theorem State.fly_timer (s : State) (p : Packet) (l : Loc) : (s.fly p l).timer = s.timer := rfl
@[simp] theorem State.fly_free (s : State) (p : Packet) (l : Loc) : (s.fly p l).free = s.free := rfl
@[simp] theorem State.fly_out (s : State) (p : Packet) (l : Loc) : (s.fly p l).out = s.out := rfl
@[simp] theorem State.fly_pending (s : State) (p : Packet) (l : Loc) : (s.fly p l).pending = s.pending := rfl
@[simp] theorem State.fly_reg (s : State) (p : Packet) (l : Loc) (fl : Fld) (j : Nat) : (s.fly p l).reg fl j = s.reg fl j := rfl
@[simp] theorem State.fly_core (s : State) (p : Packet) (l : Loc) (j : Nat) : (s.fly p l).core j = s.core j := rfl
@[simp] theorem State.fly_ctx (s : State) (p : Packet) (l : Loc) (j : Nat) : (s.fly p l).ctx j = s.ctx j := rfl

/-! ## modXfer -/

@[simp] theorem State.modXfer_product (s : State) (t : Nat) (g : Xfer → Xfer) : (s.modXfer t g).product = s.product := rfl
@[simp] theorem State.modXfer_regs (s : State) (t : Nat) (g : Xfer → Xfer) : (s.modXfer t g).regs = s.regs := rfl
@[simp] theorem State.modXfer_cores (s : State) (t : Nat) (g : Xfer → Xfer) : (s.modXfer t g).cores = s.cores := rfl
@[simp] theorem State.modXfer_net (s : State) (t : Nat) (g : Xfer → Xfer) : (s.modXfer t g).net = s.net := rfl
@[simp] theorem State.modXfer_hbm (s : State) (t : Nat) (g : Xfer → Xfer) : (s.modXfer t g).hbm = s.hbm := rfl
@[simp] theorem State.modXfer_hbmc (s : State) (t : Nat) (g : Xfer → Xfer) : (s.modXfer t g).hbmc = s.hbmc := rfl
@[simp] theorem State.modXfer_nextId (s : State) (t : Nat) (g : Xfer → Xfer) : (s.modXfer t g).nextId = s.nextId := rfl
@[simp] theorem State.modXfer_ctxs (s : State) (t : Nat) (g : Xfer → Xfer) : (s.modXfer t g).ctxs = s.ctxs := rfl
@[simp] theorem State.modXfer_ports (s : State) (t : Nat) (g : Xfer → Xfer) : (s.modXfer t g).ports = s.ports := rfl
@[simp] theorem State.modXfer_helm (s : State) (t : Nat) (g : Xfer → Xfer) : (s.modXfer t g).helm = s.helm := rfl
@[simp] theorem State.modXfer_power (s : State) (t : Nat) (g : Xfer → Xfer) : (s.modXfer t g).power = s.power := rfl
@[simp] theorem State.modXfer_fab (s : State) (t : Nat) (g : Xfer → Xfer) : (s.modXfer t g).fab = s.fab := rfl
@[simp] theorem State.modXfer_cfg (s : State) (t : Nat) (g : Xfer → Xfer) : (s.modXfer t g).cfg = s.cfg := rfl
@[simp] theorem State.modXfer_vault (s : State) (t : Nat) (g : Xfer → Xfer) : (s.modXfer t g).vault = s.vault := rfl
@[simp] theorem State.modXfer_sal (s : State) (t : Nat) (g : Xfer → Xfer) : (s.modXfer t g).sal = s.sal := rfl
@[simp] theorem State.modXfer_module (s : State) (t : Nat) (g : Xfer → Xfer) : (s.modXfer t g).module = s.module := rfl
@[simp] theorem State.modXfer_start (s : State) (t : Nat) (g : Xfer → Xfer) : (s.modXfer t g).start = s.start := rfl
@[simp] theorem State.modXfer_timer (s : State) (t : Nat) (g : Xfer → Xfer) : (s.modXfer t g).timer = s.timer := rfl
@[simp] theorem State.modXfer_free (s : State) (t : Nat) (g : Xfer → Xfer) : (s.modXfer t g).free = s.free := rfl
@[simp] theorem State.modXfer_out (s : State) (t : Nat) (g : Xfer → Xfer) : (s.modXfer t g).out = s.out := rfl
@[simp] theorem State.modXfer_pending (s : State) (t : Nat) (g : Xfer → Xfer) : (s.modXfer t g).pending = s.pending := rfl
@[simp] theorem State.modXfer_reg (s : State) (t : Nat) (g : Xfer → Xfer) (fl : Fld) (j : Nat) : (s.modXfer t g).reg fl j = s.reg fl j := rfl
@[simp] theorem State.modXfer_core (s : State) (t : Nat) (g : Xfer → Xfer) (j : Nat) : (s.modXfer t g).core j = s.core j := rfl
@[simp] theorem State.modXfer_ctx (s : State) (t : Nat) (g : Xfer → Xfer) (j : Nat) : (s.modXfer t g).ctx j = s.ctx j := rfl

/-! ## What a change writes -/

theorem State.reg_setReg (s : State) (f g : Fld) (i j v : Nat) :
    (s.setReg f i v).reg g j = if (g, j) = (f, i) then v % 2 ^ f.info.width else s.reg g j := by
  unfold State.reg State.setReg
  rw [Tbl.getD_set]

@[simp] theorem State.reg_setReg_self (s : State) (f : Fld) (i v : Nat) : (s.setReg f i v).reg f i = v % 2 ^ f.info.width := by
  simp [State.reg_setReg]

theorem State.reg_setReg_other (s : State) (f g : Fld) (i j v : Nat) (h : (g, j) ≠ (f, i)) :
    (s.setReg f i v).reg g j = s.reg g j := by
  simp [State.reg_setReg, h]

@[simp] theorem State.reg_setReg_field (s : State) (f g : Fld) (i j v : Nat) (h : g ≠ f) :
    (s.setReg f i v).reg g j = s.reg g j := by
  simp [State.reg_setReg, h]

/-- A counter stops at the top value of its field (R431). -/
theorem State.reg_bump_self (s : State) (f : Fld) (i : Nat) :
    (s.bump f i).reg f i = min (s.reg f i + 1) (2 ^ f.info.width - 1) % 2 ^ f.info.width := by
  simp [State.bump, State.bumpN]

@[simp] theorem State.reg_bumpN_field (s : State) (f g : Fld) (i j n : Nat) (h : g ≠ f) : (s.bumpN f i n).reg g j = s.reg g j := by
  simp [State.bumpN, h]

@[simp] theorem State.reg_bump_field (s : State) (f g : Fld) (i j : Nat) (h : g ≠ f) : (s.bump f i).reg g j = s.reg g j := by
  simp [State.bump, h]

@[simp] theorem State.core_setCore_self (s : State) (c : Nat) (k : Core) : (s.setCore c k).core c = k := by
  simp [State.core, State.setCore]

theorem State.core_setCore_other (s : State) (c d : Nat) (k : Core) (h : d ≠ c) : (s.setCore c k).core d = s.core d := by
  simp [State.core, State.setCore, Tbl.getD_set_other _ _ _ _ _ h]

@[simp] theorem State.core_modCore_self (s : State) (c : Nat) (g : Core → Core) : (s.modCore c g).core c = g (s.core c) := by
  simp [State.modCore]

theorem State.core_modCore_other (s : State) (c d : Nat) (g : Core → Core) (h : d ≠ c) : (s.modCore c g).core d = s.core d := by
  simp [State.modCore, State.core_setCore_other _ _ _ _ h]

@[simp] theorem State.ctx_modCtx_self (s : State) (x : Nat) (g : Ctx → Ctx) : (s.modCtx x g).ctx x = g (s.ctx x) := by
  simp [State.ctx, State.modCtx]

theorem State.ctx_modCtx_other (s : State) (x y : Nat) (g : Ctx → Ctx) (h : y ≠ x) : (s.modCtx x g).ctx y = s.ctx y := by
  simp [State.ctx, State.modCtx, Tbl.getD_set_other _ _ _ _ _ h]

theorem Tbl.set_set {κ α : Type} [DecidableEq κ] (t : Tbl κ α) (k : κ) (u v : α) :
    Tbl.set (Tbl.set t k u) k v = Tbl.set t k v := by
  induction t with
  | nil => simp [Tbl.set]
  | cons e r ih =>
    by_cases h : e.1 = k
    · simp [Tbl.set, h]
    · simp [Tbl.set, h, ih]

@[simp] theorem State.setCore_setCore (s : State) (c : Nat) (j k : Core) : (s.setCore c j).setCore c k = s.setCore c k := by
  simp [State.setCore, Tbl.set_set]

@[simp] theorem State.modCore_setCore (s : State) (c : Nat) (g : Core → Core) (k : Core) :
    (s.modCore c g).setCore c k = s.setCore c k := by
  simp [State.modCore]

@[simp] theorem State.modCore_modCore (s : State) (c : Nat) (f g : Core → Core) :
    (s.modCore c f).modCore c g = s.setCore c (g (f (s.core c))) := by
  simp [State.modCore]

end Sys2Proof.Machine
end

