-- ==== Sys2Proof/Laws/Core.lean ====
section
/-! SUPPORT. What the sequencer does with a word that issues, and what the elementary changes of a core leave alone. -/

namespace Sys2Proof.Machine

set_option Elab.async false
set_option linter.all false

theorem State.modCore_eq (s : State) (c : Nat) (f : Core → Core) : s.modCore c f = s.setCore c (f (s.core c)) := rfl

/-- The sequencer grants the word of a core that is ready for it. -/
theorem State.Ready.grant {s : State} {c : CoreAddr} {o : Nat} {w : W32} (h : s.Ready c o w) :
    (s.core c.toNat).grant o = .go w := by
  obtain ⟨h1, h2, h3, ⟨h4, h5⟩, h6, h7, h8, h9, h10, h11⟩ := h
  have h7' : vget (s.core c.toNat).ibuf (s.core c.toNat).pc 0#32 = w := h7
  have h6' := Nat.not_le.2 h6
  unfold Core.grant
  rcases h3 with h3 | h3 <;> simp [h2, h3, h4, h5, h6', h7', h8, h9, h10, h11]

/-- A ready instruction issues: its effect, after a step has been counted. -/
theorem State.Ready.issue {s : State} {c : CoreAddr} {o : Nat} {w : W32} (h : s.Ready c o w) (act : W32 → State → State) :
    s.issue c.toNat o act = act w (s.modCore c.toNat Core.tick) := by
  simp [State.issue, h.clocked, h.grant]

/-- A ready instruction that acts on its core alone: its effect on the core, which then passes on. -/
theorem State.Ready.issueCore {s : State} {c : CoreAddr} {o : Nat} {w : W32} (h : s.Ready c o w) (f : W32 → Core → Core) :
    s.issueCore c.toNat o f = s.setCore c.toNat (f w (s.core c.toNat).tick).next := by
  simp [State.issueCore, h.issue, State.modCore_eq]

theorem lanewise_succ (n b : Nat) (g : Nat → Nat × NFlags) :
    (lanewise (n + 1) b g).1 = (lanewise n b g).1 + (g n).1 % 2 ^ b * 2 ^ (b * n) := by
  unfold lanewise; rw [List.range_succ, List.foldl_append]; rfl

theorem lanewise_lt (n b : Nat) (g : Nat → Nat × NFlags) : (lanewise n b g).1 < 2 ^ (b * n) := by
  induction n with
  | zero => simp [lanewise]
  | succ n ih =>
    rw [lanewise_succ, Nat.mul_succ, Nat.pow_add]
    have h := Nat.mod_lt (g n).1 (Nat.two_pow_pos b)
    calc _ < 2 ^ (b * n) + (g n).1 % 2 ^ b * 2 ^ (b * n) := by omega
      _ = (1 + (g n).1 % 2 ^ b) * 2 ^ (b * n) := by ring
      _ ≤ 2 ^ b * 2 ^ (b * n) := Nat.mul_le_mul_right _ (by omega)
      _ = _ := Nat.mul_comm _ _

/-- A lane's result lies at its place in the whole (R75). -/
theorem lanewise_lane (n b : Nat) (g : Nat → Nat × NFlags) (i : Nat) (hi : i < n) :
    natBits (lanewise n b g).1 (b * i) b = (g i).1 % 2 ^ b := by
  induction n with
  | zero => omega
  | succ n ih =>
    rw [lanewise_succ]
    unfold natBits at *
    rw [Nat.shiftRight_eq_div_pow]
    rcases Nat.lt_succ_iff_lt_or_eq.1 hi with h | h
    · rw [← ih h, Nat.shiftRight_eq_div_pow]
      obtain ⟨d, rfl⟩ : ∃ d, n = i + 1 + d := ⟨n - (i + 1), by omega⟩
      have : (g (i + 1 + d)).1 % 2 ^ b * 2 ^ (b * (i + 1 + d)) =
          ((g (i + 1 + d)).1 % 2 ^ b * 2 ^ (b * d) * 2 ^ b) * 2 ^ (b * i) := by
        rw [show b * (i + 1 + d) = b * d + b + b * i by ring, Nat.pow_add, Nat.pow_add]; ring
      rw [this, Nat.add_mul_div_right _ _ (Nat.two_pow_pos _), Nat.add_mul_mod_self_right]
    · subst h
      rw [Nat.add_mul_div_right _ _ (Nat.two_pow_pos _), Nat.div_eq_of_lt (lanewise_lt _ _ _)]
      simp
end Sys2Proof.Machine
end

