-- ==== Sys2Proof/Laws/Memory.lean ====
section
/-! SUPPORT. The laws of byte memory: what a read finds after a write, and that every operation keeps the canonical form. -/

namespace Sys2Proof.Machine

set_option Elab.async false
set_option linter.all false

/-- Every listed address lies above a bound. -/
def Above (a : Nat) (m : List Host.Cell) : Prop := ∀ e ∈ m, a < e.1

theorem Memory.wf_cons (a : Nat) (v : BitVec 8) (m : List Host.Cell) :
    Memory.wf ((a, v) :: m) = true ↔ v ≠ 0 ∧ Above a m ∧ Memory.wf m = true := by
  induction m generalizing a v with
  | nil => simp [Memory.wf, Above]
  | cons e r ih =>
    obtain ⟨b, w⟩ := e
    have hb := ih b w
    constructor
    · intro h
      simp only [Memory.wf, Bool.and_eq_true, decide_eq_true_eq] at h
      obtain ⟨⟨hv, hab⟩, hw⟩ := h
      refine ⟨hv, ?_, hw⟩
      have := (hb.mp hw).2.1
      intro x hx
      rcases List.mem_cons.mp hx with rfl | hx
      · exact hab
      · exact Nat.lt_trans hab (this x hx)
    · rintro ⟨hv, ha, hw⟩
      simp only [Memory.wf, Bool.and_eq_true, decide_eq_true_eq]
      exact ⟨⟨hv, ha (b, w) (by simp)⟩, hw⟩

theorem memSet_mem (m : List Host.Cell) (a : Nat) (v : BitVec 8) : ∀ e ∈ memSet m a v, e ∈ m ∨ e.1 = a := by
  induction m with
  | nil =>
    intro e h
    unfold memSet at h
    split at h
    · exact .inl h
    · rcases List.mem_cons.mp h with rfl | h
      · simp
      · exact .inl h
  | cons x r ih =>
    obtain ⟨b, w⟩ := x
    intro e h
    unfold memSet at h
    split at h
    · split at h
      · exact .inl h
      · rcases List.mem_cons.mp h with rfl | h
        · simp
        · exact .inl h
    · split at h
      · split at h
        · exact .inl (List.mem_cons_of_mem _ h)
        · rcases List.mem_cons.mp h with rfl | h
          · simp
          · exact .inl (List.mem_cons_of_mem _ h)
      · rcases List.mem_cons.mp h with rfl | h
        · simp
        · rcases ih e h with h | h
          · exact .inl (List.mem_cons_of_mem _ h)
          · exact .inr h

theorem memSet_wf (m : List Host.Cell) (a : Nat) (v : BitVec 8) (h : Memory.wf m = true) : Memory.wf (memSet m a v) = true := by
  induction m with
  | nil =>
    unfold memSet
    split
    · rfl
    · rename_i hv; simpa [Memory.wf] using hv
  | cons x r ih =>
    obtain ⟨b, w⟩ := x
    have hc := (Memory.wf_cons b w r).mp h
    unfold memSet
    split
    · rename_i hab
      split
      · exact h
      · rename_i hv
        refine (Memory.wf_cons a v _).mpr ⟨hv, ?_, h⟩
        intro e he
        rcases List.mem_cons.mp he with rfl | he
        · exact hab
        · exact Nat.lt_trans hab (hc.2.1 e he)
    · rename_i hab
      split
      · rename_i he
        split
        · exact hc.2.2
        · rename_i hv
          subst he
          exact (Memory.wf_cons a v r).mpr ⟨hv, hc.2.1, hc.2.2⟩
      · rename_i hne
        refine (Memory.wf_cons b w _).mpr ⟨hc.1, ?_, ih hc.2.2⟩
        intro e he
        rcases memSet_mem r a v e he with he | he
        · exact hc.2.1 e he
        · omega

theorem memPut_wf (m : List Host.Cell) (a : Nat) (l : List Byte) (h : Memory.wf m = true) : Memory.wf (memPut m a l) = true := by
  induction l generalizing m a with
  | nil => exact h
  | cons b r ih => exact ih _ _ (memSet_wf m a b h)

theorem filter_wf (p : Host.Cell → Bool) (m : List Host.Cell) (h : Memory.wf m = true) : Memory.wf (m.filter p) = true := by
  induction m with
  | nil => rfl
  | cons x r ih =>
    obtain ⟨b, w⟩ := x
    have hc := (Memory.wf_cons b w r).mp h
    by_cases hp : p (b, w)
    · rw [List.filter_cons_of_pos hp]
      refine (Memory.wf_cons b w _).mpr ⟨hc.1, fun e he => hc.2.1 e (List.mem_of_mem_filter he), ih hc.2.2⟩
    · rw [List.filter_cons_of_neg (by simpa using hp)]
      exact ih hc.2.2

theorem memGet_above (m : List Host.Cell) (a : Nat) (h : Above a m) : memGet m a = 0 := by
  induction m with
  | nil => rfl
  | cons x r ih =>
    obtain ⟨b, w⟩ := x
    have hb : a < b := h (b, w) (by simp)
    have : b ≠ a := by omega
    simp only [memGet, this, if_false]
    exact ih (fun e he => h e (List.mem_cons_of_mem _ he))

/-- A read finds the byte written last at its address. -/
theorem memGet_memSet (m : List Host.Cell) (a c : Nat) (v : BitVec 8) (h : Memory.wf m = true) :
    memGet (memSet m a v) c = if c = a then v else memGet m c := by
  induction m with
  | nil =>
    unfold memSet
    by_cases hc : c = a
    · subst hc
      split
      · rename_i hv; simp [memGet, hv]
      · simp [memGet]
    · split
      · simp [memGet]
      · simp [memGet, Ne.symm hc]
  | cons x r ih =>
    obtain ⟨b, w⟩ := x
    have hc := (Memory.wf_cons b w r).mp h
    unfold memSet
    split
    · rename_i hab
      have habove : Above a ((b, w) :: r) := by
        intro e he
        rcases List.mem_cons.mp he with rfl | he
        · exact hab
        · exact Nat.lt_trans hab (hc.2.1 e he)
      by_cases hca : c = a
      · subst hca
        split
        · rename_i hv; simp [hv, memGet_above _ _ habove]
        · simp [memGet]
      · split
        · simp
        · simp [memGet, Ne.symm hca]
    · rename_i hab
      split
      · rename_i he
        subst he
        by_cases hca : c = a
        · subst hca
          split
          · rename_i hv; simp [hv, memGet_above _ _ hc.2.1]
          · simp [memGet]
        · split
          · simp [memGet, Ne.symm hca]
          · simp [memGet, Ne.symm hca]
      · rename_i hne
        have hi := ih hc.2.2
        by_cases hbc : b = c
        · subst hbc
          have : b ≠ a := by omega
          simp [memGet, this]
        · simp [memGet, hbc, hi]

end Sys2Proof.Machine
end

