-- ==== Sys2Proof/Laws/Vault.lean ====
section
/-! SUPPORT. What writing the vault's records and journals does to what they say: a record written reads as written, the counters
and the leaves of the identity key only go on (Vault.Onward). -/

namespace Sys2Proof.Machine

set_option Elab.async false
set_option linter.all false

/-! ## Records -/

theorem VCopy.make_valid (b : VaultBody) (g : W32) : (VCopy.make b g).valid = true := by simp [VCopy.make, VCopy.valid]

theorem laterGen_succ (g : W32) : laterGen (g + 1) g = true := by
  have : g + 1 - g = 1 := by bv_omega
  simp [laterGen, this]

theorem laterGen_pred (g : W32) : laterGen g (g + 1) = false := by
  have : g - (g + 1) = 0xFFFFFFFF := by bv_omega
  simp [laterGen, this]

/-- A record written reads as written, whatever its copies held. -/
theorem VRec.put_value (r : VRec) (b : VaultBody) : (r.put b).value = some b := by
  obtain ⟨a, c⟩ := r
  have fm : ∀ g, Option.filter VCopy.valid (some (VCopy.make b g)) = some (VCopy.make b g) := fun g => by
    simp [VCopy.make_valid]
  have e : ∀ g, (VCopy.make b g).body = b := fun _ => rfl
  have gn : ∀ g, (VCopy.make b g).gen = g := fun _ => rfl
  cases ha : a.filter VCopy.valid with
  | none =>
    cases hc : c.filter VCopy.valid with
    | none =>
      have h : (VRec.mk a c).reads = none := by simp only [VRec.reads, ha, hc]
      rw [VRec.put, h]; simp only [VRec.value, VRec.reads, fm, hc, Option.map, e]
    | some y =>
      have h : (VRec.mk a c).reads = some (true, y) := by simp only [VRec.reads, ha, hc]
      rw [VRec.put, h]; simp only [VRec.value, VRec.reads, fm, hc, gn, laterGen_pred, Option.map, e, Bool.false_eq_true, if_false]
  | some x =>
    cases hc : c.filter VCopy.valid with
    | none =>
      have h : (VRec.mk a c).reads = some (false, x) := by simp only [VRec.reads, ha, hc]
      rw [VRec.put, h]; simp only [VRec.value, VRec.reads, fm, ha, gn, laterGen_succ, if_true, Option.map, e]
    | some y =>
      cases hl : laterGen y.gen x.gen
      · have h : (VRec.mk a c).reads = some (false, x) := by simp only [VRec.reads, ha, hc, hl, Bool.false_eq_true, if_false]
        rw [VRec.put, h]; simp only [VRec.value, VRec.reads, fm, ha, gn, laterGen_succ, if_true, Option.map, e]
      · have h : (VRec.mk a c).reads = some (true, y) := by simp only [VRec.reads, ha, hc, hl, if_true]
        rw [VRec.put, h]; simp only [VRec.value, VRec.reads, fm, hc, gn, laterGen_pred, Option.map, e, Bool.false_eq_true, if_false]

@[simp] theorem Vault.put_value (v : Vault) (m m' : Option VaultBody) (r : VaultRec) (b : VaultBody) :
    (v.put m r b).value m' r = some b := by simp [Vault.put, Vault.value, VRec.put_value]

theorem Vault.put_value_other (v : Vault) (m m' : Option VaultBody) (r q : VaultRec) (b : VaultBody) (h : q ≠ r) :
    (v.put m r b).value m' q = v.value m' q := by simp [Vault.put, Vault.value, Tbl.get?_set_other _ _ _ _ h]

/-! ## Counters -/

/-- The counters are read from their record alone. -/
theorem Vault.counter_congr {v w : Vault} (h : Tbl.get? w.recs .counters = Tbl.get? v.recs .counters) (n : Nat) :
    w.counter n = v.counter n := by simp [Vault.counter, Vault.value, h]

theorem Vault.counter_le (v : Vault) (n : Nat) : v.counter n ≤ 0xFFFF := by
  unfold Vault.counter; split
  · exact Nat.le_of_lt_succ (BitVec.isLt _)
  · exact Nat.le_refl _

theorem Vault.counter_raise (v : Vault) (a b n : Nat) (h : n < 8) :
    (v.raiseCounters a b).counter n = if n = 0 then max (v.counter 0) (min a 0xFFFF) else if n = 1 then max (v.counter 1) (min b 0xFFFF)
      else v.counter n := by
  have l := fun n => Nat.lt_succ_of_le (v.counter_le n)
  have m : ∀ x n, max (v.counter n) (min x 65535) % 65536 = max (v.counter n) (min x 65535) := fun x n =>
    Nat.mod_eq_of_lt (by have := l n; omega)
  unfold Vault.raiseCounters
  rw [Vault.counter, Vault.put_value]
  rcases n with _ | _ | _ | _ | _ | _ | _ | _ | n <;> first | omega | simp [m, Nat.mod_eq_of_lt (l _)]

/-- A lost record's counters read as the greatest value. -/
theorem Vault.counter_lose (v : Vault) (r : VaultRec) (n : Nat) : v.counter n ≤ (v.lose r).counter n := by
  by_cases h : r = .counters
  · subst h
    have : (v.lose .counters).counter n = 0xFFFF := by simp [Vault.lose, Vault.counter, Vault.value, VRec.value, VRec.reads]
    exact this ▸ v.counter_le n
  · exact Nat.le_of_eq (Vault.counter_congr (by simp [Vault.lose, Tbl.get?_set_other _ _ _ _ (Ne.symm h)]) n).symm

/-! ## Journals -/

theorem Tbl.mem_set {κ α : Type} [DecidableEq κ] {t : Tbl κ α} {k : κ} {v : α} {e : κ × α} (h : e ∈ Tbl.set t k v) :
    e = (k, v) ∨ e ∈ t := by
  induction t with
  | nil => simpa [Tbl.set] using h
  | cons x r ih =>
    unfold Tbl.set at h; split at h
    · rcases List.mem_cons.1 h with h | h
      · exact .inl h
      · exact .inr (List.mem_cons_of_mem _ h)
    · rcases List.mem_cons.1 h with h | h
      · exact .inr (h ▸ List.mem_cons_self)
      · exact (ih h).imp_right (List.mem_cons_of_mem _)

theorem Tbl.set_mem_self {κ α : Type} [DecidableEq κ] (t : Tbl κ α) (k : κ) (v : α) : (k, v) ∈ Tbl.set t k v := by
  induction t with
  | nil => simp [Tbl.set]
  | cons x r ih => unfold Tbl.set; split <;> simp [ih]

theorem Tbl.mem_set_other {κ α : Type} [DecidableEq κ] {t : Tbl κ α} {k : κ} {v : α} {e : κ × α} (h : e ∈ t) (n : e.1 ≠ k) :
    e ∈ Tbl.set t k v := by
  induction t with
  | nil => cases h
  | cons x r ih =>
    unfold Tbl.set
    rcases List.mem_cons.1 h with rfl | h
    · simp [n]
    · split
      · exact List.mem_cons_of_mem _ h
      · exact List.mem_cons_of_mem _ (ih h)

/-- The better of two entries, as journalTop keeps it. -/
def topOf (b : Option (Nat × JEntry)) (e : Nat × JEntry) : Option (Nat × JEntry) :=
  match b with
  | none => some e
  | some x => if x.2.rank < e.2.rank then some e else b

theorem topOf_fold (l : List (Nat × JEntry)) (b : Option (Nat × JEntry)) :
    (∀ e ∈ l, ∃ x, l.foldl topOf b = some x ∧ e.2.rank ≤ x.2.rank) ∧
    (∀ y, b = some y → ∃ x, l.foldl topOf b = some x ∧ y.2.rank ≤ x.2.rank) ∧
    (∀ x, l.foldl topOf b = some x → x ∈ l ∨ b = some x) := by
  induction l generalizing b with
  | nil => exact ⟨fun _ h => (by cases h), fun y h => ⟨y, h, Nat.le_refl _⟩, fun x h => .inr h⟩
  | cons a l ih =>
    obtain ⟨i1, i2, i3⟩ := ih (topOf b a)
    have step : ∃ z, topOf b a = some z ∧ a.2.rank ≤ z.2.rank ∧ (∀ y, b = some y → y.2.rank ≤ z.2.rank) ∧ (z = a ∨ b = some z) := by
      cases b with
      | none => exact ⟨a, rfl, Nat.le_refl _, fun _ h => (by cases h), .inl rfl⟩
      | some x =>
        by_cases h : x.2.rank < a.2.rank
        · exact ⟨a, by simp [topOf, h], Nat.le_refl _, fun y hy => by cases hy; exact Nat.le_of_lt h, .inl rfl⟩
        · exact ⟨x, by simp [topOf, h], Nat.not_lt.1 h, fun y hy => by cases hy; exact Nat.le_refl _, .inr rfl⟩
    obtain ⟨z, z1, z2, z3, z4⟩ := step
    obtain ⟨w, w1, w2⟩ := i2 z z1
    refine ⟨fun e h => ?_, fun y h => ⟨w, w1, Nat.le_trans (z3 y h) w2⟩, fun x h => ?_⟩
    · rcases List.mem_cons.1 h with rfl | h
      · exact ⟨w, w1, Nat.le_trans z2 w2⟩
      · exact i1 e h
    · rcases i3 x h with h | h
      · exact .inl (List.mem_cons_of_mem _ h)
      · rw [z1] at h; cases h
        rcases z4 with rfl | h
        · exact .inl List.mem_cons_self
        · exact .inr h

theorem journalTop_eq (l : Tbl Nat JEntry) : journalTop l = (l.filter (fun e => e.2.valid)).foldl topOf none := rfl

theorem journalTop_mem {l : Tbl Nat JEntry} {x} (h : journalTop l = some x) : x ∈ l ∧ x.2.valid = true := by
  rcases (topOf_fold _ none).2.2 x (journalTop_eq l ▸ h) with h | h
  · simpa using List.mem_filter.1 h
  · cases h

theorem journalTop_le {l : Tbl Nat JEntry} {e} (h : e ∈ l) (v : e.2.valid = true) :
    ∃ x, journalTop l = some x ∧ e.2.rank ≤ x.2.rank := by
  rw [journalTop_eq]; exact (topOf_fold _ none).1 e (List.mem_filter.2 ⟨h, v⟩)

theorem JEntry.make_valid (k i : Nat) : (JEntry.make k i).valid = true := by simp [JEntry.make, JEntry.valid]

/-- An entry appended under key 0 with a greater index: what a journal says only goes on. -/
theorem journalPut_le (l : Tbl Nat JEntry) (n : Nat) (m : Nat × Nat) (hm : m.2 ≤ n) (hn : (journalAt l m).2 ≤ n) (hlt : n < 2 ^ 32) :
    (journalAt l m).2 ≤ (journalAt (journalPut l 0 n) m).2 := by
  have vn := JEntry.make_valid 0 n
  have rn : (JEntry.make 0 n).rank = n := by
    simp [JEntry.make, JEntry.rank]; exact hlt
  have key : ∀ place, (∀ e, journalTop l = some e → e.1 ≠ place) →
      (journalAt l m).2 ≤ (journalAt (Tbl.set l place (JEntry.make 0 n)) m).2 := by
    intro place hp
    obtain ⟨x, hx, hr⟩ := journalTop_le (Tbl.set_mem_self l place (JEntry.make 0 n)) vn
    rw [rn] at hr
    obtain ⟨mx, vx⟩ := journalTop_mem hx
    have ex : (journalAt (Tbl.set l place (JEntry.make 0 n)) m).2 = x.2.index.toNat := by simp [journalAt, hx]
    rw [ex]
    rcases Tbl.mem_set mx with rfl | mx
    · refine Nat.le_trans hn (Nat.le_of_eq ?_); exact (Nat.mod_eq_of_lt hlt).symm
    · obtain ⟨t, ht, hle⟩ := journalTop_le mx vx
      have et : (journalAt l m).2 = t.2.index.toNat := by simp [journalAt, ht]
      obtain ⟨mt, vt⟩ := journalTop_mem ht
      obtain ⟨x', hx', hr'⟩ := journalTop_le (Tbl.mem_set_other (v := JEntry.make 0 n) mt (hp t ht)) vt
      rw [hx] at hx'; cases hx'
      have hk := x.2.index.isLt
      have hk' := t.2.index.isLt
      rw [et]
      unfold JEntry.rank at hle hr'
      omega
  unfold journalPut
  cases ht : journalTop l with
  | none => exact key 0 fun e h => by rw [ht] at h; cases h
  | some e => exact key _ fun e' h => by rw [ht] at h; cases h; show e.1 ≠ (e.1 + 1) % 4096; omega

theorem Vault.idNext_le (v : Vault) : v.idNext < 2 ^ 32 := by
  unfold Vault.idNext journalAt; split
  · decide
  · exact BitVec.isLt _

/-! ## The operations on the vault -/

/-- Nothing that the counters or the identity key's journal say has changed. -/
theorem Vault.Onward.of_eq {v w : Vault} (h : Tbl.get? w.recs .counters = Tbl.get? v.recs .counters) (j : w.idJournal = v.idJournal) :
    v.Onward w :=
  ⟨Nat.le_of_eq (Vault.counter_congr h 0).symm, Nat.le_of_eq (Vault.counter_congr h 1).symm, Nat.le_of_eq (by simp [Vault.idNext, j])⟩

theorem Vault.Onward.refl (v : Vault) : v.Onward v := .of_eq rfl rfl

theorem Vault.Onward.trans {u v w : Vault} (a : u.Onward v) (b : v.Onward w) : u.Onward w :=
  ⟨Nat.le_trans a.1 b.1, Nat.le_trans a.2.1 b.2.1, Nat.le_trans a.2.2 b.2.2⟩

theorem Vault.put_onward (v : Vault) (m) (r : VaultRec) (b) (h : VaultRec.counters ≠ r) : v.Onward (v.put m r b) :=
  .of_eq (by simp [Vault.put, Tbl.get?_set_other _ _ _ _ h]) rfl

theorem Vault.lose_onward (v : Vault) (l : List VaultRec) : v.Onward (l.foldl Vault.lose v) := by
  induction l generalizing v with
  | nil => exact .refl _
  | cons r l ih => exact .trans ⟨v.counter_lose r 0, v.counter_lose r 1, Nat.le_refl _⟩ (ih _)

theorem Vault.raise_onward (v : Vault) (a b : Nat) : v.Onward (v.raiseCounters a b) :=
  ⟨by unfold Vault.floor0; rw [Vault.counter_raise _ _ _ _ (by decide)]; exact Nat.le_max_left _ _,
   by unfold Vault.floor1; rw [Vault.counter_raise _ _ _ _ (by decide)]; exact Nat.le_max_left _ _, Nat.le_refl _⟩

theorem Vault.putKey_onward (v : Vault) (r key leaf cert) (h : VaultRec.counters ≠ r) : v.Onward (v.putKey r key leaf cert) := by
  unfold Vault.putKey; split
  · exact .refl _
  · exact put_onward _ _ _ _ h

theorem Vault.turnOver_onward (v : Vault) : v.Onward v.turnOver := by
  unfold Vault.turnOver; split
  · split
    · exact put_onward _ _ _ _ (by decide)
    · exact .refl _
  · exact .refl _

theorem Vault.useLeaf_onward (v : Vault) : v.Onward v.useLeaf := by
  have h : VaultRec.counters ≠ .attestation := by decide
  have k := fun w : Vault => w.putKey_onward .attestation w.attKey (v.attNext + 1) w.attCert h
  unfold Vault.useLeaf; dsimp only; split
  · refine .trans (.of_eq (w := { v with attJournal := journalPut v.attJournal v.attKey (v.attNext + 1), traversal := v.attNext + 1 })
      rfl rfl) (k _)
  · exact .of_eq rfl rfl

theorem Vault.storeKey_onward (v : Vault) (k : Nat) : v.Onward (v.storeKey k) := by
  have h : VaultRec.counters ≠ .pendingKey := by decide
  exact v.putKey_onward .pendingKey k 0 (certSig k) h

theorem Vault.certify_onward (v : Vault) (h : v.idNext < idLeaves) : v.Onward v.certify := by
  refine ⟨Nat.le_refl _, Nat.le_refl _, journalPut_le _ _ _ (by simp) (Nat.le_succ _) ?_⟩
  unfold idLeaves at h; omega

theorem Vault.putRk_onward (v : Vault) (rk d) : v.Onward (v.putRk rk d) := put_onward _ _ _ _ (by simp)

theorem Vault.putRks_onward (l : List Nat) (rk) (v : Vault) : v.Onward (l.foldl (fun v d => v.putRk rk d) v) := by
  induction l generalizing v with
  | nil => exact .refl _
  | cons r l ih => exact .trans (v.putRk_onward rk r) (ih _)

theorem Vault.stored_onward (v : Vault) (n : Nat) (j : VaultJob) : v.Onward (v.stored n j) := by
  unfold Vault.stored; split
  · split
    · exact putRks_onward _ _ _
    · exact put_onward _ _ _ _ (by simp)
  · exact put_onward _ _ _ _ (by simp)
  · exact .refl _

theorem Vault.restart_onward (v : Vault) (b : Bool) : v.Onward (v.restart b) := by
  unfold Vault.restart; dsimp only
  repeat' (first | exact .refl _ | split)

end Sys2Proof.Machine
end

