-- ==== Sys2Proof/Laws/WithinOps.lean ====
section
/-! SUPPORT. What each operation changes at most (State.Within, Safety.lean), for the named operations. -/

namespace Sys2Proof.Machine

set_option Elab.async false
set_option linter.all false

/-! ## The relation -/

theorem State.Within.refl (l : List Area) (s : State) : s.Within l s :=
  ⟨rfl, rfl, fun p _ => by cases p <;> rfl, id, .refl _⟩

/-- The relation on the parts of a state. -/
def State.WithinMk (l : List Area) (s₀ : State) (product : Product) (regs : Tbl (Fld × Nat) Nat) (cores : Tbl Nat Core)
    (net : Net) (hbm : List Host.Cell) (hbmc : Tbl Nat Stack) (xfers : List Xfer) (nextId : Nat) (ctxs : Tbl Nat Ctx)
    (ports : Tbl Nat PortS) (helm : Helm) (power : Power) (fab : Fabric) (cfg : Cfg) (vault : Vault) (sal : Tbl Nat SalPort)
    (module : ModS) (start : StartS) (timer free : Nat) (out : List Out) (pending : List Instr) : Prop :=
  s₀.Within l ⟨product, regs, cores, net, hbm, hbmc, xfers, nextId, ctxs, ports, helm, power, fab, cfg, vault, sal, module,
    start, timer, free, out, pending⟩

theorem State.within_mk (l : List Area) (s₀ : State) (product regs cores net hbm hbmc xfers nextId ctxs ports helm power fab
    cfg vault sal module start timer free out pending) :
    s₀.Within l ⟨product, regs, cores, net, hbm, hbmc, xfers, nextId, ctxs, ports, helm, power, fab, cfg, vault, sal, module,
      start, timer, free, out, pending⟩ ↔ s₀.WithinMk l product regs cores net hbm hbmc xfers nextId ctxs ports helm power fab
      cfg vault sal module start timer free out pending := Iff.rfl

/-- A state of which some parts are those of a related one, and the others are named. -/
theorem State.WithinMk.of {l : List Area} {s₀ s : State} (h : s₀.Within l s) {regs cores net hbm hbmc xfers nextId ctxs ports
    helm power fab cfg vault sal module start timer free out} (e1 : regs = s.regs ∨ Area.regs ∈ l)
    (e2 : cores = s.cores ∨ Area.cores ∈ l) (e3 : net = s.net ∨ Area.net ∈ l)
    (e4 : hbm = s.hbm ∨ Area.hbm ∈ l ∧ (Memory.wf s.hbm = true → Memory.wf hbm = true)) (e5 : hbmc = s.hbmc ∨ Area.hbmc ∈ l)
    (e6 : xfers = s.xfers ∨ Area.xfers ∈ l) (e7 : nextId = s.nextId ∨ Area.nextId ∈ l) (e8 : ctxs = s.ctxs ∨ Area.ctxs ∈ l)
    (e9 : ports = s.ports ∨ Area.ports ∈ l) (e10 : helm = s.helm ∨ Area.helm ∈ l) (e11 : power = s.power ∨ Area.power ∈ l)
    (e12 : fab = s.fab ∨ Area.fab ∈ l ∧ (Memory.wf s.fab.bram = true → Memory.wf fab.bram = true))
    (e13 : cfg = s.cfg ∨ Area.cfg ∈ l ∧ (Memory.wf s.cfg.flash = true → Memory.wf cfg.flash = true))
    (e14 : vault = s.vault ∨ Area.vault ∈ l ∧ s.vault.Onward vault) (e15 : sal = s.sal ∨ Area.sal ∈ l)
    (e16 : module = s.module ∨ Area.module ∈ l) (e17 : start = s.start ∨ Area.start ∈ l)
    (e18 : timer = s.timer ∨ Area.timer ∈ l) (e19 : free = s.free ∨ Area.free ∈ l) (e20 : out = s.out ∨ Area.out ∈ l) :
    s₀.WithinMk l s.product regs cores net hbm hbmc xfers nextId ctxs ports helm power fab cfg vault sal module start timer
      free out s.pending := by
  obtain ⟨a, b, c, d, e⟩ := h
  refine ⟨a, b, ?_, fun k => ?_, ?_⟩
  · intro p hp
    have hc := c p hp
    cases p
    · exact (e1.resolve_right hp).trans hc
    · exact (e2.resolve_right hp).trans hc
    · exact (e3.resolve_right hp).trans hc
    · exact (e4.resolve_right fun h => hp h.1).trans hc
    · exact (e5.resolve_right hp).trans hc
    · exact (e6.resolve_right hp).trans hc
    · exact (e7.resolve_right hp).trans hc
    · exact (e8.resolve_right hp).trans hc
    · exact (e9.resolve_right hp).trans hc
    · exact (e10.resolve_right hp).trans hc
    · exact (e11.resolve_right hp).trans hc
    · exact (e12.resolve_right fun h => hp h.1).trans hc
    · exact (e13.resolve_right fun h => hp h.1).trans hc
    · exact (e14.resolve_right fun h => hp h.1).trans hc
    · exact (e15.resolve_right hp).trans hc
    · exact (e16.resolve_right hp).trans hc
    · exact (e17.resolve_right hp).trans hc
    · exact (e18.resolve_right hp).trans hc
    · exact (e19.resolve_right hp).trans hc
    · exact (e20.resolve_right hp).trans hc
  · obtain ⟨x, y, z⟩ := d k
    refine ⟨?_, ?_, ?_⟩
    · rcases e4 with rfl | e4
      · exact x
      · exact e4.2 x
    · rcases e12 with rfl | e12
      · exact y
      · exact e12.2 y
    · rcases e13 with rfl | e13
      · exact z
      · exact e13.2 z
  · rcases e14 with rfl | e14
    · exact e
    · exact e.trans e14.2

theorem State.within_ite {l : List Area} {s₀ a b : State} {c : Prop} [Decidable c] (ha : s₀.Within l a)
    (hb : s₀.Within l b) : s₀.Within l (if c then a else b) := by split <;> assumption

theorem State.within_ite_fst {β : Type} {l : List Area} {s₀ : State} {a b : State × β} {c : Prop} [Decidable c]
    (ha : s₀.Within l a.1) (hb : s₀.Within l b.1) : s₀.Within l (if c then a else b).1 := by split <;> assumption

theorem State.within_foldl {α : Type} {l : List Area} {s₀ s : State} (xs : List α) (f : State → α → State)
    (h : s₀.Within l s) (hf : ∀ s a, s₀.Within l s → s₀.Within l (f s a)) : s₀.Within l (xs.foldl f s) := by
  induction xs generalizing s with
  | nil => exact h
  | cons a xs ih => exact ih (hf _ _ h)

theorem State.within_foldl_fst {α β : Type} {l : List Area} {s₀ : State} {s : State × β} (xs : List α)
    (f : State × β → α → State × β) (h : s₀.Within l s.1) (hf : ∀ s a, s₀.Within l s.1 → s₀.Within l (f s a).1) :
    s₀.Within l (xs.foldl f s).1 := by
  induction xs generalizing s with
  | nil => exact h
  | cons a xs ih => exact ih (hf _ _ h)

theorem State.within_iter {l : List Area} {s₀ s : State} (n : Nat) (f : Nat → State → State) (h : s₀.Within l s)
    (hf : ∀ n s, s₀.Within l s → s₀.Within l (f n s)) : s₀.Within l (iter f n s) := by
  induction n with
  | zero => exact h
  | succ n ih => exact hf _ _ ih

/-! ## What it says of one part -/

theorem State.Within.regs {l : List Area} {s t : State} (h : s.Within l t) (n : Area.regs ∉ l := by decide) : t.regs = s.regs :=
  h.frame .regs n

theorem State.Within.cores {l : List Area} {s t : State} (h : s.Within l t) (n : Area.cores ∉ l := by decide) : t.cores = s.cores :=
  h.frame .cores n

theorem State.Within.net {l : List Area} {s t : State} (h : s.Within l t) (n : Area.net ∉ l := by decide) : t.net = s.net :=
  h.frame .net n

theorem State.Within.hbm {l : List Area} {s t : State} (h : s.Within l t) (n : Area.hbm ∉ l := by decide) : t.hbm = s.hbm :=
  h.frame .hbm n

theorem State.Within.hbmc {l : List Area} {s t : State} (h : s.Within l t) (n : Area.hbmc ∉ l := by decide) : t.hbmc = s.hbmc :=
  h.frame .hbmc n

theorem State.Within.xfers {l : List Area} {s t : State} (h : s.Within l t) (n : Area.xfers ∉ l := by decide) : t.xfers = s.xfers :=
  h.frame .xfers n

theorem State.Within.nextId {l : List Area} {s t : State} (h : s.Within l t) (n : Area.nextId ∉ l := by decide) : t.nextId = s.nextId :=
  h.frame .nextId n

theorem State.Within.ctxs {l : List Area} {s t : State} (h : s.Within l t) (n : Area.ctxs ∉ l := by decide) : t.ctxs = s.ctxs :=
  h.frame .ctxs n

theorem State.Within.ports {l : List Area} {s t : State} (h : s.Within l t) (n : Area.ports ∉ l := by decide) : t.ports = s.ports :=
  h.frame .ports n

theorem State.Within.helm {l : List Area} {s t : State} (h : s.Within l t) (n : Area.helm ∉ l := by decide) : t.helm = s.helm :=
  h.frame .helm n

theorem State.Within.power {l : List Area} {s t : State} (h : s.Within l t) (n : Area.power ∉ l := by decide) : t.power = s.power :=
  h.frame .power n

theorem State.Within.fab {l : List Area} {s t : State} (h : s.Within l t) (n : Area.fab ∉ l := by decide) : t.fab = s.fab :=
  h.frame .fab n

theorem State.Within.cfg {l : List Area} {s t : State} (h : s.Within l t) (n : Area.cfg ∉ l := by decide) : t.cfg = s.cfg :=
  h.frame .cfg n

theorem State.Within.vault {l : List Area} {s t : State} (h : s.Within l t) (n : Area.vault ∉ l := by decide) : t.vault = s.vault :=
  h.frame .vault n

theorem State.Within.sal {l : List Area} {s t : State} (h : s.Within l t) (n : Area.sal ∉ l := by decide) : t.sal = s.sal :=
  h.frame .sal n

theorem State.Within.module {l : List Area} {s t : State} (h : s.Within l t) (n : Area.module ∉ l := by decide) : t.module = s.module :=
  h.frame .module n

theorem State.Within.start {l : List Area} {s t : State} (h : s.Within l t) (n : Area.start ∉ l := by decide) : t.start = s.start :=
  h.frame .start n

theorem State.Within.timer {l : List Area} {s t : State} (h : s.Within l t) (n : Area.timer ∉ l := by decide) : t.timer = s.timer :=
  h.frame .timer n

theorem State.Within.free {l : List Area} {s t : State} (h : s.Within l t) (n : Area.free ∉ l := by decide) : t.free = s.free :=
  h.frame .free n

theorem State.Within.out {l : List Area} {s t : State} (h : s.Within l t) (n : Area.out ∉ l := by decide) : t.out = s.out :=
  h.frame .out n

/-! ## The operations -/


theorem State.setReg_within {l : List Area} {s₀ s : State} (h : s₀.Within l s) (f i v)
    (hregs : Area.regs ∈ l := by assumption) : s₀.Within l (State.setReg s f i v) := by
  unfold State.setReg
  (try dsimp only)
  repeat' (first
    | (with_reducible first
      | exact h | assumption | apply State.WithinMk.of | exact Or.inl rfl | exact Or.inr (by assumption)
      | exact Or.inr ⟨by assumption, id⟩)
    | (simp only [State.within_mk]; (try dsimp only)))

theorem State.bumpN_within {l : List Area} {s₀ s : State} (h : s₀.Within l s) (f i n)
    (hregs : Area.regs ∈ l := by assumption) : s₀.Within l (State.bumpN s f i n) := by
  unfold State.bumpN
  (try dsimp only)
  repeat' (with_reducible first
      | exact h | assumption | apply State.setReg_within)

theorem State.bump_within {l : List Area} {s₀ s : State} (h : s₀.Within l s) (f i)
    (hregs : Area.regs ∈ l := by assumption) : s₀.Within l (State.bump s f i) := by
  unfold State.bump
  (try dsimp only)
  repeat' (with_reducible first
      | exact h | assumption | apply State.bumpN_within)

theorem State.wrapInc_within {l : List Area} {s₀ s : State} (h : s₀.Within l s) (f i)
    (hregs : Area.regs ∈ l := by assumption) : s₀.Within l (State.wrapInc s f i) := by
  unfold State.wrapInc
  (try dsimp only)
  repeat' (with_reducible first
      | exact h | assumption | apply State.setReg_within)

theorem State.drew_within {l : List Area} {s₀ s : State} (h : s₀.Within l s) (n) (hfree : Area.free ∈ l := by assumption)
    : s₀.Within l (State.drew s n) := by
  unfold State.drew
  (try dsimp only)
  repeat' (first
    | (with_reducible first
      | exact h | assumption | apply State.WithinMk.of | exact Or.inl rfl | exact Or.inr (by assumption)
      | exact Or.inr ⟨by assumption, id⟩)
    | (simp only [State.within_mk]; (try dsimp only)))

theorem State.send_within {l : List Area} {s₀ s : State} (h : s₀.Within l s) (o) (hout : Area.out ∈ l := by assumption) :
    s₀.Within l (State.send s o) := by
  unfold State.send
  (try dsimp only)
  repeat' (first
    | (with_reducible first
      | exact h | assumption | apply State.WithinMk.of | exact Or.inl rfl | exact Or.inr (by assumption)
      | exact Or.inr ⟨by assumption, id⟩)
    | (simp only [State.within_mk]; (try dsimp only)))

theorem State.setPend_within {l : List Area} {s₀ s : State} (h : s₀.Within l s) (die n)
    (hregs : Area.regs ∈ l := by assumption) : s₀.Within l (State.setPend s die n) := by
  unfold State.setPend
  (try dsimp only)
  repeat' (first
    | (with_reducible first
      | exact h | assumption | apply State.within_ite | apply State.bump_within | apply State.setReg_within)
    | split | (dsimp only; split))

theorem State.setPriv_within {l : List Area} {s₀ s : State} (h : s₀.Within l s) (die n)
    (hregs : Area.regs ∈ l := by assumption) : s₀.Within l (State.setPriv s die n) := by
  unfold State.setPriv
  (try dsimp only)
  repeat' (first
    | (with_reducible first
      | exact h | assumption | apply State.within_ite | apply State.bump_within | apply State.setReg_within)
    | split | (dsimp only; split))

theorem State.takeMsg_within {l : List Area} {s₀ s : State} (h : s₀.Within l s) (die num helm)
    (hregs : Area.regs ∈ l := by assumption) : s₀.Within l (State.takeMsg s die num helm) := by
  unfold State.takeMsg
  (try dsimp only)
  repeat' (first
    | (with_reducible first
      | exact h | assumption | apply State.within_ite | apply State.setPriv_within | apply State.bump_within
      | apply State.setPend_within)
    | split | (dsimp only; split))

theorem State.message_within {l : List Area} {s₀ s : State} (h : s₀.Within l s) (die num helm)
    (hregs : Area.regs ∈ l := by assumption) (hhelm : Area.helm ∈ l := by assumption) : s₀.Within l
    (State.message s die num helm) := by
  unfold State.message
  (try dsimp only)
  repeat' (first
    | (with_reducible first
      | exact h | assumption | apply State.WithinMk.of | exact Or.inl rfl | exact Or.inr (by assumption)
      | exact Or.inr ⟨by assumption, id⟩ | apply State.within_ite | apply State.takeMsg_within)
    | (simp only [State.within_mk]; (try dsimp only)) | split | (dsimp only; split))

theorem State.raise_within {l : List Area} {s₀ s : State} (h : s₀.Within l s) (die n)
    (hregs : Area.regs ∈ l := by assumption) (hhelm : Area.helm ∈ l := by assumption) : s₀.Within l (State.raise s die n)
    := by
  unfold State.raise
  (try dsimp only)
  repeat' (with_reducible first
      | exact h | assumption | apply State.message_within)

theorem State.raisePriv_within {l : List Area} {s₀ s : State} (h : s₀.Within l s) (die proc b)
    (hregs : Area.regs ∈ l := by assumption) (hhelm : Area.helm ∈ l := by assumption) : s₀.Within l
    (State.raisePriv s die proc b) := by
  unfold State.raisePriv
  (try dsimp only)
  repeat' (with_reducible first
      | exact h | assumption | apply State.message_within)

theorem State.chartSet_within {l : List Area} {s₀ s : State} (h : s₀.Within l s) (die) (l')
    (hregs : Area.regs ∈ l := by assumption) (hhelm : Area.helm ∈ l := by assumption)
    (hvault : Area.vault ∈ l := by assumption) : s₀.Within l (State.chartSet s die l') := by
  unfold State.chartSet
  rw [State.within_mk]
  apply State.WithinMk.of (State.setReg_within h _ _ _) <;> first | exact Or.inl rfl | exact Or.inr (by assumption) | skip
  exact Or.inr ⟨by assumption, Vault.put_onward _ _ _ _ (by simp)⟩

theorem State.chartAdd_within {l : List Area} {s₀ s : State} (h : s₀.Within l s) (die e)
    (hregs : Area.regs ∈ l := by assumption) (hhelm : Area.helm ∈ l := by assumption)
    (hvault : Area.vault ∈ l := by assumption) (hstart : Area.start ∈ l := by assumption) : s₀.Within l
    (State.chartAdd s die e) := by
  unfold State.chartAdd
  (try dsimp only)
  repeat' (first
    | (with_reducible first
      | exact h | assumption | apply State.WithinMk.of | exact Or.inl rfl | exact Or.inr (by assumption)
      | exact Or.inr ⟨by assumption, id⟩ | apply State.within_ite | apply State.chartSet_within
      | apply State.bump_within)
    | (simp only [State.within_mk]; (try dsimp only)) | split | (dsimp only; split) | (intro; intros))

theorem State.chartNote_within {l : List Area} {s₀ s : State} (h : s₀.Within l s) (die e)
    (hregs : Area.regs ∈ l := by assumption) (hhelm : Area.helm ∈ l := by assumption)
    (hvault : Area.vault ∈ l := by assumption) (hstart : Area.start ∈ l := by assumption) : s₀.Within l
    (State.chartNote s die e) := by
  unfold State.chartNote
  (try dsimp only)
  repeat' (first
    | (with_reducible first
      | exact h | assumption | apply State.within_ite | apply State.chartAdd_within)
    | split | (dsimp only; split))

theorem State.setCore_within {l : List Area} {s₀ s : State} (h : s₀.Within l s) (c k)
    (hcores : Area.cores ∈ l := by assumption) : s₀.Within l (State.setCore s c k) := by
  unfold State.setCore
  (try dsimp only)
  repeat' (first
    | (with_reducible first
      | exact h | assumption | apply State.WithinMk.of | exact Or.inl rfl | exact Or.inr (by assumption)
      | exact Or.inr ⟨by assumption, id⟩)
    | (simp only [State.within_mk]; (try dsimp only)))

theorem State.modCore_within {l : List Area} {s₀ s : State} (h : s₀.Within l s) (c f)
    (hcores : Area.cores ∈ l := by assumption) : s₀.Within l (State.modCore s c f) := by
  unfold State.modCore
  (try dsimp only)
  repeat' (with_reducible first
      | exact h | assumption | apply State.setCore_within)

theorem State.modCtx_within {l : List Area} {s₀ s : State} (h : s₀.Within l s) (x f)
    (hctxs : Area.ctxs ∈ l := by assumption) : s₀.Within l (State.modCtx s x f) := by
  unfold State.modCtx
  (try dsimp only)
  repeat' (first
    | (with_reducible first
      | exact h | assumption | apply State.WithinMk.of | exact Or.inl rfl | exact Or.inr (by assumption)
      | exact Or.inr ⟨by assumption, id⟩)
    | (simp only [State.within_mk]; (try dsimp only)))

theorem State.fly_within {l : List Area} {s₀ s : State} (h : s₀.Within l s) (p l') (hnet : Area.net ∈ l := by assumption)
    : s₀.Within l (State.fly s p l') := by
  unfold State.fly
  (try dsimp only)
  repeat' (first
    | (with_reducible first
      | exact h | assumption | apply State.WithinMk.of | exact Or.inl rfl | exact Or.inr (by assumption)
      | exact Or.inr ⟨by assumption, id⟩)
    | (simp only [State.within_mk]; (try dsimp only)))

theorem State.inject_within {l : List Area} {s₀ s : State} (h : s₀.Within l s) (e p)
    (hnet : Area.net ∈ l := by assumption) : s₀.Within l (State.inject s e p) := by
  unfold State.inject
  (try dsimp only)
  repeat' (with_reducible first
      | exact h | assumption | apply State.fly_within)

theorem State.reply_within {l : List Area} {s₀ s : State} (h : s₀.Within l s) (here atRouter p cmd var data)
    (hnet : Area.net ∈ l := by assumption) : s₀.Within l (State.reply s here atRouter p cmd var data) := by
  unfold State.reply
  (try dsimp only)
  repeat' (first
    | (with_reducible first
      | exact h | assumption | apply State.WithinMk.of | exact Or.inl rfl | exact Or.inr (by assumption)
      | exact Or.inr ⟨by assumption, id⟩ | apply State.within_ite | apply State.fly_within | apply State.inject_within)
    | (simp only [State.within_mk]; (try dsimp only)) | split | (dsimp only; split))

theorem State.refuse_within {l : List Area} {s₀ s : State} (h : s₀.Within l s) (here atRouter die k p)
    (hregs : Area.regs ∈ l := by assumption) (hnet : Area.net ∈ l := by assumption) : s₀.Within l
    (State.refuse s here atRouter die k p) := by
  unfold State.refuse
  (try dsimp only)
  repeat' (first
    | (with_reducible first
      | exact h | assumption | apply State.within_ite | apply State.bump_within | apply State.reply_within)
    | split | (dsimp only; split))

theorem State.accept_within {l : List Area} {s₀ s : State} (h : s₀.Within l s) (here p)
    (hnet : Area.net ∈ l := by assumption) : s₀.Within l (State.accept s here p) := by
  unfold State.accept
  (try dsimp only)
  repeat' (first
    | (with_reducible first
      | exact h | assumption | apply State.within_ite | apply State.reply_within)
    | split | (dsimp only; split))

theorem State.arrive_within {l : List Area} {s₀ s : State} (h : s₀.Within l s) (e p)
    (hnet : Area.net ∈ l := by assumption) : s₀.Within l (State.arrive s e p) := by
  unfold State.arrive
  (try dsimp only)
  repeat' (first
    | (with_reducible first
      | exact h | assumption | apply State.WithinMk.of | exact Or.inl rfl | exact Or.inr (by assumption)
      | exact Or.inr ⟨by assumption, id⟩)
    | (simp only [State.within_mk]; (try dsimp only)))

theorem State.faultReport_within {l : List Area} {s₀ s : State} (h : s₀.Within l s) (c cause)
    (hnet : Area.net ∈ l := by assumption) : s₀.Within l (State.faultReport s c cause) := by
  unfold State.faultReport
  (try dsimp only)
  repeat' (first
    | (with_reducible first
      | exact h | assumption | apply State.WithinMk.of | exact Or.inl rfl | exact Or.inr (by assumption)
      | exact Or.inr ⟨by assumption, id⟩ | apply State.inject_within)
    | (simp only [State.within_mk]; (try dsimp only)))

theorem State.fault_within {l : List Area} {s₀ s : State} (h : s₀.Within l s) (c cause)
    (hcores : Area.cores ∈ l := by assumption) (hnet : Area.net ∈ l := by assumption) : s₀.Within l
    (State.fault s c cause) := by
  unfold State.fault
  (try dsimp only)
  repeat' (first
    | (with_reducible first
      | exact h | assumption | apply State.WithinMk.of | exact Or.inl rfl | exact Or.inr (by assumption)
      | exact Or.inr ⟨by assumption, id⟩ | apply State.within_ite | apply State.modCore_within
      | apply State.faultReport_within)
    | (simp only [State.within_mk]; (try dsimp only)) | split | (dsimp only; split) | (intro; intros))

theorem State.haltCore_within {l : List Area} {s₀ s : State} (h : s₀.Within l s) (c)
    (hcores : Area.cores ∈ l := by assumption) : s₀.Within l (State.haltCore s c) := by
  unfold State.haltCore
  (try dsimp only)
  repeat' (first
    | (with_reducible first
      | exact h | assumption | apply State.WithinMk.of | exact Or.inl rfl | exact Or.inr (by assumption)
      | exact Or.inr ⟨by assumption, id⟩ | apply State.within_ite | apply State.modCore_within)
    | (simp only [State.within_mk]; (try dsimp only)) | split | (dsimp only; split) | (intro; intros))

theorem State.markNoRows_within {l : List Area} {s₀ s : State} (h : s₀.Within l s) (c cause)
    (hregs : Area.regs ∈ l := by assumption) (hhelm : Area.helm ∈ l := by assumption)
    (hvault : Area.vault ∈ l := by assumption) (hstart : Area.start ∈ l := by assumption) : s₀.Within l
    (State.markNoRows s c cause) := by
  unfold State.markNoRows
  (try dsimp only)
  repeat' (first
    | (with_reducible first
      | exact h | assumption | apply State.WithinMk.of | exact Or.inl rfl | exact Or.inr (by assumption)
      | exact Or.inr ⟨by assumption, id⟩ | apply State.within_ite | apply State.chartNote_within
      | apply State.bump_within | apply State.raise_within)
    | (simp only [State.within_mk]; (try dsimp only)) | split | (dsimp only; split))

theorem State.mappedOut_within {l : List Area} {s₀ s : State} (h : s₀.Within l s) (c r cause)
    (hregs : Area.regs ∈ l := by assumption) (hhelm : Area.helm ∈ l := by assumption)
    (hvault : Area.vault ∈ l := by assumption) (hstart : Area.start ∈ l := by assumption) : s₀.Within l
    (State.mappedOut s c r cause) := by
  unfold State.mappedOut
  (try dsimp only)
  repeat' (with_reducible first
      | exact h | assumption | apply State.chartNote_within | apply State.bump_within | apply State.raise_within)

theorem State.corrected_within {l : List Area} {s₀ s : State} (h : s₀.Within l s) (c r n)
    (hregs : Area.regs ∈ l := by assumption) (hcores : Area.cores ∈ l := by assumption)
    (hhelm : Area.helm ∈ l := by assumption) (hvault : Area.vault ∈ l := by assumption)
    (hstart : Area.start ∈ l := by assumption) : s₀.Within l (State.corrected s c r n) := by
  unfold State.corrected
  (try dsimp only)
  repeat' (first
    | (with_reducible first
      | exact h | assumption | apply State.WithinMk.of | exact Or.inl rfl | exact Or.inr (by assumption)
      | exact Or.inr ⟨by assumption, id⟩ | apply State.within_ite | apply State.setCore_within
      | apply State.bumpN_within | apply State.mappedOut_within | apply State.modCore_within
      | apply State.markNoRows_within)
    | (simp only [State.within_mk]; (try dsimp only)) | split | (dsimp only; split) | (intro; intros))

theorem State.uncorrectable_within {l : List Area} {s₀ s : State} (h : s₀.Within l s) (c r)
    (hregs : Area.regs ∈ l := by assumption) (hcores : Area.cores ∈ l := by assumption)
    (hnet : Area.net ∈ l := by assumption) (hhelm : Area.helm ∈ l := by assumption)
    (hvault : Area.vault ∈ l := by assumption) (hstart : Area.start ∈ l := by assumption) : s₀.Within l
    (State.uncorrectable s c r) := by
  unfold State.uncorrectable
  (try dsimp only)
  repeat' (first
    | (with_reducible first
      | exact h | assumption | apply State.WithinMk.of | exact Or.inl rfl | exact Or.inr (by assumption)
      | exact Or.inr ⟨by assumption, id⟩ | apply State.bump_within | apply State.mappedOut_within
      | apply State.modCore_within | apply State.markNoRows_within | apply State.fault_within)
    | (simp only [State.within_mk]; (try dsimp only)) | split | (dsimp only; split) | (intro; intros))

theorem State.readRow_within {l : List Area} {s₀ s : State} (h : s₀.Within l s) (c r e)
    (hregs : Area.regs ∈ l := by assumption) (hcores : Area.cores ∈ l := by assumption)
    (hnet : Area.net ∈ l := by assumption) (hhelm : Area.helm ∈ l := by assumption)
    (hvault : Area.vault ∈ l := by assumption) (hstart : Area.start ∈ l := by assumption) : s₀.Within l
    (State.readRow s c r e).1 := by
  unfold State.readRow
  (try dsimp only)
  repeat' (first
    | (with_reducible first
      | exact h | assumption | apply State.within_ite_fst | apply State.corrected_within
      | apply State.uncorrectable_within)
    | split | (dsimp only; split)
    | (dsimp only))

theorem State.checkRows_within {l : List Area} {s₀ s : State} (h : s₀.Within l s) (c p0 p1)
    (hregs : Area.regs ∈ l := by assumption) (hcores : Area.cores ∈ l := by assumption)
    (hnet : Area.net ∈ l := by assumption) (hhelm : Area.helm ∈ l := by assumption)
    (hvault : Area.vault ∈ l := by assumption) (hstart : Area.start ∈ l := by assumption) : s₀.Within l
    (State.checkRows s c p0 p1).1 := by
  induction p0 generalizing s c p1 with
  | nil =>
    unfold State.checkRows
    (try dsimp only)
    repeat' (first
      | (with_reducible first
        | exact h | assumption | apply State.within_ite_fst | apply State.readRow_within)
      | split | (dsimp only; split)
      | (dsimp only))
  | cons x xs ih =>
    unfold State.checkRows
    (try dsimp only)
    repeat' (first
      | (with_reducible first
        | exact h | assumption | apply ih | apply State.within_ite_fst | apply State.readRow_within)
      | split | (dsimp only; split)
      | (dsimp only))

theorem State.checkAll_within {l : List Area} {s₀ s : State} (h : s₀.Within l s) (c p0 p1)
    (hregs : Area.regs ∈ l := by assumption) (hcores : Area.cores ∈ l := by assumption)
    (hnet : Area.net ∈ l := by assumption) (hhelm : Area.helm ∈ l := by assumption)
    (hvault : Area.vault ∈ l := by assumption) (hstart : Area.start ∈ l := by assumption) : s₀.Within l
    (State.checkAll s c p0 p1).1 := by
  induction p0 generalizing s c p1 with
  | nil =>
    unfold State.checkAll
    (try dsimp only)
    repeat' (first
      | (with_reducible first
        | exact h | assumption | apply State.within_ite_fst | apply State.readRow_within)
      | (dsimp only))
  | cons x xs ih =>
    unfold State.checkAll
    (try dsimp only)
    repeat' (first
      | (with_reducible first
        | exact h | assumption | apply ih | apply State.within_ite_fst | apply State.readRow_within)
      | (dsimp only))

theorem State.modStk_within {l : List Area} {s₀ s : State} (h : s₀.Within l s) (h' f)
    (hhbmc : Area.hbmc ∈ l := by assumption) : s₀.Within l (State.modStk s h' f) := by
  unfold State.modStk
  (try dsimp only)
  repeat' (first
    | (with_reducible first
      | exact h | assumption | apply State.WithinMk.of | exact Or.inl rfl | exact Or.inr (by assumption)
      | exact Or.inr ⟨by assumption, id⟩)
    | (simp only [State.within_mk]; (try dsimp only)))

theorem State.unpoison_within {l : List Area} {s₀ s : State} (h : s₀.Within l s) (a n)
    (hhbmc : Area.hbmc ∈ l := by assumption) : s₀.Within l (State.unpoison s a n) := by
  unfold State.unpoison
  (try dsimp only)
  repeat' (first
    | (with_reducible first
      | exact h | assumption | apply State.WithinMk.of | exact Or.inl rfl | exact Or.inr (by assumption)
      | exact Or.inr ⟨by assumption, id⟩ | apply State.within_foldl | apply State.within_foldl_fst
      | apply State.modStk_within)
    | (simp only [State.within_mk]; (try dsimp only)) | (intro; intros))

theorem State.dropPublished_within {l : List Area} {s₀ s : State} (h : s₀.Within l s)
    (hctxs : Area.ctxs ∈ l := by assumption) : s₀.Within l (State.dropPublished s) := by
  unfold State.dropPublished
  (try dsimp only)
  repeat' (first
    | (with_reducible first
      | exact h | assumption | apply State.WithinMk.of | exact Or.inl rfl | exact Or.inr (by assumption)
      | exact Or.inr ⟨by assumption, id⟩)
    | (simp only [State.within_mk]; (try dsimp only)) | (intro; intros)
    | (dsimp only))

theorem State.poisonAtom_within {l : List Area} {s₀ s : State} (h : s₀.Within l s) (h' atom)
    (hregs : Area.regs ∈ l := by assumption) (hhbmc : Area.hbmc ∈ l := by assumption)
    (hhelm : Area.helm ∈ l := by assumption) : s₀.Within l (State.poisonAtom s h' atom) := by
  unfold State.poisonAtom
  (try dsimp only)
  repeat' (first
    | (with_reducible first
      | exact h | assumption | apply State.WithinMk.of | exact Or.inl rfl | exact Or.inr (by assumption)
      | exact Or.inr ⟨by assumption, id⟩ | apply State.within_ite | apply State.modStk_within
      | apply State.bump_within | apply State.raise_within)
    | (simp only [State.within_mk]; (try dsimp only)) | split | (dsimp only; split) | (intro; intros))

theorem State.neighbourRefresh_within {l : List Area} {s₀ s : State} (h : s₀.Within l s) (h' pc bank)
    (hregs : Area.regs ∈ l := by assumption) (hhbmc : Area.hbmc ∈ l := by assumption) : s₀.Within l
    (State.neighbourRefresh s h' pc bank) := by
  unfold State.neighbourRefresh
  (try dsimp only)
  repeat' (first
    | (with_reducible first
      | exact h | assumption | apply State.WithinMk.of | exact Or.inl rfl | exact Or.inr (by assumption)
      | exact Or.inr ⟨by assumption, id⟩ | apply State.within_ite | apply State.within_ite_fst
      | apply State.modStk_within | apply State.setReg_within)
    | (simp only [State.within_mk]; (try dsimp only)) | split | (dsimp only; split) | (intro; intros)
    | (dsimp only))

theorem State.activate_within {l : List Area} {s₀ s : State} (h : s₀.Within l s) (h' pc bank row)
    (hregs : Area.regs ∈ l := by assumption) (hhbmc : Area.hbmc ∈ l := by assumption)
    (hfree : Area.free ∈ l := by assumption) : s₀.Within l (State.activate s h' pc bank row) := by
  unfold State.activate
  (try dsimp only)
  repeat' (first
    | (with_reducible first
      | exact h | assumption | apply State.WithinMk.of | exact Or.inl rfl | exact Or.inr (by assumption)
      | exact Or.inr ⟨by assumption, id⟩ | apply State.within_ite | apply State.neighbourRefresh_within
      | apply State.drew_within | apply State.modStk_within)
    | (simp only [State.within_mk]; (try dsimp only)) | split | (dsimp only; split) | (intro; intros))

theorem State.touch_within {l : List Area} {s₀ s : State} (h : s₀.Within l s) (h' hint atom)
    (hregs : Area.regs ∈ l := by assumption) (hhbmc : Area.hbmc ∈ l := by assumption)
    (hfree : Area.free ∈ l := by assumption) : s₀.Within l (State.touch s h' hint atom) := by
  unfold State.touch
  (try dsimp only)
  repeat' (first
    | (with_reducible first
      | exact h | assumption | apply State.within_ite | apply State.within_ite_fst | apply State.activate_within
      | apply State.modStk_within)
    | split | (dsimp only; split) | (intro; intros)
    | (dsimp only))

theorem State.serveWrite_within {l : List Area} {s₀ s : State} (h : s₀.Within l s) (h' e)
    (hregs : Area.regs ∈ l := by assumption) (hhbmc : Area.hbmc ∈ l := by assumption)
    (hfree : Area.free ∈ l := by assumption) : s₀.Within l (State.serveWrite s h' e) := by
  unfold State.serveWrite
  (try dsimp only)
  repeat' (first
    | (with_reducible first
      | exact h | assumption | apply State.WithinMk.of | exact Or.inl rfl | exact Or.inr (by assumption)
      | exact Or.inr ⟨by assumption, id⟩ | apply State.within_ite | apply State.modStk_within
      | apply State.touch_within)
    | (simp only [State.within_mk]; (try dsimp only)) | split | (dsimp only; split) | (intro; intros))

theorem State.drainQueue_within {l : List Area} {s₀ s : State} (h : s₀.Within l s) (h' which)
    (hregs : Area.regs ∈ l := by assumption) (hhbmc : Area.hbmc ∈ l := by assumption)
    (hfree : Area.free ∈ l := by assumption) : s₀.Within l (State.drainQueue s h' which) := by
  unfold State.drainQueue
  (try dsimp only)
  repeat' (first
    | (with_reducible first
      | exact h | assumption | apply State.within_foldl | apply State.within_foldl_fst | apply State.serveWrite_within)
    | (intro; intros))

theorem State.queueWrite_within {l : List Area} {s₀ s : State} (h : s₀.Within l s) (h' hint atom mask)
    (hregs : Area.regs ∈ l := by assumption) (hhbmc : Area.hbmc ∈ l := by assumption)
    (hfree : Area.free ∈ l := by assumption) : s₀.Within l (State.queueWrite s h' hint atom mask) := by
  unfold State.queueWrite
  (try dsimp only)
  repeat' (first
    | (with_reducible first
      | exact h | assumption | apply State.WithinMk.of | exact Or.inl rfl | exact Or.inr (by assumption)
      | exact Or.inr ⟨by assumption, id⟩ | apply State.within_ite | apply State.within_ite_fst
      | apply State.modStk_within | apply State.drainQueue_within)
    | (simp only [State.within_mk]; (try dsimp only)) | split | (dsimp only; split) | (intro; intros)
    | (dsimp only))

theorem State.readAtom_within {l : List Area} {s₀ s : State} (h : s₀.Within l s) (h' hint atom e)
    (hregs : Area.regs ∈ l := by assumption) (hhbmc : Area.hbmc ∈ l := by assumption)
    (hhelm : Area.helm ∈ l := by assumption) (hfree : Area.free ∈ l := by assumption) : s₀.Within l
    (State.readAtom s h' hint atom e).1 := by
  unfold State.readAtom
  (try dsimp only)
  repeat' (first
    | (with_reducible first
      | exact h | assumption | apply State.within_ite | apply State.within_ite_fst | apply State.touch_within
      | apply State.poisonAtom_within | apply State.bumpN_within | apply State.bump_within)
    | split | (dsimp only; split)
    | (dsimp only))

theorem State.readAtoms_within {l : List Area} {s₀ s : State} (h : s₀.Within l s) (h' hint p0 p1)
    (hregs : Area.regs ∈ l := by assumption) (hhbmc : Area.hbmc ∈ l := by assumption)
    (hhelm : Area.helm ∈ l := by assumption) (hfree : Area.free ∈ l := by assumption) : s₀.Within l
    (State.readAtoms s h' hint p0 p1).1 := by
  induction p0 generalizing s h' hint p1 with
  | nil =>
    unfold State.readAtoms
    (try dsimp only)
    repeat' (first
      | (with_reducible first
        | exact h | assumption | apply State.within_ite_fst | apply State.readAtom_within)
      | (dsimp only))
  | cons x xs ih =>
    unfold State.readAtoms
    (try dsimp only)
    repeat' (first
      | (with_reducible first
        | exact h | assumption | apply ih | apply State.within_ite_fst | apply State.readAtom_within)
      | (dsimp only))

theorem State.hbmRead_within {l : List Area} {s₀ s : State} (h : s₀.Within l s) (h' o n hint es)
    (hregs : Area.regs ∈ l := by assumption) (hhbmc : Area.hbmc ∈ l := by assumption)
    (hhelm : Area.helm ∈ l := by assumption) (hfree : Area.free ∈ l := by assumption) : s₀.Within l
    (State.hbmRead s h' o n hint es).1 := by
  unfold State.hbmRead
  (try dsimp only)
  repeat' (first
    | (with_reducible first
      | exact h | assumption | apply State.within_ite | apply State.within_ite_fst | apply State.readAtoms_within)
    | split | (dsimp only; split)
    | (dsimp only))

theorem State.acceptAtom_within {l : List Area} {s₀ s : State} (h : s₀.Within l s) (h' hint atom mask e)
    (hregs : Area.regs ∈ l := by assumption) (hhbmc : Area.hbmc ∈ l := by assumption)
    (hhelm : Area.helm ∈ l := by assumption) (hfree : Area.free ∈ l := by assumption) : s₀.Within l
    (State.acceptAtom s h' hint atom mask e) := by
  unfold State.acceptAtom
  (try dsimp only)
  repeat' (first
    | (with_reducible first
      | exact h | assumption | apply State.WithinMk.of | exact Or.inl rfl | exact Or.inr (by assumption)
      | exact Or.inr ⟨by assumption, id⟩ | apply State.within_ite | apply State.within_ite_fst
      | apply State.modStk_within | apply State.readAtom_within | apply State.queueWrite_within)
    | (simp only [State.within_mk]; (try dsimp only)) | split | (dsimp only; split) | (intro; intros)
    | (dsimp only))

theorem State.hbmAccept_within {l : List Area} {s₀ s : State} (h : s₀.Within l s) (h' hint p0 p1)
    (hregs : Area.regs ∈ l := by assumption) (hhbmc : Area.hbmc ∈ l := by assumption)
    (hhelm : Area.helm ∈ l := by assumption) (hfree : Area.free ∈ l := by assumption) : s₀.Within l
    (State.hbmAccept s h' hint p0 p1) := by
  induction p0 generalizing s h' hint p1 with
  | nil =>
    unfold State.hbmAccept
    (try dsimp only)
    repeat' (first
      | (with_reducible first
        | exact h | assumption | apply State.within_ite | apply State.within_ite_fst | apply State.acceptAtom_within)
      | split | (dsimp only; split)
      | (dsimp only))
  | cons x xs ih =>
    unfold State.hbmAccept
    (try dsimp only)
    repeat' (first
      | (with_reducible first
        | exact h | assumption | apply ih | apply State.within_ite | apply State.within_ite_fst | apply State.acceptAtom_within)
      | split | (dsimp only; split)
      | (dsimp only))

theorem State.selfRefresh_within {l : List Area} {s₀ s : State} (h : s₀.Within l s) (h')
    (hregs : Area.regs ∈ l := by assumption) (hhbmc : Area.hbmc ∈ l := by assumption)
    (hfree : Area.free ∈ l := by assumption) : s₀.Within l (State.selfRefresh s h') := by
  unfold State.selfRefresh
  (try dsimp only)
  repeat' (first
    | (with_reducible first
      | exact h | assumption | apply State.WithinMk.of | exact Or.inl rfl | exact Or.inr (by assumption)
      | exact Or.inr ⟨by assumption, id⟩ | apply State.drainQueue_within | apply State.modStk_within)
    | (simp only [State.within_mk]; (try dsimp only)) | (intro; intros))

theorem State.copyHome_within {l : List Area} {s₀ s : State} (h : s₀.Within l s) (p)
    (hregs : Area.regs ∈ l := by assumption) (hhbm : Area.hbm ∈ l := by assumption)
    (hhbmc : Area.hbmc ∈ l := by assumption) (hctxs : Area.ctxs ∈ l := by assumption)
    (hhelm : Area.helm ∈ l := by assumption) (hfree : Area.free ∈ l := by assumption) : s₀.Within l (State.copyHome s p)
    := by
  unfold State.copyHome; split
  · exact h
  · rename_i b
    refine State.dropPublished_within ?_
    have k : s₀.Within l (if decide (s.reg .HBM_STATE_STATE (s.stackOf (p * 4096)) = 5) = true then s
        else s.hbmAccept (s.stackOf (p * 4096)) 0 ((atomsOf (p * 4096 % s.stackE) 4096).map (fun t => (t, wholeAtom))) []) :=
      State.within_ite h (State.hbmAccept_within h _ _ _ _)
    dsimp only
    generalize (if decide (s.reg .HBM_STATE_STATE (s.stackOf (p * 4096)) = 5) = true then s
        else s.hbmAccept (s.stackOf (p * 4096)) 0 ((atomsOf (p * 4096 % s.stackE) 4096).map (fun t => (t, wholeAtom))) []) = t at k ⊢
    rw [State.within_mk]
    apply State.WithinMk.of k <;> first | exact Or.inl rfl | exact Or.inr (by assumption) | skip
    exact Or.inr ⟨by assumption, fun k => by split <;> first | exact k | exact memPut_wf _ _ _ k⟩

theorem State.homeFirst_within {l : List Area} {s₀ s : State} (h : s₀.Within l s) (a n)
    (hregs : Area.regs ∈ l := by assumption) (hhbm : Area.hbm ∈ l := by assumption)
    (hhbmc : Area.hbmc ∈ l := by assumption) (hctxs : Area.ctxs ∈ l := by assumption)
    (hhelm : Area.helm ∈ l := by assumption) (hfree : Area.free ∈ l := by assumption) : s₀.Within l
    (State.homeFirst s a n) := by
  unfold State.homeFirst
  (try dsimp only)
  repeat' (first
    | (with_reducible first
      | exact h | assumption | apply State.within_ite | apply State.within_foldl | apply State.within_foldl_fst
      | apply State.copyHome_within)
    | split | (dsimp only; split) | (intro; intros))

theorem State.hbmSet_within {l : List Area} {s₀ s : State} (h : s₀.Within l s) (a : Nat) (b : List Byte)
    (hh : Area.hbm ∈ l := by assumption) : s₀.Within l { s with hbm := memPut s.hbm a b } := by
  rw [State.within_mk]
  apply State.WithinMk.of h <;> first | exact Or.inl rfl | exact Or.inr ⟨hh, memPut_wf _ _ _⟩

theorem State.hbmFilter_within {l : List Area} {s₀ s : State} (h : s₀.Within l s) (f : Host.Cell → Bool)
    (hh : Area.hbm ∈ l := by assumption) : s₀.Within l { s with hbm := s.hbm.filter f } := by
  rw [State.within_mk]
  apply State.WithinMk.of h <;> first | exact Or.inl rfl | exact Or.inr ⟨hh, filter_wf _ _⟩

theorem State.hbmWrite_within {l : List Area} {s₀ s : State} (h : s₀.Within l s) (a b)
    (hregs : Area.regs ∈ l := by assumption) (hhbm : Area.hbm ∈ l := by assumption)
    (hhbmc : Area.hbmc ∈ l := by assumption) (hctxs : Area.ctxs ∈ l := by assumption)
    (hhelm : Area.helm ∈ l := by assumption) (hfree : Area.free ∈ l := by assumption) : s₀.Within l (State.hbmWrite s a b)
    := by
  unfold State.hbmWrite; split
  · exact h
  · exact State.hbmSet_within (State.within_foldl _ _ (State.homeFirst_within h _ _)
      fun s e h => State.bumpN_within h _ _ _) _ _

theorem State.seeUnit_within {l : List Area} {s₀ s : State} (h : s₀.Within l s) (a n u e)
    (hregs : Area.regs ∈ l := by assumption) (hhbmc : Area.hbmc ∈ l := by assumption)
    (hhelm : Area.helm ∈ l := by assumption) (hfree : Area.free ∈ l := by assumption) : s₀.Within l
    (State.seeUnit s a n u e) := by
  unfold State.seeUnit
  (try dsimp only)
  repeat' (first
    | (with_reducible first
      | exact h | assumption | apply State.within_ite | apply State.within_ite_fst | apply State.readAtom_within)
    | split | (dsimp only; split)
    | (dsimp only))

theorem State.hbmSeen_within {l : List Area} {s₀ s : State} (h : s₀.Within l s) (a n es)
    (hregs : Area.regs ∈ l := by assumption) (hhbmc : Area.hbmc ∈ l := by assumption)
    (hhelm : Area.helm ∈ l := by assumption) (hfree : Area.free ∈ l := by assumption) : s₀.Within l
    (State.hbmSeen s a n es).1 := by
  unfold State.hbmSeen
  (try dsimp only)
  repeat' (first
    | (with_reducible first
      | exact h | assumption | apply State.within_ite_fst | apply State.within_foldl | apply State.within_foldl_fst
      | apply State.seeUnit_within)
    | (intro; intros)
    | (dsimp only))

theorem State.hbmTake_within {l : List Area} {s₀ s : State} (h : s₀.Within l s) (a n)
    (hregs : Area.regs ∈ l := by assumption) (hhbmc : Area.hbmc ∈ l := by assumption)
    (hhelm : Area.helm ∈ l := by assumption) (hfree : Area.free ∈ l := by assumption) : s₀.Within l
    (State.hbmTake s a n).1 := by
  unfold State.hbmTake
  (try dsimp only)
  repeat' (first
    | (with_reducible first
      | exact h | assumption | apply State.within_ite | apply State.within_ite_fst | apply State.hbmSeen_within)
    | split | (dsimp only; split)
    | (dsimp only))

theorem State.hbmPutIn_within {l : List Area} {s₀ s : State} (h : s₀.Within l s) (h' a bytes)
    (hregs : Area.regs ∈ l := by assumption) (hhbm : Area.hbm ∈ l := by assumption)
    (hhbmc : Area.hbmc ∈ l := by assumption) (hctxs : Area.ctxs ∈ l := by assumption)
    (hhelm : Area.helm ∈ l := by assumption) (hfree : Area.free ∈ l := by assumption) : s₀.Within l
    (State.hbmPutIn s h' a bytes) := by
  unfold State.hbmPutIn
  (try dsimp only)
  repeat' (first
    | (with_reducible first
      | exact h | assumption | apply State.within_ite | apply State.homeFirst_within | apply State.hbmAccept_within
      | apply State.hbmWrite_within)
    | split | (dsimp only; split) | (intro; intros))

theorem State.hbmPut_within {l : List Area} {s₀ s : State} (h : s₀.Within l s) (a bytes)
    (hregs : Area.regs ∈ l := by assumption) (hhbm : Area.hbm ∈ l := by assumption)
    (hhbmc : Area.hbmc ∈ l := by assumption) (hctxs : Area.ctxs ∈ l := by assumption)
    (hhelm : Area.helm ∈ l := by assumption) (hfree : Area.free ∈ l := by assumption) : s₀.Within l
    (State.hbmPut s a bytes) := by
  unfold State.hbmPut
  (try dsimp only)
  repeat' (first
    | (with_reducible first
      | exact h | assumption | apply State.within_foldl | apply State.within_foldl_fst | apply State.hbmPutIn_within)
    | (intro; intros))

theorem State.issue_within {l : List Area} {s₀ s : State} (h : s₀.Within l s) (c o act)
    (ha : ∀ w t, s₀.Within l t → s₀.Within l (act w t)) (hcores : Area.cores ∈ l := by assumption)
    (hnet : Area.net ∈ l := by assumption) : s₀.Within l (State.issue s c o act) := by
  unfold State.issue; split
  · exact h
  · split
    · exact h
    · exact State.modCore_within h _ _
    · exact State.modCore_within h _ _
    · exact State.fault_within (State.modCore_within h _ _) _ _
    · exact ha _ _ (State.modCore_within h _ _)

theorem State.issueCore_within {l : List Area} {s₀ s : State} (h : s₀.Within l s) (c o f)
    (hcores : Area.cores ∈ l := by assumption) (hnet : Area.net ∈ l := by assumption) : s₀.Within l
    (State.issueCore s c o f) := by
  unfold State.issueCore
  (try dsimp only)
  repeat' (first
    | (with_reducible first
      | exact h | assumption | apply State.issue_within | apply State.modCore_within)
    | (intro; intros))

end Sys2Proof.Machine
end

