-- ==== Sys2Proof/Laws/WithinCore.lean ====
section
/-! SUPPORT. What each operation changes at most (State.Within, Safety.lean), for the cores. -/

namespace Sys2Proof.Machine

set_option Elab.async false
set_option linter.all false

theorem execNop_within {l : List Area} {s₀ s : State} (h : s₀.Within l s) (c) (t) (ht : execNop c s = .next t)
    (hcores : Area.cores ∈ l := by assumption) (hnet : Area.net ∈ l := by assumption) : s₀.Within l t := by
  unfold execNop at ht
  (try dsimp only at ht)
  injection ht with ht
  subst ht
  repeat' (first
    | (with_reducible first
      | exact h | assumption | apply State.issueCore_within)
    | (intro; intros))

theorem execAlu_within {l : List Area} {s₀ s : State} (h : s₀.Within l s) (c) (t) (ht : execAlu c s = .next t)
    (hcores : Area.cores ∈ l := by assumption) (hnet : Area.net ∈ l := by assumption) : s₀.Within l t := by
  unfold execAlu at ht
  (try dsimp only at ht)
  injection ht with ht
  subst ht
  repeat' (first
    | (with_reducible first
      | exact h | assumption | apply State.issueCore_within)
    | (intro; intros))

theorem execAlui_within {l : List Area} {s₀ s : State} (h : s₀.Within l s) (c) (t) (ht : execAlui c s = .next t)
    (hcores : Area.cores ∈ l := by assumption) (hnet : Area.net ∈ l := by assumption) : s₀.Within l t := by
  unfold execAlui at ht
  (try dsimp only at ht)
  injection ht with ht
  subst ht
  repeat' (first
    | (with_reducible first
      | exact h | assumption | apply State.issueCore_within)
    | (intro; intros))

theorem execMovi_within {l : List Area} {s₀ s : State} (h : s₀.Within l s) (c) (t) (ht : execMovi c s = .next t)
    (hcores : Area.cores ∈ l := by assumption) (hnet : Area.net ∈ l := by assumption) : s₀.Within l t := by
  unfold execMovi at ht
  (try dsimp only at ht)
  injection ht with ht
  subst ht
  repeat' (first
    | (with_reducible first
      | exact h | assumption | apply State.within_ite | apply State.issueCore_within)
    | split | (dsimp only; split) | (intro; intros))

theorem execBr_within {l : List Area} {s₀ s : State} (h : s₀.Within l s) (c) (t) (ht : execBr c s = .next t)
    (hcores : Area.cores ∈ l := by assumption) (hnet : Area.net ∈ l := by assumption) : s₀.Within l t := by
  unfold execBr at ht
  (try dsimp only at ht)
  injection ht with ht
  subst ht
  repeat' (first
    | (with_reducible first
      | exact h | assumption | apply State.within_ite | apply State.issue_within | apply State.fault_within
      | apply State.setCore_within)
    | split | (dsimp only; split) | (intro; intros))

theorem execRdnf_within {l : List Area} {s₀ s : State} (h : s₀.Within l s) (c) (t) (ht : execRdnf c s = .next t)
    (hcores : Area.cores ∈ l := by assumption) (hnet : Area.net ∈ l := by assumption) : s₀.Within l t := by
  unfold execRdnf at ht
  (try dsimp only at ht)
  injection ht with ht
  subst ht
  repeat' (first
    | (with_reducible first
      | exact h | assumption | apply State.issueCore_within)
    | (intro; intros))

theorem execClnf_within {l : List Area} {s₀ s : State} (h : s₀.Within l s) (c) (t) (ht : execClnf c s = .next t)
    (hcores : Area.cores ∈ l := by assumption) (hnet : Area.net ∈ l := by assumption) : s₀.Within l t := by
  unfold execClnf at ht
  (try dsimp only at ht)
  injection ht with ht
  subst ht
  repeat' (first
    | (with_reducible first
      | exact h | assumption | apply State.WithinMk.of | exact Or.inl rfl | exact Or.inr (by assumption)
      | exact Or.inr ⟨by assumption, id⟩ | apply State.issueCore_within)
    | (simp only [State.within_mk]; (try dsimp only)) | (intro; intros))

theorem execSrseed_within {l : List Area} {s₀ s : State} (h : s₀.Within l s) (c) (t) (ht : execSrseed c s = .next t)
    (hcores : Area.cores ∈ l := by assumption) (hnet : Area.net ∈ l := by assumption) : s₀.Within l t := by
  unfold execSrseed at ht
  (try dsimp only at ht)
  injection ht with ht
  subst ht
  repeat' (first
    | (with_reducible first
      | exact h | assumption | apply State.WithinMk.of | exact Or.inl rfl | exact Or.inr (by assumption)
      | exact Or.inr ⟨by assumption, id⟩ | apply State.within_ite | apply State.issueCore_within)
    | (simp only [State.within_mk]; (try dsimp only)) | split | (dsimp only; split) | (intro; intros))

theorem execSeta_within {l : List Area} {s₀ s : State} (h : s₀.Within l s) (c) (t) (ht : execSeta c s = .next t)
    (hcores : Area.cores ∈ l := by assumption) (hnet : Area.net ∈ l := by assumption) : s₀.Within l t := by
  unfold execSeta at ht
  (try dsimp only at ht)
  injection ht with ht
  subst ht
  repeat' (first
    | (with_reducible first
      | exact h | assumption | apply State.issueCore_within)
    | (intro; intros))

theorem execGeta_within {l : List Area} {s₀ s : State} (h : s₀.Within l s) (c) (t) (ht : execGeta c s = .next t)
    (hcores : Area.cores ∈ l := by assumption) (hnet : Area.net ∈ l := by assumption) : s₀.Within l t := by
  unfold execGeta at ht
  (try dsimp only at ht)
  injection ht with ht
  subst ht
  repeat' (first
    | (with_reducible first
      | exact h | assumption | apply State.issueCore_within)
    | (intro; intros))

theorem execAdva_within {l : List Area} {s₀ s : State} (h : s₀.Within l s) (c) (t) (ht : execAdva c s = .next t)
    (hcores : Area.cores ∈ l := by assumption) (hnet : Area.net ∈ l := by assumption) : s₀.Within l t := by
  unfold execAdva at ht
  (try dsimp only at ht)
  injection ht with ht
  subst ht
  repeat' (first
    | (with_reducible first
      | exact h | assumption | apply State.issueCore_within)
    | (intro; intros))

theorem execRdsp_within {l : List Area} {s₀ s : State} (h : s₀.Within l s) (c) (t) (ht : execRdsp c s = .next t)
    (hcores : Area.cores ∈ l := by assumption) (hnet : Area.net ∈ l := by assumption) : s₀.Within l t := by
  unfold execRdsp at ht
  (try dsimp only at ht)
  injection ht with ht
  subst ht
  repeat' (first
    | (with_reducible first
      | exact h | assumption | apply State.within_ite | apply State.issueCore_within)
    | split | (dsimp only; split) | (intro; intros))

theorem execWrsp_within {l : List Area} {s₀ s : State} (h : s₀.Within l s) (c) (t) (ht : execWrsp c s = .next t)
    (hcores : Area.cores ∈ l := by assumption) (hnet : Area.net ∈ l := by assumption) : s₀.Within l t := by
  unfold execWrsp at ht
  (try dsimp only at ht)
  injection ht with ht
  subst ht
  repeat' (first
    | (with_reducible first
      | exact h | assumption | apply State.WithinMk.of | exact Or.inl rfl | exact Or.inr (by assumption)
      | exact Or.inr ⟨by assumption, id⟩ | apply State.issueCore_within)
    | (simp only [State.within_mk]; (try dsimp only)) | split | (dsimp only; split) | (intro; intros))

theorem execVbc_within {l : List Area} {s₀ s : State} (h : s₀.Within l s) (c) (t) (ht : execVbc c s = .next t)
    (hcores : Area.cores ∈ l := by assumption) (hnet : Area.net ∈ l := by assumption) : s₀.Within l t := by
  unfold execVbc at ht
  (try dsimp only at ht)
  injection ht with ht
  subst ht
  repeat' (first
    | (with_reducible first
      | exact h | assumption | apply State.within_ite | apply State.within_foldl | apply State.within_foldl_fst
      | apply State.issueCore_within)
    | split | (dsimp only; split) | (intro; intros))

theorem execVext_within {l : List Area} {s₀ s : State} (h : s₀.Within l s) (c) (t) (ht : execVext c s = .next t)
    (hcores : Area.cores ∈ l := by assumption) (hnet : Area.net ∈ l := by assumption) : s₀.Within l t := by
  unfold execVext at ht
  (try dsimp only at ht)
  injection ht with ht
  subst ht
  repeat' (first
    | (with_reducible first
      | exact h | assumption | apply State.within_ite | apply State.issueCore_within)
    | split | (dsimp only; split) | (intro; intros))

theorem execVmov_within {l : List Area} {s₀ s : State} (h : s₀.Within l s) (c) (t) (ht : execVmov c s = .next t)
    (hcores : Area.cores ∈ l := by assumption) (hnet : Area.net ∈ l := by assumption) : s₀.Within l t := by
  unfold execVmov at ht
  (try dsimp only at ht)
  injection ht with ht
  subst ht
  repeat' (first
    | (with_reducible first
      | exact h | assumption | apply State.issueCore_within)
    | (intro; intros))

theorem execLoop_within {l : List Area} {s₀ s : State} (h : s₀.Within l s) (c) (t) (ht : execLoop c s = .next t)
    (hcores : Area.cores ∈ l := by assumption) (hnet : Area.net ∈ l := by assumption)
    (hfree : Area.free ∈ l := by assumption) : s₀.Within l t := by
  unfold execLoop at ht
  (try dsimp only at ht)
  injection ht with ht
  subst ht
  repeat' (first
    | (with_reducible first
      | exact h | assumption | apply State.within_ite | apply State.issue_within | apply State.fault_within
      | apply State.modCore_within | apply State.drew_within)
    | split | (dsimp only; split) | (intro; intros))

theorem execYield_within {l : List Area} {s₀ s : State} (h : s₀.Within l s) (c) (t) (ht : execYield c s = .next t)
    (hcores : Area.cores ∈ l := by assumption) (hnet : Area.net ∈ l := by assumption) : s₀.Within l t := by
  unfold execYield at ht
  (try dsimp only at ht)
  injection ht with ht
  subst ht
  repeat' (first
    | (with_reducible first
      | exact h | assumption | apply State.within_ite | apply State.issueCore_within)
    | split | (dsimp only; split) | (intro; intros))

theorem State.sendDone_within {l : List Area} {s₀ s : State} (h : s₀.Within l s) (c)
    (hnet : Area.net ∈ l := by assumption) : s₀.Within l (State.sendDone s c) := by
  unfold State.sendDone
  (try dsimp only)
  repeat' (first
    | (with_reducible first
      | exact h | assumption | apply State.WithinMk.of | exact Or.inl rfl | exact Or.inr (by assumption)
      | exact Or.inr ⟨by assumption, id⟩ | apply State.within_ite | apply State.inject_within)
    | (simp only [State.within_mk]; (try dsimp only)) | split | (dsimp only; split))

theorem execHalt_within {l : List Area} {s₀ s : State} (h : s₀.Within l s) (c) (t) (ht : execHalt c s = .next t)
    (hcores : Area.cores ∈ l := by assumption) (hnet : Area.net ∈ l := by assumption) : s₀.Within l t := by
  unfold execHalt at ht
  (try dsimp only at ht)
  injection ht with ht
  subst ht
  repeat' (first
    | (with_reducible first
      | exact h | assumption | apply State.WithinMk.of | exact Or.inl rfl | exact Or.inr (by assumption)
      | exact Or.inr ⟨by assumption, id⟩ | apply State.within_ite | apply State.issue_within
      | apply State.sendDone_within | apply State.modCore_within)
    | (simp only [State.within_mk]; (try dsimp only)) | split | (dsimp only; split) | (intro; intros))

theorem execLds_within {l : List Area} {s₀ s : State} (h : s₀.Within l s) (c) (t) (ht : execLds c s = .next t)
    (hcores : Area.cores ∈ l := by assumption) (hnet : Area.net ∈ l := by assumption) : s₀.Within l t := by
  unfold execLds at ht
  (try dsimp only at ht)
  injection ht with ht
  subst ht
  repeat' (first
    | (with_reducible first
      | exact h | assumption | apply State.issue_within | apply State.modCore_within)
    | (intro; intros))

theorem execStrm_within {l : List Area} {s₀ s : State} (h : s₀.Within l s) (c) (t) (ht : execStrm c s = .next t)
    (hcores : Area.cores ∈ l := by assumption) (hnet : Area.net ∈ l := by assumption) : s₀.Within l t := by
  unfold execStrm at ht
  (try dsimp only at ht)
  injection ht with ht
  subst ht
  repeat' (first
    | (with_reducible first
      | exact h | assumption | apply State.issue_within | apply State.modCore_within)
    | (intro; intros))

theorem execDrn_within {l : List Area} {s₀ s : State} (h : s₀.Within l s) (c) (t) (ht : execDrn c s = .next t)
    (hcores : Area.cores ∈ l := by assumption) (hnet : Area.net ∈ l := by assumption) : s₀.Within l t := by
  unfold execDrn at ht
  (try dsimp only at ht)
  injection ht with ht
  subst ht
  repeat' (first
    | (with_reducible first
      | exact h | assumption | apply State.issue_within | apply State.modCore_within)
    | (intro; intros))

theorem execAcci_within {l : List Area} {s₀ s : State} (h : s₀.Within l s) (c) (t) (ht : execAcci c s = .next t)
    (hcores : Area.cores ∈ l := by assumption) (hnet : Area.net ∈ l := by assumption) : s₀.Within l t := by
  unfold execAcci at ht
  (try dsimp only at ht)
  injection ht with ht
  subst ht
  repeat' (first
    | (with_reducible first
      | exact h | assumption | apply State.issue_within | apply State.modCore_within)
    | (intro; intros))

theorem execAccumulatorCombine_within {l : List Area} {s₀ s : State} (h : s₀.Within l s) (c parityOk) (t)
    (ht : execAccumulatorCombine c parityOk s = .next t) (hcores : Area.cores ∈ l := by assumption)
    (hnet : Area.net ∈ l := by assumption) : s₀.Within l t := by
  unfold execAccumulatorCombine at ht
  (try dsimp only at ht)
  injection ht with ht
  subst ht
  repeat' (first
    | (with_reducible first
      | exact h | assumption | apply State.WithinMk.of | exact Or.inl rfl | exact Or.inr (by assumption)
      | exact Or.inr ⟨by assumption, id⟩ | apply State.within_ite | apply State.setCore_within
      | apply State.fault_within)
    | (simp only [State.within_mk]; (try dsimp only)) | split | (dsimp only; split))

theorem execDrainRead_within {l : List Area} {s₀ s : State} (h : s₀.Within l s) (c parityOk) (t)
    (ht : execDrainRead c parityOk s = .next t) (hcores : Area.cores ∈ l := by assumption)
    (hnet : Area.net ∈ l := by assumption) : s₀.Within l t := by
  unfold execDrainRead at ht
  (try dsimp only at ht)
  injection ht with ht
  subst ht
  repeat' (first
    | (with_reducible first
      | exact h | assumption | apply State.within_ite | apply State.setCore_within | apply State.fault_within)
    | split | (dsimp only; split) | (intro; intros))

theorem execStageWatchdogTimeout_within {l : List Area} {s₀ s : State} (h : s₀.Within l s) (c) (t)
    (ht : execStageWatchdogTimeout c s = .next t) (hregs : Area.regs ∈ l := by assumption)
    (hcores : Area.cores ∈ l := by assumption) (hnet : Area.net ∈ l := by assumption) : s₀.Within l t := by
  unfold execStageWatchdogTimeout at ht
  (try dsimp only at ht)
  injection ht with ht
  subst ht
  repeat' (first
    | (with_reducible first
      | exact h | assumption | apply State.within_ite | apply State.bump_within | apply State.fault_within)
    | split | (dsimp only; split))

theorem State.sendStep_within {l : List Area} {s₀ s : State} (h : s₀.Within l s) (c rt act)
    (ha : ∀ e t, s₀.Within l t → s₀.Within l (act e t)) (hcores : Area.cores ∈ l := by assumption)
    (hnet : Area.net ∈ l := by assumption) : s₀.Within l (State.sendStep s c rt act) := by
  unfold State.sendStep; dsimp only; split
  · exact State.fault_within h _ _
  · split
    · exact h
    · exact ha _ _ h

theorem State.doSend_within {l : List Area} {s₀ s : State} (h : s₀.Within l s) (c w ecc e)
    (hregs : Area.regs ∈ l := by assumption) (hcores : Area.cores ∈ l := by assumption)
    (hnet : Area.net ∈ l := by assumption) (hhelm : Area.helm ∈ l := by assumption)
    (hvault : Area.vault ∈ l := by assumption) (hstart : Area.start ∈ l := by assumption) : s₀.Within l
    (State.doSend s c w ecc e) := by
  unfold State.doSend
  (try dsimp only)
  repeat' (first
    | (with_reducible first
      | exact h | assumption | apply State.within_ite | apply State.within_ite_fst | apply State.checkRows_within
      | apply State.setCore_within | apply State.inject_within)
    | split | (dsimp only; split)
    | (dsimp only))

theorem execSend_within {l : List Area} {s₀ s : State} (h : s₀.Within l s) (c rows) (t) (ht : execSend c rows s = .next t)
    (hregs : Area.regs ∈ l := by assumption) (hcores : Area.cores ∈ l := by assumption)
    (hnet : Area.net ∈ l := by assumption) (hhelm : Area.helm ∈ l := by assumption)
    (hvault : Area.vault ∈ l := by assumption) (hstart : Area.start ∈ l := by assumption) : s₀.Within l t := by
  unfold execSend at ht
  (try dsimp only at ht)
  injection ht with ht
  subst ht
  repeat' (first
    | (with_reducible first
      | exact h | assumption | apply State.within_ite | apply State.issue_within | apply State.sendStep_within
      | apply State.modCore_within | apply State.doSend_within)
    | split | (dsimp only; split) | (intro; intros))

theorem execSendv_within {l : List Area} {s₀ s : State} (h : s₀.Within l s) (c) (t) (ht : execSendv c s = .next t)
    (hcores : Area.cores ∈ l := by assumption) (hnet : Area.net ∈ l := by assumption) : s₀.Within l t := by
  unfold execSendv at ht
  (try dsimp only at ht)
  injection ht with ht
  subst ht
  repeat' (first
    | (with_reducible first
      | exact h | assumption | apply State.issue_within | apply State.sendStep_within | apply State.setCore_within
      | apply State.inject_within)
    | (intro; intros))

theorem execRecv_within {l : List Area} {s₀ s : State} (h : s₀.Within l s) (c) (t) (ht : execRecv c s = .next t)
    (hcores : Area.cores ∈ l := by assumption) (hnet : Area.net ∈ l := by assumption) : s₀.Within l t := by
  unfold execRecv at ht
  (try dsimp only at ht)
  injection ht with ht
  subst ht
  repeat' (first
    | (with_reducible first
      | exact h | assumption | apply State.WithinMk.of | exact Or.inl rfl | exact Or.inr (by assumption)
      | exact Or.inr ⟨by assumption, id⟩ | apply State.within_ite | apply State.issue_within
      | apply State.modCore_within)
    | (simp only [State.within_mk]; (try dsimp only)) | split | (dsimp only; split) | (intro; intros))

theorem execTally_within {l : List Area} {s₀ s : State} (h : s₀.Within l s) (c) (t) (ht : execTally c s = .next t)
    (hcores : Area.cores ∈ l := by assumption) (hnet : Area.net ∈ l := by assumption) : s₀.Within l t := by
  unfold execTally at ht
  (try dsimp only at ht)
  injection ht with ht
  subst ht
  repeat' (first
    | (with_reducible first
      | exact h | assumption | apply State.issue_within | apply State.sendStep_within | apply State.setCore_within
      | apply State.inject_within)
    | (intro; intros))

theorem execTwait_within {l : List Area} {s₀ s : State} (h : s₀.Within l s) (c) (t) (ht : execTwait c s = .next t)
    (hcores : Area.cores ∈ l := by assumption) (hnet : Area.net ∈ l := by assumption) : s₀.Within l t := by
  unfold execTwait at ht
  (try dsimp only at ht)
  injection ht with ht
  subst ht
  repeat' (first
    | (with_reducible first
      | exact h | assumption | apply State.WithinMk.of | exact Or.inl rfl | exact Or.inr (by assumption)
      | exact Or.inr ⟨by assumption, id⟩ | apply State.within_ite | apply State.issue_within
      | apply State.modCore_within)
    | (simp only [State.within_mk]; (try dsimp only)) | split | (dsimp only; split) | (intro; intros))

theorem State.writeDone_within {l : List Area} {s₀ s : State} (h : s₀.Within l s) (c p)
    (hcores : Area.cores ∈ l := by assumption) (hnet : Area.net ∈ l := by assumption) : s₀.Within l
    (State.writeDone s c p) := by
  unfold State.writeDone
  (try dsimp only)
  repeat' (first
    | (with_reducible first
      | exact h | assumption | apply State.WithinMk.of | exact Or.inl rfl | exact Or.inr (by assumption)
      | exact Or.inr ⟨by assumption, id⟩ | apply State.within_ite | apply State.modCore_within
      | apply State.accept_within)
    | (simp only [State.within_mk]; (try dsimp only)) | split | (dsimp only; split) | (intro; intros))

theorem State.maskRow_within {l : List Area} {s₀ s : State} (h : s₀.Within l s) (c p ecc)
    (hregs : Area.regs ∈ l := by assumption) (hcores : Area.cores ∈ l := by assumption)
    (hnet : Area.net ∈ l := by assumption) (hhelm : Area.helm ∈ l := by assumption)
    (hvault : Area.vault ∈ l := by assumption) (hstart : Area.start ∈ l := by assumption) : s₀.Within l
    (State.maskRow s c p ecc) := by
  unfold State.maskRow
  (try dsimp only)
  repeat' (first
    | (with_reducible first
      | exact h | assumption | apply State.WithinMk.of | exact Or.inl rfl | exact Or.inr (by assumption)
      | exact Or.inr ⟨by assumption, id⟩ | apply State.within_ite | apply State.within_ite_fst
      | apply State.readRow_within | apply State.modCore_within)
    | (simp only [State.within_mk]; (try dsimp only)) | split | (dsimp only; split) | (intro; intros)
    | (dsimp only))

theorem State.writeRows_within {l : List Area} {s₀ s : State} (h : s₀.Within l s) (c p won p0)
    (hcores : Area.cores ∈ l := by assumption) : s₀.Within l (State.writeRows s c p won p0).1 := by
  induction p0 generalizing s c p won with
  | zero =>
    unfold State.writeRows
    (try dsimp only)
    repeat' (first
      | (with_reducible first
        | exact h | assumption | apply State.within_ite | apply State.within_ite_fst | apply State.modCore_within)
      | split | (dsimp only; split) | (intro; intros)
      | (dsimp only))
  | succ n ih =>
    unfold State.writeRows
    (try dsimp only)
    repeat' (first
      | (with_reducible first
        | exact h | assumption | apply ih | apply State.within_ite | apply State.within_ite_fst | apply State.modCore_within)
      | split | (dsimp only; split) | (intro; intros)
      | (dsimp only))

theorem State.inbound_within {l : List Area} {s₀ s : State} (h : s₀.Within l s) (c p won ecc)
    (hregs : Area.regs ∈ l := by assumption) (hcores : Area.cores ∈ l := by assumption)
    (hnet : Area.net ∈ l := by assumption) (hhelm : Area.helm ∈ l := by assumption)
    (hvault : Area.vault ∈ l := by assumption) (hstart : Area.start ∈ l := by assumption) : s₀.Within l
    (State.inbound s c p won ecc).1 := by
  unfold State.inbound
  (try dsimp only)
  repeat' (first
    | (with_reducible first
      | exact h | assumption | apply State.within_ite | apply State.within_ite_fst | apply State.maskRow_within
      | apply State.writeDone_within | apply State.writeRows_within)
    | split | (dsimp only; split)
    | (dsimp only))

theorem State.inboundAll_within {l : List Area} {s₀ s : State} (h : s₀.Within l s) (c won ecc p0)
    (hregs : Area.regs ∈ l := by assumption) (hcores : Area.cores ∈ l := by assumption)
    (hnet : Area.net ∈ l := by assumption) (hhelm : Area.helm ∈ l := by assumption)
    (hvault : Area.vault ∈ l := by assumption) (hstart : Area.start ∈ l := by assumption) : s₀.Within l
    (State.inboundAll s c won ecc p0) := by
  induction p0 generalizing s c won ecc with
  | nil =>
    unfold State.inboundAll
    (try dsimp only)
    repeat' (first
      | (with_reducible first
        | exact h | assumption | apply State.modCore_within | apply State.inbound_within)
      | split | (dsimp only; split) | (intro; intros)
      | (dsimp only))
  | cons x xs ih =>
    unfold State.inboundAll
    (try dsimp only)
    repeat' (first
      | (with_reducible first
        | exact h | assumption | apply ih | apply State.modCore_within | apply State.inbound_within)
      | split | (dsimp only; split) | (intro; intros)
      | (dsimp only))

theorem State.inboundHead_within {l : List Area} {s₀ s : State} (h : s₀.Within l s) (c won ecc)
    (hregs : Area.regs ∈ l := by assumption) (hcores : Area.cores ∈ l := by assumption)
    (hnet : Area.net ∈ l := by assumption) (hhelm : Area.helm ∈ l := by assumption)
    (hvault : Area.vault ∈ l := by assumption) (hstart : Area.start ∈ l := by assumption) : s₀.Within l
    (State.inboundHead s c won ecc) := by
  unfold State.inboundHead
  (try dsimp only)
  repeat' (first
    | (with_reducible first
      | exact h | assumption | apply State.modCore_within | apply State.inboundAll_within)
    | (intro; intros))

theorem State.readEnd_within {l : List Area} {s₀ s : State} (h : s₀.Within l s) (c p status data)
    (hcores : Area.cores ∈ l := by assumption) (hnet : Area.net ∈ l := by assumption) : s₀.Within l
    (State.readEnd s c p status data) := by
  unfold State.readEnd
  (try dsimp only)
  repeat' (first
    | (with_reducible first
      | exact h | assumption | apply State.WithinMk.of | exact Or.inl rfl | exact Or.inr (by assumption)
      | exact Or.inr ⟨by assumption, id⟩ | apply State.modCore_within | apply State.arrive_within
      | apply State.reply_within | apply State.accept_within)
    | (simp only [State.within_mk]; (try dsimp only)) | (intro; intros)
    | (dsimp only))

theorem State.readRows_within {l : List Area} {s₀ s : State} (h : s₀.Within l s) (c p won lost ecc p0)
    (hregs : Area.regs ∈ l := by assumption) (hcores : Area.cores ∈ l := by assumption)
    (hnet : Area.net ∈ l := by assumption) (hhelm : Area.helm ∈ l := by assumption)
    (hvault : Area.vault ∈ l := by assumption) (hstart : Area.start ∈ l := by assumption) : s₀.Within l
    (State.readRows s c p won lost ecc p0) := by
  induction p0 generalizing s c p won lost ecc with
  | zero =>
    unfold State.readRows
    (try dsimp only)
    repeat' (first
      | (with_reducible first
        | exact h | assumption | apply State.WithinMk.of | exact Or.inl rfl | exact Or.inr (by assumption)
        | exact Or.inr ⟨by assumption, id⟩ | apply State.within_ite | apply State.within_ite_fst
        | apply State.readEnd_within | apply State.modCore_within | apply State.readRow_within)
      | (simp only [State.within_mk]; (try dsimp only)) | split | (dsimp only; split) | (intro; intros)
      | (dsimp only))
  | succ n ih =>
    unfold State.readRows
    (try dsimp only)
    repeat' (first
      | (with_reducible first
        | exact h | assumption | apply ih | apply State.WithinMk.of | exact Or.inl rfl | exact Or.inr (by assumption)
        | exact Or.inr ⟨by assumption, id⟩ | apply State.within_ite | apply State.within_ite_fst
        | apply State.readEnd_within | apply State.modCore_within | apply State.readRow_within)
      | (simp only [State.within_mk]; (try dsimp only)) | split | (dsimp only; split) | (intro; intros)
      | (dsimp only))

theorem State.slotAccess_within {l : List Area} {s₀ s : State} (h : s₀.Within l s) (c w ecc)
    (hregs : Area.regs ∈ l := by assumption) (hcores : Area.cores ∈ l := by assumption)
    (hnet : Area.net ∈ l := by assumption) (hhelm : Area.helm ∈ l := by assumption)
    (hvault : Area.vault ∈ l := by assumption) (hstart : Area.start ∈ l := by assumption) : s₀.Within l
    (State.slotAccess s c w ecc) := by
  unfold State.slotAccess
  (try dsimp only)
  repeat' (first
    | (with_reducible first
      | exact h | assumption | apply State.readRow_within | apply State.modCore_within | apply State.sendStep_within
      | apply State.doSend_within)
    | split | (dsimp only; split) | (intro; intros)
    | (dsimp only))

theorem State.slotStep_within {l : List Area} {s₀ s : State} (h : s₀.Within l s) (c lost ecc w)
    (hregs : Area.regs ∈ l := by assumption) (hcores : Area.cores ∈ l := by assumption)
    (hnet : Area.net ∈ l := by assumption) (hhelm : Area.helm ∈ l := by assumption)
    (hvault : Area.vault ∈ l := by assumption) (hstart : Area.start ∈ l := by assumption) : s₀.Within l
    (State.slotStep s c lost ecc w) := by
  unfold State.slotStep
  (try dsimp only)
  repeat' (first
    | (with_reducible first
      | exact h | assumption | apply State.within_ite | apply State.modCore_within | apply State.slotAccess_within)
    | split | (dsimp only; split) | (intro; intros))

theorem execSld_within {l : List Area} {s₀ s : State} (h : s₀.Within l s) (c lost ecc) (t)
    (ht : execSld c lost ecc s = .next t) (hregs : Area.regs ∈ l := by assumption)
    (hcores : Area.cores ∈ l := by assumption) (hnet : Area.net ∈ l := by assumption)
    (hhelm : Area.helm ∈ l := by assumption) (hvault : Area.vault ∈ l := by assumption)
    (hstart : Area.start ∈ l := by assumption) : s₀.Within l t := by
  unfold execSld at ht
  (try dsimp only at ht)
  injection ht with ht
  subst ht
  repeat' (first
    | (with_reducible first
      | exact h | assumption | apply State.issue_within | apply State.slotStep_within)
    | (intro; intros))

theorem execSst_within {l : List Area} {s₀ s : State} (h : s₀.Within l s) (c lost) (t) (ht : execSst c lost s = .next t)
    (hregs : Area.regs ∈ l := by assumption) (hcores : Area.cores ∈ l := by assumption)
    (hnet : Area.net ∈ l := by assumption) (hhelm : Area.helm ∈ l := by assumption)
    (hvault : Area.vault ∈ l := by assumption) (hstart : Area.start ∈ l := by assumption) : s₀.Within l t := by
  unfold execSst at ht
  (try dsimp only at ht)
  injection ht with ht
  subst ht
  repeat' (first
    | (with_reducible first
      | exact h | assumption | apply State.issue_within | apply State.slotStep_within)
    | (intro; intros))

theorem execTset_within {l : List Area} {s₀ s : State} (h : s₀.Within l s) (c) (t) (ht : execTset c s = .next t)
    (hregs : Area.regs ∈ l := by assumption) (hcores : Area.cores ∈ l := by assumption)
    (hnet : Area.net ∈ l := by assumption) (hhelm : Area.helm ∈ l := by assumption)
    (hvault : Area.vault ∈ l := by assumption) (hstart : Area.start ∈ l := by assumption) : s₀.Within l t := by
  unfold execTset at ht
  (try dsimp only at ht)
  injection ht with ht
  subst ht
  repeat' (first
    | (with_reducible first
      | exact h | assumption | apply State.issue_within | apply State.slotStep_within)
    | (intro; intros))

theorem execTclr_within {l : List Area} {s₀ s : State} (h : s₀.Within l s) (c) (t) (ht : execTclr c s = .next t)
    (hregs : Area.regs ∈ l := by assumption) (hcores : Area.cores ∈ l := by assumption)
    (hnet : Area.net ∈ l := by assumption) (hhelm : Area.helm ∈ l := by assumption)
    (hvault : Area.vault ∈ l := by assumption) (hstart : Area.start ∈ l := by assumption) : s₀.Within l t := by
  unfold execTclr at ht
  (try dsimp only at ht)
  injection ht with ht
  subst ht
  repeat' (first
    | (with_reducible first
      | exact h | assumption | apply State.issue_within | apply State.slotStep_within)
    | (intro; intros))

theorem State.streamRead_within {l : List Area} {s₀ s : State} (h : s₀.Within l s) (c rows ecc)
    (hregs : Area.regs ∈ l := by assumption) (hcores : Area.cores ∈ l := by assumption)
    (hnet : Area.net ∈ l := by assumption) (hhelm : Area.helm ∈ l := by assumption)
    (hvault : Area.vault ∈ l := by assumption) (hstart : Area.start ∈ l := by assumption) : s₀.Within l
    (State.streamRead s c rows ecc).1 := by
  unfold State.streamRead
  (try dsimp only)
  repeat' (first
    | (with_reducible first
      | exact h | assumption | apply State.WithinMk.of | exact Or.inl rfl | exact Or.inr (by assumption)
      | exact Or.inr ⟨by assumption, id⟩ | apply State.within_ite | apply State.within_ite_fst
      | apply State.checkAll_within | apply State.modCore_within)
    | (simp only [State.within_mk]; (try dsimp only)) | split | (dsimp only; split) | (intro; intros)
    | (dsimp only))

theorem State.enterWith_within {l : List Area} {s₀ s : State} (h : s₀.Within l s) (c o parityOk fr)
    (hcores : Area.cores ∈ l := by assumption) (hnet : Area.net ∈ l := by assumption) : s₀.Within l
    (State.enterWith s c o parityOk fr) := by
  unfold State.enterWith
  (try dsimp only)
  repeat' (first
    | (with_reducible first
      | exact h | assumption | apply State.within_ite | apply State.fault_within | apply State.modCore_within)
    | split | (dsimp only; split) | (intro; intros))

theorem execStreamVectorEnterA_within {l : List Area} {s₀ s : State} (h : s₀.Within l s) (c rows parityOk) (t)
    (ht : execStreamVectorEnterA c rows parityOk s = .next t) (hregs : Area.regs ∈ l := by assumption)
    (hcores : Area.cores ∈ l := by assumption) (hnet : Area.net ∈ l := by assumption)
    (hhelm : Area.helm ∈ l := by assumption) (hvault : Area.vault ∈ l := by assumption)
    (hstart : Area.start ∈ l := by assumption) (hfree : Area.free ∈ l := by assumption) : s₀.Within l t := by
  unfold execStreamVectorEnterA at ht
  (try dsimp only at ht)
  injection ht with ht
  subst ht
  repeat' (first
    | (with_reducible first
      | exact h | assumption | apply State.within_ite | apply State.within_ite_fst | apply State.modCore_within
      | apply State.drew_within | apply State.streamRead_within | apply State.enterWith_within)
    | split | (dsimp only; split) | (intro; intros)
    | (dsimp only))

theorem State.again_within {l : List Area} {s₀ s : State} (h : s₀.Within l s) (c w won lost ecc)
    (hregs : Area.regs ∈ l := by assumption) (hcores : Area.cores ∈ l := by assumption)
    (hnet : Area.net ∈ l := by assumption) (hhelm : Area.helm ∈ l := by assumption)
    (hvault : Area.vault ∈ l := by assumption) (hstart : Area.start ∈ l := by assumption) : s₀.Within l
    (State.again s c w won lost ecc) := by
  unfold State.again
  (try dsimp only)
  repeat' (first
    | (with_reducible first
      | exact h | assumption | apply State.within_ite | apply State.within_ite_fst | apply State.modCore_within
      | apply State.slotAccess_within | apply State.streamRead_within | apply State.inboundHead_within
      | apply State.readRows_within)
    | split | (dsimp only; split) | (intro; intros)
    | (dsimp only))

theorem State.streamAgain_within {l : List Area} {s₀ s : State} (h : s₀.Within l s) (c rows)
    (hregs : Area.regs ∈ l := by assumption) (hcores : Area.cores ∈ l := by assumption)
    (hnet : Area.net ∈ l := by assumption) (hhelm : Area.helm ∈ l := by assumption)
    (hvault : Area.vault ∈ l := by assumption) (hstart : Area.start ∈ l := by assumption) : s₀.Within l
    (State.streamAgain s c rows) := by
  unfold State.streamAgain
  (try dsimp only)
  repeat' (first
    | (with_reducible first
      | exact h | assumption | apply State.within_ite | apply State.within_ite_fst | apply State.modCore_within
      | apply State.streamRead_within)
    | split | (dsimp only; split) | (intro; intros)
    | (dsimp only))

theorem execTagWaitRetry_within {l : List Area} {s₀ s : State} (h : s₀.Within l s) (c w rows) (t)
    (ht : execTagWaitRetry c w rows s = .next t) (hregs : Area.regs ∈ l := by assumption)
    (hcores : Area.cores ∈ l := by assumption) (hnet : Area.net ∈ l := by assumption)
    (hhelm : Area.helm ∈ l := by assumption) (hvault : Area.vault ∈ l := by assumption)
    (hstart : Area.start ∈ l := by assumption) : s₀.Within l t := by
  unfold execTagWaitRetry at ht
  (try dsimp only at ht)
  injection ht with ht
  subst ht
  repeat' (first
    | (with_reducible first
      | exact h | assumption | apply State.within_ite | apply State.streamAgain_within | apply State.modCore_within
      | apply State.again_within)
    | split | (dsimp only; split) | (intro; intros))

theorem execRowArbiterDeferredGrant_within {l : List Area} {s₀ s : State} (h : s₀.Within l s) (c w ecc) (t)
    (ht : execRowArbiterDeferredGrant c w ecc s = .next t) (hregs : Area.regs ∈ l := by assumption)
    (hcores : Area.cores ∈ l := by assumption) (hnet : Area.net ∈ l := by assumption)
    (hhelm : Area.helm ∈ l := by assumption) (hvault : Area.vault ∈ l := by assumption)
    (hstart : Area.start ∈ l := by assumption) : s₀.Within l t := by
  unfold execRowArbiterDeferredGrant at ht
  (try dsimp only at ht)
  injection ht with ht
  subst ht
  repeat' (first
    | (with_reducible first
      | exact h | assumption | apply State.within_ite | apply State.modCore_within | apply State.again_within)
    | split | (dsimp only; split) | (intro; intros))

theorem State.vec2_within {l : List Area} {s₀ s : State} (h : s₀.Within l s) (c o op)
    (hcores : Area.cores ∈ l := by assumption) (hnet : Area.net ∈ l := by assumption) : s₀.Within l (State.vec2 s c o op)
    := by
  unfold State.vec2
  (try dsimp only)
  repeat' (first
    | (with_reducible first
      | exact h | assumption | apply State.issueCore_within)
    | (intro; intros))

theorem execVadd_within {l : List Area} {s₀ s : State} (h : s₀.Within l s) (c) (t) (ht : execVadd c s = .next t)
    (hcores : Area.cores ∈ l := by assumption) (hnet : Area.net ∈ l := by assumption) : s₀.Within l t := by
  unfold execVadd at ht
  (try dsimp only at ht)
  injection ht with ht
  subst ht
  repeat' (with_reducible first
      | exact h | assumption | apply State.vec2_within)

theorem execVsub_within {l : List Area} {s₀ s : State} (h : s₀.Within l s) (c) (t) (ht : execVsub c s = .next t)
    (hcores : Area.cores ∈ l := by assumption) (hnet : Area.net ∈ l := by assumption) : s₀.Within l t := by
  unfold execVsub at ht
  (try dsimp only at ht)
  injection ht with ht
  subst ht
  repeat' (first
    | (with_reducible first
      | exact h | assumption | apply State.vec2_within)
    | (intro; intros))

theorem execVmul_within {l : List Area} {s₀ s : State} (h : s₀.Within l s) (c) (t) (ht : execVmul c s = .next t)
    (hcores : Area.cores ∈ l := by assumption) (hnet : Area.net ∈ l := by assumption) : s₀.Within l t := by
  unfold execVmul at ht
  (try dsimp only at ht)
  injection ht with ht
  subst ht
  repeat' (with_reducible first
      | exact h | assumption | apply State.vec2_within)

theorem execVfma_within {l : List Area} {s₀ s : State} (h : s₀.Within l s) (c) (t) (ht : execVfma c s = .next t)
    (hcores : Area.cores ∈ l := by assumption) (hnet : Area.net ∈ l := by assumption) : s₀.Within l t := by
  unfold execVfma at ht
  (try dsimp only at ht)
  injection ht with ht
  subst ht
  repeat' (first
    | (with_reducible first
      | exact h | assumption | apply State.issueCore_within)
    | (intro; intros)
    | (dsimp only))

theorem execVmin_within {l : List Area} {s₀ s : State} (h : s₀.Within l s) (c) (t) (ht : execVmin c s = .next t)
    (hcores : Area.cores ∈ l := by assumption) (hnet : Area.net ∈ l := by assumption) : s₀.Within l t := by
  unfold execVmin at ht
  (try dsimp only at ht)
  injection ht with ht
  subst ht
  repeat' (first
    | (with_reducible first
      | exact h | assumption | apply State.vec2_within)
    | (intro; intros))

theorem execVmax_within {l : List Area} {s₀ s : State} (h : s₀.Within l s) (c) (t) (ht : execVmax c s = .next t)
    (hcores : Area.cores ∈ l := by assumption) (hnet : Area.net ∈ l := by assumption) : s₀.Within l t := by
  unfold execVmax at ht
  (try dsimp only at ht)
  injection ht with ht
  subst ht
  repeat' (first
    | (with_reducible first
      | exact h | assumption | apply State.vec2_within)
    | (intro; intros))

theorem execVcmp_within {l : List Area} {s₀ s : State} (h : s₀.Within l s) (c) (t) (ht : execVcmp c s = .next t)
    (hcores : Area.cores ∈ l := by assumption) (hnet : Area.net ∈ l := by assumption) : s₀.Within l t := by
  unfold execVcmp at ht
  (try dsimp only at ht)
  injection ht with ht
  subst ht
  repeat' (first
    | (with_reducible first
      | exact h | assumption | apply State.WithinMk.of | exact Or.inl rfl | exact Or.inr (by assumption)
      | exact Or.inr ⟨by assumption, id⟩ | apply State.within_ite | apply State.within_ite_fst
      | apply State.issueCore_within)
    | (simp only [State.within_mk]; (try dsimp only)) | split | (dsimp only; split) | (intro; intros)
    | (dsimp only))

theorem State.vecSpecial_within {l : List Area} {s₀ s : State} (h : s₀.Within l s) (c o g)
    (hcores : Area.cores ∈ l := by assumption) (hnet : Area.net ∈ l := by assumption)
    (hfree : Area.free ∈ l := by assumption) : s₀.Within l (State.vecSpecial s c o g) := by
  unfold State.vecSpecial
  (try dsimp only)
  repeat' (first
    | (with_reducible first
      | exact h | assumption | apply State.issue_within | apply State.setCore_within | apply State.drew_within)
    | split | (dsimp only; split) | (intro; intros)
    | (dsimp only))

theorem execVexp2_within {l : List Area} {s₀ s : State} (h : s₀.Within l s) (c) (t) (ht : execVexp2 c s = .next t)
    (hcores : Area.cores ∈ l := by assumption) (hnet : Area.net ∈ l := by assumption)
    (hfree : Area.free ∈ l := by assumption) : s₀.Within l t := by
  unfold execVexp2 at ht
  (try dsimp only at ht)
  injection ht with ht
  subst ht
  repeat' (with_reducible first
      | exact h | assumption | apply State.vecSpecial_within)

theorem execVrcp_within {l : List Area} {s₀ s : State} (h : s₀.Within l s) (c) (t) (ht : execVrcp c s = .next t)
    (hcores : Area.cores ∈ l := by assumption) (hnet : Area.net ∈ l := by assumption)
    (hfree : Area.free ∈ l := by assumption) : s₀.Within l t := by
  unfold execVrcp at ht
  (try dsimp only at ht)
  injection ht with ht
  subst ht
  repeat' (with_reducible first
      | exact h | assumption | apply State.vecSpecial_within)

theorem execVrsq_within {l : List Area} {s₀ s : State} (h : s₀.Within l s) (c) (t) (ht : execVrsq c s = .next t)
    (hcores : Area.cores ∈ l := by assumption) (hnet : Area.net ∈ l := by assumption)
    (hfree : Area.free ∈ l := by assumption) : s₀.Within l t := by
  unfold execVrsq at ht
  (try dsimp only at ht)
  injection ht with ht
  subst ht
  repeat' (with_reducible first
      | exact h | assumption | apply State.vecSpecial_within)

theorem execVcvt_within {l : List Area} {s₀ s : State} (h : s₀.Within l s) (c) (t) (ht : execVcvt c s = .next t)
    (hcores : Area.cores ∈ l := by assumption) (hnet : Area.net ∈ l := by assumption) : s₀.Within l t := by
  unfold execVcvt at ht
  (try dsimp only at ht)
  injection ht with ht
  subst ht
  repeat' (first
    | (with_reducible first
      | exact h | assumption | apply State.within_ite | apply State.issueCore_within)
    | split | (dsimp only; split) | (intro; intros))

theorem execVscl_within {l : List Area} {s₀ s : State} (h : s₀.Within l s) (c) (t) (ht : execVscl c s = .next t)
    (hcores : Area.cores ∈ l := by assumption) (hnet : Area.net ∈ l := by assumption) : s₀.Within l t := by
  unfold execVscl at ht
  (try dsimp only at ht)
  injection ht with ht
  subst ht
  repeat' (first
    | (with_reducible first
      | exact h | assumption | apply State.issueCore_within)
    | (intro; intros)
    | (dsimp only))

theorem execVscm_within {l : List Area} {s₀ s : State} (h : s₀.Within l s) (c) (t) (ht : execVscm c s = .next t)
    (hcores : Area.cores ∈ l := by assumption) (hnet : Area.net ∈ l := by assumption) : s₀.Within l t := by
  unfold execVscm at ht
  (try dsimp only at ht)
  injection ht with ht
  subst ht
  repeat' (first
    | (with_reducible first
      | exact h | assumption | apply State.issueCore_within)
    | (intro; intros)
    | (dsimp only))

theorem execVexpx_within {l : List Area} {s₀ s : State} (h : s₀.Within l s) (c) (t) (ht : execVexpx c s = .next t)
    (hcores : Area.cores ∈ l := by assumption) (hnet : Area.net ∈ l := by assumption) : s₀.Within l t := by
  unfold execVexpx at ht
  (try dsimp only at ht)
  injection ht with ht
  subst ht
  repeat' (first
    | (with_reducible first
      | exact h | assumption | apply State.issueCore_within)
    | (intro; intros)
    | (dsimp only))

theorem execVsrch_within {l : List Area} {s₀ s : State} (h : s₀.Within l s) (c) (t) (ht : execVsrch c s = .next t)
    (hcores : Area.cores ∈ l := by assumption) (hnet : Area.net ∈ l := by assumption) : s₀.Within l t := by
  unfold execVsrch at ht
  (try dsimp only at ht)
  injection ht with ht
  subst ht
  repeat' (first
    | (with_reducible first
      | exact h | assumption | apply State.within_ite | apply State.within_foldl | apply State.within_foldl_fst
      | apply State.issueCore_within)
    | split | (dsimp only; split) | (intro; intros))

theorem execVectorResultWrite_within {l : List Area} {s₀ s : State} (h : s₀.Within l s) (c n) (t)
    (ht : execVectorResultWrite c n s = .next t) (hcores : Area.cores ∈ l := by assumption) : s₀.Within l t := by
  unfold execVectorResultWrite at ht
  (try dsimp only at ht)
  injection ht with ht
  subst ht
  repeat' (first
    | (with_reducible first
      | exact h | assumption | apply State.WithinMk.of | exact Or.inl rfl | exact Or.inr (by assumption)
      | exact Or.inr ⟨by assumption, id⟩ | apply State.within_ite | apply State.setCore_within)
    | (simp only [State.within_mk]; (try dsimp only)) | split | (dsimp only; split))

theorem State.stopArrives_within {l : List Area} {s₀ s : State} (h : s₀.Within l s) (c)
    (hcores : Area.cores ∈ l := by assumption) : s₀.Within l (State.stopArrives s c) := by
  unfold State.stopArrives
  (try dsimp only)
  repeat' (first
    | (with_reducible first
      | exact h | assumption | apply State.WithinMk.of | exact Or.inl rfl | exact Or.inr (by assumption)
      | exact Or.inr ⟨by assumption, id⟩ | apply State.within_ite | apply State.modCore_within)
    | (simp only [State.within_mk]; (try dsimp only)) | split | (dsimp only; split) | (intro; intros))

theorem State.takeLatched_within {l : List Area} {s₀ s : State} (h : s₀.Within l s) (c)
    (hcores : Area.cores ∈ l := by assumption) : s₀.Within l (State.takeLatched s c) := by
  unfold State.takeLatched
  (try dsimp only)
  repeat' (first
    | (with_reducible first
      | exact h | assumption | apply State.within_ite | apply State.modCore_within)
    | split | (dsimp only; split) | (intro; intros))

theorem execPreemptStop_within {l : List Area} {s₀ s : State} (h : s₀.Within l s) (c) (t)
    (ht : execPreemptStop c s = .next t) (hcores : Area.cores ∈ l := by assumption) : s₀.Within l t := by
  unfold execPreemptStop at ht
  (try dsimp only at ht)
  injection ht with ht
  subst ht
  repeat' (with_reducible first
      | exact h | assumption | apply State.takeLatched_within)

theorem execYieldLimitExpire_within {l : List Area} {s₀ s : State} (h : s₀.Within l s) (c) (t)
    (ht : execYieldLimitExpire c s = .next t) (hcores : Area.cores ∈ l := by assumption) : s₀.Within l t := by
  unfold execYieldLimitExpire at ht
  (try dsimp only at ht)
  injection ht with ht
  subst ht
  repeat' (first
    | (with_reducible first
      | exact h | assumption | apply State.within_ite | apply State.modCore_within)
    | split | (dsimp only; split) | (intro; intros))

theorem State.writeImage_within {l : List Area} {s₀ s : State} (h : s₀.Within l s) (x c segs)
    (hregs : Area.regs ∈ l := by assumption) (hhbm : Area.hbm ∈ l := by assumption)
    (hhbmc : Area.hbmc ∈ l := by assumption) (hctxs : Area.ctxs ∈ l := by assumption)
    (hhelm : Area.helm ∈ l := by assumption) (hfree : Area.free ∈ l := by assumption) : s₀.Within l
    (State.writeImage s x c segs) := by
  unfold State.writeImage
  (try dsimp only)
  repeat' (first
    | (with_reducible first
      | exact h | assumption | apply State.within_foldl | apply State.within_foldl_fst | apply State.hbmPut_within)
    | (intro; intros)
    | (dsimp only))

theorem State.saveCore_within {l : List Area} {s₀ s : State} (h : s₀.Within l s) (x c yielded dead)
    (hregs : Area.regs ∈ l := by assumption) (hcores : Area.cores ∈ l := by assumption)
    (hhbm : Area.hbm ∈ l := by assumption) (hhbmc : Area.hbmc ∈ l := by assumption)
    (hctxs : Area.ctxs ∈ l := by assumption) (hhelm : Area.helm ∈ l := by assumption)
    (hfree : Area.free ∈ l := by assumption) : s₀.Within l (State.saveCore s x c yielded dead) := by
  unfold State.saveCore
  (try dsimp only)
  repeat' (first
    | (with_reducible first
      | exact h | assumption | apply State.WithinMk.of | exact Or.inl rfl | exact Or.inr (by assumption)
      | exact Or.inr ⟨by assumption, id⟩ | apply State.within_ite | apply State.writeImage_within
      | apply State.modCtx_within | apply State.modCore_within)
    | (simp only [State.within_mk]; (try dsimp only)) | split | (dsimp only; split) | (intro; intros))

theorem execCoreQuietSave_within {l : List Area} {s₀ s : State} (h : s₀.Within l s) (c ecc parityOk) (t)
    (ht : execCoreQuietSave c ecc parityOk s = .next t) (hregs : Area.regs ∈ l := by assumption)
    (hcores : Area.cores ∈ l := by assumption) (hnet : Area.net ∈ l := by assumption)
    (hhbm : Area.hbm ∈ l := by assumption) (hhbmc : Area.hbmc ∈ l := by assumption)
    (hctxs : Area.ctxs ∈ l := by assumption) (hhelm : Area.helm ∈ l := by assumption)
    (hvault : Area.vault ∈ l := by assumption) (hstart : Area.start ∈ l := by assumption)
    (hfree : Area.free ∈ l := by assumption) : s₀.Within l t := by
  unfold execCoreQuietSave at ht
  (try dsimp only at ht)
  injection ht with ht
  subst ht
  repeat' (first
    | (with_reducible first
      | exact h | assumption | apply State.within_ite | apply State.within_ite_fst | apply State.fault_within
      | apply State.checkRows_within | apply State.saveCore_within)
    | split | (dsimp only; split)
    | (dsimp only))

end Sys2Proof.Machine
end

