-- ==== Sys2Proof/Laws/WithinDevice.lean ====
section
/-! SUPPORT. What each operation changes at most (State.Within, Safety.lean), for register classes, clocks, HBM, the fabric and the Rose. -/

namespace Sys2Proof.Machine

set_option Elab.async false
set_option linter.all false

theorem State.modPort_within {l : List Area} {s₀ s : State} (h : s₀.Within l s) (p f)
    (hports : Area.ports ∈ l := by assumption) : s₀.Within l (State.modPort s p f) := by
  unfold State.modPort
  (try dsimp only)
  repeat' (first
    | (with_reducible first
      | exact h | assumption | apply State.WithinMk.of | exact Or.inl rfl | exact Or.inr (by assumption)
      | exact Or.inr ⟨by assumption, id⟩)
    | (simp only [State.within_mk]; (try dsimp only)))

theorem State.violation_within {l : List Area} {s₀ s : State} (h : s₀.Within l s) (p)
    (hregs : Area.regs ∈ l := by assumption) : s₀.Within l (State.violation s p) := by
  unfold State.violation
  (try dsimp only)
  repeat' (with_reducible first
      | exact h | assumption | apply State.bump_within)

theorem State.aer_within {l : List Area} {s₀ s : State} (h : s₀.Within l s) (p e)
    (hports : Area.ports ∈ l := by assumption) : s₀.Within l (State.aer s p e) := by
  unfold State.aer
  (try dsimp only)
  repeat' (first
    | (with_reducible first
      | exact h | assumption | apply State.WithinMk.of | exact Or.inl rfl | exact Or.inr (by assumption)
      | exact Or.inr ⟨by assumption, id⟩ | apply State.within_ite | apply State.modPort_within)
    | (simp only [State.within_mk]; (try dsimp only)) | split | (dsimp only; split) | (intro; intros))

theorem State.unsupported_within {l : List Area} {s₀ s : State} (h : s₀.Within l s) (src)
    (hports : Area.ports ∈ l := by assumption) (hout : Area.out ∈ l := by assumption) : s₀.Within l
    (State.unsupported s src) := by
  unfold State.unsupported
  (try dsimp only)
  repeat' (first
    | (with_reducible first
      | exact h | assumption | apply State.send_within | apply State.aer_within)
    | split | (dsimp only; split))

theorem State.completerAbort_within {l : List Area} {s₀ s : State} (h : s₀.Within l s) (src)
    (hports : Area.ports ∈ l := by assumption) (hout : Area.out ∈ l := by assumption) : s₀.Within l
    (State.completerAbort s src) := by
  unfold State.completerAbort
  (try dsimp only)
  repeat' (first
    | (with_reducible first
      | exact h | assumption | apply State.send_within | apply State.aer_within)
    | split | (dsimp only; split))

theorem State.gateErr_within {l : List Area} {s₀ s : State} (h : s₀.Within l s) (die b)
    (hregs : Area.regs ∈ l := by assumption) : s₀.Within l (State.gateErr s die b) := by
  unfold State.gateErr
  (try dsimp only)
  repeat' (with_reducible first
      | exact h | assumption | apply State.setReg_within)

theorem State.lwrErr_within {l : List Area} {s₀ s : State} (h : s₀.Within l s) (src off)
    (hregs : Area.regs ∈ l := by assumption) : s₀.Within l (State.lwrErr s src off) := by
  unfold State.lwrErr
  (try dsimp only)
  repeat' (first
    | (with_reducible first
      | exact h | assumption | apply State.setReg_within | apply State.bump_within)
    | split | (dsimp only; split))

theorem State.deny_within {l : List Area} {s₀ s : State} (h : s₀.Within l s) (src r inst elem byte write)
    (hregs : Area.regs ∈ l := by assumption) : s₀.Within l (State.deny s src r inst elem byte write) := by
  unfold State.deny
  (try dsimp only)
  repeat' (first
    | (with_reducible first
      | exact h | assumption | apply State.within_ite | apply State.violation_within | apply State.lwrErr_within)
    | split | (dsimp only; split))

theorem State.writeAs_within {l : List Area} {s₀ s : State} (h : s₀.Within l s) (src r i e act)
    (ha : ∀ t, s₀.Within l t → s₀.Within l (act t)) (hregs : Area.regs ∈ l := by assumption)
    (hports : Area.ports ∈ l := by assumption) (hout : Area.out ∈ l := by assumption) : s₀.Within l
    (State.writeAs s src r i e act) := by
  unfold State.writeAs; split
  · exact h
  · exact State.unsupported_within h _
  · exact State.gateErr_within (State.completerAbort_within h _) _ _
  · exact State.deny_within h _ _ _ _ _ _
  · exact ha _ h

theorem State.msix_within {l : List Area} {s₀ s : State} (h : s₀.Within l s) (p vf vec)
    (hports : Area.ports ∈ l := by assumption) (hout : Area.out ∈ l := by assumption) : s₀.Within l
    (State.msix s p vf vec) := by
  unfold State.msix
  (try dsimp only)
  repeat' (first
    | (with_reducible first
      | exact h | assumption | apply State.within_ite | apply State.modPort_within | apply State.send_within)
    | split | (dsimp only; split) | (intro; intros))

theorem State.portMsix_within {l : List Area} {s₀ s : State} (h : s₀.Within l s) (p vf vec)
    (hports : Area.ports ∈ l := by assumption) (hout : Area.out ∈ l := by assumption) : s₀.Within l
    (State.portMsix s p vf vec) := by
  unfold State.portMsix
  (try dsimp only)
  repeat' (first
    | (with_reducible first
      | exact h | assumption | apply State.WithinMk.of | exact Or.inl rfl | exact Or.inr (by assumption)
      | exact Or.inr ⟨by assumption, id⟩ | apply State.within_ite | apply State.msix_within
      | apply State.modPort_within)
    | (simp only [State.within_mk]; (try dsimp only)) | split | (dsimp only; split) | (intro; intros))

theorem State.ctxVector_within {l : List Area} {s₀ s : State} (h : s₀.Within l s) (x vec cq)
    (hctxs : Area.ctxs ∈ l := by assumption) (hports : Area.ports ∈ l := by assumption)
    (hout : Area.out ∈ l := by assumption) : s₀.Within l (State.ctxVector s x vec cq) := by
  unfold State.ctxVector
  (try dsimp only)
  repeat' (first
    | (with_reducible first
      | exact h | assumption | apply State.WithinMk.of | exact Or.inl rfl | exact Or.inr (by assumption)
      | exact Or.inr ⟨by assumption, id⟩ | apply State.within_ite | apply State.msix_within
      | apply State.modCtx_within)
    | (simp only [State.within_mk]; (try dsimp only)) | split | (dsimp only; split) | (intro; intros))

theorem State.holdMsg_within {l : List Area} {s₀ s : State} (h : s₀.Within l s) (x cq)
    (hctxs : Area.ctxs ∈ l := by assumption) : s₀.Within l (State.holdMsg s x cq) := by
  unfold State.holdMsg
  (try dsimp only)
  repeat' (first
    | (with_reducible first
      | exact h | assumption | apply State.WithinMk.of | exact Or.inl rfl | exact Or.inr (by assumption)
      | exact Or.inr ⟨by assumption, id⟩ | apply State.within_ite | apply State.modCtx_within)
    | (simp only [State.within_mk]; (try dsimp only)) | split | (dsimp only; split) | (intro; intros))

theorem State.evMessage_within {l : List Area} {s₀ s : State} (h : s₀.Within l s) (x)
    (hregs : Area.regs ∈ l := by assumption) (hctxs : Area.ctxs ∈ l := by assumption)
    (hports : Area.ports ∈ l := by assumption) (hout : Area.out ∈ l := by assumption) : s₀.Within l (State.evMessage s x)
    := by
  unfold State.evMessage
  (try dsimp only)
  repeat' (first
    | (with_reducible first
      | exact h | assumption | apply State.within_ite | apply State.setReg_within | apply State.holdMsg_within
      | apply State.ctxVector_within)
    | split | (dsimp only; split))

theorem State.event_within {l : List Area} {s₀ s : State} (h : s₀.Within l s) (f x)
    (hregs : Area.regs ∈ l := by assumption) (hctxs : Area.ctxs ∈ l := by assumption)
    (hports : Area.ports ∈ l := by assumption) (hout : Area.out ∈ l := by assumption) : s₀.Within l (State.event s f x) :=
    by
  unfold State.event
  (try dsimp only)
  repeat' (first
    | (with_reducible first
      | exact h | assumption | apply State.within_ite | apply State.setReg_within | apply State.evMessage_within)
    | split | (dsimp only; split))

theorem State.cqMessage_within {l : List Area} {s₀ s : State} (h : s₀.Within l s) (x)
    (hregs : Area.regs ∈ l := by assumption) (hctxs : Area.ctxs ∈ l := by assumption)
    (hports : Area.ports ∈ l := by assumption) (hout : Area.out ∈ l := by assumption) : s₀.Within l (State.cqMessage s x)
    := by
  unfold State.cqMessage
  (try dsimp only)
  repeat' (first
    | (with_reducible first
      | exact h | assumption | apply State.WithinMk.of | exact Or.inl rfl | exact Or.inr (by assumption)
      | exact Or.inr ⟨by assumption, id⟩ | apply State.within_ite | apply State.event_within
      | apply State.modCtx_within | apply State.holdMsg_within | apply State.ctxVector_within)
    | (simp only [State.within_mk]; (try dsimp only)) | split | (dsimp only; split) | (intro; intros))

theorem State.releaseMsg_within {l : List Area} {s₀ s : State} (h : s₀.Within l s) (x cq)
    (hregs : Area.regs ∈ l := by assumption) (hctxs : Area.ctxs ∈ l := by assumption)
    (hports : Area.ports ∈ l := by assumption) (hout : Area.out ∈ l := by assumption) : s₀.Within l
    (State.releaseMsg s x cq) := by
  unfold State.releaseMsg
  (try dsimp only)
  repeat' (first
    | (with_reducible first
      | exact h | assumption | apply State.within_ite | apply State.event_within | apply State.setReg_within
      | apply State.ctxVector_within)
    | split | (dsimp only; split))

theorem State.releaseMsgs_within {l : List Area} {s₀ s : State} (h : s₀.Within l s) (x)
    (hregs : Area.regs ∈ l := by assumption) (hctxs : Area.ctxs ∈ l := by assumption)
    (hports : Area.ports ∈ l := by assumption) (hout : Area.out ∈ l := by assumption) : s₀.Within l
    (State.releaseMsgs s x) := by
  unfold State.releaseMsgs
  (try dsimp only)
  repeat' (first
    | (with_reducible first
      | exact h | assumption | apply State.WithinMk.of | exact Or.inl rfl | exact Or.inr (by assumption)
      | exact Or.inr ⟨by assumption, id⟩ | apply State.within_ite | apply State.within_foldl
      | apply State.within_foldl_fst | apply State.releaseMsg_within | apply State.modCtx_within)
    | (simp only [State.within_mk]; (try dsimp only)) | split | (dsimp only; split) | (intro; intros))

theorem State.portCut_within {l : List Area} {s₀ s : State} (h : s₀.Within l s) (p)
    (hports : Area.ports ∈ l := by assumption) : s₀.Within l (State.portCut s p) := by
  unfold State.portCut
  (try dsimp only)
  repeat' (first
    | (with_reducible first
      | exact h | assumption | apply State.WithinMk.of | exact Or.inl rfl | exact Or.inr (by assumption)
      | exact Or.inr ⟨by assumption, id⟩ | apply State.within_foldl | apply State.within_foldl_fst
      | apply State.modPort_within)
    | (simp only [State.within_mk]; (try dsimp only)) | (intro; intros)
    | (dsimp only))

theorem State.msgsCut_within {l : List Area} {s₀ s : State} (h : s₀.Within l s) (x)
    (hctxs : Area.ctxs ∈ l := by assumption) : s₀.Within l (State.msgsCut s x) := by
  unfold State.msgsCut
  (try dsimp only)
  repeat' (first
    | (with_reducible first
      | exact h | assumption | apply State.WithinMk.of | exact Or.inl rfl | exact Or.inr (by assumption)
      | exact Or.inr ⟨by assumption, id⟩ | apply State.modCtx_within)
    | (simp only [State.within_mk]; (try dsimp only)) | (intro; intros))

theorem State.hbmState_within {l : List Area} {s₀ s : State} (h : s₀.Within l s) (h' v)
    (hregs : Area.regs ∈ l := by assumption) (hhelm : Area.helm ∈ l := by assumption) : s₀.Within l
    (State.hbmState s h' v) := by
  unfold State.hbmState
  (try dsimp only)
  repeat' (first
    | (with_reducible first
      | exact h | assumption | apply State.within_ite | apply State.setReg_within | apply State.raise_within)
    | split | (dsimp only; split))

theorem State.putBit_within {l : List Area} {s₀ s : State} (h : s₀.Within l s) (f i b v)
    (hregs : Area.regs ∈ l := by assumption) : s₀.Within l (State.putBit s f i b v) := by
  unfold State.putBit
  (try dsimp only)
  repeat' (first
    | (with_reducible first
      | exact h | assumption | apply State.within_ite | apply State.setReg_within)
    | split | (dsimp only; split))

theorem State.clkRefused_within {l : List Area} {s₀ s : State} (h : s₀.Within l s) (die)
    (hregs : Area.regs ∈ l := by assumption) : s₀.Within l (State.clkRefused s die) := by
  unfold State.clkRefused
  (try dsimp only)
  repeat' (with_reducible first
      | exact h | assumption | apply State.bump_within)

theorem State.coast_within {l : List Area} {s₀ s : State} (h : s₀.Within l s) (die l')
    (hregs : Area.regs ∈ l := by assumption) : s₀.Within l (State.coast s die l') := by
  unfold State.coast
  (try dsimp only)
  repeat' (with_reducible first
      | exact h | assumption | apply State.putBit_within)

theorem execClockSourceFail_within {l : List Area} {s₀ s : State} (h : s₀.Within l s) (die clk) (t)
    (ht : execClockSourceFail die clk s = .next t) (hregs : Area.regs ∈ l := by assumption)
    (hhelm : Area.helm ∈ l := by assumption) : s₀.Within l t := by
  unfold execClockSourceFail at ht
  (try dsimp only at ht)
  injection ht with ht
  subst ht
  repeat' (first
    | (with_reducible first
      | exact h | assumption | apply State.within_ite | apply State.within_foldl | apply State.within_foldl_fst
      | apply State.putBit_within | apply State.bump_within | apply State.coast_within | apply State.raise_within)
    | split | (dsimp only; split) | (intro; intros))

theorem execClockSourceReady_within {l : List Area} {s₀ s : State} (h : s₀.Within l s) (die clk) (t)
    (ht : execClockSourceReady die clk s = .next t) (hregs : Area.regs ∈ l := by assumption) : s₀.Within l t := by
  unfold execClockSourceReady at ht
  (try dsimp only at ht)
  injection ht with ht
  subst ht
  repeat' (first
    | (with_reducible first
      | exact h | assumption | apply State.within_ite | apply State.putBit_within)
    | split | (dsimp only; split))

theorem State.relocked_within {l : List Area} {s₀ s : State} (h : s₀.Within l s) (h')
    (hregs : Area.regs ∈ l := by assumption) (hhbmc : Area.hbmc ∈ l := by assumption)
    (hhelm : Area.helm ∈ l := by assumption) : s₀.Within l (State.relocked s h') := by
  unfold State.relocked
  (try dsimp only)
  repeat' (first
    | (with_reducible first
      | exact h | assumption | apply State.WithinMk.of | exact Or.inl rfl | exact Or.inr (by assumption)
      | exact Or.inr ⟨by assumption, id⟩ | apply State.within_ite | apply State.hbmState_within
      | apply State.modStk_within)
    | (simp only [State.within_mk]; (try dsimp only)) | split | (dsimp only; split) | (intro; intros))

theorem execLoopLock_within {l : List Area} {s₀ s : State} (h : s₀.Within l s) (die loop) (t)
    (ht : execLoopLock die loop s = .next t) (hregs : Area.regs ∈ l := by assumption)
    (hhbmc : Area.hbmc ∈ l := by assumption) (hhelm : Area.helm ∈ l := by assumption) : s₀.Within l t := by
  unfold execLoopLock at ht
  (try dsimp only at ht)
  injection ht with ht
  subst ht
  repeat' (first
    | (with_reducible first
      | exact h | assumption | apply State.within_ite | apply State.within_foldl | apply State.within_foldl_fst
      | apply State.putBit_within | apply State.relocked_within)
    | split | (dsimp only; split) | (intro; intros))

theorem State.refSel_within {l : List Area} {s₀ s : State} (h : s₀.Within l s) (die value l')
    (hregs : Area.regs ∈ l := by assumption) : s₀.Within l (State.refSel s die value l') := by
  unfold State.refSel
  (try dsimp only)
  repeat' (first
    | (with_reducible first
      | exact h | assumption | apply State.within_ite | apply State.clkRefused_within | apply State.setReg_within
      | apply State.putBit_within)
    | split | (dsimp only; split))

theorem State.xinMhz_within {l : List Area} {s₀ s : State} (h : s₀.Within l s) (f die v)
    (hregs : Area.regs ∈ l := by assumption) : s₀.Within l (State.xinMhz s f die v) := by
  unfold State.xinMhz
  (try dsimp only)
  repeat' (first
    | (with_reducible first
      | exact h | assumption | apply State.within_ite | apply State.setReg_within)
    | split | (dsimp only; split))

theorem execClkRefSelWrite_within {l : List Area} {s₀ s : State} (h : s₀.Within l s) (src die value) (t)
    (ht : execClkRefSelWrite src die value s = .next t) (hregs : Area.regs ∈ l := by assumption)
    (hports : Area.ports ∈ l := by assumption) (hout : Area.out ∈ l := by assumption) : s₀.Within l t := by
  unfold execClkRefSelWrite at ht
  (try dsimp only at ht)
  injection ht with ht
  subst ht
  repeat' (first
    | (with_reducible first
      | exact h | assumption | apply State.within_foldl | apply State.within_foldl_fst | apply State.writeAs_within
      | apply State.refSel_within | apply State.xinMhz_within)
    | (intro; intros))

theorem State.srcSel_within {l : List Area} {s₀ s : State} (h : s₀.Within l s) (die value d)
    (hregs : Area.regs ∈ l := by assumption) : s₀.Within l (State.srcSel s die value d) := by
  unfold State.srcSel
  (try dsimp only)
  repeat' (first
    | (with_reducible first
      | exact h | assumption | apply State.within_ite | apply State.clkRefused_within | apply State.setReg_within)
    | split | (dsimp only; split))

theorem execClkSrcSelWrite_within {l : List Area} {s₀ s : State} (h : s₀.Within l s) (src die value) (t)
    (ht : execClkSrcSelWrite src die value s = .next t) (hregs : Area.regs ∈ l := by assumption)
    (hports : Area.ports ∈ l := by assumption) (hout : Area.out ∈ l := by assumption) : s₀.Within l t := by
  unfold execClkSrcSelWrite at ht
  (try dsimp only at ht)
  injection ht with ht
  subst ht
  repeat' (first
    | (with_reducible first
      | exact h | assumption | apply State.within_foldl | apply State.within_foldl_fst | apply State.writeAs_within
      | apply State.srcSel_within)
    | (intro; intros))

theorem State.putRail_within {l : List Area} {s₀ s : State} (h : s₀.Within l s) (die mv)
    (hpower : Area.power ∈ l := by assumption) : s₀.Within l (State.putRail s die mv) := by
  unfold State.putRail
  (try dsimp only)
  repeat' (first
    | (with_reducible first
      | exact h | assumption | apply State.WithinMk.of | exact Or.inl rfl | exact Or.inr (by assumption)
      | exact Or.inr ⟨by assumption, id⟩)
    | (simp only [State.within_mk]; (try dsimp only)))

theorem State.fabStart_within {l : List Area} {s₀ s : State} (h : s₀.Within l s) (die new)
    (hregs : Area.regs ∈ l := by assumption) (hpower : Area.power ∈ l := by assumption) : s₀.Within l
    (State.fabStart s die new) := by
  unfold State.fabStart
  (try dsimp only)
  repeat' (first
    | (with_reducible first
      | exact h | assumption | apply State.WithinMk.of | exact Or.inl rfl | exact Or.inr (by assumption)
      | exact Or.inr ⟨by assumption, id⟩ | apply State.within_ite | apply State.within_foldl
      | apply State.within_foldl_fst | apply State.putRail_within | apply State.putBit_within)
    | (simp only [State.within_mk]; (try dsimp only)) | split | (dsimp only; split) | (intro; intros))

theorem State.fabWrite_within {l : List Area} {s₀ s : State} (h : s₀.Within l s) (die value)
    (hregs : Area.regs ∈ l := by assumption) (hpower : Area.power ∈ l := by assumption) : s₀.Within l
    (State.fabWrite s die value) := by
  unfold State.fabWrite
  (try dsimp only)
  repeat' (first
    | (with_reducible first
      | exact h | assumption | apply State.within_ite | apply State.within_foldl | apply State.within_foldl_fst
      | apply State.setReg_within | apply State.fabStart_within)
    | split | (dsimp only; split) | (intro; intros))

theorem execClkFabFreqWrite_within {l : List Area} {s₀ s : State} (h : s₀.Within l s) (src die value) (t)
    (ht : execClkFabFreqWrite src die value s = .next t) (hregs : Area.regs ∈ l := by assumption)
    (hports : Area.ports ∈ l := by assumption) (hpower : Area.power ∈ l := by assumption)
    (hout : Area.out ∈ l := by assumption) : s₀.Within l t := by
  unfold execClkFabFreqWrite at ht
  (try dsimp only at ht)
  injection ht with ht
  subst ht
  repeat' (first
    | (with_reducible first
      | exact h | assumption | apply State.WithinMk.of | exact Or.inl rfl | exact Or.inr (by assumption)
      | exact Or.inr ⟨by assumption, id⟩ | apply State.within_ite | apply State.writeAs_within
      | apply State.lwrErr_within | apply State.fabWrite_within)
    | (simp only [State.within_mk]; (try dsimp only)) | split | (dsimp only; split) | (intro; intros))

theorem State.fabTurn_within {l : List Area} {s₀ s : State} (h : s₀.Within l s) (die p0)
    (hregs : Area.regs ∈ l := by assumption) (hpower : Area.power ∈ l := by assumption) : s₀.Within l
    (State.fabTurn s die p0) := by
  induction p0 generalizing s die with
  | nil =>
    unfold State.fabTurn
    (try dsimp only)
    repeat' (first
      | (with_reducible first
        | exact h | assumption | apply State.WithinMk.of | exact Or.inl rfl | exact Or.inr (by assumption)
        | exact Or.inr ⟨by assumption, id⟩ | apply State.within_ite | apply State.fabWrite_within)
      | (simp only [State.within_mk]; (try dsimp only)) | split | (dsimp only; split))
  | cons x xs ih =>
    unfold State.fabTurn
    (try dsimp only)
    repeat' (first
      | (with_reducible first
        | exact h | assumption | apply ih | apply State.WithinMk.of | exact Or.inl rfl | exact Or.inr (by assumption)
        | exact Or.inr ⟨by assumption, id⟩ | apply State.within_ite | apply State.fabWrite_within)
      | (simp only [State.within_mk]; (try dsimp only)) | split | (dsimp only; split))

theorem execFabFreqSeqDone_within {l : List Area} {s₀ s : State} (h : s₀.Within l s) (die) (t)
    (ht : execFabFreqSeqDone die s = .next t) (hregs : Area.regs ∈ l := by assumption)
    (hpower : Area.power ∈ l := by assumption) : s₀.Within l t := by
  unfold execFabFreqSeqDone at ht
  (try dsimp only at ht)
  injection ht with ht
  subst ht
  repeat' (first
    | (with_reducible first
      | exact h | assumption | apply State.WithinMk.of | exact Or.inl rfl | exact Or.inr (by assumption)
      | exact Or.inr ⟨by assumption, id⟩ | apply State.within_ite | apply State.within_foldl
      | apply State.within_foldl_fst | apply State.putBit_within | apply State.putRail_within
      | apply State.fabTurn_within)
    | (simp only [State.within_mk]; (try dsimp only)) | split | (dsimp only; split) | (intro; intros))

theorem execClkMeasGo_within {l : List Area} {s₀ s : State} (h : s₀.Within l s) (src die value) (t)
    (ht : execClkMeasGo src die value s = .next t) (hregs : Area.regs ∈ l := by assumption)
    (hports : Area.ports ∈ l := by assumption) (hpower : Area.power ∈ l := by assumption)
    (hout : Area.out ∈ l := by assumption) : s₀.Within l t := by
  unfold execClkMeasGo at ht
  (try dsimp only at ht)
  injection ht with ht
  subst ht
  repeat' (first
    | (with_reducible first
      | exact h | assumption | apply State.WithinMk.of | exact Or.inl rfl | exact Or.inr (by assumption)
      | exact Or.inr ⟨by assumption, id⟩ | apply State.within_ite | apply State.writeAs_within
      | apply State.setReg_within)
    | (simp only [State.within_mk]; (try dsimp only)) | split | (dsimp only; split) | (intro; intros))

theorem execClkMeasDone_within {l : List Area} {s₀ s : State} (h : s₀.Within l s) (die edges) (t)
    (ht : execClkMeasDone die edges s = .next t) (hregs : Area.regs ∈ l := by assumption)
    (hpower : Area.power ∈ l := by assumption) : s₀.Within l t := by
  unfold execClkMeasDone at ht
  (try dsimp only at ht)
  injection ht with ht
  subst ht
  repeat' (first
    | (with_reducible first
      | exact h | assumption | apply State.WithinMk.of | exact Or.inl rfl | exact Or.inr (by assumption)
      | exact Or.inr ⟨by assumption, id⟩ | apply State.within_ite | apply State.setReg_within)
    | (simp only [State.within_mk]; (try dsimp only)) | split | (dsimp only; split) | (intro; intros))

theorem execClkOutCtlWrite_within {l : List Area} {s₀ s : State} (h : s₀.Within l s) (src die value) (t)
    (ht : execClkOutCtlWrite src die value s = .next t) (hregs : Area.regs ∈ l := by assumption)
    (hports : Area.ports ∈ l := by assumption) (hout : Area.out ∈ l := by assumption) : s₀.Within l t := by
  unfold execClkOutCtlWrite at ht
  (try dsimp only at ht)
  injection ht with ht
  subst ht
  repeat' (first
    | (with_reducible first
      | exact h | assumption | apply State.within_ite | apply State.within_ite_fst | apply State.writeAs_within
      | apply State.setReg_within)
    | split | (dsimp only; split) | (intro; intros)
    | (dsimp only))

theorem execGatedBlockAccess_within {l : List Area} {s₀ s : State} (h : s₀.Within l s) (src die block) (t)
    (ht : execGatedBlockAccess src die block s = .next t) (hregs : Area.regs ∈ l := by assumption)
    (hports : Area.ports ∈ l := by assumption) (hout : Area.out ∈ l := by assumption) : s₀.Within l t := by
  unfold execGatedBlockAccess at ht
  (try dsimp only at ht)
  injection ht with ht
  subst ht
  repeat' (first
    | (with_reducible first
      | exact h | assumption | apply State.within_ite | apply State.unsupported_within
      | apply State.completerAbort_within | apply State.gateErr_within)
    | split | (dsimp only; split))

theorem State.hbmMemWrite_within {l : List Area} {s₀ s : State} (h : s₀.Within l s) (h' p es) (t)
    (ht : State.hbmMemWrite s h' p es = some t) (hregs : Area.regs ∈ l := by assumption)
    (hnet : Area.net ∈ l := by assumption) (hhbm : Area.hbm ∈ l := by assumption) (hhbmc : Area.hbmc ∈ l := by assumption)
    (hctxs : Area.ctxs ∈ l := by assumption) (hhelm : Area.helm ∈ l := by assumption)
    (hfree : Area.free ∈ l := by assumption) : s₀.Within l t := by
  unfold State.hbmMemWrite at ht
  (try dsimp only at ht)
  (repeat' (split at ht)) <;> (first | (injection ht with ht; subst ht) | (cases ht; done))
  all_goals (repeat' (first
    | (with_reducible first
      | exact h | assumption | apply State.refuse_within | apply State.homeFirst_within | apply State.hbmAccept_within
      | apply State.hbmWrite_within | apply State.accept_within)
    | split | (dsimp only; split) | (intro; intros)))

theorem State.hbmMaskWrite_within {l : List Area} {s₀ s : State} (h : s₀.Within l s) (h' p e) (t)
    (ht : State.hbmMaskWrite s h' p e = some t) (hregs : Area.regs ∈ l := by assumption)
    (hnet : Area.net ∈ l := by assumption) (hhbm : Area.hbm ∈ l := by assumption) (hhbmc : Area.hbmc ∈ l := by assumption)
    (hctxs : Area.ctxs ∈ l := by assumption) (hhelm : Area.helm ∈ l := by assumption)
    (hfree : Area.free ∈ l := by assumption) : s₀.Within l t := by
  unfold State.hbmMaskWrite at ht
  (try dsimp only at ht)
  (repeat' (split at ht)) <;> (first | (injection ht with ht; subst ht) | (cases ht; done))
  all_goals (repeat' (first
    | (with_reducible first
      | exact h | assumption | apply State.within_ite | apply State.refuse_within | apply State.homeFirst_within
      | apply State.hbmAccept_within | apply State.hbmWrite_within | apply State.accept_within)
    | split | (dsimp only; split) | (intro; intros)))

theorem State.hbmMemRead_within {l : List Area} {s₀ s : State} (h : s₀.Within l s) (h' p es) (t)
    (ht : State.hbmMemRead s h' p es = some t) (hregs : Area.regs ∈ l := by assumption)
    (hnet : Area.net ∈ l := by assumption) (hhbmc : Area.hbmc ∈ l := by assumption)
    (hhelm : Area.helm ∈ l := by assumption) (hfree : Area.free ∈ l := by assumption) : s₀.Within l t := by
  unfold State.hbmMemRead at ht
  (try dsimp only at ht)
  (repeat' (split at ht)) <;> (first | (injection ht with ht; subst ht) | (cases ht; done))
  all_goals (repeat' (first
    | (with_reducible first
      | exact h | assumption | apply State.refuse_within | apply State.hbmRead_within | apply State.reply_within
      | apply State.accept_within)
    | split | (dsimp only; split) | (intro; intros)
    | (dsimp only)))

theorem execHbmWriteQueueDrain_within {l : List Area} {s₀ s : State} (h : s₀.Within l s) (stack pc) (t)
    (ht : execHbmWriteQueueDrain stack pc s = .next t) (hregs : Area.regs ∈ l := by assumption)
    (hhbmc : Area.hbmc ∈ l := by assumption) (hfree : Area.free ∈ l := by assumption) : s₀.Within l t := by
  unfold execHbmWriteQueueDrain at ht
  (try dsimp only at ht)
  injection ht with ht
  subst ht
  repeat' (first
    | (with_reducible first
      | exact h | assumption | apply State.within_ite | apply State.drainQueue_within)
    | split | (dsimp only; split) | (intro; intros))

theorem execHbmRefresh_within {l : List Area} {s₀ s : State} (h : s₀.Within l s) (stack pc bank) (t)
    (ht : execHbmRefresh stack pc bank s = .next t) (hhbmc : Area.hbmc ∈ l := by assumption) : s₀.Within l t := by
  unfold execHbmRefresh at ht
  (try dsimp only at ht)
  injection ht with ht
  subst ht
  repeat' (first
    | (with_reducible first
      | exact h | assumption | apply State.WithinMk.of | exact Or.inl rfl | exact Or.inr (by assumption)
      | exact Or.inr ⟨by assumption, id⟩ | apply State.within_ite | apply State.within_ite_fst
      | apply State.modStk_within)
    | (simp only [State.within_mk]; (try dsimp only)) | split | (dsimp only; split) | (intro; intros)
    | (dsimp only))

theorem execHbmNeighbourRefresh_within {l : List Area} {s₀ s : State} (h : s₀.Within l s) (stack pc bank) (t)
    (ht : execHbmNeighbourRefresh stack pc bank s = .next t) (hregs : Area.regs ∈ l := by assumption)
    (hhbmc : Area.hbmc ∈ l := by assumption) : s₀.Within l t := by
  unfold execHbmNeighbourRefresh at ht
  (try dsimp only at ht)
  injection ht with ht
  subst ht
  repeat' (with_reducible first
      | exact h | assumption | apply State.neighbourRefresh_within)

theorem execHbmOpenIdle_within {l : List Area} {s₀ s : State} (h : s₀.Within l s) (stack pc bank) (t)
    (ht : execHbmOpenIdle stack pc bank s = .next t) (hhbmc : Area.hbmc ∈ l := by assumption) : s₀.Within l t := by
  unfold execHbmOpenIdle at ht
  (try dsimp only at ht)
  injection ht with ht
  subst ht
  repeat' (first
    | (with_reducible first
      | exact h | assumption | apply State.modStk_within)
    | (intro; intros))

theorem execHbmScrubRead_within {l : List Area} {s₀ s : State} (h : s₀.Within l s) (stack atom ecc) (t)
    (ht : execHbmScrubRead stack atom ecc s = .next t) (hregs : Area.regs ∈ l := by assumption)
    (hhbmc : Area.hbmc ∈ l := by assumption) (hhelm : Area.helm ∈ l := by assumption)
    (hfree : Area.free ∈ l := by assumption) : s₀.Within l t := by
  unfold execHbmScrubRead at ht
  (try dsimp only at ht)
  injection ht with ht
  subst ht
  repeat' (first
    | (with_reducible first
      | exact h | assumption | apply State.within_ite | apply State.within_ite_fst | apply State.readAtoms_within)
    | split | (dsimp only; split)
    | (dsimp only))

theorem State.stackTemp_within {l : List Area} {s₀ s : State} (h : s₀.Within l s) (h' temp)
    (hregs : Area.regs ∈ l := by assumption) (hhelm : Area.helm ∈ l := by assumption) : s₀.Within l
    (State.stackTemp s h' temp) := by
  unfold State.stackTemp
  (try dsimp only)
  repeat' (first
    | (with_reducible first
      | exact h | assumption | apply State.within_ite | apply State.setReg_within | apply State.raise_within)
    | split | (dsimp only; split))

theorem execHbmHot_within {l : List Area} {s₀ s : State} (h : s₀.Within l s) (stack temp) (t)
    (ht : execHbmHot stack temp s = .next t) (hregs : Area.regs ∈ l := by assumption)
    (hhelm : Area.helm ∈ l := by assumption) : s₀.Within l t := by
  unfold execHbmHot at ht
  (try dsimp only at ht)
  injection ht with ht
  subst ht
  repeat' (first
    | (with_reducible first
      | exact h | assumption | apply State.within_ite | apply State.stackTemp_within)
    | split | (dsimp only; split))

theorem execHbmFreqReq_within {l : List Area} {s₀ s : State} (h : s₀.Within l s) (src stack value) (t)
    (ht : execHbmFreqReq src stack value s = .next t) (hregs : Area.regs ∈ l := by assumption)
    (hports : Area.ports ∈ l := by assumption) (hhelm : Area.helm ∈ l := by assumption)
    (hout : Area.out ∈ l := by assumption) : s₀.Within l t := by
  unfold execHbmFreqReq at ht
  (try dsimp only at ht)
  injection ht with ht
  subst ht
  repeat' (first
    | (with_reducible first
      | exact h | assumption | apply State.within_ite | apply State.writeAs_within | apply State.setReg_within
      | apply State.hbmState_within)
    | split | (dsimp only; split) | (intro; intros))

theorem State.afterChange_within {l : List Area} {s₀ s : State} (h : s₀.Within l s) (h')
    (hregs : Area.regs ∈ l := by assumption) (hhbmc : Area.hbmc ∈ l := by assumption)
    (hhelm : Area.helm ∈ l := by assumption) : s₀.Within l (State.afterChange s h') := by
  unfold State.afterChange
  (try dsimp only)
  repeat' (first
    | (with_reducible first
      | exact h | assumption | apply State.WithinMk.of | exact Or.inl rfl | exact Or.inr (by assumption)
      | exact Or.inr ⟨by assumption, id⟩ | apply State.within_ite | apply State.modStk_within
      | apply State.hbmState_within)
    | (simp only [State.within_mk]; (try dsimp only)) | split | (dsimp only; split) | (intro; intros))

theorem execHbmFreqChangeDone_within {l : List Area} {s₀ s : State} (h : s₀.Within l s) (stack) (t)
    (ht : execHbmFreqChangeDone stack s = .next t) (hregs : Area.regs ∈ l := by assumption)
    (hhbmc : Area.hbmc ∈ l := by assumption) (hhelm : Area.helm ∈ l := by assumption)
    (hfree : Area.free ∈ l := by assumption) : s₀.Within l t := by
  unfold execHbmFreqChangeDone at ht
  (try dsimp only at ht)
  injection ht with ht
  subst ht
  repeat' (first
    | (with_reducible first
      | exact h | assumption | apply State.within_ite | apply State.selfRefresh_within | apply State.setReg_within
      | apply State.bump_within | apply State.afterChange_within)
    | split | (dsimp only; split) | (refine after_within h _ ?_))

theorem execHbmRetrainReq_within {l : List Area} {s₀ s : State} (h : s₀.Within l s) (src stack value) (t)
    (ht : execHbmRetrainReq src stack value s = .next t) (hregs : Area.regs ∈ l := by assumption)
    (hports : Area.ports ∈ l := by assumption) (hhelm : Area.helm ∈ l := by assumption)
    (hout : Area.out ∈ l := by assumption) : s₀.Within l t := by
  unfold execHbmRetrainReq at ht
  (try dsimp only at ht)
  injection ht with ht
  subst ht
  repeat' (first
    | (with_reducible first
      | exact h | assumption | apply State.within_ite | apply State.writeAs_within | apply State.setReg_within
      | apply State.hbmState_within)
    | split | (dsimp only; split) | (intro; intros))

theorem State.interfaceError_within {l : List Area} {s₀ s : State} (h : s₀.Within l s) (h')
    (hregs : Area.regs ∈ l := by assumption) (hhbmc : Area.hbmc ∈ l := by assumption)
    (hhelm : Area.helm ∈ l := by assumption) : s₀.Within l (State.interfaceError s h') := by
  unfold State.interfaceError
  (try dsimp only)
  repeat' (first
    | (with_reducible first
      | exact h | assumption | apply State.WithinMk.of | exact Or.inl rfl | exact Or.inr (by assumption)
      | exact Or.inr ⟨by assumption, id⟩ | apply State.within_ite | apply State.modStk_within
      | apply State.hbmState_within)
    | (simp only [State.within_mk]; (try dsimp only)) | split | (dsimp only; split) | (intro; intros))

theorem execHbmRetrainTrigger_within {l : List Area} {s₀ s : State} (h : s₀.Within l s) (stack cause) (t)
    (ht : execHbmRetrainTrigger stack cause s = .next t) (hregs : Area.regs ∈ l := by assumption)
    (hhbmc : Area.hbmc ∈ l := by assumption) (hhelm : Area.helm ∈ l := by assumption) : s₀.Within l t := by
  unfold execHbmRetrainTrigger at ht
  (try dsimp only at ht)
  injection ht with ht
  subst ht
  repeat' (first
    | (with_reducible first
      | exact h | assumption | apply State.within_ite | apply State.interfaceError_within
      | apply State.stackTemp_within | apply State.hbmState_within)
    | split | (dsimp only; split))

theorem State.markLost_within {l : List Area} {s₀ s : State} (h : s₀.Within l s) (h')
    (hregs : Area.regs ∈ l := by assumption) (hhelm : Area.helm ∈ l := by assumption) : s₀.Within l (State.markLost s h')
    := by
  unfold State.markLost
  (try dsimp only)
  repeat' (with_reducible first
      | exact h | assumption | apply State.setReg_within | apply State.hbmState_within)

theorem State.stackLost_within {l : List Area} {s₀ s : State} (h : s₀.Within l s) (h' cause)
    (hregs : Area.regs ∈ l := by assumption) (hhelm : Area.helm ∈ l := by assumption)
    (hvault : Area.vault ∈ l := by assumption) (hstart : Area.start ∈ l := by assumption) : s₀.Within l
    (State.stackLost s h' cause) := by
  unfold State.stackLost
  (try dsimp only)
  repeat' (with_reducible first
      | exact h | assumption | apply State.markLost_within | apply State.chartNote_within)

theorem State.loadTiming_within {l : List Area} {s₀ s : State} (h : s₀.Within l s) (h' b rate)
    (hregs : Area.regs ∈ l := by assumption) (hfree : Area.free ∈ l := by assumption) : s₀.Within l
    (State.loadTiming s h' b rate) := by
  unfold State.loadTiming
  (try dsimp only)
  repeat' (first
    | (with_reducible first
      | exact h | assumption | apply State.within_ite | apply State.within_foldl | apply State.within_foldl_fst
      | apply State.setReg_within | apply State.drew_within)
    | split | (dsimp only; split) | (intro; intros))

theorem State.newRate_within {l : List Area} {s₀ s : State} (h : s₀.Within l s) (h')
    (hregs : Area.regs ∈ l := by assumption) (hhbmc : Area.hbmc ∈ l := by assumption)
    (hhelm : Area.helm ∈ l := by assumption) (hfree : Area.free ∈ l := by assumption) : s₀.Within l (State.newRate s h')
    := by
  unfold State.newRate
  (try dsimp only)
  repeat' (first
    | (with_reducible first
      | exact h | assumption | apply State.WithinMk.of | exact Or.inl rfl | exact Or.inr (by assumption)
      | exact Or.inr ⟨by assumption, id⟩ | apply State.within_ite | apply State.modStk_within
      | apply State.loadTiming_within | apply State.setReg_within | apply State.hbmState_within)
    | (simp only [State.within_mk]; (try dsimp only)) | split | (dsimp only; split) | (intro; intros))

theorem execHbmRetrainDone_within {l : List Area} {s₀ s : State} (h : s₀.Within l s) (stack ok) (t)
    (ht : execHbmRetrainDone stack ok s = .next t) (hregs : Area.regs ∈ l := by assumption)
    (hhbmc : Area.hbmc ∈ l := by assumption) (hhelm : Area.helm ∈ l := by assumption)
    (hvault : Area.vault ∈ l := by assumption) (hstart : Area.start ∈ l := by assumption)
    (hfree : Area.free ∈ l := by assumption) : s₀.Within l t := by
  unfold execHbmRetrainDone at ht
  (try dsimp only at ht)
  injection ht with ht
  subst ht
  repeat' (first
    | (with_reducible first
      | exact h | assumption | apply State.WithinMk.of | exact Or.inl rfl | exact Or.inr (by assumption)
      | exact Or.inr ⟨by assumption, id⟩ | apply State.within_ite | apply State.selfRefresh_within
      | apply State.setReg_within | apply State.bump_within | apply State.modStk_within | apply State.hbmState_within
      | apply State.newRate_within | apply State.stackLost_within)
    | (simp only [State.within_mk]; (try dsimp only)) | split | (dsimp only; split) | (intro; intros))

theorem State.modFabRegion_within {l : List Area} {s₀ s : State} (h : s₀.Within l s) (die r f)
    (hfab : Area.fab ∈ l := by assumption) : s₀.Within l (State.modFabRegion s die r f) := by
  unfold State.modFabRegion
  (try dsimp only)
  repeat' (first
    | (with_reducible first
      | exact h | assumption | apply State.WithinMk.of | exact Or.inl rfl | exact Or.inr (by assumption)
      | exact Or.inr ⟨by assumption, id⟩)
    | (simp only [State.within_mk]; (try dsimp only)))

theorem State.setSlice_within {l : List Area} {s₀ s : State} (h : s₀.Within l s) (die n k)
    (hfab : Area.fab ∈ l := by assumption) : s₀.Within l (State.setSlice s die n k) := by
  unfold State.setSlice
  (try dsimp only)
  repeat' (first
    | (with_reducible first
      | exact h | assumption | apply State.WithinMk.of | exact Or.inl rfl | exact Or.inr (by assumption)
      | exact Or.inr ⟨by assumption, id⟩)
    | (simp only [State.within_mk]; (try dsimp only)))

theorem State.dspError_within {l : List Area} {s₀ s : State} (h : s₀.Within l s) (die n k)
    (hregs : Area.regs ∈ l := by assumption) (hfab : Area.fab ∈ l := by assumption) : s₀.Within l
    (State.dspError s die n k) := by
  unfold State.dspError
  (try dsimp only)
  repeat' (first
    | (with_reducible first
      | exact h | assumption | apply State.WithinMk.of | exact Or.inl rfl | exact Or.inr (by assumption)
      | exact Or.inr ⟨by assumption, id⟩ | apply State.setSlice_within | apply State.bump_within)
    | (simp only [State.within_mk]; (try dsimp only)))

theorem State.dspIssue_within {l : List Area} {s₀ s : State} (h : s₀.Within l s) (i o io act)
    (ha : ∀ w k t, s₀.Within l t → s₀.Within l (act w k t)) (hregs : Area.regs ∈ l := by assumption)
    (hfab : Area.fab ∈ l := by assumption) : s₀.Within l (State.dspIssue s i o io act) := by
  unfold State.dspIssue; dsimp only
  repeat' (first | exact h | exact State.dspError_within h _ _ _ | exact State.setSlice_within h _ _ _ | exact ha _ _ _ h | split)

theorem State.dspOne_within {l : List Area} {s₀ s : State} (h : s₀.Within l s) (i o io f)
    (hregs : Area.regs ∈ l := by assumption) (hfab : Area.fab ∈ l := by assumption) : s₀.Within l
    (State.dspOne s i o io f) := by
  unfold State.dspOne
  (try dsimp only)
  repeat' (first
    | (with_reducible first
      | exact h | assumption | apply State.WithinMk.of | exact Or.inl rfl | exact Or.inr (by assumption)
      | exact Or.inr ⟨by assumption, id⟩ | apply State.dspIssue_within | apply State.setSlice_within)
    | (simp only [State.within_mk]; (try dsimp only)) | (intro; intros))

theorem execDspNop_within {l : List Area} {s₀ s : State} (h : s₀.Within l s) (i io) (t) (ht : execDspNop i io s = .next t)
    (hregs : Area.regs ∈ l := by assumption) (hfab : Area.fab ∈ l := by assumption) : s₀.Within l t := by
  unfold execDspNop at ht
  (try dsimp only at ht)
  injection ht with ht
  subst ht
  repeat' (first
    | (with_reducible first
      | exact h | assumption | apply State.dspOne_within)
    | (intro; intros))

theorem execDspMac_within {l : List Area} {s₀ s : State} (h : s₀.Within l s) (i io) (t) (ht : execDspMac i io s = .next t)
    (hregs : Area.regs ∈ l := by assumption) (hfab : Area.fab ∈ l := by assumption) : s₀.Within l t := by
  unfold execDspMac at ht
  (try dsimp only at ht)
  injection ht with ht
  subst ht
  repeat' (first
    | (with_reducible first
      | exact h | assumption | apply State.WithinMk.of | exact Or.inl rfl | exact Or.inr (by assumption)
      | exact Or.inr ⟨by assumption, id⟩ | apply State.dspOne_within)
    | (simp only [State.within_mk]; (try dsimp only)) | (intro; intros)
    | (dsimp only))

theorem execDspMov_within {l : List Area} {s₀ s : State} (h : s₀.Within l s) (i io) (t) (ht : execDspMov i io s = .next t)
    (hregs : Area.regs ∈ l := by assumption) (hfab : Area.fab ∈ l := by assumption)
    (hfree : Area.free ∈ l := by assumption) : s₀.Within l t := by
  unfold execDspMov at ht
  (try dsimp only at ht)
  injection ht with ht
  subst ht
  repeat' (first
    | (with_reducible first
      | exact h | assumption | apply State.WithinMk.of | exact Or.inl rfl | exact Or.inr (by assumption)
      | exact Or.inr ⟨by assumption, id⟩ | apply State.dspOne_within | apply State.setReg_within)
    | (simp only [State.within_mk]; (try dsimp only)) | (intro; intros))

theorem execDspOut_within {l : List Area} {s₀ s : State} (h : s₀.Within l s) (i io) (t) (ht : execDspOut i io s = .next t)
    (hregs : Area.regs ∈ l := by assumption) (hfab : Area.fab ∈ l := by assumption) : s₀.Within l t := by
  unfold execDspOut at ht
  (try dsimp only at ht)
  injection ht with ht
  subst ht
  repeat' (first
    | (with_reducible first
      | exact h | assumption | apply State.WithinMk.of | exact Or.inl rfl | exact Or.inr (by assumption)
      | exact Or.inr ⟨by assumption, id⟩ | apply State.dspOne_within)
    | (simp only [State.within_mk]; (try dsimp only)) | (intro; intros)
    | (dsimp only))

theorem execDspSrch_within {l : List Area} {s₀ s : State} (h : s₀.Within l s) (i io) (t)
    (ht : execDspSrch i io s = .next t) (hregs : Area.regs ∈ l := by assumption) (hfab : Area.fab ∈ l := by assumption) :
    s₀.Within l t := by
  unfold execDspSrch at ht
  (try dsimp only at ht)
  injection ht with ht
  subst ht
  repeat' (first
    | (with_reducible first
      | exact h | assumption | apply State.within_ite | apply State.dspOne_within)
    | split | (dsimp only; split) | (intro; intros))

theorem execDspAg_within {l : List Area} {s₀ s : State} (h : s₀.Within l s) (i io) (t) (ht : execDspAg i io s = .next t)
    (hregs : Area.regs ∈ l := by assumption) (hfab : Area.fab ∈ l := by assumption) : s₀.Within l t := by
  unfold execDspAg at ht
  (try dsimp only at ht)
  injection ht with ht
  subst ht
  repeat' (first
    | (with_reducible first
      | exact h | assumption | apply State.dspOne_within)
    | (intro; intros))

theorem execDspAgset_within {l : List Area} {s₀ s : State} (h : s₀.Within l s) (i io) (t)
    (ht : execDspAgset i io s = .next t) (hregs : Area.regs ∈ l := by assumption) (hfab : Area.fab ∈ l := by assumption) :
    s₀.Within l t := by
  unfold execDspAgset at ht
  (try dsimp only at ht)
  injection ht with ht
  subst ht
  repeat' (first
    | (with_reducible first
      | exact h | assumption | apply State.WithinMk.of | exact Or.inl rfl | exact Or.inr (by assumption)
      | exact Or.inr ⟨by assumption, id⟩ | apply State.within_ite | apply State.dspOne_within)
    | (simp only [State.within_mk]; (try dsimp only)) | split | (dsimp only; split) | (intro; intros))

theorem execDspLoop_within {l : List Area} {s₀ s : State} (h : s₀.Within l s) (i io) (t)
    (ht : execDspLoop i io s = .next t) (hregs : Area.regs ∈ l := by assumption) (hfab : Area.fab ∈ l := by assumption) :
    s₀.Within l t := by
  unfold execDspLoop at ht
  (try dsimp only at ht)
  injection ht with ht
  subst ht
  repeat' (first
    | (with_reducible first
      | exact h | assumption | apply State.within_ite | apply State.dspIssue_within | apply State.dspError_within
      | apply State.setSlice_within)
    | split | (dsimp only; split) | (intro; intros))

theorem execDspHalt_within {l : List Area} {s₀ s : State} (h : s₀.Within l s) (i io) (t)
    (ht : execDspHalt i io s = .next t) (hregs : Area.regs ∈ l := by assumption) (hfab : Area.fab ∈ l := by assumption) :
    s₀.Within l t := by
  unfold execDspHalt at ht
  (try dsimp only at ht)
  injection ht with ht
  subst ht
  repeat' (first
    | (with_reducible first
      | exact h | assumption | apply State.WithinMk.of | exact Or.inl rfl | exact Or.inr (by assumption)
      | exact Or.inr ⟨by assumption, id⟩ | apply State.dspIssue_within | apply State.setSlice_within)
    | (simp only [State.within_mk]; (try dsimp only)) | (intro; intros))

theorem execDspRun_within {l : List Area} {s₀ s : State} (h : s₀.Within l s) (i) (t) (ht : execDspRun i s = .next t)
    (hfab : Area.fab ∈ l := by assumption) : s₀.Within l t := by
  unfold execDspRun at ht
  (try dsimp only at ht)
  injection ht with ht
  subst ht
  repeat' (first
    | (with_reducible first
      | exact h | assumption | apply State.WithinMk.of | exact Or.inl rfl | exact Or.inr (by assumption)
      | exact Or.inr ⟨by assumption, id⟩ | apply State.within_ite | apply State.setSlice_within)
    | (simp only [State.within_mk]; (try dsimp only)) | split | (dsimp only; split))

theorem State.bramPut_within {l : List Area} {s₀ s : State} (h : s₀.Within l s) (a b)
    (hfab : Area.fab ∈ l := by assumption) : s₀.Within l (State.bramPut s a b) := by
  unfold State.bramPut
  rw [State.within_mk]
  apply State.WithinMk.of h <;> first | exact Or.inl rfl | exact Or.inr ⟨by assumption, memPut_wf _ _ _⟩

theorem State.bramShow_within {l : List Area} {s₀ s : State} (h : s₀.Within l s) (key x ue)
    (hfab : Area.fab ∈ l := by assumption) : s₀.Within l (State.bramShow s key x ue) := by
  unfold State.bramShow
  (try dsimp only)
  repeat' (first
    | (with_reducible first
      | exact h | assumption | apply State.WithinMk.of | exact Or.inl rfl | exact Or.inr (by assumption)
      | exact Or.inr ⟨by assumption, id⟩)
    | (simp only [State.within_mk]; (try dsimp only)))

theorem State.bramRead_within {l : List Area} {s₀ s : State} (h : s₀.Within l s) (die key a e)
    (hregs : Area.regs ∈ l := by assumption) (hfab : Area.fab ∈ l := by assumption)
    (hfree : Area.free ∈ l := by assumption) : s₀.Within l (State.bramRead s die key a e) := by
  unfold State.bramRead
  (try dsimp only)
  repeat' (first
    | (with_reducible first
      | exact h | assumption | apply State.bramShow_within | apply State.bump_within | apply State.drew_within)
    | split | (dsimp only; split))

theorem State.bramWrite_within {l : List Area} {s₀ s : State} (h : s₀.Within l s) (die a be new e)
    (hregs : Area.regs ∈ l := by assumption) (hfab : Area.fab ∈ l := by assumption) : s₀.Within l
    (State.bramWrite s die a be new e) := by
  unfold State.bramWrite
  (try dsimp only)
  repeat' (first
    | (with_reducible first
      | exact h | assumption | apply State.within_ite | apply State.bramPut_within | apply State.bump_within)
    | split | (dsimp only; split) | (intro; intros))

theorem State.bramBoth_within {l : List Area} {s₀ s : State} (h : s₀.Within l s) (die r key a be new e)
    (hregs : Area.regs ∈ l := by assumption) (hfab : Area.fab ∈ l := by assumption)
    (hfree : Area.free ∈ l := by assumption) : s₀.Within l (State.bramBoth s die r key a be new e) := by
  unfold State.bramBoth
  (try dsimp only)
  repeat' (first
    | (with_reducible first
      | exact h | assumption | apply State.within_ite | apply State.bramWrite_within | apply State.bramRead_within)
    | split | (dsimp only; split))

theorem State.bramQuiet_within {l : List Area} {s₀ s : State} (h : s₀.Within l s) (key)
    (hfab : Area.fab ∈ l := by assumption) : s₀.Within l (State.bramQuiet s key) := by
  unfold State.bramQuiet
  (try dsimp only)
  repeat' (first
    | (with_reducible first
      | exact h | assumption | apply State.bramShow_within)
    | (dsimp only))

theorem State.bramNarrow_within {l : List Area} {s₀ s : State} (h : s₀.Within l s) (key o w)
    (hfab : Area.fab ∈ l := by assumption) : s₀.Within l (State.bramNarrow s key o w) := by
  unfold State.bramNarrow
  (try dsimp only)
  repeat' (first
    | (with_reducible first
      | exact h | assumption | apply State.bramShow_within)
    | (dsimp only))

theorem execBramPortAccess_within {l : List Area} {s₀ s : State} (h : s₀.Within l s) (die block portB acc ecc) (t)
    (ht : execBramPortAccess die block portB acc ecc s = .next t) (hregs : Area.regs ∈ l := by assumption)
    (hfab : Area.fab ∈ l := by assumption) (hfree : Area.free ∈ l := by assumption) : s₀.Within l t := by
  unfold execBramPortAccess at ht
  (try dsimp only at ht)
  injection ht with ht
  subst ht
  repeat' (first
    | (with_reducible first
      | exact h | assumption | apply State.within_ite | apply State.bramBoth_within | apply State.bramNarrow_within
      | apply State.bramWrite_within | apply State.bramQuiet_within | apply State.bramRead_within)
    | split | (dsimp only; split))

theorem State.bramMemWrite_within {l : List Area} {s₀ s : State} (h : s₀.Within l s) (h' p)
    (hregs : Area.regs ∈ l := by assumption) (hnet : Area.net ∈ l := by assumption) (hfab : Area.fab ∈ l := by assumption)
    : s₀.Within l (State.bramMemWrite s h' p) := by
  unfold State.bramMemWrite
  (try dsimp only)
  repeat' (first
    | (with_reducible first
      | exact h | assumption | apply State.within_ite | apply State.refuse_within | apply State.bramPut_within
      | apply State.accept_within)
    | split | (dsimp only; split) | (intro; intros))

theorem State.bramSeen_within {l : List Area} {s₀ s : State} (h : s₀.Within l s) (die p0 p1)
    (hregs : Area.regs ∈ l := by assumption) : s₀.Within l (State.bramSeen s die p0 p1).1 := by
  induction p0 generalizing s die p1 with
  | zero =>
    unfold State.bramSeen
    (try dsimp only)
    repeat' (first
      | (with_reducible first
        | exact h | assumption | apply State.within_ite_fst | apply State.bump_within)
      | split | (dsimp only; split)
      | (dsimp only))
  | succ n ih =>
    unfold State.bramSeen
    (try dsimp only)
    repeat' (first
      | (with_reducible first
        | exact h | assumption | apply ih | apply State.within_ite_fst | apply State.bump_within)
      | split | (dsimp only; split)
      | (dsimp only))

theorem State.bramMemRead_within {l : List Area} {s₀ s : State} (h : s₀.Within l s) (h' p es)
    (hregs : Area.regs ∈ l := by assumption) (hnet : Area.net ∈ l := by assumption) : s₀.Within l
    (State.bramMemRead s h' p es) := by
  unfold State.bramMemRead
  (try dsimp only)
  repeat' (first
    | (with_reducible first
      | exact h | assumption | apply State.within_ite | apply State.within_ite_fst | apply State.refuse_within
      | apply State.bramSeen_within | apply State.reply_within | apply State.accept_within)
    | split | (dsimp only; split) | (intro; intros)
    | (dsimp only))

theorem State.bramMaskWords_within {l : List Area} {s₀ s : State} (h : s₀.Within l s) (die a new p0 p1)
    (hregs : Area.regs ∈ l := by assumption) (hfab : Area.fab ∈ l := by assumption) : s₀.Within l
    (State.bramMaskWords s die a new p0 p1) := by
  induction p0 generalizing s die a new p1 with
  | nil =>
    unfold State.bramMaskWords
    (try dsimp only)
    repeat' (first
      | (with_reducible first
        | exact h | assumption | apply State.within_ite | apply State.bramWrite_within)
      | split | (dsimp only; split))
  | cons x xs ih =>
    unfold State.bramMaskWords
    (try dsimp only)
    repeat' (first
      | (with_reducible first
        | exact h | assumption | apply ih | apply State.within_ite | apply State.bramWrite_within)
      | split | (dsimp only; split))

theorem State.bramMaskWrite_within {l : List Area} {s₀ s : State} (h : s₀.Within l s) (h' p es)
    (hregs : Area.regs ∈ l := by assumption) (hnet : Area.net ∈ l := by assumption) (hfab : Area.fab ∈ l := by assumption)
    : s₀.Within l (State.bramMaskWrite s h' p es) := by
  unfold State.bramMaskWrite
  (try dsimp only)
  repeat' (first
    | (with_reducible first
      | exact h | assumption | apply State.within_ite | apply State.refuse_within | apply State.bramMaskWords_within
      | apply State.accept_within)
    | split | (dsimp only; split) | (intro; intros))

theorem State.modTile_within {l : List Area} {s₀ s : State} (h : s₀.Within l s) (d t' f)
    (hfab : Area.fab ∈ l := by assumption) : s₀.Within l (State.modTile s d t' f) := by
  unfold State.modTile
  (try dsimp only)
  repeat' (first
    | (with_reducible first
      | exact h | assumption | apply State.WithinMk.of | exact Or.inl rfl | exact Or.inr (by assumption)
      | exact Or.inr ⟨by assumption, id⟩)
    | (simp only [State.within_mk]; (try dsimp only)))

theorem State.txDiscard_within {l : List Area} {s₀ s : State} (h : s₀.Within l s) (d t' f)
    (hregs : Area.regs ∈ l := by assumption) (hout : Area.out ∈ l := by assumption) : s₀.Within l
    (State.txDiscard s d t' f) := by
  unfold State.txDiscard
  (try dsimp only)
  repeat' (with_reducible first
      | exact h | assumption | apply State.bump_within | apply State.send_within)

theorem State.txRead_within {l : List Area} {s₀ s : State} (h : s₀.Within l s) (d t' p)
    (hnet : Area.net ∈ l := by assumption) (hfab : Area.fab ∈ l := by assumption) : s₀.Within l (State.txRead s d t' p) :=
    by
  unfold State.txRead
  (try dsimp only)
  repeat' (first
    | (with_reducible first
      | exact h | assumption | apply State.WithinMk.of | exact Or.inl rfl | exact Or.inr (by assumption)
      | exact Or.inr ⟨by assumption, id⟩ | apply State.modTile_within | apply State.inject_within)
    | (simp only [State.within_mk]; (try dsimp only)) | (intro; intros))

theorem State.txTake_within {l : List Area} {s₀ s : State} (h : s₀.Within l s) (d t' p)
    (hregs : Area.regs ∈ l := by assumption) (hnet : Area.net ∈ l := by assumption) (hfab : Area.fab ∈ l := by assumption)
    (hout : Area.out ∈ l := by assumption) : s₀.Within l (State.txTake s d t' p) := by
  unfold State.txTake
  (try dsimp only)
  repeat' (first
    | (with_reducible first
      | exact h | assumption | apply State.WithinMk.of | exact Or.inl rfl | exact Or.inr (by assumption)
      | exact Or.inr ⟨by assumption, id⟩ | apply State.within_ite | apply State.txDiscard_within
      | apply State.modTile_within | apply State.reply_within | apply State.inject_within)
    | (simp only [State.within_mk]; (try dsimp only)) | split | (dsimp only; split) | (intro; intros))

theorem State.txHead_within {l : List Area} {s₀ s : State} (h : s₀.Within l s) (d t' now) (t)
    (ht : State.txHead s d t' now = some t) (hregs : Area.regs ∈ l := by assumption)
    (hnet : Area.net ∈ l := by assumption) (hfab : Area.fab ∈ l := by assumption) (hout : Area.out ∈ l := by assumption) :
    s₀.Within l t := by
  unfold State.txHead at ht
  (try dsimp only at ht)
  (repeat' (split at ht)) <;> (first | (injection ht with ht; subst ht) | (cases ht; done))
  all_goals (repeat' (first
    | (with_reducible first
      | exact h | assumption | apply State.WithinMk.of | exact Or.inl rfl | exact Or.inr (by assumption)
      | exact Or.inr ⟨by assumption, id⟩ | apply State.within_ite | apply State.modTile_within
      | apply State.txDiscard_within | apply State.txRead_within | apply State.txTake_within)
    | (simp only [State.within_mk]; (try dsimp only)) | split | (dsimp only; split) | (intro; intros)))

theorem State.txGo_within {l : List Area} {s₀ s : State} (h : s₀.Within l s) (d t' now n)
    (hregs : Area.regs ∈ l := by assumption) (hnet : Area.net ∈ l := by assumption) (hfab : Area.fab ∈ l := by assumption)
    (hout : Area.out ∈ l := by assumption) : s₀.Within l (State.txGo s d t' now n) := by
  induction n generalizing s with
  | zero => exact h
  | succ n ih =>
    unfold State.txGo; split
    · exact h
    · rename_i u hu; exact ih (State.txHead_within h _ _ _ _ hu)

theorem State.txRun_within {l : List Area} {s₀ s : State} (h : s₀.Within l s) (d t')
    (hregs : Area.regs ∈ l := by assumption) (hnet : Area.net ∈ l := by assumption) (hfab : Area.fab ∈ l := by assumption)
    (hout : Area.out ∈ l := by assumption) : s₀.Within l (State.txRun s d t') := by
  unfold State.txRun
  (try dsimp only)
  repeat' (first
    | (with_reducible first
      | exact h | assumption | apply State.txGo_within)
    | (intro; intros))

theorem State.txOffer_within {l : List Area} {s₀ s : State} (h : s₀.Within l s) (d t' p0)
    (hregs : Area.regs ∈ l := by assumption) (hnet : Area.net ∈ l := by assumption) (hfab : Area.fab ∈ l := by assumption)
    (hout : Area.out ∈ l := by assumption) : s₀.Within l (State.txOffer s d t' p0) := by
  induction p0 generalizing s d t' with
  | nil =>
    unfold State.txOffer
    (try dsimp only)
    repeat' (first
      | (with_reducible first
        | exact h | assumption | apply State.WithinMk.of | exact Or.inl rfl | exact Or.inr (by assumption)
        | exact Or.inr ⟨by assumption, id⟩ | apply State.within_ite | apply State.modTile_within
        | apply State.txRun_within)
      | (simp only [State.within_mk]; (try dsimp only)) | split | (dsimp only; split) | (intro; intros))
  | cons x xs ih =>
    unfold State.txOffer
    (try dsimp only)
    repeat' (first
      | (with_reducible first
        | exact h | assumption | apply ih | apply State.WithinMk.of | exact Or.inl rfl | exact Or.inr (by assumption)
        | exact Or.inr ⟨by assumption, id⟩ | apply State.within_ite | apply State.modTile_within
        | apply State.txRun_within)
      | (simp only [State.within_mk]; (try dsimp only)) | split | (dsimp only; split) | (intro; intros))

theorem execTileTxPacket_within {l : List Area} {s₀ s : State} (h : s₀.Within l s) (die tp first rest) (t)
    (ht : execTileTxPacket die tp first rest s = .next t) (hregs : Area.regs ∈ l := by assumption)
    (hnet : Area.net ∈ l := by assumption) (hfab : Area.fab ∈ l := by assumption) (hout : Area.out ∈ l := by assumption) :
    s₀.Within l t := by
  unfold execTileTxPacket at ht
  (try dsimp only at ht)
  injection ht with ht
  subst ht
  repeat' (first
    | (with_reducible first
      | exact h | assumption | apply State.within_ite | apply State.txOffer_within)
    | split | (dsimp only; split))

theorem State.tileRefuse_within {l : List Area} {s₀ s : State} (h : s₀.Within l s) (d t' p)
    (hregs : Area.regs ∈ l := by assumption) (hnet : Area.net ∈ l := by assumption) (hfab : Area.fab ∈ l := by assumption)
    (hout : Area.out ∈ l := by assumption) : s₀.Within l (State.tileRefuse s d t' p) := by
  unfold State.tileRefuse
  (try dsimp only)
  repeat' (first
    | (with_reducible first
      | exact h | assumption | apply State.within_ite | apply State.modTile_within | apply State.refuse_within
      | apply State.txRun_within)
    | split | (dsimp only; split) | (intro; intros))

theorem State.tileTake_within {l : List Area} {s₀ s : State} (h : s₀.Within l s) (d t' p) (t)
    (ht : State.tileTake s d t' p = some t) (hregs : Area.regs ∈ l := by assumption)
    (hnet : Area.net ∈ l := by assumption) (hfab : Area.fab ∈ l := by assumption) (hout : Area.out ∈ l := by assumption) :
    s₀.Within l t := by
  unfold State.tileTake at ht
  (try dsimp only at ht)
  (repeat' (split at ht)) <;> (first | (injection ht with ht; subst ht) | (cases ht; done))
  all_goals (repeat' (first
    | (with_reducible first
      | exact h | assumption | apply State.WithinMk.of | exact Or.inl rfl | exact Or.inr (by assumption)
      | exact Or.inr ⟨by assumption, id⟩ | apply State.within_ite | apply State.tileRefuse_within
      | apply State.modTile_within | apply State.accept_within | apply State.refuse_within | apply State.txRun_within)
    | (simp only [State.within_mk]; (try dsimp only)) | split | (dsimp only; split) | (intro; intros)))

theorem State.tileArrival_within {l : List Area} {s₀ s : State} (h : s₀.Within l s) (d t p)
    (hregs : Area.regs ∈ l := by assumption) (hnet : Area.net ∈ l := by assumption) (hfab : Area.fab ∈ l := by assumption)
    (hout : Area.out ∈ l := by assumption) : s₀.Within l (State.tileArrival s d t p) := by
  unfold State.tileArrival; dsimp only; split
  · split
    · rename_i s' hs; exact State.arrive_within (State.tileTake_within h _ _ _ _ hs) _ _
    · exact h
  · exact h

theorem execTileRxDelivery_within {l : List Area} {s₀ s : State} (h : s₀.Within l s) (die tp p) (t)
    (ht : execTileRxDelivery die tp p s = .next t) (hregs : Area.regs ∈ l := by assumption)
    (hnet : Area.net ∈ l := by assumption) (hfab : Area.fab ∈ l := by assumption) (hout : Area.out ∈ l := by assumption) :
    s₀.Within l t := by
  unfold execTileRxDelivery at ht
  (try dsimp only at ht)
  injection ht with ht
  subst ht
  repeat' (first
    | (with_reducible first
      | exact h | assumption | apply State.tileArrival_within)
    | (intro; intros))

theorem execRxEntryTaken_within {l : List Area} {s₀ s : State} (h : s₀.Within l s) (die tp rsp) (t)
    (ht : execRxEntryTaken die tp rsp s = .next t) (hregs : Area.regs ∈ l := by assumption)
    (hnet : Area.net ∈ l := by assumption) (hfab : Area.fab ∈ l := by assumption) (hout : Area.out ∈ l := by assumption) :
    s₀.Within l t := by
  unfold execRxEntryTaken at ht
  (try dsimp only at ht)
  injection ht with ht
  subst ht
  repeat' (first
    | (with_reducible first
      | exact h | assumption | apply State.WithinMk.of | exact Or.inl rfl | exact Or.inr (by assumption)
      | exact Or.inr ⟨by assumption, id⟩ | apply State.within_ite | apply State.modTile_within
      | apply State.txRun_within)
    | (simp only [State.within_mk]; (try dsimp only)) | split | (dsimp only; split) | (intro; intros))

theorem State.tileNack_within {l : List Area} {s₀ s : State} (h : s₀.Within l s) (d t' r)
    (hnet : Area.net ∈ l := by assumption) (hfab : Area.fab ∈ l := by assumption) : s₀.Within l (State.tileNack s d t' r)
    := by
  unfold State.tileNack
  (try dsimp only)
  repeat' (first
    | (with_reducible first
      | exact h | assumption | apply State.WithinMk.of | exact Or.inl rfl | exact Or.inr (by assumption)
      | exact Or.inr ⟨by assumption, id⟩ | apply State.modTile_within | apply State.reply_within)
    | (simp only [State.within_mk]; (try dsimp only)) | (intro; intros))

theorem execTileReadTimeout_within {l : List Area} {s₀ s : State} (h : s₀.Within l s) (die tp tag) (t)
    (ht : execTileReadTimeout die tp tag s = .next t) (hregs : Area.regs ∈ l := by assumption)
    (hnet : Area.net ∈ l := by assumption) (hfab : Area.fab ∈ l := by assumption) : s₀.Within l t := by
  unfold execTileReadTimeout at ht
  (try dsimp only at ht)
  injection ht with ht
  subst ht
  repeat' (first
    | (with_reducible first
      | exact h | assumption | apply State.tileNack_within | apply State.bump_within)
    | split | (dsimp only; split) | (intro; intros))

theorem execTlyClr_within {l : List Area} {s₀ s : State} (h : s₀.Within l s) (die tp) (t)
    (ht : execTlyClr die tp s = .next t) (hfab : Area.fab ∈ l := by assumption) : s₀.Within l t := by
  unfold execTlyClr at ht
  (try dsimp only at ht)
  injection ht with ht
  subst ht
  repeat' (first
    | (with_reducible first
      | exact h | assumption | apply State.WithinMk.of | exact Or.inl rfl | exact Or.inr (by assumption)
      | exact Or.inr ⟨by assumption, id⟩ | apply State.within_ite | apply State.modTile_within)
    | (simp only [State.within_mk]; (try dsimp only)) | split | (dsimp only; split) | (intro; intros))

theorem State.modSal_within {l : List Area} {s₀ s : State} (h : s₀.Within l s) (die p f)
    (hsal : Area.sal ∈ l := by assumption) : s₀.Within l (State.modSal s die p f) := by
  unfold State.modSal
  (try dsimp only)
  repeat' (first
    | (with_reducible first
      | exact h | assumption | apply State.WithinMk.of | exact Or.inl rfl | exact Or.inr (by assumption)
      | exact Or.inr ⟨by assumption, id⟩)
    | (simp only [State.within_mk]; (try dsimp only)))

theorem execRawBlockReceive_within {l : List Area} {s₀ s : State} (h : s₀.Within l s) (die lane block bad) (t)
    (ht : execRawBlockReceive die lane block bad s = .next t) (hregs : Area.regs ∈ l := by assumption)
    (hfab : Area.fab ∈ l := by assumption) : s₀.Within l t := by
  unfold execRawBlockReceive at ht
  (try dsimp only at ht)
  injection ht with ht
  subst ht
  repeat' (first
    | (with_reducible first
      | exact h | assumption | apply State.WithinMk.of | exact Or.inl rfl | exact Or.inr (by assumption)
      | exact Or.inr ⟨by assumption, id⟩ | apply State.within_ite | apply State.bump_within)
    | (simp only [State.within_mk]; (try dsimp only)) | split | (dsimp only; split))

theorem execRawBlockTransmit_within {l : List Area} {s₀ s : State} (h : s₀.Within l s) (die lane block) (t)
    (ht : execRawBlockTransmit die lane block s = .next t) (hregs : Area.regs ∈ l := by assumption)
    (hout : Area.out ∈ l := by assumption) : s₀.Within l t := by
  unfold execRawBlockTransmit at ht
  (try dsimp only at ht)
  injection ht with ht
  subst ht
  repeat' (first
    | (with_reducible first
      | exact h | assumption | apply State.within_ite | apply State.send_within | apply State.bump_within)
    | split | (dsimp only; split))

theorem State.gpioClear_within {l : List Area} {s₀ s : State} (h : s₀.Within l s) (die mask)
    (hregs : Area.regs ∈ l := by assumption) (hfab : Area.fab ∈ l := by assumption) : s₀.Within l
    (State.gpioClear s die mask) := by
  unfold State.gpioClear
  (try dsimp only)
  repeat' (first
    | (with_reducible first
      | exact h | assumption | apply State.WithinMk.of | exact Or.inl rfl | exact Or.inr (by assumption)
      | exact Or.inr ⟨by assumption, id⟩ | apply State.setReg_within)
    | (simp only [State.within_mk]; (try dsimp only)) | (intro; intros))

theorem execGpioShortClear_within {l : List Area} {s₀ s : State} (h : s₀.Within l s) (src die mask) (t)
    (ht : execGpioShortClear src die mask s = .next t) (hregs : Area.regs ∈ l := by assumption)
    (hports : Area.ports ∈ l := by assumption) (hfab : Area.fab ∈ l := by assumption)
    (hout : Area.out ∈ l := by assumption) : s₀.Within l t := by
  unfold execGpioShortClear at ht
  (try dsimp only at ht)
  injection ht with ht
  subst ht
  repeat' (first
    | (with_reducible first
      | exact h | assumption | apply State.writeAs_within | apply State.gpioClear_within)
    | (intro; intros))

theorem execFabricIrq_within {l : List Area} {s₀ s : State} (h : s₀.Within l s) (die region num) (t)
    (ht : execFabricIrq die region num s = .next t) (hregs : Area.regs ∈ l := by assumption)
    (hhelm : Area.helm ∈ l := by assumption) : s₀.Within l t := by
  unfold execFabricIrq at ht
  (try dsimp only at ht)
  injection ht with ht
  subst ht
  repeat' (first
    | (with_reducible first
      | exact h | assumption | apply State.within_ite | apply State.raise_within)
    | split | (dsimp only; split))

theorem State.started_within {l : List Area} {s₀ s : State} (h : s₀.Within l s) (k ready c)
    (hnet : Area.net ∈ l := by assumption) : s₀.Within l (State.started s k ready c) := by
  unfold State.started
  (try dsimp only)
  repeat' (first
    | (with_reducible first
      | exact h | assumption | apply State.WithinMk.of | exact Or.inl rfl | exact Or.inr (by assumption)
      | exact Or.inr ⟨by assumption, id⟩ | apply State.within_ite)
    | (simp only [State.within_mk]; (try dsimp only)) | split | (dsimp only; split) | (intro; intros))

theorem State.unfly_within {l : List Area} {s₀ s : State} (h : s₀.Within l s) (i) (hnet : Area.net ∈ l := by assumption) :
    s₀.Within l (State.unfly s i) := by
  unfold State.unfly
  (try dsimp only)
  repeat' (first
    | (with_reducible first
      | exact h | assumption | apply State.WithinMk.of | exact Or.inl rfl | exact Or.inr (by assumption)
      | exact Or.inr ⟨by assumption, id⟩)
    | (simp only [State.within_mk]; (try dsimp only)))

theorem State.modSlot_within {l : List Area} {s₀ s : State} (h : s₀.Within l s) (j f)
    (hnet : Area.net ∈ l := by assumption) : s₀.Within l (State.modSlot s j f) := by
  unfold State.modSlot
  (try dsimp only)
  repeat' (first
    | (with_reducible first
      | exact h | assumption | apply State.WithinMk.of | exact Or.inl rfl | exact Or.inr (by assumption)
      | exact Or.inr ⟨by assumption, id⟩)
    | (simp only [State.within_mk]; (try dsimp only)))

theorem State.tallySlot_within {l : List Area} {s₀ s : State} (h : s₀.Within l s) (i n idx comb p l')
    (hnet : Area.net ∈ l := by assumption) : s₀.Within l (State.tallySlot s i n idx comb p l') := by
  unfold State.tallySlot
  (try dsimp only)
  repeat' (first
    | (with_reducible first
      | exact h | assumption | apply State.WithinMk.of | exact Or.inl rfl | exact Or.inr (by assumption)
      | exact Or.inr ⟨by assumption, id⟩ | apply State.within_ite | apply State.unfly_within
      | apply State.modSlot_within)
    | (simp only [State.within_mk]; (try dsimp only)) | split | (dsimp only; split) | (intro; intros))

theorem State.sendCopies_within {l : List Area} {s₀ s : State} (h : s₀.Within l s) (i n idx l')
    (hnet : Area.net ∈ l := by assumption) : s₀.Within l (State.sendCopies s i n idx l') := by
  unfold State.sendCopies
  (try dsimp only)
  repeat' (first
    | (with_reducible first
      | exact h | assumption | apply State.WithinMk.of | exact Or.inl rfl | exact Or.inr (by assumption)
      | exact Or.inr ⟨by assumption, id⟩ | apply State.within_ite | apply State.within_ite_fst
      | apply State.within_foldl | apply State.within_foldl_fst | apply State.started_within
      | apply State.unfly_within | apply State.fly_within)
    | (simp only [State.within_mk]; (try dsimp only)) | split | (dsimp only; split) | (intro; intros)
    | (dsimp only))

theorem State.advance_within {l : List Area} {s₀ s : State} (h : s₀.Within l s) (i f n idx)
    (hregs : Area.regs ∈ l := by assumption) (hnet : Area.net ∈ l := by assumption) : s₀.Within l
    (State.advance s i f n idx) := by
  unfold State.advance
  (try dsimp only)
  repeat' (first
    | (with_reducible first
      | exact h | assumption | apply State.refuse_within | apply State.unfly_within | apply State.tallySlot_within
      | apply State.sendCopies_within)
    | split | (dsimp only; split)
    | (dsimp only))

theorem State.startOut_within {l : List Area} {s₀ s : State} (h : s₀.Within l s) (i e f)
    (hnet : Area.net ∈ l := by assumption) : s₀.Within l (State.startOut s i e f) := by
  unfold State.startOut
  (try dsimp only)
  repeat' (first
    | (with_reducible first
      | exact h | assumption | apply State.within_ite | apply State.started_within | apply State.unfly_within
      | apply State.fly_within)
    | split | (dsimp only; split) | (intro; intros))

theorem State.afterOut_within {l : List Area} {s₀ s : State} (h : s₀.Within l s) (e)
    (hregs : Area.regs ∈ l := by assumption) (hnet : Area.net ∈ l := by assumption) (hfab : Area.fab ∈ l := by assumption)
    (hout : Area.out ∈ l := by assumption) : s₀.Within l (State.afterOut s e) := by
  unfold State.afterOut
  (try dsimp only)
  repeat' (first
    | (with_reducible first
      | exact h | assumption | apply State.txRun_within)
    | split | (dsimp only; split))

theorem execRouterForward_within {l : List Area} {s₀ s : State} (h : s₀.Within l s) (i) (t)
    (ht : execRouterForward i s = .next t) (hregs : Area.regs ∈ l := by assumption) (hnet : Area.net ∈ l := by assumption)
    (hfab : Area.fab ∈ l := by assumption) (hout : Area.out ∈ l := by assumption) : s₀.Within l t := by
  unfold execRouterForward at ht
  (try dsimp only at ht)
  injection ht with ht
  subst ht
  repeat' (first
    | (with_reducible first
      | exact h | assumption | apply State.within_ite | apply State.startOut_within | apply State.afterOut_within
      | apply State.advance_within)
    | split | (dsimp only; split) | (refine after_within h _ ?_))

theorem execTallyHoldExpire_within {l : List Area} {s₀ s : State} (h : s₀.Within l s) (i) (t)
    (ht : execTallyHoldExpire i s = .next t) (hregs : Area.regs ∈ l := by assumption)
    (hnet : Area.net ∈ l := by assumption) : s₀.Within l t := by
  unfold execTallyHoldExpire at ht
  (try dsimp only at ht)
  injection ht with ht
  subst ht
  repeat' (first
    | (with_reducible first
      | exact h | assumption | apply State.WithinMk.of | exact Or.inl rfl | exact Or.inr (by assumption)
      | exact Or.inr ⟨by assumption, id⟩ | apply State.within_ite | apply State.within_ite_fst
      | apply State.refuse_within | apply State.modSlot_within | apply State.started_within)
    | (simp only [State.within_mk]; (try dsimp only)) | split | (dsimp only; split) | (intro; intros)
    | (dsimp only))

theorem execCoreSleep_within {l : List Area} {s₀ s : State} (h : s₀.Within l s) (c) (t) (ht : execCoreSleep c s = .next t)
    (hcores : Area.cores ∈ l := by assumption) : s₀.Within l t := by
  unfold execCoreSleep at ht
  (try dsimp only at ht)
  injection ht with ht
  subst ht
  repeat' (first
    | (with_reducible first
      | exact h | assumption | apply State.WithinMk.of | exact Or.inl rfl | exact Or.inr (by assumption)
      | exact Or.inr ⟨by assumption, id⟩ | apply State.within_ite | apply State.modCore_within)
    | (simp only [State.within_mk]; (try dsimp only)) | split | (dsimp only; split) | (intro; intros))

theorem execRouterSleep_within {l : List Area} {s₀ s : State} (h : s₀.Within l s) (level index) (t)
    (ht : execRouterSleep level index s = .next t) (hnet : Area.net ∈ l := by assumption) : s₀.Within l t := by
  unfold execRouterSleep at ht
  (try dsimp only at ht)
  injection ht with ht
  subst ht
  repeat' (first
    | (with_reducible first
      | exact h | assumption | apply State.WithinMk.of | exact Or.inl rfl | exact Or.inr (by assumption)
      | exact Or.inr ⟨by assumption, id⟩ | apply State.within_ite)
    | (simp only [State.within_mk]; (try dsimp only)) | split | (dsimp only; split) | (intro; intros))

theorem State.wakeRouter_within {l : List Area} {s₀ s : State} (h : s₀.Within l s) (r)
    (hnet : Area.net ∈ l := by assumption) : s₀.Within l (State.wakeRouter s r) := by
  unfold State.wakeRouter
  (try dsimp only)
  repeat' (first
    | (with_reducible first
      | exact h | assumption | apply State.WithinMk.of | exact Or.inl rfl | exact Or.inr (by assumption)
      | exact Or.inr ⟨by assumption, id⟩)
    | (simp only [State.within_mk]; (try dsimp only)) | (intro; intros))

theorem execWake_within {l : List Area} {s₀ s : State} (h : s₀.Within l s) (e) (t) (ht : execWake e s = .next t)
    (hcores : Area.cores ∈ l := by assumption) (hnet : Area.net ∈ l := by assumption) : s₀.Within l t := by
  unfold execWake at ht
  (try dsimp only at ht)
  injection ht with ht
  subst ht
  repeat' (first
    | (with_reducible first
      | exact h | assumption | apply State.WithinMk.of | exact Or.inl rfl | exact Or.inr (by assumption)
      | exact Or.inr ⟨by assumption, id⟩ | apply State.within_ite | apply State.modCore_within
      | apply State.wakeRouter_within)
    | (simp only [State.within_mk]; (try dsimp only)) | split | (dsimp only; split) | (intro; intros))

theorem execWakeDone_within {l : List Area} {s₀ s : State} (h : s₀.Within l s) (e) (t) (ht : execWakeDone e s = .next t)
    (hcores : Area.cores ∈ l := by assumption) (hnet : Area.net ∈ l := by assumption) : s₀.Within l t := by
  unfold execWakeDone at ht
  (try dsimp only at ht)
  injection ht with ht
  subst ht
  repeat' (first
    | (with_reducible first
      | exact h | assumption | apply State.WithinMk.of | exact Or.inl rfl | exact Or.inr (by assumption)
      | exact Or.inr ⟨by assumption, id⟩ | apply State.within_ite | apply State.modCore_within)
    | (simp only [State.within_mk]; (try dsimp only)) | split | (dsimp only; split) | (intro; intros))

theorem State.claim_within {l : List Area} {s₀ s : State} (h : s₀.Within l s) (die p priv n)
    (hregs : Area.regs ∈ l := by assumption) (hhelm : Area.helm ∈ l := by assumption) : s₀.Within l
    (State.claim s die p priv n) := by
  unfold State.claim
  (try dsimp only)
  repeat' (first
    | (with_reducible first
      | exact h | assumption | apply State.WithinMk.of | exact Or.inl rfl | exact Or.inr (by assumption)
      | exact Or.inr ⟨by assumption, id⟩ | apply State.within_ite | apply State.setReg_within)
    | (simp only [State.within_mk]; (try dsimp only)) | split | (dsimp only; split))

theorem execIntClaim_within {l : List Area} {s₀ s : State} (h : s₀.Within l s) (src die proc) (t)
    (ht : execIntClaim src die proc s = .next t) (hregs : Area.regs ∈ l := by assumption)
    (hports : Area.ports ∈ l := by assumption) (hhelm : Area.helm ∈ l := by assumption)
    (hout : Area.out ∈ l := by assumption) : s₀.Within l t := by
  unfold execIntClaim at ht
  (try dsimp only at ht)
  injection ht with ht
  subst ht
  repeat' (first
    | (with_reducible first
      | exact h | assumption | apply State.within_ite | apply State.send_within | apply State.claim_within
      | apply State.unsupported_within)
    | split | (dsimp only; split))

theorem execIntComplete_within {l : List Area} {s₀ s : State} (h : s₀.Within l s) (src die proc value) (t)
    (ht : execIntComplete src die proc value s = .next t) (hregs : Area.regs ∈ l := by assumption)
    (hports : Area.ports ∈ l := by assumption) (hhelm : Area.helm ∈ l := by assumption)
    (hout : Area.out ∈ l := by assumption) : s₀.Within l t := by
  unfold execIntComplete at ht
  (try dsimp only at ht)
  injection ht with ht
  subst ht
  repeat' (first
    | (with_reducible first
      | exact h | assumption | apply State.WithinMk.of | exact Or.inl rfl | exact Or.inr (by assumption)
      | exact Or.inr ⟨by assumption, id⟩ | apply State.within_ite | apply State.writeAs_within
      | apply State.setReg_within | apply State.bump_within)
    | (simp only [State.within_mk]; (try dsimp only)) | split | (dsimp only; split) | (intro; intros))

theorem execIntMessage_within {l : List Area} {s₀ s : State} (h : s₀.Within l s) (die num helm) (t)
    (ht : execIntMessage die num helm s = .next t) (hregs : Area.regs ∈ l := by assumption)
    (hhelm : Area.helm ∈ l := by assumption) : s₀.Within l t := by
  unfold execIntMessage at ht
  (try dsimp only at ht)
  injection ht with ht
  subst ht
  repeat' (first
    | (with_reducible first
      | exact h | assumption | apply State.within_ite | apply State.message_within)
    | split | (dsimp only; split))

theorem execIntRaise_within {l : List Area} {s₀ s : State} (h : s₀.Within l s) (src die value) (t)
    (ht : execIntRaise src die value s = .next t) (hregs : Area.regs ∈ l := by assumption)
    (hports : Area.ports ∈ l := by assumption) (hhelm : Area.helm ∈ l := by assumption)
    (hout : Area.out ∈ l := by assumption) : s₀.Within l t := by
  unfold execIntRaise at ht
  (try dsimp only at ht)
  injection ht with ht
  subst ht
  repeat' (first
    | (with_reducible first
      | exact h | assumption | apply State.within_ite | apply State.writeAs_within | apply State.raisePriv_within
      | apply State.message_within)
    | split | (dsimp only; split) | (intro; intros))

theorem execIntSrcWrite_within {l : List Area} {s₀ s : State} (h : s₀.Within l s) (src die n value) (t)
    (ht : execIntSrcWrite src die n value s = .next t) (hregs : Area.regs ∈ l := by assumption)
    (hports : Area.ports ∈ l := by assumption) (hout : Area.out ∈ l := by assumption) : s₀.Within l t := by
  unfold execIntSrcWrite at ht
  (try dsimp only at ht)
  injection ht with ht
  subst ht
  repeat' (first
    | (with_reducible first
      | exact h | assumption | apply State.within_ite | apply State.writeAs_within | apply State.setReg_within)
    | split | (dsimp only; split) | (intro; intros))

theorem execIntMsixDelivery_within {l : List Area} {s₀ s : State} (h : s₀.Within l s) (die n) (t)
    (ht : execIntMsixDelivery die n s = .next t) (hregs : Area.regs ∈ l := by assumption)
    (hports : Area.ports ∈ l := by assumption) (hout : Area.out ∈ l := by assumption) : s₀.Within l t := by
  unfold execIntMsixDelivery at ht
  (try dsimp only at ht)
  injection ht with ht
  subst ht
  repeat' (first
    | (with_reducible first
      | exact h | assumption | apply State.within_ite | apply State.setReg_within | apply State.portMsix_within)
    | split | (dsimp only; split))

theorem execIntControllerSleep_within {l : List Area} {s₀ s : State} (h : s₀.Within l s) (die) (t)
    (ht : execIntControllerSleep die s = .next t) (hhelm : Area.helm ∈ l := by assumption) : s₀.Within l t := by
  unfold execIntControllerSleep at ht
  (try dsimp only at ht)
  injection ht with ht
  subst ht
  repeat' (first
    | (with_reducible first
      | exact h | assumption | apply State.WithinMk.of | exact Or.inl rfl | exact Or.inr (by assumption)
      | exact Or.inr ⟨by assumption, id⟩ | apply State.within_ite)
    | (simp only [State.within_mk]; (try dsimp only)) | split | (dsimp only; split))

theorem execIntControllerWake_within {l : List Area} {s₀ s : State} (h : s₀.Within l s) (die) (t)
    (ht : execIntControllerWake die s = .next t) (hregs : Area.regs ∈ l := by assumption)
    (hhelm : Area.helm ∈ l := by assumption) : s₀.Within l t := by
  unfold execIntControllerWake at ht
  (try dsimp only at ht)
  injection ht with ht
  subst ht
  repeat' (first
    | (with_reducible first
      | exact h | assumption | apply State.WithinMk.of | exact Or.inl rfl | exact Or.inr (by assumption)
      | exact Or.inr ⟨by assumption, id⟩ | apply State.within_ite | apply State.within_ite_fst
      | apply State.within_foldl | apply State.within_foldl_fst | apply State.takeMsg_within | apply State.bump_within)
    | (simp only [State.within_mk]; (try dsimp only)) | split | (dsimp only; split) | (intro; intros)
    | (dsimp only))

theorem State.atCore_within {l : List Area} {s₀ s : State} (h : s₀.Within l s) (c p act)
    (ha : ∀ t, s₀.Within l t → s₀.Within l (act t)) (hregs : Area.regs ∈ l := by assumption)
    (hnet : Area.net ∈ l := by assumption) : s₀.Within l (State.atCore s c p act) := by
  unfold State.atCore; dsimp only; split
  · exact h
  · split
    · exact State.refuse_within (State.arrive_within h _ _) _ _ _ _ _
    · exact ha _ h

theorem State.holdWrite_within {l : List Area} {s₀ s : State} (h : s₀.Within l s) (c p)
    (hregs : Area.regs ∈ l := by assumption) (hnet : Area.net ∈ l := by assumption)
    (hctxs : Area.ctxs ∈ l := by assumption) : s₀.Within l (State.holdWrite s c p) := by
  unfold State.holdWrite
  (try dsimp only)
  repeat' (first
    | (with_reducible first
      | exact h | assumption | apply State.WithinMk.of | exact Or.inl rfl | exact Or.inr (by assumption)
      | exact Or.inr ⟨by assumption, id⟩ | apply State.within_ite | apply State.arrive_within
      | apply State.modCtx_within | apply State.refuse_within | apply State.bump_within)
    | (simp only [State.within_mk]; (try dsimp only)) | split | (dsimp only; split) | (intro; intros))

theorem State.takeWrite_within {l : List Area} {s₀ s : State} (h : s₀.Within l s) (c p lost ecc)
    (hregs : Area.regs ∈ l := by assumption) (hcores : Area.cores ∈ l := by assumption)
    (hnet : Area.net ∈ l := by assumption) (hctxs : Area.ctxs ∈ l := by assumption)
    (hhelm : Area.helm ∈ l := by assumption) (hvault : Area.vault ∈ l := by assumption)
    (hstart : Area.start ∈ l := by assumption) : s₀.Within l (State.takeWrite s c p lost ecc) := by
  unfold State.takeWrite
  (try dsimp only)
  repeat' (first
    | (with_reducible first
      | exact h | assumption | apply State.WithinMk.of | exact Or.inl rfl | exact Or.inr (by assumption)
      | exact Or.inr ⟨by assumption, id⟩ | apply State.within_ite | apply State.holdWrite_within
      | apply State.arrive_within | apply State.writeDone_within | apply State.modCore_within
      | apply State.inboundAll_within)
    | (simp only [State.within_mk]; (try dsimp only)) | split | (dsimp only; split) | (intro; intros))

theorem State.hubDeny_within {l : List Area} {s₀ s : State} (h : s₀.Within l s) (h' i p)
    (hregs : Area.regs ∈ l := by assumption) (hnet : Area.net ∈ l := by assumption) : s₀.Within l (State.hubDeny s h' i p)
    := by
  unfold State.hubDeny
  (try dsimp only)
  repeat' (first
    | (with_reducible first
      | exact h | assumption | apply State.within_ite | apply State.arrive_within | apply State.refuse_within)
    | split | (dsimp only; split))

theorem State.byTarget_within {l : List Area} {s₀ s : State} (h : s₀.Within l s) (p f g k) (hf : ∀ c, s₀.Within l (f c))
    (hg : ∀ d t, s₀.Within l (g d t)) (hk : ∀ d t, s₀.Within l (k d t)) : s₀.Within l (State.byTarget s p f g k) := by
  unfold State.byTarget; split
  · exact hf _
  · exact hg _ _
  · exact hk _ _

theorem execWrite_within {l : List Area} {s₀ s : State} (h : s₀.Within l s) (p lost) (t)
    (ht : execWrite p lost s = .next t) (hregs : Area.regs ∈ l := by assumption)
    (hcores : Area.cores ∈ l := by assumption) (hnet : Area.net ∈ l := by assumption)
    (hctxs : Area.ctxs ∈ l := by assumption) (hhelm : Area.helm ∈ l := by assumption)
    (hfab : Area.fab ∈ l := by assumption) (hvault : Area.vault ∈ l := by assumption)
    (hstart : Area.start ∈ l := by assumption) (hout : Area.out ∈ l := by assumption) : s₀.Within l t := by
  unfold execWrite at ht
  (try dsimp only at ht)
  injection ht with ht
  subst ht
  repeat' (first
    | (with_reducible first
      | exact h | assumption | apply State.within_ite | apply State.byTarget_within | apply State.atCore_within
      | apply State.takeWrite_within | apply State.tileArrival_within | apply State.hubDeny_within)
    | split | (dsimp only; split) | (intro; intros))

theorem execRead_within {l : List Area} {s₀ s : State} (h : s₀.Within l s) (p e t) (ht : execRead p e s = .next t)
    (hregs : Area.regs ∈ l := by assumption) (hcores : Area.cores ∈ l := by assumption)
    (hnet : Area.net ∈ l := by assumption) (hhelm : Area.helm ∈ l := by assumption) (hfab : Area.fab ∈ l := by assumption)
    (hvault : Area.vault ∈ l := by assumption) (hstart : Area.start ∈ l := by assumption)
    (hout : Area.out ∈ l := by assumption) : s₀.Within l t := by
  injection ht with ht; subst ht; split
  · exact h
  · refine State.byTarget_within h _ _ _ _ (fun c => ?_) (fun d t => State.tileArrival_within h _ _ _) (fun a i => State.hubDeny_within h _ _ _)
    refine State.atCore_within h _ _ _ fun t ht => ?_
    split
    · exact ht
    · exact State.readRows_within ht _ _ _ _ _ _

theorem State.atHub_within {l : List Area} {s₀ s : State} (h : s₀.Within l s) (a i p f)
    (hf : ∀ t, f s = some t → s₀.Within l t) (hnet : Area.net ∈ l := by assumption) : s₀.Within l (State.atHub s a i p f)
    := by
  unfold State.atHub; dsimp only; split
  · exact h
  · split
    · rename_i t ht; exact State.arrive_within (hf _ ht) _ _
    · exact h

theorem State.atAperture_within {l : List Area} {s₀ s : State} (h : s₀.Within l s) (a i p f)
    (hf : ∀ t, s₀.Within l t → s₀.Within l (f t)) (hnet : Area.net ∈ l := by assumption) : s₀.Within l
    (State.atAperture s a i p f) := by
  unfold State.atAperture
  refine State.atHub_within h _ _ _ _ ?_
  intro t ht; injection ht with ht; subst ht; exact hf _ h

theorem State.doorbell_within {l : List Area} {s₀ s : State} (h : s₀.Within l s) (h' p) (t)
    (ht : State.doorbell s h' p = some t) (hregs : Area.regs ∈ l := by assumption) (hnet : Area.net ∈ l := by assumption)
    (hhelm : Area.helm ∈ l := by assumption) : s₀.Within l t := by
  unfold State.doorbell at ht
  (try dsimp only at ht)
  (repeat' (split at ht)) <;> (first | (injection ht with ht; subst ht) | (cases ht; done))
  all_goals (repeat' (first
    | (with_reducible first
      | exact h | assumption | apply State.within_ite | apply State.refuse_within | apply State.message_within
      | apply State.accept_within)
    | split | (dsimp only; split)))

theorem execMaskWrite_within {l : List Area} {s₀ s : State} (h : s₀.Within l s) (p e t)
    (ht : execMaskWrite p e s = .next t) (hregs : Area.regs ∈ l := by assumption)
    (hcores : Area.cores ∈ l := by assumption) (hnet : Area.net ∈ l := by assumption)
    (hhbm : Area.hbm ∈ l := by assumption) (hhbmc : Area.hbmc ∈ l := by assumption)
    (hctxs : Area.ctxs ∈ l := by assumption) (hhelm : Area.helm ∈ l := by assumption)
    (hfab : Area.fab ∈ l := by assumption) (hvault : Area.vault ∈ l := by assumption)
    (hstart : Area.start ∈ l := by assumption) (hfree : Area.free ∈ l := by assumption)
    (hout : Area.out ∈ l := by assumption) : s₀.Within l t := by
  injection ht with ht; subst ht; split
  · exact h
  · refine State.byTarget_within h _ _ _ _ (fun c => ?_) (fun d t => State.tileArrival_within h _ _ _) (fun a i => ?_)
    · refine State.atCore_within h _ _ _ fun t ht => ?_
      split
      · exact State.refuse_within (State.arrive_within ht _ _) _ _ _ _ _
      · exact State.takeWrite_within ht _ _ _ _
    · split
      · exact State.atHub_within h _ _ _ _ fun t ht => State.hbmMaskWrite_within h _ _ _ _ ht
      · split
        · exact State.atAperture_within h _ _ _ _ fun t ht => State.bramMaskWrite_within ht _ _ _
        · exact State.hubDeny_within h _ _ _

theorem execMemWrite_within {l : List Area} {s₀ s : State} (h : s₀.Within l s) (p e t) (ht : execMemWrite p e s = .next t)
    (hregs : Area.regs ∈ l := by assumption) (hnet : Area.net ∈ l := by assumption) (hhbm : Area.hbm ∈ l := by assumption)
    (hhbmc : Area.hbmc ∈ l := by assumption) (hctxs : Area.ctxs ∈ l := by assumption)
    (hhelm : Area.helm ∈ l := by assumption) (hfab : Area.fab ∈ l := by assumption)
    (hfree : Area.free ∈ l := by assumption) (hout : Area.out ∈ l := by assumption) : s₀.Within l t := by
  injection ht with ht; subst ht; split
  · exact h
  · refine State.byTarget_within h _ _ _ _ (fun c => ?_) (fun d t => State.tileArrival_within h _ _ _) (fun a i => ?_)
    · exact State.atCore_within h _ _ _ fun t ht => State.refuse_within (State.arrive_within ht _ _) _ _ _ _ _
    · split
      · exact State.atHub_within h _ _ _ _ fun t ht => State.hbmMemWrite_within h _ _ _ _ ht
      · split
        · exact State.atAperture_within h _ _ _ _ fun t ht => State.bramMemWrite_within ht _ _
        · split
          · exact State.atHub_within h _ _ _ _ fun t ht => State.doorbell_within h _ _ _ ht
          · exact State.hubDeny_within h _ _ _

theorem execMemRead_within {l : List Area} {s₀ s : State} (h : s₀.Within l s) (p e t) (ht : execMemRead p e s = .next t)
    (hregs : Area.regs ∈ l := by assumption) (hnet : Area.net ∈ l := by assumption)
    (hhbmc : Area.hbmc ∈ l := by assumption) (hhelm : Area.helm ∈ l := by assumption)
    (hfab : Area.fab ∈ l := by assumption) (hfree : Area.free ∈ l := by assumption) (hout : Area.out ∈ l := by assumption)
    : s₀.Within l t := by
  injection ht with ht; subst ht; split
  · exact h
  · refine State.byTarget_within h _ _ _ _ (fun c => ?_) (fun d t => State.tileArrival_within h _ _ _) (fun a i => ?_)
    · exact State.atCore_within h _ _ _ fun t ht => State.refuse_within (State.arrive_within ht _ _) _ _ _ _ _
    · split
      · exact State.atHub_within h _ _ _ _ fun t ht => State.hbmMemRead_within h _ _ _ _ ht
      · split
        · exact State.atAperture_within h _ _ _ _ fun t ht => State.bramMemRead_within ht _ _ _
        · exact State.hubDeny_within h _ _ _

theorem execIbufWrite_within {l : List Area} {s₀ s : State} (h : s₀.Within l s) (p c) (t)
    (ht : execIbufWrite p c s = .next t) (hregs : Area.regs ∈ l := by assumption)
    (hcores : Area.cores ∈ l := by assumption) (hnet : Area.net ∈ l := by assumption) : s₀.Within l t := by
  unfold execIbufWrite at ht
  (try dsimp only at ht)
  injection ht with ht
  subst ht
  repeat' (first
    | (with_reducible first
      | exact h | assumption | apply State.WithinMk.of | exact Or.inl rfl | exact Or.inr (by assumption)
      | exact Or.inr ⟨by assumption, id⟩ | apply State.within_ite | apply State.atCore_within
      | apply State.arrive_within | apply State.modCore_within | apply State.accept_within)
    | (simp only [State.within_mk]; (try dsimp only)) | split | (dsimp only; split) | (intro; intros))

theorem State.putRoute_within {l : List Area} {s₀ s : State} (h : s₀.Within l s) (c i e)
    (hcores : Area.cores ∈ l := by assumption) : s₀.Within l (State.putRoute s c i e) := by
  unfold State.putRoute
  (try dsimp only)
  repeat' (first
    | (with_reducible first
      | exact h | assumption | apply State.WithinMk.of | exact Or.inl rfl | exact Or.inr (by assumption)
      | exact Or.inr ⟨by assumption, id⟩ | apply State.within_ite | apply State.modCore_within)
    | (simp only [State.within_mk]; (try dsimp only)) | split | (dsimp only; split) | (intro; intros))

theorem execRouteWrite_within {l : List Area} {s₀ s : State} (h : s₀.Within l s) (p c) (t)
    (ht : execRouteWrite p c s = .next t) (hregs : Area.regs ∈ l := by assumption)
    (hcores : Area.cores ∈ l := by assumption) (hnet : Area.net ∈ l := by assumption) : s₀.Within l t := by
  unfold execRouteWrite at ht
  (try dsimp only at ht)
  injection ht with ht
  subst ht
  repeat' (first
    | (with_reducible first
      | exact h | assumption | apply State.within_ite | apply State.atCore_within | apply State.arrive_within
      | apply State.putRoute_within | apply State.accept_within)
    | split | (dsimp only; split) | (intro; intros))

theorem execStart_within {l : List Area} {s₀ s : State} (h : s₀.Within l s) (p c) (t) (ht : execStart p c s = .next t)
    (hregs : Area.regs ∈ l := by assumption) (hcores : Area.cores ∈ l := by assumption)
    (hnet : Area.net ∈ l := by assumption) : s₀.Within l t := by
  unfold execStart at ht
  (try dsimp only at ht)
  injection ht with ht
  subst ht
  repeat' (first
    | (with_reducible first
      | exact h | assumption | apply State.WithinMk.of | exact Or.inl rfl | exact Or.inr (by assumption)
      | exact Or.inr ⟨by assumption, id⟩ | apply State.within_ite | apply State.atCore_within
      | apply State.arrive_within | apply State.modCore_within)
    | (simp only [State.within_mk]; (try dsimp only)) | split | (dsimp only; split) | (intro; intros))

theorem execProgramLoad_within {l : List Area} {s₀ s : State} (h : s₀.Within l s) (c) (t)
    (ht : execProgramLoad c s = .next t) (hcores : Area.cores ∈ l := by assumption) (hnet : Area.net ∈ l := by assumption)
    : s₀.Within l t := by
  unfold execProgramLoad at ht
  (try dsimp only at ht)
  injection ht with ht
  subst ht
  repeat' (first
    | (with_reducible first
      | exact h | assumption | apply State.within_ite | apply State.setCore_within | apply State.accept_within)
    | split | (dsimp only; split))

theorem execStop_within {l : List Area} {s₀ s : State} (h : s₀.Within l s) (p c) (t) (ht : execStop p c s = .next t)
    (hregs : Area.regs ∈ l := by assumption) (hcores : Area.cores ∈ l := by assumption)
    (hnet : Area.net ∈ l := by assumption) : s₀.Within l t := by
  unfold execStop at ht
  (try dsimp only at ht)
  injection ht with ht
  subst ht
  repeat' (first
    | (with_reducible first
      | exact h | assumption | apply State.within_ite | apply State.atCore_within | apply State.arrive_within
      | apply State.stopArrives_within | apply State.accept_within)
    | split | (dsimp only; split) | (intro; intros))

theorem execTallyArrival_within {l : List Area} {s₀ s : State} (h : s₀.Within l s) (p) (t)
    (ht : execTallyArrival p s = .next t) (hregs : Area.regs ∈ l := by assumption)
    (hcores : Area.cores ∈ l := by assumption) (hnet : Area.net ∈ l := by assumption)
    (hfab : Area.fab ∈ l := by assumption) (hout : Area.out ∈ l := by assumption) : s₀.Within l t := by
  unfold execTallyArrival at ht
  (try dsimp only at ht)
  injection ht with ht
  subst ht
  repeat' (first
    | (with_reducible first
      | exact h | assumption | apply State.WithinMk.of | exact Or.inl rfl | exact Or.inr (by assumption)
      | exact Or.inr ⟨by assumption, id⟩ | apply State.within_ite | apply State.byTarget_within
      | apply State.atCore_within | apply State.arrive_within | apply State.modCore_within | apply State.accept_within
      | apply State.tileArrival_within)
    | (simp only [State.within_mk]; (try dsimp only)) | split | (dsimp only; split) | (intro; intros))

theorem State.sinkPackets_within {l : List Area} {s₀ s : State} (h : s₀.Within l s) (c)
    (hregs : Area.regs ∈ l := by assumption) (hnet : Area.net ∈ l := by assumption) : s₀.Within l (State.sinkPackets s c)
    := by
  unfold State.sinkPackets
  (try dsimp only)
  repeat' (first
    | (with_reducible first
      | exact h | assumption | apply State.within_foldl | apply State.within_foldl_fst | apply State.refuse_within)
    | (intro; intros))

theorem State.killCore_within {l : List Area} {s₀ s : State} (h : s₀.Within l s) (c)
    (hregs : Area.regs ∈ l := by assumption) (hcores : Area.cores ∈ l := by assumption)
    (hnet : Area.net ∈ l := by assumption) : s₀.Within l (State.killCore s c) := by
  unfold State.killCore
  (try dsimp only)
  repeat' (first
    | (with_reducible first
      | exact h | assumption | apply State.WithinMk.of | exact Or.inl rfl | exact Or.inr (by assumption)
      | exact Or.inr ⟨by assumption, id⟩ | apply State.within_ite | apply State.modCore_within
      | apply State.haltCore_within | apply State.sinkPackets_within)
    | (simp only [State.within_mk]; (try dsimp only)) | split | (dsimp only; split) | (intro; intros))

theorem State.dropQueued_within {l : List Area} {s₀ s : State} (h : s₀.Within l s) (l')
    (hnet : Area.net ∈ l := by assumption) : s₀.Within l (State.dropQueued s l') := by
  unfold State.dropQueued
  (try dsimp only)
  repeat' (first
    | (with_reducible first
      | exact h | assumption | apply State.WithinMk.of | exact Or.inl rfl | exact Or.inr (by assumption)
      | exact Or.inr ⟨by assumption, id⟩)
    | (simp only [State.within_mk]; (try dsimp only)) | split | (dsimp only; split) | (intro; intros))

theorem State.resetCore_within {l : List Area} {s₀ s : State} (h : s₀.Within l s) (c)
    (hregs : Area.regs ∈ l := by assumption) (hcores : Area.cores ∈ l := by assumption)
    (hnet : Area.net ∈ l := by assumption) : s₀.Within l (State.resetCore s c) := by
  unfold State.resetCore
  (try dsimp only)
  repeat' (with_reducible first
      | exact h | assumption | apply State.dropQueued_within | apply State.sinkPackets_within
      | apply State.modCore_within)

theorem State.resetCoresOf_within {l : List Area} {s₀ s : State} (h : s₀.Within l s) (l')
    (hregs : Area.regs ∈ l := by assumption) (hcores : Area.cores ∈ l := by assumption)
    (hnet : Area.net ∈ l := by assumption) (hstart : Area.start ∈ l := by assumption) : s₀.Within l
    (State.resetCoresOf s l') := by
  unfold State.resetCoresOf
  (try dsimp only)
  repeat' (first
    | (with_reducible first
      | exact h | assumption | apply State.WithinMk.of | exact Or.inl rfl | exact Or.inr (by assumption)
      | exact Or.inr ⟨by assumption, id⟩ | apply State.within_ite | apply State.within_ite_fst
      | apply State.within_foldl | apply State.within_foldl_fst | apply State.dropQueued_within
      | apply State.modCore_within | apply State.resetCore_within)
    | (simp only [State.within_mk]; (try dsimp only)) | split | (dsimp only; split) | (intro; intros)
    | (dsimp only))

theorem State.ctxFreed_within {l : List Area} {s₀ s : State} (h : s₀.Within l s) (x)
    (hregs : Area.regs ∈ l := by assumption) (hctxs : Area.ctxs ∈ l := by assumption)
    (hports : Area.ports ∈ l := by assumption) (hout : Area.out ∈ l := by assumption) : s₀.Within l (State.ctxFreed s x)
    := by
  unfold State.ctxFreed
  (try dsimp only)
  repeat' (first
    | (with_reducible first
      | exact h | assumption | apply State.WithinMk.of | exact Or.inl rfl | exact Or.inr (by assumption)
      | exact Or.inr ⟨by assumption, id⟩ | apply State.within_ite | apply State.setReg_within
      | apply State.event_within | apply State.modPort_within)
    | (simp only [State.within_mk]; (try dsimp only)) | split | (dsimp only; split) | (intro; intros))

theorem State.coreBleached_within {l : List Area} {s₀ s : State} (h : s₀.Within l s) (c)
    (hregs : Area.regs ∈ l := by assumption) (hctxs : Area.ctxs ∈ l := by assumption)
    (hports : Area.ports ∈ l := by assumption) (hstart : Area.start ∈ l := by assumption)
    (hout : Area.out ∈ l := by assumption) : s₀.Within l (State.coreBleached s c) := by
  unfold State.coreBleached
  (try dsimp only)
  repeat' (first
    | (with_reducible first
      | exact h | assumption | apply State.WithinMk.of | exact Or.inl rfl | exact Or.inr (by assumption)
      | exact Or.inr ⟨by assumption, id⟩ | apply State.within_foldl | apply State.within_foldl_fst
      | apply State.modCtx_within | apply State.ctxFreed_within)
    | (simp only [State.within_mk]; (try dsimp only)) | (intro; intros)
    | (dsimp only))

theorem execCoreBleachDone_within {l : List Area} {s₀ s : State} (h : s₀.Within l s) (c) (t)
    (ht : execCoreBleachDone c s = .next t) (hregs : Area.regs ∈ l := by assumption)
    (hcores : Area.cores ∈ l := by assumption) (hctxs : Area.ctxs ∈ l := by assumption)
    (hports : Area.ports ∈ l := by assumption) (hstart : Area.start ∈ l := by assumption)
    (hout : Area.out ∈ l := by assumption) : s₀.Within l t := by
  unfold execCoreBleachDone at ht
  (try dsimp only at ht)
  injection ht with ht
  subst ht
  repeat' (first
    | (with_reducible first
      | exact h | assumption | apply State.within_ite | apply State.modCore_within | apply State.coreBleached_within)
    | split | (dsimp only; split))

theorem execHbmBleachDone_within {l : List Area} {s₀ s : State} (h : s₀.Within l s) (x a t)
    (ht : execHbmBleachDone x a s = .next t) (hregs : Area.regs ∈ l := by assumption)
    (hhbm : Area.hbm ∈ l := by assumption) (hhbmc : Area.hbmc ∈ l := by assumption)
    (hctxs : Area.ctxs ∈ l := by assumption) (hports : Area.ports ∈ l := by assumption)
    (hout : Area.out ∈ l := by assumption) : s₀.Within l t := by
  injection ht with ht; subst ht; dsimp only; split
  · exact h
  · exact State.ctxFreed_within (State.modCtx_within (State.modStk_within (State.hbmFilter_within h _) _ _) _ _) _

end Sys2Proof.Machine
end

