-- ==== Sys2Proof/Laws/WithinRing.lean ====
section
/-! SUPPORT. What each operation changes at most (State.Within, Safety.lean), for rings, Fix groups, transfers and descriptors. -/

namespace Sys2Proof.Machine

set_option Elab.async false
set_option linter.all false

theorem State.ctxFault_within {l : List Area} {s₀ s : State} (h : s₀.Within l s) (x status)
    (hregs : Area.regs ∈ l := by assumption) (hctxs : Area.ctxs ∈ l := by assumption)
    (hports : Area.ports ∈ l := by assumption) (hout : Area.out ∈ l := by assumption) : s₀.Within l
    (State.ctxFault s x status) := by
  unfold State.ctxFault
  (try dsimp only)
  repeat' (first
    | (with_reducible first
      | exact h | assumption | apply State.WithinMk.of | exact Or.inl rfl | exact Or.inr (by assumption)
      | exact Or.inr ⟨by assumption, id⟩ | apply State.within_ite | apply State.setReg_within
      | apply State.modCtx_within | apply State.event_within)
    | (simp only [State.within_mk]; (try dsimp only)) | split | (dsimp only; split) | (intro; intros))

theorem State.useTr_within {l : List Area} {s₀ s : State} (h : s₀.Within l s) (x page pasid)
    (hports : Area.ports ∈ l := by assumption) : s₀.Within l (State.useTr s x page pasid) := by
  unfold State.useTr
  (try dsimp only)
  repeat' (first
    | (with_reducible first
      | exact h | assumption | apply State.WithinMk.of | exact Or.inl rfl | exact Or.inr (by assumption)
      | exact Or.inr ⟨by assumption, id⟩ | apply State.within_ite | apply State.modPort_within)
    | (simp only [State.within_mk]; (try dsimp only)) | split | (dsimp only; split) | (intro; intros))

theorem State.askTr_within {l : List Area} {s₀ s : State} (h : s₀.Within l s) (x page pasid write)
    (hout : Area.out ∈ l := by assumption) : s₀.Within l (State.askTr s x page pasid write) := by
  unfold State.askTr
  (try dsimp only)
  repeat' (with_reducible first
      | exact h | assumption | apply State.send_within)

theorem State.hostPut_within {l : List Area} {s₀ s : State} (h : s₀.Within l s) (x addr bytes pasid)
    (hports : Area.ports ∈ l := by assumption) (hout : Area.out ∈ l := by assumption) : s₀.Within l
    (State.hostPut s x addr bytes pasid) := by
  unfold State.hostPut
  (try dsimp only)
  repeat' (first
    | (with_reducible first
      | exact h | assumption | apply State.within_ite | apply State.within_ite_fst | apply State.within_foldl
      | apply State.within_foldl_fst | apply State.send_within | apply State.useTr_within)
    | split | (dsimp only; split) | (intro; intros)
    | (dsimp only))

theorem State.hostGet_within {l : List Area} {s₀ s : State} (h : s₀.Within l s) (x t' n addr len pasid)
    (hports : Area.ports ∈ l := by assumption) (hout : Area.out ∈ l := by assumption) : s₀.Within l
    (State.hostGet s x t' n addr len pasid) := by
  unfold State.hostGet
  (try dsimp only)
  repeat' (first
    | (with_reducible first
      | exact h | assumption | apply State.within_ite | apply State.within_foldl | apply State.within_foldl_fst
      | apply State.send_within | apply State.useTr_within)
    | split | (dsimp only; split) | (intro; intros))

theorem State.badCompletion_within {l : List Area} {s₀ s : State} (h : s₀.Within l s) (p d)
    (hports : Area.ports ∈ l := by assumption) : s₀.Within l (State.badCompletion s p d) := by
  unfold State.badCompletion
  (try dsimp only)
  repeat' (first
    | (with_reducible first
      | exact h | assumption | apply State.aer_within)
    | split | (dsimp only; split))

theorem State.cqPut_within {l : List Area} {s₀ s : State} (h : s₀.Within l s) (x e)
    (hregs : Area.regs ∈ l := by assumption) (hctxs : Area.ctxs ∈ l := by assumption)
    (hports : Area.ports ∈ l := by assumption) (hout : Area.out ∈ l := by assumption) : s₀.Within l (State.cqPut s x e) :=
    by
  unfold State.cqPut
  (try dsimp only)
  repeat' (first
    | (with_reducible first
      | exact h | assumption | apply State.WithinMk.of | exact Or.inl rfl | exact Or.inr (by assumption)
      | exact Or.inr ⟨by assumption, id⟩ | apply State.within_ite | apply State.hostPut_within
      | apply State.modCtx_within | apply State.setReg_within | apply State.cqMessage_within)
    | (simp only [State.within_mk]; (try dsimp only)) | split | (dsimp only; split) | (intro; intros))

theorem State.cqFlush_within {l : List Area} {s₀ s : State} (h : s₀.Within l s) (x n)
    (hregs : Area.regs ∈ l := by assumption) (hctxs : Area.ctxs ∈ l := by assumption)
    (hports : Area.ports ∈ l := by assumption) (hout : Area.out ∈ l := by assumption) : s₀.Within l (State.cqFlush s x n)
    := by
  induction n generalizing s with
  | zero => exact h
  | succ n ih =>
    unfold State.cqFlush; split
    · exact h
    · split
      · exact h
      · split
        · exact State.send_within h _
        · exact ih (State.cqPut_within (State.modCtx_within h _ _) _ _)

theorem State.cqCut_within {l : List Area} {s₀ s : State} (h : s₀.Within l s) (x) (hregs : Area.regs ∈ l := by assumption)
    (hctxs : Area.ctxs ∈ l := by assumption) : s₀.Within l (State.cqCut s x) := by
  unfold State.cqCut
  (try dsimp only)
  repeat' (first
    | (with_reducible first
      | exact h | assumption | apply State.WithinMk.of | exact Or.inl rfl | exact Or.inr (by assumption)
      | exact Or.inr ⟨by assumption, id⟩ | apply State.modCtx_within | apply State.setReg_within)
    | (simp only [State.within_mk]; (try dsimp only)) | split | (dsimp only; split) | (intro; intros))

theorem State.cqe_within {l : List Area} {s₀ s : State} (h : s₀.Within l s) (x e) (hregs : Area.regs ∈ l := by assumption)
    (hctxs : Area.ctxs ∈ l := by assumption) (hports : Area.ports ∈ l := by assumption)
    (hout : Area.out ∈ l := by assumption) : s₀.Within l (State.cqe s x e) := by
  unfold State.cqe
  (try dsimp only)
  repeat' (first
    | (with_reducible first
      | exact h | assumption | apply State.WithinMk.of | exact Or.inl rfl | exact Or.inr (by assumption)
      | exact Or.inr ⟨by assumption, id⟩ | apply State.modCtx_within | apply State.cqFlush_within)
    | (simp only [State.within_mk]; (try dsimp only)) | (intro; intros))

theorem State.owe_within {l : List Area} {s₀ s : State} (h : s₀.Within l s) (x o) (hctxs : Area.ctxs ∈ l := by assumption)
    : s₀.Within l (State.owe s x o) := by
  unfold State.owe
  (try dsimp only)
  repeat' (first
    | (with_reducible first
      | exact h | assumption | apply State.WithinMk.of | exact Or.inl rfl | exact Or.inr (by assumption)
      | exact Or.inr ⟨by assumption, id⟩ | apply State.within_ite | apply State.modCtx_within)
    | (simp only [State.within_mk]; (try dsimp only)) | split | (dsimp only; split) | (intro; intros))

theorem State.cqeDue_within {l : List Area} {s₀ s : State} (h : s₀.Within l s) (x e)
    (hregs : Area.regs ∈ l := by assumption) (hctxs : Area.ctxs ∈ l := by assumption)
    (hports : Area.ports ∈ l := by assumption) (hout : Area.out ∈ l := by assumption) : s₀.Within l (State.cqeDue s x e)
    := by
  unfold State.cqeDue
  (try dsimp only)
  repeat' (first
    | (with_reducible first
      | exact h | assumption | apply State.within_ite | apply State.owe_within | apply State.cqe_within)
    | split | (dsimp only; split))

theorem State.missed_within {l : List Area} {s₀ s : State} (h : s₀.Within l s) (x)
    (hregs : Area.regs ∈ l := by assumption) (hctxs : Area.ctxs ∈ l := by assumption)
    (hports : Area.ports ∈ l := by assumption) (hout : Area.out ∈ l := by assumption) : s₀.Within l (State.missed s x) :=
    by
  unfold State.missed
  (try dsimp only)
  repeat' (with_reducible first
      | exact h | assumption | apply State.bump_within | apply State.event_within)

theorem State.lateness_within {l : List Area} {s₀ s : State} (h : s₀.Within l s) (x t0 deadline)
    (hregs : Area.regs ∈ l := by assumption) : s₀.Within l (State.lateness s x t0 deadline) := by
  unfold State.lateness
  (try dsimp only)
  repeat' (first
    | (with_reducible first
      | exact h | assumption | apply State.within_ite | apply State.setReg_within)
    | split | (dsimp only; split))

theorem State.missCopy_within {l : List Area} {s₀ s : State} (h : s₀.Within l s) (x c)
    (hregs : Area.regs ∈ l := by assumption) (hctxs : Area.ctxs ∈ l := by assumption)
    (hports : Area.ports ∈ l := by assumption) (hout : Area.out ∈ l := by assumption) : s₀.Within l (State.missCopy s x c)
    := by
  unfold State.missCopy
  (try dsimp only)
  repeat' (first
    | (with_reducible first
      | exact h | assumption | apply State.WithinMk.of | exact Or.inl rfl | exact Or.inr (by assumption)
      | exact Or.inr ⟨by assumption, id⟩ | apply State.within_ite | apply State.modCtx_within
      | apply State.missed_within)
    | (simp only [State.within_mk]; (try dsimp only)) | split | (dsimp only; split) | (intro; intros)
    | (dsimp only [id]))

theorem State.markElig_within {l : List Area} {s₀ s : State} (h : s₀.Within l s) (x)
    (hctxs : Area.ctxs ∈ l := by assumption) : s₀.Within l (State.markElig s x) := by
  unfold State.markElig
  (try dsimp only)
  repeat' (first
    | (with_reducible first
      | exact h | assumption | apply State.WithinMk.of | exact Or.inl rfl | exact Or.inr (by assumption)
      | exact Or.inr ⟨by assumption, id⟩ | apply State.within_ite | apply State.modCtx_within)
    | (simp only [State.within_mk]; (try dsimp only)) | split | (dsimp only; split) | (intro; intros))

theorem State.retire_within {l : List Area} {s₀ s : State} (h : s₀.Within l s) (x)
    (hregs : Area.regs ∈ l := by assumption) (hctxs : Area.ctxs ∈ l := by assumption) : s₀.Within l (State.retire s x) :=
    by
  unfold State.retire
  (try dsimp only)
  repeat' (first
    | (with_reducible first
      | exact h | assumption | apply State.WithinMk.of | exact Or.inl rfl | exact Or.inr (by assumption)
      | exact Or.inr ⟨by assumption, id⟩ | apply State.modCtx_within | apply State.setReg_within)
    | (simp only [State.within_mk]; (try dsimp only)) | split | (dsimp only; split) | (intro; intros))

theorem State.finishCopy_within {l : List Area} {s₀ s : State} (h : s₀.Within l s) (x i status info always)
    (hregs : Area.regs ∈ l := by assumption) (hctxs : Area.ctxs ∈ l := by assumption)
    (hports : Area.ports ∈ l := by assumption) (hout : Area.out ∈ l := by assumption) : s₀.Within l
    (State.finishCopy s x i status info always) := by
  unfold State.finishCopy
  (try dsimp only)
  repeat' (first
    | (with_reducible first
      | exact h | assumption | apply State.WithinMk.of | exact Or.inl rfl | exact Or.inr (by assumption)
      | exact Or.inr ⟨by assumption, id⟩ | apply State.within_ite | apply State.owe_within
      | apply State.lateness_within | apply State.modCtx_within | apply State.cqe_within | apply State.retire_within
      | apply State.markElig_within)
    | (simp only [State.within_mk]; (try dsimp only)) | split | (dsimp only; split) | (intro; intros)
    | (dsimp only [id]))

theorem State.modGrp_within {l : List Area} {s₀ s : State} (h : s₀.Within l s) (x g f)
    (hctxs : Area.ctxs ∈ l := by assumption) : s₀.Within l (State.modGrp s x g f) := by
  unfold State.modGrp
  (try dsimp only)
  repeat' (first
    | (with_reducible first
      | exact h | assumption | apply State.WithinMk.of | exact Or.inl rfl | exact Or.inr (by assumption)
      | exact Or.inr ⟨by assumption, id⟩ | apply State.modCtx_within)
    | (simp only [State.within_mk]; (try dsimp only)) | (intro; intros)
    | (dsimp only [id]))

theorem State.dropAborted_within {l : List Area} {s₀ s : State} (h : s₀.Within l s) (x)
    (hctxs : Area.ctxs ∈ l := by assumption) : s₀.Within l (State.dropAborted s x) := by
  unfold State.dropAborted
  (try dsimp only)
  repeat' (first
    | (with_reducible first
      | exact h | assumption | apply State.WithinMk.of | exact Or.inl rfl | exact Or.inr (by assumption)
      | exact Or.inr ⟨by assumption, id⟩ | apply State.modCtx_within)
    | (simp only [State.within_mk]; (try dsimp only)) | split | (dsimp only; split) | (intro; intros))

theorem State.abortOne_within {l : List Area} {s₀ s : State} (h : s₀.Within l s) (x g overflow)
    (hregs : Area.regs ∈ l := by assumption) (hctxs : Area.ctxs ∈ l := by assumption)
    (hports : Area.ports ∈ l := by assumption) (hout : Area.out ∈ l := by assumption) : s₀.Within l
    (State.abortOne s x g overflow) := by
  unfold State.abortOne
  (try dsimp only)
  repeat' (first
    | (with_reducible first
      | exact h | assumption | apply State.WithinMk.of | exact Or.inl rfl | exact Or.inr (by assumption)
      | exact Or.inr ⟨by assumption, id⟩ | apply State.within_ite | apply State.modGrp_within
      | apply State.bump_within | apply State.finishCopy_within)
    | (simp only [State.within_mk]; (try dsimp only)) | split | (dsimp only; split) | (intro; intros))

theorem State.abortGrp_within {l : List Area} {s₀ s : State} (h : s₀.Within l s) (x g overflow)
    (hregs : Area.regs ∈ l := by assumption) (hctxs : Area.ctxs ∈ l := by assumption)
    (hports : Area.ports ∈ l := by assumption) (hout : Area.out ∈ l := by assumption) : s₀.Within l
    (State.abortGrp s x g overflow) := by
  unfold State.abortGrp
  (try dsimp only)
  repeat' (first
    | (with_reducible first
      | exact h | assumption | apply State.within_ite | apply State.within_foldl | apply State.within_foldl_fst
      | apply State.abortOne_within | apply State.dropAborted_within)
    | split | (dsimp only; split) | (intro; intros)
    | (dsimp only [id]))

theorem State.complete_within {l : List Area} {s₀ s : State} (h : s₀.Within l s) (x i status info)
    (hregs : Area.regs ∈ l := by assumption) (hctxs : Area.ctxs ∈ l := by assumption)
    (hports : Area.ports ∈ l := by assumption) (hout : Area.out ∈ l := by assumption) : s₀.Within l
    (State.complete s x i status info) := by
  unfold State.complete
  (try dsimp only)
  repeat' (first
    | (with_reducible first
      | exact h | assumption | apply State.within_ite | apply State.finishCopy_within | apply State.abortGrp_within
      | apply State.dropAborted_within)
    | split | (dsimp only; split))

theorem State.payOne_within {l : List Area} {s₀ s : State} (h : s₀.Within l s) (x)
    (hregs : Area.regs ∈ l := by assumption) (hctxs : Area.ctxs ∈ l := by assumption)
    (hports : Area.ports ∈ l := by assumption) (hout : Area.out ∈ l := by assumption) : s₀.Within l (State.payOne s x) :=
    by
  unfold State.payOne
  (try dsimp only)
  repeat' (first
    | (with_reducible first
      | exact h | assumption | apply State.WithinMk.of | exact Or.inl rfl | exact Or.inr (by assumption)
      | exact Or.inr ⟨by assumption, id⟩ | apply State.within_ite | apply State.modCtx_within | apply State.cqe_within
      | apply State.finishCopy_within | apply State.dropAborted_within)
    | (simp only [State.within_mk]; (try dsimp only)) | split | (dsimp only; split) | (intro; intros))

theorem State.payOwed_within {l : List Area} {s₀ s : State} (h : s₀.Within l s) (x)
    (hregs : Area.regs ∈ l := by assumption) (hctxs : Area.ctxs ∈ l := by assumption)
    (hports : Area.ports ∈ l := by assumption) (hout : Area.out ∈ l := by assumption) : s₀.Within l (State.payOwed s x) :=
    by
  unfold State.payOwed
  (try dsimp only)
  repeat' (first
    | (with_reducible first
      | exact h | assumption | apply State.within_foldl | apply State.within_foldl_fst | apply State.payOne_within)
    | (intro; intros))

theorem State.cqGo_within {l : List Area} {s₀ s : State} (h : s₀.Within l s) (x) (hregs : Area.regs ∈ l := by assumption)
    (hctxs : Area.ctxs ∈ l := by assumption) (hports : Area.ports ∈ l := by assumption)
    (hout : Area.out ∈ l := by assumption) : s₀.Within l (State.cqGo s x) := by
  unfold State.cqGo
  (try dsimp only)
  repeat' (first
    | (with_reducible first
      | exact h | assumption | apply State.cqFlush_within | apply State.payOwed_within)
    | (intro; intros))

theorem State.begins_within {l : List Area} {s₀ s : State} (h : s₀.Within l s) (x i ops act)
    (hact' : ∀ x0 x1, (s₀.Within l x1) → s₀.Within l (act x0 x1)) (hregs : Area.regs ∈ l := by assumption)
    (hctxs : Area.ctxs ∈ l := by assumption) (hports : Area.ports ∈ l := by assumption)
    (hout : Area.out ∈ l := by assumption) : s₀.Within l (State.begins s x i ops act) := by
  unfold State.begins
  (try dsimp only)
  repeat' (first
    | (with_reducible first
      | exact h | assumption | apply State.WithinMk.of | exact Or.inl rfl | exact Or.inr (by assumption)
      | exact Or.inr ⟨by assumption, id⟩ | apply State.within_ite | apply hact' | apply State.missCopy_within
      | apply State.modCtx_within | apply State.complete_within)
    | (simp only [State.within_mk]; (try dsimp only)) | split | (dsimp only; split) | (intro; intros)
    | (dsimp only [id]))

theorem State.beginsLast_within {l : List Area} {s₀ s : State} (h : s₀.Within l s) (x i ops act)
    (hact' : ∀ x0 x1, (s₀.Within l x1) → s₀.Within l (act x0 x1)) (hregs : Area.regs ∈ l := by assumption)
    (hctxs : Area.ctxs ∈ l := by assumption) (hports : Area.ports ∈ l := by assumption)
    (hout : Area.out ∈ l := by assumption) : s₀.Within l (State.beginsLast s x i ops act) := by
  unfold State.beginsLast
  (try dsimp only)
  repeat' (first
    | (with_reducible first
      | exact h | assumption | apply State.within_ite | apply hact' | apply State.begins_within)
    | split | (dsimp only; split) | (intro; intros))

theorem State.stagePage_within {l : List Area} {s₀ s : State} (h : s₀.Within l s) (x g page off b)
    (hregs : Area.regs ∈ l := by assumption) (hhbmc : Area.hbmc ∈ l := by assumption)
    (hctxs : Area.ctxs ∈ l := by assumption) (hhelm : Area.helm ∈ l := by assumption)
    (hfree : Area.free ∈ l := by assumption) : s₀.Within l (State.stagePage s x g page off b).1 := by
  unfold State.stagePage
  (try dsimp only)
  repeat' (first
    | (with_reducible first
      | exact h | assumption | apply State.WithinMk.of | exact Or.inl rfl | exact Or.inr (by assumption)
      | exact Or.inr ⟨by assumption, id⟩ | apply State.within_ite_fst | apply State.modGrp_within
      | apply State.hbmSeen_within)
    | (simp only [State.within_mk]; (try dsimp only)) | split | (dsimp only; split) | (intro; intros)
    | (dsimp only)
    | (dsimp only [id]))

theorem State.stageHbm_within {l : List Area} {s₀ s : State} (h : s₀.Within l s) (x q page off b)
    (hregs : Area.regs ∈ l := by assumption) (hhbmc : Area.hbmc ∈ l := by assumption)
    (hctxs : Area.ctxs ∈ l := by assumption) (hhelm : Area.helm ∈ l := by assumption)
    (hfree : Area.free ∈ l := by assumption) : s₀.Within l (State.stageHbm s x q page off b).1 := by
  unfold State.stageHbm
  (try dsimp only)
  repeat' (first
    | (with_reducible first
      | exact h | assumption | apply State.WithinMk.of | exact Or.inl rfl | exact Or.inr (by assumption)
      | exact Or.inr ⟨by assumption, id⟩ | apply State.within_ite | apply State.within_ite_fst
      | apply State.modGrp_within | apply State.bump_within | apply State.stagePage_within)
    | (simp only [State.within_mk]; (try dsimp only)) | split | (dsimp only; split) | (intro; intros)
    | (dsimp only)
    | (dsimp only [id]))

theorem State.putGrp_within {l : List Area} {s₀ s : State} (h : s₀.Within l s) (x old q) (ho : s₀.Within l old.1)
    (hctxs : Area.ctxs ∈ l := by assumption) : s₀.Within l (State.putGrp s x old q).1 := by
  unfold State.putGrp; split
  · exact ho
  · exact State.modGrp_within h _ _ _

theorem State.stage_within {l : List Area} {s₀ s : State} (h : s₀.Within l s) (x g m d a b)
    (hregs : Area.regs ∈ l := by assumption) (hhbmc : Area.hbmc ∈ l := by assumption)
    (hctxs : Area.ctxs ∈ l := by assumption) (hhelm : Area.helm ∈ l := by assumption)
    (hfree : Area.free ∈ l := by assumption) : s₀.Within l (State.stage s x g m d a b).1 := by
  unfold State.stage
  (try dsimp only)
  repeat' (first
    | (with_reducible first
      | exact h | assumption | apply State.within_ite | apply State.within_ite_fst | apply State.putGrp_within
      | apply State.stageHbm_within)
    | split | (dsimp only; split) | (intro; intros)
    | (dsimp only))

theorem State.stageSpan_within {l : List Area} {s₀ s : State} (h : s₀.Within l s) (x g m d a b)
    (hregs : Area.regs ∈ l := by assumption) (hhbmc : Area.hbmc ∈ l := by assumption)
    (hctxs : Area.ctxs ∈ l := by assumption) (hhelm : Area.helm ∈ l := by assumption)
    (hfree : Area.free ∈ l := by assumption) : s₀.Within l (State.stageSpan s x g m d a b).1 := by
  unfold State.stageSpan
  (try dsimp only)
  repeat' (first
    | (with_reducible first
      | exact h | assumption | apply State.within_ite | apply State.within_ite_fst | apply State.stage_within)
    | split | (dsimp only; split)
    | (dsimp only))

theorem State.stageAct_within {l : List Area} {s₀ s : State} (h : s₀.Within l s) (x g m d)
    (hctxs : Area.ctxs ∈ l := by assumption) : s₀.Within l (State.stageAct s x g m d).1 := by
  unfold State.stageAct
  (try dsimp only)
  repeat' (first
    | (with_reducible first
      | exact h | assumption | apply State.WithinMk.of | exact Or.inl rfl | exact Or.inr (by assumption)
      | exact Or.inr ⟨by assumption, id⟩ | apply State.within_ite | apply State.within_ite_fst
      | apply State.putGrp_within)
    | (simp only [State.within_mk]; (try dsimp only)) | split | (dsimp only; split) | (intro; intros)
    | (dsimp only))

theorem State.sendAll_within {l : List Area} {s₀ s : State} (h : s₀.Within l s) (w l')
    (hnet : Area.net ∈ l := by assumption) : s₀.Within l (State.sendAll s w l') := by
  unfold State.sendAll
  (try dsimp only)
  repeat' (first
    | (with_reducible first
      | exact h | assumption | apply State.within_foldl | apply State.within_foldl_fst | apply State.inject_within)
    | (intro; intros))

theorem State.engineRow_within {l : List Area} {s₀ s : State} (h : s₀.Within l s) (c r lost)
    (hcores : Area.cores ∈ l := by assumption) : s₀.Within l (State.engineRow s c r lost).1 := by
  unfold State.engineRow
  (try dsimp only)
  repeat' (first
    | (with_reducible first
      | exact h | assumption | apply State.within_ite | apply State.within_ite_fst | apply State.modCore_within)
    | split | (dsimp only; split) | (intro; intros)
    | (dsimp only))

theorem State.readUnits_within {l : List Area} {s₀ s : State} (h : s₀.Within l s) (x p0 p1 p2)
    (hregs : Area.regs ∈ l := by assumption) (hcores : Area.cores ∈ l := by assumption)
    (hnet : Area.net ∈ l := by assumption) (hhelm : Area.helm ∈ l := by assumption)
    (hvault : Area.vault ∈ l := by assumption) (hstart : Area.start ∈ l := by assumption) : s₀.Within l
    (State.readUnits s x p0 p1 p2).1 := by
  induction p0 generalizing s x p1 p2 with
  | nil =>
    unfold State.readUnits
    (try dsimp only)
    repeat' (first
      | (with_reducible first
        | exact h | assumption | apply State.within_ite | apply State.within_ite_fst | apply State.engineRow_within
        | apply State.readRow_within)
      | split | (dsimp only; split)
      | (dsimp only))
  | cons x xs ih =>
    unfold State.readUnits
    (try dsimp only)
    repeat' (first
      | (with_reducible first
        | exact h | assumption | apply ih | apply State.within_ite | apply State.within_ite_fst | apply State.engineRow_within
        | apply State.readRow_within)
      | split | (dsimp only; split)
      | (dsimp only))

theorem State.engineWrite_within {l : List Area} {s₀ s : State} (h : s₀.Within l s) (w c row data mask lost ecc)
    (hregs : Area.regs ∈ l := by assumption) (hcores : Area.cores ∈ l := by assumption)
    (hnet : Area.net ∈ l := by assumption) (hhelm : Area.helm ∈ l := by assumption)
    (hvault : Area.vault ∈ l := by assumption) (hstart : Area.start ∈ l := by assumption) : s₀.Within l
    (State.engineWrite s w c row data mask lost ecc).1 := by
  unfold State.engineWrite
  (try dsimp only)
  repeat' (first
    | (with_reducible first
      | exact h | assumption | apply State.within_ite | apply State.within_ite_fst | apply State.inject_within
      | apply State.engineRow_within | apply State.maskRow_within)
    | split | (dsimp only; split)
    | (dsimp only))

theorem State.rowBytes_within {l : List Area} {s₀ s : State} (h : s₀.Within l s) (x a n dev)
    (hregs : Area.regs ∈ l := by assumption) (hcores : Area.cores ∈ l := by assumption)
    (hnet : Area.net ∈ l := by assumption) (hhelm : Area.helm ∈ l := by assumption)
    (hvault : Area.vault ∈ l := by assumption) (hstart : Area.start ∈ l := by assumption) : s₀.Within l
    (State.rowBytes s x a n dev).1 := by
  unfold State.rowBytes
  (try dsimp only)
  repeat' (first
    | (with_reducible first
      | exact h | assumption | apply State.within_ite | apply State.within_ite_fst | apply State.readUnits_within)
    | split | (dsimp only; split) | (intro; intros)
    | (dsimp only))

theorem State.devBytes_within {l : List Area} {s₀ s : State} (h : s₀.Within l s) (x a n dev)
    (hregs : Area.regs ∈ l := by assumption) (hcores : Area.cores ∈ l := by assumption)
    (hnet : Area.net ∈ l := by assumption) (hhbmc : Area.hbmc ∈ l := by assumption)
    (hhelm : Area.helm ∈ l := by assumption) (hvault : Area.vault ∈ l := by assumption)
    (hstart : Area.start ∈ l := by assumption) (hfree : Area.free ∈ l := by assumption) : s₀.Within l
    (State.devBytes s x a n dev).1 := by
  unfold State.devBytes
  (try dsimp only)
  repeat' (first
    | (with_reducible first
      | exact h | assumption | apply State.within_ite | apply State.within_ite_fst | apply State.hbmSeen_within
      | apply State.rowBytes_within | apply State.bramSeen_within)
    | split | (dsimp only; split)
    | (dsimp only))

theorem State.fetchBytes_within {l : List Area} {s₀ s : State} (h : s₀.Within l s) (x d a n seen)
    (hregs : Area.regs ∈ l := by assumption) (hcores : Area.cores ∈ l := by assumption)
    (hnet : Area.net ∈ l := by assumption) (hhbmc : Area.hbmc ∈ l := by assumption)
    (hports : Area.ports ∈ l := by assumption) (hhelm : Area.helm ∈ l := by assumption)
    (hvault : Area.vault ∈ l := by assumption) (hstart : Area.start ∈ l := by assumption)
    (hfree : Area.free ∈ l := by assumption) : s₀.Within l (State.fetchBytes s x d a n seen).1 := by
  unfold State.fetchBytes
  (try dsimp only)
  repeat' (first
    | (with_reducible first
      | exact h | assumption | apply State.within_ite | apply State.within_ite_fst | apply State.badCompletion_within
      | apply State.devBytes_within)
    | split | (dsimp only; split) | (intro; intros)
    | (dsimp only))

theorem State.modCopy_within {l : List Area} {s₀ s : State} (h : s₀.Within l s) (x i f)
    (hctxs : Area.ctxs ∈ l := by assumption) : s₀.Within l (State.modCopy s x i f) := by
  unfold State.modCopy
  (try dsimp only)
  repeat' (first
    | (with_reducible first
      | exact h | assumption | apply State.WithinMk.of | exact Or.inl rfl | exact Or.inr (by assumption)
      | exact Or.inr ⟨by assumption, id⟩ | apply State.modCtx_within)
    | (simp only [State.within_mk]; (try dsimp only)) | (intro; intros)
    | (dsimp only [id]))

theorem State.notBegun_within {l : List Area} {s₀ s : State} (h : s₀.Within l s) (x i)
    (hctxs : Area.ctxs ∈ l := by assumption) : s₀.Within l (State.notBegun s x i) := by
  unfold State.notBegun
  (try dsimp only)
  repeat' (first
    | (with_reducible first
      | exact h | assumption | apply State.WithinMk.of | exact Or.inl rfl | exact Or.inr (by assumption)
      | exact Or.inr ⟨by assumption, id⟩ | apply State.modCopy_within)
    | (simp only [State.within_mk]; (try dsimp only)) | (intro; intros))

theorem State.withHost_within {l : List Area} {s₀ s : State} (h : s₀.Within l s) (x i a n pasid write again act)
    (hagain' : ∀ x0, (s₀.Within l x0) → s₀.Within l (again x0)) (hact' : ∀ x0, (s₀.Within l x0) → s₀.Within l (act x0))
    (hctxs : Area.ctxs ∈ l := by assumption) (hports : Area.ports ∈ l := by assumption)
    (hout : Area.out ∈ l := by assumption) : s₀.Within l (State.withHost s x i a n pasid write again act) := by
  unfold State.withHost
  (try dsimp only)
  repeat' (first
    | (with_reducible first
      | exact h | assumption | apply State.WithinMk.of | exact Or.inl rfl | exact Or.inr (by assumption)
      | exact Or.inr ⟨by assumption, id⟩ | apply State.within_ite | apply hagain' | apply hact'
      | apply State.modCopy_within | apply State.askTr_within | apply State.useTr_within)
    | (simp only [State.within_mk]; (try dsimp only)) | split | (dsimp only; split) | (intro; intros))

theorem State.withRead_within {l : List Area} {s₀ s : State} (h : s₀.Within l s) (x i d n again act)
    (hagain' : ∀ x0, (s₀.Within l x0) → s₀.Within l (again x0)) (hact' : ∀ x0, (s₀.Within l x0) → s₀.Within l (act x0))
    (hctxs : Area.ctxs ∈ l := by assumption) (hports : Area.ports ∈ l := by assumption)
    (hout : Area.out ∈ l := by assumption) : s₀.Within l (State.withRead s x i d n again act) := by
  unfold State.withRead
  (try dsimp only)
  repeat' (first
    | (with_reducible first
      | exact h | assumption | apply State.within_ite | apply hagain' | apply hact' | apply State.withHost_within)
    | split | (dsimp only; split) | (intro; intros))

theorem State.withBytes_within {l : List Area} {s₀ s : State} (h : s₀.Within l s) (x i d n seen again act)
    (hagain' : ∀ x0, (s₀.Within l x0) → s₀.Within l (again x0))
    (hact' : ∀ x0 x1 x2, (s₀.Within l x0) → s₀.Within l (act x0 x1 x2)) (hregs : Area.regs ∈ l := by assumption)
    (hcores : Area.cores ∈ l := by assumption) (hnet : Area.net ∈ l := by assumption)
    (hhbmc : Area.hbmc ∈ l := by assumption) (hctxs : Area.ctxs ∈ l := by assumption)
    (hports : Area.ports ∈ l := by assumption) (hhelm : Area.helm ∈ l := by assumption)
    (hvault : Area.vault ∈ l := by assumption) (hstart : Area.start ∈ l := by assumption)
    (hfree : Area.free ∈ l := by assumption) (hout : Area.out ∈ l := by assumption) : s₀.Within l
    (State.withBytes s x i d n seen again act) := by
  unfold State.withBytes
  (try dsimp only)
  repeat' (first
    | (with_reducible first
      | exact h | assumption | apply State.within_ite | apply State.within_ite_fst | apply hagain' | apply hact'
      | apply State.withRead_within | apply State.fetchBytes_within)
    | split | (dsimp only; split) | (intro; intros)
    | (dsimp only))

theorem State.unflag_within {l : List Area} {s₀ s : State} (h : s₀.Within l s) (p)
    (hcores : Area.cores ∈ l := by assumption) : s₀.Within l (State.unflag s p) := by
  unfold State.unflag
  (try dsimp only)
  repeat' (first
    | (with_reducible first
      | exact h | assumption | apply State.WithinMk.of | exact Or.inl rfl | exact Or.inr (by assumption)
      | exact Or.inr ⟨by assumption, id⟩)
    | (simp only [State.within_mk]; (try dsimp only)) | split | (dsimp only; split) | (intro; intros)
    | (dsimp only))

theorem State.redStat_within {l : List Area} {s₀ s : State} (h : s₀.Within l s) (die l')
    (hregs : Area.regs ∈ l := by assumption) : s₀.Within l (State.redStat s die l') := by
  unfold State.redStat
  (try dsimp only)
  repeat' (first
    | (with_reducible first
      | exact h | assumption | apply State.bumpN_within)
    | (intro; intros))

theorem State.modXfer_within {l : List Area} {s₀ s : State} (h : s₀.Within l s) (t' f)
    (hxfers : Area.xfers ∈ l := by assumption) : s₀.Within l (State.modXfer s t' f) := by
  unfold State.modXfer
  (try dsimp only)
  repeat' (first
    | (with_reducible first
      | exact h | assumption | apply State.WithinMk.of | exact Or.inl rfl | exact Or.inr (by assumption)
      | exact Or.inr ⟨by assumption, id⟩)
    | (simp only [State.within_mk]; (try dsimp only)) | (intro; intros)
    | (dsimp only [id]))

theorem State.startXfer_within {l : List Area} {s₀ s : State} (h : s₀.Within l s)
    (x role e src dst plan ix t0 deadline late grp) (hxfers : Area.xfers ∈ l := by assumption)
    (hnextId : Area.nextId ∈ l := by assumption) : s₀.Within l
    (State.startXfer s x role e src dst plan ix t0 deadline late grp) := by
  unfold State.startXfer
  (try dsimp only)
  repeat' (first
    | (with_reducible first
      | exact h | assumption | apply State.WithinMk.of | exact Or.inl rfl | exact Or.inr (by assumption)
      | exact Or.inr ⟨by assumption, id⟩)
    | (simp only [State.within_mk]; (try dsimp only))
    | (dsimp only)
    | (dsimp only [id]))

theorem State.writeTile_within {l : List Area} {s₀ s : State} (h : s₀.Within l s) (t' m b)
    (hnet : Area.net ∈ l := by assumption) (hxfers : Area.xfers ∈ l := by assumption) : s₀.Within l
    (State.writeTile s t' m b) := by
  unfold State.writeTile
  (try dsimp only)
  repeat' (first
    | (with_reducible first
      | exact h | assumption | apply State.WithinMk.of | exact Or.inl rfl | exact Or.inr (by assumption)
      | exact Or.inr ⟨by assumption, id⟩ | apply State.within_ite | apply State.modXfer_within
      | apply State.sendAll_within)
    | (simp only [State.within_mk]; (try dsimp only)) | split | (dsimp only; split) | (intro; intros)
    | (dsimp only [id]))

theorem State.writePiece_within {l : List Area} {s₀ s : State} (h : s₀.Within l s) (t' m b)
    (hregs : Area.regs ∈ l := by assumption) (hnet : Area.net ∈ l := by assumption)
    (hhbmc : Area.hbmc ∈ l := by assumption) (hxfers : Area.xfers ∈ l := by assumption)
    (hctxs : Area.ctxs ∈ l := by assumption) (hports : Area.ports ∈ l := by assumption)
    (hhelm : Area.helm ∈ l := by assumption) (hfree : Area.free ∈ l := by assumption)
    (hout : Area.out ∈ l := by assumption) : s₀.Within l (State.writePiece s t' m b) := by
  unfold State.writePiece
  (try dsimp only)
  repeat' (first
    | (with_reducible first
      | exact h | assumption | apply State.WithinMk.of | exact Or.inl rfl | exact Or.inr (by assumption)
      | exact Or.inr ⟨by assumption, id⟩ | apply State.within_ite | apply State.within_ite_fst
      | apply State.stage_within | apply State.modXfer_within | apply State.abortGrp_within
      | apply State.hostPut_within | apply State.writeTile_within | apply State.sendAll_within)
    | (simp only [State.within_mk]; (try dsimp only)) | split | (dsimp only; split) | (intro; intros)
    | (dsimp only)
    | (dsimp only [id]))

theorem State.putPiece_within {l : List Area} {s₀ s : State} (h : s₀.Within l s) (t' p b)
    (hregs : Area.regs ∈ l := by assumption) (hnet : Area.net ∈ l := by assumption)
    (hhbmc : Area.hbmc ∈ l := by assumption) (hxfers : Area.xfers ∈ l := by assumption)
    (hctxs : Area.ctxs ∈ l := by assumption) (hports : Area.ports ∈ l := by assumption)
    (hhelm : Area.helm ∈ l := by assumption) (hfree : Area.free ∈ l := by assumption)
    (hout : Area.out ∈ l := by assumption) : s₀.Within l (State.putPiece s t' p b) := by
  unfold State.putPiece
  (try dsimp only)
  repeat' (first
    | (with_reducible first
      | exact h | assumption | apply State.WithinMk.of | exact Or.inl rfl | exact Or.inr (by assumption)
      | exact Or.inr ⟨by assumption, id⟩ | apply State.modXfer_within | apply State.writePiece_within)
    | (simp only [State.within_mk]; (try dsimp only)) | split | (dsimp only; split) | (intro; intros)
    | (dsimp only [id]))

theorem State.drain_within {l : List Area} {s₀ s : State} (h : s₀.Within l s) (t' p0)
    (hregs : Area.regs ∈ l := by assumption) (hnet : Area.net ∈ l := by assumption)
    (hhbmc : Area.hbmc ∈ l := by assumption) (hxfers : Area.xfers ∈ l := by assumption)
    (hctxs : Area.ctxs ∈ l := by assumption) (hports : Area.ports ∈ l := by assumption)
    (hhelm : Area.helm ∈ l := by assumption) (hfree : Area.free ∈ l := by assumption)
    (hout : Area.out ∈ l := by assumption) : s₀.Within l (State.drain s t' p0) := by
  induction p0 generalizing s t' with
  | zero =>
    unfold State.drain
    (try dsimp only)
    repeat' (first
      | (with_reducible first
        | exact h | assumption | apply State.WithinMk.of | exact Or.inl rfl | exact Or.inr (by assumption)
        | exact Or.inr ⟨by assumption, id⟩ | apply State.within_ite | apply State.modXfer_within
        | apply State.putPiece_within)
      | (simp only [State.within_mk]; (try dsimp only)) | split | (dsimp only; split) | (intro; intros))
  | succ n ih =>
    unfold State.drain
    (try dsimp only)
    repeat' (first
      | (with_reducible first
        | exact h | assumption | apply ih | apply State.WithinMk.of | exact Or.inl rfl | exact Or.inr (by assumption)
        | exact Or.inr ⟨by assumption, id⟩ | apply State.within_ite | apply State.modXfer_within
        | apply State.putPiece_within)
      | (simp only [State.within_mk]; (try dsimp only)) | split | (dsimp only; split) | (intro; intros))

theorem State.reduced_within {l : List Area} {s₀ s : State} (h : s₀.Within l s) (t')
    (hregs : Area.regs ∈ l := by assumption) (hxfers : Area.xfers ∈ l := by assumption) : s₀.Within l (State.reduced s t')
    := by
  unfold State.reduced
  (try dsimp only)
  repeat' (first
    | (with_reducible first
      | exact h | assumption | apply State.WithinMk.of | exact Or.inl rfl | exact Or.inr (by assumption)
      | exact Or.inr ⟨by assumption, id⟩ | apply State.within_ite | apply State.within_ite_fst
      | apply State.modXfer_within | apply State.redStat_within)
    | (simp only [State.within_mk]; (try dsimp only)) | split | (dsimp only; split) | (intro; intros)
    | (dsimp only))

theorem State.askPage_within {l : List Area} {s₀ s : State} (h : s₀.Within l s) (x key page pasid write)
    (hregs : Area.regs ∈ l := by assumption) (hports : Area.ports ∈ l := by assumption)
    (hout : Area.out ∈ l := by assumption) : s₀.Within l (State.askPage s x key page pasid write) := by
  unfold State.askPage
  (try dsimp only)
  repeat' (first
    | (with_reducible first
      | exact h | assumption | apply State.WithinMk.of | exact Or.inl rfl | exact Or.inr (by assumption)
      | exact Or.inr ⟨by assumption, id⟩ | apply State.within_ite | apply State.modPort_within
      | apply State.bump_within | apply State.send_within)
    | (simp only [State.within_mk]; (try dsimp only)) | split | (dsimp only; split) | (intro; intros))

theorem State.priXfer_within {l : List Area} {s₀ s : State} (h : s₀.Within l s) (t')
    (hregs : Area.regs ∈ l := by assumption) (hxfers : Area.xfers ∈ l := by assumption)
    (hports : Area.ports ∈ l := by assumption) (hout : Area.out ∈ l := by assumption) : s₀.Within l (State.priXfer s t')
    := by
  unfold State.priXfer
  (try dsimp only)
  repeat' (first
    | (with_reducible first
      | exact h | assumption | apply State.WithinMk.of | exact Or.inl rfl | exact Or.inr (by assumption)
      | exact Or.inr ⟨by assumption, id⟩ | apply State.within_ite | apply State.askPage_within
      | apply State.modXfer_within)
    | (simp only [State.within_mk]; (try dsimp only)) | split | (dsimp only; split) | (intro; intros))

theorem State.priAll_within {l : List Area} {s₀ s : State} (h : s₀.Within l s) (hregs : Area.regs ∈ l := by assumption)
    (hxfers : Area.xfers ∈ l := by assumption) (hports : Area.ports ∈ l := by assumption)
    (hout : Area.out ∈ l := by assumption) : s₀.Within l (State.priAll s) := by
  unfold State.priAll
  (try dsimp only)
  repeat' (first
    | (with_reducible first
      | exact h | assumption | apply State.within_foldl | apply State.within_foldl_fst | apply State.priXfer_within)
    | (intro; intros)
    | (dsimp only [id]))

theorem State.failXfer_within {l : List Area} {s₀ s : State} (h : s₀.Within l s) (t' rank)
    (hregs : Area.regs ∈ l := by assumption) (hnet : Area.net ∈ l := by assumption)
    (hhbmc : Area.hbmc ∈ l := by assumption) (hxfers : Area.xfers ∈ l := by assumption)
    (hctxs : Area.ctxs ∈ l := by assumption) (hports : Area.ports ∈ l := by assumption)
    (hhelm : Area.helm ∈ l := by assumption) (hfree : Area.free ∈ l := by assumption)
    (hout : Area.out ∈ l := by assumption) : s₀.Within l (State.failXfer s t' rank) := by
  unfold State.failXfer
  (try dsimp only)
  repeat' (first
    | (with_reducible first
      | exact h | assumption | apply State.WithinMk.of | exact Or.inl rfl | exact Or.inr (by assumption)
      | exact Or.inr ⟨by assumption, id⟩ | apply State.modXfer_within | apply State.drain_within)
    | (simp only [State.within_mk]; (try dsimp only)) | split | (dsimp only; split) | (intro; intros))

theorem State.pageFault_within {l : List Area} {s₀ s : State} (h : s₀.Within l s) (t' page write)
    (hregs : Area.regs ∈ l := by assumption) (hnet : Area.net ∈ l := by assumption)
    (hhbmc : Area.hbmc ∈ l := by assumption) (hxfers : Area.xfers ∈ l := by assumption)
    (hctxs : Area.ctxs ∈ l := by assumption) (hports : Area.ports ∈ l := by assumption)
    (hhelm : Area.helm ∈ l := by assumption) (hfree : Area.free ∈ l := by assumption)
    (hout : Area.out ∈ l := by assumption) : s₀.Within l (State.pageFault s t' page write) := by
  unfold State.pageFault
  (try dsimp only)
  repeat' (first
    | (with_reducible first
      | exact h | assumption | apply State.WithinMk.of | exact Or.inl rfl | exact Or.inr (by assumption)
      | exact Or.inr ⟨by assumption, id⟩ | apply State.within_ite | apply State.failXfer_within
      | apply State.modXfer_within | apply State.priXfer_within)
    | (simp only [State.within_mk]; (try dsimp only)) | split | (dsimp only; split) | (intro; intros)
    | (dsimp only [id]))

theorem State.issuePiece_within {l : List Area} {s₀ s : State} (h : s₀.Within l s) (t' c)
    (hregs : Area.regs ∈ l := by assumption) (hnet : Area.net ∈ l := by assumption)
    (hhbmc : Area.hbmc ∈ l := by assumption) (hxfers : Area.xfers ∈ l := by assumption)
    (hnextId : Area.nextId ∈ l := by assumption) (hctxs : Area.ctxs ∈ l := by assumption)
    (hports : Area.ports ∈ l := by assumption) (hhelm : Area.helm ∈ l := by assumption)
    (hfree : Area.free ∈ l := by assumption) (hout : Area.out ∈ l := by assumption) : s₀.Within l
    (State.issuePiece s t' c) := by
  unfold State.issuePiece
  (try dsimp only)
  repeat' (first
    | (with_reducible first
      | exact h | assumption | apply State.WithinMk.of | exact Or.inl rfl | exact Or.inr (by assumption)
      | exact Or.inr ⟨by assumption, id⟩ | apply State.within_ite | apply State.within_ite_fst
      | apply State.modXfer_within | apply State.writePiece_within | apply State.hostGet_within
      | apply State.sendAll_within)
    | (simp only [State.within_mk]; (try dsimp only)) | split | (dsimp only; split) | (intro; intros)
    | (dsimp only)
    | (dsimp only [id]))

theorem State.postHost_within {l : List Area} {s₀ s : State} (h : s₀.Within l s) (g)
    (hctxs : Area.ctxs ∈ l := by assumption) (hports : Area.ports ∈ l := by assumption)
    (hout : Area.out ∈ l := by assumption) : s₀.Within l (State.postHost s g) := by
  unfold State.postHost
  (try dsimp only)
  repeat' (first
    | (with_reducible first
      | exact h | assumption | apply State.within_ite | apply State.askTr_within | apply State.modGrp_within
      | apply State.hostPut_within)
    | split | (dsimp only; split))

theorem State.grpFault_within {l : List Area} {s₀ s : State} (h : s₀.Within l s) (x q page ps)
    (hregs : Area.regs ∈ l := by assumption) (hctxs : Area.ctxs ∈ l := by assumption)
    (hports : Area.ports ∈ l := by assumption) (hout : Area.out ∈ l := by assumption) : s₀.Within l
    (State.grpFault s x q page ps) := by
  unfold State.grpFault
  (try dsimp only)
  repeat' (first
    | (with_reducible first
      | exact h | assumption | apply State.within_ite | apply State.modGrp_within | apply State.askPage_within)
    | split | (dsimp only; split)
    | (dsimp only [id]))

theorem State.grpFaults_within {l : List Area} {s₀ s : State} (h : s₀.Within l s) (p vf pg ps)
    (hregs : Area.regs ∈ l := by assumption) (hctxs : Area.ctxs ∈ l := by assumption)
    (hports : Area.ports ∈ l := by assumption) (hout : Area.out ∈ l := by assumption) : s₀.Within l
    (State.grpFaults s p vf pg ps) := by
  unfold State.grpFaults
  (try dsimp only)
  repeat' (first
    | (with_reducible first
      | exact h | assumption | apply State.within_ite | apply State.within_ite_fst | apply State.within_foldl
      | apply State.within_foldl_fst | apply State.grpFault_within)
    | split | (dsimp only; split) | (intro; intros)
    | (dsimp only))

theorem State.settle_within {l : List Area} {s₀ s : State} (h : s₀.Within l s) (t')
    (hregs : Area.regs ∈ l := by assumption) (hnet : Area.net ∈ l := by assumption)
    (hhbmc : Area.hbmc ∈ l := by assumption) (hxfers : Area.xfers ∈ l := by assumption)
    (hctxs : Area.ctxs ∈ l := by assumption) (hports : Area.ports ∈ l := by assumption)
    (hhelm : Area.helm ∈ l := by assumption) (hfree : Area.free ∈ l := by assumption)
    (hout : Area.out ∈ l := by assumption) : s₀.Within l (State.settle s t') := by
  unfold State.settle
  (try dsimp only)
  repeat' (first
    | (with_reducible first
      | exact h | assumption | apply State.drain_within | apply State.reduced_within | apply State.priXfer_within)
    | split | (dsimp only; split))

theorem State.issueAgain_within {l : List Area} {s₀ s : State} (h : s₀.Within l s) (t' w)
    (hxfers : Area.xfers ∈ l := by assumption) (hports : Area.ports ∈ l := by assumption)
    (hout : Area.out ∈ l := by assumption) : s₀.Within l (State.issueAgain s t' w) := by
  unfold State.issueAgain
  (try dsimp only)
  repeat' (first
    | (with_reducible first
      | exact h | assumption | apply State.WithinMk.of | exact Or.inl rfl | exact Or.inr (by assumption)
      | exact Or.inr ⟨by assumption, id⟩ | apply State.askTr_within | apply State.modXfer_within
      | apply State.hostPut_within)
    | (simp only [State.within_mk]; (try dsimp only)) | split | (dsimp only; split) | (intro; intros)
    | (dsimp only [id]))

theorem State.readAgain_within {l : List Area} {s₀ s : State} (h : s₀.Within l s) (t' p q)
    (hxfers : Area.xfers ∈ l := by assumption) (hports : Area.ports ∈ l := by assumption)
    (hout : Area.out ∈ l := by assumption) : s₀.Within l (State.readAgain s t' p q) := by
  unfold State.readAgain
  (try dsimp only)
  repeat' (first
    | (with_reducible first
      | exact h | assumption | apply State.WithinMk.of | exact Or.inl rfl | exact Or.inr (by assumption)
      | exact Or.inr ⟨by assumption, id⟩ | apply State.askTr_within | apply State.modXfer_within
      | apply State.hostGet_within)
    | (simp only [State.within_mk]; (try dsimp only)) | split | (dsimp only; split) | (intro; intros)
    | (dsimp only [id]))

theorem execPieceIssue_within {l : List Area} {s₀ s : State} (h : s₀.Within l s) (t') (t)
    (ht : execPieceIssue t' s = .next t) (hregs : Area.regs ∈ l := by assumption)
    (hcores : Area.cores ∈ l := by assumption) (hnet : Area.net ∈ l := by assumption)
    (hhbmc : Area.hbmc ∈ l := by assumption) (hxfers : Area.xfers ∈ l := by assumption)
    (hnextId : Area.nextId ∈ l := by assumption) (hctxs : Area.ctxs ∈ l := by assumption)
    (hports : Area.ports ∈ l := by assumption) (hhelm : Area.helm ∈ l := by assumption)
    (hvault : Area.vault ∈ l := by assumption) (hstart : Area.start ∈ l := by assumption)
    (hfree : Area.free ∈ l := by assumption) (hout : Area.out ∈ l := by assumption) : s₀.Within l t := by
  unfold execPieceIssue at ht
  (try dsimp only at ht)
  injection ht with ht
  subst ht
  repeat' (first
    | (with_reducible first
      | exact h | assumption | apply State.within_ite | apply State.within_ite_fst | apply State.postHost_within
      | apply State.modXfer_within | apply State.settle_within | apply State.again_within
      | apply State.issueAgain_within | apply State.readAgain_within | apply State.askTr_within
      | apply State.issuePiece_within)
    | split | (dsimp only; split) | (intro; intros)
    | (dsimp only))

theorem State.engineData_within {l : List Area} {s₀ s : State} (h : s₀.Within l s) (half eng p)
    (hregs : Area.regs ∈ l := by assumption) (hnet : Area.net ∈ l := by assumption)
    (hhbmc : Area.hbmc ∈ l := by assumption) (hxfers : Area.xfers ∈ l := by assumption)
    (hctxs : Area.ctxs ∈ l := by assumption) (hports : Area.ports ∈ l := by assumption)
    (hhelm : Area.helm ∈ l := by assumption) (hfree : Area.free ∈ l := by assumption)
    (hout : Area.out ∈ l := by assumption) : s₀.Within l (State.engineData s half eng p) := by
  unfold State.engineData
  (try dsimp only)
  repeat' (first
    | (with_reducible first
      | exact h | assumption | apply State.WithinMk.of | exact Or.inl rfl | exact Or.inr (by assumption)
      | exact Or.inr ⟨by assumption, id⟩ | apply State.within_ite | apply State.modXfer_within
      | apply State.settle_within)
    | (simp only [State.within_mk]; (try dsimp only)) | split | (dsimp only; split) | (intro; intros)
    | (dsimp only [id]))

theorem State.modPass_within {l : List Area} {s₀ s : State} (h : s₀.Within l s) (x id f)
    (hctxs : Area.ctxs ∈ l := by assumption) : s₀.Within l (State.modPass s x id f) := by
  unfold State.modPass
  (try dsimp only)
  repeat' (first
    | (with_reducible first
      | exact h | assumption | apply State.WithinMk.of | exact Or.inl rfl | exact Or.inr (by assumption)
      | exact Or.inr ⟨by assumption, id⟩ | apply State.modCtx_within)
    | (simp only [State.within_mk]; (try dsimp only)) | (intro; intros)
    | (dsimp only [id]))

theorem State.invalOne_within {l : List Area} {s₀ s : State} (h : s₀.Within l s) (p e)
    (hregs : Area.regs ∈ l := by assumption) (hports : Area.ports ∈ l := by assumption)
    (hout : Area.out ∈ l := by assumption) : s₀.Within l (State.invalOne s p e) := by
  unfold State.invalOne
  (try dsimp only)
  repeat' (first
    | (with_reducible first
      | exact h | assumption | apply State.WithinMk.of | exact Or.inl rfl | exact Or.inr (by assumption)
      | exact Or.inr ⟨by assumption, id⟩ | apply State.within_ite | apply State.within_ite_fst
      | apply State.modPort_within | apply State.send_within | apply State.bump_within)
    | (simp only [State.within_mk]; (try dsimp only)) | split | (dsimp only; split) | (intro; intros)
    | (dsimp only))

theorem State.invalsDone_within {l : List Area} {s₀ s : State} (h : s₀.Within l s) (p)
    (hregs : Area.regs ∈ l := by assumption) (hports : Area.ports ∈ l := by assumption)
    (hout : Area.out ∈ l := by assumption) : s₀.Within l (State.invalsDone s p) := by
  unfold State.invalsDone
  (try dsimp only)
  repeat' (first
    | (with_reducible first
      | exact h | assumption | apply State.within_foldl | apply State.within_foldl_fst | apply State.invalOne_within)
    | (intro; intros))

theorem execHostReadCompletion_within {l : List Area} {s₀ s : State} (h : s₀.Within l s) (port t' n data) (t)
    (ht : execHostReadCompletion port t' n data s = .next t) (hregs : Area.regs ∈ l := by assumption)
    (hnet : Area.net ∈ l := by assumption) (hhbmc : Area.hbmc ∈ l := by assumption)
    (hxfers : Area.xfers ∈ l := by assumption) (hctxs : Area.ctxs ∈ l := by assumption)
    (hports : Area.ports ∈ l := by assumption) (hhelm : Area.helm ∈ l := by assumption)
    (hfree : Area.free ∈ l := by assumption) (hout : Area.out ∈ l := by assumption) : s₀.Within l t := by
  unfold execHostReadCompletion at ht
  (try dsimp only at ht)
  injection ht with ht
  subst ht
  repeat' (first
    | (with_reducible first
      | exact h | assumption | apply State.WithinMk.of | exact Or.inl rfl | exact Or.inr (by assumption)
      | exact Or.inr ⟨by assumption, id⟩ | apply State.within_ite | apply State.badCompletion_within
      | apply State.modXfer_within | apply State.settle_within | apply State.invalsDone_within)
    | (simp only [State.within_mk]; (try dsimp only)) | split | (dsimp only; split) | (intro; intros))

theorem State.ackCtx_within {l : List Area} {s₀ s : State} (h : s₀.Within l s) (t')
    (hctxs : Area.ctxs ∈ l := by assumption) : s₀.Within l (State.ackCtx s t') := by
  unfold State.ackCtx
  (try dsimp only)
  repeat' (first
    | (with_reducible first
      | exact h | assumption | apply State.WithinMk.of | exact Or.inl rfl | exact Or.inr (by assumption)
      | exact Or.inr ⟨by assumption, id⟩ | apply State.within_ite | apply State.modCtx_within)
    | (simp only [State.within_mk]; (try dsimp only)) | split | (dsimp only; split) | (intro; intros))

theorem State.ackGrp_within {l : List Area} {s₀ s : State} (h : s₀.Within l s) (port t' n)
    (hctxs : Area.ctxs ∈ l := by assumption) : s₀.Within l (State.ackGrp s port t' n) := by
  unfold State.ackGrp
  (try dsimp only)
  repeat' (first
    | (with_reducible first
      | exact h | assumption | apply State.WithinMk.of | exact Or.inl rfl | exact Or.inr (by assumption)
      | exact Or.inr ⟨by assumption, id⟩ | apply State.within_ite | apply State.within_ite_fst)
    | (simp only [State.within_mk]; (try dsimp only)) | split | (dsimp only; split) | (intro; intros)
    | (dsimp only)
    | (dsimp only [id]))

theorem execHostWriteAck_within {l : List Area} {s₀ s : State} (h : s₀.Within l s) (port t' n) (t)
    (ht : execHostWriteAck port t' n s = .next t) (hregs : Area.regs ∈ l := by assumption)
    (hnet : Area.net ∈ l := by assumption) (hhbmc : Area.hbmc ∈ l := by assumption)
    (hxfers : Area.xfers ∈ l := by assumption) (hctxs : Area.ctxs ∈ l := by assumption)
    (hports : Area.ports ∈ l := by assumption) (hhelm : Area.helm ∈ l := by assumption)
    (hfree : Area.free ∈ l := by assumption) (hout : Area.out ∈ l := by assumption) : s₀.Within l t := by
  unfold execHostWriteAck at ht
  (try dsimp only at ht)
  injection ht with ht
  subst ht
  repeat' (first
    | (with_reducible first
      | exact h | assumption | apply State.WithinMk.of | exact Or.inl rfl | exact Or.inr (by assumption)
      | exact Or.inr ⟨by assumption, id⟩ | apply State.within_ite | apply State.modXfer_within
      | apply State.settle_within | apply State.invalsDone_within | apply State.modPort_within
      | apply State.ackCtx_within | apply State.ackGrp_within)
    | (simp only [State.within_mk]; (try dsimp only)) | split | (dsimp only; split) | (intro; intros))

theorem State.setTries_within {l : List Area} {s₀ s : State} (h : s₀.Within l s) (x sq n)
    (hctxs : Area.ctxs ∈ l := by assumption) : s₀.Within l (State.setTries s x sq n) := by
  unfold State.setTries
  (try dsimp only)
  repeat' (first
    | (with_reducible first
      | exact h | assumption | apply State.WithinMk.of | exact Or.inl rfl | exact Or.inr (by assumption)
      | exact Or.inr ⟨by assumption, id⟩ | apply State.within_ite | apply State.modCtx_within)
    | (simp only [State.within_mk]; (try dsimp only)) | split | (dsimp only; split) | (intro; intros))

theorem State.ringFails_within {l : List Area} {s₀ s : State} (h : s₀.Within l s) (x sq)
    (hregs : Area.regs ∈ l := by assumption) (hctxs : Area.ctxs ∈ l := by assumption)
    (hports : Area.ports ∈ l := by assumption) (hout : Area.out ∈ l := by assumption) : s₀.Within l
    (State.ringFails s x sq) := by
  unfold State.ringFails
  (try dsimp only)
  repeat' (first
    | (with_reducible first
      | exact h | assumption | apply State.WithinMk.of | exact Or.inl rfl | exact Or.inr (by assumption)
      | exact Or.inr ⟨by assumption, id⟩ | apply State.within_ite | apply State.ctxFault_within
      | apply State.setTries_within | apply State.modCtx_within)
    | (simp only [State.within_mk]; (try dsimp only)) | split | (dsimp only; split) | (intro; intros))

theorem State.ringFault_within {l : List Area} {s₀ s : State} (h : s₀.Within l s) (x sq page)
    (hregs : Area.regs ∈ l := by assumption) (hctxs : Area.ctxs ∈ l := by assumption)
    (hports : Area.ports ∈ l := by assumption) (hout : Area.out ∈ l := by assumption) : s₀.Within l
    (State.ringFault s x sq page) := by
  unfold State.ringFault
  (try dsimp only)
  repeat' (first
    | (with_reducible first
      | exact h | assumption | apply State.within_ite | apply State.ringFails_within | apply State.askPage_within)
    | split | (dsimp only; split))

theorem State.ringFaults_within {l : List Area} {s₀ s : State} (h : s₀.Within l s) (p vf page pasid)
    (hregs : Area.regs ∈ l := by assumption) (hctxs : Area.ctxs ∈ l := by assumption)
    (hports : Area.ports ∈ l := by assumption) (hout : Area.out ∈ l := by assumption) : s₀.Within l
    (State.ringFaults s p vf page pasid) := by
  unfold State.ringFaults
  (try dsimp only)
  repeat' (first
    | (with_reducible first
      | exact h | assumption | apply State.within_ite | apply State.within_ite_fst | apply State.within_foldl
      | apply State.within_foldl_fst | apply State.ringFault_within)
    | split | (dsimp only; split) | (intro; intros)
    | (dsimp only))

theorem State.copyFails_within {l : List Area} {s₀ s : State} (h : s₀.Within l s) (x i)
    (hregs : Area.regs ∈ l := by assumption) (hctxs : Area.ctxs ∈ l := by assumption)
    (hports : Area.ports ∈ l := by assumption) (hout : Area.out ∈ l := by assumption) : s₀.Within l
    (State.copyFails s x i) := by
  unfold State.copyFails
  (try dsimp only)
  repeat' (first
    | (with_reducible first
      | exact h | assumption | apply State.WithinMk.of | exact Or.inl rfl | exact Or.inr (by assumption)
      | exact Or.inr ⟨by assumption, id⟩ | apply State.within_ite | apply State.modCopy_within
      | apply State.modGrp_within | apply State.bump_within | apply State.complete_within)
    | (simp only [State.within_mk]; (try dsimp only)) | split | (dsimp only; split) | (intro; intros))

theorem State.copyFault_within {l : List Area} {s₀ s : State} (h : s₀.Within l s) (x c page write ps)
    (hregs : Area.regs ∈ l := by assumption) (hctxs : Area.ctxs ∈ l := by assumption)
    (hports : Area.ports ∈ l := by assumption) (hout : Area.out ∈ l := by assumption) : s₀.Within l
    (State.copyFault s x c page write ps) := by
  unfold State.copyFault
  (try dsimp only)
  repeat' (first
    | (with_reducible first
      | exact h | assumption | apply State.within_ite | apply State.copyFails_within | apply State.askPage_within)
    | split | (dsimp only; split)
    | (dsimp only [id]))

theorem State.copyFaults_within {l : List Area} {s₀ s : State} (h : s₀.Within l s) (p vf pg ps)
    (hregs : Area.regs ∈ l := by assumption) (hctxs : Area.ctxs ∈ l := by assumption)
    (hports : Area.ports ∈ l := by assumption) (hout : Area.out ∈ l := by assumption) : s₀.Within l
    (State.copyFaults s p vf pg ps) := by
  unfold State.copyFaults
  (try dsimp only)
  repeat' (first
    | (with_reducible first
      | exact h | assumption | apply State.within_ite | apply State.within_ite_fst | apply State.within_foldl
      | apply State.within_foldl_fst | apply State.copyFault_within)
    | split | (dsimp only; split) | (intro; intros)
    | (dsimp only))

theorem State.flushAll_within {l : List Area} {s₀ s : State} (h : s₀.Within l s) (hregs : Area.regs ∈ l := by assumption)
    (hctxs : Area.ctxs ∈ l := by assumption) (hports : Area.ports ∈ l := by assumption)
    (hout : Area.out ∈ l := by assumption) : s₀.Within l (State.flushAll s) := by
  unfold State.flushAll
  (try dsimp only)
  repeat' (first
    | (with_reducible first
      | exact h | assumption | apply State.within_foldl | apply State.within_foldl_fst | apply State.cqGo_within)
    | (intro; intros)
    | (dsimp only))

theorem execAtsTranslationCompletion_within {l : List Area} {s₀ s : State} (h : s₀.Within l s) (fn page pasid r w) (t)
    (ht : execAtsTranslationCompletion fn page pasid r w s = .next t) (hregs : Area.regs ∈ l := by assumption)
    (hnet : Area.net ∈ l := by assumption) (hhbmc : Area.hbmc ∈ l := by assumption)
    (hxfers : Area.xfers ∈ l := by assumption) (hctxs : Area.ctxs ∈ l := by assumption)
    (hports : Area.ports ∈ l := by assumption) (hhelm : Area.helm ∈ l := by assumption)
    (hfree : Area.free ∈ l := by assumption) (hout : Area.out ∈ l := by assumption) : s₀.Within l t := by
  unfold execAtsTranslationCompletion at ht
  (try dsimp only at ht)
  injection ht with ht
  subst ht
  repeat' (first
    | (with_reducible first
      | exact h | assumption | apply State.WithinMk.of | exact Or.inl rfl | exact Or.inr (by assumption)
      | exact Or.inr ⟨by assumption, id⟩ | apply State.within_ite | apply State.within_foldl
      | apply State.within_foldl_fst | apply State.modPort_within | apply State.pageFault_within
      | apply State.grpFaults_within | apply State.copyFaults_within | apply State.ringFaults_within
      | apply State.flushAll_within)
    | (simp only [State.within_mk]; (try dsimp only)) | split | (dsimp only; split) | (intro; intros))

theorem State.ringResponse_within {l : List Area} {s₀ s : State} (h : s₀.Within l s) (key ok)
    (hregs : Area.regs ∈ l := by assumption) (hctxs : Area.ctxs ∈ l := by assumption)
    (hports : Area.ports ∈ l := by assumption) (hout : Area.out ∈ l := by assumption) : s₀.Within l
    (State.ringResponse s key ok) := by
  unfold State.ringResponse
  (try dsimp only)
  repeat' (first
    | (with_reducible first
      | exact h | assumption | apply State.within_ite | apply State.setTries_within | apply State.cqGo_within
      | apply State.ringFails_within)
    | split | (dsimp only; split))

theorem State.workResponse_within {l : List Area} {s₀ s : State} (h : s₀.Within l s) (t' ok)
    (hregs : Area.regs ∈ l := by assumption) (hnet : Area.net ∈ l := by assumption)
    (hhbmc : Area.hbmc ∈ l := by assumption) (hxfers : Area.xfers ∈ l := by assumption)
    (hctxs : Area.ctxs ∈ l := by assumption) (hports : Area.ports ∈ l := by assumption)
    (hhelm : Area.helm ∈ l := by assumption) (hfree : Area.free ∈ l := by assumption)
    (hout : Area.out ∈ l := by assumption) : s₀.Within l (State.workResponse s t' ok) := by
  unfold State.workResponse
  (try dsimp only)
  repeat' (first
    | (with_reducible first
      | exact h | assumption | apply State.WithinMk.of | exact Or.inl rfl | exact Or.inr (by assumption)
      | exact Or.inr ⟨by assumption, id⟩ | apply State.within_ite | apply State.modXfer_within
      | apply State.failXfer_within | apply State.modGrp_within | apply State.modCopy_within
      | apply State.copyFails_within)
    | (simp only [State.within_mk]; (try dsimp only)) | split | (dsimp only; split) | (intro; intros))

theorem State.pageEnds_within {l : List Area} {s₀ s : State} (h : s₀.Within l s) (p t' ok)
    (hregs : Area.regs ∈ l := by assumption) (hnet : Area.net ∈ l := by assumption)
    (hhbmc : Area.hbmc ∈ l := by assumption) (hxfers : Area.xfers ∈ l := by assumption)
    (hctxs : Area.ctxs ∈ l := by assumption) (hports : Area.ports ∈ l := by assumption)
    (hhelm : Area.helm ∈ l := by assumption) (hfree : Area.free ∈ l := by assumption)
    (hout : Area.out ∈ l := by assumption) : s₀.Within l (State.pageEnds s p t' ok) := by
  unfold State.pageEnds
  (try dsimp only)
  repeat' (first
    | (with_reducible first
      | exact h | assumption | apply State.WithinMk.of | exact Or.inl rfl | exact Or.inr (by assumption)
      | exact Or.inr ⟨by assumption, id⟩ | apply State.within_ite | apply State.modPort_within
      | apply State.ringResponse_within | apply State.workResponse_within | apply State.priAll_within)
    | (simp only [State.within_mk]; (try dsimp only)) | split | (dsimp only; split) | (intro; intros))

theorem execPageResponse_within {l : List Area} {s₀ s : State} (h : s₀.Within l s) (port t' code) (t)
    (ht : execPageResponse port t' code s = .next t) (hregs : Area.regs ∈ l := by assumption)
    (hnet : Area.net ∈ l := by assumption) (hhbmc : Area.hbmc ∈ l := by assumption)
    (hxfers : Area.xfers ∈ l := by assumption) (hctxs : Area.ctxs ∈ l := by assumption)
    (hports : Area.ports ∈ l := by assumption) (hhelm : Area.helm ∈ l := by assumption)
    (hfree : Area.free ∈ l := by assumption) (hout : Area.out ∈ l := by assumption) : s₀.Within l t := by
  unfold execPageResponse at ht
  (try dsimp only at ht)
  injection ht with ht
  subst ht
  repeat' (first
    | (with_reducible first
      | exact h | assumption | apply State.within_ite | apply State.pageEnds_within)
    | split | (dsimp only; split))

theorem execPageResponseTimeout_within {l : List Area} {s₀ s : State} (h : s₀.Within l s) (port t') (t)
    (ht : execPageResponseTimeout port t' s = .next t) (hregs : Area.regs ∈ l := by assumption)
    (hnet : Area.net ∈ l := by assumption) (hhbmc : Area.hbmc ∈ l := by assumption)
    (hxfers : Area.xfers ∈ l := by assumption) (hctxs : Area.ctxs ∈ l := by assumption)
    (hports : Area.ports ∈ l := by assumption) (hhelm : Area.helm ∈ l := by assumption)
    (hfree : Area.free ∈ l := by assumption) (hout : Area.out ∈ l := by assumption) : s₀.Within l t := by
  unfold execPageResponseTimeout at ht
  (try dsimp only at ht)
  injection ht with ht
  subst ht
  repeat' (first
    | (with_reducible first
      | exact h | assumption | apply State.within_ite | apply State.pageEnds_within)
    | split | (dsimp only; split) | (intro; intros))

theorem execAtsInvalidation_within {l : List Area} {s₀ s : State} (h : s₀.Within l s) (fn page pasid) (t)
    (ht : execAtsInvalidation fn page pasid s = .next t) (hregs : Area.regs ∈ l := by assumption)
    (hports : Area.ports ∈ l := by assumption) (hout : Area.out ∈ l := by assumption) : s₀.Within l t := by
  unfold execAtsInvalidation at ht
  (try dsimp only at ht)
  injection ht with ht
  subst ht
  repeat' (first
    | (with_reducible first
      | exact h | assumption | apply State.WithinMk.of | exact Or.inl rfl | exact Or.inr (by assumption)
      | exact Or.inr ⟨by assumption, id⟩ | apply State.within_ite | apply State.modPort_within
      | apply State.invalsDone_within)
    | (simp only [State.within_mk]; (try dsimp only)) | split | (dsimp only; split) | (intro; intros))

theorem State.armDone_within {l : List Area} {s₀ s : State} (h : s₀.Within l s) (x tid id k seq flags status)
    (hregs : Area.regs ∈ l := by assumption) (hctxs : Area.ctxs ∈ l := by assumption)
    (hports : Area.ports ∈ l := by assumption) (hout : Area.out ∈ l := by assumption) : s₀.Within l
    (State.armDone s x tid id k seq flags status) := by
  unfold State.armDone
  (try dsimp only)
  repeat' (first
    | (with_reducible first
      | exact h | assumption | apply State.WithinMk.of | exact Or.inl rfl | exact Or.inr (by assumption)
      | exact Or.inr ⟨by assumption, id⟩ | apply State.within_ite | apply State.within_ite_fst
      | apply State.modCtx_within | apply State.cqeDue_within)
    | (simp only [State.within_mk]; (try dsimp only)) | split | (dsimp only; split) | (intro; intros)
    | (dsimp only)
    | (dsimp only [id]))

theorem State.finishXfer_within {l : List Area} {s₀ s : State} (h : s₀.Within l s) (t')
    (hregs : Area.regs ∈ l := by assumption) (hxfers : Area.xfers ∈ l := by assumption)
    (hctxs : Area.ctxs ∈ l := by assumption) (hports : Area.ports ∈ l := by assumption)
    (hout : Area.out ∈ l := by assumption) : s₀.Within l (State.finishXfer s t') := by
  unfold State.finishXfer
  (try dsimp only)
  repeat' (first
    | (with_reducible first
      | exact h | assumption | apply State.WithinMk.of | exact Or.inl rfl | exact Or.inr (by assumption)
      | exact Or.inr ⟨by assumption, id⟩ | apply State.within_ite | apply State.lateness_within
      | apply State.bump_within | apply State.complete_within | apply State.armDone_within | apply State.modGrp_within)
    | (simp only [State.within_mk]; (try dsimp only)) | split | (dsimp only; split) | (intro; intros)
    | (dsimp only [id]))

theorem State.missXfer_within {l : List Area} {s₀ s : State} (h : s₀.Within l s) (t')
    (hregs : Area.regs ∈ l := by assumption) (hxfers : Area.xfers ∈ l := by assumption)
    (hctxs : Area.ctxs ∈ l := by assumption) (hports : Area.ports ∈ l := by assumption)
    (hout : Area.out ∈ l := by assumption) : s₀.Within l (State.missXfer s t') := by
  unfold State.missXfer
  (try dsimp only)
  repeat' (first
    | (with_reducible first
      | exact h | assumption | apply State.WithinMk.of | exact Or.inl rfl | exact Or.inr (by assumption)
      | exact Or.inr ⟨by assumption, id⟩ | apply State.within_ite | apply State.modXfer_within
      | apply State.missed_within)
    | (simp only [State.within_mk]; (try dsimp only)) | split | (dsimp only; split) | (intro; intros)
    | (dsimp only [id]))

theorem execDeadlineMiss_within {l : List Area} {s₀ s : State} (h : s₀.Within l s) (t') (t)
    (ht : execDeadlineMiss t' s = .next t) (hregs : Area.regs ∈ l := by assumption)
    (hxfers : Area.xfers ∈ l := by assumption) (hctxs : Area.ctxs ∈ l := by assumption)
    (hports : Area.ports ∈ l := by assumption) (hout : Area.out ∈ l := by assumption) : s₀.Within l t := by
  unfold execDeadlineMiss at ht
  (try dsimp only at ht)
  injection ht with ht
  subst ht
  repeat' (first
    | (with_reducible first
      | exact h | assumption | apply State.WithinMk.of | exact Or.inl rfl | exact Or.inr (by assumption)
      | exact Or.inr ⟨by assumption, id⟩ | apply State.within_ite | apply State.missXfer_within
      | apply State.modPass_within | apply State.missed_within | apply State.missCopy_within)
    | (simp only [State.within_mk]; (try dsimp only)) | split | (dsimp only; split) | (intro; intros))

theorem State.unclaim_within {l : List Area} {s₀ s : State} (h : s₀.Within l s) (die p)
    (hregs : Area.regs ∈ l := by assumption) (hhelm : Area.helm ∈ l := by assumption) : s₀.Within l
    (State.unclaim s die p) := by
  unfold State.unclaim
  (try dsimp only)
  repeat' (first
    | (with_reducible first
      | exact h | assumption | apply State.WithinMk.of | exact Or.inl rfl | exact Or.inr (by assumption)
      | exact Or.inr ⟨by assumption, id⟩ | apply State.within_foldl | apply State.within_foldl_fst
      | apply State.setReg_within)
    | (simp only [State.within_mk]; (try dsimp only)) | (intro; intros)
    | (dsimp only))

theorem State.resetProc_within {l : List Area} {s₀ s : State} (h : s₀.Within l s) (die p)
    (hregs : Area.regs ∈ l := by assumption) (hhelm : Area.helm ∈ l := by assumption)
    (hmodule : Area.module ∈ l := by assumption) : s₀.Within l (State.resetProc s die p) := by
  unfold State.resetProc
  (try dsimp only)
  repeat' (first
    | (with_reducible first
      | exact h | assumption | apply State.WithinMk.of | exact Or.inl rfl | exact Or.inr (by assumption)
      | exact Or.inr ⟨by assumption, id⟩ | apply State.within_ite | apply State.within_foldl
      | apply State.within_foldl_fst | apply State.setReg_within | apply State.bump_within
      | apply State.unclaim_within | apply State.raise_within)
    | (simp only [State.within_mk]; (try dsimp only)) | split | (dsimp only; split) | (intro; intros))

theorem execWatchdogKick_within {l : List Area} {s₀ s : State} (h : s₀.Within l s) (die proc value) (t)
    (ht : execWatchdogKick die proc value s = .next t) (hregs : Area.regs ∈ l := by assumption)
    (hports : Area.ports ∈ l := by assumption) (hhelm : Area.helm ∈ l := by assumption)
    (hout : Area.out ∈ l := by assumption) : s₀.Within l t := by
  unfold execWatchdogKick at ht
  (try dsimp only at ht)
  injection ht with ht
  subst ht
  repeat' (first
    | (with_reducible first
      | exact h | assumption | apply State.WithinMk.of | exact Or.inl rfl | exact Or.inr (by assumption)
      | exact Or.inr ⟨by assumption, id⟩ | apply State.within_ite | apply State.writeAs_within
      | apply State.setReg_within)
    | (simp only [State.within_mk]; (try dsimp only)) | split | (dsimp only; split) | (intro; intros))

theorem execWatchdogWarning_within {l : List Area} {s₀ s : State} (h : s₀.Within l s) (die proc) (t)
    (ht : execWatchdogWarning die proc s = .next t) (hregs : Area.regs ∈ l := by assumption)
    (hhelm : Area.helm ∈ l := by assumption) : s₀.Within l t := by
  unfold execWatchdogWarning at ht
  (try dsimp only at ht)
  injection ht with ht
  subst ht
  repeat' (first
    | (with_reducible first
      | exact h | assumption | apply State.WithinMk.of | exact Or.inl rfl | exact Or.inr (by assumption)
      | exact Or.inr ⟨by assumption, id⟩ | apply State.within_ite | apply State.raisePriv_within)
    | (simp only [State.within_mk]; (try dsimp only)) | split | (dsimp only; split))

theorem execWatchdogExpire_within {l : List Area} {s₀ s : State} (h : s₀.Within l s) (die proc) (t)
    (ht : execWatchdogExpire die proc s = .next t) (hregs : Area.regs ∈ l := by assumption)
    (hhelm : Area.helm ∈ l := by assumption) (hmodule : Area.module ∈ l := by assumption) : s₀.Within l t := by
  unfold execWatchdogExpire at ht
  (try dsimp only at ht)
  injection ht with ht
  subst ht
  repeat' (first
    | (with_reducible first
      | exact h | assumption | apply State.within_ite | apply State.resetProc_within)
    | split | (dsimp only; split))

theorem execCrossCheck_within {l : List Area} {s₀ s : State} (h : s₀.Within l s) (die proc act agree) (t)
    (ht : execCrossCheck die proc act agree s = .next t) (hregs : Area.regs ∈ l := by assumption)
    (hhelm : Area.helm ∈ l := by assumption) (hmodule : Area.module ∈ l := by assumption) : s₀.Within l t := by
  unfold execCrossCheck at ht
  (try dsimp only at ht)
  injection ht with ht
  subst ht
  repeat' (first
    | (with_reducible first
      | exact h | assumption | apply State.WithinMk.of | exact Or.inl rfl | exact Or.inr (by assumption)
      | exact Or.inr ⟨by assumption, id⟩ | apply State.within_ite | apply State.bump_within
      | apply State.resetProc_within)
    | (simp only [State.within_mk]; (try dsimp only)) | split | (dsimp only; split) | (intro; intros))

theorem execHelmTimerExpire_within {l : List Area} {s₀ s : State} (h : s₀.Within l s) (die proc) (t)
    (ht : execHelmTimerExpire die proc s = .next t) (hregs : Area.regs ∈ l := by assumption)
    (hhelm : Area.helm ∈ l := by assumption) : s₀.Within l t := by
  unfold execHelmTimerExpire at ht
  (try dsimp only at ht)
  injection ht with ht
  subst ht
  repeat' (first
    | (with_reducible first
      | exact h | assumption | apply State.within_ite | apply State.raisePriv_within)
    | split | (dsimp only; split))

theorem State.advanceHead_within {l : List Area} {s₀ s : State} (h : s₀.Within l s) (x)
    (hregs : Area.regs ∈ l := by assumption) : s₀.Within l (State.advanceHead s x) := by
  unfold State.advanceHead
  (try dsimp only)
  repeat' (first
    | (with_reducible first
      | exact h | assumption | apply State.within_ite | apply State.setReg_within | apply State.wrapInc_within)
    | split | (dsimp only; split))

theorem State.keepCopy_within {l : List Area} {s₀ s : State} (h : s₀.Within l s) (x i d grp)
    (hctxs : Area.ctxs ∈ l := by assumption) : s₀.Within l (State.keepCopy s x i d grp) := by
  unfold State.keepCopy
  (try dsimp only)
  repeat' (first
    | (with_reducible first
      | exact h | assumption | apply State.WithinMk.of | exact Or.inl rfl | exact Or.inr (by assumption)
      | exact Or.inr ⟨by assumption, id⟩ | apply State.within_ite | apply State.modCtx_within)
    | (simp only [State.within_mk]; (try dsimp only)) | split | (dsimp only; split) | (intro; intros)
    | (dsimp only [id]))

theorem State.takeSlot_within {l : List Area} {s₀ s : State} (h : s₀.Within l s) (x d)
    (hregs : Area.regs ∈ l := by assumption) (hnextId : Area.nextId ∈ l := by assumption)
    (hctxs : Area.ctxs ∈ l := by assumption) (hports : Area.ports ∈ l := by assumption)
    (hout : Area.out ∈ l := by assumption) : s₀.Within l (State.takeSlot s x d) := by
  unfold State.takeSlot
  (try dsimp only)
  repeat' (first
    | (with_reducible first
      | exact h | assumption | apply State.WithinMk.of | exact Or.inl rfl | exact Or.inr (by assumption)
      | exact Or.inr ⟨by assumption, id⟩ | apply State.within_ite | apply State.advanceHead_within
      | apply State.keepCopy_within | apply State.modGrp_within | apply State.complete_within
      | apply State.modCtx_within | apply State.abortGrp_within)
    | (simp only [State.within_mk]; (try dsimp only)) | split | (dsimp only; split) | (intro; intros)
    | (dsimp only [id]))

theorem State.fetch_within {l : List Area} {s₀ s : State} (h : s₀.Within l s) (x slot)
    (hregs : Area.regs ∈ l := by assumption) (hnextId : Area.nextId ∈ l := by assumption)
    (hctxs : Area.ctxs ∈ l := by assumption) (hports : Area.ports ∈ l := by assumption)
    (hout : Area.out ∈ l := by assumption) : s₀.Within l (State.fetch s x slot) := by
  unfold State.fetch
  (try dsimp only)
  repeat' (first
    | (with_reducible first
      | exact h | assumption | apply State.WithinMk.of | exact Or.inl rfl | exact Or.inr (by assumption)
      | exact Or.inr ⟨by assumption, id⟩ | apply State.within_ite | apply State.askTr_within
      | apply State.useTr_within | apply State.setTries_within | apply State.badCompletion_within
      | apply State.ctxFault_within | apply State.bump_within | apply State.event_within | apply State.modCtx_within
      | apply State.takeSlot_within | apply State.markElig_within)
    | (simp only [State.within_mk]; (try dsimp only)) | split | (dsimp only; split) | (intro; intros))

theorem execDescriptorFetch_within {l : List Area} {s₀ s : State} (h : s₀.Within l s) (x slot) (t)
    (ht : execDescriptorFetch x slot s = .next t) (hregs : Area.regs ∈ l := by assumption)
    (hnextId : Area.nextId ∈ l := by assumption) (hctxs : Area.ctxs ∈ l := by assumption)
    (hports : Area.ports ∈ l := by assumption) (hout : Area.out ∈ l := by assumption) : s₀.Within l t := by
  unfold execDescriptorFetch at ht
  (try dsimp only at ht)
  injection ht with ht
  subst ht
  repeat' (with_reducible first
      | exact h | assumption | apply State.fetch_within)

theorem execRingPoll_within {l : List Area} {s₀ s : State} (h : s₀.Within l s) (x slot) (t)
    (ht : execRingPoll x slot s = .next t) (hregs : Area.regs ∈ l := by assumption)
    (hnextId : Area.nextId ∈ l := by assumption) (hctxs : Area.ctxs ∈ l := by assumption)
    (hports : Area.ports ∈ l := by assumption) (hout : Area.out ∈ l := by assumption) : s₀.Within l t := by
  unfold execRingPoll at ht
  (try dsimp only at ht)
  injection ht with ht
  subst ht
  repeat' (first
    | (with_reducible first
      | exact h | assumption | apply State.WithinMk.of | exact Or.inl rfl | exact Or.inr (by assumption)
      | exact Or.inr ⟨by assumption, id⟩ | apply State.within_ite | apply State.modCtx_within
      | apply State.fetch_within)
    | (simp only [State.within_mk]; (try dsimp only)) | split | (dsimp only; split) | (intro; intros))

theorem State.onPage_within {l : List Area} {s₀ s : State} (h : s₀.Within l s) (via x act denied)
    (hact' : ∀ x0, (s₀.Within l x0) → s₀.Within l (act x0)) (hdenied' : ∀ x0, (s₀.Within l x0) → s₀.Within l (denied x0))
    (hregs : Area.regs ∈ l := by assumption) (hports : Area.ports ∈ l := by assumption)
    (hout : Area.out ∈ l := by assumption) : s₀.Within l (State.onPage s via x act denied) := by
  unfold State.onPage
  (try dsimp only)
  repeat' (first
    | (with_reducible first
      | exact h | assumption | apply State.within_ite | apply hact' | apply hdenied' | apply State.violation_within
      | apply State.unsupported_within)
    | split | (dsimp only; split) | (intro; intros))

theorem State.doorbellPage_within {l : List Area} {s₀ s : State} (h : s₀.Within l s) (via x act) (ha : ∀ t, s₀.Within l t → s₀.Within l (act t)) (hregs : Area.regs ∈ l := by assumption) (hports : Area.ports ∈ l := by assumption) (hout : Area.out ∈ l := by assumption) :
    s₀.Within l (State.doorbellPage s via x act) := State.onPage_within h via x act id ha fun _ k => k

theorem execSqTail_within {l : List Area} {s₀ s : State} (h : s₀.Within l s) (via x value) (t)
    (ht : execSqTail via x value s = .next t) (hregs : Area.regs ∈ l := by assumption)
    (hctxs : Area.ctxs ∈ l := by assumption) (hports : Area.ports ∈ l := by assumption)
    (hout : Area.out ∈ l := by assumption) : s₀.Within l t := by
  unfold execSqTail at ht
  (try dsimp only at ht)
  injection ht with ht
  subst ht
  repeat' (first
    | (with_reducible first
      | exact h | assumption | apply State.WithinMk.of | exact Or.inl rfl | exact Or.inr (by assumption)
      | exact Or.inr ⟨by assumption, id⟩ | apply State.doorbellPage_within | apply State.modCtx_within)
    | (simp only [State.within_mk]; (try dsimp only)) | (intro; intros))

theorem execEventAck_within {l : List Area} {s₀ s : State} (h : s₀.Within l s) (via x value) (t)
    (ht : execEventAck via x value s = .next t) (hregs : Area.regs ∈ l := by assumption)
    (hports : Area.ports ∈ l := by assumption) (hout : Area.out ∈ l := by assumption) : s₀.Within l t := by
  unfold execEventAck at ht
  (try dsimp only at ht)
  injection ht with ht
  subst ht
  repeat' (first
    | (with_reducible first
      | exact h | assumption | apply State.within_ite | apply State.doorbellPage_within | apply State.setReg_within)
    | split | (dsimp only; split) | (intro; intros))

theorem State.setStream_within {l : List Area} {s₀ s : State} (h : s₀.Within l s) (x n q)
    (hctxs : Area.ctxs ∈ l := by assumption) : s₀.Within l (State.setStream s x n q) := by
  unfold State.setStream
  (try dsimp only)
  repeat' (first
    | (with_reducible first
      | exact h | assumption | apply State.WithinMk.of | exact Or.inl rfl | exact Or.inr (by assumption)
      | exact Or.inr ⟨by assumption, id⟩ | apply State.modCtx_within)
    | (simp only [State.within_mk]; (try dsimp only)) | (intro; intros))

theorem State.offer_within {l : List Area} {s₀ s : State} (h : s₀.Within l s) (x n k q)
    (hregs : Area.regs ∈ l := by assumption) (hctxs : Area.ctxs ∈ l := by assumption)
    (hports : Area.ports ∈ l := by assumption) (hout : Area.out ∈ l := by assumption) : s₀.Within l
    (State.offer s x n k q) := by
  unfold State.offer
  (try dsimp only)
  repeat' (first
    | (with_reducible first
      | exact h | assumption | apply State.WithinMk.of | exact Or.inl rfl | exact Or.inr (by assumption)
      | exact Or.inr ⟨by assumption, id⟩ | apply State.within_ite | apply State.setStream_within
      | apply State.cqeDue_within | apply State.event_within)
    | (simp only [State.within_mk]; (try dsimp only)) | split | (dsimp only; split))

theorem State.offerAt_within {l : List Area} {s₀ s : State} (h : s₀.Within l s) (x n k)
    (hregs : Area.regs ∈ l := by assumption) (hctxs : Area.ctxs ∈ l := by assumption)
    (hports : Area.ports ∈ l := by assumption) (hout : Area.out ∈ l := by assumption) : s₀.Within l
    (State.offerAt s x n k) := by
  unfold State.offerAt
  (try dsimp only)
  repeat' (first
    | (with_reducible first
      | exact h | assumption | apply State.offer_within | apply State.bump_within | apply State.event_within)
    | split | (dsimp only; split))

theorem execStreamArmDoorbell_within {l : List Area} {s₀ s : State} (h : s₀.Within l s) (via x value) (t)
    (ht : execStreamArmDoorbell via x value s = .next t) (hregs : Area.regs ∈ l := by assumption)
    (hctxs : Area.ctxs ∈ l := by assumption) (hports : Area.ports ∈ l := by assumption)
    (hout : Area.out ∈ l := by assumption) : s₀.Within l t := by
  unfold execStreamArmDoorbell at ht
  (try dsimp only at ht)
  injection ht with ht
  subst ht
  repeat' (first
    | (with_reducible first
      | exact h | assumption | apply State.doorbellPage_within | apply State.offerAt_within)
    | (intro; intros))

theorem State.beginsIf_within {l : List Area} {s₀ s : State} (h : s₀.Within l s) (x i op p act)
    (hact' : ∀ x0 x1, (s₀.Within l x1) → s₀.Within l (act x0 x1)) (hregs : Area.regs ∈ l := by assumption)
    (hctxs : Area.ctxs ∈ l := by assumption) (hports : Area.ports ∈ l := by assumption)
    (hout : Area.out ∈ l := by assumption) : s₀.Within l (State.beginsIf s x i op p act) := by
  unfold State.beginsIf
  (try dsimp only)
  repeat' (first
    | (with_reducible first
      | exact h | assumption | apply State.within_ite | apply hact' | apply State.begins_within)
    | split | (dsimp only; split) | (intro; intros))

theorem execStreamCreate_within {l : List Area} {s₀ s : State} (h : s₀.Within l s) (x i) (t)
    (ht : execStreamCreate x i s = .next t) (hregs : Area.regs ∈ l := by assumption)
    (hctxs : Area.ctxs ∈ l := by assumption) (hports : Area.ports ∈ l := by assumption)
    (hout : Area.out ∈ l := by assumption) : s₀.Within l t := by
  unfold execStreamCreate at ht
  (try dsimp only at ht)
  injection ht with ht
  subst ht
  repeat' (first
    | (with_reducible first
      | exact h | assumption | apply State.within_ite | apply State.beginsIf_within | apply State.complete_within
      | apply State.setStream_within)
    | split | (dsimp only; split) | (intro; intros))

theorem execStreamDestroy_within {l : List Area} {s₀ s : State} (h : s₀.Within l s) (x i) (t)
    (ht : execStreamDestroy x i s = .next t) (hregs : Area.regs ∈ l := by assumption)
    (hctxs : Area.ctxs ∈ l := by assumption) (hports : Area.ports ∈ l := by assumption)
    (hout : Area.out ∈ l := by assumption) : s₀.Within l t := by
  unfold execStreamDestroy at ht
  (try dsimp only at ht)
  injection ht with ht
  subst ht
  repeat' (first
    | (with_reducible first
      | exact h | assumption | apply State.WithinMk.of | exact Or.inl rfl | exact Or.inr (by assumption)
      | exact Or.inr ⟨by assumption, id⟩ | apply State.within_ite | apply State.beginsIf_within
      | apply State.complete_within | apply State.modCtx_within)
    | (simp only [State.within_mk]; (try dsimp only)) | split | (dsimp only; split) | (intro; intros))

theorem execStreamArm_within {l : List Area} {s₀ s : State} (h : s₀.Within l s) (x i) (t)
    (ht : execStreamArm x i s = .next t) (hregs : Area.regs ∈ l := by assumption) (hctxs : Area.ctxs ∈ l := by assumption)
    (hports : Area.ports ∈ l := by assumption) (hout : Area.out ∈ l := by assumption) : s₀.Within l t := by
  unfold execStreamArm at ht
  (try dsimp only at ht)
  injection ht with ht
  subst ht
  repeat' (first
    | (with_reducible first
      | exact h | assumption | apply State.within_ite | apply State.within_ite_fst | apply State.beginsIf_within
      | apply State.complete_within | apply State.stageAct_within | apply State.offer_within)
    | split | (dsimp only; split) | (intro; intros)
    | (dsimp only))

theorem execStreamArmService_within {l : List Area} {s₀ s : State} (h : s₀.Within l s) (x n) (t)
    (ht : execStreamArmService x n s = .next t) (hregs : Area.regs ∈ l := by assumption)
    (hxfers : Area.xfers ∈ l := by assumption) (hnextId : Area.nextId ∈ l := by assumption)
    (hctxs : Area.ctxs ∈ l := by assumption) (hports : Area.ports ∈ l := by assumption)
    (hout : Area.out ∈ l := by assumption) : s₀.Within l t := by
  unfold execStreamArmService at ht
  (try dsimp only at ht)
  injection ht with ht
  subst ht
  repeat' (first
    | (with_reducible first
      | exact h | assumption | apply State.WithinMk.of | exact Or.inl rfl | exact Or.inr (by assumption)
      | exact Or.inr ⟨by assumption, id⟩ | apply State.within_ite | apply State.armDone_within
      | apply State.setStream_within | apply State.startXfer_within)
    | (simp only [State.within_mk]; (try dsimp only)) | split | (dsimp only; split)
    | (dsimp only [id]))

theorem State.xferBegins_within {l : List Area} {s₀ s : State} (h : s₀.Within l s) (x c sh shapeHost)
    (hregs : Area.regs ∈ l := by assumption) (hxfers : Area.xfers ∈ l := by assumption)
    (hnextId : Area.nextId ∈ l := by assumption) (hctxs : Area.ctxs ∈ l := by assumption)
    (hports : Area.ports ∈ l := by assumption) (hout : Area.out ∈ l := by assumption) : s₀.Within l
    (State.xferBegins s x c sh shapeHost) := by
  unfold State.xferBegins
  (try dsimp only)
  repeat' (first
    | (with_reducible first
      | exact h | assumption | apply State.within_ite | apply State.complete_within | apply State.startXfer_within)
    | split | (dsimp only; split) | (intro; intros)
    | (dsimp only [id]))

theorem execXfer_within {l : List Area} {s₀ s : State} (h : s₀.Within l s) (x i shape) (t)
    (ht : execXfer x i shape s = .next t) (hregs : Area.regs ∈ l := by assumption)
    (hcores : Area.cores ∈ l := by assumption) (hnet : Area.net ∈ l := by assumption)
    (hhbmc : Area.hbmc ∈ l := by assumption) (hxfers : Area.xfers ∈ l := by assumption)
    (hnextId : Area.nextId ∈ l := by assumption) (hctxs : Area.ctxs ∈ l := by assumption)
    (hports : Area.ports ∈ l := by assumption) (hhelm : Area.helm ∈ l := by assumption)
    (hvault : Area.vault ∈ l := by assumption) (hstart : Area.start ∈ l := by assumption)
    (hfree : Area.free ∈ l := by assumption) (hout : Area.out ∈ l := by assumption) : s₀.Within l t := by
  unfold execXfer at ht
  (try dsimp only at ht)
  injection ht with ht
  subst ht
  repeat' (first
    | (with_reducible first
      | exact h | assumption | apply State.within_ite | apply State.begins_within | apply State.complete_within
      | apply State.xferBegins_within | apply State.withBytes_within | apply State.notBegun_within)
    | split | (dsimp only; split) | (intro; intros))

theorem State.reshardBegins_within {l : List Area} {s₀ s : State} (h : s₀.Within l s) (x c host recs)
    (hxfers : Area.xfers ∈ l := by assumption) (hnextId : Area.nextId ∈ l := by assumption) : s₀.Within l
    (State.reshardBegins s x c host recs) := by
  unfold State.reshardBegins
  (try dsimp only)
  repeat' (first
    | (with_reducible first
      | exact h | assumption | apply State.WithinMk.of | exact Or.inl rfl | exact Or.inr (by assumption)
      | exact Or.inr ⟨by assumption, id⟩ | apply State.startXfer_within | apply State.modXfer_within)
    | (simp only [State.within_mk]; (try dsimp only)) | (intro; intros)
    | (dsimp only [id]))

theorem execReshard_within {l : List Area} {s₀ s : State} (h : s₀.Within l s) (x i map) (t)
    (ht : execReshard x i map s = .next t) (hregs : Area.regs ∈ l := by assumption)
    (hcores : Area.cores ∈ l := by assumption) (hnet : Area.net ∈ l := by assumption)
    (hhbmc : Area.hbmc ∈ l := by assumption) (hxfers : Area.xfers ∈ l := by assumption)
    (hnextId : Area.nextId ∈ l := by assumption) (hctxs : Area.ctxs ∈ l := by assumption)
    (hports : Area.ports ∈ l := by assumption) (hhelm : Area.helm ∈ l := by assumption)
    (hvault : Area.vault ∈ l := by assumption) (hstart : Area.start ∈ l := by assumption)
    (hfree : Area.free ∈ l := by assumption) (hout : Area.out ∈ l := by assumption) : s₀.Within l t := by
  unfold execReshard at ht
  (try dsimp only at ht)
  injection ht with ht
  subst ht
  repeat' (first
    | (with_reducible first
      | exact h | assumption | apply State.WithinMk.of | exact Or.inl rfl | exact Or.inr (by assumption)
      | exact Or.inr ⟨by assumption, id⟩ | apply State.within_ite | apply State.begins_within
      | apply State.complete_within | apply State.withBytes_within | apply State.notBegun_within
      | apply State.reshardBegins_within)
    | (simp only [State.within_mk]; (try dsimp only)) | split | (dsimp only; split) | (intro; intros))

theorem State.flagRead_within {l : List Area} {s₀ s : State} (h : s₀.Within l s) (x i d seen)
    (hregs : Area.regs ∈ l := by assumption) (hcores : Area.cores ∈ l := by assumption)
    (hnet : Area.net ∈ l := by assumption) (hhbmc : Area.hbmc ∈ l := by assumption)
    (hports : Area.ports ∈ l := by assumption) (hhelm : Area.helm ∈ l := by assumption)
    (hvault : Area.vault ∈ l := by assumption) (hstart : Area.start ∈ l := by assumption)
    (hfree : Area.free ∈ l := by assumption) : s₀.Within l (State.flagRead s x i d seen).1 := by
  unfold State.flagRead
  (try dsimp only)
  repeat' (first
    | (with_reducible first
      | exact h | assumption | apply State.within_ite | apply State.within_ite_fst | apply State.modCore_within
      | apply State.fetchBytes_within)
    | split | (dsimp only; split) | (intro; intros)
    | (dsimp only))

theorem State.judgeWait_within {l : List Area} {s₀ s : State} (h : s₀.Within l s) (x c seen)
    (hregs : Area.regs ∈ l := by assumption) (hcores : Area.cores ∈ l := by assumption)
    (hnet : Area.net ∈ l := by assumption) (hhbmc : Area.hbmc ∈ l := by assumption)
    (hctxs : Area.ctxs ∈ l := by assumption) (hports : Area.ports ∈ l := by assumption)
    (hhelm : Area.helm ∈ l := by assumption) (hvault : Area.vault ∈ l := by assumption)
    (hstart : Area.start ∈ l := by assumption) (hfree : Area.free ∈ l := by assumption)
    (hout : Area.out ∈ l := by assumption) : s₀.Within l (State.judgeWait s x c seen) := by
  unfold State.judgeWait
  (try dsimp only)
  repeat' (first
    | (with_reducible first
      | exact h | assumption | apply State.within_ite | apply State.within_ite_fst | apply State.complete_within
      | apply State.withRead_within | apply State.flagRead_within)
    | split | (dsimp only; split) | (intro; intros)
    | (dsimp only)
    | (dsimp only [id]))

theorem execWait_within {l : List Area} {s₀ s : State} (h : s₀.Within l s) (x i flag) (t)
    (ht : execWait x i flag s = .next t) (hregs : Area.regs ∈ l := by assumption)
    (hcores : Area.cores ∈ l := by assumption) (hnet : Area.net ∈ l := by assumption)
    (hhbmc : Area.hbmc ∈ l := by assumption) (hctxs : Area.ctxs ∈ l := by assumption)
    (hports : Area.ports ∈ l := by assumption) (hhelm : Area.helm ∈ l := by assumption)
    (hvault : Area.vault ∈ l := by assumption) (hstart : Area.start ∈ l := by assumption)
    (hfree : Area.free ∈ l := by assumption) (hout : Area.out ∈ l := by assumption) : s₀.Within l t := by
  unfold execWait at ht
  (try dsimp only at ht)
  injection ht with ht
  subst ht
  repeat' (first
    | (with_reducible first
      | exact h | assumption | apply State.WithinMk.of | exact Or.inl rfl | exact Or.inr (by assumption)
      | exact Or.inr ⟨by assumption, id⟩ | apply State.within_ite | apply State.begins_within
      | apply State.complete_within | apply State.modCopy_within | apply State.judgeWait_within)
    | (simp only [State.within_mk]; (try dsimp only)) | split | (dsimp only; split) | (intro; intros))

theorem execWaitPoll_within {l : List Area} {s₀ s : State} (h : s₀.Within l s) (x i flag) (t)
    (ht : execWaitPoll x i flag s = .next t) (hregs : Area.regs ∈ l := by assumption)
    (hcores : Area.cores ∈ l := by assumption) (hnet : Area.net ∈ l := by assumption)
    (hhbmc : Area.hbmc ∈ l := by assumption) (hctxs : Area.ctxs ∈ l := by assumption)
    (hports : Area.ports ∈ l := by assumption) (hhelm : Area.helm ∈ l := by assumption)
    (hvault : Area.vault ∈ l := by assumption) (hstart : Area.start ∈ l := by assumption)
    (hfree : Area.free ∈ l := by assumption) (hout : Area.out ∈ l := by assumption) : s₀.Within l t := by
  unfold execWaitPoll at ht
  (try dsimp only at ht)
  injection ht with ht
  subst ht
  repeat' (first
    | (with_reducible first
      | exact h | assumption | apply State.within_ite | apply State.judgeWait_within)
    | split | (dsimp only; split))

theorem State.wakeWaits_within {l : List Area} {s₀ s : State} (h : s₀.Within l s) (x d b dev)
    (hregs : Area.regs ∈ l := by assumption) (hcores : Area.cores ∈ l := by assumption)
    (hnet : Area.net ∈ l := by assumption) (hhbmc : Area.hbmc ∈ l := by assumption)
    (hctxs : Area.ctxs ∈ l := by assumption) (hports : Area.ports ∈ l := by assumption)
    (hhelm : Area.helm ∈ l := by assumption) (hvault : Area.vault ∈ l := by assumption)
    (hstart : Area.start ∈ l := by assumption) (hfree : Area.free ∈ l := by assumption)
    (hout : Area.out ∈ l := by assumption) : s₀.Within l (State.wakeWaits s x d b dev) := by
  unfold State.wakeWaits
  (try dsimp only)
  repeat' (first
    | (with_reducible first
      | exact h | assumption | apply State.within_ite | apply State.within_ite_fst | apply State.within_foldl
      | apply State.within_foldl_fst | apply State.judgeWait_within)
    | split | (dsimp only; split) | (intro; intros)
    | (dsimp only))

theorem State.putBegins_within {l : List Area} {s₀ s : State} (h : s₀.Within l s) (x r d b)
    (hxfers : Area.xfers ∈ l := by assumption) (hnextId : Area.nextId ∈ l := by assumption) : s₀.Within l
    (State.putBegins s x r d b) := by
  unfold State.putBegins
  (try dsimp only)
  repeat' (first
    | (with_reducible first
      | exact h | assumption | apply State.WithinMk.of | exact Or.inl rfl | exact Or.inr (by assumption)
      | exact Or.inr ⟨by assumption, id⟩ | apply State.startXfer_within)
    | (simp only [State.within_mk]; (try dsimp only)))

theorem State.signalTo_within {l : List Area} {s₀ s : State} (h : s₀.Within l s) (x i d seen put again fails)
    (hput' : ∀ x0 x1, (s₀.Within l x1) → s₀.Within l (put x0 x1))
    (hagain' : ∀ x0, (s₀.Within l x0) → s₀.Within l (again x0))
    (hfails' : ∀ x0 x1, (s₀.Within l x1) → s₀.Within l (fails x0 x1)) (hregs : Area.regs ∈ l := by assumption)
    (hcores : Area.cores ∈ l := by assumption) (hnet : Area.net ∈ l := by assumption)
    (hhbmc : Area.hbmc ∈ l := by assumption) (hctxs : Area.ctxs ∈ l := by assumption)
    (hports : Area.ports ∈ l := by assumption) (hhelm : Area.helm ∈ l := by assumption)
    (hvault : Area.vault ∈ l := by assumption) (hstart : Area.start ∈ l := by assumption)
    (hfree : Area.free ∈ l := by assumption) (hout : Area.out ∈ l := by assumption) : s₀.Within l
    (State.signalTo s x i d seen put again fails) := by
  unfold State.signalTo
  (try dsimp only)
  repeat' (first
    | (with_reducible first
      | exact h | assumption | apply State.within_ite | apply State.within_ite_fst | apply hput' | apply hagain'
      | apply hfails' | apply State.withRead_within | apply State.flagRead_within)
    | split | (dsimp only; split) | (intro; intros)
    | (dsimp only))

theorem State.signal_within {l : List Area} {s₀ s : State} (h : s₀.Within l s) (x c seen)
    (hregs : Area.regs ∈ l := by assumption) (hcores : Area.cores ∈ l := by assumption)
    (hnet : Area.net ∈ l := by assumption) (hhbmc : Area.hbmc ∈ l := by assumption)
    (hxfers : Area.xfers ∈ l := by assumption) (hnextId : Area.nextId ∈ l := by assumption)
    (hctxs : Area.ctxs ∈ l := by assumption) (hports : Area.ports ∈ l := by assumption)
    (hhelm : Area.helm ∈ l := by assumption) (hvault : Area.vault ∈ l := by assumption)
    (hstart : Area.start ∈ l := by assumption) (hfree : Area.free ∈ l := by assumption)
    (hout : Area.out ∈ l := by assumption) : s₀.Within l (State.signal s x c seen) := by
  unfold State.signal
  (try dsimp only)
  repeat' (first
    | (with_reducible first
      | exact h | assumption | apply State.signalTo_within | apply State.putBegins_within
      | apply State.notBegun_within | apply State.complete_within)
    | (intro; intros)
    | (dsimp only [id]))

theorem execSignal_within {l : List Area} {s₀ s : State} (h : s₀.Within l s) (x i flag) (t)
    (ht : execSignal x i flag s = .next t) (hregs : Area.regs ∈ l := by assumption)
    (hcores : Area.cores ∈ l := by assumption) (hnet : Area.net ∈ l := by assumption)
    (hhbmc : Area.hbmc ∈ l := by assumption) (hxfers : Area.xfers ∈ l := by assumption)
    (hnextId : Area.nextId ∈ l := by assumption) (hctxs : Area.ctxs ∈ l := by assumption)
    (hports : Area.ports ∈ l := by assumption) (hhelm : Area.helm ∈ l := by assumption)
    (hvault : Area.vault ∈ l := by assumption) (hstart : Area.start ∈ l := by assumption)
    (hfree : Area.free ∈ l := by assumption) (hout : Area.out ∈ l := by assumption) : s₀.Within l t := by
  unfold execSignal at ht
  (try dsimp only at ht)
  injection ht with ht
  subst ht
  repeat' (first
    | (with_reducible first
      | exact h | assumption | apply State.within_ite | apply State.within_ite_fst | apply State.beginsLast_within
      | apply State.complete_within | apply State.stageAct_within | apply State.signal_within)
    | split | (dsimp only; split) | (intro; intros)
    | (dsimp only))

theorem execFence_within {l : List Area} {s₀ s : State} (h : s₀.Within l s) (x i) (t) (ht : execFence x i s = .next t)
    (hregs : Area.regs ∈ l := by assumption) (hctxs : Area.ctxs ∈ l := by assumption)
    (hports : Area.ports ∈ l := by assumption) (hout : Area.out ∈ l := by assumption) : s₀.Within l t := by
  unfold execFence at ht
  (try dsimp only at ht)
  injection ht with ht
  subst ht
  repeat' (first
    | (with_reducible first
      | exact h | assumption | apply State.within_ite | apply State.beginsLast_within | apply State.complete_within)
    | split | (dsimp only; split) | (intro; intros))

theorem State.stampMember_within {l : List Area} {s₀ s : State} (h : s₀.Within l s) (x c d)
    (hregs : Area.regs ∈ l := by assumption) (hhbmc : Area.hbmc ∈ l := by assumption)
    (hctxs : Area.ctxs ∈ l := by assumption) (hports : Area.ports ∈ l := by assumption)
    (hhelm : Area.helm ∈ l := by assumption) (hfree : Area.free ∈ l := by assumption)
    (hout : Area.out ∈ l := by assumption) : s₀.Within l (State.stampMember s x c d) := by
  unfold State.stampMember
  (try dsimp only)
  repeat' (first
    | (with_reducible first
      | exact h | assumption | apply State.within_ite | apply State.within_ite_fst | apply State.stageSpan_within
      | apply State.complete_within | apply State.withHost_within | apply State.notBegun_within)
    | split | (dsimp only; split) | (intro; intros)
    | (dsimp only)
    | (dsimp only [id]))

theorem execTimestamp_within {l : List Area} {s₀ s : State} (h : s₀.Within l s) (x i) (t)
    (ht : execTimestamp x i s = .next t) (hregs : Area.regs ∈ l := by assumption) (hhbmc : Area.hbmc ∈ l := by assumption)
    (hxfers : Area.xfers ∈ l := by assumption) (hnextId : Area.nextId ∈ l := by assumption)
    (hctxs : Area.ctxs ∈ l := by assumption) (hports : Area.ports ∈ l := by assumption)
    (hhelm : Area.helm ∈ l := by assumption) (hfree : Area.free ∈ l := by assumption)
    (hout : Area.out ∈ l := by assumption) : s₀.Within l t := by
  unfold execTimestamp at ht
  (try dsimp only at ht)
  injection ht with ht
  subst ht
  repeat' (first
    | (with_reducible first
      | exact h | assumption | apply State.within_ite | apply State.beginsLast_within | apply State.complete_within
      | apply State.stampMember_within | apply State.putBegins_within)
    | split | (dsimp only; split) | (intro; intros))

theorem execDescNop_within {l : List Area} {s₀ s : State} (h : s₀.Within l s) (x i) (t) (ht : execDescNop x i s = .next t)
    (hregs : Area.regs ∈ l := by assumption) (hctxs : Area.ctxs ∈ l := by assumption)
    (hports : Area.ports ∈ l := by assumption) (hout : Area.out ∈ l := by assumption) : s₀.Within l t := by
  unfold execDescNop at ht
  (try dsimp only at ht)
  injection ht with ht
  subst ht
  repeat' (first
    | (with_reducible first
      | exact h | assumption | apply State.within_ite | apply State.begins_within | apply State.complete_within)
    | split | (dsimp only; split) | (intro; intros))

theorem execFixOpen_within {l : List Area} {s₀ s : State} (h : s₀.Within l s) (x i) (t) (ht : execFixOpen x i s = .next t)
    (hregs : Area.regs ∈ l := by assumption) (hctxs : Area.ctxs ∈ l := by assumption)
    (hports : Area.ports ∈ l := by assumption) (hout : Area.out ∈ l := by assumption) : s₀.Within l t := by
  unfold execFixOpen at ht
  (try dsimp only at ht)
  injection ht with ht
  subst ht
  repeat' (first
    | (with_reducible first
      | exact h | assumption | apply State.within_ite | apply State.begins_within | apply State.complete_within)
    | split | (dsimp only; split) | (intro; intros))

theorem State.closeAborted_within {l : List Area} {s₀ s : State} (h : s₀.Within l s) (x i q)
    (hregs : Area.regs ∈ l := by assumption) (hctxs : Area.ctxs ∈ l := by assumption)
    (hports : Area.ports ∈ l := by assumption) (hout : Area.out ∈ l := by assumption) : s₀.Within l
    (State.closeAborted s x i q) := by
  unfold State.closeAborted
  (try dsimp only)
  repeat' (with_reducible first
      | exact h | assumption | apply State.finishCopy_within | apply State.dropAborted_within)

theorem execFixClose_within {l : List Area} {s₀ s : State} (h : s₀.Within l s) (x i) (t)
    (ht : execFixClose x i s = .next t) (hregs : Area.regs ∈ l := by assumption) (hctxs : Area.ctxs ∈ l := by assumption)
    (hports : Area.ports ∈ l := by assumption) (hout : Area.out ∈ l := by assumption) : s₀.Within l t := by
  unfold execFixClose at ht
  (try dsimp only at ht)
  injection ht with ht
  subst ht
  repeat' (first
    | (with_reducible first
      | exact h | assumption | apply State.within_ite | apply State.begins_within | apply State.complete_within
      | apply State.closeAborted_within | apply State.finishCopy_within)
    | split | (dsimp only; split) | (intro; intros))

theorem execFixAbort_within {l : List Area} {s₀ s : State} (h : s₀.Within l s) (x i) (t)
    (ht : execFixAbort x i s = .next t) (hregs : Area.regs ∈ l := by assumption) (hctxs : Area.ctxs ∈ l := by assumption)
    (hports : Area.ports ∈ l := by assumption) (hout : Area.out ∈ l := by assumption) : s₀.Within l t := by
  unfold execFixAbort at ht
  (try dsimp only at ht)
  injection ht with ht
  subst ht
  repeat' (first
    | (with_reducible first
      | exact h | assumption | apply State.begins_within | apply State.complete_within
      | apply State.closeAborted_within | apply State.finishCopy_within)
    | split | (dsimp only; split) | (intro; intros))

theorem State.countWindows_within {l : List Area} {s₀ s : State} (h : s₀.Within l s)
    (hregs : Area.regs ∈ l := by assumption) : s₀.Within l (State.countWindows s) := by
  unfold State.countWindows
  (try dsimp only)
  repeat' (first
    | (with_reducible first
      | exact h | assumption | apply State.setReg_within)
    | (intro; intros))

theorem State.putWindow_within {l : List Area} {s₀ s : State} (h : s₀.Within l s) (w x d)
    (hregs : Area.regs ∈ l := by assumption) : s₀.Within l (State.putWindow s w x d) := by
  unfold State.putWindow
  (try dsimp only)
  repeat' (with_reducible first
      | exact h | assumption | apply State.setReg_within | apply State.countWindows_within)

theorem State.dropWindow_within {l : List Area} {s₀ s : State} (h : s₀.Within l s) (w)
    (hregs : Area.regs ∈ l := by assumption) : s₀.Within l (State.dropWindow s w) := by
  unfold State.dropWindow
  (try dsimp only)
  repeat' (first
    | (with_reducible first
      | exact h | assumption | apply State.within_foldl | apply State.within_foldl_fst | apply State.setReg_within
      | apply State.countWindows_within)
    | (intro; intros))

theorem State.closeWindows_within {l : List Area} {s₀ s : State} (h : s₀.Within l s) (x)
    (hregs : Area.regs ∈ l := by assumption) : s₀.Within l (State.closeWindows s x) := by
  unfold State.closeWindows
  (try dsimp only)
  repeat' (first
    | (with_reducible first
      | exact h | assumption | apply State.within_foldl | apply State.within_foldl_fst | apply State.dropWindow_within)
    | (intro; intros))

theorem execWindowOpen_within {l : List Area} {s₀ s : State} (h : s₀.Within l s) (x i) (t)
    (ht : execWindowOpen x i s = .next t) (hregs : Area.regs ∈ l := by assumption)
    (hctxs : Area.ctxs ∈ l := by assumption) (hports : Area.ports ∈ l := by assumption)
    (hout : Area.out ∈ l := by assumption) : s₀.Within l t := by
  unfold execWindowOpen at ht
  (try dsimp only at ht)
  injection ht with ht
  subst ht
  repeat' (first
    | (with_reducible first
      | exact h | assumption | apply State.within_ite | apply State.beginsIf_within | apply State.complete_within
      | apply State.putWindow_within | apply State.bump_within)
    | split | (dsimp only; split) | (intro; intros))

theorem execWindowClose_within {l : List Area} {s₀ s : State} (h : s₀.Within l s) (x i) (t)
    (ht : execWindowClose x i s = .next t) (hregs : Area.regs ∈ l := by assumption)
    (hctxs : Area.ctxs ∈ l := by assumption) (hports : Area.ports ∈ l := by assumption)
    (hout : Area.out ∈ l := by assumption) : s₀.Within l t := by
  unfold execWindowClose at ht
  (try dsimp only at ht)
  injection ht with ht
  subst ht
  repeat' (first
    | (with_reducible first
      | exact h | assumption | apply State.within_ite | apply State.beginsIf_within | apply State.dropWindow_within
      | apply State.complete_within)
    | split | (dsimp only; split) | (intro; intros))

theorem State.reduceLinks_within {l : List Area} {s₀ s : State} (h : s₀.Within l s) (x c links)
    (hregs : Area.regs ∈ l := by assumption) (hxfers : Area.xfers ∈ l := by assumption)
    (hnextId : Area.nextId ∈ l := by assumption) (hctxs : Area.ctxs ∈ l := by assumption)
    (hports : Area.ports ∈ l := by assumption) (hout : Area.out ∈ l := by assumption) : s₀.Within l
    (State.reduceLinks s x c links) := by
  unfold State.reduceLinks
  (try dsimp only)
  repeat' (first
    | (with_reducible first
      | exact h | assumption | apply State.within_ite | apply State.complete_within | apply State.startXfer_within)
    | split | (dsimp only; split) | (intro; intros)
    | (dsimp only [id]))

theorem execReduce_within {l : List Area} {s₀ s : State} (h : s₀.Within l s) (x i table) (t)
    (ht : execReduce x i table s = .next t) (hregs : Area.regs ∈ l := by assumption)
    (hcores : Area.cores ∈ l := by assumption) (hnet : Area.net ∈ l := by assumption)
    (hhbmc : Area.hbmc ∈ l := by assumption) (hxfers : Area.xfers ∈ l := by assumption)
    (hnextId : Area.nextId ∈ l := by assumption) (hctxs : Area.ctxs ∈ l := by assumption)
    (hports : Area.ports ∈ l := by assumption) (hhelm : Area.helm ∈ l := by assumption)
    (hvault : Area.vault ∈ l := by assumption) (hstart : Area.start ∈ l := by assumption)
    (hfree : Area.free ∈ l := by assumption) (hout : Area.out ∈ l := by assumption) : s₀.Within l t := by
  unfold execReduce at ht
  (try dsimp only at ht)
  injection ht with ht
  subst ht
  repeat' (first
    | (with_reducible first
      | exact h | assumption | apply State.within_ite | apply State.begins_within | apply State.complete_within
      | apply State.withBytes_within | apply State.notBegun_within | apply State.reduceLinks_within)
    | split | (dsimp only; split) | (intro; intros))

end Sys2Proof.Machine
end

