-- ==== Sys2Proof/Laws/WithinContext.lean ====
section
/-! SUPPORT. What each operation changes at most (State.Within, Safety.lean), for passes, links, logic cells, configuration and contexts. -/

namespace Sys2Proof.Machine

set_option Elab.async false
set_option linter.all false

theorem State.imageBad_within {l : List Area} {s₀ s : State} (h : s₀.Within l s) (x a dev)
    (hregs : Area.regs ∈ l := by assumption) (hcores : Area.cores ∈ l := by assumption)
    (hnet : Area.net ∈ l := by assumption) (hhbmc : Area.hbmc ∈ l := by assumption)
    (hhelm : Area.helm ∈ l := by assumption) (hvault : Area.vault ∈ l := by assumption)
    (hstart : Area.start ∈ l := by assumption) (hfree : Area.free ∈ l := by assumption) : s₀.Within l
    (State.imageBad s x a dev).1 := by
  unfold State.imageBad
  (try dsimp only)
  repeat' (first
    | (with_reducible first
      | exact h | assumption | apply State.within_ite | apply State.within_ite_fst | apply State.devBytes_within)
    | split | (dsimp only; split)
    | (dsimp only))

theorem State.sendImage_within {l : List Area} {s₀ s : State} (h : s₀.Within l s) (x p)
    (hnet : Area.net ∈ l := by assumption) (hnextId : Area.nextId ∈ l := by assumption)
    (hctxs : Area.ctxs ∈ l := by assumption) : s₀.Within l (State.sendImage s x p) := by
  unfold State.sendImage
  (try dsimp only)
  repeat' (first
    | (with_reducible first
      | exact h | assumption | apply State.WithinMk.of | exact Or.inl rfl | exact Or.inr (by assumption)
      | exact Or.inr ⟨by assumption, id⟩ | apply State.modPass_within | apply State.sendAll_within)
    | (simp only [State.within_mk]; (try dsimp only)) | (intro; intros)
    | (dsimp only [id]))

theorem State.readRanges_within {l : List Area} {s₀ s : State} (h : s₀.Within l s) (x p0 p1)
    (hregs : Area.regs ∈ l := by assumption) (hcores : Area.cores ∈ l := by assumption)
    (hnet : Area.net ∈ l := by assumption) (hhbmc : Area.hbmc ∈ l := by assumption)
    (hhelm : Area.helm ∈ l := by assumption) (hvault : Area.vault ∈ l := by assumption)
    (hstart : Area.start ∈ l := by assumption) (hfree : Area.free ∈ l := by assumption) : s₀.Within l
    (State.readRanges s x p0 p1).1 := by
  induction p0 generalizing s x p1 with
  | nil =>
    unfold State.readRanges
    (try dsimp only)
    repeat' (first
      | (with_reducible first
        | exact h | assumption | apply State.within_ite | apply State.within_ite_fst | apply State.devBytes_within)
      | split | (dsimp only; split)
      | (dsimp only))
  | cons x xs ih =>
    unfold State.readRanges
    (try dsimp only)
    repeat' (first
      | (with_reducible first
        | exact h | assumption | apply ih | apply State.within_ite | apply State.within_ite_fst | apply State.devBytes_within)
      | split | (dsimp only; split)
      | (dsimp only))

theorem State.captureOf_within {l : List Area} {s₀ s : State} (h : s₀.Within l s) (x p e dev)
    (hregs : Area.regs ∈ l := by assumption) (hcores : Area.cores ∈ l := by assumption)
    (hnet : Area.net ∈ l := by assumption) (hhbmc : Area.hbmc ∈ l := by assumption)
    (hhelm : Area.helm ∈ l := by assumption) (hvault : Area.vault ∈ l := by assumption)
    (hstart : Area.start ∈ l := by assumption) (hfree : Area.free ∈ l := by assumption) : s₀.Within l
    (State.captureOf s x p e dev).1 := by
  unfold State.captureOf
  (try dsimp only)
  repeat' (first
    | (with_reducible first
      | exact h | assumption | apply State.within_ite | apply State.within_ite_fst | apply State.readRanges_within)
    | split | (dsimp only; split)
    | (dsimp only))

theorem State.logPut_within {l : List Area} {s₀ s : State} (h : s₀.Within l s) (x pos b)
    (hregs : Area.regs ∈ l := by assumption) (hhbm : Area.hbm ∈ l := by assumption)
    (hhbmc : Area.hbmc ∈ l := by assumption) (hctxs : Area.ctxs ∈ l := by assumption)
    (hhelm : Area.helm ∈ l := by assumption) (hfree : Area.free ∈ l := by assumption) : s₀.Within l
    (State.logPut s x pos b) := by
  unfold State.logPut
  (try dsimp only)
  repeat' (with_reducible first
      | exact h | assumption | apply State.hbmPut_within)

theorem State.logByte_within {l : List Area} {s₀ s : State} (h : s₀.Within l s) (x p off v)
    (hregs : Area.regs ∈ l := by assumption) (hhbm : Area.hbm ∈ l := by assumption)
    (hhbmc : Area.hbmc ∈ l := by assumption) (hctxs : Area.ctxs ∈ l := by assumption)
    (hhelm : Area.helm ∈ l := by assumption) (hfree : Area.free ∈ l := by assumption) : s₀.Within l
    (State.logByte s x p off v) := by
  unfold State.logByte
  (try dsimp only)
  repeat' (first
    | (with_reducible first
      | exact h | assumption | apply State.logPut_within)
    | split | (dsimp only; split))

theorem State.readInputs_within {l : List Area} {s₀ s : State} (h : s₀.Within l s) (x c p dev)
    (hregs : Area.regs ∈ l := by assumption) (hcores : Area.cores ∈ l := by assumption)
    (hnet : Area.net ∈ l := by assumption) (hhbmc : Area.hbmc ∈ l := by assumption)
    (hhelm : Area.helm ∈ l := by assumption) (hvault : Area.vault ∈ l := by assumption)
    (hstart : Area.start ∈ l := by assumption) (hfree : Area.free ∈ l := by assumption) : s₀.Within l
    (State.readInputs s x c p dev).1 := by
  unfold State.readInputs
  (try dsimp only)
  repeat' (first
    | (with_reducible first
      | exact h | assumption | apply State.within_ite | apply State.within_ite_fst | apply State.devBytes_within)
    | split | (dsimp only; split)
    | (dsimp only))

theorem State.capture_within {l : List Area} {s₀ s : State} (h : s₀.Within l s) (x p p0 p1)
    (hregs : Area.regs ∈ l := by assumption) (hcores : Area.cores ∈ l := by assumption)
    (hnet : Area.net ∈ l := by assumption) (hhbmc : Area.hbmc ∈ l := by assumption)
    (hhelm : Area.helm ∈ l := by assumption) (hvault : Area.vault ∈ l := by assumption)
    (hstart : Area.start ∈ l := by assumption) (hfree : Area.free ∈ l := by assumption) : s₀.Within l
    (State.capture s x p p0 p1).1 := by
  induction p0 generalizing s x p p1 with
  | nil =>
    unfold State.capture
    (try dsimp only)
    repeat' (first
      | (with_reducible first
        | exact h | assumption | apply State.within_ite | apply State.within_ite_fst | apply State.captureOf_within)
      | split | (dsimp only; split)
      | (dsimp only))
  | cons x xs ih =>
    unfold State.capture
    (try dsimp only)
    repeat' (first
      | (with_reducible first
        | exact h | assumption | apply ih | apply State.within_ite | apply State.within_ite_fst | apply State.captureOf_within)
      | split | (dsimp only; split)
      | (dsimp only))

theorem State.dropPass_within {l : List Area} {s₀ s : State} (h : s₀.Within l s) (x p status)
    (hregs : Area.regs ∈ l := by assumption) (hctxs : Area.ctxs ∈ l := by assumption)
    (hports : Area.ports ∈ l := by assumption) (hout : Area.out ∈ l := by assumption) : s₀.Within l
    (State.dropPass s x p status) := by
  unfold State.dropPass
  (try dsimp only)
  repeat' (first
    | (with_reducible first
      | exact h | assumption | apply State.WithinMk.of | exact Or.inl rfl | exact Or.inr (by assumption)
      | exact Or.inr ⟨by assumption, id⟩ | apply State.modCtx_within | apply State.complete_within)
    | (simp only [State.within_mk]; (try dsimp only)) | (intro; intros)
    | (dsimp only [id]))

theorem State.refusePass_within {l : List Area} {s₀ s : State} (h : s₀.Within l s) (x p status)
    (hregs : Area.regs ∈ l := by assumption) (hhbm : Area.hbm ∈ l := by assumption)
    (hhbmc : Area.hbmc ∈ l := by assumption) (hctxs : Area.ctxs ∈ l := by assumption)
    (hports : Area.ports ∈ l := by assumption) (hhelm : Area.helm ∈ l := by assumption)
    (hfree : Area.free ∈ l := by assumption) (hout : Area.out ∈ l := by assumption) : s₀.Within l
    (State.refusePass s x p status) := by
  unfold State.refusePass
  (try dsimp only)
  repeat' (with_reducible first
      | exact h | assumption | apply State.logByte_within | apply State.dropPass_within)

theorem State.loadPass_within {l : List Area} {s₀ s : State} (h : s₀.Within l s) (x id again)
    (hregs : Area.regs ∈ l := by assumption) (hcores : Area.cores ∈ l := by assumption)
    (hnet : Area.net ∈ l := by assumption) (hhbm : Area.hbm ∈ l := by assumption) (hhbmc : Area.hbmc ∈ l := by assumption)
    (hnextId : Area.nextId ∈ l := by assumption) (hctxs : Area.ctxs ∈ l := by assumption)
    (hports : Area.ports ∈ l := by assumption) (hhelm : Area.helm ∈ l := by assumption)
    (hvault : Area.vault ∈ l := by assumption) (hstart : Area.start ∈ l := by assumption)
    (hfree : Area.free ∈ l := by assumption) (hout : Area.out ∈ l := by assumption) : s₀.Within l
    (State.loadPass s x id again) := by
  unfold State.loadPass
  (try dsimp only)
  repeat' (first
    | (with_reducible first
      | exact h | assumption | apply State.within_ite | apply State.within_ite_fst | apply State.sendImage_within
      | apply State.imageBad_within | apply State.refusePass_within)
    | split | (dsimp only; split) | (intro; intros)
    | (dsimp only)
    | (dsimp only [id]))

theorem State.recordPass_within {l : List Area} {s₀ s : State} (h : s₀.Within l s) (x p dev)
    (hregs : Area.regs ∈ l := by assumption) (hcores : Area.cores ∈ l := by assumption)
    (hnet : Area.net ∈ l := by assumption) (hhbm : Area.hbm ∈ l := by assumption) (hhbmc : Area.hbmc ∈ l := by assumption)
    (hctxs : Area.ctxs ∈ l := by assumption) (hports : Area.ports ∈ l := by assumption)
    (hhelm : Area.helm ∈ l := by assumption) (hvault : Area.vault ∈ l := by assumption)
    (hstart : Area.start ∈ l := by assumption) (hfree : Area.free ∈ l := by assumption)
    (hout : Area.out ∈ l := by assumption) : s₀.Within l (State.recordPass s x p dev) := by
  unfold State.recordPass
  (try dsimp only)
  repeat' (first
    | (with_reducible first
      | exact h | assumption | apply State.WithinMk.of | exact Or.inl rfl | exact Or.inr (by assumption)
      | exact Or.inr ⟨by assumption, id⟩ | apply State.capture_within | apply State.dropPass_within
      | apply State.wrapInc_within | apply State.logPut_within | apply State.modPass_within
      | apply State.modCtx_within)
    | (simp only [State.within_mk]; (try dsimp only)) | split | (dsimp only; split) | (intro; intros)
    | (dsimp only)
    | (dsimp only [id]))

theorem State.passGo_within {l : List Area} {s₀ s : State} (h : s₀.Within l s) (x id again dev)
    (hregs : Area.regs ∈ l := by assumption) (hcores : Area.cores ∈ l := by assumption)
    (hnet : Area.net ∈ l := by assumption) (hhbm : Area.hbm ∈ l := by assumption) (hhbmc : Area.hbmc ∈ l := by assumption)
    (hnextId : Area.nextId ∈ l := by assumption) (hctxs : Area.ctxs ∈ l := by assumption)
    (hports : Area.ports ∈ l := by assumption) (hhelm : Area.helm ∈ l := by assumption)
    (hvault : Area.vault ∈ l := by assumption) (hstart : Area.start ∈ l := by assumption)
    (hfree : Area.free ∈ l := by assumption) (hout : Area.out ∈ l := by assumption) : s₀.Within l
    (State.passGo s x id again dev) := by
  unfold State.passGo
  (try dsimp only)
  repeat' (first
    | (with_reducible first
      | exact h | assumption | apply State.within_ite | apply State.loadPass_within | apply State.recordPass_within)
    | split | (dsimp only; split) | (intro; intros)
    | (dsimp only [id]))

theorem State.launch_within {l : List Area} {s₀ s : State} (h : s₀.Within l s) (x c dev)
    (hregs : Area.regs ∈ l := by assumption) (hcores : Area.cores ∈ l := by assumption)
    (hnet : Area.net ∈ l := by assumption) (hhbm : Area.hbm ∈ l := by assumption) (hhbmc : Area.hbmc ∈ l := by assumption)
    (hnextId : Area.nextId ∈ l := by assumption) (hctxs : Area.ctxs ∈ l := by assumption)
    (hports : Area.ports ∈ l := by assumption) (hhelm : Area.helm ∈ l := by assumption)
    (hvault : Area.vault ∈ l := by assumption) (hstart : Area.start ∈ l := by assumption)
    (hfree : Area.free ∈ l := by assumption) (hout : Area.out ∈ l := by assumption) : s₀.Within l (State.launch s x c dev)
    := by
  unfold State.launch
  (try dsimp only)
  repeat' (first
    | (with_reducible first
      | exact h | assumption | apply State.WithinMk.of | exact Or.inl rfl | exact Or.inr (by assumption)
      | exact Or.inr ⟨by assumption, id⟩ | apply State.within_ite | apply State.within_ite_fst
      | apply State.imageBad_within | apply State.complete_within | apply State.readInputs_within
      | apply State.modCtx_within | apply State.passGo_within)
    | (simp only [State.within_mk]; (try dsimp only)) | split | (dsimp only; split) | (intro; intros)
    | (dsimp only)
    | (dsimp only [id]))

theorem State.endPass_within {l : List Area} {s₀ s : State} (h : s₀.Within l s) (x p recState status)
    (hregs : Area.regs ∈ l := by assumption) (hhbm : Area.hbm ∈ l := by assumption)
    (hhbmc : Area.hbmc ∈ l := by assumption) (hctxs : Area.ctxs ∈ l := by assumption)
    (hports : Area.ports ∈ l := by assumption) (hhelm : Area.helm ∈ l := by assumption)
    (hfree : Area.free ∈ l := by assumption) (hout : Area.out ∈ l := by assumption) : s₀.Within l
    (State.endPass s x p recState status) := by
  unfold State.endPass
  (try dsimp only)
  repeat' (first
    | (with_reducible first
      | exact h | assumption | apply State.WithinMk.of | exact Or.inl rfl | exact Or.inr (by assumption)
      | exact Or.inr ⟨by assumption, id⟩ | apply State.within_ite | apply State.logByte_within
      | apply State.lateness_within | apply State.modCtx_within | apply State.dropPass_within)
    | (simp only [State.within_mk]; (try dsimp only)) | split | (dsimp only; split) | (intro; intros))

theorem State.missPass_within {l : List Area} {s₀ s : State} (h : s₀.Within l s) (x p)
    (hregs : Area.regs ∈ l := by assumption) (hctxs : Area.ctxs ∈ l := by assumption)
    (hports : Area.ports ∈ l := by assumption) (hout : Area.out ∈ l := by assumption) : s₀.Within l
    (State.missPass s x p).1 := by
  unfold State.missPass
  (try dsimp only)
  repeat' (first
    | (with_reducible first
      | exact h | assumption | apply State.WithinMk.of | exact Or.inl rfl | exact Or.inr (by assumption)
      | exact Or.inr ⟨by assumption, id⟩ | apply State.within_ite | apply State.within_ite_fst
      | apply State.missed_within)
    | (simp only [State.within_mk]; (try dsimp only)) | split | (dsimp only; split)
    | (dsimp only))

theorem State.retirePass_within {l : List Area} {s₀ s : State} (h : s₀.Within l s) (x id)
    (hregs : Area.regs ∈ l := by assumption) (hhbm : Area.hbm ∈ l := by assumption)
    (hhbmc : Area.hbmc ∈ l := by assumption) (hctxs : Area.ctxs ∈ l := by assumption)
    (hports : Area.ports ∈ l := by assumption) (hhelm : Area.helm ∈ l := by assumption)
    (hfree : Area.free ∈ l := by assumption) (hout : Area.out ∈ l := by assumption) : s₀.Within l
    (State.retirePass s x id) := by
  unfold State.retirePass
  (try dsimp only)
  repeat' (first
    | (with_reducible first
      | exact h | assumption | apply State.within_ite | apply State.within_ite_fst | apply State.missPass_within
      | apply State.endPass_within)
    | split | (dsimp only; split) | (intro; intros)
    | (dsimp only)
    | (dsimp only [id]))

theorem State.retirePasses_within {l : List Area} {s₀ s : State} (h : s₀.Within l s) (x)
    (hregs : Area.regs ∈ l := by assumption) (hhbm : Area.hbm ∈ l := by assumption)
    (hhbmc : Area.hbmc ∈ l := by assumption) (hctxs : Area.ctxs ∈ l := by assumption)
    (hports : Area.ports ∈ l := by assumption) (hhelm : Area.helm ∈ l := by assumption)
    (hfree : Area.free ∈ l := by assumption) (hout : Area.out ∈ l := by assumption) : s₀.Within l (State.retirePasses s x)
    := by
  unfold State.retirePasses
  (try dsimp only)
  repeat' (first
    | (with_reducible first
      | exact h | assumption | apply State.within_foldl | apply State.within_foldl_fst | apply State.retirePass_within)
    | (intro; intros)
    | (dsimp only [id]))

theorem execLaunch_within {l : List Area} {s₀ s : State} (h : s₀.Within l s) (x slot) (t)
    (ht : execLaunch x slot s = .next t) (hregs : Area.regs ∈ l := by assumption)
    (hcores : Area.cores ∈ l := by assumption) (hnet : Area.net ∈ l := by assumption)
    (hhbm : Area.hbm ∈ l := by assumption) (hhbmc : Area.hbmc ∈ l := by assumption)
    (hnextId : Area.nextId ∈ l := by assumption) (hctxs : Area.ctxs ∈ l := by assumption)
    (hports : Area.ports ∈ l := by assumption) (hhelm : Area.helm ∈ l := by assumption)
    (hvault : Area.vault ∈ l := by assumption) (hstart : Area.start ∈ l := by assumption)
    (hfree : Area.free ∈ l := by assumption) (hout : Area.out ∈ l := by assumption) : s₀.Within l t := by
  unfold execLaunch at ht
  (try dsimp only at ht)
  injection ht with ht
  subst ht
  repeat' (first
    | (with_reducible first
      | exact h | assumption | apply State.within_ite | apply State.passGo_within | apply State.retirePasses_within
      | apply State.begins_within | apply State.launch_within)
    | split | (dsimp only; split) | (intro; intros)
    | (dsimp only [id]))

theorem State.losePass_within {l : List Area} {s₀ s : State} (h : s₀.Within l s) (x p core cause reason status fault)
    (hregs : Area.regs ∈ l := by assumption) (hhbm : Area.hbm ∈ l := by assumption)
    (hhbmc : Area.hbmc ∈ l := by assumption) (hctxs : Area.ctxs ∈ l := by assumption)
    (hports : Area.ports ∈ l := by assumption) (hhelm : Area.helm ∈ l := by assumption)
    (hfree : Area.free ∈ l := by assumption) (hout : Area.out ∈ l := by assumption) : s₀.Within l
    (State.losePass s x p core cause reason status fault) := by
  unfold State.losePass
  (try dsimp only)
  repeat' (first
    | (with_reducible first
      | exact h | assumption | apply State.within_ite | apply State.within_ite_fst | apply State.setReg_within
      | apply State.bump_within | apply State.missPass_within | apply State.endPass_within
      | apply State.ctxFault_within)
    | split | (dsimp only; split)
    | (dsimp only))

theorem State.decidePass_within {l : List Area} {s₀ s : State} (h : s₀.Within l s) (x id)
    (hregs : Area.regs ∈ l := by assumption) (hhbm : Area.hbm ∈ l := by assumption)
    (hhbmc : Area.hbmc ∈ l := by assumption) (hctxs : Area.ctxs ∈ l := by assumption)
    (hports : Area.ports ∈ l := by assumption) (hhelm : Area.helm ∈ l := by assumption)
    (hfree : Area.free ∈ l := by assumption) (hout : Area.out ∈ l := by assumption) : s₀.Within l
    (State.decidePass s x id) := by
  unfold State.decidePass
  (try dsimp only)
  repeat' (first
    | (with_reducible first
      | exact h | assumption | apply State.WithinMk.of | exact Or.inl rfl | exact Or.inr (by assumption)
      | exact Or.inr ⟨by assumption, id⟩ | apply State.within_ite | apply State.within_ite_fst
      | apply State.losePass_within | apply State.modPass_within)
    | (simp only [State.within_mk]; (try dsimp only)) | split | (dsimp only; split) | (intro; intros)
    | (dsimp only)
    | (dsimp only [id]))

theorem State.stopCores_within {l : List Area} {s₀ s : State} (h : s₀.Within l s) (x l')
    (hcores : Area.cores ∈ l := by assumption) : s₀.Within l (State.stopCores s x l') := by
  unfold State.stopCores
  (try dsimp only)
  repeat' (first
    | (with_reducible first
      | exact h | assumption | apply State.within_ite | apply State.within_foldl | apply State.within_foldl_fst
      | apply State.haltCore_within)
    | split | (dsimp only; split) | (intro; intros))

theorem State.abandon_within {l : List Area} {s₀ s : State} (h : s₀.Within l s) (x p)
    (hcores : Area.cores ∈ l := by assumption) : s₀.Within l (State.abandon s x p) := by
  unfold State.abandon
  (try dsimp only)
  repeat' (with_reducible first
      | exact h | assumption | apply State.stopCores_within)

theorem State.stopLate_within {l : List Area} {s₀ s : State} (h : s₀.Within l s) (x p)
    (hcores : Area.cores ∈ l := by assumption) : s₀.Within l (State.stopLate s x p) := by
  unfold State.stopLate
  (try dsimp only)
  repeat' (first
    | (with_reducible first
      | exact h | assumption | apply State.stopCores_within)
    | split | (dsimp only; split) | (intro; intros))

theorem State.faultArrives_within {l : List Area} {s₀ s : State} (h : s₀.Within l s) (h' p)
    (hregs : Area.regs ∈ l := by assumption) (hcores : Area.cores ∈ l := by assumption)
    (hhbm : Area.hbm ∈ l := by assumption) (hhbmc : Area.hbmc ∈ l := by assumption)
    (hctxs : Area.ctxs ∈ l := by assumption) (hports : Area.ports ∈ l := by assumption)
    (hhelm : Area.helm ∈ l := by assumption) (hfree : Area.free ∈ l := by assumption)
    (hout : Area.out ∈ l := by assumption) : s₀.Within l (State.faultArrives s h' p) := by
  unfold State.faultArrives
  (try dsimp only)
  repeat' (first
    | (with_reducible first
      | exact h | assumption | apply State.WithinMk.of | exact Or.inl rfl | exact Or.inr (by assumption)
      | exact Or.inr ⟨by assumption, id⟩ | apply State.within_ite | apply State.raise_within
      | apply State.modPass_within | apply State.abandon_within | apply State.decidePass_within)
    | (simp only [State.within_mk]; (try dsimp only)) | split | (dsimp only; split) | (intro; intros)
    | (dsimp only [id]))

theorem execFaultReport_within {l : List Area} {s₀ s : State} (h : s₀.Within l s) (p) (t)
    (ht : execFaultReport p s = .next t) (hregs : Area.regs ∈ l := by assumption)
    (hcores : Area.cores ∈ l := by assumption) (hnet : Area.net ∈ l := by assumption)
    (hhbm : Area.hbm ∈ l := by assumption) (hhbmc : Area.hbmc ∈ l := by assumption)
    (hctxs : Area.ctxs ∈ l := by assumption) (hports : Area.ports ∈ l := by assumption)
    (hhelm : Area.helm ∈ l := by assumption) (hfab : Area.fab ∈ l := by assumption)
    (hfree : Area.free ∈ l := by assumption) (hout : Area.out ∈ l := by assumption) : s₀.Within l t := by
  unfold execFaultReport at ht
  (try dsimp only at ht)
  injection ht with ht
  subst ht
  repeat' (first
    | (with_reducible first
      | exact h | assumption | apply State.within_ite | apply State.byTarget_within | apply State.atCore_within
      | apply State.arrive_within | apply State.tileArrival_within | apply State.faultArrives_within
      | apply State.bump_within)
    | split | (dsimp only; split) | (intro; intros))

theorem State.engineDone_within {l : List Area} {s₀ s : State} (h : s₀.Within l s) (h' e p)
    (hregs : Area.regs ∈ l := by assumption) (hhbm : Area.hbm ∈ l := by assumption)
    (hhbmc : Area.hbmc ∈ l := by assumption) (hctxs : Area.ctxs ∈ l := by assumption)
    (hports : Area.ports ∈ l := by assumption) (hhelm : Area.helm ∈ l := by assumption)
    (hfree : Area.free ∈ l := by assumption) (hout : Area.out ∈ l := by assumption) : s₀.Within l
    (State.engineDone s h' e p) := by
  unfold State.engineDone
  (try dsimp only)
  repeat' (first
    | (with_reducible first
      | exact h | assumption | apply State.WithinMk.of | exact Or.inl rfl | exact Or.inr (by assumption)
      | exact Or.inr ⟨by assumption, id⟩ | apply State.within_ite | apply State.modPass_within
      | apply State.retirePass_within)
    | (simp only [State.within_mk]; (try dsimp only)) | split | (dsimp only; split) | (intro; intros)
    | (dsimp only [id]))

theorem State.atEngine_within {l : List Area} {s₀ s : State} (h : s₀.Within l s) (p f g)
    (hf : ∀ c t, s₀.Within l t → s₀.Within l (f c t)) (hg : ∀ a i t, s₀.Within l t → s₀.Within l (g a i t))
    (hregs : Area.regs ∈ l := by assumption) (hnet : Area.net ∈ l := by assumption) (hfab : Area.fab ∈ l := by assumption)
    (hout : Area.out ∈ l := by assumption) : s₀.Within l (State.atEngine s p f g) := by
  unfold State.atEngine
  refine State.byTarget_within h _ _ _ _ ?_ ?_ ?_
  · intro c; exact State.atCore_within h _ _ _ fun t ht => hf _ _ (State.arrive_within ht _ _)
  · intro d t; exact State.tileArrival_within h _ _ _
  · intro a i; repeat' (first | exact h | exact State.arrive_within h _ _ | exact hg _ _ _ (State.arrive_within h _ _) | split)

theorem execPassDone_within {l : List Area} {s₀ s : State} (h : s₀.Within l s) (p) (t) (ht : execPassDone p s = .next t)
    (hregs : Area.regs ∈ l := by assumption) (hnet : Area.net ∈ l := by assumption) (hhbm : Area.hbm ∈ l := by assumption)
    (hhbmc : Area.hbmc ∈ l := by assumption) (hctxs : Area.ctxs ∈ l := by assumption)
    (hports : Area.ports ∈ l := by assumption) (hhelm : Area.helm ∈ l := by assumption)
    (hfab : Area.fab ∈ l := by assumption) (hfree : Area.free ∈ l := by assumption) (hout : Area.out ∈ l := by assumption)
    : s₀.Within l t := by
  unfold execPassDone at ht
  (try dsimp only at ht)
  injection ht with ht
  subst ht
  repeat' (first
    | (with_reducible first
      | exact h | assumption | apply State.within_ite | apply State.atEngine_within | apply State.engineDone_within)
    | split | (dsimp only; split) | (intro; intros))

theorem execReadData_within {l : List Area} {s₀ s : State} (h : s₀.Within l s) (p) (t) (ht : execReadData p s = .next t)
    (hregs : Area.regs ∈ l := by assumption) (hnet : Area.net ∈ l := by assumption)
    (hhbmc : Area.hbmc ∈ l := by assumption) (hxfers : Area.xfers ∈ l := by assumption)
    (hctxs : Area.ctxs ∈ l := by assumption) (hports : Area.ports ∈ l := by assumption)
    (hhelm : Area.helm ∈ l := by assumption) (hfab : Area.fab ∈ l := by assumption)
    (hfree : Area.free ∈ l := by assumption) (hout : Area.out ∈ l := by assumption) : s₀.Within l t := by
  unfold execReadData at ht
  (try dsimp only at ht)
  injection ht with ht
  subst ht
  repeat' (first
    | (with_reducible first
      | exact h | assumption | apply State.within_ite | apply State.atEngine_within | apply State.engineData_within)
    | split | (dsimp only; split) | (intro; intros))

theorem State.endedAnswer_within {l : List Area} {s₀ s : State} (h : s₀.Within l s) (x q p)
    (hcores : Area.cores ∈ l := by assumption) (hctxs : Area.ctxs ∈ l := by assumption) : s₀.Within l
    (State.endedAnswer s x q p) := by
  unfold State.endedAnswer
  (try dsimp only)
  repeat' (first
    | (with_reducible first
      | exact h | assumption | apply State.WithinMk.of | exact Or.inl rfl | exact Or.inr (by assumption)
      | exact Or.inr ⟨by assumption, id⟩ | apply State.within_ite | apply State.modCtx_within
      | apply State.stopLate_within)
    | (simp only [State.within_mk]; (try dsimp only)) | split | (dsimp only; split) | (intro; intros)
    | (dsimp only [id]))

theorem State.passAnswer_within {l : List Area} {s₀ s : State} (h : s₀.Within l s) (x id p)
    (hregs : Area.regs ∈ l := by assumption) (hcores : Area.cores ∈ l := by assumption)
    (hhbm : Area.hbm ∈ l := by assumption) (hhbmc : Area.hbmc ∈ l := by assumption)
    (hctxs : Area.ctxs ∈ l := by assumption) (hports : Area.ports ∈ l := by assumption)
    (hhelm : Area.helm ∈ l := by assumption) (hfree : Area.free ∈ l := by assumption)
    (hout : Area.out ∈ l := by assumption) : s₀.Within l (State.passAnswer s x id p) := by
  unfold State.passAnswer
  (try dsimp only)
  repeat' (first
    | (with_reducible first
      | exact h | assumption | apply State.within_ite | apply State.modPass_within | apply State.stopLate_within
      | apply State.retirePass_within)
    | split | (dsimp only; split) | (intro; intros)
    | (dsimp only [id]))

theorem State.engineAnswer_within {l : List Area} {s₀ s : State} (h : s₀.Within l s) (h' e p)
    (hregs : Area.regs ∈ l := by assumption) (hcores : Area.cores ∈ l := by assumption)
    (hnet : Area.net ∈ l := by assumption) (hhbm : Area.hbm ∈ l := by assumption) (hhbmc : Area.hbmc ∈ l := by assumption)
    (hxfers : Area.xfers ∈ l := by assumption) (hctxs : Area.ctxs ∈ l := by assumption)
    (hports : Area.ports ∈ l := by assumption) (hhelm : Area.helm ∈ l := by assumption)
    (hfree : Area.free ∈ l := by assumption) (hout : Area.out ∈ l := by assumption) : s₀.Within l
    (State.engineAnswer s h' e p) := by
  unfold State.engineAnswer
  (try dsimp only)
  repeat' (first
    | (with_reducible first
      | exact h | assumption | apply State.modXfer_within | apply State.settle_within | apply State.passAnswer_within
      | apply State.endedAnswer_within | apply State.modGrp_within)
    | split | (dsimp only; split) | (intro; intros)
    | (dsimp only [id]))

theorem State.coreAnswer_within {l : List Area} {s₀ s : State} (h : s₀.Within l s) (c p)
    (hregs : Area.regs ∈ l := by assumption) (hcores : Area.cores ∈ l := by assumption)
    (hctxs : Area.ctxs ∈ l := by assumption) (hports : Area.ports ∈ l := by assumption)
    (hout : Area.out ∈ l := by assumption) : s₀.Within l (State.coreAnswer s c p) := by
  unfold State.coreAnswer
  (try dsimp only)
  repeat' (first
    | (with_reducible first
      | exact h | assumption | apply State.WithinMk.of | exact Or.inl rfl | exact Or.inr (by assumption)
      | exact Or.inr ⟨by assumption, id⟩ | apply State.within_ite | apply State.bumpN_within
      | apply State.modCore_within | apply State.event_within)
    | (simp only [State.within_mk]; (try dsimp only)) | split | (dsimp only; split) | (intro; intros))

theorem execAnswer_within {l : List Area} {s₀ s : State} (h : s₀.Within l s) (p) (t) (ht : execAnswer p s = .next t)
    (hregs : Area.regs ∈ l := by assumption) (hcores : Area.cores ∈ l := by assumption)
    (hnet : Area.net ∈ l := by assumption) (hhbm : Area.hbm ∈ l := by assumption) (hhbmc : Area.hbmc ∈ l := by assumption)
    (hxfers : Area.xfers ∈ l := by assumption) (hctxs : Area.ctxs ∈ l := by assumption)
    (hports : Area.ports ∈ l := by assumption) (hhelm : Area.helm ∈ l := by assumption)
    (hfab : Area.fab ∈ l := by assumption) (hfree : Area.free ∈ l := by assumption) (hout : Area.out ∈ l := by assumption)
    : s₀.Within l t := by
  unfold execAnswer at ht
  (try dsimp only at ht)
  injection ht with ht
  subst ht
  repeat' (first
    | (with_reducible first
      | exact h | assumption | apply State.within_ite | apply State.atEngine_within | apply State.coreAnswer_within
      | apply State.engineAnswer_within)
    | split | (dsimp only; split) | (intro; intros))

theorem State.wakeFor_within {l : List Area} {s₀ s : State} (h : s₀.Within l s) (u dev)
    (hregs : Area.regs ∈ l := by assumption) (hcores : Area.cores ∈ l := by assumption)
    (hnet : Area.net ∈ l := by assumption) (hhbmc : Area.hbmc ∈ l := by assumption)
    (hxfers : Area.xfers ∈ l := by assumption) (hctxs : Area.ctxs ∈ l := by assumption)
    (hports : Area.ports ∈ l := by assumption) (hhelm : Area.helm ∈ l := by assumption)
    (hvault : Area.vault ∈ l := by assumption) (hstart : Area.start ∈ l := by assumption)
    (hfree : Area.free ∈ l := by assumption) (hout : Area.out ∈ l := by assumption) : s₀.Within l (State.wakeFor s u dev)
    := by
  unfold State.wakeFor
  (try dsimp only)
  repeat' (first
    | (with_reducible first
      | exact h | assumption | apply State.WithinMk.of | exact Or.inl rfl | exact Or.inr (by assumption)
      | exact Or.inr ⟨by assumption, id⟩ | apply State.within_ite | apply State.modXfer_within
      | apply State.wakeWaits_within)
    | (simp only [State.within_mk]; (try dsimp only)) | split | (dsimp only; split) | (intro; intros)
    | (dsimp only [id]))

theorem execTransferComplete_within {l : List Area} {s₀ s : State} (h : s₀.Within l s) (t') (t)
    (ht : execTransferComplete t' s = .next t) (hregs : Area.regs ∈ l := by assumption)
    (hcores : Area.cores ∈ l := by assumption) (hnet : Area.net ∈ l := by assumption)
    (hhbmc : Area.hbmc ∈ l := by assumption) (hxfers : Area.xfers ∈ l := by assumption)
    (hctxs : Area.ctxs ∈ l := by assumption) (hports : Area.ports ∈ l := by assumption)
    (hhelm : Area.helm ∈ l := by assumption) (hvault : Area.vault ∈ l := by assumption)
    (hstart : Area.start ∈ l := by assumption) (hfree : Area.free ∈ l := by assumption)
    (hout : Area.out ∈ l := by assumption) : s₀.Within l t := by
  unfold execTransferComplete at ht
  (try dsimp only at ht)
  injection ht with ht
  subst ht
  repeat' (first
    | (with_reducible first
      | exact h | assumption | apply State.within_ite | apply State.wakeFor_within | apply State.missXfer_within
      | apply State.finishXfer_within)
    | split | (dsimp only; split))

theorem State.giveSpare_within {l : List Area} {s₀ s : State} (h : s₀.Within l s) (c sp)
    (hcores : Area.cores ∈ l := by assumption) (hnet : Area.net ∈ l := by assumption)
    (hhelm : Area.helm ∈ l := by assumption) : s₀.Within l (State.giveSpare s c sp) := by
  unfold State.giveSpare
  (try dsimp only)
  repeat' (first
    | (with_reducible first
      | exact h | assumption | apply State.WithinMk.of | exact Or.inl rfl | exact Or.inr (by assumption)
      | exact Or.inr ⟨by assumption, id⟩ | apply State.setCore_within)
    | (simp only [State.within_mk]; (try dsimp only)))

theorem State.makeAbsent_within {l : List Area} {s₀ s : State} (h : s₀.Within l s) (c)
    (hnet : Area.net ∈ l := by assumption) : s₀.Within l (State.makeAbsent s c) := by
  unfold State.makeAbsent
  (try dsimp only)
  repeat' (first
    | (with_reducible first
      | exact h | assumption | apply State.WithinMk.of | exact Or.inl rfl | exact Or.inr (by assumption)
      | exact Or.inr ⟨by assumption, id⟩ | apply State.within_ite)
    | (simp only [State.within_mk]; (try dsimp only)) | split | (dsimp only; split))

theorem State.spareDone_within {l : List Area} {s₀ s : State} (h : s₀.Within l s) (c)
    (hregs : Area.regs ∈ l := by assumption) (hhbm : Area.hbm ∈ l := by assumption)
    (hhbmc : Area.hbmc ∈ l := by assumption) (hctxs : Area.ctxs ∈ l := by assumption)
    (hports : Area.ports ∈ l := by assumption) (hhelm : Area.helm ∈ l := by assumption)
    (hfree : Area.free ∈ l := by assumption) (hout : Area.out ∈ l := by assumption) : s₀.Within l (State.spareDone s c) :=
    by
  unfold State.spareDone
  (try dsimp only)
  repeat' (first
    | (with_reducible first
      | exact h | assumption | apply State.WithinMk.of | exact Or.inl rfl | exact Or.inr (by assumption)
      | exact Or.inr ⟨by assumption, id⟩ | apply State.within_foldl | apply State.within_foldl_fst
      | apply State.modPass_within | apply State.decidePass_within)
    | (simp only [State.within_mk]; (try dsimp only)) | (intro; intros)
    | (dsimp only)
    | (dsimp only [id]))

theorem State.chartCore_within {l : List Area} {s₀ s : State} (h : s₀.Within l s) (c)
    (hregs : Area.regs ∈ l := by assumption) (hhelm : Area.helm ∈ l := by assumption)
    (hvault : Area.vault ∈ l := by assumption) (hstart : Area.start ∈ l := by assumption) : s₀.Within l
    (State.chartCore s c) := by
  unfold State.chartCore
  (try dsimp only)
  repeat' (with_reducible first
      | exact h | assumption | apply State.chartAdd_within)

theorem execCoreSpareAssign_within {l : List Area} {s₀ s : State} (h : s₀.Within l s) (c agreed) (t)
    (ht : execCoreSpareAssign c agreed s = .next t) (hregs : Area.regs ∈ l := by assumption)
    (hcores : Area.cores ∈ l := by assumption) (hnet : Area.net ∈ l := by assumption)
    (hhbm : Area.hbm ∈ l := by assumption) (hhbmc : Area.hbmc ∈ l := by assumption)
    (hctxs : Area.ctxs ∈ l := by assumption) (hports : Area.ports ∈ l := by assumption)
    (hhelm : Area.helm ∈ l := by assumption) (hvault : Area.vault ∈ l := by assumption)
    (hstart : Area.start ∈ l := by assumption) (hfree : Area.free ∈ l := by assumption)
    (hout : Area.out ∈ l := by assumption) : s₀.Within l t := by
  unfold execCoreSpareAssign at ht
  (try dsimp only at ht)
  injection ht with ht
  subst ht
  repeat' (first
    | (with_reducible first
      | exact h | assumption | apply State.within_ite | apply State.makeAbsent_within | apply State.spareDone_within
      | apply State.chartCore_within | apply State.giveSpare_within)
    | split | (dsimp only; split))

theorem State.inputsSame_within {l : List Area} {s₀ s : State} (h : s₀.Within l s) (x p p0 p1)
    (hregs : Area.regs ∈ l := by assumption) (hcores : Area.cores ∈ l := by assumption)
    (hnet : Area.net ∈ l := by assumption) (hhbmc : Area.hbmc ∈ l := by assumption)
    (hhelm : Area.helm ∈ l := by assumption) (hvault : Area.vault ∈ l := by assumption)
    (hstart : Area.start ∈ l := by assumption) (hfree : Area.free ∈ l := by assumption) : s₀.Within l
    (State.inputsSame s x p p0 p1).1 := by
  induction p0 generalizing s x p p1 with
  | nil =>
    unfold State.inputsSame
    (try dsimp only)
    repeat' (first
      | (with_reducible first
        | exact h | assumption | apply State.within_ite | apply State.within_ite_fst | apply State.captureOf_within)
      | split | (dsimp only; split) | (intro; intros)
      | (dsimp only))
  | cons x xs ih =>
    unfold State.inputsSame
    (try dsimp only)
    repeat' (first
      | (with_reducible first
        | exact h | assumption | apply ih | apply State.within_ite | apply State.within_ite_fst | apply State.captureOf_within)
      | split | (dsimp only; split) | (intro; intros)
      | (dsimp only))

theorem State.rearm_within {l : List Area} {s₀ s : State} (h : s₀.Within l s) (x p)
    (hcores : Area.cores ∈ l := by assumption) : s₀.Within l (State.rearm s x p) := by
  unfold State.rearm
  (try dsimp only)
  repeat' (first
    | (with_reducible first
      | exact h | assumption | apply State.WithinMk.of | exact Or.inl rfl | exact Or.inr (by assumption)
      | exact Or.inr ⟨by assumption, id⟩ | apply State.within_foldl | apply State.within_foldl_fst
      | apply State.modCore_within)
    | (simp only [State.within_mk]; (try dsimp only)) | (intro; intros)
    | (dsimp only))

theorem State.relaunch_within {l : List Area} {s₀ s : State} (h : s₀.Within l s) (x p)
    (hregs : Area.regs ∈ l := by assumption) (hcores : Area.cores ∈ l := by assumption)
    (hnet : Area.net ∈ l := by assumption) (hhbm : Area.hbm ∈ l := by assumption) (hhbmc : Area.hbmc ∈ l := by assumption)
    (hnextId : Area.nextId ∈ l := by assumption) (hctxs : Area.ctxs ∈ l := by assumption)
    (hhelm : Area.helm ∈ l := by assumption) (hfree : Area.free ∈ l := by assumption) : s₀.Within l (State.relaunch s x p)
    := by
  unfold State.relaunch
  (try dsimp only)
  repeat' (first
    | (with_reducible first
      | exact h | assumption | apply State.WithinMk.of | exact Or.inl rfl | exact Or.inr (by assumption)
      | exact Or.inr ⟨by assumption, id⟩ | apply State.rearm_within | apply State.modPass_within
      | apply State.bump_within | apply State.logByte_within | apply State.sendImage_within)
    | (simp only [State.within_mk]; (try dsimp only)) | (intro; intros)
    | (dsimp only [id]))

theorem State.replaySend_within {l : List Area} {s₀ s : State} (h : s₀.Within l s) (x p dev lose)
    (hlose' : ∀ x0, (s₀.Within l x0) → s₀.Within l (lose x0)) (hregs : Area.regs ∈ l := by assumption)
    (hcores : Area.cores ∈ l := by assumption) (hnet : Area.net ∈ l := by assumption)
    (hhbm : Area.hbm ∈ l := by assumption) (hhbmc : Area.hbmc ∈ l := by assumption)
    (hnextId : Area.nextId ∈ l := by assumption) (hctxs : Area.ctxs ∈ l := by assumption)
    (hhelm : Area.helm ∈ l := by assumption) (hvault : Area.vault ∈ l := by assumption)
    (hstart : Area.start ∈ l := by assumption) (hfree : Area.free ∈ l := by assumption) : s₀.Within l
    (State.replaySend s x p dev lose) := by
  unfold State.replaySend
  (try dsimp only)
  repeat' (first
    | (with_reducible first
      | exact h | assumption | apply State.within_ite | apply State.within_ite_fst | apply hlose'
      | apply State.imageBad_within | apply State.relaunch_within)
    | split | (dsimp only; split) | (intro; intros)
    | (dsimp only))

theorem Refill.row_within {l : List Area} {s₀ : State} {a : Refill} (h : s₀.Within l a.s) (x w c row data)
    (hregs : Area.regs ∈ l := by assumption) (hcores : Area.cores ∈ l := by assumption)
    (hnet : Area.net ∈ l := by assumption) (hhelm : Area.helm ∈ l := by assumption)
    (hvault : Area.vault ∈ l := by assumption) (hstart : Area.start ∈ l := by assumption) : s₀.Within l (a.row x w c row data).s := by
  unfold Refill.row; split
  · exact h
  · exact State.engineWrite_within h _ _ _ _ _ _ _

theorem Refill.rows_within {α : Type} {l : List Area} {s₀ : State} (xs : List α) (f : Refill → α → Refill) {a : Refill} (h : s₀.Within l a.s)
    (hf : ∀ b i, s₀.Within l b.s → s₀.Within l (f b i).s) : s₀.Within l (xs.foldl f a).s := by
  induction xs generalizing a with
  | nil => exact h
  | cons i xs ih => exact ih (hf _ _ h)

theorem Refill.core_within {l : List Area} {s₀ : State} {a : Refill} (h : s₀.Within l a.s) (x w e c j)
    (hregs : Area.regs ∈ l := by assumption) (hcores : Area.cores ∈ l := by assumption)
    (hnet : Area.net ∈ l := by assumption) (hhelm : Area.helm ∈ l := by assumption)
    (hvault : Area.vault ∈ l := by assumption) (hstart : Area.start ∈ l := by assumption)
    (hhbmc : Area.hbmc ∈ l := by assumption) (hfree : Area.free ∈ l := by assumption) : s₀.Within l (a.core x w e c j).s := by
  unfold Refill.core; split
  · exact h
  · exact Refill.rows_within _ _ (State.devBytes_within h _ _ _ _) fun b i hb => Refill.row_within hb _ _ _ _ _

theorem State.refillAll_within {l : List Area} {s₀ s : State} (h : s₀.Within l s) (x p dev)
    (hregs : Area.regs ∈ l := by assumption) (hcores : Area.cores ∈ l := by assumption)
    (hnet : Area.net ∈ l := by assumption) (hhelm : Area.helm ∈ l := by assumption)
    (hvault : Area.vault ∈ l := by assumption) (hstart : Area.start ∈ l := by assumption)
    (hhbmc : Area.hbmc ∈ l := by assumption) (hfree : Area.free ∈ l := by assumption) : s₀.Within l (State.refillAll s x p dev).s :=
  Refill.rows_within _ _ h fun b e hb => Refill.rows_within _ _ hb fun b c hb => Refill.core_within hb _ _ _ _ _

theorem execReplay_within {l : List Area} {s₀ s : State} (h : s₀.Within l s) (x pass t)
    (ht : execReplay x pass s = .next t) (hregs : Area.regs ∈ l := by assumption)
    (hcores : Area.cores ∈ l := by assumption) (hnet : Area.net ∈ l := by assumption)
    (hhbm : Area.hbm ∈ l := by assumption) (hhbmc : Area.hbmc ∈ l := by assumption)
    (hnextId : Area.nextId ∈ l := by assumption) (hctxs : Area.ctxs ∈ l := by assumption)
    (hports : Area.ports ∈ l := by assumption) (hhelm : Area.helm ∈ l := by assumption)
    (hvault : Area.vault ∈ l := by assumption) (hstart : Area.start ∈ l := by assumption)
    (hfree : Area.free ∈ l := by assumption) (hout : Area.out ∈ l := by assumption) : s₀.Within l t := by
  unfold execReplay at ht
  injection ht with ht
  subst ht
  split
  · exact h
  · rename_i p hp
    split
    · exact State.decidePass_within h _ _
    · split
      · exact h
      · dsimp only
        have k := State.inputsSame_within h x p p.inputs pass.dev
        generalize s.inputsSame x p p.inputs pass.dev = i at *
        split
        · exact k
        · exact State.losePass_within k _ _ _ _ _ _ _
        · have kr := State.refillAll_within k x p (s.pastCaptures p pass.dev)
          generalize i.1.refillAll x p (s.pastCaptures p pass.dev) = r at *
          split
          · exact kr
          · exact State.losePass_within kr _ _ _ _ _ _ _
          · exact State.replaySend_within kr _ _ _ _ fun t ht => State.losePass_within ht _ _ _ _ _ _ _

theorem State.flip_within {l : List Area} {s₀ s : State} (h : s₀.Within l s) (x q)
    (hregs : Area.regs ∈ l := by assumption) (hnet : Area.net ∈ l := by assumption)
    (hnextId : Area.nextId ∈ l := by assumption) (hctxs : Area.ctxs ∈ l := by assumption) : s₀.Within l (State.flip s x q)
    := by
  unfold State.flip
  (try dsimp only)
  repeat' (first
    | (with_reducible first
      | exact h | assumption | apply State.WithinMk.of | exact Or.inl rfl | exact Or.inr (by assumption)
      | exact Or.inr ⟨by assumption, id⟩ | apply State.wrapInc_within | apply State.modGrp_within
      | apply State.sendAll_within)
    | (simp only [State.within_mk]; (try dsimp only)) | (intro; intros)
    | (dsimp only)
    | (dsimp only [id]))

theorem execFixFlip_within {l : List Area} {s₀ s : State} (h : s₀.Within l s) (x) (t) (ht : execFixFlip x s = .next t)
    (hregs : Area.regs ∈ l := by assumption) (hnet : Area.net ∈ l := by assumption)
    (hnextId : Area.nextId ∈ l := by assumption) (hctxs : Area.ctxs ∈ l := by assumption) : s₀.Within l t := by
  unfold execFixFlip at ht
  (try dsimp only at ht)
  injection ht with ht
  subst ht
  repeat' (first
    | (with_reducible first
      | exact h | assumption | apply State.within_ite | apply State.flip_within)
    | split | (dsimp only; split))

theorem execFixPageCopyHome_within {l : List Area} {s₀ s : State} (h : s₀.Within l s) (stack page) (t)
    (ht : execFixPageCopyHome stack page s = .next t) (hregs : Area.regs ∈ l := by assumption)
    (hhbm : Area.hbm ∈ l := by assumption) (hhbmc : Area.hbmc ∈ l := by assumption)
    (hctxs : Area.ctxs ∈ l := by assumption) (hhelm : Area.helm ∈ l := by assumption)
    (hfree : Area.free ∈ l := by assumption) : s₀.Within l t := by
  unfold execFixPageCopyHome at ht
  (try dsimp only at ht)
  injection ht with ht
  subst ht
  repeat' (first
    | (with_reducible first
      | exact h | assumption | apply State.within_ite | apply State.copyHome_within)
    | split | (dsimp only; split) | (intro; intros))

theorem State.publish_within {l : List Area} {s₀ s : State} (h : s₀.Within l s) (x q)
    (hregs : Area.regs ∈ l := by assumption) (hctxs : Area.ctxs ∈ l := by assumption)
    (hports : Area.ports ∈ l := by assumption) (hout : Area.out ∈ l := by assumption) : s₀.Within l (State.publish s x q)
    := by
  unfold State.publish
  (try dsimp only)
  repeat' (first
    | (with_reducible first
      | exact h | assumption | apply State.WithinMk.of | exact Or.inl rfl | exact Or.inr (by assumption)
      | exact Or.inr ⟨by assumption, id⟩ | apply State.within_foldl | apply State.within_foldl_fst
      | apply State.offerAt_within | apply State.modGrp_within | apply State.finishCopy_within
      | apply State.dropPublished_within)
    | (simp only [State.within_mk]; (try dsimp only)) | split | (dsimp only; split) | (intro; intros)
    | (dsimp only [id]))

theorem State.signalNext_within {l : List Area} {s₀ s : State} (h : s₀.Within l s) (x q d seen)
    (hregs : Area.regs ∈ l := by assumption) (hcores : Area.cores ∈ l := by assumption)
    (hnet : Area.net ∈ l := by assumption) (hhbmc : Area.hbmc ∈ l := by assumption)
    (hxfers : Area.xfers ∈ l := by assumption) (hnextId : Area.nextId ∈ l := by assumption)
    (hctxs : Area.ctxs ∈ l := by assumption) (hports : Area.ports ∈ l := by assumption)
    (hhelm : Area.helm ∈ l := by assumption) (hvault : Area.vault ∈ l := by assumption)
    (hstart : Area.start ∈ l := by assumption) (hfree : Area.free ∈ l := by assumption)
    (hout : Area.out ∈ l := by assumption) : s₀.Within l (State.signalNext s x q d seen) := by
  unfold State.signalNext
  (try dsimp only)
  repeat' (first
    | (with_reducible first
      | exact h | assumption | apply State.WithinMk.of | exact Or.inl rfl | exact Or.inr (by assumption)
      | exact Or.inr ⟨by assumption, id⟩ | apply State.within_ite | apply State.modGrp_within
      | apply State.signalTo_within | apply State.putBegins_within)
    | (simp only [State.within_mk]; (try dsimp only)) | split | (dsimp only; split) | (intro; intros)
    | (dsimp only [id]))

theorem execFixPublishSignals_within {l : List Area} {s₀ s : State} (h : s₀.Within l s) (x flag) (t)
    (ht : execFixPublishSignals x flag s = .next t) (hregs : Area.regs ∈ l := by assumption)
    (hcores : Area.cores ∈ l := by assumption) (hnet : Area.net ∈ l := by assumption)
    (hhbmc : Area.hbmc ∈ l := by assumption) (hxfers : Area.xfers ∈ l := by assumption)
    (hnextId : Area.nextId ∈ l := by assumption) (hctxs : Area.ctxs ∈ l := by assumption)
    (hports : Area.ports ∈ l := by assumption) (hhelm : Area.helm ∈ l := by assumption)
    (hvault : Area.vault ∈ l := by assumption) (hstart : Area.start ∈ l := by assumption)
    (hfree : Area.free ∈ l := by assumption) (hout : Area.out ∈ l := by assumption) : s₀.Within l t := by
  unfold execFixPublishSignals at ht
  (try dsimp only at ht)
  injection ht with ht
  subst ht
  repeat' (first
    | (with_reducible first
      | exact h | assumption | apply State.within_ite | apply State.publish_within | apply State.signalNext_within)
    | split | (dsimp only; split))

theorem State.cqHeadTo_within {l : List Area} {s₀ s : State} (h : s₀.Within l s) (x v)
    (hregs : Area.regs ∈ l := by assumption) (hhbm : Area.hbm ∈ l := by assumption)
    (hhbmc : Area.hbmc ∈ l := by assumption) (hctxs : Area.ctxs ∈ l := by assumption)
    (hports : Area.ports ∈ l := by assumption) (hhelm : Area.helm ∈ l := by assumption)
    (hfree : Area.free ∈ l := by assumption) (hout : Area.out ∈ l := by assumption) : s₀.Within l (State.cqHeadTo s x v)
    := by
  unfold State.cqHeadTo
  (try dsimp only)
  repeat' (first
    | (with_reducible first
      | exact h | assumption | apply State.WithinMk.of | exact Or.inl rfl | exact Or.inr (by assumption)
      | exact Or.inr ⟨by assumption, id⟩ | apply State.modCtx_within | apply State.cqGo_within
      | apply State.retirePasses_within)
    | (simp only [State.within_mk]; (try dsimp only)) | (intro; intros))

theorem execCqHead_within {l : List Area} {s₀ s : State} (h : s₀.Within l s) (via x value) (t)
    (ht : execCqHead via x value s = .next t) (hregs : Area.regs ∈ l := by assumption)
    (hhbm : Area.hbm ∈ l := by assumption) (hhbmc : Area.hbmc ∈ l := by assumption)
    (hctxs : Area.ctxs ∈ l := by assumption) (hports : Area.ports ∈ l := by assumption)
    (hhelm : Area.helm ∈ l := by assumption) (hfree : Area.free ∈ l := by assumption)
    (hout : Area.out ∈ l := by assumption) : s₀.Within l t := by
  unfold execCqHead at ht
  (try dsimp only at ht)
  injection ht with ht
  subst ht
  repeat' (first
    | (with_reducible first
      | exact h | assumption | apply State.within_ite | apply State.doorbellPage_within | apply State.bump_within
      | apply State.cqHeadTo_within)
    | split | (dsimp only; split) | (intro; intros))

theorem State.salEnter_within {l : List Area} {s₀ s : State} (h : s₀.Within l s) (die p v)
    (hregs : Area.regs ∈ l := by assumption) (hhelm : Area.helm ∈ l := by assumption) : s₀.Within l
    (State.salEnter s die p v) := by
  unfold State.salEnter
  (try dsimp only)
  repeat' (first
    | (with_reducible first
      | exact h | assumption | apply State.within_ite | apply State.setReg_within | apply State.raise_within)
    | split | (dsimp only; split))

theorem State.salRestart_within {l : List Area} {s₀ s : State} (h : s₀.Within l s) (die p)
    (hsal : Area.sal ∈ l := by assumption) : s₀.Within l (State.salRestart s die p) := by
  unfold State.salRestart
  (try dsimp only)
  repeat' (first
    | (with_reducible first
      | exact h | assumption | apply State.WithinMk.of | exact Or.inl rfl | exact Or.inr (by assumption)
      | exact Or.inr ⟨by assumption, id⟩ | apply State.within_ite | apply State.within_ite_fst
      | apply State.modSal_within)
    | (simp only [State.within_mk]; (try dsimp only)) | split | (dsimp only; split) | (intro; intros)
    | (dsimp only))

theorem State.linkPut_within {l : List Area} {s₀ s : State} (h : s₀.Within l s) (die p k)
    (hsal : Area.sal ∈ l := by assumption) (hout : Area.out ∈ l := by assumption) : s₀.Within l (State.linkPut s die p k)
    := by
  unfold State.linkPut
  (try dsimp only)
  repeat' (first
    | (with_reducible first
      | exact h | assumption | apply State.WithinMk.of | exact Or.inl rfl | exact Or.inr (by assumption)
      | exact Or.inr ⟨by assumption, id⟩ | apply State.modSal_within | apply State.send_within)
    | (simp only [State.within_mk]; (try dsimp only)) | (intro; intros))

theorem State.resend_within {l : List Area} {s₀ s : State} (h : s₀.Within l s) (die p l')
    (hregs : Area.regs ∈ l := by assumption) (hout : Area.out ∈ l := by assumption) : s₀.Within l
    (State.resend s die p l') := by
  unfold State.resend
  (try dsimp only)
  repeat' (first
    | (with_reducible first
      | exact h | assumption | apply State.within_foldl | apply State.within_foldl_fst | apply State.send_within
      | apply State.bumpN_within)
    | (intro; intros)
    | (dsimp only))

theorem State.gateRefuse_within {l : List Area} {s₀ s : State} (h : s₀.Within l s) (die p k q)
    (hregs : Area.regs ∈ l := by assumption) (hnet : Area.net ∈ l := by assumption) : s₀.Within l
    (State.gateRefuse s die p k q) := by
  unfold State.gateRefuse
  (try dsimp only)
  repeat' (with_reducible first
      | exact h | assumption | apply State.refuse_within)

theorem State.dropTraffic_within {l : List Area} {s₀ s : State} (h : s₀.Within l s) (die p)
    (hregs : Area.regs ∈ l := by assumption) (hnet : Area.net ∈ l := by assumption) (hsal : Area.sal ∈ l := by assumption)
    : s₀.Within l (State.dropTraffic s die p) := by
  unfold State.dropTraffic
  (try dsimp only)
  repeat' (first
    | (with_reducible first
      | exact h | assumption | apply State.WithinMk.of | exact Or.inl rfl | exact Or.inr (by assumption)
      | exact Or.inr ⟨by assumption, id⟩ | apply State.within_foldl | apply State.within_foldl_fst
      | apply State.modSal_within | apply State.bumpN_within | apply State.gateRefuse_within)
    | (simp only [State.within_mk]; (try dsimp only)) | (intro; intros))

theorem State.salDown_within {l : List Area} {s₀ s : State} (h : s₀.Within l s) (die p reason)
    (hregs : Area.regs ∈ l := by assumption) (hnet : Area.net ∈ l := by assumption)
    (hhelm : Area.helm ∈ l := by assumption) (hsal : Area.sal ∈ l := by assumption) : s₀.Within l
    (State.salDown s die p reason) := by
  unfold State.salDown
  (try dsimp only)
  repeat' (with_reducible first
      | exact h | assumption | apply State.bump_within | apply State.setReg_within | apply State.salEnter_within
      | apply State.dropTraffic_within)

theorem State.salUnseen_within {l : List Area} {s₀ s : State} (h : s₀.Within l s) (die p)
    (hregs : Area.regs ∈ l := by assumption) : s₀.Within l (State.salUnseen s die p) := by
  unfold State.salUnseen
  (try dsimp only)
  repeat' (first
    | (with_reducible first
      | exact h | assumption | apply State.within_ite | apply State.setReg_within)
    | split | (dsimp only; split))

theorem State.salIdle_within {l : List Area} {s₀ s : State} (h : s₀.Within l s) (die p)
    (hregs : Area.regs ∈ l := by assumption) (hnet : Area.net ∈ l := by assumption)
    (hhelm : Area.helm ∈ l := by assumption) (hsal : Area.sal ∈ l := by assumption) : s₀.Within l (State.salIdle s die p)
    := by
  unfold State.salIdle
  (try dsimp only)
  repeat' (first
    | (with_reducible first
      | exact h | assumption | apply State.within_ite | apply State.salUnseen_within | apply State.salEnter_within
      | apply State.dropTraffic_within)
    | split | (dsimp only; split))

theorem State.salUp_within {l : List Area} {s₀ s : State} (h : s₀.Within l s) (die p rung)
    (hregs : Area.regs ∈ l := by assumption) (hhelm : Area.helm ∈ l := by assumption)
    (hsal : Area.sal ∈ l := by assumption) (hout : Area.out ∈ l := by assumption) : s₀.Within l (State.salUp s die p rung)
    := by
  unfold State.salUp
  (try dsimp only)
  repeat' (first
    | (with_reducible first
      | exact h | assumption | apply State.WithinMk.of | exact Or.inl rfl | exact Or.inr (by assumption)
      | exact Or.inr ⟨by assumption, id⟩ | apply State.setReg_within | apply State.modSal_within
      | apply State.salEnter_within | apply State.resend_within)
    | (simp only [State.within_mk]; (try dsimp only)) | (intro; intros))

theorem State.salDetect_within {l : List Area} {s₀ s : State} (h : s₀.Within l s) (die p)
    (hregs : Area.regs ∈ l := by assumption) (hhelm : Area.helm ∈ l := by assumption)
    (hsal : Area.sal ∈ l := by assumption) : s₀.Within l (State.salDetect s die p) := by
  unfold State.salDetect
  (try dsimp only)
  repeat' (first
    | (with_reducible first
      | exact h | assumption | apply State.WithinMk.of | exact Or.inl rfl | exact Or.inr (by assumption)
      | exact Or.inr ⟨by assumption, id⟩ | apply State.salUnseen_within | apply State.modSal_within
      | apply State.salEnter_within)
    | (simp only [State.within_mk]; (try dsimp only)) | (intro; intros))

theorem execSallanBringup_within {l : List Area} {s₀ s : State} (h : s₀.Within l s) (die sp) (t)
    (ht : execSallanBringup die sp s = .next t) (hregs : Area.regs ∈ l := by assumption)
    (hhelm : Area.helm ∈ l := by assumption) (hsal : Area.sal ∈ l := by assumption) : s₀.Within l t := by
  unfold execSallanBringup at ht
  (try dsimp only at ht)
  injection ht with ht
  subst ht
  repeat' (first
    | (with_reducible first
      | exact h | assumption | apply State.within_ite | apply State.salDetect_within)
    | split | (dsimp only; split))

theorem execSallanRetryTimer_within {l : List Area} {s₀ s : State} (h : s₀.Within l s) (die sp) (t)
    (ht : execSallanRetryTimer die sp s = .next t) (hregs : Area.regs ∈ l := by assumption)
    (hhelm : Area.helm ∈ l := by assumption) (hsal : Area.sal ∈ l := by assumption) : s₀.Within l t := by
  unfold execSallanRetryTimer at ht
  (try dsimp only at ht)
  injection ht with ht
  subst ht
  repeat' (first
    | (with_reducible first
      | exact h | assumption | apply State.within_ite | apply State.salDetect_within)
    | split | (dsimp only; split))

theorem State.chooseWidth_within {l : List Area} {s₀ s : State} (h : s₀.Within l s) (die p)
    (hregs : Area.regs ∈ l := by assumption) (hnet : Area.net ∈ l := by assumption)
    (hhelm : Area.helm ∈ l := by assumption) (hsal : Area.sal ∈ l := by assumption) : s₀.Within l
    (State.chooseWidth s die p) := by
  unfold State.chooseWidth
  (try dsimp only)
  repeat' (first
    | (with_reducible first
      | exact h | assumption | apply State.WithinMk.of | exact Or.inl rfl | exact Or.inr (by assumption)
      | exact Or.inr ⟨by assumption, id⟩ | apply State.salDown_within | apply State.modSal_within
      | apply State.setReg_within | apply State.salEnter_within)
    | (simp only [State.within_mk]; (try dsimp only)) | split | (dsimp only; split) | (intro; intros))

theorem State.sayHello_within {l : List Area} {s₀ s : State} (h : s₀.Within l s) (die p r)
    (hout : Area.out ∈ l := by assumption) : s₀.Within l (State.sayHello s die p r) := by
  unfold State.sayHello
  (try dsimp only)
  repeat' (first
    | (with_reducible first
      | exact h | assumption | apply State.within_ite | apply State.send_within)
    | split | (dsimp only; split) | (intro; intros))

theorem State.noteLane_within {l : List Area} {s₀ s : State} (h : s₀.Within l s) (die p r i)
    (hregs : Area.regs ∈ l := by assumption) : s₀.Within l (State.noteLane s die p r i) := by
  unfold State.noteLane
  (try dsimp only)
  repeat' (first
    | (with_reducible first
      | exact h | assumption | apply State.within_ite | apply State.setReg_within)
    | split | (dsimp only; split))

theorem State.notePeer_within {l : List Area} {s₀ s : State} (h : s₀.Within l s) (die p r)
    (hregs : Area.regs ∈ l := by assumption) (hsal : Area.sal ∈ l := by assumption) : s₀.Within l
    (State.notePeer s die p r) := by
  unfold State.notePeer
  (try dsimp only)
  repeat' (first
    | (with_reducible first
      | exact h | assumption | apply State.WithinMk.of | exact Or.inl rfl | exact Or.inr (by assumption)
      | exact Or.inr ⟨by assumption, id⟩ | apply State.within_ite | apply State.setReg_within
      | apply State.modSal_within)
    | (simp only [State.within_mk]; (try dsimp only)) | split | (dsimp only; split) | (intro; intros))

theorem State.rawStart_within {l : List Area} {s₀ s : State} (h : s₀.Within l s) (die p r)
    (hsal : Area.sal ∈ l := by assumption) : s₀.Within l (State.rawStart s die p r) := by
  unfold State.rawStart
  (try dsimp only)
  repeat' (first
    | (with_reducible first
      | exact h | assumption | apply State.WithinMk.of | exact Or.inl rfl | exact Or.inr (by assumption)
      | exact Or.inr ⟨by assumption, id⟩ | apply State.within_foldl | apply State.within_foldl_fst
      | apply State.modSal_within)
    | (simp only [State.within_mk]; (try dsimp only)) | (intro; intros))

theorem execSallanDetectDone_within {l : List Area} {s₀ s : State} (h : s₀.Within l s) (die sp res) (t)
    (ht : execSallanDetectDone die sp res s = .next t) (hregs : Area.regs ∈ l := by assumption)
    (hnet : Area.net ∈ l := by assumption) (hhelm : Area.helm ∈ l := by assumption) (hsal : Area.sal ∈ l := by assumption)
    (hout : Area.out ∈ l := by assumption) : s₀.Within l t := by
  unfold execSallanDetectDone at ht
  (try dsimp only at ht)
  injection ht with ht
  subst ht
  repeat' (first
    | (with_reducible first
      | exact h | assumption | apply State.WithinMk.of | exact Or.inl rfl | exact Or.inr (by assumption)
      | exact Or.inr ⟨by assumption, id⟩ | apply State.within_ite | apply State.within_foldl
      | apply State.within_foldl_fst | apply State.rawStart_within | apply State.noteLane_within
      | apply State.sayHello_within | apply State.setReg_within | apply State.modSal_within
      | apply State.notePeer_within | apply State.salDown_within | apply State.chooseWidth_within)
    | (simp only [State.within_mk]; (try dsimp only)) | split | (dsimp only; split) | (intro; intros))

theorem State.roseDwell_within {l : List Area} {s₀ s : State} (h : s₀.Within l s) (die p r)
    (hregs : Area.regs ∈ l := by assumption) (hnet : Area.net ∈ l := by assumption)
    (hhelm : Area.helm ∈ l := by assumption) (hsal : Area.sal ∈ l := by assumption) (hout : Area.out ∈ l := by assumption)
    : s₀.Within l (State.roseDwell s die p r) := by
  unfold State.roseDwell
  (try dsimp only)
  repeat' (first
    | (with_reducible first
      | exact h | assumption | apply State.WithinMk.of | exact Or.inl rfl | exact Or.inr (by assumption)
      | exact Or.inr ⟨by assumption, id⟩ | apply State.within_ite | apply State.within_foldl
      | apply State.within_foldl_fst | apply State.modSal_within | apply State.setReg_within
      | apply State.salUp_within | apply State.salDown_within | apply State.chooseWidth_within)
    | (simp only [State.within_mk]; (try dsimp only)) | split | (dsimp only; split) | (intro; intros))

theorem State.rawDwell_within {l : List Area} {s₀ s : State} (h : s₀.Within l s) (die p r e)
    (hregs : Area.regs ∈ l := by assumption) (hsal : Area.sal ∈ l := by assumption) : s₀.Within l
    (State.rawDwell s die p r e) := by
  unfold State.rawDwell
  (try dsimp only)
  repeat' (first
    | (with_reducible first
      | exact h | assumption | apply State.WithinMk.of | exact Or.inl rfl | exact Or.inr (by assumption)
      | exact Or.inr ⟨by assumption, id⟩ | apply State.within_ite | apply State.within_ite_fst
      | apply State.modSal_within | apply State.setReg_within)
    | (simp only [State.within_mk]; (try dsimp only)) | split | (dsimp only; split) | (intro; intros)
    | (dsimp only))

theorem State.noteErrs_within {l : List Area} {s₀ s : State} (h : s₀.Within l s) (die p lanes errs)
    (hregs : Area.regs ∈ l := by assumption) : s₀.Within l (State.noteErrs s die p lanes errs) := by
  unfold State.noteErrs
  (try dsimp only)
  repeat' (first
    | (with_reducible first
      | exact h | assumption | apply State.within_foldl | apply State.within_foldl_fst | apply State.setReg_within)
    | (intro; intros))

theorem execSallanRungDwellDone_within {l : List Area} {s₀ s : State} (h : s₀.Within l s) (die sp r) (t)
    (ht : execSallanRungDwellDone die sp r s = .next t) (hregs : Area.regs ∈ l := by assumption)
    (hnet : Area.net ∈ l := by assumption) (hhelm : Area.helm ∈ l := by assumption) (hsal : Area.sal ∈ l := by assumption)
    (hout : Area.out ∈ l := by assumption) : s₀.Within l t := by
  unfold execSallanRungDwellDone at ht
  (try dsimp only at ht)
  injection ht with ht
  subst ht
  repeat' (first
    | (with_reducible first
      | exact h | assumption | apply State.within_ite | apply State.within_ite_fst | apply State.within_foldl
      | apply State.within_foldl_fst | apply State.noteErrs_within | apply State.rawDwell_within
      | apply State.roseDwell_within)
    | split | (dsimp only; split) | (intro; intros)
    | (dsimp only))

theorem State.salRetrain_within {l : List Area} {s₀ s : State} (h : s₀.Within l s) (die p)
    (hregs : Area.regs ∈ l := by assumption) (hhelm : Area.helm ∈ l := by assumption)
    (hsal : Area.sal ∈ l := by assumption) : s₀.Within l (State.salRetrain s die p) := by
  unfold State.salRetrain
  (try dsimp only)
  repeat' (first
    | (with_reducible first
      | exact h | assumption | apply State.WithinMk.of | exact Or.inl rfl | exact Or.inr (by assumption)
      | exact Or.inr ⟨by assumption, id⟩ | apply State.bump_within | apply State.modSal_within
      | apply State.salEnter_within)
    | (simp only [State.within_mk]; (try dsimp only)) | (intro; intros))

theorem State.laneLost_within {l : List Area} {s₀ s : State} (h : s₀.Within l s) (die p lane)
    (hregs : Area.regs ∈ l := by assumption) (hhelm : Area.helm ∈ l := by assumption)
    (hsal : Area.sal ∈ l := by assumption) : s₀.Within l (State.laneLost s die p lane) := by
  unfold State.laneLost
  (try dsimp only)
  repeat' (first
    | (with_reducible first
      | exact h | assumption | apply State.WithinMk.of | exact Or.inl rfl | exact Or.inr (by assumption)
      | exact Or.inr ⟨by assumption, id⟩ | apply State.within_ite | apply State.salRetrain_within
      | apply State.modSal_within)
    | (simp only [State.within_mk]; (try dsimp only)) | split | (dsimp only; split) | (intro; intros))

theorem State.laneShort_within {l : List Area} {s₀ s : State} (h : s₀.Within l s) (die p lane supply)
    (hregs : Area.regs ∈ l := by assumption) (hhelm : Area.helm ∈ l := by assumption)
    (hsal : Area.sal ∈ l := by assumption) : s₀.Within l (State.laneShort s die p lane supply) := by
  unfold State.laneShort
  (try dsimp only)
  repeat' (first
    | (with_reducible first
      | exact h | assumption | apply State.WithinMk.of | exact Or.inl rfl | exact Or.inr (by assumption)
      | exact Or.inr ⟨by assumption, id⟩ | apply State.within_ite | apply State.setReg_within
      | apply State.laneLost_within | apply State.modSal_within)
    | (simp only [State.within_mk]; (try dsimp only)) | split | (dsimp only; split) | (intro; intros))

theorem execSallanRetrain_within {l : List Area} {s₀ s : State} (h : s₀.Within l s) (die sp trig) (t)
    (ht : execSallanRetrain die sp trig s = .next t) (hregs : Area.regs ∈ l := by assumption)
    (hports : Area.ports ∈ l := by assumption) (hhelm : Area.helm ∈ l := by assumption)
    (hsal : Area.sal ∈ l := by assumption) (hout : Area.out ∈ l := by assumption) : s₀.Within l t := by
  unfold execSallanRetrain at ht
  (try dsimp only at ht)
  injection ht with ht
  subst ht
  repeat' (first
    | (with_reducible first
      | exact h | assumption | apply State.within_ite | apply State.salRetrain_within | apply State.writeAs_within
      | apply State.laneLost_within | apply State.laneShort_within)
    | split | (dsimp only; split) | (intro; intros))

theorem execSallanQuickRetrainDone_within {l : List Area} {s₀ s : State} (h : s₀.Within l s) (die sp ok) (t)
    (ht : execSallanQuickRetrainDone die sp ok s = .next t) (hregs : Area.regs ∈ l := by assumption)
    (hhelm : Area.helm ∈ l := by assumption) (hsal : Area.sal ∈ l := by assumption) (hout : Area.out ∈ l := by assumption)
    : s₀.Within l t := by
  unfold execSallanQuickRetrainDone at ht
  (try dsimp only at ht)
  injection ht with ht
  subst ht
  repeat' (first
    | (with_reducible first
      | exact h | assumption | apply State.within_ite | apply State.salUp_within | apply State.salDetect_within)
    | split | (dsimp only; split))

theorem execSallanTest_within {l : List Area} {s₀ s : State} (h : s₀.Within l s) (src die sp) (t)
    (ht : execSallanTest src die sp s = .next t) (hregs : Area.regs ∈ l := by assumption)
    (hports : Area.ports ∈ l := by assumption) (hhelm : Area.helm ∈ l := by assumption)
    (hout : Area.out ∈ l := by assumption) : s₀.Within l t := by
  unfold execSallanTest at ht
  (try dsimp only at ht)
  injection ht with ht
  subst ht
  repeat' (first
    | (with_reducible first
      | exact h | assumption | apply State.within_ite | apply State.writeAs_within | apply State.noteErrs_within
      | apply State.salEnter_within)
    | split | (dsimp only; split) | (intro; intros))

theorem State.testErr_within {l : List Area} {s₀ s : State} (h : s₀.Within l s) (die p i)
    (hregs : Area.regs ∈ l := by assumption) (hfree : Area.free ∈ l := by assumption) : s₀.Within l
    (State.testErr s die p i) := by
  unfold State.testErr
  (try dsimp only)
  repeat' (with_reducible first
      | exact h | assumption | apply State.setReg_within | apply State.drew_within)

theorem execSallanTestEnd_within {l : List Area} {s₀ s : State} (h : s₀.Within l s) (src die sp) (t)
    (ht : execSallanTestEnd src die sp s = .next t) (hregs : Area.regs ∈ l := by assumption)
    (hports : Area.ports ∈ l := by assumption) (hhelm : Area.helm ∈ l := by assumption)
    (hsal : Area.sal ∈ l := by assumption) (hfree : Area.free ∈ l := by assumption) (hout : Area.out ∈ l := by assumption)
    : s₀.Within l t := by
  unfold execSallanTestEnd at ht
  (try dsimp only at ht)
  injection ht with ht
  subst ht
  repeat' (first
    | (with_reducible first
      | exact h | assumption | apply State.within_ite | apply State.within_foldl | apply State.within_foldl_fst
      | apply State.writeAs_within | apply State.testErr_within | apply State.salRetrain_within)
    | split | (dsimp only; split) | (intro; intros))

theorem execSallanFlitReceive_within {l : List Area} {s₀ s : State} (h : s₀.Within l s) (die sp seq crcOk ackTo pkts) (t)
    (ht : execSallanFlitReceive die sp seq crcOk ackTo pkts s = .next t) (hsal : Area.sal ∈ l := by assumption)
    (hout : Area.out ∈ l := by assumption) : s₀.Within l t := by
  unfold execSallanFlitReceive at ht
  (try dsimp only at ht)
  injection ht with ht
  subst ht
  repeat' (first
    | (with_reducible first
      | exact h | assumption | apply State.WithinMk.of | exact Or.inl rfl | exact Or.inr (by assumption)
      | exact Or.inr ⟨by assumption, id⟩ | apply State.within_ite | apply State.within_ite_fst
      | apply State.send_within | apply State.modSal_within)
    | (simp only [State.within_mk]; (try dsimp only)) | split | (dsimp only; split) | (intro; intros)
    | (dsimp only))

theorem State.gated_within {l : List Area} {s₀ s : State} (h : s₀.Within l s) (die b)
    (hregs : Area.regs ∈ l := by assumption) (hnet : Area.net ∈ l := by assumption)
    (hhbmc : Area.hbmc ∈ l := by assumption) (hhelm : Area.helm ∈ l := by assumption)
    (hsal : Area.sal ∈ l := by assumption) (hfree : Area.free ∈ l := by assumption) : s₀.Within l (State.gated s die b) :=
    by
  unfold State.gated
  (try dsimp only)
  repeat' (first
    | (with_reducible first
      | exact h | assumption | apply State.WithinMk.of | exact Or.inl rfl | exact Or.inr (by assumption)
      | exact Or.inr ⟨by assumption, id⟩ | apply State.within_ite | apply State.selfRefresh_within
      | apply State.salIdle_within | apply State.modSal_within)
    | (simp only [State.within_mk]; (try dsimp only)) | split | (dsimp only; split) | (intro; intros))

theorem execClkGateWrite_within {l : List Area} {s₀ s : State} (h : s₀.Within l s) (src die value) (t)
    (ht : execClkGateWrite src die value s = .next t) (hregs : Area.regs ∈ l := by assumption)
    (hnet : Area.net ∈ l := by assumption) (hhbmc : Area.hbmc ∈ l := by assumption)
    (hports : Area.ports ∈ l := by assumption) (hhelm : Area.helm ∈ l := by assumption)
    (hsal : Area.sal ∈ l := by assumption) (hfree : Area.free ∈ l := by assumption) (hout : Area.out ∈ l := by assumption)
    : s₀.Within l t := by
  unfold execClkGateWrite at ht
  (try dsimp only at ht)
  injection ht with ht
  subst ht
  repeat' (first
    | (with_reducible first
      | exact h | assumption | apply State.within_ite | apply State.within_foldl | apply State.within_foldl_fst
      | apply State.writeAs_within | apply State.lwrErr_within | apply State.setReg_within | apply State.gated_within)
    | split | (dsimp only; split) | (intro; intros))

theorem State.gateInject_within {l : List Area} {s₀ s : State} (h : s₀.Within l s) (die sp p)
    (hregs : Area.regs ∈ l := by assumption) (hnet : Area.net ∈ l := by assumption) : s₀.Within l
    (State.gateInject s die sp p) := by
  unfold State.gateInject
  (try dsimp only)
  repeat' (first
    | (with_reducible first
      | exact h | assumption | apply State.WithinMk.of | exact Or.inl rfl | exact Or.inr (by assumption)
      | exact Or.inr ⟨by assumption, id⟩ | apply State.within_ite | apply State.inject_within
      | apply State.gateRefuse_within)
    | (simp only [State.within_mk]; (try dsimp only)) | split | (dsimp only; split))

theorem State.linkOut_within {l : List Area} {s₀ s : State} (h : s₀.Within l s) (die sp p)
    (hsal : Area.sal ∈ l := by assumption) (hout : Area.out ∈ l := by assumption) : s₀.Within l (State.linkOut s die sp p)
    := by
  unfold State.linkOut
  (try dsimp only)
  repeat' (first
    | (with_reducible first
      | exact h | assumption | apply State.WithinMk.of | exact Or.inl rfl | exact Or.inr (by assumption)
      | exact Or.inr ⟨by assumption, id⟩ | apply State.linkPut_within)
    | (simp only [State.within_mk]; (try dsimp only)))

theorem execGatewayOutbound_within {l : List Area} {s₀ s : State} (h : s₀.Within l s) (die sp p) (t)
    (ht : execGatewayOutbound die sp p s = .next t) (hregs : Area.regs ∈ l := by assumption)
    (hnet : Area.net ∈ l := by assumption) (hsal : Area.sal ∈ l := by assumption) (hout : Area.out ∈ l := by assumption) :
    s₀.Within l t := by
  unfold execGatewayOutbound at ht
  (try dsimp only at ht)
  injection ht with ht
  subst ht
  repeat' (first
    | (with_reducible first
      | exact h | assumption | apply State.WithinMk.of | exact Or.inl rfl | exact Or.inr (by assumption)
      | exact Or.inr ⟨by assumption, id⟩ | apply State.within_ite | apply State.arrive_within
      | apply State.gateRefuse_within | apply State.gateInject_within | apply State.bump_within
      | apply State.linkOut_within)
    | (simp only [State.within_mk]; (try dsimp only)) | split | (dsimp only; split))

theorem execGatewayInbound_within {l : List Area} {s₀ s : State} (h : s₀.Within l s) (die sp p) (t)
    (ht : execGatewayInbound die sp p s = .next t) (hregs : Area.regs ∈ l := by assumption)
    (hnet : Area.net ∈ l := by assumption) (hsal : Area.sal ∈ l := by assumption) : s₀.Within l t := by
  unfold execGatewayInbound at ht
  (try dsimp only at ht)
  injection ht with ht
  subst ht
  repeat' (first
    | (with_reducible first
      | exact h | assumption | apply State.WithinMk.of | exact Or.inl rfl | exact Or.inr (by assumption)
      | exact Or.inr ⟨by assumption, id⟩ | apply State.within_ite | apply State.modSal_within
      | apply State.bump_within | apply State.gateRefuse_within | apply State.gateInject_within)
    | (simp only [State.within_mk]; (try dsimp only)) | split | (dsimp only; split) | (intro; intros))

theorem State.logicTick_within {l : List Area} {s₀ s : State} (h : s₀.Within l s) (hfab : Area.fab ∈ l := by assumption)
    (hfree : Area.free ∈ l := by assumption) : s₀.Within l (State.logicTick s) := by
  unfold State.logicTick
  (try dsimp only)
  repeat' (first
    | (with_reducible first
      | exact h | assumption | apply State.WithinMk.of | exact Or.inl rfl | exact Or.inr (by assumption)
      | exact Or.inr ⟨by assumption, id⟩ | apply State.within_ite | apply State.within_ite_fst
      | apply State.drew_within)
    | (simp only [State.within_mk]; (try dsimp only)) | split | (dsimp only; split) | (intro; intros)
    | (dsimp only))

theorem execGpioShort_within {l : List Area} {s₀ s : State} (h : s₀.Within l s) (die pin) (t)
    (ht : execGpioShort die pin s = .next t) (hregs : Area.regs ∈ l := by assumption)
    (hfab : Area.fab ∈ l := by assumption) : s₀.Within l t := by
  unfold execGpioShort at ht
  (try dsimp only at ht)
  injection ht with ht
  subst ht
  repeat' (first
    | (with_reducible first
      | exact h | assumption | apply State.WithinMk.of | exact Or.inl rfl | exact Or.inr (by assumption)
      | exact Or.inr ⟨by assumption, id⟩ | apply State.within_ite | apply State.setReg_within)
    | (simp only [State.within_mk]; (try dsimp only)) | split | (dsimp only; split))

theorem State.holdLogic_within {l : List Area} {s₀ s : State} (h : s₀.Within l s) (die r)
    (hfab : Area.fab ∈ l := by assumption) : s₀.Within l (State.holdLogic s die r) := by
  unfold State.holdLogic
  (try dsimp only)
  repeat' (first
    | (with_reducible first
      | exact h | assumption | apply State.WithinMk.of | exact Or.inl rfl | exact Or.inr (by assumption)
      | exact Or.inr ⟨by assumption, id⟩)
    | (simp only [State.within_mk]; (try dsimp only)) | (intro; intros)
    | (dsimp only))

theorem State.keepBorder_within {l : List Area} {s₀ s : State} (h : s₀.Within l s) (die r)
    (hfab : Area.fab ∈ l := by assumption) : s₀.Within l (State.keepBorder s die r) := by
  unfold State.keepBorder
  (try dsimp only)
  repeat' (first
    | (with_reducible first
      | exact h | assumption | apply State.WithinMk.of | exact Or.inl rfl | exact Or.inr (by assumption)
      | exact Or.inr ⟨by assumption, id⟩)
    | (simp only [State.within_mk]; (try dsimp only)) | (intro; intros)
    | (dsimp only))

theorem State.rawTick_within {l : List Area} {s₀ s : State} (h : s₀.Within l s) (hfab : Area.fab ∈ l := by assumption) :
    s₀.Within l (State.rawTick s) := by
  unfold State.rawTick
  (try dsimp only)
  repeat' (first
    | (with_reducible first
      | exact h | assumption | apply State.WithinMk.of | exact Or.inl rfl | exact Or.inr (by assumption)
      | exact Or.inr ⟨by assumption, id⟩ | apply State.within_ite | apply State.within_ite_fst)
    | (simp only [State.within_mk]; (try dsimp only)) | split | (dsimp only; split) | (intro; intros)
    | (dsimp only))

theorem State.sliceTick_within {l : List Area} {s₀ s : State} (h : s₀.Within l s) (hfab : Area.fab ∈ l := by assumption) :
    s₀.Within l (State.sliceTick s) := by
  unfold State.sliceTick
  (try dsimp only)
  repeat' (first
    | (with_reducible first
      | exact h | assumption | apply State.WithinMk.of | exact Or.inl rfl | exact Or.inr (by assumption)
      | exact Or.inr ⟨by assumption, id⟩ | apply State.within_ite | apply State.within_ite_fst)
    | (simp only [State.within_mk]; (try dsimp only)) | split | (dsimp only; split) | (intro; intros)
    | (dsimp only))

theorem State.portTick_within {l : List Area} {s₀ s : State} (h : s₀.Within l s) (hfab : Area.fab ∈ l := by assumption) :
    s₀.Within l (State.portTick s) := by
  unfold State.portTick
  (try dsimp only)
  repeat' (first
    | (with_reducible first
      | exact h | assumption | apply State.WithinMk.of | exact Or.inl rfl | exact Or.inr (by assumption)
      | exact Or.inr ⟨by assumption, id⟩ | apply State.within_ite | apply State.within_ite_fst)
    | (simp only [State.within_mk]; (try dsimp only)) | split | (dsimp only; split) | (intro; intros)
    | (dsimp only))

theorem State.tick_within {l : List Area} {s₀ s : State} (h : s₀.Within l s) (hfab : Area.fab ∈ l := by assumption)
    (htimer : Area.timer ∈ l := by assumption) (hfree : Area.free ∈ l := by assumption) : s₀.Within l (State.tick s) := by
  unfold State.tick
  (try dsimp only)
  repeat' (first
    | (with_reducible first
      | exact h | assumption | apply State.WithinMk.of | exact Or.inl rfl | exact Or.inr (by assumption)
      | exact Or.inr ⟨by assumption, id⟩ | apply State.within_ite | apply State.logicTick_within
      | apply State.rawTick_within | apply State.sliceTick_within | apply State.portTick_within)
    | (simp only [State.within_mk]; (try dsimp only)) | split | (dsimp only; split))

theorem State.modVault_within {l : List Area} {s₀ s : State} (h : s₀.Within l s) (f) (hf : ∀ v : Vault, v.Onward (f v))
    (hvault : Area.vault ∈ l := by assumption) : s₀.Within l (State.modVault s f) := by
  unfold State.modVault
  rw [State.within_mk]
  apply State.WithinMk.of h <;> first | exact Or.inl rfl | exact Or.inr ⟨by assumption, hf _⟩

theorem State.extend_within {l : List Area} {s₀ s : State} (h : s₀.Within l s) (i e)
    (hvault : Area.vault ∈ l := by assumption) : s₀.Within l (State.extend s i e) := by
  unfold State.extend
  (try dsimp only)
  repeat' (first
    | (with_reducible first
      | exact h | assumption | apply State.WithinMk.of | exact Or.inl rfl | exact Or.inr (by assumption)
      | exact Or.inr ⟨by assumption, id⟩ | apply State.modVault_within)
    | (simp only [State.within_mk]; (try dsimp only)) | (intro; intros)
    | (first | exact .of_eq rfl rfl | exact Vault.lose_onward _ _ | exact Vault.raise_onward _ _ _ | exact Vault.turnOver_onward _ | exact Vault.useLeaf_onward _ | exact Vault.storeKey_onward _ _ | exact Vault.stored_onward _ _ _))

theorem State.strmRead_within {l : List Area} {s₀ s : State} (h : s₀.Within l s) (r o n)
    (hregs : Area.regs ∈ l := by assumption) (hhbmc : Area.hbmc ∈ l := by assumption)
    (hhelm : Area.helm ∈ l := by assumption) (hfree : Area.free ∈ l := by assumption) : s₀.Within l
    (State.strmRead s r o n).1 := by
  unfold State.strmRead
  (try dsimp only)
  repeat' (first
    | (with_reducible first
      | exact h | assumption | apply State.within_ite | apply State.within_ite_fst | apply State.hbmTake_within)
    | split | (dsimp only; split)
    | (dsimp only))

theorem State.checkStream_within {l : List Area} {s₀ s : State} (h : s₀.Within l s) (r die region)
    (hregs : Area.regs ∈ l := by assumption) (hhbmc : Area.hbmc ∈ l := by assumption)
    (hhelm : Area.helm ∈ l := by assumption) (hfree : Area.free ∈ l := by assumption) : s₀.Within l
    (State.checkStream s r die region).1 := by
  unfold State.checkStream
  (try dsimp only)
  repeat' (first
    | (with_reducible first
      | exact h | assumption | apply State.within_ite | apply State.within_ite_fst | apply State.strmRead_within)
    | split | (dsimp only; split) | (intro; intros)
    | (dsimp only))

theorem State.putFrame_within {l : List Area} {s₀ s : State} (h : s₀.Within l s) (die far b)
    (hfab : Area.fab ∈ l := by assumption) : s₀.Within l (State.putFrame s die far b) := by
  unfold State.putFrame
  (try dsimp only)
  repeat' (first
    | (with_reducible first
      | exact h | assumption | apply State.WithinMk.of | exact Or.inl rfl | exact Or.inr (by assumption)
      | exact Or.inr ⟨by assumption, id⟩ | apply State.within_ite | apply State.bramPut_within)
    | (simp only [State.within_mk]; (try dsimp only)) | split | (dsimp only; split) | (intro; intros))

theorem State.setSlices_within {l : List Area} {s₀ s : State} (h : s₀.Within l s) (die r)
    (hfab : Area.fab ∈ l := by assumption) : s₀.Within l (State.setSlices s die r) := by
  unfold State.setSlices
  (try dsimp only)
  repeat' (first
    | (with_reducible first
      | exact h | assumption | apply State.within_ite | apply State.within_foldl | apply State.within_foldl_fst
      | apply State.setSlice_within)
    | split | (dsimp only; split) | (intro; intros))

theorem State.fabPart_within {l : List Area} {s₀ s : State} (h : s₀.Within l s) (f : Fabric)
    (hf : Memory.wf s.fab.bram = true → Memory.wf f.bram = true) (hfab : Area.fab ∈ l := by assumption) :
    s₀.Within l { s with fab := f } := by
  rw [State.within_mk]
  apply State.WithinMk.of h <;> first | exact Or.inl rfl | exact Or.inr ⟨hfab, hf⟩

theorem State.addAp_within {l : List Area} {s₀ s : State} (h : s₀.Within l s) (d r : Nat) (g : List Nat)
    (hfab : Area.fab ∈ l := by assumption) :
    s₀.Within l { s with fab := { s.fab with ap := s.fab.ap ++ s.apOf d r, gpioOff := g } } :=
  State.fabPart_within h _ id

theorem State.configure_within {l : List Area} {s₀ s : State} (h : s₀.Within l s) (d r)
    (hfab : Area.fab ∈ l := by assumption) : s₀.Within l (State.configure s d r) := by
  unfold State.configure
  exact State.addAp_within (State.setSlices_within h d r) d r _

theorem State.bleachRegion_within {l : List Area} {s₀ s : State} (h : s₀.Within l s) (d r)
    (hfab : Area.fab ∈ l := by assumption) : s₀.Within l (State.bleachRegion s d r) := by
  unfold State.bleachRegion; dsimp only
  rw [State.within_mk]
  apply State.WithinMk.of h <;> first | exact Or.inl rfl | exact Or.inr ⟨by assumption, filter_wf _ _⟩

theorem State.holdRegion_within {l : List Area} {s₀ s : State} (h : s₀.Within l s) (die r)
    (hfab : Area.fab ∈ l := by assumption) : s₀.Within l (State.holdRegion s die r) := by
  unfold State.holdRegion
  (try dsimp only)
  repeat' (first
    | (with_reducible first
      | exact h | assumption | apply State.WithinMk.of | exact Or.inl rfl | exact Or.inr (by assumption)
      | exact Or.inr ⟨by assumption, id⟩)
    | (simp only [State.within_mk]; (try dsimp only)) | (intro; intros)
    | (dsimp only))

theorem State.maskTile_within {l : List Area} {s₀ s : State} (h : s₀.Within l s) (die t')
    (hregs : Area.regs ∈ l := by assumption) (hnet : Area.net ∈ l := by assumption) (hfab : Area.fab ∈ l := by assumption)
    (hout : Area.out ∈ l := by assumption) : s₀.Within l (State.maskTile s die t') := by
  unfold State.maskTile
  (try dsimp only)
  repeat' (first
    | (with_reducible first
      | exact h | assumption | apply State.WithinMk.of | exact Or.inl rfl | exact Or.inr (by assumption)
      | exact Or.inr ⟨by assumption, id⟩ | apply State.within_ite | apply State.within_foldl
      | apply State.within_foldl_fst | apply State.modTile_within | apply State.txGo_within
      | apply State.txDiscard_within | apply State.tileNack_within)
    | (simp only [State.within_mk]; (try dsimp only)) | split | (dsimp only; split) | (intro; intros))

theorem State.closeMask_within {l : List Area} {s₀ s : State} (h : s₀.Within l s) (die r)
    (hregs : Area.regs ∈ l := by assumption) (hnet : Area.net ∈ l := by assumption) (hfab : Area.fab ∈ l := by assumption)
    (hout : Area.out ∈ l := by assumption) : s₀.Within l (State.closeMask s die r) := by
  unfold State.closeMask
  (try dsimp only)
  repeat' (first
    | (with_reducible first
      | exact h | assumption | apply State.within_ite | apply State.within_ite_fst | apply State.within_foldl
      | apply State.within_foldl_fst | apply State.maskTile_within | apply State.keepBorder_within
      | apply State.modFabRegion_within | apply State.setReg_within | apply State.holdRegion_within
      | apply State.holdLogic_within)
    | split | (dsimp only; split) | (intro; intros)
    | (dsimp only))

theorem State.refuseTiles_within {l : List Area} {s₀ s : State} (h : s₀.Within l s) (die r)
    (hregs : Area.regs ∈ l := by assumption) (hnet : Area.net ∈ l := by assumption) (hfab : Area.fab ∈ l := by assumption)
    (hout : Area.out ∈ l := by assumption) : s₀.Within l (State.refuseTiles s die r) := by
  unfold State.refuseTiles
  (try dsimp only)
  repeat' (first
    | (with_reducible first
      | exact h | assumption | apply State.within_ite | apply State.within_ite_fst | apply State.within_foldl
      | apply State.within_foldl_fst | apply State.tileArrival_within)
    | split | (dsimp only; split) | (intro; intros)
    | (dsimp only))

theorem State.failRegion_within {l : List Area} {s₀ s : State} (h : s₀.Within l s) (die r)
    (hregs : Area.regs ∈ l := by assumption) (hnet : Area.net ∈ l := by assumption) (hfab : Area.fab ∈ l := by assumption)
    (hout : Area.out ∈ l := by assumption) : s₀.Within l (State.failRegion s die r) := by
  unfold State.failRegion
  (try dsimp only)
  repeat' (first
    | (with_reducible first
      | exact h | assumption | apply State.WithinMk.of | exact Or.inl rfl | exact Or.inr (by assumption)
      | exact Or.inr ⟨by assumption, id⟩ | apply State.closeMask_within | apply State.bleachRegion_within
      | apply State.modFabRegion_within | apply State.setReg_within | apply State.refuseTiles_within)
    | (simp only [State.within_mk]; (try dsimp only)) | (intro; intros))

theorem State.setJobs_within {l : List Area} {s₀ s : State} (h : s₀.Within l s) (die l')
    (hcfg : Area.cfg ∈ l := by assumption) : s₀.Within l (State.setJobs s die l') := by
  unfold State.setJobs
  (try dsimp only)
  repeat' (first
    | (with_reducible first
      | exact h | assumption | apply State.WithinMk.of | exact Or.inl rfl | exact Or.inr (by assumption)
      | exact Or.inr ⟨by assumption, id⟩ | apply State.within_ite)
    | (simp only [State.within_mk]; (try dsimp only)) | split | (dsimp only; split))

theorem State.setJob_within {l : List Area} {s₀ s : State} (h : s₀.Within l s) (die j)
    (hcfg : Area.cfg ∈ l := by assumption) : s₀.Within l (State.setJob s die j) := by
  unfold State.setJob
  (try dsimp only)
  repeat' (with_reducible first
      | exact h | assumption | apply State.setJobs_within)

theorem State.dropFrames_within {l : List Area} {s₀ s : State} (h : s₀.Within l s) (d : Nat)
    (hfab : Area.fab ∈ l := by assumption) :
    s₀.Within l { s with fab := { s.fab with frames := s.fab.frames.filter (fun e => decide (e.1 / 2 ^ 20 ≠ d)) } } :=
  State.fabPart_within h _ id

theorem State.bleachDie_within {l : List Area} {s₀ s : State} (h : s₀.Within l s) (d)
    (hregs : Area.regs ∈ l := by assumption) (hnet : Area.net ∈ l := by assumption) (hfab : Area.fab ∈ l := by assumption)
    (hout : Area.out ∈ l := by assumption) : s₀.Within l (State.bleachDie s d) := by
  unfold State.bleachDie
  exact State.dropFrames_within (State.within_foldl _ _ h fun s r k =>
    State.bleachRegion_within (State.closeMask_within k _ _) _ _) d

theorem State.dropJob_within {l : List Area} {s₀ s : State} (h : s₀.Within l s) (die)
    (hregs : Area.regs ∈ l := by assumption) (hhelm : Area.helm ∈ l := by assumption)
    (hcfg : Area.cfg ∈ l := by assumption) : s₀.Within l (State.dropJob s die) := by
  unfold State.dropJob
  (try dsimp only)
  repeat' (with_reducible first
      | exact h | assumption | apply State.setJobs_within | apply State.raise_within)

theorem State.failJob_within {l : List Area} {s₀ s : State} (h : s₀.Within l s) (die j reason)
    (hregs : Area.regs ∈ l := by assumption) (hnet : Area.net ∈ l := by assumption)
    (hctxs : Area.ctxs ∈ l := by assumption) (hports : Area.ports ∈ l := by assumption)
    (hhelm : Area.helm ∈ l := by assumption) (hfab : Area.fab ∈ l := by assumption) (hcfg : Area.cfg ∈ l := by assumption)
    (hout : Area.out ∈ l := by assumption) : s₀.Within l (State.failJob s die j reason) := by
  unfold State.failJob
  (try dsimp only)
  repeat' (first
    | (with_reducible first
      | exact h | assumption | apply State.within_ite | apply State.within_foldl | apply State.within_foldl_fst
      | apply State.setReg_within | apply State.dropJob_within | apply State.failRegion_within
      | apply State.complete_within | apply State.bleachDie_within | apply State.setJobs_within)
    | split | (dsimp only; split) | (intro; intros))

theorem State.passJob_within {l : List Area} {s₀ s : State} (h : s₀.Within l s) (die j)
    (hregs : Area.regs ∈ l := by assumption) (hctxs : Area.ctxs ∈ l := by assumption)
    (hports : Area.ports ∈ l := by assumption) (hhelm : Area.helm ∈ l := by assumption)
    (hcfg : Area.cfg ∈ l := by assumption) (hvault : Area.vault ∈ l := by assumption)
    (hout : Area.out ∈ l := by assumption) : s₀.Within l (State.passJob s die j) := by
  unfold State.passJob
  (try dsimp only)
  repeat' (first
    | (with_reducible first
      | exact h | assumption | apply State.within_foldl | apply State.within_foldl_fst | apply State.setReg_within
      | apply State.dropJob_within | apply State.bump_within | apply State.extend_within | apply State.complete_within)
    | split | (dsimp only; split) | (intro; intros))

theorem State.killLoads_within {l : List Area} {s₀ s : State} (h : s₀.Within l s) (x)
    (hregs : Area.regs ∈ l := by assumption) (hnet : Area.net ∈ l := by assumption)
    (hhelm : Area.helm ∈ l := by assumption) (hfab : Area.fab ∈ l := by assumption) (hcfg : Area.cfg ∈ l := by assumption)
    (hout : Area.out ∈ l := by assumption) : s₀.Within l (State.killLoads s x) := by
  unfold State.killLoads
  (try dsimp only)
  repeat' (first
    | (with_reducible first
      | exact h | assumption | apply State.within_ite | apply State.within_ite_fst | apply State.within_foldl
      | apply State.within_foldl_fst | apply State.setJobs_within | apply State.failRegion_within
      | apply State.raise_within)
    | split | (dsimp only; split) | (intro; intros)
    | (dsimp only))

theorem execConfig_within {l : List Area} {s₀ s : State} (h : s₀.Within l s) (x i) (t) (ht : execConfig x i s = .next t)
    (hregs : Area.regs ∈ l := by assumption) (hctxs : Area.ctxs ∈ l := by assumption)
    (hports : Area.ports ∈ l := by assumption) (hcfg : Area.cfg ∈ l := by assumption)
    (hout : Area.out ∈ l := by assumption) : s₀.Within l t := by
  unfold execConfig at ht
  (try dsimp only at ht)
  injection ht with ht
  subst ht
  repeat' (first
    | (with_reducible first
      | exact h | assumption | apply State.within_ite | apply State.begins_within | apply State.complete_within
      | apply State.setJobs_within)
    | split | (dsimp only; split) | (intro; intros))

theorem State.serve_within {l : List Area} {s₀ s : State} (h : s₀.Within l s) (d ok act) (ha : ∀ j, s₀.Within l (act j)) :
    s₀.Within l (State.serve s d ok act) := by
  unfold State.serve
  repeat' (first | exact h | exact ha _ | split)

theorem execConfigHeaderChecked_within {l : List Area} {s₀ s : State} (h : s₀.Within l s) (die) (t)
    (ht : execConfigHeaderChecked die s = .next t) (hregs : Area.regs ∈ l := by assumption)
    (hnet : Area.net ∈ l := by assumption) (hhbmc : Area.hbmc ∈ l := by assumption)
    (hctxs : Area.ctxs ∈ l := by assumption) (hports : Area.ports ∈ l := by assumption)
    (hhelm : Area.helm ∈ l := by assumption) (hfab : Area.fab ∈ l := by assumption) (hcfg : Area.cfg ∈ l := by assumption)
    (hfree : Area.free ∈ l := by assumption) (hout : Area.out ∈ l := by assumption) : s₀.Within l t := by
  unfold execConfigHeaderChecked at ht
  (try dsimp only at ht)
  injection ht with ht
  subst ht
  repeat' (first
    | (with_reducible first
      | exact h | assumption | apply State.WithinMk.of | exact Or.inl rfl | exact Or.inr (by assumption)
      | exact Or.inr ⟨by assumption, id⟩ | apply State.within_ite | apply State.within_ite_fst
      | apply State.serve_within | apply State.checkStream_within | apply State.failJob_within
      | apply State.closeMask_within | apply State.setJob_within)
    | (simp only [State.within_mk]; (try dsimp only)) | split | (dsimp only; split) | (intro; intros)
    | (dsimp only))

theorem execConfigBleachDone_within {l : List Area} {s₀ s : State} (h : s₀.Within l s) (die) (t)
    (ht : execConfigBleachDone die s = .next t) (hfab : Area.fab ∈ l := by assumption)
    (hcfg : Area.cfg ∈ l := by assumption) : s₀.Within l t := by
  unfold execConfigBleachDone at ht
  (try dsimp only at ht)
  injection ht with ht
  subst ht
  repeat' (first
    | (with_reducible first
      | exact h | assumption | apply State.WithinMk.of | exact Or.inl rfl | exact Or.inr (by assumption)
      | exact Or.inr ⟨by assumption, id⟩ | apply State.serve_within | apply State.bleachRegion_within
      | apply State.setJob_within)
    | (simp only [State.within_mk]; (try dsimp only)) | split | (dsimp only; split) | (intro; intros))

theorem State.records_within {l : List Area} {s₀ s : State} (h : s₀.Within l s) (d n j)
    (hfab : Area.fab ∈ l := by assumption) : s₀.Within l (State.records d n s j).1 := by
  induction n generalizing s j with
  | zero => exact h
  | succ n ih =>
    unfold State.records; dsimp only
    repeat' (first | exact h | exact ih h _ | exact ih (State.putFrame_within h _ _ _) _ | split)

theorem State.segment_within {l : List Area} {s₀ s : State} (h : s₀.Within l s) (d j b)
    (hregs : Area.regs ∈ l := by assumption) (hnet : Area.net ∈ l := by assumption)
    (hctxs : Area.ctxs ∈ l := by assumption) (hports : Area.ports ∈ l := by assumption)
    (hhelm : Area.helm ∈ l := by assumption) (hfab : Area.fab ∈ l := by assumption) (hcfg : Area.cfg ∈ l := by assumption)
    (hout : Area.out ∈ l := by assumption) : s₀.Within l (State.segment s d j b) := by
  unfold State.segment; dsimp only
  have k := fun n j => State.records_within h d n j
  repeat' (first | exact State.failJob_within (k _ _) _ _ _ | exact State.setJob_within (k _ _) _ _ | (refine State.within_foldl _ _ ?_ (fun s g hs => State.configure_within hs _ _)) | split)

theorem execConfigSegmentVerified_within {l : List Area} {s₀ s : State} (h : s₀.Within l s) (die) (t)
    (ht : execConfigSegmentVerified die s = .next t) (hregs : Area.regs ∈ l := by assumption)
    (hnet : Area.net ∈ l := by assumption) (hhbmc : Area.hbmc ∈ l := by assumption)
    (hctxs : Area.ctxs ∈ l := by assumption) (hports : Area.ports ∈ l := by assumption)
    (hhelm : Area.helm ∈ l := by assumption) (hfab : Area.fab ∈ l := by assumption) (hcfg : Area.cfg ∈ l := by assumption)
    (hfree : Area.free ∈ l := by assumption) (hout : Area.out ∈ l := by assumption) : s₀.Within l t := by
  unfold execConfigSegmentVerified at ht
  (try dsimp only at ht)
  injection ht with ht
  subst ht
  repeat' (first
    | (with_reducible first
      | exact h | assumption | apply State.within_ite | apply State.within_ite_fst | apply State.serve_within
      | apply State.strmRead_within | apply State.failJob_within | apply State.segment_within)
    | split | (dsimp only; split) | (intro; intros)
    | (dsimp only))

theorem State.startStep_within {l : List Area} {s₀ s : State} (h : s₀.Within l s) (die j c)
    (hfab : Area.fab ∈ l := by assumption) : s₀.Within l (State.startStep s die j c) := by
  unfold State.startStep
  (try dsimp only)
  repeat' (first
    | (with_reducible first
      | exact h | assumption | apply State.WithinMk.of | exact Or.inl rfl | exact Or.inr (by assumption)
      | exact Or.inr ⟨by assumption, id⟩ | apply State.within_ite | apply State.within_foldl
      | apply State.within_foldl_fst | apply State.modFabRegion_within)
    | (simp only [State.within_mk]; (try dsimp only)) | split | (dsimp only; split) | (intro; intros))

theorem State.startSteps_within {l : List Area} {s₀ s : State} (h : s₀.Within l s) (d j xs)
    (hfab : Area.fab ∈ l := by assumption) : s₀.Within l (State.startSteps d j xs s).1 := by
  induction xs generalizing s with
  | nil => exact h
  | cons c xs ih =>
    unfold State.startSteps
    repeat' (first | exact h | exact ih h | exact ih (State.startStep_within h _ _ _) | split)

theorem State.startOrder_within {l : List Area} {s₀ s : State} (h : s₀.Within l s) (die j l')
    (hregs : Area.regs ∈ l := by assumption) (hctxs : Area.ctxs ∈ l := by assumption)
    (hports : Area.ports ∈ l := by assumption) (hhelm : Area.helm ∈ l := by assumption)
    (hfab : Area.fab ∈ l := by assumption) (hcfg : Area.cfg ∈ l := by assumption)
    (hvault : Area.vault ∈ l := by assumption) (hout : Area.out ∈ l := by assumption) : s₀.Within l
    (State.startOrder s die j l') := by
  unfold State.startOrder
  (try dsimp only)
  repeat' (first
    | (with_reducible first
      | exact h | assumption | apply State.WithinMk.of | exact Or.inl rfl | exact Or.inr (by assumption)
      | exact Or.inr ⟨by assumption, id⟩ | apply State.within_ite | apply State.within_ite_fst
      | apply State.startSteps_within | apply State.passJob_within | apply State.setJob_within)
    | (simp only [State.within_mk]; (try dsimp only)) | split | (dsimp only; split) | (intro; intros)
    | (dsimp only))

theorem execConfigStartOrder_within {l : List Area} {s₀ s : State} (h : s₀.Within l s) (die) (t)
    (ht : execConfigStartOrder die s = .next t) (hregs : Area.regs ∈ l := by assumption)
    (hctxs : Area.ctxs ∈ l := by assumption) (hports : Area.ports ∈ l := by assumption)
    (hhelm : Area.helm ∈ l := by assumption) (hfab : Area.fab ∈ l := by assumption) (hcfg : Area.cfg ∈ l := by assumption)
    (hvault : Area.vault ∈ l := by assumption) (hout : Area.out ∈ l := by assumption) : s₀.Within l t := by
  unfold execConfigStartOrder at ht
  (try dsimp only at ht)
  injection ht with ht
  subst ht
  repeat' (first
    | (with_reducible first
      | exact h | assumption | apply State.serve_within | apply State.startOrder_within)
    | (intro; intros))

theorem execWaitLockTimeout_within {l : List Area} {s₀ s : State} (h : s₀.Within l s) (die) (t)
    (ht : execWaitLockTimeout die s = .next t) (hregs : Area.regs ∈ l := by assumption)
    (hctxs : Area.ctxs ∈ l := by assumption) (hports : Area.ports ∈ l := by assumption)
    (hhelm : Area.helm ∈ l := by assumption) (hfab : Area.fab ∈ l := by assumption) (hcfg : Area.cfg ∈ l := by assumption)
    (hvault : Area.vault ∈ l := by assumption) (hout : Area.out ∈ l := by assumption) : s₀.Within l t := by
  unfold execWaitLockTimeout at ht
  (try dsimp only at ht)
  injection ht with ht
  subst ht
  repeat' (first
    | (with_reducible first
      | exact h | assumption | apply State.serve_within | apply State.setReg_within | apply State.startOrder_within)
    | (intro; intros))

theorem execFullStreamLoad_within {l : List Area} {s₀ s : State} (h : s₀.Within l s) (die) (t)
    (ht : execFullStreamLoad die s = .next t) (hregs : Area.regs ∈ l := by assumption)
    (hnet : Area.net ∈ l := by assumption) (hfab : Area.fab ∈ l := by assumption) (hcfg : Area.cfg ∈ l := by assumption)
    (hout : Area.out ∈ l := by assumption) : s₀.Within l t := by
  unfold execFullStreamLoad at ht
  (try dsimp only at ht)
  injection ht with ht
  subst ht
  repeat' (first
    | (with_reducible first
      | exact h | assumption | apply State.within_ite | apply State.bleachDie_within | apply State.setJobs_within)
    | split | (dsimp only; split) | (intro; intros))

theorem State.flashRefuse_within {l : List Area} {s₀ s : State} (h : s₀.Within l s) (die result)
    (hregs : Area.regs ∈ l := by assumption) : s₀.Within l (State.flashRefuse s die result) := by
  unfold State.flashRefuse
  (try dsimp only)
  repeat' (with_reducible first
      | exact h | assumption | apply State.setReg_within)

theorem State.flashResult_within {l : List Area} {s₀ s : State} (h : s₀.Within l s) (die src len slot)
    (hregs : Area.regs ∈ l := by assumption) (hhbmc : Area.hbmc ∈ l := by assumption)
    (hhelm : Area.helm ∈ l := by assumption) (hfree : Area.free ∈ l := by assumption) : s₀.Within l
    (State.flashResult s die src len slot).1 := by
  unfold State.flashResult
  (try dsimp only)
  repeat' (first
    | (with_reducible first
      | exact h | assumption | apply State.within_ite | apply State.within_ite_fst | apply State.checkStream_within)
    | split | (dsimp only; split)
    | (dsimp only))

theorem State.flashBegin_within {l : List Area} {s₀ s : State} (h : s₀.Within l s) (die w)
    (hregs : Area.regs ∈ l := by assumption) (hcfg : Area.cfg ∈ l := by assumption) : s₀.Within l
    (State.flashBegin s die w) := by
  unfold State.flashBegin
  (try dsimp only)
  repeat' (first
    | (with_reducible first
      | exact h | assumption | apply State.WithinMk.of | exact Or.inl rfl | exact Or.inr (by assumption)
      | exact Or.inr ⟨by assumption, id⟩ | apply State.setReg_within)
    | (simp only [State.within_mk]; (try dsimp only)))

theorem State.flashSet_within {l : List Area} {s₀ s : State} (h : s₀.Within l s) (a b)
    (hcfg : Area.cfg ∈ l := by assumption) : s₀.Within l (State.flashSet s a b) := by
  unfold State.flashSet
  rw [State.within_mk]
  apply State.WithinMk.of h <;> first | exact Or.inl rfl | exact Or.inr ⟨by assumption, memPut_wf _ _ _⟩

theorem execFlashWrite_within {l : List Area} {s₀ s : State} (h : s₀.Within l s) (src die value) (t)
    (ht : execFlashWrite src die value s = .next t) (hregs : Area.regs ∈ l := by assumption)
    (hhbmc : Area.hbmc ∈ l := by assumption) (hports : Area.ports ∈ l := by assumption)
    (hhelm : Area.helm ∈ l := by assumption) (hcfg : Area.cfg ∈ l := by assumption)
    (hfree : Area.free ∈ l := by assumption) (hout : Area.out ∈ l := by assumption) : s₀.Within l t := by
  unfold execFlashWrite at ht
  (try dsimp only at ht)
  injection ht with ht
  subst ht
  repeat' (first
    | (with_reducible first
      | exact h | assumption | apply State.within_ite | apply State.within_ite_fst | apply State.writeAs_within
      | apply State.setReg_within | apply State.flashBegin_within | apply State.flashResult_within
      | apply State.flashRefuse_within | apply State.flashSet_within)
    | split | (dsimp only; split) | (intro; intros)
    | (dsimp only))

theorem State.flashEnd_within {l : List Area} {s₀ s : State} (h : s₀.Within l s) (die result)
    (hregs : Area.regs ∈ l := by assumption) (hhelm : Area.helm ∈ l := by assumption)
    (hcfg : Area.cfg ∈ l := by assumption) : s₀.Within l (State.flashEnd s die result) := by
  unfold State.flashEnd
  (try dsimp only)
  repeat' (first
    | (with_reducible first
      | exact h | assumption | apply State.WithinMk.of | exact Or.inl rfl | exact Or.inr (by assumption)
      | exact Or.inr ⟨by assumption, id⟩ | apply State.setReg_within | apply State.raise_within)
    | (simp only [State.within_mk]; (try dsimp only)))

theorem State.flashPut_within {l : List Area} {s₀ s : State} (h : s₀.Within l s) (die w ok)
    (hregs : Area.regs ∈ l := by assumption) (hhbmc : Area.hbmc ∈ l := by assumption)
    (hhelm : Area.helm ∈ l := by assumption) (hcfg : Area.cfg ∈ l := by assumption)
    (hfree : Area.free ∈ l := by assumption) : s₀.Within l (State.flashPut s die w ok) := by
  unfold State.flashPut
  (try dsimp only)
  repeat' (first
    | (with_reducible first
      | exact h | assumption | apply State.within_ite | apply State.within_ite_fst | apply State.hbmTake_within
      | apply State.flashEnd_within | apply State.flashSet_within | apply State.setReg_within)
    | split | (dsimp only; split) | (intro; intros)
    | (dsimp only))

theorem execFlashWriteDone_within {l : List Area} {s₀ s : State} (h : s₀.Within l s) (die ok) (t)
    (ht : execFlashWriteDone die ok s = .next t) (hregs : Area.regs ∈ l := by assumption)
    (hhbmc : Area.hbmc ∈ l := by assumption) (hhelm : Area.helm ∈ l := by assumption)
    (hcfg : Area.cfg ∈ l := by assumption) (hfree : Area.free ∈ l := by assumption) : s₀.Within l t := by
  unfold execFlashWriteDone at ht
  (try dsimp only at ht)
  injection ht with ht
  subst ht
  repeat' (first
    | (with_reducible first
      | exact h | assumption | apply State.within_ite | apply State.within_ite_fst | apply State.flashPut_within
      | apply State.flashResult_within | apply State.flashEnd_within | apply State.flashSet_within)
    | split | (dsimp only; split) | (intro; intros)
    | (dsimp only))

theorem State.clearCtx_within {l : List Area} {s₀ s : State} (h : s₀.Within l s) (x)
    (hregs : Area.regs ∈ l := by assumption) : s₀.Within l (State.clearCtx s x) := by
  unfold State.clearCtx
  (try dsimp only)
  repeat' (first
    | (with_reducible first
      | exact h | assumption | apply State.WithinMk.of | exact Or.inl rfl | exact Or.inr (by assumption)
      | exact Or.inr ⟨by assumption, id⟩)
    | (simp only [State.within_mk]; (try dsimp only)) | (intro; intros)
    | (dsimp only))

theorem State.dropVf_within {l : List Area} {s₀ s : State} (h : s₀.Within l s) (p x)
    (hregs : Area.regs ∈ l := by assumption) : s₀.Within l (State.dropVf s p x) := by
  unfold State.dropVf
  (try dsimp only)
  repeat' (first
    | (with_reducible first
      | exact h | assumption | apply State.setReg_within | apply State.violation_within)
    | split | (dsimp only; split))

theorem State.takeHold_within {l : List Area} {s₀ s : State} (h : s₀.Within l s) (x)
    (hcores : Area.cores ∈ l := by assumption) (hctxs : Area.ctxs ∈ l := by assumption) : s₀.Within l (State.takeHold s x)
    := by
  unfold State.takeHold
  (try dsimp only)
  repeat' (first
    | (with_reducible first
      | exact h | assumption | apply State.WithinMk.of | exact Or.inl rfl | exact Or.inr (by assumption)
      | exact Or.inr ⟨by assumption, id⟩ | apply State.modCtx_within)
    | (simp only [State.within_mk]; (try dsimp only)) | (intro; intros)
    | (dsimp only))

theorem State.cmdErr_within {l : List Area} {s₀ s : State} (h : s₀.Within l s) (x code)
    (hregs : Area.regs ∈ l := by assumption) : s₀.Within l (State.cmdErr s x code) := by
  unfold State.cmdErr
  (try dsimp only)
  repeat' (with_reducible first
      | exact h | assumption | apply State.setReg_within)

theorem State.cmdDone_within {l : List Area} {s₀ s : State} (h : s₀.Within l s) (x)
    (hregs : Area.regs ∈ l := by assumption) (hctxs : Area.ctxs ∈ l := by assumption)
    (hports : Area.ports ∈ l := by assumption) (hout : Area.out ∈ l := by assumption) : s₀.Within l (State.cmdDone s x) :=
    by
  unfold State.cmdDone
  (try dsimp only)
  repeat' (with_reducible first
      | exact h | assumption | apply State.cmdErr_within | apply State.event_within)

theorem State.cmdBusy_within {l : List Area} {s₀ s : State} (h : s₀.Within l s) (x)
    (hregs : Area.regs ∈ l := by assumption) : s₀.Within l (State.cmdBusy s x) := by
  unfold State.cmdBusy
  (try dsimp only)
  repeat' (with_reducible first
      | exact h | assumption | apply State.cmdErr_within | apply State.setReg_within)

theorem State.command_within {l : List Area} {s₀ s : State} (h : s₀.Within l s) (p x o xs act)
    (ha : ∀ t, s₀.Within l t → s₀.Within l (act t)) (hregs : Area.regs ∈ l := by assumption)
    (hports : Area.ports ∈ l := by assumption) (hout : Area.out ∈ l := by assumption) : s₀.Within l
    (State.command s p x o xs act) := by
  unfold State.command
  refine State.writeAs_within h _ _ _ _ _ fun t ht => ?_
  repeat' (first | exact State.violation_within ht _ | exact State.cmdErr_within ht _ _ | exact ha _ ht | split)

theorem State.openCtx_within {l : List Area} {s₀ s : State} (h : s₀.Within l s) (port x)
    (hregs : Area.regs ∈ l := by assumption) (hctxs : Area.ctxs ∈ l := by assumption)
    (hports : Area.ports ∈ l := by assumption) (hout : Area.out ∈ l := by assumption) : s₀.Within l
    (State.openCtx s port x) := by
  unfold State.openCtx
  (try dsimp only)
  repeat' (first
    | (with_reducible first
      | exact h | assumption | apply State.WithinMk.of | exact Or.inl rfl | exact Or.inr (by assumption)
      | exact Or.inr ⟨by assumption, id⟩ | apply State.clearCtx_within | apply State.setReg_within
      | apply State.dropVf_within | apply State.cmdDone_within)
    | (simp only [State.within_mk]; (try dsimp only)))

theorem execCtxOpen_within {l : List Area} {s₀ s : State} (h : s₀.Within l s) (port x) (t)
    (ht : execCtxOpen port x s = .next t) (hregs : Area.regs ∈ l := by assumption)
    (hctxs : Area.ctxs ∈ l := by assumption) (hports : Area.ports ∈ l := by assumption)
    (hout : Area.out ∈ l := by assumption) : s₀.Within l t := by
  unfold execCtxOpen at ht
  (try dsimp only at ht)
  injection ht with ht
  subst ht
  repeat' (first
    | (with_reducible first
      | exact h | assumption | apply State.command_within | apply State.openCtx_within)
    | (intro; intros))

theorem execCtxRun_within {l : List Area} {s₀ s : State} (h : s₀.Within l s) (port x) (t)
    (ht : execCtxRun port x s = .next t) (hregs : Area.regs ∈ l := by assumption)
    (hcores : Area.cores ∈ l := by assumption) (hctxs : Area.ctxs ∈ l := by assumption)
    (hports : Area.ports ∈ l := by assumption) (hout : Area.out ∈ l := by assumption) : s₀.Within l t := by
  unfold execCtxRun at ht
  (try dsimp only at ht)
  injection ht with ht
  subst ht
  repeat' (first
    | (with_reducible first
      | exact h | assumption | apply State.within_ite | apply State.command_within | apply State.cmdErr_within
      | apply State.setReg_within | apply State.cmdDone_within | apply State.markElig_within
      | apply State.takeHold_within)
    | split | (dsimp only; split) | (intro; intros))

theorem execCtxCmdReserved_within {l : List Area} {s₀ s : State} (h : s₀.Within l s) (port x) (t)
    (ht : execCtxCmdReserved port x s = .next t) (hregs : Area.regs ∈ l := by assumption)
    (hports : Area.ports ∈ l := by assumption) (hout : Area.out ∈ l := by assumption) : s₀.Within l t := by
  unfold execCtxCmdReserved at ht
  (try dsimp only at ht)
  injection ht with ht
  subst ht
  repeat' (first
    | (with_reducible first
      | exact h | assumption | apply State.within_ite | apply State.writeAs_within | apply State.violation_within
      | apply State.cmdErr_within)
    | split | (dsimp only; split) | (intro; intros))

theorem State.dropWaits_within {l : List Area} {s₀ s : State} (h : s₀.Within l s) (x)
    (hcores : Area.cores ∈ l := by assumption) (hctxs : Area.ctxs ∈ l := by assumption) : s₀.Within l
    (State.dropWaits s x) := by
  unfold State.dropWaits
  (try dsimp only)
  repeat' (first
    | (with_reducible first
      | exact h | assumption | apply State.WithinMk.of | exact Or.inl rfl | exact Or.inr (by assumption)
      | exact Or.inr ⟨by assumption, id⟩ | apply State.modCtx_within | apply State.unflag_within)
    | (simp only [State.within_mk]; (try dsimp only)) | (intro; intros)
    | (dsimp only [id]))

theorem execCtxStop_within {l : List Area} {s₀ s : State} (h : s₀.Within l s) (port x) (t)
    (ht : execCtxStop port x s = .next t) (hregs : Area.regs ∈ l := by assumption)
    (hcores : Area.cores ∈ l := by assumption) (hctxs : Area.ctxs ∈ l := by assumption)
    (hports : Area.ports ∈ l := by assumption) (hout : Area.out ∈ l := by assumption) : s₀.Within l t := by
  unfold execCtxStop at ht
  (try dsimp only at ht)
  injection ht with ht
  subst ht
  repeat' (first
    | (with_reducible first
      | exact h | assumption | apply State.WithinMk.of | exact Or.inl rfl | exact Or.inr (by assumption)
      | exact Or.inr ⟨by assumption, id⟩ | apply State.command_within | apply State.dropWaits_within
      | apply State.modCtx_within | apply State.cmdBusy_within)
    | (simp only [State.within_mk]; (try dsimp only)) | (intro; intros))

theorem execCtxStopDone_within {l : List Area} {s₀ s : State} (h : s₀.Within l s) (x) (t)
    (ht : execCtxStopDone x s = .next t) (hregs : Area.regs ∈ l := by assumption) (hctxs : Area.ctxs ∈ l := by assumption)
    (hports : Area.ports ∈ l := by assumption) (hout : Area.out ∈ l := by assumption) : s₀.Within l t := by
  unfold execCtxStopDone at ht
  (try dsimp only at ht)
  injection ht with ht
  subst ht
  repeat' (first
    | (with_reducible first
      | exact h | assumption | apply State.WithinMk.of | exact Or.inl rfl | exact Or.inr (by assumption)
      | exact Or.inr ⟨by assumption, id⟩ | apply State.within_ite | apply State.modCtx_within
      | apply State.setReg_within | apply State.event_within)
    | (simp only [State.within_mk]; (try dsimp only)) | split | (dsimp only; split) | (intro; intros))

theorem State.stopAll_within {l : List Area} {s₀ s : State} (h : s₀.Within l s) (l')
    (hcores : Area.cores ∈ l := by assumption) : s₀.Within l (State.stopAll s l') := by
  unfold State.stopAll
  (try dsimp only)
  repeat' (first
    | (with_reducible first
      | exact h | assumption | apply State.within_foldl | apply State.within_foldl_fst
      | apply State.stopArrives_within)
    | (intro; intros))

theorem State.holdXfers_within {l : List Area} {s₀ s : State} (h : s₀.Within l s) (x cause)
    (hxfers : Area.xfers ∈ l := by assumption) : s₀.Within l (State.holdXfers s x cause) := by
  unfold State.holdXfers
  (try dsimp only)
  repeat' (first
    | (with_reducible first
      | exact h | assumption | apply State.WithinMk.of | exact Or.inl rfl | exact Or.inr (by assumption)
      | exact Or.inr ⟨by assumption, id⟩)
    | (simp only [State.within_mk]; (try dsimp only)) | (intro; intros))

theorem State.pauseCtx_within {l : List Area} {s₀ s : State} (h : s₀.Within l s) (x cause)
    (hregs : Area.regs ∈ l := by assumption) (hcores : Area.cores ∈ l := by assumption)
    (hxfers : Area.xfers ∈ l := by assumption) (hctxs : Area.ctxs ∈ l := by assumption) : s₀.Within l
    (State.pauseCtx s x cause) := by
  unfold State.pauseCtx
  (try dsimp only)
  repeat' (first
    | (with_reducible first
      | exact h | assumption | apply State.WithinMk.of | exact Or.inl rfl | exact Or.inr (by assumption)
      | exact Or.inr ⟨by assumption, id⟩ | apply State.within_ite | apply State.setReg_within
      | apply State.dropWaits_within | apply State.unflag_within | apply State.modCtx_within
      | apply State.holdXfers_within | apply State.stopAll_within)
    | (simp only [State.within_mk]; (try dsimp only)) | split | (dsimp only; split) | (intro; intros))

theorem execCtxPause_within {l : List Area} {s₀ s : State} (h : s₀.Within l s) (port x) (t)
    (ht : execCtxPause port x s = .next t) (hregs : Area.regs ∈ l := by assumption)
    (hcores : Area.cores ∈ l := by assumption) (hxfers : Area.xfers ∈ l := by assumption)
    (hctxs : Area.ctxs ∈ l := by assumption) (hports : Area.ports ∈ l := by assumption)
    (hout : Area.out ∈ l := by assumption) : s₀.Within l t := by
  unfold execCtxPause at ht
  (try dsimp only at ht)
  injection ht with ht
  subst ht
  repeat' (first
    | (with_reducible first
      | exact h | assumption | apply State.command_within | apply State.pauseCtx_within | apply State.cmdErr_within)
    | (intro; intros))

theorem State.writeRecord_within {l : List Area} {s₀ s : State} (h : s₀.Within l s) (x)
    (hregs : Area.regs ∈ l := by assumption) (hhbm : Area.hbm ∈ l := by assumption)
    (hhbmc : Area.hbmc ∈ l := by assumption) (hctxs : Area.ctxs ∈ l := by assumption)
    (hhelm : Area.helm ∈ l := by assumption) (hfree : Area.free ∈ l := by assumption) : s₀.Within l
    (State.writeRecord s x) := by
  unfold State.writeRecord
  (try dsimp only)
  repeat' (first
    | (with_reducible first
      | exact h | assumption | apply State.WithinMk.of | exact Or.inl rfl | exact Or.inr (by assumption)
      | exact Or.inr ⟨by assumption, id⟩ | apply State.within_foldl | apply State.within_foldl_fst
      | apply State.hbmPut_within | apply State.modCtx_within)
    | (simp only [State.within_mk]; (try dsimp only)) | (intro; intros)
    | (dsimp only [id]))

theorem State.releaseCores_within {l : List Area} {s₀ s : State} (h : s₀.Within l s) (x)
    (hcores : Area.cores ∈ l := by assumption) (hctxs : Area.ctxs ∈ l := by assumption) : s₀.Within l
    (State.releaseCores s x) := by
  unfold State.releaseCores
  (try dsimp only)
  repeat' (first
    | (with_reducible first
      | exact h | assumption | apply State.WithinMk.of | exact Or.inl rfl | exact Or.inr (by assumption)
      | exact Or.inr ⟨by assumption, id⟩ | apply State.modCtx_within)
    | (simp only [State.within_mk]; (try dsimp only)) | (intro; intros)
    | (dsimp only))

theorem State.parkXfers_within {l : List Area} {s₀ s : State} (h : s₀.Within l s) (x)
    (hxfers : Area.xfers ∈ l := by assumption) : s₀.Within l (State.parkXfers s x) := by
  unfold State.parkXfers
  (try dsimp only)
  repeat' (first
    | (with_reducible first
      | exact h | assumption | apply State.WithinMk.of | exact Or.inl rfl | exact Or.inr (by assumption)
      | exact Or.inr ⟨by assumption, id⟩)
    | (simp only [State.within_mk]; (try dsimp only)) | (intro; intros))

theorem execCtxPauseDone_within {l : List Area} {s₀ s : State} (h : s₀.Within l s) (x) (t)
    (ht : execCtxPauseDone x s = .next t) (hregs : Area.regs ∈ l := by assumption)
    (hcores : Area.cores ∈ l := by assumption) (hhbm : Area.hbm ∈ l := by assumption)
    (hhbmc : Area.hbmc ∈ l := by assumption) (hxfers : Area.xfers ∈ l := by assumption)
    (hctxs : Area.ctxs ∈ l := by assumption) (hports : Area.ports ∈ l := by assumption)
    (hhelm : Area.helm ∈ l := by assumption) (hfree : Area.free ∈ l := by assumption)
    (hout : Area.out ∈ l := by assumption) : s₀.Within l t := by
  unfold execCtxPauseDone at ht
  (try dsimp only at ht)
  injection ht with ht
  subst ht
  repeat' (first
    | (with_reducible first
      | exact h | assumption | apply State.WithinMk.of | exact Or.inl rfl | exact Or.inr (by assumption)
      | exact Or.inr ⟨by assumption, id⟩ | apply State.within_ite | apply State.writeRecord_within
      | apply State.parkXfers_within | apply State.releaseCores_within | apply State.modCtx_within
      | apply State.setReg_within | apply State.event_within)
    | (simp only [State.within_mk]; (try dsimp only)) | split | (dsimp only; split) | (intro; intros))

theorem State.unbind_within {l : List Area} {s₀ s : State} (h : s₀.Within l s) (x)
    (hregs : Area.regs ∈ l := by assumption) (hnet : Area.net ∈ l := by assumption) (hfab : Area.fab ∈ l := by assumption)
    (hout : Area.out ∈ l := by assumption) : s₀.Within l (State.unbind s x) := by
  unfold State.unbind
  (try dsimp only)
  repeat' (first
    | (with_reducible first
      | exact h | assumption | apply State.WithinMk.of | exact Or.inl rfl | exact Or.inr (by assumption)
      | exact Or.inr ⟨by assumption, id⟩ | apply State.within_foldl | apply State.within_foldl_fst
      | apply State.txRun_within)
    | (simp only [State.within_mk]; (try dsimp only)) | (intro; intros)
    | (dsimp only))

theorem State.homeAll_within {l : List Area} {s₀ s : State} (h : s₀.Within l s) (x)
    (hregs : Area.regs ∈ l := by assumption) (hhbm : Area.hbm ∈ l := by assumption)
    (hhbmc : Area.hbmc ∈ l := by assumption) (hctxs : Area.ctxs ∈ l := by assumption)
    (hhelm : Area.helm ∈ l := by assumption) (hfree : Area.free ∈ l := by assumption) : s₀.Within l (State.homeAll s x) :=
    by
  unfold State.homeAll
  (try dsimp only)
  repeat' (first
    | (with_reducible first
      | exact h | assumption | apply State.within_foldl | apply State.within_foldl_fst | apply State.copyHome_within)
    | (intro; intros)
    | (dsimp only))

theorem State.setXfers_within {l : List Area} {s₀ s : State} (h : s₀.Within l s) (xs : List Xfer)
    (hx : Area.xfers ∈ l := by assumption) : s₀.Within l { s with xfers := xs } := by
  rw [State.within_mk]
  apply State.WithinMk.of h <;> first | exact Or.inl rfl | exact Or.inr hx

theorem State.killCtx_within {l : List Area} {s₀ s : State} (h : s₀.Within l s) (x e)
    (hregs : Area.regs ∈ l := by assumption) (hcores : Area.cores ∈ l := by assumption)
    (hnet : Area.net ∈ l := by assumption) (hhbm : Area.hbm ∈ l := by assumption) (hhbmc : Area.hbmc ∈ l := by assumption)
    (hxfers : Area.xfers ∈ l := by assumption) (hctxs : Area.ctxs ∈ l := by assumption)
    (hports : Area.ports ∈ l := by assumption) (hhelm : Area.helm ∈ l := by assumption)
    (hfab : Area.fab ∈ l := by assumption) (hcfg : Area.cfg ∈ l := by assumption) (hfree : Area.free ∈ l := by assumption)
    (hout : Area.out ∈ l := by assumption) : s₀.Within l (State.killCtx s x e) := by
  unfold State.killCtx; split
  · exact h
  · exact State.invalsDone_within (State.invalsDone_within (State.ctxFreed_within (State.cqFlush_within (State.modCtx_within
      (State.within_foldl _ _ (State.setXfers_within (State.unbind_within
      (State.closeWindows_within (State.setReg_within (State.setReg_within (State.setReg_within (State.setReg_within
        (State.bumpN_within (State.killLoads_within (State.homeAll_within h _) _) _ _ _)
        _ _ _) _ _ _) _ _ _) _ _ _) _) _) _) fun s c k => State.killCore_within k _) _ _) _ _) _) _) _

theorem execCtxKill_within {l : List Area} {s₀ s : State} (h : s₀.Within l s) (port x) (t)
    (ht : execCtxKill port x s = .next t) (hregs : Area.regs ∈ l := by assumption)
    (hcores : Area.cores ∈ l := by assumption) (hnet : Area.net ∈ l := by assumption)
    (hhbm : Area.hbm ∈ l := by assumption) (hhbmc : Area.hbmc ∈ l := by assumption)
    (hxfers : Area.xfers ∈ l := by assumption) (hctxs : Area.ctxs ∈ l := by assumption)
    (hports : Area.ports ∈ l := by assumption) (hhelm : Area.helm ∈ l := by assumption)
    (hfab : Area.fab ∈ l := by assumption) (hcfg : Area.cfg ∈ l := by assumption) (hfree : Area.free ∈ l := by assumption)
    (hout : Area.out ∈ l := by assumption) : s₀.Within l t := by
  unfold execCtxKill at ht
  (try dsimp only at ht)
  injection ht with ht
  subst ht
  repeat' (first
    | (with_reducible first
      | exact h | assumption | apply State.command_within | apply State.cmdErr_within | apply State.killCtx_within)
    | (intro; intros))

theorem State.dropLease_within {l : List Area} {s₀ s : State} (h : s₀.Within l s) (p)
    (hregs : Area.regs ∈ l := by assumption) : s₀.Within l (State.dropLease s p) := by
  unfold State.dropLease
  (try dsimp only)
  repeat' (first
    | (with_reducible first
      | exact h | assumption | apply State.within_ite | apply State.setReg_within)
    | split | (dsimp only; split))

theorem execLeaseAcquire_within {l : List Area} {s₀ s : State} (h : s₀.Within l s) (port) (t)
    (ht : execLeaseAcquire port s = .next t) (hregs : Area.regs ∈ l := by assumption)
    (hports : Area.ports ∈ l := by assumption) (hout : Area.out ∈ l := by assumption) : s₀.Within l t := by
  unfold execLeaseAcquire at ht
  (try dsimp only at ht)
  injection ht with ht
  subst ht
  repeat' (first
    | (with_reducible first
      | exact h | assumption | apply State.within_ite | apply State.writeAs_within | apply State.setReg_within
      | apply State.violation_within)
    | split | (dsimp only; split) | (intro; intros))

theorem execLeaseRelease_within {l : List Area} {s₀ s : State} (h : s₀.Within l s) (port) (t)
    (ht : execLeaseRelease port s = .next t) (hregs : Area.regs ∈ l := by assumption)
    (hports : Area.ports ∈ l := by assumption) (hout : Area.out ∈ l := by assumption) : s₀.Within l t := by
  unfold execLeaseRelease at ht
  (try dsimp only at ht)
  injection ht with ht
  subst ht
  repeat' (first
    | (with_reducible first
      | exact h | assumption | apply State.within_ite | apply State.writeAs_within | apply State.dropLease_within
      | apply State.violation_within)
    | split | (dsimp only; split) | (intro; intros))

theorem State.resumeCtx_within {l : List Area} {s₀ s : State} (h : s₀.Within l s) (x)
    (hregs : Area.regs ∈ l := by assumption) (hcores : Area.cores ∈ l := by assumption)
    (hctxs : Area.ctxs ∈ l := by assumption) : s₀.Within l (State.resumeCtx s x) := by
  unfold State.resumeCtx
  (try dsimp only)
  repeat' (first
    | (with_reducible first
      | exact h | assumption | apply State.WithinMk.of | exact Or.inl rfl | exact Or.inr (by assumption)
      | exact Or.inr ⟨by assumption, id⟩ | apply State.takeHold_within | apply State.modCtx_within
      | apply State.cmdBusy_within)
    | (simp only [State.within_mk]; (try dsimp only)) | (intro; intros))

theorem execCtxResume_within {l : List Area} {s₀ s : State} (h : s₀.Within l s) (port x) (t)
    (ht : execCtxResume port x s = .next t) (hregs : Area.regs ∈ l := by assumption)
    (hcores : Area.cores ∈ l := by assumption) (hctxs : Area.ctxs ∈ l := by assumption)
    (hports : Area.ports ∈ l := by assumption) (hout : Area.out ∈ l := by assumption) : s₀.Within l t := by
  unfold execCtxResume at ht
  (try dsimp only at ht)
  injection ht with ht
  subst ht
  repeat' (first
    | (with_reducible first
      | exact h | assumption | apply State.within_ite | apply State.command_within | apply State.cmdErr_within
      | apply State.resumeCtx_within)
    | split | (dsimp only; split) | (intro; intros))

theorem execCoreRestore_within {l : List Area} {s₀ s : State} (h : s₀.Within l s) (c readable) (t)
    (ht : execCoreRestore c readable s = .next t) (hregs : Area.regs ∈ l := by assumption)
    (hcores : Area.cores ∈ l := by assumption) (hhbmc : Area.hbmc ∈ l := by assumption)
    (hctxs : Area.ctxs ∈ l := by assumption) (hhelm : Area.helm ∈ l := by assumption)
    (hfree : Area.free ∈ l := by assumption) : s₀.Within l t := by
  unfold execCoreRestore at ht
  (try dsimp only at ht)
  injection ht with ht
  subst ht
  repeat' (first
    | (with_reducible first
      | exact h | assumption | apply State.WithinMk.of | exact Or.inl rfl | exact Or.inr (by assumption)
      | exact Or.inr ⟨by assumption, id⟩ | apply State.within_ite | apply State.within_ite_fst
      | apply State.hbmSeen_within | apply State.modCtx_within | apply State.setCore_within)
    | (simp only [State.within_mk]; (try dsimp only)) | split | (dsimp only; split) | (intro; intros)
    | (dsimp only))

theorem State.recordSeen_within {l : List Area} {s₀ s : State} (h : s₀.Within l s) (x)
    (hregs : Area.regs ∈ l := by assumption) (hhbmc : Area.hbmc ∈ l := by assumption)
    (hhelm : Area.helm ∈ l := by assumption) (hfree : Area.free ∈ l := by assumption) : s₀.Within l
    (State.recordSeen s x).1 := by
  unfold State.recordSeen
  (try dsimp only)
  repeat' (first
    | (with_reducible first
      | exact h | assumption | apply State.within_ite_fst | apply State.hbmSeen_within)
    | (dsimp only))

theorem State.readRecord_within {l : List Area} {s₀ s : State} (h : s₀.Within l s) (x)
    (hxfers : Area.xfers ∈ l := by assumption) (hctxs : Area.ctxs ∈ l := by assumption) : s₀.Within l
    (State.readRecord s x) := by
  unfold State.readRecord
  (try dsimp only)
  repeat' (first
    | (with_reducible first
      | exact h | assumption | apply State.WithinMk.of | exact Or.inl rfl | exact Or.inr (by assumption)
      | exact Or.inr ⟨by assumption, id⟩ | apply State.modCtx_within)
    | (simp only [State.within_mk]; (try dsimp only)) | (intro; intros))

theorem State.reinject_within {l : List Area} {s₀ s : State} (h : s₀.Within l s) (x)
    (hcores : Area.cores ∈ l := by assumption) (hctxs : Area.ctxs ∈ l := by assumption) : s₀.Within l (State.reinject s x)
    := by
  unfold State.reinject
  (try dsimp only)
  repeat' (first
    | (with_reducible first
      | exact h | assumption | apply State.WithinMk.of | exact Or.inl rfl | exact Or.inr (by assumption)
      | exact Or.inr ⟨by assumption, id⟩ | apply State.within_foldl | apply State.within_foldl_fst
      | apply State.modCore_within | apply State.modCtx_within)
    | (simp only [State.within_mk]; (try dsimp only)) | (intro; intros)
    | (dsimp only))

theorem State.freeXfers_within {l : List Area} {s₀ s : State} (h : s₀.Within l s) (x)
    (hxfers : Area.xfers ∈ l := by assumption) : s₀.Within l (State.freeXfers s x) := by
  unfold State.freeXfers
  (try dsimp only)
  repeat' (first
    | (with_reducible first
      | exact h | assumption | apply State.WithinMk.of | exact Or.inl rfl | exact Or.inr (by assumption)
      | exact Or.inr ⟨by assumption, id⟩ | apply State.within_ite)
    | (simp only [State.within_mk]; (try dsimp only)) | split | (dsimp only; split) | (intro; intros)
    | (dsimp only [id]))

theorem State.goOn_within {l : List Area} {s₀ s : State} (h : s₀.Within l s) (x c)
    (hcores : Area.cores ∈ l := by assumption) : s₀.Within l (State.goOn s x c) := by
  unfold State.goOn
  (try dsimp only)
  repeat' (first
    | (with_reducible first
      | exact h | assumption | apply State.WithinMk.of | exact Or.inl rfl | exact Or.inr (by assumption)
      | exact Or.inr ⟨by assumption, id⟩ | apply State.within_ite | apply State.modCore_within
      | apply State.haltCore_within)
    | (simp only [State.within_mk]; (try dsimp only)) | split | (dsimp only; split) | (intro; intros))

theorem State.endLost_within {l : List Area} {s₀ s : State} (h : s₀.Within l s) (x)
    (hregs : Area.regs ∈ l := by assumption) (hhbm : Area.hbm ∈ l := by assumption)
    (hhbmc : Area.hbmc ∈ l := by assumption) (hctxs : Area.ctxs ∈ l := by assumption)
    (hports : Area.ports ∈ l := by assumption) (hhelm : Area.helm ∈ l := by assumption)
    (hfree : Area.free ∈ l := by assumption) (hout : Area.out ∈ l := by assumption) : s₀.Within l (State.endLost s x) :=
    by
  unfold State.endLost
  (try dsimp only)
  repeat' (first
    | (with_reducible first
      | exact h | assumption | apply State.within_foldl | apply State.within_foldl_fst | apply State.endPass_within)
    | (intro; intros))

theorem State.continueCtx_within {l : List Area} {s₀ s : State} (h : s₀.Within l s) (x)
    (hregs : Area.regs ∈ l := by assumption) (hcores : Area.cores ∈ l := by assumption)
    (hhbm : Area.hbm ∈ l := by assumption) (hhbmc : Area.hbmc ∈ l := by assumption)
    (hxfers : Area.xfers ∈ l := by assumption) (hctxs : Area.ctxs ∈ l := by assumption)
    (hports : Area.ports ∈ l := by assumption) (hhelm : Area.helm ∈ l := by assumption)
    (hfree : Area.free ∈ l := by assumption) (hout : Area.out ∈ l := by assumption) : s₀.Within l (State.continueCtx s x)
    := by
  unfold State.continueCtx
  (try dsimp only)
  repeat' (first
    | (with_reducible first
      | exact h | assumption | apply State.WithinMk.of | exact Or.inl rfl | exact Or.inr (by assumption)
      | exact Or.inr ⟨by assumption, id⟩ | apply State.within_ite | apply State.within_ite_fst
      | apply State.within_foldl | apply State.within_foldl_fst | apply State.recordSeen_within
      | apply State.readRecord_within | apply State.endLost_within | apply State.goOn_within
      | apply State.setReg_within | apply State.modCtx_within | apply State.reinject_within
      | apply State.freeXfers_within | apply State.priAll_within | apply State.releaseMsgs_within
      | apply State.cqGo_within | apply State.event_within | apply State.retirePasses_within
      | apply State.markElig_within)
    | (simp only [State.within_mk]; (try dsimp only)) | split | (dsimp only; split) | (intro; intros)
    | (dsimp only))

theorem State.pauseAgain_within {l : List Area} {s₀ s : State} (h : s₀.Within l s) (x)
    (hregs : Area.regs ∈ l := by assumption) (hcores : Area.cores ∈ l := by assumption)
    (hxfers : Area.xfers ∈ l := by assumption) (hctxs : Area.ctxs ∈ l := by assumption) : s₀.Within l
    (State.pauseAgain s x) := by
  unfold State.pauseAgain
  (try dsimp only)
  repeat' (first
    | (with_reducible first
      | exact h | assumption | apply State.within_ite | apply State.setReg_within | apply State.pauseCtx_within)
    | split | (dsimp only; split))

theorem execCtxResumeDone_within {l : List Area} {s₀ s : State} (h : s₀.Within l s) (x) (t)
    (ht : execCtxResumeDone x s = .next t) (hregs : Area.regs ∈ l := by assumption)
    (hcores : Area.cores ∈ l := by assumption) (hhbm : Area.hbm ∈ l := by assumption)
    (hhbmc : Area.hbmc ∈ l := by assumption) (hxfers : Area.xfers ∈ l := by assumption)
    (hctxs : Area.ctxs ∈ l := by assumption) (hports : Area.ports ∈ l := by assumption)
    (hhelm : Area.helm ∈ l := by assumption) (hfree : Area.free ∈ l := by assumption)
    (hout : Area.out ∈ l := by assumption) : s₀.Within l t := by
  unfold execCtxResumeDone at ht
  (try dsimp only at ht)
  injection ht with ht
  subst ht
  repeat' (first
    | (with_reducible first
      | exact h | assumption | apply State.within_ite | apply State.continueCtx_within | apply State.pauseAgain_within)
    | split | (dsimp only; split) | (intro; intros))

theorem State.pkgCommand_within {l : List Area} {s₀ s : State} (h : s₀.Within l s) (p f act)
    (ha : ∀ t, s₀.Within l t → s₀.Within l (act t)) (hregs : Area.regs ∈ l := by assumption)
    (hports : Area.ports ∈ l := by assumption) (hout : Area.out ∈ l := by assumption) : s₀.Within l
    (State.pkgCommand s p f act) := by
  unfold State.pkgCommand
  refine State.writeAs_within h _ _ _ _ _ fun t ht => ?_
  repeat' (first | exact State.violation_within ht _ | exact State.setReg_within ht _ _ _ | exact ha _ ht | split)

theorem execPkgStop_within {l : List Area} {s₀ s : State} (h : s₀.Within l s) (port) (t)
    (ht : execPkgStop port s = .next t) (hregs : Area.regs ∈ l := by assumption)
    (hcores : Area.cores ∈ l := by assumption) (hxfers : Area.xfers ∈ l := by assumption)
    (hctxs : Area.ctxs ∈ l := by assumption) (hports : Area.ports ∈ l := by assumption)
    (hout : Area.out ∈ l := by assumption) : s₀.Within l t := by
  unfold execPkgStop at ht
  (try dsimp only at ht)
  injection ht with ht
  subst ht
  repeat' (first
    | (with_reducible first
      | exact h | assumption | apply State.within_foldl | apply State.within_foldl_fst | apply State.pkgCommand_within
      | apply State.setReg_within | apply State.pauseCtx_within)
    | (intro; intros)
    | (dsimp only))

theorem execPkgStopped_within {l : List Area} {s₀ s : State} (h : s₀.Within l s) (t) (ht : execPkgStopped s = .next t)
    (hregs : Area.regs ∈ l := by assumption) : s₀.Within l t := by
  unfold execPkgStopped at ht
  (try dsimp only at ht)
  injection ht with ht
  subst ht
  repeat' (first
    | (with_reducible first
      | exact h | assumption | apply State.within_ite | apply State.within_ite_fst | apply State.setReg_within
      | apply State.bump_within)
    | split | (dsimp only; split) | (intro; intros)
    | (dsimp only))

theorem State.restartCtx_within {l : List Area} {s₀ s : State} (h : s₀.Within l s) (x)
    (hregs : Area.regs ∈ l := by assumption) (hcores : Area.cores ∈ l := by assumption)
    (hctxs : Area.ctxs ∈ l := by assumption) (hports : Area.ports ∈ l := by assumption)
    (hout : Area.out ∈ l := by assumption) : s₀.Within l (State.restartCtx s x) := by
  unfold State.restartCtx
  (try dsimp only)
  repeat' (first
    | (with_reducible first
      | exact h | assumption | apply State.within_ite | apply State.setReg_within | apply State.cmdErr_within
      | apply State.event_within | apply State.resumeCtx_within)
    | split | (dsimp only; split))

theorem State.governAfresh_within {l : List Area} {s₀ s : State} (h : s₀.Within l s)
    (hpower : Area.power ∈ l := by assumption) : s₀.Within l (State.governAfresh s) := by
  unfold State.governAfresh
  (try dsimp only)
  repeat' (first
    | (with_reducible first
      | exact h | assumption | apply State.WithinMk.of | exact Or.inl rfl | exact Or.inr (by assumption)
      | exact Or.inr ⟨by assumption, id⟩)
    | (simp only [State.within_mk]; (try dsimp only)))

theorem execPkgRestart_within {l : List Area} {s₀ s : State} (h : s₀.Within l s) (port) (t)
    (ht : execPkgRestart port s = .next t) (hregs : Area.regs ∈ l := by assumption)
    (hcores : Area.cores ∈ l := by assumption) (hhbmc : Area.hbmc ∈ l := by assumption)
    (hctxs : Area.ctxs ∈ l := by assumption) (hports : Area.ports ∈ l := by assumption)
    (hhelm : Area.helm ∈ l := by assumption) (hpower : Area.power ∈ l := by assumption)
    (hsal : Area.sal ∈ l := by assumption) (hfree : Area.free ∈ l := by assumption) (hout : Area.out ∈ l := by assumption)
    : s₀.Within l t := by
  unfold execPkgRestart at ht
  (try dsimp only at ht)
  injection ht with ht
  subst ht
  repeat' (first
    | (with_reducible first
      | exact h | assumption | apply State.within_foldl | apply State.within_foldl_fst | apply State.pkgCommand_within
      | apply State.newRate_within | apply State.governAfresh_within | apply State.setReg_within
      | apply State.salRestart_within | apply State.restartCtx_within)
    | (intro; intros)
    | (dsimp only))

theorem execPkgRestartDone_within {l : List Area} {s₀ s : State} (h : s₀.Within l s) (t)
    (ht : execPkgRestartDone s = .next t) (hregs : Area.regs ∈ l := by assumption) : s₀.Within l t := by
  unfold execPkgRestartDone at ht
  (try dsimp only at ht)
  injection ht with ht
  subst ht
  repeat' (first
    | (with_reducible first
      | exact h | assumption | apply State.within_ite | apply State.setReg_within)
    | split | (dsimp only; split) | (intro; intros))

end Sys2Proof.Machine
end

