-- ==== Sys2Proof/Laws/WithinModule.lean ====
section
/-! SUPPORT. What each operation changes at most (State.Within, Safety.lean), for power, ports, security, start and register accesses. -/

namespace Sys2Proof.Machine

set_option Elab.async false
set_option linter.all false

theorem State.modRegion_within {l : List Area} {s₀ s : State} (h : s₀.Within l s) (r f)
    (hpower : Area.power ∈ l := by assumption) : s₀.Within l (State.modRegion s r f) := by
  unfold State.modRegion
  (try dsimp only)
  repeat' (first
    | (with_reducible first
      | exact h | assumption | apply State.WithinMk.of | exact Or.inl rfl | exact Or.inr (by assumption)
      | exact Or.inr ⟨by assumption, id⟩)
    | (simp only [State.within_mk]; (try dsimp only)))

theorem State.lower_within {l : List Area} {s₀ s : State} (h : s₀.Within l s) (r floor)
    (hpower : Area.power ∈ l := by assumption) : s₀.Within l (State.lower s r floor) := by
  unfold State.lower
  (try dsimp only)
  repeat' (first
    | (with_reducible first
      | exact h | assumption | apply State.WithinMk.of | exact Or.inl rfl | exact Or.inr (by assumption)
      | exact Or.inr ⟨by assumption, id⟩ | apply State.within_ite | apply State.modRegion_within)
    | (simp only [State.within_mk]; (try dsimp only)) | split | (dsimp only; split) | (intro; intros))

theorem State.braking_within {l : List Area} {s₀ s : State} (h : s₀.Within l s) (r)
    (hregs : Area.regs ∈ l := by assumption) (hpower : Area.power ∈ l := by assumption) : s₀.Within l (State.braking s r)
    := by
  unfold State.braking
  (try dsimp only)
  repeat' (first
    | (with_reducible first
      | exact h | assumption | apply State.WithinMk.of | exact Or.inl rfl | exact Or.inr (by assumption)
      | exact Or.inr ⟨by assumption, id⟩ | apply State.within_ite | apply State.setReg_within
      | apply State.bump_within | apply State.modRegion_within | apply State.lower_within)
    | (simp only [State.within_mk]; (try dsimp only)) | split | (dsimp only; split) | (intro; intros))

theorem State.latchedCore_within {l : List Area} {s₀ s : State} (h : s₀.Within l s) (c)
    (hregs : Area.regs ∈ l := by assumption) (hcores : Area.cores ∈ l := by assumption)
    (hnet : Area.net ∈ l := by assumption) : s₀.Within l (State.latchedCore s c) := by
  unfold State.latchedCore
  (try dsimp only)
  repeat' (first
    | (with_reducible first
      | exact h | assumption | apply State.WithinMk.of | exact Or.inl rfl | exact Or.inr (by assumption)
      | exact Or.inr ⟨by assumption, id⟩ | apply State.within_ite | apply State.resetCore_within
      | apply State.killCore_within | apply State.haltCore_within | apply State.modCore_within
      | apply State.fault_within | apply State.takeLatched_within)
    | (simp only [State.within_mk]; (try dsimp only)) | split | (dsimp only; split) | (intro; intros))

theorem State.latchedAll_within {l : List Area} {s₀ s : State} (h : s₀.Within l s) (r)
    (hregs : Area.regs ∈ l := by assumption) (hcores : Area.cores ∈ l := by assumption)
    (hnet : Area.net ∈ l := by assumption) : s₀.Within l (State.latchedAll s r) := by
  unfold State.latchedAll
  (try dsimp only)
  repeat' (first
    | (with_reducible first
      | exact h | assumption | apply State.within_foldl | apply State.within_foldl_fst
      | apply State.latchedCore_within | apply State.wakeRouter_within)
    | (intro; intros)
    | (dsimp only))

theorem State.released_within {l : List Area} {s₀ s : State} (h : s₀.Within l s) (r)
    (hregs : Area.regs ∈ l := by assumption) (hcores : Area.cores ∈ l := by assumption)
    (hnet : Area.net ∈ l := by assumption) : s₀.Within l (State.released s r) := by
  unfold State.released
  (try dsimp only)
  repeat' (first
    | (with_reducible first
      | exact h | assumption | apply State.within_ite | apply State.setReg_within | apply State.latchedAll_within)
    | split | (dsimp only; split))

theorem State.brakeCurrent_within {l : List Area} {s₀ s : State} (h : s₀.Within l s) (r)
    (hregs : Area.regs ∈ l := by assumption) (hpower : Area.power ∈ l := by assumption) : s₀.Within l
    (State.brakeCurrent s r) := by
  unfold State.brakeCurrent
  (try dsimp only)
  repeat' (first
    | (with_reducible first
      | exact h | assumption | apply State.WithinMk.of | exact Or.inl rfl | exact Or.inr (by assumption)
      | exact Or.inr ⟨by assumption, id⟩ | apply State.within_ite | apply State.modRegion_within
      | apply State.braking_within)
    | (simp only [State.within_mk]; (try dsimp only)) | split | (dsimp only; split) | (intro; intros))

theorem execBrakeApply_within {l : List Area} {s₀ s : State} (h : s₀.Within l s) (die k) (t)
    (ht : execBrakeApply die k s = .next t) (hregs : Area.regs ∈ l := by assumption)
    (hpower : Area.power ∈ l := by assumption) : s₀.Within l t := by
  unfold execBrakeApply at ht
  (try dsimp only at ht)
  injection ht with ht
  subst ht
  repeat' (with_reducible first
      | exact h | assumption | apply State.brakeCurrent_within)

theorem execRegionCurrentAlarm_within {l : List Area} {s₀ s : State} (h : s₀.Within l s) (die k) (t)
    (ht : execRegionCurrentAlarm die k s = .next t) (hregs : Area.regs ∈ l := by assumption)
    (hpower : Area.power ∈ l := by assumption) : s₀.Within l t := by
  unfold execRegionCurrentAlarm at ht
  (try dsimp only at ht)
  injection ht with ht
  subst ht
  repeat' (with_reducible first
      | exact h | assumption | apply State.brakeCurrent_within)

theorem execBrakeRelease_within {l : List Area} {s₀ s : State} (h : s₀.Within l s) (die k) (t)
    (ht : execBrakeRelease die k s = .next t) (hregs : Area.regs ∈ l := by assumption)
    (hcores : Area.cores ∈ l := by assumption) (hnet : Area.net ∈ l := by assumption)
    (hpower : Area.power ∈ l := by assumption) : s₀.Within l t := by
  unfold execBrakeRelease at ht
  (try dsimp only at ht)
  injection ht with ht
  subst ht
  repeat' (first
    | (with_reducible first
      | exact h | assumption | apply State.WithinMk.of | exact Or.inl rfl | exact Or.inr (by assumption)
      | exact Or.inr ⟨by assumption, id⟩ | apply State.within_ite | apply State.modRegion_within
      | apply State.released_within)
    | (simp only [State.within_mk]; (try dsimp only)) | split | (dsimp only; split) | (intro; intros))

theorem execInputFastTrip_within {l : List Area} {s₀ s : State} (h : s₀.Within l s) (t)
    (ht : execInputFastTrip s = .next t) (hregs : Area.regs ∈ l := by assumption)
    (hpower : Area.power ∈ l := by assumption) : s₀.Within l t := by
  unfold execInputFastTrip at ht
  (try dsimp only at ht)
  injection ht with ht
  subst ht
  repeat' (first
    | (with_reducible first
      | exact h | assumption | apply State.within_foldl | apply State.within_foldl_fst
      | apply State.brakeCurrent_within)
    | (intro; intros))

theorem execLevelSlewDone_within {l : List Area} {s₀ s : State} (h : s₀.Within l s) (die k) (t)
    (ht : execLevelSlewDone die k s = .next t) (hregs : Area.regs ∈ l := by assumption)
    (hpower : Area.power ∈ l := by assumption) : s₀.Within l t := by
  unfold execLevelSlewDone at ht
  (try dsimp only at ht)
  injection ht with ht
  subst ht
  repeat' (first
    | (with_reducible first
      | exact h | assumption | apply State.WithinMk.of | exact Or.inl rfl | exact Or.inr (by assumption)
      | exact Or.inr ⟨by assumption, id⟩ | apply State.within_ite | apply State.setReg_within)
    | (simp only [State.within_mk]; (try dsimp only)) | split | (dsimp only; split))

theorem State.readVin_within {l : List Area} {s₀ s : State} (h : s₀.Within l s) (vin)
    (hregs : Area.regs ∈ l := by assumption) (hmodule : Area.module ∈ l := by assumption) : s₀.Within l
    (State.readVin s vin) := by
  unfold State.readVin
  (try dsimp only)
  repeat' (first
    | (with_reducible first
      | exact h | assumption | apply State.WithinMk.of | exact Or.inl rfl | exact Or.inr (by assumption)
      | exact Or.inr ⟨by assumption, id⟩ | apply State.within_ite | apply State.setReg_within)
    | (simp only [State.within_mk]; (try dsimp only)) | split | (dsimp only; split))

theorem State.governDown_within {l : List Area} {s₀ s : State} (h : s₀.Within l s)
    (hregs : Area.regs ∈ l := by assumption) (hpower : Area.power ∈ l := by assumption) : s₀.Within l (State.governDown s)
    := by
  unfold State.governDown
  (try dsimp only)
  repeat' (first
    | (with_reducible first
      | exact h | assumption | apply State.within_foldl | apply State.within_foldl_fst | apply State.lower_within
      | apply State.bump_within)
    | (intro; intros))

theorem State.governUp_within {l : List Area} {s₀ s : State} (h : s₀.Within l s)
    (hpower : Area.power ∈ l := by assumption) : s₀.Within l (State.governUp s) := by
  unfold State.governUp
  (try dsimp only)
  repeat' (first
    | (with_reducible first
      | exact h | assumption | apply State.WithinMk.of | exact Or.inl rfl | exact Or.inr (by assumption)
      | exact Or.inr ⟨by assumption, id⟩ | apply State.within_ite | apply State.within_foldl
      | apply State.within_foldl_fst | apply State.modRegion_within)
    | (simp only [State.within_mk]; (try dsimp only)) | split | (dsimp only; split) | (intro; intros))

theorem State.brakeDuty_within {l : List Area} {s₀ s : State} (h : s₀.Within l s) (r)
    (hregs : Area.regs ∈ l := by assumption) (hpower : Area.power ∈ l := by assumption) : s₀.Within l
    (State.brakeDuty s r) := by
  unfold State.brakeDuty
  (try dsimp only)
  repeat' (first
    | (with_reducible first
      | exact h | assumption | apply State.WithinMk.of | exact Or.inl rfl | exact Or.inr (by assumption)
      | exact Or.inr ⟨by assumption, id⟩ | apply State.within_ite | apply State.modRegion_within
      | apply State.braking_within)
    | (simp only [State.within_mk]; (try dsimp only)) | split | (dsimp only; split) | (intro; intros))

theorem State.floorTick_within {l : List Area} {s₀ s : State} (h : s₀.Within l s) (hregs : Area.regs ∈ l := by assumption)
    (hpower : Area.power ∈ l := by assumption) : s₀.Within l (State.floorTick s) := by
  unfold State.floorTick
  (try dsimp only)
  repeat' (first
    | (with_reducible first
      | exact h | assumption | apply State.WithinMk.of | exact Or.inl rfl | exact Or.inr (by assumption)
      | exact Or.inr ⟨by assumption, id⟩ | apply State.within_ite | apply State.bump_within)
    | (simp only [State.within_mk]; (try dsimp only)) | split | (dsimp only; split) | (intro; intros))

theorem State.l0Tick_within {l : List Area} {s₀ s : State} (h : s₀.Within l s) (hregs : Area.regs ∈ l := by assumption)
    (hhelm : Area.helm ∈ l := by assumption) (hpower : Area.power ∈ l := by assumption) : s₀.Within l (State.l0Tick s) :=
    by
  unfold State.l0Tick
  (try dsimp only)
  repeat' (first
    | (with_reducible first
      | exact h | assumption | apply State.WithinMk.of | exact Or.inl rfl | exact Or.inr (by assumption)
      | exact Or.inr ⟨by assumption, id⟩ | apply State.within_ite | apply State.within_foldl
      | apply State.within_foldl_fst | apply State.bump_within | apply State.raise_within
      | apply State.brakeDuty_within)
    | (simp only [State.within_mk]; (try dsimp only)) | split | (dsimp only; split) | (intro; intros))

theorem State.governAbove_within {l : List Area} {s₀ s : State} (h : s₀.Within l s)
    (hregs : Area.regs ∈ l := by assumption) (hhelm : Area.helm ∈ l := by assumption)
    (hpower : Area.power ∈ l := by assumption) : s₀.Within l (State.governAbove s) := by
  unfold State.governAbove
  (try dsimp only)
  repeat' (first
    | (with_reducible first
      | exact h | assumption | apply State.WithinMk.of | exact Or.inl rfl | exact Or.inr (by assumption)
      | exact Or.inr ⟨by assumption, id⟩ | apply State.floorTick_within | apply State.l0Tick_within
      | apply State.governDown_within)
    | (simp only [State.within_mk]; (try dsimp only)))

theorem State.governAt_within {l : List Area} {s₀ s : State} (h : s₀.Within l s) (hregs : Area.regs ∈ l := by assumption)
    (hpower : Area.power ∈ l := by assumption) : s₀.Within l (State.governAt s) := by
  unfold State.governAt
  (try dsimp only)
  repeat' (first
    | (with_reducible first
      | exact h | assumption | apply State.WithinMk.of | exact Or.inl rfl | exact Or.inr (by assumption)
      | exact Or.inr ⟨by assumption, id⟩ | apply State.within_ite | apply State.within_foldl
      | apply State.within_foldl_fst | apply State.brakeDuty_within)
    | (simp only [State.within_mk]; (try dsimp only)) | split | (dsimp only; split) | (intro; intros))

theorem State.governBelow_within {l : List Area} {s₀ s : State} (h : s₀.Within l s) (low)
    (hpower : Area.power ∈ l := by assumption) : s₀.Within l (State.governBelow s low) := by
  unfold State.governBelow
  (try dsimp only)
  repeat' (first
    | (with_reducible first
      | exact h | assumption | apply State.WithinMk.of | exact Or.inl rfl | exact Or.inr (by assumption)
      | exact Or.inr ⟨by assumption, id⟩ | apply State.within_ite | apply State.governUp_within)
    | (simp only [State.within_mk]; (try dsimp only)) | split | (dsimp only; split))

theorem execGovernorTick_within {l : List Area} {s₀ s : State} (h : s₀.Within l s) (watts vin) (t)
    (ht : execGovernorTick watts vin s = .next t) (hregs : Area.regs ∈ l := by assumption)
    (hhelm : Area.helm ∈ l := by assumption) (hpower : Area.power ∈ l := by assumption)
    (hmodule : Area.module ∈ l := by assumption) : s₀.Within l t := by
  unfold execGovernorTick at ht
  (try dsimp only at ht)
  injection ht with ht
  subst ht
  repeat' (first
    | (with_reducible first
      | exact h | assumption | apply State.within_ite | apply State.readVin_within | apply State.setReg_within
      | apply State.governAbove_within | apply State.governAt_within | apply State.governBelow_within)
    | split | (dsimp only; split))

theorem execDutyBrakeEnd_within {l : List Area} {s₀ s : State} (h : s₀.Within l s) (t) (ht : execDutyBrakeEnd s = .next t)
    (hregs : Area.regs ∈ l := by assumption) (hcores : Area.cores ∈ l := by assumption)
    (hnet : Area.net ∈ l := by assumption) (hpower : Area.power ∈ l := by assumption) : s₀.Within l t := by
  unfold execDutyBrakeEnd at ht
  (try dsimp only at ht)
  injection ht with ht
  subst ht
  repeat' (first
    | (with_reducible first
      | exact h | assumption | apply State.WithinMk.of | exact Or.inl rfl | exact Or.inr (by assumption)
      | exact Or.inr ⟨by assumption, id⟩ | apply State.within_foldl | apply State.within_foldl_fst
      | apply State.modRegion_within | apply State.released_within)
    | (simp only [State.within_mk]; (try dsimp only)) | (intro; intros))

theorem State.slowTick_within {l : List Area} {s₀ s : State} (h : s₀.Within l s) (r)
    (hregs : Area.regs ∈ l := by assumption) (hpower : Area.power ∈ l := by assumption) : s₀.Within l (State.slowTick s r)
    := by
  unfold State.slowTick
  (try dsimp only)
  repeat' (first
    | (with_reducible first
      | exact h | assumption | apply State.WithinMk.of | exact Or.inl rfl | exact Or.inr (by assumption)
      | exact Or.inr ⟨by assumption, id⟩ | apply State.within_ite | apply State.modRegion_within
      | apply State.setReg_within | apply State.lower_within)
    | (simp only [State.within_mk]; (try dsimp only)) | split | (dsimp only; split) | (intro; intros))

theorem State.coolTick_within {l : List Area} {s₀ s : State} (h : s₀.Within l s) (r temp)
    (hregs : Area.regs ∈ l := by assumption) (hpower : Area.power ∈ l := by assumption) : s₀.Within l
    (State.coolTick s r temp) := by
  unfold State.coolTick
  (try dsimp only)
  repeat' (first
    | (with_reducible first
      | exact h | assumption | apply State.WithinMk.of | exact Or.inl rfl | exact Or.inr (by assumption)
      | exact Or.inr ⟨by assumption, id⟩ | apply State.within_ite | apply State.modRegion_within
      | apply State.setReg_within)
    | (simp only [State.within_mk]; (try dsimp only)) | split | (dsimp only; split) | (intro; intros))

theorem State.thermalBrake_within {l : List Area} {s₀ s : State} (h : s₀.Within l s) (r temp)
    (hregs : Area.regs ∈ l := by assumption) (hcores : Area.cores ∈ l := by assumption)
    (hnet : Area.net ∈ l := by assumption) (hhelm : Area.helm ∈ l := by assumption)
    (hpower : Area.power ∈ l := by assumption) : s₀.Within l (State.thermalBrake s r temp) := by
  unfold State.thermalBrake
  (try dsimp only)
  repeat' (first
    | (with_reducible first
      | exact h | assumption | apply State.WithinMk.of | exact Or.inl rfl | exact Or.inr (by assumption)
      | exact Or.inr ⟨by assumption, id⟩ | apply State.within_ite | apply State.modRegion_within
      | apply State.braking_within | apply State.raise_within | apply State.released_within)
    | (simp only [State.within_mk]; (try dsimp only)) | split | (dsimp only; split) | (intro; intros))

theorem State.rateSample_within {l : List Area} {s₀ s : State} (h : s₀.Within l s) (r temp)
    (hregs : Area.regs ∈ l := by assumption) (hpower : Area.power ∈ l := by assumption)
    (hfree : Area.free ∈ l := by assumption) : s₀.Within l (State.rateSample s r temp) := by
  unfold State.rateSample
  (try dsimp only)
  repeat' (first
    | (with_reducible first
      | exact h | assumption | apply State.WithinMk.of | exact Or.inl rfl | exact Or.inr (by assumption)
      | exact Or.inr ⟨by assumption, id⟩ | apply State.within_ite | apply State.drew_within
      | apply State.setReg_within | apply State.modRegion_within)
    | (simp only [State.within_mk]; (try dsimp only)) | split | (dsimp only; split) | (intro; intros))

theorem execThermalSample_within {l : List Area} {s₀ s : State} (h : s₀.Within l s) (die k temp) (t)
    (ht : execThermalSample die k temp s = .next t) (hregs : Area.regs ∈ l := by assumption)
    (hcores : Area.cores ∈ l := by assumption) (hnet : Area.net ∈ l := by assumption)
    (hhelm : Area.helm ∈ l := by assumption) (hpower : Area.power ∈ l := by assumption)
    (hfree : Area.free ∈ l := by assumption) : s₀.Within l t := by
  unfold execThermalSample at ht
  (try dsimp only at ht)
  injection ht with ht
  subst ht
  repeat' (first
    | (with_reducible first
      | exact h | assumption | apply State.within_ite | apply State.setReg_within | apply State.rateSample_within
      | apply State.slowTick_within | apply State.coolTick_within | apply State.thermalBrake_within)
    | split | (dsimp only; split))

theorem State.showKeys_within {l : List Area} {s₀ s : State} (h : s₀.Within l s) (hregs : Area.regs ∈ l := by assumption)
    : s₀.Within l (State.showKeys s) := by
  unfold State.showKeys
  (try dsimp only)
  repeat' (first
    | (with_reducible first
      | exact h | assumption | apply State.within_ite | apply State.setReg_within)
    | split | (dsimp only; split))

theorem State.rollover_within {l : List Area} {s₀ s : State} (h : s₀.Within l s) (hregs : Area.regs ∈ l := by assumption)
    : s₀.Within l (State.rollover s) := by
  unfold State.rollover
  (try dsimp only)
  repeat' (first
    | (with_reducible first
      | exact h | assumption | apply State.within_ite | apply State.setReg_within)
    | split | (dsimp only; split))

theorem State.exhaust_within {l : List Area} {s₀ s : State} (h : s₀.Within l s) (hregs : Area.regs ∈ l := by assumption) :
    s₀.Within l (State.exhaust s) := by
  unfold State.exhaust
  (try dsimp only)
  repeat' (first
    | (with_reducible first
      | exact h | assumption | apply State.within_ite | apply State.setReg_within)
    | split | (dsimp only; split))

theorem State.keysMoved_within {l : List Area} {s₀ s : State} (h : s₀.Within l s) (hregs : Area.regs ∈ l := by assumption)
    (hvault : Area.vault ∈ l := by assumption) : s₀.Within l (State.keysMoved s) := by
  refine State.showKeys_within (State.exhaust_within (State.rollover_within (State.within_ite (State.modVault_within h _ ?_) h)))
  exact Vault.turnOver_onward

theorem State.keysSettle_within {l : List Area} {s₀ s : State} (h : s₀.Within l s)
    (hregs : Area.regs ∈ l := by assumption) (hvault : Area.vault ∈ l := by assumption) : s₀.Within l (State.keysSettle s)
    := by
  unfold State.keysSettle
  (try dsimp only)
  repeat' (first
    | (with_reducible first
      | exact h | assumption | apply State.within_ite | apply State.keysMoved_within)
    | split | (dsimp only; split) | (intro; intros))

theorem State.doeAnswer_within {l : List Area} {s₀ s : State} (h : s₀.Within l s) (p body)
    (hout : Area.out ∈ l := by assumption) : s₀.Within l (State.doeAnswer s p body) := by
  unfold State.doeAnswer
  (try dsimp only)
  repeat' (with_reducible first
      | exact h | assumption | apply State.send_within)

theorem State.quote_within {l : List Area} {s₀ s : State} (h : s₀.Within l s) (p nonce mask)
    (hregs : Area.regs ∈ l := by assumption) (hvault : Area.vault ∈ l := by assumption)
    (hout : Area.out ∈ l := by assumption) : s₀.Within l (State.quote s p nonce mask) := by
  unfold State.quote
  (try dsimp only)
  repeat' (first
    | (with_reducible first
      | exact h | assumption | apply State.WithinMk.of | exact Or.inl rfl | exact Or.inr (by assumption)
      | exact Or.inr ⟨by assumption, id⟩ | apply State.modVault_within | apply State.doeAnswer_within
      | apply State.keysMoved_within)
    | (simp only [State.within_mk]; (try dsimp only)) | (intro; intros)
    | (first | exact .of_eq rfl rfl | exact Vault.lose_onward _ _ | exact Vault.raise_onward _ _ _ | exact Vault.turnOver_onward _ | exact Vault.useLeaf_onward _ | exact Vault.storeKey_onward _ _ | exact Vault.stored_onward _ _ _))

theorem State.serveReq_within {l : List Area} {s₀ s : State} (h : s₀.Within l s) (t) (ht : State.serveReq s = some t)
    (hregs : Area.regs ∈ l := by assumption) (hvault : Area.vault ∈ l := by assumption)
    (hfree : Area.free ∈ l := by assumption) (hout : Area.out ∈ l := by assumption) : s₀.Within l t := by
  have k : ∀ rest, s₀.Within l (s.modVault (fun v => { v with reqs := rest })) := fun _ =>
    State.modVault_within h _ fun _ => .of_eq rfl rfl
  unfold State.serveReq at ht; dsimp only at ht
  split at ht
  · cases ht
  · split at ht
    · injection ht with ht; subst ht; exact State.doeAnswer_within (k _) _ _
    · injection ht with ht; subst ht; exact State.doeAnswer_within (State.drew_within (k _) _) _ _
    · split at ht
      · injection ht with ht; subst ht; exact State.doeAnswer_within (k _) _ _
      · split at ht
        · injection ht with ht; subst ht; exact State.quote_within (k _) _ _ _
        · cases ht

theorem State.serveReqs_within {l : List Area} {s₀ s : State} (h : s₀.Within l s) (n)
    (hregs : Area.regs ∈ l := by assumption) (hvault : Area.vault ∈ l := by assumption)
    (hfree : Area.free ∈ l := by assumption) (hout : Area.out ∈ l := by assumption) : s₀.Within l (State.serveReqs n s) :=
    by
  induction n generalizing s with
  | zero => exact h
  | succ n ih =>
    unfold State.serveReqs; split
    · rename_i t ht; exact ih (State.serveReq_within h _ ht)
    · exact h

theorem State.signer_within {l : List Area} {s₀ s : State} (h : s₀.Within l s) (hregs : Area.regs ∈ l := by assumption)
    (hvault : Area.vault ∈ l := by assumption) (hfree : Area.free ∈ l := by assumption)
    (hout : Area.out ∈ l := by assumption) : s₀.Within l (State.signer s) := by
  unfold State.signer
  (try dsimp only)
  repeat' (first
    | (with_reducible first
      | exact h | assumption | apply State.serveReqs_within)
    | (intro; intros))

theorem State.doeRequest_within {l : List Area} {s₀ s : State} (h : s₀.Within l s) (p r)
    (hregs : Area.regs ∈ l := by assumption) (hvault : Area.vault ∈ l := by assumption)
    (hfree : Area.free ∈ l := by assumption) (hout : Area.out ∈ l := by assumption) : s₀.Within l (State.doeRequest s p r)
    := by
  unfold State.doeRequest
  (try dsimp only)
  repeat' (first
    | (with_reducible first
      | exact h | assumption | apply State.WithinMk.of | exact Or.inl rfl | exact Or.inr (by assumption)
      | exact Or.inr ⟨by assumption, id⟩ | apply State.within_ite | apply State.modVault_within
      | apply State.signer_within)
    | (simp only [State.within_mk]; (try dsimp only)) | split | (dsimp only; split) | (intro; intros)
    | (first | exact .of_eq rfl rfl | exact Vault.lose_onward _ _ | exact Vault.raise_onward _ _ _ | exact Vault.turnOver_onward _ | exact Vault.useLeaf_onward _ | exact Vault.storeKey_onward _ _ | exact Vault.stored_onward _ _ _))

theorem execGetStatus_within {l : List Area} {s₀ s : State} (h : s₀.Within l s) (port) (t)
    (ht : execGetStatus port s = .next t) (hregs : Area.regs ∈ l := by assumption)
    (hvault : Area.vault ∈ l := by assumption) (hfree : Area.free ∈ l := by assumption)
    (hout : Area.out ∈ l := by assumption) : s₀.Within l t := by
  unfold execGetStatus at ht
  (try dsimp only at ht)
  injection ht with ht
  subst ht
  repeat' (with_reducible first
      | exact h | assumption | apply State.doeRequest_within)

theorem execGetCert_within {l : List Area} {s₀ s : State} (h : s₀.Within l s) (port) (t)
    (ht : execGetCert port s = .next t) (hregs : Area.regs ∈ l := by assumption)
    (hvault : Area.vault ∈ l := by assumption) (hfree : Area.free ∈ l := by assumption)
    (hout : Area.out ∈ l := by assumption) : s₀.Within l t := by
  unfold execGetCert at ht
  (try dsimp only at ht)
  injection ht with ht
  subst ht
  repeat' (with_reducible first
      | exact h | assumption | apply State.doeRequest_within)

theorem execGetQuote_within {l : List Area} {s₀ s : State} (h : s₀.Within l s) (port nonce mask) (t)
    (ht : execGetQuote port nonce mask s = .next t) (hregs : Area.regs ∈ l := by assumption)
    (hvault : Area.vault ∈ l := by assumption) (hfree : Area.free ∈ l := by assumption)
    (hout : Area.out ∈ l := by assumption) : s₀.Within l t := by
  unfold execGetQuote at ht
  (try dsimp only at ht)
  injection ht with ht
  subst ht
  repeat' (with_reducible first
      | exact h | assumption | apply State.doeRequest_within)

theorem execDoeUnsupported_within {l : List Area} {s₀ s : State} (h : s₀.Within l s) (q) (t)
    (ht : execDoeUnsupported q s = .next t) (hout : Area.out ∈ l := by assumption) : s₀.Within l t := by
  unfold execDoeUnsupported at ht
  (try dsimp only at ht)
  injection ht with ht
  subst ht
  repeat' (first
    | (with_reducible first
      | exact h | assumption | apply State.within_ite | apply State.send_within)
    | split | (dsimp only; split))

theorem execMinIntervalExpire_within {l : List Area} {s₀ s : State} (h : s₀.Within l s) (t)
    (ht : execMinIntervalExpire s = .next t) (hregs : Area.regs ∈ l := by assumption)
    (hvault : Area.vault ∈ l := by assumption) (hfree : Area.free ∈ l := by assumption)
    (hout : Area.out ∈ l := by assumption) : s₀.Within l t := by
  unfold execMinIntervalExpire at ht
  (try dsimp only at ht)
  injection ht with ht
  subst ht
  repeat' (first
    | (with_reducible first
      | exact h | assumption | apply State.WithinMk.of | exact Or.inl rfl | exact Or.inr (by assumption)
      | exact Or.inr ⟨by assumption, id⟩ | apply State.within_ite | apply State.modVault_within
      | apply State.signer_within)
    | (simp only [State.within_mk]; (try dsimp only)) | split | (dsimp only; split) | (intro; intros)
    | (first | exact .of_eq rfl rfl | exact Vault.lose_onward _ _ | exact Vault.raise_onward _ _ _ | exact Vault.turnOver_onward _ | exact Vault.useLeaf_onward _ | exact Vault.storeKey_onward _ _ | exact Vault.stored_onward _ _ _))

theorem State.modVaultAt_within {l : List Area} {s₀ s : State} (h : s₀.Within l s) (f) (hf : s.vault.Onward (f s.vault))
    (hv : Area.vault ∈ l := by assumption) : s₀.Within l (State.modVault s f) := by
  unfold State.modVault
  rw [State.within_mk]
  apply State.WithinMk.of h <;> first | exact Or.inl rfl | exact Or.inr ⟨hv, hf⟩

theorem execRolloverKeyReady_within {l : List Area} {s₀ s : State} (h : s₀.Within l s) (t)
    (ht : execRolloverKeyReady s = .next t) (hregs : Area.regs ∈ l := by assumption)
    (hvault : Area.vault ∈ l := by assumption) (hfree : Area.free ∈ l := by assumption)
    (hout : Area.out ∈ l := by assumption) : s₀.Within l t := by
  unfold execRolloverKeyReady at ht
  injection ht with ht; subst ht
  split
  · exact h
  split
  split
  · rename_i n; exact State.showKeys_within (State.modVaultAt_within h Vault.certify (Vault.certify_onward s.vault n))
  · exact h
  · exact State.signer_within (State.keysMoved_within (State.modVault_within (State.setReg_within h _ _ _) (fun v => v.storeKey _)
      fun v => Vault.storeKey_onward v _))

theorem State.reloadImage_within {l : List Area} {s₀ s : State} (h : s₀.Within l s) (die proc)
    (hhelm : Area.helm ∈ l := by assumption) : s₀.Within l (State.reloadImage s die proc) := by
  unfold State.reloadImage
  (try dsimp only)
  repeat' (first
    | (with_reducible first
      | exact h | assumption | apply State.WithinMk.of | exact Or.inl rfl | exact Or.inr (by assumption)
      | exact Or.inr ⟨by assumption, id⟩)
    | (simp only [State.within_mk]; (try dsimp only)))

theorem execHelmProcessorRunning_within {l : List Area} {s₀ s : State} (h : s₀.Within l s) (die proc) (t)
    (ht : execHelmProcessorRunning die proc s = .next t) (hregs : Area.regs ∈ l := by assumption)
    (hhelm : Area.helm ∈ l := by assumption) (hvault : Area.vault ∈ l := by assumption)
    (hfree : Area.free ∈ l := by assumption) (hout : Area.out ∈ l := by assumption) : s₀.Within l t := by
  unfold execHelmProcessorRunning at ht
  (try dsimp only at ht)
  injection ht with ht
  subst ht
  repeat' (first
    | (with_reducible first
      | exact h | assumption | apply State.within_ite | apply State.reloadImage_within | apply State.setReg_within
      | apply State.keysSettle_within | apply State.signer_within)
    | split | (dsimp only; split))

theorem State.vaultBegin_within {l : List Area} {s₀ s : State} (h : s₀.Within l s) (j)
    (hregs : Area.regs ∈ l := by assumption) (hvault : Area.vault ∈ l := by assumption) : s₀.Within l
    (State.vaultBegin s j) := by
  unfold State.vaultBegin
  (try dsimp only)
  repeat' (first
    | (with_reducible first
      | exact h | assumption | apply State.WithinMk.of | exact Or.inl rfl | exact Or.inr (by assumption)
      | exact Or.inr ⟨by assumption, id⟩ | apply State.modVault_within | apply State.setReg_within)
    | (simp only [State.within_mk]; (try dsimp only)) | (intro; intros)
    | (first | exact .of_eq rfl rfl | exact Vault.lose_onward _ _ | exact Vault.raise_onward _ _ _ | exact Vault.turnOver_onward _ | exact Vault.useLeaf_onward _ | exact Vault.storeKey_onward _ _ | exact Vault.stored_onward _ _ _))

theorem State.vaultEnd_within {l : List Area} {s₀ s : State} (h : s₀.Within l s) (result)
    (hregs : Area.regs ∈ l := by assumption) (hhelm : Area.helm ∈ l := by assumption)
    (hvault : Area.vault ∈ l := by assumption) : s₀.Within l (State.vaultEnd s result) := by
  unfold State.vaultEnd
  (try dsimp only)
  repeat' (first
    | (with_reducible first
      | exact h | assumption | apply State.WithinMk.of | exact Or.inl rfl | exact Or.inr (by assumption)
      | exact Or.inr ⟨by assumption, id⟩ | apply State.modVault_within | apply State.setReg_within
      | apply State.raise_within)
    | (simp only [State.within_mk]; (try dsimp only)) | (intro; intros)
    | (first | exact .of_eq rfl rfl | exact Vault.lose_onward _ _ | exact Vault.raise_onward _ _ _ | exact Vault.turnOver_onward _ | exact Vault.useLeaf_onward _ | exact Vault.storeKey_onward _ _ | exact Vault.stored_onward _ _ _))

theorem State.vaultRefuse_within {l : List Area} {s₀ s : State} (h : s₀.Within l s) (result)
    (hregs : Area.regs ∈ l := by assumption) : s₀.Within l (State.vaultRefuse s result) := by
  unfold State.vaultRefuse
  (try dsimp only)
  repeat' (with_reducible first
      | exact h | assumption | apply State.setReg_within)

theorem execKeyInstall_within {l : List Area} {s₀ s : State} (h : s₀.Within l s) (src addr target) (t)
    (ht : execKeyInstall src addr target s = .next t) (hregs : Area.regs ∈ l := by assumption)
    (hhbmc : Area.hbmc ∈ l := by assumption) (hports : Area.ports ∈ l := by assumption)
    (hhelm : Area.helm ∈ l := by assumption) (hvault : Area.vault ∈ l := by assumption)
    (hfree : Area.free ∈ l := by assumption) (hout : Area.out ∈ l := by assumption) : s₀.Within l t := by
  unfold execKeyInstall at ht
  (try dsimp only at ht)
  injection ht with ht
  subst ht
  repeat' (first
    | (with_reducible first
      | exact h | assumption | apply State.within_ite | apply State.within_ite_fst | apply State.writeAs_within
      | apply State.setReg_within | apply State.vaultRefuse_within | apply State.vaultBegin_within
      | apply State.hbmTake_within)
    | split | (dsimp only; split) | (intro; intros)
    | (dsimp only))

theorem execKeyRevoke_within {l : List Area} {s₀ s : State} (h : s₀.Within l s) (src target) (t)
    (ht : execKeyRevoke src target s = .next t) (hregs : Area.regs ∈ l := by assumption)
    (hports : Area.ports ∈ l := by assumption) (hvault : Area.vault ∈ l := by assumption)
    (hout : Area.out ∈ l := by assumption) : s₀.Within l t := by
  unfold execKeyRevoke at ht
  (try dsimp only at ht)
  injection ht with ht
  subst ht
  repeat' (first
    | (with_reducible first
      | exact h | assumption | apply State.within_ite | apply State.writeAs_within | apply State.setReg_within
      | apply State.vaultRefuse_within | apply State.vaultBegin_within)
    | split | (dsimp only; split) | (intro; intros))

theorem State.keyStored_within {l : List Area} {s₀ s : State} (h : s₀.Within l s) (b j)
    (hregs : Area.regs ∈ l := by assumption) (hhelm : Area.helm ∈ l := by assumption)
    (hvault : Area.vault ∈ l := by assumption) : s₀.Within l (State.keyStored s b j) := by
  unfold State.keyStored; split
  · exact State.vaultEnd_within (State.modVault_within h _ fun v => Vault.stored_onward v _ j) _
  · exact State.vaultEnd_within h _

theorem execKeyWriteDone_within {l : List Area} {s₀ s : State} (h : s₀.Within l s) (ok) (t)
    (ht : execKeyWriteDone ok s = .next t) (hregs : Area.regs ∈ l := by assumption)
    (hhbmc : Area.hbmc ∈ l := by assumption) (hhelm : Area.helm ∈ l := by assumption)
    (hvault : Area.vault ∈ l := by assumption) (hfree : Area.free ∈ l := by assumption) : s₀.Within l t := by
  unfold execKeyWriteDone at ht
  (try dsimp only at ht)
  injection ht with ht
  subst ht
  repeat' (first
    | (with_reducible first
      | exact h | assumption | apply State.within_ite | apply State.within_ite_fst | apply State.hbmTake_within
      | apply State.vaultEnd_within | apply State.keyStored_within)
    | split | (dsimp only; split) | (intro; intros)
    | (dsimp only))

theorem execFirmwareWrite_within {l : List Area} {s₀ s : State} (h : s₀.Within l s) (src addr len) (t)
    (ht : execFirmwareWrite src addr len s = .next t) (hregs : Area.regs ∈ l := by assumption)
    (hhbmc : Area.hbmc ∈ l := by assumption) (hports : Area.ports ∈ l := by assumption)
    (hhelm : Area.helm ∈ l := by assumption) (hvault : Area.vault ∈ l := by assumption)
    (hfree : Area.free ∈ l := by assumption) (hout : Area.out ∈ l := by assumption) : s₀.Within l t := by
  unfold execFirmwareWrite at ht
  (try dsimp only at ht)
  injection ht with ht
  subst ht
  repeat' (first
    | (with_reducible first
      | exact h | assumption | apply State.within_ite | apply State.within_ite_fst | apply State.writeAs_within
      | apply State.setReg_within | apply State.vaultRefuse_within | apply State.vaultBegin_within
      | apply State.hbmTake_within)
    | split | (dsimp only; split) | (intro; intros)
    | (dsimp only))

theorem State.setFwSlot_within {l : List Area} {s₀ s : State} (h : s₀.Within l s) (f)
    (hvault : Area.vault ∈ l := by assumption) : s₀.Within l (State.setFwSlot s f) := by
  unfold State.setFwSlot
  (try dsimp only)
  repeat' (first
    | (with_reducible first
      | exact h | assumption | apply State.WithinMk.of | exact Or.inl rfl | exact Or.inr (by assumption)
      | exact Or.inr ⟨by assumption, id⟩ | apply State.within_ite | apply State.modVault_within)
    | (simp only [State.within_mk]; (try dsimp only)) | split | (dsimp only; split) | (intro; intros)
    | (first | exact .of_eq rfl rfl | exact Vault.lose_onward _ _ | exact Vault.raise_onward _ _ _ | exact Vault.turnOver_onward _ | exact Vault.useLeaf_onward _ | exact Vault.storeKey_onward _ _ | exact Vault.stored_onward _ _ _))

theorem State.imageStored_within {l : List Area} {s₀ s : State} (h : s₀.Within l s) (ok img)
    (hregs : Area.regs ∈ l := by assumption) (hhelm : Area.helm ∈ l := by assumption)
    (hvault : Area.vault ∈ l := by assumption) : s₀.Within l (State.imageStored s ok img) := by
  unfold State.imageStored
  (try dsimp only)
  repeat' (first
    | (with_reducible first
      | exact h | assumption | apply State.within_ite | apply State.setFwSlot_within | apply State.vaultEnd_within)
    | split | (dsimp only; split))

theorem execFirmwareWriteDone_within {l : List Area} {s₀ s : State} (h : s₀.Within l s) (ok) (t)
    (ht : execFirmwareWriteDone ok s = .next t) (hregs : Area.regs ∈ l := by assumption)
    (hhbmc : Area.hbmc ∈ l := by assumption) (hhelm : Area.helm ∈ l := by assumption)
    (hvault : Area.vault ∈ l := by assumption) (hfree : Area.free ∈ l := by assumption) : s₀.Within l t := by
  unfold execFirmwareWriteDone at ht
  (try dsimp only at ht)
  injection ht with ht
  subst ht
  repeat' (first
    | (with_reducible first
      | exact h | assumption | apply State.within_ite | apply State.within_ite_fst | apply State.imageStored_within
      | apply State.hbmTake_within | apply State.vaultEnd_within)
    | split | (dsimp only; split)
    | (dsimp only))

theorem State.settleFailed_within {l : List Area} {s₀ s : State} (h : s₀.Within l s) (l')
    (hregs : Area.regs ∈ l := by assumption) (hnet : Area.net ∈ l := by assumption)
    (hhbmc : Area.hbmc ∈ l := by assumption) (hxfers : Area.xfers ∈ l := by assumption)
    (hctxs : Area.ctxs ∈ l := by assumption) (hports : Area.ports ∈ l := by assumption)
    (hhelm : Area.helm ∈ l := by assumption) (hfree : Area.free ∈ l := by assumption)
    (hout : Area.out ∈ l := by assumption) : s₀.Within l (State.settleFailed s l') := by
  unfold State.settleFailed
  (try dsimp only)
  repeat' (first
    | (with_reducible first
      | exact h | assumption | apply State.within_foldl | apply State.within_foldl_fst | apply State.settle_within)
    | (intro; intros)
    | (dsimp only [id]))

theorem State.cutHost_within {l : List Area} {s₀ s : State} (h : s₀.Within l s) (p)
    (hregs : Area.regs ∈ l := by assumption) (hnet : Area.net ∈ l := by assumption)
    (hhbmc : Area.hbmc ∈ l := by assumption) (hxfers : Area.xfers ∈ l := by assumption)
    (hctxs : Area.ctxs ∈ l := by assumption) (hports : Area.ports ∈ l := by assumption)
    (hhelm : Area.helm ∈ l := by assumption) (hfree : Area.free ∈ l := by assumption)
    (hout : Area.out ∈ l := by assumption) : s₀.Within l (State.cutHost s p) := by
  unfold State.cutHost
  (try dsimp only)
  repeat' (first
    | (with_reducible first
      | exact h | assumption | apply State.WithinMk.of | exact Or.inl rfl | exact Or.inr (by assumption)
      | exact Or.inr ⟨by assumption, id⟩ | apply State.within_foldl | apply State.within_foldl_fst
      | apply State.modCtx_within | apply State.cqCut_within | apply State.msgsCut_within | apply State.portCut_within
      | apply State.settleFailed_within)
    | (simp only [State.within_mk]; (try dsimp only)) | (intro; intros))

theorem State.askAnew_within {l : List Area} {s₀ s : State} (h : s₀.Within l s) (which)
    (hxfers : Area.xfers ∈ l := by assumption) : s₀.Within l (State.askAnew s which) := by
  unfold State.askAnew
  (try dsimp only)
  repeat' (first
    | (with_reducible first
      | exact h | assumption | apply State.WithinMk.of | exact Or.inl rfl | exact Or.inr (by assumption)
      | exact Or.inr ⟨by assumption, id⟩)
    | (simp only [State.within_mk]; (try dsimp only)) | split | (dsimp only; split) | (intro; intros))

theorem State.dropAts_within {l : List Area} {s₀ s : State} (h : s₀.Within l s) (p)
    (hregs : Area.regs ∈ l := by assumption) (hxfers : Area.xfers ∈ l := by assumption)
    (hports : Area.ports ∈ l := by assumption) (hvault : Area.vault ∈ l := by assumption)
    (hfree : Area.free ∈ l := by assumption) (hout : Area.out ∈ l := by assumption) : s₀.Within l (State.dropAts s p) :=
    by
  unfold State.dropAts
  exact State.signer_within (State.modVault_within (State.askAnew_within (State.modPort_within h _ _) _) _ fun _ => .of_eq rfl rfl)

theorem State.pauseLink_within {l : List Area} {s₀ s : State} (h : s₀.Within l s) (x)
    (hregs : Area.regs ∈ l := by assumption) (hcores : Area.cores ∈ l := by assumption)
    (hxfers : Area.xfers ∈ l := by assumption) (hctxs : Area.ctxs ∈ l := by assumption) : s₀.Within l
    (State.pauseLink s x) := by
  unfold State.pauseLink
  (try dsimp only)
  repeat' (with_reducible first
      | exact h | assumption | apply State.setReg_within | apply State.pauseCtx_within)

theorem execLinkLoss_within {l : List Area} {s₀ s : State} (h : s₀.Within l s) (port ev) (t)
    (ht : execLinkLoss port ev s = .next t) (hregs : Area.regs ∈ l := by assumption)
    (hcores : Area.cores ∈ l := by assumption) (hnet : Area.net ∈ l := by assumption)
    (hhbmc : Area.hbmc ∈ l := by assumption) (hxfers : Area.xfers ∈ l := by assumption)
    (hctxs : Area.ctxs ∈ l := by assumption) (hports : Area.ports ∈ l := by assumption)
    (hhelm : Area.helm ∈ l := by assumption) (hvault : Area.vault ∈ l := by assumption)
    (hfree : Area.free ∈ l := by assumption) (hout : Area.out ∈ l := by assumption) : s₀.Within l t := by
  unfold execLinkLoss at ht
  (try dsimp only at ht)
  injection ht with ht
  subst ht
  repeat' (first
    | (with_reducible first
      | exact h | assumption | apply State.WithinMk.of | exact Or.inl rfl | exact Or.inr (by assumption)
      | exact Or.inr ⟨by assumption, id⟩ | apply State.within_ite | apply State.within_foldl
      | apply State.within_foldl_fst | apply State.setReg_within | apply State.raise_within | apply State.bump_within
      | apply State.modPort_within | apply State.pauseLink_within | apply State.cutHost_within
      | apply State.dropAts_within)
    | (simp only [State.within_mk]; (try dsimp only)) | split | (dsimp only; split) | (intro; intros))

theorem State.atsOff_within {l : List Area} {s₀ s : State} (h : s₀.Within l s) (p)
    (hxfers : Area.xfers ∈ l := by assumption) (hports : Area.ports ∈ l := by assumption) : s₀.Within l (State.atsOff s p)
    := by
  unfold State.atsOff
  (try dsimp only)
  repeat' (first
    | (with_reducible first
      | exact h | assumption | apply State.WithinMk.of | exact Or.inl rfl | exact Or.inr (by assumption)
      | exact Or.inr ⟨by assumption, id⟩ | apply State.modPort_within)
    | (simp only [State.within_mk]; (try dsimp only)) | split | (dsimp only; split) | (intro; intros))

theorem State.pbaFlush_within {l : List Area} {s₀ s : State} (h : s₀.Within l s) (p)
    (hports : Area.ports ∈ l := by assumption) (hout : Area.out ∈ l := by assumption) : s₀.Within l (State.pbaFlush s p)
    := by
  unfold State.pbaFlush
  (try dsimp only)
  repeat' (first
    | (with_reducible first
      | exact h | assumption | apply State.WithinMk.of | exact Or.inl rfl | exact Or.inr (by assumption)
      | exact Or.inr ⟨by assumption, id⟩ | apply State.within_ite | apply State.within_ite_fst
      | apply State.within_foldl | apply State.within_foldl_fst | apply State.portMsix_within
      | apply State.modPort_within)
    | (simp only [State.within_mk]; (try dsimp only)) | split | (dsimp only; split) | (intro; intros)
    | (dsimp only))

theorem State.reissuePort_within {l : List Area} {s₀ s : State} (h : s₀.Within l s) (p)
    (hregs : Area.regs ∈ l := by assumption) (hhbm : Area.hbm ∈ l := by assumption)
    (hhbmc : Area.hbmc ∈ l := by assumption) (hctxs : Area.ctxs ∈ l := by assumption)
    (hports : Area.ports ∈ l := by assumption) (hhelm : Area.helm ∈ l := by assumption)
    (hfree : Area.free ∈ l := by assumption) (hout : Area.out ∈ l := by assumption) : s₀.Within l (State.reissuePort s p)
    := by
  unfold State.reissuePort
  (try dsimp only)
  repeat' (first
    | (with_reducible first
      | exact h | assumption | apply State.within_foldl | apply State.within_foldl_fst | apply State.cqGo_within
      | apply State.releaseMsgs_within | apply State.retirePasses_within)
    | (intro; intros))

theorem execLinkUp_within {l : List Area} {s₀ s : State} (h : s₀.Within l s) (port) (t) (ht : execLinkUp port s = .next t)
    (hregs : Area.regs ∈ l := by assumption) (hhbm : Area.hbm ∈ l := by assumption)
    (hhbmc : Area.hbmc ∈ l := by assumption) (hxfers : Area.xfers ∈ l := by assumption)
    (hctxs : Area.ctxs ∈ l := by assumption) (hports : Area.ports ∈ l := by assumption)
    (hhelm : Area.helm ∈ l := by assumption) (hfree : Area.free ∈ l := by assumption)
    (hout : Area.out ∈ l := by assumption) : s₀.Within l t := by
  unfold execLinkUp at ht
  (try dsimp only at ht)
  injection ht with ht
  subst ht
  repeat' (first
    | (with_reducible first
      | exact h | assumption | apply State.WithinMk.of | exact Or.inl rfl | exact Or.inr (by assumption)
      | exact Or.inr ⟨by assumption, id⟩ | apply State.within_ite | apply State.raise_within
      | apply State.setReg_within | apply State.modPort_within | apply State.atsOff_within
      | apply State.pbaFlush_within | apply State.reissuePort_within | apply State.priAll_within)
    | (simp only [State.within_mk]; (try dsimp only)) | split | (dsimp only; split) | (intro; intros))

theorem State.killPort_within {l : List Area} {s₀ s : State} (h : s₀.Within l s) (p)
    (hregs : Area.regs ∈ l := by assumption) (hcores : Area.cores ∈ l := by assumption)
    (hnet : Area.net ∈ l := by assumption) (hhbm : Area.hbm ∈ l := by assumption) (hhbmc : Area.hbmc ∈ l := by assumption)
    (hxfers : Area.xfers ∈ l := by assumption) (hctxs : Area.ctxs ∈ l := by assumption)
    (hports : Area.ports ∈ l := by assumption) (hhelm : Area.helm ∈ l := by assumption)
    (hfab : Area.fab ∈ l := by assumption) (hcfg : Area.cfg ∈ l := by assumption) (hfree : Area.free ∈ l := by assumption)
    (hout : Area.out ∈ l := by assumption) : s₀.Within l (State.killPort s p) := by
  unfold State.killPort
  (try dsimp only)
  repeat' (first
    | (with_reducible first
      | exact h | assumption | apply State.within_foldl | apply State.within_foldl_fst | apply State.killCtx_within
      | apply State.dropLease_within)
    | (intro; intros))

theorem execLeaseTimeout_within {l : List Area} {s₀ s : State} (h : s₀.Within l s) (port) (t)
    (ht : execLeaseTimeout port s = .next t) (hregs : Area.regs ∈ l := by assumption)
    (hcores : Area.cores ∈ l := by assumption) (hnet : Area.net ∈ l := by assumption)
    (hhbm : Area.hbm ∈ l := by assumption) (hhbmc : Area.hbmc ∈ l := by assumption)
    (hxfers : Area.xfers ∈ l := by assumption) (hctxs : Area.ctxs ∈ l := by assumption)
    (hports : Area.ports ∈ l := by assumption) (hhelm : Area.helm ∈ l := by assumption)
    (hfab : Area.fab ∈ l := by assumption) (hcfg : Area.cfg ∈ l := by assumption) (hfree : Area.free ∈ l := by assumption)
    (hout : Area.out ∈ l := by assumption) : s₀.Within l t := by
  unfold execLeaseTimeout at ht
  (try dsimp only at ht)
  injection ht with ht
  subst ht
  repeat' (first
    | (with_reducible first
      | exact h | assumption | apply State.within_ite | apply State.killPort_within)
    | split | (dsimp only; split))

theorem execPfFlr_within {l : List Area} {s₀ s : State} (h : s₀.Within l s) (port) (t) (ht : execPfFlr port s = .next t)
    (hregs : Area.regs ∈ l := by assumption) (hcores : Area.cores ∈ l := by assumption)
    (hnet : Area.net ∈ l := by assumption) (hhbm : Area.hbm ∈ l := by assumption) (hhbmc : Area.hbmc ∈ l := by assumption)
    (hxfers : Area.xfers ∈ l := by assumption) (hctxs : Area.ctxs ∈ l := by assumption)
    (hports : Area.ports ∈ l := by assumption) (hhelm : Area.helm ∈ l := by assumption)
    (hfab : Area.fab ∈ l := by assumption) (hcfg : Area.cfg ∈ l := by assumption)
    (hvault : Area.vault ∈ l := by assumption) (hfree : Area.free ∈ l := by assumption)
    (hout : Area.out ∈ l := by assumption) : s₀.Within l t := by
  unfold execPfFlr at ht
  (try dsimp only at ht)
  injection ht with ht
  subst ht
  repeat' (first
    | (with_reducible first
      | exact h | assumption | apply State.WithinMk.of | exact Or.inl rfl | exact Or.inr (by assumption)
      | exact Or.inr ⟨by assumption, id⟩ | apply State.within_ite | apply State.killPort_within
      | apply State.dropAts_within | apply State.modPort_within)
    | (simp only [State.within_mk]; (try dsimp only)) | split | (dsimp only; split) | (intro; intros))

theorem State.resetVf_within {l : List Area} {s₀ s : State} (h : s₀.Within l s) (p vf)
    (hxfers : Area.xfers ∈ l := by assumption) (hports : Area.ports ∈ l := by assumption)
    (hout : Area.out ∈ l := by assumption) : s₀.Within l (State.resetVf s p vf) := by
  unfold State.resetVf
  (try dsimp only)
  repeat' (first
    | (with_reducible first
      | exact h | assumption | apply State.WithinMk.of | exact Or.inl rfl | exact Or.inr (by assumption)
      | exact Or.inr ⟨by assumption, id⟩ | apply State.askAnew_within | apply State.modPort_within
      | apply State.msix_within)
    | (simp only [State.within_mk]; (try dsimp only)) | (intro; intros)
    | (dsimp only))

theorem execVfFlr_within {l : List Area} {s₀ s : State} (h : s₀.Within l s) (port vf) (t)
    (ht : execVfFlr port vf s = .next t) (hregs : Area.regs ∈ l := by assumption)
    (hcores : Area.cores ∈ l := by assumption) (hnet : Area.net ∈ l := by assumption)
    (hhbm : Area.hbm ∈ l := by assumption) (hhbmc : Area.hbmc ∈ l := by assumption)
    (hxfers : Area.xfers ∈ l := by assumption) (hctxs : Area.ctxs ∈ l := by assumption)
    (hports : Area.ports ∈ l := by assumption) (hhelm : Area.helm ∈ l := by assumption)
    (hfab : Area.fab ∈ l := by assumption) (hcfg : Area.cfg ∈ l := by assumption) (hfree : Area.free ∈ l := by assumption)
    (hout : Area.out ∈ l := by assumption) : s₀.Within l t := by
  unfold execVfFlr at ht
  (try dsimp only at ht)
  injection ht with ht
  subst ht
  repeat' (first
    | (with_reducible first
      | exact h | assumption | apply State.within_ite | apply State.resetVf_within | apply State.killCtx_within
      | apply State.priAll_within)
    | split | (dsimp only; split) | (intro; intros))

theorem State.vfCtxWritten_within {l : List Area} {s₀ s : State} (h : s₀.Within l s) (p i v)
    (hregs : Area.regs ∈ l := by assumption) (hctxs : Area.ctxs ∈ l := by assumption)
    (hports : Area.ports ∈ l := by assumption) (hout : Area.out ∈ l := by assumption) : s₀.Within l
    (State.vfCtxWritten s p i v) := by
  unfold State.vfCtxWritten
  (try dsimp only)
  repeat' (first
    | (with_reducible first
      | exact h | assumption | apply State.within_ite | apply State.violation_within | apply State.setReg_within
      | apply State.releaseMsgs_within)
    | split | (dsimp only; split))

theorem execPciVfCtxWrite_within {l : List Area} {s₀ s : State} (h : s₀.Within l s) (port i value) (t)
    (ht : execPciVfCtxWrite port i value s = .next t) (hregs : Area.regs ∈ l := by assumption)
    (hctxs : Area.ctxs ∈ l := by assumption) (hports : Area.ports ∈ l := by assumption)
    (hout : Area.out ∈ l := by assumption) : s₀.Within l t := by
  unfold execPciVfCtxWrite at ht
  (try dsimp only at ht)
  injection ht with ht
  subst ht
  repeat' (first
    | (with_reducible first
      | exact h | assumption | apply State.writeAs_within | apply State.vfCtxWritten_within)
    | (intro; intros))

theorem execVfEnable_within {l : List Area} {s₀ s : State} (h : s₀.Within l s) (port en num) (t)
    (ht : execVfEnable port en num s = .next t) (hregs : Area.regs ∈ l := by assumption)
    (hctxs : Area.ctxs ∈ l := by assumption) (hports : Area.ports ∈ l := by assumption)
    (hout : Area.out ∈ l := by assumption) : s₀.Within l t := by
  unfold execVfEnable at ht
  (try dsimp only at ht)
  injection ht with ht
  subst ht
  repeat' (first
    | (with_reducible first
      | exact h | assumption | apply State.WithinMk.of | exact Or.inl rfl | exact Or.inr (by assumption)
      | exact Or.inr ⟨by assumption, id⟩ | apply State.within_ite | apply State.within_foldl
      | apply State.within_foldl_fst | apply State.modPort_within | apply State.releaseMsgs_within
      | apply State.pbaFlush_within)
    | (simp only [State.within_mk]; (try dsimp only)) | split | (dsimp only; split) | (intro; intros))

theorem State.bar4Free_within {l : List Area} {s₀ s : State} (h : s₀.Within l s) (src n)
    (hfree : Area.free ∈ l := by assumption) (hout : Area.out ∈ l := by assumption) : s₀.Within l (State.bar4Free s src n)
    := by
  unfold State.bar4Free
  (try dsimp only)
  repeat' (with_reducible first
      | exact h | assumption | apply State.drew_within | apply State.send_within)

theorem State.bar4Read_within {l : List Area} {s₀ s : State} (h : s₀.Within l s) (src a n ecc d)
    (hregs : Area.regs ∈ l := by assumption) (hcores : Area.cores ∈ l := by assumption)
    (hnet : Area.net ∈ l := by assumption) (hhbmc : Area.hbmc ∈ l := by assumption)
    (hhelm : Area.helm ∈ l := by assumption) (hvault : Area.vault ∈ l := by assumption)
    (hstart : Area.start ∈ l := by assumption) (hfree : Area.free ∈ l := by assumption)
    (hout : Area.out ∈ l := by assumption) : s₀.Within l (State.bar4Read s src a n ecc d) := by
  unfold State.bar4Read
  (try dsimp only)
  repeat' (first
    | (with_reducible first
      | exact h | assumption | apply State.within_ite | apply State.within_ite_fst | apply State.checkAll_within
      | apply State.send_within | apply State.bar4Free_within | apply State.hbmRead_within
      | apply State.bramSeen_within)
    | split | (dsimp only; split) | (intro; intros)
    | (dsimp only))

theorem execBar4Read_within {l : List Area} {s₀ s : State} (h : s₀.Within l s) (port off len ecc) (t)
    (ht : execBar4Read port off len ecc s = .next t) (hregs : Area.regs ∈ l := by assumption)
    (hcores : Area.cores ∈ l := by assumption) (hnet : Area.net ∈ l := by assumption)
    (hhbmc : Area.hbmc ∈ l := by assumption) (hports : Area.ports ∈ l := by assumption)
    (hhelm : Area.helm ∈ l := by assumption) (hvault : Area.vault ∈ l := by assumption)
    (hstart : Area.start ∈ l := by assumption) (hfree : Area.free ∈ l := by assumption)
    (hout : Area.out ∈ l := by assumption) : s₀.Within l t := by
  unfold execBar4Read at ht
  (try dsimp only at ht)
  injection ht with ht
  subst ht
  repeat' (first
    | (with_reducible first
      | exact h | assumption | apply State.within_ite | apply State.send_within | apply State.violation_within
      | apply State.bar4Read_within | apply State.unsupported_within)
    | split | (dsimp only; split))

theorem State.bar4Rows_within {l : List Area} {s₀ s : State} (h : s₀.Within l s) (c a n p0 p1)
    (hregs : Area.regs ∈ l := by assumption) (hcores : Area.cores ∈ l := by assumption)
    (hnet : Area.net ∈ l := by assumption) (hhelm : Area.helm ∈ l := by assumption)
    (hvault : Area.vault ∈ l := by assumption) (hstart : Area.start ∈ l := by assumption) : s₀.Within l
    (State.bar4Rows s c a n p0 p1) := by
  induction p0 generalizing s c a n p1 with
  | nil =>
    unfold State.bar4Rows
    (try dsimp only)
    repeat' (first
      | (with_reducible first
        | exact h | assumption | apply State.within_ite | apply State.within_ite_fst | apply State.readRow_within)
      | split | (dsimp only; split)
      | (dsimp only))
  | cons x xs ih =>
    unfold State.bar4Rows
    (try dsimp only)
    repeat' (first
      | (with_reducible first
        | exact h | assumption | apply ih | apply State.within_ite | apply State.within_ite_fst | apply State.readRow_within)
      | split | (dsimp only; split)
      | (dsimp only))

theorem State.bar4Words_within {l : List Area} {s₀ s : State} (h : s₀.Within l s) (die o b es)
    (hregs : Area.regs ∈ l := by assumption) (hfab : Area.fab ∈ l := by assumption) : s₀.Within l
    (State.bar4Words s die o b es) := by
  unfold State.bar4Words
  (try dsimp only)
  repeat' (first
    | (with_reducible first
      | exact h | assumption | apply State.within_ite | apply State.bramMaskWords_within)
    | split | (dsimp only; split) | (intro; intros))

theorem State.bar4Write_within {l : List Area} {s₀ s : State} (h : s₀.Within l s) (a b ecc d)
    (hregs : Area.regs ∈ l := by assumption) (hcores : Area.cores ∈ l := by assumption)
    (hnet : Area.net ∈ l := by assumption) (hhbm : Area.hbm ∈ l := by assumption) (hhbmc : Area.hbmc ∈ l := by assumption)
    (hctxs : Area.ctxs ∈ l := by assumption) (hhelm : Area.helm ∈ l := by assumption)
    (hfab : Area.fab ∈ l := by assumption) (hvault : Area.vault ∈ l := by assumption)
    (hstart : Area.start ∈ l := by assumption) (hfree : Area.free ∈ l := by assumption) : s₀.Within l
    (State.bar4Write s a b ecc d) := by
  unfold State.bar4Write
  (try dsimp only)
  repeat' (first
    | (with_reducible first
      | exact h | assumption | apply State.within_ite | apply State.bar4Rows_within | apply State.modCore_within
      | apply State.homeFirst_within | apply State.hbmAccept_within | apply State.hbmWrite_within
      | apply State.bar4Words_within)
    | split | (dsimp only; split) | (intro; intros))

theorem execBar4Write_within {l : List Area} {s₀ s : State} (h : s₀.Within l s) (port off bytes ecc) (t)
    (ht : execBar4Write port off bytes ecc s = .next t) (hregs : Area.regs ∈ l := by assumption)
    (hcores : Area.cores ∈ l := by assumption) (hnet : Area.net ∈ l := by assumption)
    (hhbm : Area.hbm ∈ l := by assumption) (hhbmc : Area.hbmc ∈ l := by assumption)
    (hctxs : Area.ctxs ∈ l := by assumption) (hports : Area.ports ∈ l := by assumption)
    (hhelm : Area.helm ∈ l := by assumption) (hfab : Area.fab ∈ l := by assumption)
    (hvault : Area.vault ∈ l := by assumption) (hstart : Area.start ∈ l := by assumption)
    (hfree : Area.free ∈ l := by assumption) (hout : Area.out ∈ l := by assumption) : s₀.Within l t := by
  unfold execBar4Write at ht
  (try dsimp only at ht)
  injection ht with ht
  subst ht
  repeat' (first
    | (with_reducible first
      | exact h | assumption | apply State.within_ite | apply State.violation_within | apply State.bar4Write_within
      | apply State.unsupported_within)
    | split | (dsimp only; split))

theorem execPoisonedWrite_within {l : List Area} {s₀ s : State} (h : s₀.Within l s) (port) (t)
    (ht : execPoisonedWrite port s = .next t) (hports : Area.ports ∈ l := by assumption) : s₀.Within l t := by
  unfold execPoisonedWrite at ht
  (try dsimp only at ht)
  injection ht with ht
  subst ht
  repeat' (first
    | (with_reducible first
      | exact h | assumption | apply State.within_ite | apply State.aer_within)
    | split | (dsimp only; split))

theorem execConfigRequestNotReady_within {l : List Area} {s₀ s : State} (h : s₀.Within l s) (port) (t)
    (ht : execConfigRequestNotReady port s = .next t) (hout : Area.out ∈ l := by assumption) : s₀.Within l t := by
  unfold execConfigRequestNotReady at ht
  (try dsimp only at ht)
  injection ht with ht
  subst ht
  repeat' (first
    | (with_reducible first
      | exact h | assumption | apply State.within_ite | apply State.send_within)
    | split | (dsimp only; split))

theorem State.alertState_within {l : List Area} {s₀ s : State} (h : s₀.Within l s)
    (hmodule : Area.module ∈ l := by assumption) : s₀.Within l (State.alertState s) := by
  unfold State.alertState
  (try dsimp only)
  repeat' (first
    | (with_reducible first
      | exact h | assumption | apply State.WithinMk.of | exact Or.inl rfl | exact Or.inr (by assumption)
      | exact Or.inr ⟨by assumption, id⟩ | apply State.within_ite)
    | (simp only [State.within_mk]; (try dsimp only)) | split | (dsimp only; split))

theorem State.moduleReset_within {l : List Area} {s₀ s : State} (h : s₀.Within l s)
    (hregs : Area.regs ∈ l := by assumption) (hcores : Area.cores ∈ l := by assumption)
    (hnet : Area.net ∈ l := by assumption) (hhbm : Area.hbm ∈ l := by assumption) (hhbmc : Area.hbmc ∈ l := by assumption)
    (hxfers : Area.xfers ∈ l := by assumption) (hnextId : Area.nextId ∈ l := by assumption)
    (hctxs : Area.ctxs ∈ l := by assumption) (hports : Area.ports ∈ l := by assumption)
    (hhelm : Area.helm ∈ l := by assumption) (hpower : Area.power ∈ l := by assumption)
    (hfab : Area.fab ∈ l := by assumption) (hcfg : Area.cfg ∈ l := by assumption)
    (hvault : Area.vault ∈ l := by assumption) (hsal : Area.sal ∈ l := by assumption)
    (hmodule : Area.module ∈ l := by assumption) (hstart : Area.start ∈ l := by assumption)
    (htimer : Area.timer ∈ l := by assumption) : s₀.Within l (State.moduleReset s) := by
  refine State.alertState_within ?_
  rw [State.within_mk]
  apply State.WithinMk.of h <;> first
    | exact Or.inl rfl
    | exact Or.inr ⟨by assumption, fun _ => rfl⟩
    | exact Or.inr ⟨by assumption, id⟩
    | exact Or.inr ⟨by assumption, Vault.restart_onward _ _⟩
    | exact Or.inr (by assumption)

theorem execModuleReset_within {l : List Area} {s₀ s : State} (h : s₀.Within l s) (cause) (t)
    (ht : execModuleReset cause s = .next t) (hregs : Area.regs ∈ l := by assumption)
    (hcores : Area.cores ∈ l := by assumption) (hnet : Area.net ∈ l := by assumption)
    (hhbm : Area.hbm ∈ l := by assumption) (hhbmc : Area.hbmc ∈ l := by assumption)
    (hxfers : Area.xfers ∈ l := by assumption) (hnextId : Area.nextId ∈ l := by assumption)
    (hctxs : Area.ctxs ∈ l := by assumption) (hports : Area.ports ∈ l := by assumption)
    (hhelm : Area.helm ∈ l := by assumption) (hpower : Area.power ∈ l := by assumption)
    (hfab : Area.fab ∈ l := by assumption) (hcfg : Area.cfg ∈ l := by assumption)
    (hvault : Area.vault ∈ l := by assumption) (hsal : Area.sal ∈ l := by assumption)
    (hmodule : Area.module ∈ l := by assumption) (hstart : Area.start ∈ l := by assumption)
    (htimer : Area.timer ∈ l := by assumption) : s₀.Within l t := by
  unfold execModuleReset at ht
  (try dsimp only at ht)
  injection ht with ht
  subst ht
  repeat' (first
    | (with_reducible first
      | exact h | assumption | apply State.WithinMk.of | exact Or.inl rfl | exact Or.inr (by assumption)
      | exact Or.inr ⟨by assumption, id⟩ | apply State.within_ite | apply State.moduleReset_within
      | apply State.alertState_within)
    | (simp only [State.within_mk]; (try dsimp only)) | split | (dsimp only; split) | (intro; intros))

theorem execPkgReset_within {l : List Area} {s₀ s : State} (h : s₀.Within l s) (src value) (t)
    (ht : execPkgReset src value s = .next t) (hregs : Area.regs ∈ l := by assumption)
    (hcores : Area.cores ∈ l := by assumption) (hnet : Area.net ∈ l := by assumption)
    (hhbm : Area.hbm ∈ l := by assumption) (hhbmc : Area.hbmc ∈ l := by assumption)
    (hxfers : Area.xfers ∈ l := by assumption) (hnextId : Area.nextId ∈ l := by assumption)
    (hctxs : Area.ctxs ∈ l := by assumption) (hports : Area.ports ∈ l := by assumption)
    (hhelm : Area.helm ∈ l := by assumption) (hpower : Area.power ∈ l := by assumption)
    (hfab : Area.fab ∈ l := by assumption) (hcfg : Area.cfg ∈ l := by assumption)
    (hvault : Area.vault ∈ l := by assumption) (hsal : Area.sal ∈ l := by assumption)
    (hmodule : Area.module ∈ l := by assumption) (hstart : Area.start ∈ l := by assumption)
    (htimer : Area.timer ∈ l := by assumption) (hout : Area.out ∈ l := by assumption) : s₀.Within l t := by
  unfold execPkgReset at ht
  (try dsimp only at ht)
  injection ht with ht
  subst ht
  repeat' (first
    | (with_reducible first
      | exact h | assumption | apply State.within_ite | apply State.writeAs_within | apply State.moduleReset_within)
    | split | (dsimp only; split) | (intro; intros))

theorem State.failStart_within {l : List Area} {s₀ s : State} (h : s₀.Within l s) (cause)
    (hregs : Area.regs ∈ l := by assumption) (hmodule : Area.module ∈ l := by assumption) : s₀.Within l
    (State.failStart s cause) := by
  unfold State.failStart
  (try dsimp only)
  repeat' (with_reducible first
      | exact h | assumption | apply State.setReg_within | apply State.alertState_within)

theorem State.endOrder_within {l : List Area} {s₀ s : State} (h : s₀.Within l s) (p)
    (hregs : Area.regs ∈ l := by assumption) (hmodule : Area.module ∈ l := by assumption)
    (hstart : Area.start ∈ l := by assumption) : s₀.Within l (State.endOrder s p) := by
  unfold State.endOrder
  (try dsimp only)
  repeat' (first
    | (with_reducible first
      | exact h | assumption | apply State.WithinMk.of | exact Or.inl rfl | exact Or.inr (by assumption)
      | exact Or.inr ⟨by assumption, id⟩ | apply State.within_ite | apply State.setReg_within
      | apply State.alertState_within)
    | (simp only [State.within_mk]; (try dsimp only)) | split | (dsimp only; split))

theorem State.order1_within {l : List Area} {s₀ s : State} (h : s₀.Within l s) (hregs : Area.regs ∈ l := by assumption) :
    s₀.Within l (State.order1 s) := by
  unfold State.order1
  (try dsimp only)
  repeat' (first
    | (with_reducible first
      | exact h | assumption | apply State.within_foldl | apply State.within_foldl_fst | apply State.putBit_within)
    | (intro; intros))

theorem State.runImage_within {l : List Area} {s₀ s : State} (h : s₀.Within l s) (slot f svn)
    (hregs : Area.regs ∈ l := by assumption) (hhelm : Area.helm ∈ l := by assumption)
    (hvault : Area.vault ∈ l := by assumption) : s₀.Within l (State.runImage s slot f svn) := by
  unfold State.runImage
  (try dsimp only)
  repeat' (first
    | (with_reducible first
      | exact h | assumption | apply State.WithinMk.of | exact Or.inl rfl | exact Or.inr (by assumption)
      | exact Or.inr ⟨by assumption, id⟩ | apply State.setReg_within | apply State.modVault_within
      | apply State.extend_within)
    | (simp only [State.within_mk]; (try dsimp only)) | (intro; intros)
    | (first | exact .of_eq rfl rfl | exact Vault.lose_onward _ _ | exact Vault.raise_onward _ _ _ | exact Vault.turnOver_onward _ | exact Vault.useLeaf_onward _ | exact Vault.storeKey_onward _ _ | exact Vault.stored_onward _ _ _))

theorem State.deriveKeys_within {l : List Area} {s₀ s : State} (h : s₀.Within l s) (puf)
    (hregs : Area.regs ∈ l := by assumption) (hvault : Area.vault ∈ l := by assumption) : s₀.Within l
    (State.deriveKeys s puf) := by
  unfold State.deriveKeys
  (try dsimp only)
  repeat' (first
    | (with_reducible first
      | exact h | assumption | apply State.WithinMk.of | exact Or.inl rfl | exact Or.inr (by assumption)
      | exact Or.inr ⟨by assumption, id⟩ | apply State.within_ite | apply State.within_foldl
      | apply State.within_foldl_fst | apply State.setReg_within | apply State.modVault_within)
    | (simp only [State.within_mk]; (try dsimp only)) | split | (dsimp only; split) | (intro; intros)
    | (first | exact .of_eq rfl rfl | exact Vault.lose_onward _ _ | exact Vault.raise_onward _ _ _ | exact Vault.turnOver_onward _ | exact Vault.useLeaf_onward _ | exact Vault.storeKey_onward _ _ | exact Vault.stored_onward _ _ _))

theorem State.order2_within {l : List Area} {s₀ s : State} (h : s₀.Within l s) (puf lost)
    (hregs : Area.regs ∈ l := by assumption) (hhelm : Area.helm ∈ l := by assumption)
    (hvault : Area.vault ∈ l := by assumption) (hmodule : Area.module ∈ l := by assumption)
    (hstart : Area.start ∈ l := by assumption) : s₀.Within l (State.order2 s puf lost) := by
  unfold State.order2
  (try dsimp only)
  repeat' (first
    | (with_reducible first
      | exact h | assumption | apply State.within_ite | apply State.within_foldl | apply State.within_foldl_fst
      | apply State.modVault_within | apply State.deriveKeys_within | apply State.setReg_within
      | apply State.failStart_within | apply State.runImage_within | apply State.endOrder_within)
    | split | (dsimp only; split) | (intro; intros)
    | (first | exact .of_eq rfl rfl | exact Vault.lose_onward _ _ | exact Vault.raise_onward _ _ _ | exact Vault.turnOver_onward _ | exact Vault.useLeaf_onward _ | exact Vault.storeKey_onward _ _ | exact Vault.stored_onward _ _ _))

theorem State.order3_within {l : List Area} {s₀ s : State} (h : s₀.Within l s) (hregs : Area.regs ∈ l := by assumption)
    (hhelm : Area.helm ∈ l := by assumption) : s₀.Within l (State.order3 s) := by
  unfold State.order3
  (try dsimp only)
  repeat' (first
    | (with_reducible first
      | exact h | assumption | apply State.WithinMk.of | exact Or.inl rfl | exact Or.inr (by assumption)
      | exact Or.inr ⟨by assumption, id⟩ | apply State.within_foldl | apply State.within_foldl_fst
      | apply State.setReg_within)
    | (simp only [State.within_mk]; (try dsimp only)) | (intro; intros)
    | (dsimp only))

theorem State.unwrap_within {l : List Area} {s₀ s : State} (h : s₀.Within l s) (hregs : Area.regs ∈ l := by assumption)
    (hvault : Area.vault ∈ l := by assumption) : s₀.Within l (State.unwrap s) := by
  unfold State.unwrap
  (try dsimp only)
  repeat' (first
    | (with_reducible first
      | exact h | assumption | apply State.WithinMk.of | exact Or.inl rfl | exact Or.inr (by assumption)
      | exact Or.inr ⟨by assumption, id⟩ | apply State.within_ite | apply State.within_ite_fst
      | apply State.within_foldl | apply State.within_foldl_fst | apply State.setReg_within
      | apply State.modVault_within)
    | (simp only [State.within_mk]; (try dsimp only)) | split | (dsimp only; split) | (intro; intros)
    | (first | exact .of_eq rfl rfl | exact Vault.lose_onward _ _ | exact Vault.raise_onward _ _ _ | exact Vault.turnOver_onward _ | exact Vault.useLeaf_onward _ | exact Vault.storeKey_onward _ _ | exact Vault.stored_onward _ _ _)
    | (dsimp only))

theorem State.enforce_within {l : List Area} {s₀ s : State} (h : s₀.Within l s) (v)
    (hregs : Area.regs ∈ l := by assumption) (hvault : Area.vault ∈ l := by assumption) : s₀.Within l (State.enforce s v)
    := by
  unfold State.enforce
  (try dsimp only)
  repeat' (with_reducible first
      | exact h | assumption | apply State.setReg_within | apply State.extend_within)

theorem State.readChart_within {l : List Area} {s₀ s : State} (h : s₀.Within l s) (die)
    (hregs : Area.regs ∈ l := by assumption) (hhelm : Area.helm ∈ l := by assumption) : s₀.Within l
    (State.readChart s die) := by
  unfold State.readChart
  (try dsimp only)
  repeat' (first
    | (with_reducible first
      | exact h | assumption | apply State.WithinMk.of | exact Or.inl rfl | exact Or.inr (by assumption)
      | exact Or.inr ⟨by assumption, id⟩ | apply State.setReg_within)
    | (simp only [State.within_mk]; (try dsimp only)) | split | (dsimp only; split)
    | (dsimp only))

theorem State.order4_within {l : List Area} {s₀ s : State} (h : s₀.Within l s) (answering)
    (hregs : Area.regs ∈ l := by assumption) (hhelm : Area.helm ∈ l := by assumption)
    (hvault : Area.vault ∈ l := by assumption) (hmodule : Area.module ∈ l := by assumption)
    (hstart : Area.start ∈ l := by assumption) : s₀.Within l (State.order4 s answering) := by
  unfold State.order4
  (try dsimp only)
  repeat' (first
    | (with_reducible first
      | exact h | assumption | apply State.within_ite | apply State.within_foldl | apply State.within_foldl_fst
      | apply State.failStart_within | apply State.readChart_within | apply State.unwrap_within
      | apply State.setReg_within | apply State.keysMoved_within | apply State.enforce_within
      | apply State.endOrder_within)
    | split | (dsimp only; split) | (intro; intros))

theorem State.referLoop_within {l : List Area} {s₀ s : State} (h : s₀.Within l s) (d l')
    (hregs : Area.regs ∈ l := by assumption) : s₀.Within l (State.referLoop s d l') := by
  unfold State.referLoop
  (try dsimp only)
  repeat' (first
    | (with_reducible first
      | exact h | assumption | apply State.within_ite | apply State.setReg_within | apply State.putBit_within)
    | split | (dsimp only; split))

theorem State.order5_within {l : List Area} {s₀ s : State} (h : s₀.Within l s) (hregs : Area.regs ∈ l := by assumption)
    (hhelm : Area.helm ∈ l := by assumption) : s₀.Within l (State.order5 s) := by
  unfold State.order5
  (try dsimp only)
  repeat' (first
    | (with_reducible first
      | exact h | assumption | apply State.within_foldl | apply State.within_foldl_fst | apply State.referLoop_within
      | apply State.setReg_within | apply State.hbmState_within)
    | (intro; intros))

theorem State.soundStack_within {l : List Area} {s₀ s : State} (h : s₀.Within l s) (a b c)
    (hregs : Area.regs ∈ l := by assumption) (hhbm : Area.hbm ∈ l := by assumption)
    (hhbmc : Area.hbmc ∈ l := by assumption) (hhelm : Area.helm ∈ l := by assumption)
    (hfree : Area.free ∈ l := by assumption) : s₀.Within l (State.soundStack s a b c) := by
  unfold State.soundStack
  have k := fun f x g y z => State.loadTiming_within (State.loadTiming_within (State.modStk_within (State.hbmFilter_within h f) x g) x false y) x true z
  dsimp only; split
  · exact State.markLost_within (k _ _ _ _ _) _
  · exact State.hbmState_within (k _ _ _ _ _) _ _

theorem State.order6a_within {l : List Area} {s₀ s : State} (h : s₀.Within l s) (training march)
    (hregs : Area.regs ∈ l := by assumption) (hhbm : Area.hbm ∈ l := by assumption)
    (hhbmc : Area.hbmc ∈ l := by assumption) (hhelm : Area.helm ∈ l := by assumption)
    (hstart : Area.start ∈ l := by assumption) (hfree : Area.free ∈ l := by assumption) : s₀.Within l
    (State.order6a s training march) := by
  unfold State.order6a
  (try dsimp only)
  repeat' (first
    | (with_reducible first
      | exact h | assumption | apply State.WithinMk.of | exact Or.inl rfl | exact Or.inr (by assumption)
      | exact Or.inr ⟨by assumption, id⟩ | apply State.within_foldl | apply State.within_foldl_fst
      | apply State.soundStack_within)
    | (simp only [State.within_mk]; (try dsimp only)) | (intro; intros))

theorem execSoundingRegionDone_within {l : List Area} {s₀ s : State} (h : s₀.Within l s) (die k fails) (t)
    (ht : execSoundingRegionDone die k fails s = .next t) (hregs : Area.regs ∈ l := by assumption)
    (hmodule : Area.module ∈ l := by assumption) (hstart : Area.start ∈ l := by assumption) : s₀.Within l t := by
  unfold execSoundingRegionDone at ht
  (try dsimp only at ht)
  injection ht with ht
  subst ht
  repeat' (first
    | (with_reducible first
      | exact h | assumption | apply State.WithinMk.of | exact Or.inl rfl | exact Or.inr (by assumption)
      | exact Or.inr ⟨by assumption, id⟩ | apply State.within_ite | apply State.failStart_within)
    | (simp only [State.within_mk]; (try dsimp only)) | split | (dsimp only; split) | (intro; intros))

theorem State.chartDead_within {l : List Area} {s₀ s : State} (h : s₀.Within l s) (die phys cause)
    (hregs : Area.regs ∈ l := by assumption) (hhelm : Area.helm ∈ l := by assumption)
    (hvault : Area.vault ∈ l := by assumption) (hstart : Area.start ∈ l := by assumption) : s₀.Within l
    (State.chartDead s die phys cause) := by
  unfold State.chartDead
  (try dsimp only)
  repeat' (first
    | (with_reducible first
      | exact h | assumption | apply State.within_ite | apply State.chartAdd_within)
    | split | (dsimp only; split))

theorem State.chartFail_within {l : List Area} {s₀ s : State} (h : s₀.Within l s) (die f)
    (hregs : Area.regs ∈ l := by assumption) (hhelm : Area.helm ∈ l := by assumption)
    (hvault : Area.vault ∈ l := by assumption) (hstart : Area.start ∈ l := by assumption) : s₀.Within l
    (State.chartFail s die f) := by
  unfold State.chartFail
  (try dsimp only)
  repeat' (first
    | (with_reducible first
      | exact h | assumption | apply State.within_ite | apply State.chartDead_within | apply State.chartAdd_within)
    | split | (dsimp only; split))

theorem State.chartStack_within {l : List Area} {s₀ s : State} (h : s₀.Within l s) (h')
    (hregs : Area.regs ∈ l := by assumption) (hhelm : Area.helm ∈ l := by assumption)
    (hvault : Area.vault ∈ l := by assumption) (hstart : Area.start ∈ l := by assumption) : s₀.Within l
    (State.chartStack s h') := by
  unfold State.chartStack
  (try dsimp only)
  repeat' (first
    | (with_reducible first
      | exact h | assumption | apply State.within_ite | apply State.chartAdd_within | apply State.chartSet_within)
    | split | (dsimp only; split) | (intro; intros))

theorem State.chartDie_within {l : List Area} {s₀ s : State} (h : s₀.Within l s) (die)
    (hregs : Area.regs ∈ l := by assumption) (hhelm : Area.helm ∈ l := by assumption)
    (hvault : Area.vault ∈ l := by assumption) (hstart : Area.start ∈ l := by assumption) : s₀.Within l
    (State.chartDie s die) := by
  unfold State.chartDie
  (try dsimp only)
  repeat' (first
    | (with_reducible first
      | exact h | assumption | apply State.WithinMk.of | exact Or.inl rfl | exact Or.inr (by assumption)
      | exact Or.inr ⟨by assumption, id⟩ | apply State.within_ite | apply State.within_ite_fst
      | apply State.within_foldl | apply State.within_foldl_fst | apply State.chartFail_within
      | apply State.chartStack_within)
    | (simp only [State.within_mk]; (try dsimp only)) | split | (dsimp only; split) | (intro; intros)
    | (dsimp only))

theorem State.mapRows_within {l : List Area} {s₀ s : State} (h : s₀.Within l s) (die g nums)
    (hcores : Area.cores ∈ l := by assumption) : s₀.Within l (State.mapRows s die g nums) := by
  unfold State.mapRows
  (try dsimp only)
  repeat' (first
    | (with_reducible first
      | exact h | assumption | apply State.within_ite | apply State.within_ite_fst | apply State.within_foldl
      | apply State.within_foldl_fst | apply State.setCore_within)
    | split | (dsimp only; split) | (intro; intros)
    | (dsimp only))

theorem State.numberAlone_within {l : List Area} {s₀ s : State} (h : s₀.Within l s) (die g)
    (hcores : Area.cores ∈ l := by assumption) (hnet : Area.net ∈ l := by assumption) : s₀.Within l
    (State.numberAlone s die g) := by
  unfold State.numberAlone
  (try dsimp only)
  repeat' (first
    | (with_reducible first
      | exact h | assumption | apply State.WithinMk.of | exact Or.inl rfl | exact Or.inr (by assumption)
      | exact Or.inr ⟨by assumption, id⟩ | apply State.mapRows_within)
    | (simp only [State.within_mk]; (try dsimp only)) | (intro; intros)
    | (dsimp only))

theorem State.numberGroup_within {l : List Area} {s₀ s : State} (h : s₀.Within l s) (die g)
    (hcores : Area.cores ∈ l := by assumption) (hnet : Area.net ∈ l := by assumption)
    (hhelm : Area.helm ∈ l := by assumption) : s₀.Within l (State.numberGroup s die g) := by
  unfold State.numberGroup
  (try dsimp only)
  repeat' (first
    | (with_reducible first
      | exact h | assumption | apply State.WithinMk.of | exact Or.inl rfl | exact Or.inr (by assumption)
      | exact Or.inr ⟨by assumption, id⟩ | apply State.within_ite | apply State.within_ite_fst
      | apply State.numberAlone_within | apply State.mapRows_within)
    | (simp only [State.within_mk]; (try dsimp only)) | split | (dsimp only; split) | (intro; intros)
    | (dsimp only))

theorem State.addAbsent_within {l : List Area} {s₀ s : State} (h : s₀.Within l s) (xs : List Nat)
    (hnet : Area.net ∈ l := by assumption) :
    s₀.Within l { s with net := { s.net with absent := s.net.absent ++ xs } } := by
  rw [State.within_mk]
  apply State.WithinMk.of h <;> first | exact Or.inl rfl | exact Or.inr hnet

theorem State.numberDie_within {l : List Area} {s₀ s : State} (h : s₀.Within l s) (d)
    (hcores : Area.cores ∈ l := by assumption) (hnet : Area.net ∈ l := by assumption)
    (hhelm : Area.helm ∈ l := by assumption) : s₀.Within l (State.numberDie s d) := by
  unfold State.numberDie
  exact State.addAbsent_within (State.within_foldl _ _ h fun s g k => State.numberGroup_within k _ _) _

theorem State.order7_within {l : List Area} {s₀ s : State} (h : s₀.Within l s) (hregs : Area.regs ∈ l := by assumption)
    (hcores : Area.cores ∈ l := by assumption) (hnet : Area.net ∈ l := by assumption)
    (hhelm : Area.helm ∈ l := by assumption) (hvault : Area.vault ∈ l := by assumption)
    (hstart : Area.start ∈ l := by assumption) : s₀.Within l (State.order7 s) := by
  unfold State.order7
  (try dsimp only)
  repeat' (first
    | (with_reducible first
      | exact h | assumption | apply State.within_foldl | apply State.within_foldl_fst | apply State.chartDie_within
      | apply State.numberDie_within | apply State.setReg_within)
    | (intro; intros))

theorem State.order8_within {l : List Area} {s₀ s : State} (h : s₀.Within l s) (hcores : Area.cores ∈ l := by assumption)
    (hctxs : Area.ctxs ∈ l := by assumption) : s₀.Within l (State.order8 s) := by
  unfold State.order8
  (try dsimp only)
  repeat' (first
    | (with_reducible first
      | exact h | assumption | apply State.WithinMk.of | exact Or.inl rfl | exact Or.inr (by assumption)
      | exact Or.inr ⟨by assumption, id⟩)
    | (simp only [State.within_mk]; (try dsimp only)) | (intro; intros)
    | (dsimp only))

theorem State.order9_within {l : List Area} {s₀ s : State} (h : s₀.Within l s) (hregs : Area.regs ∈ l := by assumption)
    (hports : Area.ports ∈ l := by assumption) (hvault : Area.vault ∈ l := by assumption)
    (hfree : Area.free ∈ l := by assumption) : s₀.Within l (State.order9 s) := by
  unfold State.order9
  (try dsimp only)
  repeat' (first
    | (with_reducible first
      | exact h | assumption | apply State.WithinMk.of | exact Or.inl rfl | exact Or.inr (by assumption)
      | exact Or.inr ⟨by assumption, id⟩ | apply State.modVault_within | apply State.setReg_within
      | apply State.drew_within | apply State.modPort_within)
    | (simp only [State.within_mk]; (try dsimp only)) | (intro; intros)
    | (first | exact .of_eq rfl rfl | exact Vault.lose_onward _ _ | exact Vault.raise_onward _ _ _ | exact Vault.turnOver_onward _ | exact Vault.useLeaf_onward _ | exact Vault.storeKey_onward _ _ | exact Vault.stored_onward _ _ _))

theorem State.order6e_within {l : List Area} {s₀ s : State} (h : s₀.Within l s) (hvault : Area.vault ∈ l := by assumption)
    : s₀.Within l (State.order6e s) := by
  unfold State.order6e
  (try dsimp only)
  repeat' (first
    | (with_reducible first
      | exact h | assumption | apply State.WithinMk.of | exact Or.inl rfl | exact Or.inr (by assumption)
      | exact Or.inr ⟨by assumption, id⟩ | apply State.modVault_within)
    | (simp only [State.within_mk]; (try dsimp only)) | (intro; intros)
    | (first | exact .of_eq rfl rfl | exact Vault.lose_onward _ _ | exact Vault.raise_onward _ _ _ | exact Vault.turnOver_onward _ | exact Vault.useLeaf_onward _ | exact Vault.storeKey_onward _ _ | exact Vault.stored_onward _ _ _))

theorem execStartPhaseDone_within {l : List Area} {s₀ s : State} (h : s₀.Within l s) (phase found) (t)
    (ht : execStartPhaseDone phase found s = .next t) (hregs : Area.regs ∈ l := by assumption)
    (hcores : Area.cores ∈ l := by assumption) (hnet : Area.net ∈ l := by assumption)
    (hhbm : Area.hbm ∈ l := by assumption) (hhbmc : Area.hbmc ∈ l := by assumption)
    (hctxs : Area.ctxs ∈ l := by assumption) (hports : Area.ports ∈ l := by assumption)
    (hhelm : Area.helm ∈ l := by assumption) (hvault : Area.vault ∈ l := by assumption)
    (hmodule : Area.module ∈ l := by assumption) (hstart : Area.start ∈ l := by assumption)
    (hfree : Area.free ∈ l := by assumption) (hout : Area.out ∈ l := by assumption) : s₀.Within l t := by
  unfold execStartPhaseDone at ht
  (try dsimp only at ht)
  injection ht with ht
  subst ht
  repeat' (first
    | (with_reducible first
      | exact h | assumption | apply State.within_ite | apply State.order1_within | apply State.endOrder_within
      | apply State.order2_within | apply State.order3_within | apply State.order4_within | apply State.order5_within
      | apply State.order6a_within | apply State.order6e_within | apply State.signer_within
      | apply State.order7_within | apply State.order8_within | apply State.order9_within)
    | split | (dsimp only; split))

theorem execPartitionReset_within {l : List Area} {s₀ s : State} (h : s₀.Within l s) (port value) (t)
    (ht : execPartitionReset port value s = .next t) (hregs : Area.regs ∈ l := by assumption)
    (hcores : Area.cores ∈ l := by assumption) (hnet : Area.net ∈ l := by assumption)
    (hhbm : Area.hbm ∈ l := by assumption) (hhbmc : Area.hbmc ∈ l := by assumption)
    (hxfers : Area.xfers ∈ l := by assumption) (hctxs : Area.ctxs ∈ l := by assumption)
    (hports : Area.ports ∈ l := by assumption) (hhelm : Area.helm ∈ l := by assumption)
    (hfab : Area.fab ∈ l := by assumption) (hcfg : Area.cfg ∈ l := by assumption)
    (hstart : Area.start ∈ l := by assumption) (hfree : Area.free ∈ l := by assumption)
    (hout : Area.out ∈ l := by assumption) : s₀.Within l t := by
  unfold execPartitionReset at ht
  (try dsimp only at ht)
  injection ht with ht
  subst ht
  repeat' (first
    | (with_reducible first
      | exact h | assumption | apply State.WithinMk.of | exact Or.inl rfl | exact Or.inr (by assumption)
      | exact Or.inr ⟨by assumption, id⟩ | apply State.within_ite | apply State.within_foldl
      | apply State.within_foldl_fst | apply State.writeAs_within | apply State.violation_within
      | apply State.setReg_within | apply State.resetCoresOf_within | apply State.killCtx_within)
    | (simp only [State.within_mk]; (try dsimp only)) | split | (dsimp only; split) | (intro; intros))

theorem State.releaseSubs_within {l : List Area} {s₀ s : State} (h : s₀.Within l s) (subs)
    (hcores : Area.cores ∈ l := by assumption) (hstart : Area.start ∈ l := by assumption) : s₀.Within l
    (State.releaseSubs s subs) := by
  unfold State.releaseSubs
  (try dsimp only)
  repeat' (first
    | (with_reducible first
      | exact h | assumption | apply State.WithinMk.of | exact Or.inl rfl | exact Or.inr (by assumption)
      | exact Or.inr ⟨by assumption, id⟩)
    | (simp only [State.within_mk]; (try dsimp only)) | (intro; intros)
    | (dsimp only))

theorem execPartitionResetRelease_within {l : List Area} {s₀ s : State} (h : s₀.Within l s) (checked) (t)
    (ht : execPartitionResetRelease checked s = .next t) (hregs : Area.regs ∈ l := by assumption)
    (hcores : Area.cores ∈ l := by assumption) (hstart : Area.start ∈ l := by assumption) : s₀.Within l t := by
  unfold execPartitionResetRelease at ht
  (try dsimp only at ht)
  injection ht with ht
  subst ht
  repeat' (first
    | (with_reducible first
      | exact h | assumption | apply State.WithinMk.of | exact Or.inl rfl | exact Or.inr (by assumption)
      | exact Or.inr ⟨by assumption, id⟩ | apply State.within_ite | apply State.releaseSubs_within
      | apply State.setReg_within | apply State.bump_within)
    | (simp only [State.within_mk]; (try dsimp only)) | split | (dsimp only; split) | (intro; intros))

theorem State.modModule_within {l : List Area} {s₀ s : State} (h : s₀.Within l s) (f)
    (hmodule : Area.module ∈ l := by assumption) : s₀.Within l (State.modModule s f) := by
  unfold State.modModule
  (try dsimp only)
  repeat' (first
    | (with_reducible first
      | exact h | assumption | apply State.WithinMk.of | exact Or.inl rfl | exact Or.inr (by assumption)
      | exact Or.inr ⟨by assumption, id⟩)
    | (simp only [State.within_mk]; (try dsimp only)))

theorem State.openSwitch_within {l : List Area} {s₀ s : State} (h : s₀.Within l s) (c)
    (hregs : Area.regs ∈ l := by assumption) (hcores : Area.cores ∈ l := by assumption)
    (hnet : Area.net ∈ l := by assumption) (hhbm : Area.hbm ∈ l := by assumption) (hhbmc : Area.hbmc ∈ l := by assumption)
    (hxfers : Area.xfers ∈ l := by assumption) (hnextId : Area.nextId ∈ l := by assumption)
    (hctxs : Area.ctxs ∈ l := by assumption) (hports : Area.ports ∈ l := by assumption)
    (hhelm : Area.helm ∈ l := by assumption) (hpower : Area.power ∈ l := by assumption)
    (hfab : Area.fab ∈ l := by assumption) (hcfg : Area.cfg ∈ l := by assumption)
    (hvault : Area.vault ∈ l := by assumption) (hsal : Area.sal ∈ l := by assumption)
    (hmodule : Area.module ∈ l := by assumption) (hstart : Area.start ∈ l := by assumption)
    (htimer : Area.timer ∈ l := by assumption) : s₀.Within l (State.openSwitch s c) := by
  unfold State.openSwitch
  (try dsimp only)
  repeat' (first
    | (with_reducible first
      | exact h | assumption | apply State.WithinMk.of | exact Or.inl rfl | exact Or.inr (by assumption)
      | exact Or.inr ⟨by assumption, id⟩ | apply State.within_ite | apply State.moduleReset_within
      | apply State.setReg_within | apply State.bump_within | apply State.modModule_within
      | apply State.alertState_within)
    | (simp only [State.within_mk]; (try dsimp only)) | split | (dsimp only; split) | (intro; intros))

theorem execSwitchOpen_within {l : List Area} {s₀ s : State} (h : s₀.Within l s) (cause) (t)
    (ht : execSwitchOpen cause s = .next t) (hregs : Area.regs ∈ l := by assumption)
    (hcores : Area.cores ∈ l := by assumption) (hnet : Area.net ∈ l := by assumption)
    (hhbm : Area.hbm ∈ l := by assumption) (hhbmc : Area.hbmc ∈ l := by assumption)
    (hxfers : Area.xfers ∈ l := by assumption) (hnextId : Area.nextId ∈ l := by assumption)
    (hctxs : Area.ctxs ∈ l := by assumption) (hports : Area.ports ∈ l := by assumption)
    (hhelm : Area.helm ∈ l := by assumption) (hpower : Area.power ∈ l := by assumption)
    (hfab : Area.fab ∈ l := by assumption) (hcfg : Area.cfg ∈ l := by assumption)
    (hvault : Area.vault ∈ l := by assumption) (hsal : Area.sal ∈ l := by assumption)
    (hmodule : Area.module ∈ l := by assumption) (hstart : Area.start ∈ l := by assumption)
    (htimer : Area.timer ∈ l := by assumption) : s₀.Within l t := by
  unfold execSwitchOpen at ht
  (try dsimp only at ht)
  injection ht with ht
  subst ht
  repeat' (with_reducible first
      | exact h | assumption | apply State.openSwitch_within)

theorem State.closeSwitch_within {l : List Area} {s₀ s : State} (h : s₀.Within l s)
    (hmodule : Area.module ∈ l := by assumption) : s₀.Within l (State.closeSwitch s) := by
  unfold State.closeSwitch
  (try dsimp only)
  repeat' (first
    | (with_reducible first
      | exact h | assumption | apply State.WithinMk.of | exact Or.inl rfl | exact Or.inr (by assumption)
      | exact Or.inr ⟨by assumption, id⟩ | apply State.modModule_within | apply State.alertState_within)
    | (simp only [State.within_mk]; (try dsimp only)) | (intro; intros))

theorem execSwitchClose_within {l : List Area} {s₀ s : State} (h : s₀.Within l s) (t) (ht : execSwitchClose s = .next t)
    (hmodule : Area.module ∈ l := by assumption) : s₀.Within l t := by
  unfold execSwitchClose at ht
  (try dsimp only at ht)
  injection ht with ht
  subst ht
  repeat' (first
    | (with_reducible first
      | exact h | assumption | apply State.within_ite | apply State.closeSwitch_within)
    | split | (dsimp only; split))

theorem execThermalTrip_within {l : List Area} {s₀ s : State} (h : s₀.Within l s) (junction outlet) (t)
    (ht : execThermalTrip junction outlet s = .next t) (hregs : Area.regs ∈ l := by assumption)
    (hcores : Area.cores ∈ l := by assumption) (hnet : Area.net ∈ l := by assumption)
    (hhbm : Area.hbm ∈ l := by assumption) (hhbmc : Area.hbmc ∈ l := by assumption)
    (hxfers : Area.xfers ∈ l := by assumption) (hnextId : Area.nextId ∈ l := by assumption)
    (hctxs : Area.ctxs ∈ l := by assumption) (hports : Area.ports ∈ l := by assumption)
    (hhelm : Area.helm ∈ l := by assumption) (hpower : Area.power ∈ l := by assumption)
    (hfab : Area.fab ∈ l := by assumption) (hcfg : Area.cfg ∈ l := by assumption)
    (hvault : Area.vault ∈ l := by assumption) (hsal : Area.sal ∈ l := by assumption)
    (hmodule : Area.module ∈ l := by assumption) (hstart : Area.start ∈ l := by assumption)
    (htimer : Area.timer ∈ l := by assumption) : s₀.Within l t := by
  unfold execThermalTrip at ht
  (try dsimp only at ht)
  injection ht with ht
  subst ht
  repeat' (first
    | (with_reducible first
      | exact h | assumption | apply State.within_ite | apply State.openSwitch_within)
    | split | (dsimp only; split))

theorem State.ignorePulse_within {l : List Area} {s₀ s : State} (h : s₀.Within l s)
    (hmodule : Area.module ∈ l := by assumption) : s₀.Within l (State.ignorePulse s) := by
  unfold State.ignorePulse
  (try dsimp only)
  repeat' (first
    | (with_reducible first
      | exact h | assumption | apply State.WithinMk.of | exact Or.inl rfl | exact Or.inr (by assumption)
      | exact Or.inr ⟨by assumption, id⟩ | apply State.modModule_within)
    | (simp only [State.within_mk]; (try dsimp only)) | (intro; intros))

theorem execMgmtRstN_within {l : List Area} {s₀ s : State} (h : s₀.Within l s) (lowNs hotJunction outlet) (t)
    (ht : execMgmtRstN lowNs hotJunction outlet s = .next t) (hregs : Area.regs ∈ l := by assumption)
    (hcores : Area.cores ∈ l := by assumption) (hnet : Area.net ∈ l := by assumption)
    (hhbm : Area.hbm ∈ l := by assumption) (hhbmc : Area.hbmc ∈ l := by assumption)
    (hxfers : Area.xfers ∈ l := by assumption) (hnextId : Area.nextId ∈ l := by assumption)
    (hctxs : Area.ctxs ∈ l := by assumption) (hports : Area.ports ∈ l := by assumption)
    (hhelm : Area.helm ∈ l := by assumption) (hpower : Area.power ∈ l := by assumption)
    (hfab : Area.fab ∈ l := by assumption) (hcfg : Area.cfg ∈ l := by assumption)
    (hvault : Area.vault ∈ l := by assumption) (hsal : Area.sal ∈ l := by assumption)
    (hmodule : Area.module ∈ l := by assumption) (hstart : Area.start ∈ l := by assumption)
    (htimer : Area.timer ∈ l := by assumption) : s₀.Within l t := by
  unfold execMgmtRstN at ht
  (try dsimp only at ht)
  injection ht with ht
  subst ht
  repeat' (first
    | (with_reducible first
      | exact h | assumption | apply State.within_ite | apply State.ignorePulse_within
      | apply State.closeSwitch_within | apply State.moduleReset_within)
    | split | (dsimp only; split) | (intro; intros))

theorem State.setFlag_within {l : List Area} {s₀ s : State} (h : s₀.Within l s) (f)
    (hregs : Area.regs ∈ l := by assumption) (hmodule : Area.module ∈ l := by assumption) : s₀.Within l
    (State.setFlag s f) := by
  unfold State.setFlag
  (try dsimp only)
  repeat' (first
    | (with_reducible first
      | exact h | assumption | apply State.WithinMk.of | exact Or.inl rfl | exact Or.inr (by assumption)
      | exact Or.inr ⟨by assumption, id⟩ | apply State.within_ite | apply State.setReg_within
      | apply State.modModule_within)
    | (simp only [State.within_mk]; (try dsimp only)) | split | (dsimp only; split) | (intro; intros))

theorem execCoolantSample_within {l : List Area} {s₀ s : State} (h : s₀.Within l s) (inlet outlet leak) (t)
    (ht : execCoolantSample inlet outlet leak s = .next t) (hregs : Area.regs ∈ l := by assumption)
    (hmodule : Area.module ∈ l := by assumption) : s₀.Within l t := by
  unfold execCoolantSample at ht
  (try dsimp only at ht)
  injection ht with ht
  subst ht
  repeat' (first
    | (with_reducible first
      | exact h | assumption | apply State.within_ite | apply State.setReg_within | apply State.setFlag_within)
    | split | (dsimp only; split))

theorem State.smb_within {l : List Area} {s₀ s : State} (h : s₀.Within l s) (b) (hout : Area.out ∈ l := by assumption) :
    s₀.Within l (State.smb s b) := by
  unfold State.smb
  (try dsimp only)
  repeat' (with_reducible first
      | exact h | assumption | apply State.send_within)

theorem execState_within {l : List Area} {s₀ s : State} (h : s₀.Within l s) (t) (ht : execState s = .next t)
    (hout : Area.out ∈ l := by assumption) : s₀.Within l t := by
  unfold execState at ht
  (try dsimp only at ht)
  injection ht with ht
  subst ht
  repeat' (with_reducible first
      | exact h | assumption | apply State.smb_within)

theorem execSerial_within {l : List Area} {s₀ s : State} (h : s₀.Within l s) (t) (ht : execSerial s = .next t)
    (hout : Area.out ∈ l := by assumption) : s₀.Within l t := by
  unfold execSerial at ht
  (try dsimp only at ht)
  injection ht with ht
  subst ht
  repeat' (with_reducible first
      | exact h | assumption | apply State.smb_within)

theorem execPower_within {l : List Area} {s₀ s : State} (h : s₀.Within l s) (vin) (t) (ht : execPower vin s = .next t)
    (hmodule : Area.module ∈ l := by assumption) (hout : Area.out ∈ l := by assumption) : s₀.Within l t := by
  unfold execPower at ht
  (try dsimp only at ht)
  injection ht with ht
  subst ht
  repeat' (first
    | (with_reducible first
      | exact h | assumption | apply State.WithinMk.of | exact Or.inl rfl | exact Or.inr (by assumption)
      | exact Or.inr ⟨by assumption, id⟩ | apply State.modModule_within | apply State.smb_within)
    | (simp only [State.within_mk]; (try dsimp only)) | (intro; intros))

theorem execCoolant_within {l : List Area} {s₀ s : State} (h : s₀.Within l s) (t) (ht : execCoolant s = .next t)
    (hout : Area.out ∈ l := by assumption) : s₀.Within l t := by
  unfold execCoolant at ht
  (try dsimp only at ht)
  injection ht with ht
  subst ht
  repeat' (with_reducible first
      | exact h | assumption | apply State.smb_within)

theorem execDies_within {l : List Area} {s₀ s : State} (h : s₀.Within l s) (t) (ht : execDies s = .next t)
    (hout : Area.out ∈ l := by assumption) : s₀.Within l t := by
  unfold execDies at ht
  (try dsimp only at ht)
  injection ht with ht
  subst ht
  repeat' (first
    | (with_reducible first
      | exact h | assumption | apply State.within_ite | apply State.within_foldl | apply State.within_foldl_fst
      | apply State.smb_within)
    | split | (dsimp only; split) | (intro; intros))

theorem execClearAlert_within {l : List Area} {s₀ s : State} (h : s₀.Within l s) (t) (ht : execClearAlert s = .next t)
    (hregs : Area.regs ∈ l := by assumption) (hmodule : Area.module ∈ l := by assumption) : s₀.Within l t := by
  unfold execClearAlert at ht
  (try dsimp only at ht)
  injection ht with ht
  subst ht
  repeat' (first
    | (with_reducible first
      | exact h | assumption | apply State.WithinMk.of | exact Or.inl rfl | exact Or.inr (by assumption)
      | exact Or.inr ⟨by assumption, id⟩ | apply State.setReg_within | apply State.modModule_within)
    | (simp only [State.within_mk]; (try dsimp only)) | (intro; intros))

theorem execAlertResponseRead_within {l : List Area} {s₀ s : State} (h : s₀.Within l s) (t)
    (ht : execAlertResponseRead s = .next t) (hmodule : Area.module ∈ l := by assumption) : s₀.Within l t := by
  unfold execAlertResponseRead at ht
  (try dsimp only at ht)
  injection ht with ht
  subst ht
  repeat' (first
    | (with_reducible first
      | exact h | assumption | apply State.WithinMk.of | exact Or.inl rfl | exact Or.inr (by assumption)
      | exact Or.inr ⟨by assumption, id⟩ | apply State.modModule_within)
    | (simp only [State.within_mk]; (try dsimp only)) | (intro; intros))

theorem execSmbusTimeout_within {l : List Area} {s₀ s : State} (h : s₀.Within l s) (t) (ht : execSmbusTimeout s = .next t)
    : s₀.Within l t := by
  unfold execSmbusTimeout at ht
  (try dsimp only at ht)
  injection ht with ht
  subst ht
  repeat' (first | exact h | assumption)

theorem State.claimRead_within {l : List Area} {s₀ s : State} (h : s₀.Within l s) (src die proc)
    (hregs : Area.regs ∈ l := by assumption) (hhelm : Area.helm ∈ l := by assumption) : s₀.Within l
    (State.claimRead s src die proc).1 := by
  unfold State.claimRead
  (try dsimp only)
  repeat' (first
    | (with_reducible first
      | exact h | assumption | apply State.within_ite | apply State.within_ite_fst | apply State.claim_within)
    | split | (dsimp only; split)
    | (dsimp only))

theorem State.countDenied_within {l : List Area} {s₀ s : State} (h : s₀.Within l s) (src)
    (hregs : Area.regs ∈ l := by assumption) : s₀.Within l (State.countDenied s src) := by
  unfold State.countDenied
  (try dsimp only)
  repeat' (first
    | (with_reducible first
      | exact h | assumption | apply State.violation_within)
    | split | (dsimp only; split))

theorem State.readPart_within {l : List Area} {s₀ s : State} (h : s₀.Within l s) (src part)
    (hregs : Area.regs ∈ l := by assumption) (hhelm : Area.helm ∈ l := by assumption) : s₀.Within l
    (State.readPart s src part).1 := by
  unfold State.readPart
  (try dsimp only)
  repeat' (first
    | (with_reducible first
      | exact h | assumption | apply State.within_ite | apply State.within_ite_fst | apply State.countDenied_within
      | apply State.deny_within | apply State.claimRead_within)
    | split | (dsimp only; split) | (intro; intros)
    | (dsimp only))

theorem State.readParts_within {l : List Area} {s₀ s : State} (h : s₀.Within l s) (src xs)
    (hregs : Area.regs ∈ l := by assumption) (hhelm : Area.helm ∈ l := by assumption) : s₀.Within l
    (State.readParts s src xs).1 := by
  induction xs generalizing s with
  | nil => exact h
  | cons p xs ih => exact ih (State.readPart_within h _ _)

theorem State.putField_within {l : List Area} {s₀ s : State} (h : s₀.Within l s) (inst elem m e)
    (hregs : Area.regs ∈ l := by assumption) : s₀.Within l (State.putField s inst elem m e) := by
  unfold State.putField
  (try dsimp only)
  repeat' (first
    | (with_reducible first
      | exact h | assumption | apply State.setReg_within)
    | split | (dsimp only; split)
    | (dsimp only))

theorem State.putFields_within {l : List Area} {s₀ s : State} (h : s₀.Within l s) (inst elem m l')
    (hregs : Area.regs ∈ l := by assumption) : s₀.Within l (State.putFields s inst elem m l') := by
  unfold State.putFields
  (try dsimp only)
  repeat' (first
    | (with_reducible first
      | exact h | assumption | apply State.within_foldl | apply State.within_foldl_fst | apply State.putField_within)
    | (intro; intros))

theorem after_within {l : List Area} {s₀ s : State} (h : s₀.Within l s) (o) (ho : ∀ t, o = .next t → s₀.Within l t) :
    s₀.Within l (after s o) := by
  unfold after; split
  · exact ho _ rfl
  · exact h

theorem doIf_within {l : List Area} {s₀ s : State} (h : s₀.Within l s) (c act) (ha : ∀ t, act s = .next t → s₀.Within l t) : s₀.Within l (doIf c act s) :=
  State.within_ite (after_within h _ ha) h

theorem byPort_within {l : List Area} {s₀ s : State} (h : s₀.Within l s) (src act)
    (ha : ∀ p t, act p = .next t → s₀.Within l t) : s₀.Within l (byPort s src act) := by
  unfold byPort; split
  · exact after_within h _ fun t ht => ha _ _ ht
  · exact h

theorem State.ctxCmd_within {l : List Area} {s₀ s : State} (h : s₀.Within l s) (src x c)
    (hregs : Area.regs ∈ l := by assumption) (hcores : Area.cores ∈ l := by assumption)
    (hnet : Area.net ∈ l := by assumption) (hhbm : Area.hbm ∈ l := by assumption) (hhbmc : Area.hbmc ∈ l := by assumption)
    (hxfers : Area.xfers ∈ l := by assumption) (hctxs : Area.ctxs ∈ l := by assumption)
    (hports : Area.ports ∈ l := by assumption) (hhelm : Area.helm ∈ l := by assumption)
    (hfab : Area.fab ∈ l := by assumption) (hcfg : Area.cfg ∈ l := by assumption) (hfree : Area.free ∈ l := by assumption)
    (hout : Area.out ∈ l := by assumption) : s₀.Within l (State.ctxCmd s src x c) := by
  unfold State.ctxCmd
  refine byPort_within h _ _ fun p t ht => ?_
  split at ht
  · injection ht with ht; subst ht; exact h
  · exact execCtxOpen_within h _ _ _ ht
  · exact execCtxRun_within h _ _ _ ht
  · exact execCtxPause_within h _ _ _ ht
  · exact execCtxResume_within h _ _ _ ht
  · exact execCtxStop_within h _ _ _ ht
  · exact execCtxKill_within h _ _ _ ht
  · exact execCtxCmdReserved_within h _ _ _ ht

theorem State.leaseCmd_within {l : List Area} {s₀ s : State} (h : s₀.Within l s) (src m)
    (hregs : Area.regs ∈ l := by assumption) (hports : Area.ports ∈ l := by assumption)
    (hout : Area.out ∈ l := by assumption) : s₀.Within l (State.leaseCmd s src m) := by
  unfold State.leaseCmd; dsimp only
  have k : s₀.Within l (if natBits m 3 1 = 1 then byPort s src (fun p => execLeaseAcquire p s) else s) :=
    State.within_ite (byPort_within h _ _ fun p t ht => execLeaseAcquire_within h _ _ ht) h
  generalize (if natBits m 3 1 = 1 then byPort s src (fun p => execLeaseAcquire p s) else s) = u at *
  exact State.within_ite (byPort_within k _ _ fun p t ht => execLeaseRelease_within k _ _ ht) k

theorem State.salCmd_within {l : List Area} {s₀ s : State} (h : s₀.Within l s) (src die p m)
    (hregs : Area.regs ∈ l := by assumption) (hports : Area.ports ∈ l := by assumption)
    (hhelm : Area.helm ∈ l := by assumption) (hsal : Area.sal ∈ l := by assumption)
    (hfree : Area.free ∈ l := by assumption) (hout : Area.out ∈ l := by assumption) : s₀.Within l
    (State.salCmd s src die p m) := by
  unfold State.salCmd
  have a := doIf_within h (m.testBit 0) (execSallanRetrain die p (.command src)) fun t ht => execSallanRetrain_within h _ _ _ _ ht
  have b := doIf_within a (m.testBit 1) (execSallanTest src die p) fun t ht => execSallanTest_within a _ _ _ _ ht
  exact doIf_within b _ _ fun t ht => execSallanTestEnd_within b _ _ _ _ ht

theorem State.keyCmd_within {l : List Area} {s₀ s : State} (h : s₀.Within l s) (src m d) (hd : s₀.Within l d)
    (hregs : Area.regs ∈ l := by assumption) (hhbmc : Area.hbmc ∈ l := by assumption)
    (hports : Area.ports ∈ l := by assumption) (hhelm : Area.helm ∈ l := by assumption)
    (hvault : Area.vault ∈ l := by assumption) (hfree : Area.free ∈ l := by assumption)
    (hout : Area.out ∈ l := by assumption) : s₀.Within l (State.keyCmd s src m d) := by
  unfold State.keyCmd; split
  · exact hd
  · split
    · exact after_within h _ fun t ht => execKeyRevoke_within hd _ _ _ ht
    · exact after_within h _ fun t ht => execKeyInstall_within hd _ _ _ _ ht

theorem State.onlyIn_within {l : List Area} {s₀ s : State} (h : s₀.Within l s) (src x xs d) (hd : s₀.Within l d)
    (hregs : Area.regs ∈ l := by assumption) : s₀.Within l (State.onlyIn s src x xs d) := by
  unfold State.onlyIn; split
  · exact hd
  · exact State.countDenied_within h _

theorem State.ringWritten_within {l : List Area} {s₀ s : State} (h : s₀.Within l s) (src x m d) (hd : s₀.Within l d)
    (hregs : Area.regs ∈ l := by assumption) : s₀.Within l (State.ringWritten s src x m d) := by
  unfold State.ringWritten
  refine State.onlyIn_within h _ _ _ _ ?_
  dsimp only; split
  · exact State.countDenied_within h _
  · exact State.setReg_within (State.setReg_within (State.setReg_within (State.setReg_within (State.setReg_within hd _ _ _) _ _ _) _ _ _) _ _ _) _ _ _

theorem State.sparing_within {l : List Area} {s₀ s : State} (h : s₀.Within l s) (src r inst elem m l' bad)
    (hregs : Area.regs ∈ l := by assumption) : s₀.Within l (State.sparing s src r inst elem m l' bad) := by
  unfold State.sparing
  (try dsimp only)
  repeat' (first
    | (with_reducible first
      | exact h | assumption | apply State.within_ite | apply State.within_ite_fst | apply State.putFields_within
      | apply State.lwrErr_within)
    | split | (dsimp only; split) | (intro; intros)
    | (dsimp only))

theorem State.salCtl_within {l : List Area} {s₀ s : State} (h : s₀.Within l s) (src inst elem m l')
    (hregs : Area.regs ∈ l := by assumption) (hnet : Area.net ∈ l := by assumption)
    (hhelm : Area.helm ∈ l := by assumption) (hsal : Area.sal ∈ l := by assumption) : s₀.Within l
    (State.salCtl s src inst elem m l') := by
  unfold State.salCtl
  (try dsimp only)
  repeat' (first
    | (with_reducible first
      | exact h | assumption | apply State.within_ite | apply State.sparing_within | apply State.salIdle_within)
    | split | (dsimp only; split))

theorem State.hammer_within {l : List Area} {s₀ s : State} (h : s₀.Within l s) (src m l')
    (hregs : Area.regs ∈ l := by assumption) : s₀.Within l (State.hammer s src m l') := by
  unfold State.hammer
  (try dsimp only)
  repeat' (first
    | (with_reducible first
      | exact h | assumption | apply State.within_ite | apply State.within_ite_fst | apply State.sparing_within
      | apply State.setReg_within)
    | split | (dsimp only; split) | (intro; intros)
    | (dsimp only))

theorem State.wdogWritten_within {l : List Area} {s₀ s : State} (h : s₀.Within l s) (d p m t) (ht : s₀.Within l t)
    (hhelm : Area.helm ∈ l := by assumption) : s₀.Within l (State.wdogWritten s d p m t) := by
  unfold State.wdogWritten; split
  · rw [State.within_mk]
    apply State.WithinMk.of ht <;> first | exact Or.inl rfl | exact Or.inr (by assumption)
  · exact ht

theorem State.regWrite_within {l : List Area} {s₀ s : State} (h : s₀.Within l s) (src r i e m xs)
    (hregs : Area.regs ∈ l := by assumption) (hcores : Area.cores ∈ l := by assumption)
    (hnet : Area.net ∈ l := by assumption) (hhbm : Area.hbm ∈ l := by assumption) (hhbmc : Area.hbmc ∈ l := by assumption)
    (hxfers : Area.xfers ∈ l := by assumption) (hnextId : Area.nextId ∈ l := by assumption)
    (hctxs : Area.ctxs ∈ l := by assumption) (hports : Area.ports ∈ l := by assumption)
    (hhelm : Area.helm ∈ l := by assumption) (hpower : Area.power ∈ l := by assumption)
    (hfab : Area.fab ∈ l := by assumption) (hcfg : Area.cfg ∈ l := by assumption)
    (hvault : Area.vault ∈ l := by assumption) (hsal : Area.sal ∈ l := by assumption)
    (hmodule : Area.module ∈ l := by assumption) (hstart : Area.start ∈ l := by assumption)
    (htimer : Area.timer ∈ l := by assumption) (hfree : Area.free ∈ l := by assumption)
    (hout : Area.out ∈ l := by assumption) : s₀.Within l (State.regWrite s src r i e m xs) := by
  have d := State.putFields_within h i e m xs
  have w := State.lwrErr_within h src (r.offset i e)
  unfold State.regWrite; dsimp only
  split
  · exact State.ctxCmd_within h _ _ _
  · exact State.ringWritten_within h _ _ _ _ d
  · exact State.onlyIn_within h _ _ _ _ d
  · exact State.onlyIn_within h _ _ _ _ d
  · exact State.onlyIn_within h _ _ _ _ d
  · refine byPort_within h _ _ fun p t ht => ?_
    split at ht
    · exact execPkgStop_within h _ _ ht
    · exact execPkgRestart_within h _ _ ht
    · injection ht with ht; subst ht; exact State.within_ite h (State.violation_within h _)
  · exact State.leaseCmd_within h _ _
  · exact byPort_within h _ _ fun p t ht => execPartitionReset_within h _ _ _ ht
  · exact after_within h _ fun t ht => execPkgReset_within h _ _ _ ht
  · exact State.sparing_within h _ _ _ _ _ _ _
  · exact State.vfCtxWritten_within h _ _ _
  · exact after_within h _ fun t ht => execHbmFreqReq_within h _ _ _ _ ht
  · exact after_within h _ fun t ht => execHbmRetrainReq_within h _ _ _ _ ht
  · split
    · exact State.setReg_within h _ _ _
    · exact d
  · split
    · exact State.setReg_within h _ _ _
    · exact d
  · exact State.hammer_within h _ _ _
  · exact after_within h _ fun t ht => execClkRefSelWrite_within h _ _ _ _ ht
  · exact after_within h _ fun t ht => execClkSrcSelWrite_within h _ _ _ _ ht
  · exact after_within h _ fun t ht => execClkFabFreqWrite_within h _ _ _ _ ht
  · exact after_within h _ fun t ht => execClkMeasGo_within h _ _ _ _ ht
  · exact after_within h _ fun t ht => execClkOutCtlWrite_within h _ _ _ _ ht
  · exact after_within h _ fun t ht => execClkGateWrite_within h _ _ _ _ ht
  · split
    · exact w
    · exact d
  · exact after_within h _ fun t ht => execIntComplete_within h _ _ _ _ _ ht
  · exact after_within h _ fun t ht => execIntRaise_within h _ _ _ _ ht
  · exact after_within h _ fun t ht => execIntSrcWrite_within h _ _ _ _ _ ht
  · exact State.wdogWritten_within h _ _ _ _ d
  · exact State.salCtl_within h _ _ _ _ _
  · exact State.salCmd_within h _ _ _ _
  · split
    · exact w
    · exact State.txRun_within d _ _
  · exact after_within h _ fun t ht => execGpioShortClear_within h _ _ _ _ ht
  · split
    · exact w
    · exact d
  · exact after_within h _ fun t ht => execFlashWrite_within h _ _ _ _ ht
  · exact State.keyCmd_within h _ _ _ d
  · split
    · exact after_within h _ fun t ht => execFirmwareWrite_within h _ _ _ _ ht
    · exact d
  · exact d

theorem State.msixWritten_within {l : List Area} {s₀ s : State} (h : s₀.Within l s) (p key b len v)
    (hports : Area.ports ∈ l := by assumption) (hout : Area.out ∈ l := by assumption) : s₀.Within l
    (State.msixWritten s p key b len v) := by
  unfold State.msixWritten
  (try dsimp only)
  repeat' (first
    | (with_reducible first
      | exact h | assumption | apply State.WithinMk.of | exact Or.inl rfl | exact Or.inr (by assumption)
      | exact Or.inr ⟨by assumption, id⟩ | apply State.within_ite | apply State.modPort_within
      | apply State.msix_within | apply State.pbaFlush_within)
    | (simp only [State.within_mk]; (try dsimp only)) | split | (dsimp only; split) | (intro; intros))

theorem State.writePart_within {l : List Area} {s₀ s : State} (h : s₀.Within l s) (src v part)
    (hregs : Area.regs ∈ l := by assumption) (hcores : Area.cores ∈ l := by assumption)
    (hnet : Area.net ∈ l := by assumption) (hhbm : Area.hbm ∈ l := by assumption) (hhbmc : Area.hbmc ∈ l := by assumption)
    (hxfers : Area.xfers ∈ l := by assumption) (hnextId : Area.nextId ∈ l := by assumption)
    (hctxs : Area.ctxs ∈ l := by assumption) (hports : Area.ports ∈ l := by assumption)
    (hhelm : Area.helm ∈ l := by assumption) (hpower : Area.power ∈ l := by assumption)
    (hfab : Area.fab ∈ l := by assumption) (hcfg : Area.cfg ∈ l := by assumption)
    (hvault : Area.vault ∈ l := by assumption) (hsal : Area.sal ∈ l := by assumption)
    (hmodule : Area.module ∈ l := by assumption) (hstart : Area.start ∈ l := by assumption)
    (htimer : Area.timer ∈ l := by assumption) (hfree : Area.free ∈ l := by assumption)
    (hout : Area.out ∈ l := by assumption) : s₀.Within l (State.writePart s src v part) := by
  unfold State.writePart
  (try dsimp only)
  repeat' (first
    | (with_reducible first
      | exact h | assumption | apply State.within_ite | apply State.msixWritten_within
      | apply State.countDenied_within | apply State.lwrErr_within | apply State.regWrite_within)
    | split | (dsimp only; split) | (intro; intros))

theorem State.onParts_within {l : List Area} {s₀ s : State} (h : s₀.Within l s) (src parts act)
    (hact' : ∀ x0, s₀.Within l (act x0)) (hregs : Area.regs ∈ l := by assumption)
    (hports : Area.ports ∈ l := by assumption) (hout : Area.out ∈ l := by assumption) : s₀.Within l
    (State.onParts s src parts act) := by
  unfold State.onParts
  (try dsimp only)
  repeat' (first
    | (with_reducible first
      | exact h | assumption | apply hact' | apply State.unsupported_within | apply State.completerAbort_within
      | apply State.gateErr_within)
    | split | (dsimp only; split) | (intro; intros))

theorem State.onVf_within {l : List Area} {s₀ s : State} (h : s₀.Within l s) (src p vf act)
    (hact' : ∀ x0, s₀.Within l (act x0)) (hports : Area.ports ∈ l := by assumption) (hout : Area.out ∈ l := by assumption)
    : s₀.Within l (State.onVf s src p vf act) := by
  unfold State.onVf
  (try dsimp only)
  repeat' (first
    | (with_reducible first
      | exact h | assumption | apply State.within_ite | apply hact' | apply State.unsupported_within)
    | split | (dsimp only; split) | (intro; intros))

theorem State.barAccess_within {l : List Area} {s₀ s : State} (h : s₀.Within l s) (src sp off size act)
    (hact' : ∀ x0, s₀.Within l (act x0)) (hregs : Area.regs ∈ l := by assumption)
    (hports : Area.ports ∈ l := by assumption) (hout : Area.out ∈ l := by assumption) : s₀.Within l
    (State.barAccess s src sp off size act) := by
  unfold State.barAccess
  (try dsimp only)
  repeat' (first
    | (with_reducible first
      | exact h | assumption | apply hact' | apply State.onVf_within | apply State.onParts_within
      | apply State.unsupported_within)
    | split | (dsimp only; split) | (intro; intros))

theorem State.pageRead_within {l : List Area} {s₀ s : State} (h : s₀.Within l s) (via src x o size)
    (hregs : Area.regs ∈ l := by assumption) (hports : Area.ports ∈ l := by assumption)
    (hout : Area.out ∈ l := by assumption) : s₀.Within l (State.pageRead s via src x o size) := by
  unfold State.pageRead
  (try dsimp only)
  repeat' (first
    | (with_reducible first
      | exact h | assumption | apply State.onPage_within | apply State.send_within)
    | (intro; intros))

theorem State.pageWrite_within {l : List Area} {s₀ s : State} (h : s₀.Within l s) (via x o size value)
    (hregs : Area.regs ∈ l := by assumption) (hhbm : Area.hbm ∈ l := by assumption)
    (hhbmc : Area.hbmc ∈ l := by assumption) (hctxs : Area.ctxs ∈ l := by assumption)
    (hports : Area.ports ∈ l := by assumption) (hhelm : Area.helm ∈ l := by assumption)
    (hfree : Area.free ∈ l := by assumption) (hout : Area.out ∈ l := by assumption) : s₀.Within l
    (State.pageWrite s via x o size value) := by
  unfold State.pageWrite; dsimp only; split
  · exact State.doorbellPage_within h _ _ _ fun _ k => k
  · refine doIf_within ?_ _ _ fun t ht => execEventAck_within ?_ _ _ _ _ ht
    all_goals refine doIf_within ?_ _ _ fun t ht => execCqHead_within ?_ _ _ _ _ ht
    all_goals refine doIf_within ?_ _ _ fun t ht => execStreamArmDoorbell_within ?_ _ _ _ _ ht
    all_goals exact doIf_within h _ _ fun t ht => execSqTail_within h _ _ _ _ ht

theorem State.confWrite_within {l : List Area} {s₀ s : State} (h : s₀.Within l s) (p f v)
    (hregs : Area.regs ∈ l := by assumption) (hxfers : Area.xfers ∈ l := by assumption)
    (hctxs : Area.ctxs ∈ l := by assumption) (hports : Area.ports ∈ l := by assumption)
    (hout : Area.out ∈ l := by assumption) : s₀.Within l (State.confWrite s p f v) := by
  unfold State.confWrite
  (try dsimp only)
  repeat' (first
    | (with_reducible first
      | exact h | assumption | apply State.WithinMk.of | exact Or.inl rfl | exact Or.inr (by assumption)
      | exact Or.inr ⟨by assumption, id⟩ | apply State.within_ite | apply State.modPort_within
      | apply State.atsOff_within | apply State.flushAll_within | apply after_within | apply State.pbaFlush_within
      | apply State.aer_within | exact execVfEnable_within h _ _ _ _ (by assumption))
    | (simp only [State.within_mk]; (try dsimp only)) | split | (dsimp only; split) | (intro; intros)
    | (refine after_within h _ ?_))

theorem State.onConfig_within {l : List Area} {s₀ s : State} (h : s₀.Within l s) (p act) (hact' : s₀.Within l act)
    (hout : Area.out ∈ l := by assumption) : s₀.Within l (State.onConfig s p act) := by
  unfold State.onConfig
  (try dsimp only)
  repeat' (first
    | (with_reducible first
      | exact h | assumption | apply State.within_ite | apply hact' | apply State.send_within)
    | split | (dsimp only; split) | (intro; intros))

theorem execRegisterWrite_within {l : List Area} {s₀ s : State} (h : s₀.Within l s) (src place size value) (t)
    (ht : execRegisterWrite src place size value s = .next t) (hregs : Area.regs ∈ l := by assumption)
    (hcores : Area.cores ∈ l := by assumption) (hnet : Area.net ∈ l := by assumption)
    (hhbm : Area.hbm ∈ l := by assumption) (hhbmc : Area.hbmc ∈ l := by assumption)
    (hxfers : Area.xfers ∈ l := by assumption) (hnextId : Area.nextId ∈ l := by assumption)
    (hctxs : Area.ctxs ∈ l := by assumption) (hports : Area.ports ∈ l := by assumption)
    (hhelm : Area.helm ∈ l := by assumption) (hpower : Area.power ∈ l := by assumption)
    (hfab : Area.fab ∈ l := by assumption) (hcfg : Area.cfg ∈ l := by assumption)
    (hvault : Area.vault ∈ l := by assumption) (hsal : Area.sal ∈ l := by assumption)
    (hmodule : Area.module ∈ l := by assumption) (hstart : Area.start ∈ l := by assumption)
    (htimer : Area.timer ∈ l := by assumption) (hfree : Area.free ∈ l := by assumption)
    (hout : Area.out ∈ l := by assumption) : s₀.Within l t := by
  unfold execRegisterWrite at ht
  (try dsimp only at ht)
  injection ht with ht
  subst ht
  repeat' (first
    | (with_reducible first
      | exact h | assumption | apply State.within_foldl | apply State.within_foldl_fst | apply State.barAccess_within
      | apply State.writePart_within | apply State.onConfig_within | apply State.confWrite_within
      | apply State.pageWrite_within)
    | split | (dsimp only; split) | (intro; intros))

theorem execRegisterRead_within {l : List Area} {s₀ s : State} (h : s₀.Within l s) (src place size) (t)
    (ht : execRegisterRead src place size s = .next t) (hregs : Area.regs ∈ l := by assumption)
    (hports : Area.ports ∈ l := by assumption) (hhelm : Area.helm ∈ l := by assumption)
    (hout : Area.out ∈ l := by assumption) : s₀.Within l t := by
  unfold execRegisterRead at ht
  (try dsimp only at ht)
  injection ht with ht
  subst ht
  repeat' (first
    | (with_reducible first
      | exact h | assumption | apply State.barAccess_within | apply State.readParts_within | apply State.send_within
      | apply State.onConfig_within | apply State.pageRead_within)
    | split | (dsimp only; split) | (intro; intros)
    | (dsimp only))

end Sys2Proof.Machine
end

