-- ==== Sys2Proof/Tests/Slice0.lean ====
section
/-! SUPPORT. Small tests of the model, and for every statement a witness: a concrete state and operands that meet the
hypotheses of each of its clauses. -/

namespace Sys2Proof.Tests

set_option Elab.async false
set_option linter.all false

open Sys2Proof.Machine

/-! ## Helpers -/

/-- The state after reset. -/
def s0 : State := State.reset

/-- Register fields put in a state. -/
def withRegs (s : State) (l : List ((Fld × Nat) × Nat)) : State :=
  l.foldl (fun s e => s.setReg e.1.1 e.1.2 e.2) s

/-- An instruction word: its opcode and the rest of its bits. -/
def ins (o rest : Nat) : W32 := BitVec.ofNat 32 (o * 2 ^ 26 + rest)

/-- A core that runs a program of the given words from PC 0. -/
def running (l : List W32) : Core :=
  { Core.reset with run := .running, plen := l.length, ibuf := (l.zipIdx).foldl (fun v e => vset v e.2 e.1) Core.reset.ibuf }

/-- The state with core 0 running one word. -/
def at0 (w : W32) : State := s0.setCore 0 (running [w])

/-- `State.Ready` as a Boolean. -/
def readyB (s : State) (c o : Nat) (w : W32) : Bool :=
  !s.braked c && decide ((s.core c).run = .running) &&
    (decide ((s.core c).stop = .none) || decide ((s.core c).stop = .latched)) &&
    decide ((s.core c).waits = []) && decide ((s.core c).deferred = []) && decide ((s.core c).pc < (s.core c).plen) &&
    decide (vget (s.core c).ibuf (s.core c).pc 0 = w) && decide (opc w = o) && !(s.core c).suppressed &&
    !reservedField w && !(s.core c).hazard w

theorem ready_of (s : State) (c : CoreAddr) (o : Nat) (w : W32) (h : readyB s c.toNat o w = true) : s.Ready c o w := by
  simp only [readyB, Bool.and_eq_true, Bool.or_eq_true, Bool.not_eq_true', decide_eq_true_eq] at h
  obtain ⟨⟨⟨⟨⟨⟨⟨⟨⟨⟨h1, h2⟩, h3⟩, h4⟩, h5⟩, h6⟩, h7⟩, h8⟩, h9⟩, h10⟩, h11⟩ := h
  exact ⟨h1, h2, h3, ⟨h4, h5⟩, h6, h7, h8, h9, h10, h11⟩

/-- Every word of a list issues on core 0 under its opcode. -/
theorem ready_all (l : List (Nat × W32)) (h : l.all (fun e => readyB (at0 e.2) 0 e.1 e.2) = true) :
    ∀ e ∈ l, (at0 e.2).Ready 0 e.1 e.2 := fun e he => ready_of _ 0 _ _ (List.all_eq_true.mp h e he)

/-- The state with core 0 running a program of the given words. -/
def prog (l : List W32) : State := s0.setCore 0 (running l)

/-- A state with its core 0 changed. -/
def core0 (s : State) (f : Core → Core) : State := s.modCore 0 f

/-- Context `x` in a state, OPEN or beyond, that holds every core of the module. -/
def holding (s : State) (x : Nat) : State :=
  (withRegs s [((.CTX_CORES_VALID, x * 8), 1), ((.CTX_CORES_LEVEL, x * 8), 10), ((.CTX_CORES_BASE, x * 8), 0)]).modCtx x
    (fun t => { t with holds := true })

/-- A packet with nothing in it but a command, a context and its data. -/
def pkt (cmd : BitVec 8) (ctx : BitVec 10) (data : List Unit16) : Packet where
  up := 1
  target := 0
  cmd := cmd
  ctx := ctx
  count := BitVec.ofNat 6 data.length
  tag := 0
  var := 0
  routes := 0
  src := 1
  skind := 0
  tkind := 0
  t := false
  cnt := false
  ack := false
  bulk := false
  ext := false
  xu := 0
  data := data

/-- The state with a packet standing at an endpoint. -/
def at_ (s : State) (e : Ep) (p : Packet) : State := s.fly p (.at_ e)

/-- A packet for entry `i` of hub 0. -/
def hubPkt (i : Nat) (cmd : BitVec 8) (data : List Unit16) : Packet :=
  { pkt cmd 0 data with target := BitVec.ofNat 20 i, tkind := 2 }

/-- `State.Admits` for core 0 as a Boolean. -/
def admitsB (s : State) (p : Packet) : Bool :=
  decide (p.target = 0) && decide (p.tkind = 0) && s.standsAt (.core 0) p && s.coreTakes 0 &&
    decide (s.coreRefuses 0 p.ctx.toNat = none)

theorem admits_of (s : State) (p : Packet) (h : admitsB s p = true) : s.Admits 0 p := by
  simp only [admitsB, Bool.and_eq_true, decide_eq_true_eq] at h
  obtain ⟨⟨⟨⟨h1, h2⟩, h3⟩, h4⟩, h5⟩ := h
  exact ⟨⟨h1, h2⟩, h3, h4, h5⟩

/-- A packet of context 0 that stands at core 0 is admitted by it. -/
def arrived (p : Packet) : State := at_ s0 (.core 0) p

/-- HBM stacks 0 and 1 in READY with their controllers' loop locked, processors of die 0 and die 7 in order 3's end. -/
def hbmUp (s : State) : State :=
  withRegs s [((.HBM_STATE_STATE, 0), 2), ((.HBM_STATE_STATE, 1), 2), ((.CLK_SRC_STAT_LOCK, 0), 63), ((.CLK_GATE_HBM, 0), 3)]

/-- Both ports ready. -/
def portsUp (s : State) : State :=
  { s with ports := [(0, { PortS.reset with ready := true }), (1, { PortS.reset with ready := true })] }

/-- The Helm processors run: order 3 of the start has ended. -/
def helmUp (s : State) : State := { s with start := { s.start with done := .p3 :: s.start.done } }

/-- Context 1 of port 0 in a state, the ports ready and two processors running. -/
def ctx1 (st : Nat) : State :=
  withRegs (helmUp (portsUp { s0 with ctxs := [(1, Ctx.reset)] })) [((.CTX_STATE_OWNER, 1), 1), ((.CTX_STATE_STATE, 1), st)]

/-- A descriptor from its fields: first byte and value. -/
def desc (l : List (Nat × Nat)) : BitVec 512 := BitVec.ofNat 512 ((l.map (fun e => e.2 * 2 ^ (8 * e.1))).sum)

/-- A copy that has been fetched and not begun. -/
def copyOf (d : BitVec 512) : Copy := ⟨0, d, false, false, none, none, [], none, none, 0, false⟩

/-- The RUNNING context 1 with one copy. -/
def ready1 (c : Copy) : State := (ctx1 2).modCtx 1 (fun t => { t with copies := [c] })

/-- `State.Begins` for copy 0 of context 1 as a Boolean. -/
def beginsB (s : State) (op : Nat) (c : Copy) : Bool :=
  decide ((s.ctx 1).copy? 0 = some c) && decide (dOp c.bytes = op) && s.eligible 1 c && !s.heldFull 1 && !badMember c

theorem begins_of (s : State) (op : Nat) (c : Copy) (h : beginsB s op c = true) : s.Begins 1 0 op c := by
  simp only [beginsB, Bool.and_eq_true, Bool.not_eq_true', decide_eq_true_eq] at h
  obtain ⟨⟨⟨⟨h1, h2⟩, h3⟩, h4⟩, h5⟩ := h
  exact ⟨h1, h2, h3, h4, h5⟩

/-- `State.Rings` for context 1 as a Boolean. -/
def ringsB (s : State) (via : Via) : Bool :=
  decide (s.reaches (.port (viaPort via)) = .granted) && s.pageNamed 1 via && s.owns (viaPort via) 1 && decide (s.cst 1 ≠ 0)

theorem rings_of (s : State) (via : Via) (h : ringsB s via = true) : s.Rings via 1 := by
  simp only [ringsB, Bool.and_eq_true, decide_eq_true_eq] at h
  obtain ⟨⟨⟨h1, h2⟩, h3⟩, h4⟩ := h
  exact ⟨h1, h2, h3, h4⟩

/-- A transfer of context 1 from host memory at 0 to host memory at 0x1000, 16 bytes in one piece. -/
def hostXfer : Xfer where
  id := 0
  ctx := 1
  role := .desc 0
  half := 0
  eng := 0
  src := specOf 0
  dst := specOf 0x1000
  plan := .shape (oneRun 16)
  ix := [0, 0, 0, 0]
  i0 := 0
  pieces := []
  nextN := 0
  writes := []
  hostOut := []
  srcLeft := []
  dstLeft := []
  woke := false
  rank := 7
  failed := false
  hold := .none
  tries := 0
  t0 := 0
  deadline := 0
  late := false
  tag := 0
  egrS := none
  egr := none
  grp := none

/-- The RUNNING context 1 with one transfer in service. -/
def moving (u : Xfer) : State := { ctx1 2 with xfers := [u], nextId := 1 }

/-- The shape block of one run of 16 bytes. -/
def shape16 : List Byte :=
  16 :: List.replicate 31 0 ++ (List.replicate 4 (1 :: List.replicate 23 0)).flatten

/-- An open group of context 1. -/
def group (st : GrpSt) : Grp := ⟨0, 0, 0, st, false, [], none, [], [], [], [], [], none, false, 0, 0, [], 7, 0, 0⟩

/-- `State.Commands` of port 0 to context 1 as a Boolean. -/
def commandsB (s : State) (st : Nat) : Bool :=
  decide (s.access (.port 0) .CTX_CMD 1 0 true = .granted) && s.owns 0 1 && !s.isBusy 1 && decide (s.cst 1 = st)

theorem commands_of (s : State) (st : Nat) (h : commandsB s st = true) : s.Commands 0 1 st := by
  simp only [commandsB, Bool.and_eq_true, Bool.not_eq_true', decide_eq_true_eq] at h
  obtain ⟨⟨⟨h1, h2⟩, h3⟩, h4⟩ := h
  exact ⟨h1, by decide, h2, h3, h4⟩

/-- A sound description of context 1: 128 MiB of HBM, its control areas apart inside them. -/
def soundRegs : List ((Fld × Nat) × Nat) :=
  [((.CTX_HBM_VALID, 16), 1), ((.CTX_HBM_BASE, 16), 0), ((.CTX_HBM_SIZE, 16), 64), ((.CTX_AREA_FIX_BASE, 1), 0), ((.CTX_AREA_FIX_N, 1), 1),
   ((.CTX_AREA_HELD_BASE, 1), 2 ^ 26), ((.CTX_AREA_HELD_SIZE, 1), 1), ((.CTX_AREA_LOG_BASE, 1), 2 ^ 26 + 2 ^ 20), ((.CTX_AREA_LOG_SIZE, 1), 1)]

/-- Port 0 holds the setup lease, and the package is in a state. -/
def leased (st : Nat) (s : State) : State := withRegs (helmUp (portsUp s)) [((.PKG_LEASE_HOLDER, 0), 1), ((.PKG_STATE_STATE, 0), st)]

/-- The fabric of die 0 running, region 0 configured, its Mask open or closed. -/
def fabUp (open_ : Bool) (s : State) : State :=
  withRegs { s with fab := { s.fab with regions := [(0, ⟨open_, false, true, []⟩)] } } [((.CLK_GATE_FAB, 0), 1)]

/-- Sallan port 0 of die 0 live and enabled, in a state of SAL_PORT_STAT. -/
def salAt (st : Nat) (s : State) : State :=
  withRegs { s with start := { s.start with done := .p5 :: s.start.done } }
    [((.CLK_GATE_SALLAN, 0), 1), ((.SAL_PORT_CTL_EN, 0), 1), ((.SAL_PORT_STAT_STATE, 0), st)]

/-- A packet to another package that stands at the gateway of that port, or that has come from one. -/
def extPkt (dpkg : Nat) (inbound : Bool) : Packet :=
  { pkt cWRITE 0 [1] with ext := true, xu := extUnit dpkg 7 0 0 inbound }

/-- The first 2 MiB of HBM as area 0 of context 1, its control areas beyond. -/
def areaRegs8 : List ((Fld × Nat) × Nat) :=
  [((.CTX_HBM_VALID, 16), 1), ((.CTX_HBM_BASE, 16), 0), ((.CTX_HBM_SIZE, 16), 1), ((.CTX_AREA_FIX_BASE, 1), 2 ^ 21)]

/-- Context 1 RUNNING with that area. -/
def holdingHbm (s : State) : State :=
  withRegs { s with ctxs := [(1, Ctx.reset)] } (((.CTX_STATE_STATE, 1), 2) :: areaRegs8)

/-! ## The block -/

theorem witness_stepRunsFrontCommand : ({ s0 with pending := [.pkgStopped, .state] } : State).pending = .pkgStopped :: [.state] := rfl

theorem witness_idleStepPassesTime :
    s0.pending = [] ∧ s0.module.off = false ∧ s0.framedRegions = [] ∧ ({ s0 with module := { s0.module with off := true } } : State).module.off = true := by
  decide

theorem witness_stepKeepsCanonical : s0.Canonical ∧ (∃ t, step s0 = .next t) ∧
    ({ s0 with hbm := [(0, 1), (7, 255)] } : State).Canonical := by
  exact ⟨⟨by decide, by decide, by decide⟩, ⟨_, rfl⟩, ⟨by decide, by decide, by decide⟩⟩

theorem witness_vaultOnlyMovesOn : ∃ t, step s0 = .next t := ⟨_, rfl⟩

theorem witness_hbmReadAfterWrite : Memory.wf [] = true ∧ Memory.wf [(0, 1), (2 ^ 40, 255)] = true ∧
    Memory.wf [(3, 0)] = false ∧ Memory.wf [(4, 1), (3, 1)] = false := by decide

/-! ## Core instructions -/

/-- Words of the scalar instructions, each under its opcode, the variants of a field at both ends. -/
def scalarWords : List (Nat × W32) :=
  [(0x00, 0), (0x01, ins 1 0), (0x01, ins 1 7), (0x01, ins 1 8), (0x01, ins 1 12), (0x02, ins 2 0), (0x02, ins 2 (12 * 2 ^ 14)),
   (0x03, ins 3 0xFFFF), (0x03, ins 3 0x1FFFF), (0x05, ins 5 0), (0x06, ins 6 0), (0x07, ins 7 0), (0x08, ins 8 0), (0x09, ins 9 0),
   (0x0A, ins 10 63), (0x0B, ins 11 4), (0x0B, ins 11 5), (0x0B, ins 11 6), (0x0C, ins 12 0), (0x0C, ins 12 1),
   (0x0C, ins 12 2), (0x0C, ins 12 9), (0x0D, ins 13 0), (0x0D, ins 13 1), (0x0E, ins 14 0),
   (0x0E, ins 14 15), (0x0F, ins 15 0)]

theorem witness_scalarInstructionsComplete : ∀ e ∈ scalarWords, (at0 e.2).Ready 0 e.1 e.2 :=
  ready_all _ (by decide +kernel)

theorem test_readyB : readyB (at0 0xFFFFFFFF) 0 0 0xFFFFFFFF = false := by decide +kernel

/-- A LOOP over one instruction, its count 1. -/
def loopWord : W32 := ins 0x10 (2 ^ 8 + 1)

theorem witness_controlInstructionsComplete :
    ((prog [ins 4 0]).Ready 0 0x04 (ins 4 0) ∧ condHolds (wf (ins 4 0) 23 3) 0 0 = true ∧ wf (ins 4 0) 0 8 < 1) ∧
    ((prog [ins 4 (2 ^ 23)]).Ready 0 0x04 (ins 4 (2 ^ 23)) ∧ condHolds (wf (ins 4 (2 ^ 23)) 23 3) 0 0 = false) ∧
    ((prog [loopWord, 0]).Ready 0 0x10 loopWord ∧ ((prog [loopWord, 0]).core 0).tick.loopError loopWord = false ∧
      wf loopWord 24 1 = 0 ∧ wf loopWord 23 1 = 0 ∧ wf loopWord 8 9 ≠ 0) ∧
    ((at0 (ins 0x11 0)).Ready 0 0x11 (ins 0x11 0) ∧ (at0 (ins 0x11 0)).yieldMode 0 = false) ∧
    (let s := withRegs (core0 (holding (at0 (ins 0x11 5)) 1) (fun k => { k with stop := .latched })) [((.CTX_PREEMPT_MODE, 1), 1)]
     s.Ready 0 0x11 (ins 0x11 5) ∧ s.yieldMode 0 = true ∧ (s.core 0).tick.stop = .latched) ∧
    (let s := at0 (ins 0x12 0)
     s.Ready 0 0x12 (ins 0x12 0) ∧ (s.core 0).tick.sq = [] ∧ (s.core 0).tick.cPipe = [] ∧ (s.core 0).tick.wb = [] ∧
      (s.modCore 0 Core.tick).outbound 0 = [] ∧ (s.core 0).tick.startInfo = none) ∧
    (let w := ins 0x10 1
     (prog [w, 0]).Ready 0 0x10 w ∧ ((prog [w, 0]).core 0).tick.loopError w = false ∧ wf w 23 1 = 0 ∧ wf w 8 9 = 0) ∧
    (let s := (at0 (ins 0x12 0)).fly { pkt cWRITE 0 [1] with src := 0 } (.out (.core 0))
     s.Ready 0 0x12 (ins 0x12 0) ∧ (s.modCore 0 Core.tick).outbound 0 ≠ []) :=
  ⟨⟨ready_of _ 0 _ _ (by decide +kernel), by decide +kernel⟩, ⟨ready_of _ 0 _ _ (by decide +kernel), by decide +kernel⟩,
    ⟨ready_of _ 0 _ _ (by decide +kernel), by decide +kernel⟩, ⟨ready_of _ 0 _ _ (by decide +kernel), by decide +kernel⟩,
    ⟨ready_of _ 0 _ _ (by decide +kernel), by decide +kernel⟩, ⟨ready_of _ 0 _ _ (by decide +kernel), by decide +kernel⟩,
    ⟨ready_of _ 0 _ _ (by decide +kernel), by decide +kernel⟩, ⟨ready_of _ 0 _ _ (by decide +kernel), by decide +kernel⟩⟩

theorem witness_instructionFaults :
    (let j := (prog []).core 0
     (prog []).braked 0 = false ∧ j.run = .running ∧ j.stop = .none ∧ j.waits = [] ∧ j.deferred = [] ∧ j.plen ≤ j.pc) ∧
    (let w := ins 0x13 0
     let j := (prog [w]).core 0
     (prog [w]).braked 0 = false ∧ j.run = .running ∧ j.stop = .none ∧ j.waits = [] ∧ j.deferred = [] ∧ j.pc < j.plen ∧
      vget j.ibuf j.pc 0 = w ∧ listedOpcode (opc w) = false ∧ j.suppressed = false ∧ reservedField w = true) ∧
    ((prog [ins 4 1]).Ready 0 0x04 (ins 4 1) ∧ condHolds (wf (ins 4 1) 23 3) 0 0 = true ∧ 1 ≤ wf (ins 4 1) 0 8) ∧
    ((prog [loopWord]).Ready 0 0x10 loopWord ∧ ((prog [loopWord]).core 0).tick.loopError loopWord = true) ∧
    ((at0 (ins 0x31 (31 * 2 ^ 21))).Ready 0 0x31 (ins 0x31 (31 * 2 ^ 21)) ∧ rValid (vget Core.reset.routes 31 0) = false) :=
  ⟨by decide +kernel, by decide +kernel, ⟨ready_of _ 0 _ _ (by decide +kernel), by decide +kernel⟩,
    ⟨ready_of _ 0 _ _ (by decide +kernel), by decide +kernel⟩, ⟨ready_of _ 0 _ _ (by decide +kernel), by decide +kernel⟩⟩

/-- A state whose core 0 runs one word with every tag FULL. -/
def fullTags (w : W32) : State := core0 (at0 w) (fun k => { k with tags := Vector.replicate 64 true })

theorem witness_slotInstructionsComplete :
    ((at0 (ins 0x14 0)).Ready 0 0x14 (ins 0x14 0) ∧ wf (ins 0x14 0) 18 1 = 0) ∧
    (let w := ins 0x14 (2 ^ 18)
     (fullTags w).Ready 0 0x14 w ∧ ((fullTags w).core 0).full (((fullTags w).core 0).slotRow w) = true) ∧
    (let w := ins 0x14 (2 ^ 18)
     (at0 w).Ready 0 0x14 w ∧ wf w 18 1 = 1 ∧ ((at0 w).core 0).full (((at0 w).core 0).slotRow w) = false) ∧
    (let w := ins 0x15 (2 ^ 18)
     (at0 w).Ready 0 0x15 w ∧ ((at0 w).core 0).full (((at0 w).core 0).slotRow w) = false) ∧
    ((at0 (ins 0x15 0)).Ready 0 0x15 (ins 0x15 0) ∧ wf (ins 0x15 0) 18 1 = 0) ∧
    (at0 (ins 0x16 63)).Ready 0 0x16 (ins 0x16 63) ∧ (at0 (ins 0x17 63)).Ready 0 0x17 (ins 0x17 63) ∧
    (let w := ins 0x15 (2 ^ 18)
     let s := core0 (at0 w) (fun k => { k with waits := [.seq] })
     let j := s.core 0
     s.braked 0 = false ∧ s.killing 0 = false ∧ j.waits = [.seq] ∧ j.deferred = [] ∧ j.run = .running ∧ j.stop = .none ∧ vget j.ibuf j.pc 0 = w ∧ opc w = 0x15 ∧
      wf w 18 1 = 1 ∧ j.full (j.slotRow w) = false) ∧
    (let w := ins 0x15 0
     let s := core0 (at0 w) (fun k => { k with deferred := [.seq] })
     let j := s.core 0
     s.braked 0 = false ∧ s.killing 0 = false ∧ j.deferred = [.seq] ∧ j.run = .running ∧ j.stop = .none ∧ vget j.ibuf j.pc 0 = w ∧ opc w = 0x15 ∧
      wf w 18 1 = 0) :=
  ⟨⟨ready_of _ 0 _ _ (by decide +kernel), by decide +kernel⟩, ⟨ready_of _ 0 _ _ (by decide +kernel), by decide +kernel⟩,
    ⟨ready_of _ 0 _ _ (by decide +kernel), by decide +kernel⟩, ⟨ready_of _ 0 _ _ (by decide +kernel), by decide +kernel⟩,
    ⟨ready_of _ 0 _ _ (by decide +kernel), by decide +kernel⟩, ready_of _ 0 _ _ (by decide +kernel),
    ready_of _ 0 _ _ (by decide +kernel), by decide +kernel, by decide +kernel⟩

theorem witness_slotStoreRow : wf (ins 0x15 0) 16 1 = 0 ∧ wf (ins 0x15 0) 18 1 = 0 := by decide

/-- A core that runs, its matrix engine's queue holding one word. -/
def queued (w : W32) : Core := { running [0] with sq := [⟨w, 0, 1⟩] }

theorem witness_matrixCommandsComplete :
    (∀ e ∈ [(0x18, ins 0x18 0), (0x19, ins 0x19 0), (0x1A, ins 0x1A 0), (0x1B, ins 0x1B 0)],
      (at0 e.2).Ready 0 e.1 e.2 ∧ ((at0 e.2).core 0).tick.sq.length < 4) ∧
    (let s := s0.setCore 0 (queued (ins 0x18 0))
     ((s.core 0).headOp s.freeVal).isSome = true ∧ s.engineRuns 0 = true ∧ (s.core 0).waits = [] ∧
      (s.core 0).deferred = [] ∧ (s.core 0).stageFree = true ∧ (s.core 0).got = [] ∧ (s.core 0).streamBlocked = false) ∧
    (let s := s0.setCore 0 { running [0] with cPipe := [⟨0, false, 0, []⟩] }
     s.braked 0 = false ∧ (s.core 0).run = .running ∧ (s.core 0).cPipe = ⟨0, false, 0, []⟩ :: []) ∧
    (let s := s0.setCore 0 (queued (ins 0x1A 0))
     s.engineRuns 0 = true ∧ (s.core 0).sq = ⟨ins 0x1A 0, 0, 1⟩ :: [] ∧ opc (ins 0x1A 0) = 0x1A ∧ (s.core 0).cPipe = []) := by
  refine ⟨fun e he => ⟨ready_all [(0x18, ins 0x18 0), (0x19, ins 0x19 0), (0x1A, ins 0x1A 0), (0x1B, ins 0x1B 0)]
    (by decide +kernel) e he, ?_⟩, by decide +kernel, by decide +kernel, by decide +kernel⟩
  revert e; decide +kernel

/-- Words of the vector instructions, each under its opcode, in every lane format and with the variants of VCVT and VSRCH. -/
def vectorWords : List (Nat × W32) :=
  [(0x20, ins 0x20 0), (0x20, ins 0x20 (3 * 2 ^ 8)), (0x21, ins 0x21 0), (0x22, ins 0x22 0), (0x23, ins 0x23 0), (0x24, ins 0x24 0),
   (0x25, ins 0x25 0), (0x26, ins 0x26 0), (0x27, ins 0x27 0), (0x28, ins 0x28 0), (0x29, ins 0x29 0), (0x2A, ins 0x2A 0),
   (0x2A, ins 0x2A 16), (0x2A, ins 0x2A (2 ^ 6)), (0x2B, ins 0x2B 0), (0x2C, ins 0x2C 0), (0x2D, ins 0x2D 0), (0x2E, ins 0x2E 0), (0x2E, ins 0x2E 2),
   (0x2E, ins 0x2E (3 * 2 ^ 8))]

theorem witness_vectorInstructionsComplete :
    (∀ e ∈ vectorWords, (at0 e.2).Ready 0 e.1 e.2) ∧ wf (ins 0x2A 0) 4 1 = 0 ∧ wf (ins 0x2A 0) 6 1 = 0 ∧
    wf (ins 0x2A 16) 4 1 = 1 ∧ wf (ins 0x2A (2 ^ 6)) 6 1 = 1 ∧ wf (ins 0x2A (2 ^ 6)) 0 4 ≤ 1 ∧ wf (ins 0x2E 2) 1 1 = 1 ∧
    (laneFmt (fLF (ins 0x27 0))).info.isSome = true ∧
    (running []).skindInt = decide (laneFmt (fLF (ins 0x2E 0)) = .int16) ∧
    (running []).skindInt ≠ decide (laneFmt (fLF (ins 0x2E (3 * 2 ^ 8))) = .int16) ∧
    (let s := s0.setCore 0 { running [0] with wb := [.gen 0 1] }
     s.braked 0 = false ∧ (s.core 0).wb[0]? = some (.gen 0 1)) :=
  ⟨ready_all _ (by decide +kernel), by decide +kernel⟩

theorem witness_vectorLaneResults : ∀ n, n < 4 → 0 < lanes (laneFmt n) ∧ lanes (laneFmt n) ≤ 16 := by decide

/-- A state whose core 0 runs one word, its route entries all valid. -/
def routed (w : W32) : State :=
  core0 (at0 w) (fun k => { k with routes := Vector.replicate 32 (BitVec.ofNat 128 (2 ^ 60)) })

/-- A state whose core 0 runs one word and has general register 1 at 1. -/
def oneIn1 (w : W32) : State := core0 (at0 w) (fun k => k.setG 1 1)

theorem witness_sendInstructionsComplete :
    (let s := routed (ins 0x30 0)
     s.Ready 0 0x30 (ins 0x30 0) ∧ rValid (vget (s.core 0).tick.routes 0 0) = true ∧
      ((s.modCore 0 Core.tick).outbound 0).length < 4 ∧ (s.core 0).tick.sendReady (ins 0x30 0) = true ∧ wf (ins 0x30 0) 6 1 = 0) ∧
    (let w := ins 0x31 (31 * 2 ^ 21)
     (routed w).Ready 0 0x31 w ∧ rValid (vget ((routed w).core 0).tick.routes (wf w 21 5) 0) = true ∧
      (((routed w).modCore 0 Core.tick).outbound 0).length < 4) ∧
    (let w := ins 0x33 0
     (routed w).Ready 0 0x33 w ∧ rValid (vget ((routed w).core 0).tick.routes (wf w 21 5) 0) = true ∧
      (((routed w).modCore 0 Core.tick).outbound 0).length < 4) ∧
    (∀ o ∈ [0x32, 0x34], (at0 (ins o 0)).Ready 0 o (ins o 0) ∧ (oneIn1 (ins o (2 ^ 18))).Ready 0 o (ins o (2 ^ 18))) ∧
    (((oneIn1 (ins 0x32 (2 ^ 18))).core 0).tick.greg (fS (ins 0x32 (2 ^ 18)))).toNat = 1 := by
  refine ⟨⟨ready_of _ 0 _ _ (by decide +kernel), by decide +kernel⟩, ⟨ready_of _ 0 _ _ (by decide +kernel), by decide +kernel⟩,
    ⟨ready_of _ 0 _ _ (by decide +kernel), by decide +kernel⟩, fun o ho => ?_, by decide +kernel⟩
  refine ⟨ready_of _ 0 _ _ ?_, ready_of _ 0 _ _ ?_⟩ <;> (revert o; decide +kernel)

theorem witness_stopsComplete :
    (let s := withRegs (s0.setCore 0 (queued (ins 0x1A 0))) [((.YLD_STAGE_WDOG_LIMIT, 0), 1), ((.YLD_STAGE_WDOG_REPORT_ONLY, 0), 1)]
     s.reg .YLD_STAGE_WDOG_LIMIT 0 ≠ 0 ∧ s.braked 0 = false ∧ (s.core 0).run = .running ∧ (s.core 0).atWork = true ∧ s.reg .YLD_STAGE_WDOG_REPORT_ONLY 0 = 1) ∧
    (let s := withRegs (s0.setCore 0 (queued (ins 0x1A 0))) [((.YLD_STAGE_WDOG_LIMIT, 0), 1)]
     s.reg .YLD_STAGE_WDOG_LIMIT 0 ≠ 0 ∧ s.braked 0 = false ∧ (s.core 0).run = .running ∧ (s.core 0).atWork = true ∧ s.reg .YLD_STAGE_WDOG_REPORT_ONLY 0 ≠ 1) ∧
    (let s := core0 (at0 0) (fun k => { k with stop := .latched })
     (s.core 0).stop = .latched ∧ s.braked 0 = false ∧ s.yieldMode 0 = false) ∧
    (let s := hbmUp <| (core0 (holding (at0 0) 1) (fun k => { k with stop := .taken false 15 })).modCtx 1 (fun t => { t with busy := .pausing })
     s.holder 0 = some 1 ∧ (s.core 0).stop = .taken false 15 ∧ (s.ctx 1).busy = .pausing ∧ (s.core 0).saved = false ∧
      s.braked 0 = false ∧ (s.core 0).run = .running ∧ s.quiet 0 = true ∧
      s.hbmWaits (s.imageAt 1 0) 5120 = false) := by
  decide +kernel

theorem witness_coreInstructionFrame : ∀ f, ((at0 0).core 0).grant 0 ≠ .fault f := by
  have h : ((at0 0).core 0).grant 0 = .go 0 := by decide +kernel
  intro f hf; rw [h] at hf; cases hf

/-! ## Packets at cores and the Rose -/

theorem witness_coreAccessesComplete :
    (∀ p ∈ [pkt cWRITE 0 [1], { pkt cWRITE 0 [1] with cnt := true, var := 0xFF }, pkt cWRITE 0 [], { pkt cWRITE 0 [] with cnt := true },
        pkt cMASK 0 [1, 2, 3, 4, 0xFF], { pkt cREAD 0 [] with count := 16 }],
      (arrived p).Admits 0 p ∧ p.t = false ∧ ((arrived p).core 0).saved = false ∧ ((arrived p).core 0).inq = [] ∧
        ((arrived p).core 0).deferred = [] ∧ ((arrived p).core 0).waits = [] ∧ ((arrived p).core 0).rdGot = [] ∧ p.ext = false) ∧
    (pkt cMASK 0 [1, 2, 3, 4, 0xFF]).data.length = 5 ∧ partialWords (pByteMask (pkt cMASK 0 [1, 2, 3, 4, 0xFF])) = 0 := by
  refine ⟨fun p hp => ⟨admits_of _ _ ?_, ?_⟩, by decide +kernel⟩ <;> (revert p; decide +kernel)

/-- A START of a program of 65 words, which takes two blocks. -/
def startPkt : Packet := { pkt cSTART 0 [] with var := 64 }

theorem witness_programPacketsComplete :
    (∀ p ∈ [pkt cIBUF 0 (List.replicate 16 1), pkt cROUTE 0 [1], pkt cSTART 0 [], pkt cSTOP 0 [], pkt cTALLY 0 [tallyUnit 1 1 0 0]],
      (arrived p).Admits 0 p) ∧
    ((arrived (pkt cSTOP 0 [])).core 0).run = .idle ∧ ((arrived (pkt cSTOP 0 [])).core 0).stop = .none ∧
    (let s := s0.setCore 0 { Core.reset with load := ⟨some startPkt, [1, 0], 0, []⟩ }
     (s.core 0).load.held = some startPkt ∧ (s.core 0).loadReady startPkt = true ∧ s.coreTakes 0 = true ∧ s.coreRefuses 0 0 = none) ∧
    (let s := s0.setCore 0 { Core.reset with load := ⟨some startPkt, [0], 0, []⟩ }
     (s.core 0).loadReady startPkt = false) := by
  refine ⟨fun p hp => admits_of _ _ ?_, by decide +kernel⟩
  revert p; decide +kernel

theorem witness_responsesComplete :
    (∀ p ∈ [hubPkt 1 cRDATA [], hubPkt 4 cDONE [1], hubPkt 1 cANSWER [1], hubPkt 0x0D cFAULT []],
      addrEp p.target p.tkind = .hub 0 p.target.toNat ∧ (at_ s0 (.hub 0 p.target.toNat) p).standsAt (.hub 0 p.target.toNat) p = true) ∧
    (let p := pkt cANSWER 0 [tallyUnit 0 0 1 0]
     (arrived p).Admits 0 p ∧ tallyField p 2 = 1 ∧ tallyField p 0 = 0 ∧ tallyField p 3 = 0) := by
  refine ⟨by decide +kernel, admits_of _ _ (by decide +kernel), by decide +kernel⟩

theorem witness_routersForward :
    (let f : Flight := ⟨{ pkt cWRITE 0 [1] with up := 2 }, .up 1 0 0, false, none⟩
     let s := { s0 with net := { s0.net with flights := [f] } }
     s.net.flights[0]? = some f ∧ routerOf f.loc = some (1, 0) ∧ s.routerHeld 1 0 = false ∧ behind s.net.flights 0 f = false ∧
      tallyClass f.pkt = false ∧ f.left = none ∧ s.hop f = some (.go [(f.pkt, .up 2 0 0)]) ∧
      s.starts 1 0 (f.pkt, .up 2 0 0) = true) ∧
    (let f : Flight := ⟨{ pkt cWRITE 0 [1] with up := 2 }, .out (.core 1), false, none⟩
     let s := { s0 with net := { s0.net with flights := [f] } }
     s.net.flights[0]? = some f ∧ s.outHeld (.core 1) = false ∧ s.net.flights.take 0 = [] ∧
      s.room f.pkt (s.entry (.core 1) f.pkt) = true ∧ s.chosen (.ep (.core 1)) (s.readyOut (.core 1)) (pChan f.pkt) = true) ∧
    (let r : Slot := ⟨5, 3, .up, pkt cTALLY 0 [1], .up 6 0 3, true, false⟩
     let s := { s0 with net := { s0.net with slots := [r] } }
     s.net.slots[0]? = some r ∧ s.routerHeld r.lvl r.idx = false ∧ r.out = .up ∧ r.comb = true ∧ s.room r.pkt r.nxt = true ∧
      s.chosen (.router r.lvl r.idx .up) (.tally :: s.readyAt r.lvl r.idx .up) .tally = true) := by decide +kernel

theorem witness_sleepAndWakeComplete :
    (let s := withRegs s0 [((.ROSE_MODE_CORE_SLEEP, 0), 1)]
     s.reg .ROSE_MODE_CORE_SLEEP 0 = 1 ∧ s.absent 0 = false ∧ (s.core 0).asleep = false ∧ (s.core 0).waking = false ∧
      (s.core 0).bleaching = false ∧ (s.core 0).inq = [] ∧ (s.core 0).run = .idle ∧ s.net.flights = []) ∧
    (let k : Core := { Core.reset with asleep := true }
     let s := withRegs { s0 with cores := [(0, k), (1, k), (2, k), (3, k)] } [((.ROSE_MODE_RTR_SLEEP, 0), 1)]
     s.reg .ROSE_MODE_RTR_SLEEP 0 = 1 ∧ s.hasRouter 1 0 = true ∧ (1, 0) ∉ s.net.asleep ∧ (1, 0) ∉ s.net.waking ∧
      s.net.flights = [] ∧ s.net.slots = [] ∧ s.belowAsleep 1 0 = true) ∧
    (let s := at_ (s0.setCore 0 { Core.reset with asleep := true }) (.core 0) (pkt cREAD 0 [])
     s.awaited (fun l => decide (l = .at_ (.core 0))) = true ∧ (s.core 0).asleep = true ∧ s.braked 0 = false) ∧
    (let s := withRegs (at_ (s0.setCore 0 { Core.reset with asleep := true }) (.core 0) (pkt cREAD 0 [])) [((.CLK_REGION_BRAKED, 0), 1)]
     s.awaited (fun l => decide (l = .at_ (.core 0))) = true ∧ (s.core 0).asleep = true ∧ s.braked 0 = true) ∧
    (let f : Flight := ⟨{ pkt cWRITE 0 [1] with up := 2 }, .up 1 0 0, false, none⟩
     let s := { s0 with net := { s0.net with flights := [f], asleep := [(1, 0)] } }
     s.awaited (fun l => decide (routerOf l = some (1, 0))) = true ∧ (1, 0) ∈ s.net.asleep ∧ s.routerBraked 1 0 = false) ∧
    (let f : Flight := ⟨{ pkt cREAD 0 [] with up := 0 }, .out (.core 0), false, none⟩
     s0.entry (.core 0) f.pkt = .at_ (.core 0)) ∧
    ((s0.setCore 0 { Core.reset with waking := true }).core 0).waking = true := by decide +kernel

theorem witness_coreAdmission :
    ((s0.setCore 0 { Core.reset with sink := true }).core 0).sink = true ∧ (s0.core 0).sink = false ∧ s0.killBleach 0 = false ∧ s0.holder 0 = none ∧
    (((withRegs s0 [((.CTX_STATE_STATE, 5), 6)]).modCtx 5 (fun t => { t with owedCores := [0] })).setCore 0
      { Core.reset with bleaching := true, lastHolder := some 5 }).killBleach 0 = true ∧
    (let s := withRegs (holding s0 5) [((.CTX_STATE_STATE, 5), 6)]
     (s.core 0).sink = false ∧ s.holder 0 = some 5 ∧ s.reg .CTX_STATE_STATE 5 = 6) ∧
    (let s := holding s0 5
     (s.core 0).sink = false ∧ s.holder 0 = some 5 ∧ s.reg .CTX_STATE_STATE 5 ≠ 6) := by decide +kernel

/-! ## HBM -/

/-- A packet for the controller of hub 0. -/
def memPkt (cmd : BitVec 8) (off n : Nat) : Packet :=
  { hubPkt 0 cmd (if cmd = cMEMW then List.replicate n 1 else []) with var := BitVec.ofNat 32 off, count := BitVec.ofNat 6 n }

theorem witness_hbmAccessesComplete :
    (let p := memPkt cMEMW 0xBFFFFFF0 16
     let s := at_ (hbmUp s0) (.hub 0 0) p
     addrEp p.target p.tkind = .hub 0 0 ∧ s.standsAt (.hub 0 0) p = true ∧ s.hbmAdmit 0 (pOff p * 16) (p.data.length * 16) = .serve) ∧
    (let p := memPkt cMEMR 0 1
     let s := at_ (hbmUp s0) (.hub 0 0) p
     addrEp p.target p.tkind = .hub 0 0 ∧ s.standsAt (.hub 0 0) p = true ∧ s.hbmAdmit 0 (pOff p * 16) (p.count.toNat * 16) = .serve) := by
  decide +kernel

theorem witness_hbmBackgroundComplete :
    (hbmUp s0).stackUp 0 = true ∧ ((hbmUp s0).stk 0).wq = [] ∧
    (let s := withRegs (hbmUp s0) [((.HBM_CTL_SCRUB_EN, 0), 1)]
     s.stackUp 0 = true ∧ s.reg .HBM_STATE_STATE 0 = 2 ∧ s.reg .HBM_CTL_SCRUB_EN 0 = 1 ∧ 0 < stackAtoms) := by decide +kernel

theorem witness_hbmRateAndRetrainComplete :
    (let s := helmUp (hbmUp s0)
     s.access (.helm 0 0) .HBM_FREQ_REQ 0 0 true = .granted ∧ s.access (.helm 0 0) .HBM_RETRAIN_REQ 0 0 true = .granted ∧
      s.reg .HBM_STATE_STATE 0 = 2) ∧
    (withRegs (hbmUp s0) [((.HBM_STATE_STATE, 0), 3)]).reg .HBM_STATE_STATE 0 = 3 ∧ (withRegs (hbmUp s0) [((.HBM_STATE_STATE, 0), 3)]).gateOn 0 0 = true ∧
    (let s := hbmUp s0
     s.stackUp 0 = true ∧ s.gateOn 0 0 = true ∧ s.reg .HBM_STATE_STATE 0 = 2 ∧ (s.stk 0).trainTemp + 20 ≤ 85 ∧
      (let u := s.modStk 0 (fun k => { k with errs := List.replicate 15 0 })
       15 ≤ ((u.stk 0).errs.filter (fun e => decide ((u.timer + 2 ^ 48 - e) % 2 ^ 48 < 1000000))).length)) ∧
    (∀ n ∈ [0, 1], let s := withRegs (hbmUp s0) [((.HBM_STATE_STATE, 0), 4), ((.HBM_STATE_FAILS, 0), n)]
     s.reg .HBM_STATE_STATE 0 = 4 ∧ s.gateOn 0 0 = true ∧ s.reg .HBM_STATE_FAILS 0 < 2) ∧
    (let s := withRegs (hbmUp s0) [((.HBM_STATE_STATE, 0), 4), ((.HBM_STATE_FAILS, 0), 2)]
     s.gateOn 0 0 = true ∧ s.reg .HBM_STATE_STATE 0 = 4 ∧ s.reg .HBM_STATE_FAILS 0 = 2 ∧ s.reg .PKG_STATE_STATE 0 ≠ 3 ∧ s.reg .HBM_STATE_FREQ 0 < 3) := by decide +kernel

theorem witness_bleachesComplete :
    (let s := s0.setCore 0 { Core.reset with bleaching := true }
     (s.core 0).bleaching = true ∧ s.braked 0 = false) ∧
    (let s := (ctx1 6).modCtx 1 (fun t => { t with owedStacks := [15] })
     s.reg .CTX_STATE_STATE 1 = 6 ∧ 15 ∈ (s.ctx 1).owedStacks) := by decide +kernel

/-! ## Rings, doorbells and descriptors -/

/-- Context 1 with a slot to read. -/
def slotDue : State := (ctx1 2).modCtx 1 (fun t => { t with sqTail := 1 })

theorem witness_ringsComplete :
    (slotDue.fetches 1 = true ∧ slotDue.translated 1 (slotDue.sqAddr 1 / 4096) (slotDue.ringPasid 1) false = true ∧
      slotDue.reg .CTX_RING_POS_LAP 1 = 0 ∧ dGen (desc [(2, 0)]) = 0 ∧
      ((slotDue.useTr 1 (slotDue.sqAddr 1 / 4096) (slotDue.ringPasid 1)).setTries 1 true 0).openWaits 1 (desc [(2, 0)]) = false ∧
      dGen (desc [(2, 255)]) ≠ 0) ∧
    ((slotDue.modCtx 1 (fun t => { t with genWait := true })).ctx 1).genWait = true ∧
    slotDue.Rings (.pf 0) 1 ∧
    (withRegs { slotDue with ports := [(0, { PortS.reset with ready := true, vfEn := true, numVfs := 511 })] }
      [((.PCI_VF_CTX_VALID, 510), 1), ((.PCI_VF_CTX_CTX, 510), 1)]).Rings (.vf 0 510) 1 ∧
    63 < slotDue.cqSize 1 ∧ slotDue.cqSize 1 ≤ 64 ∧
    slotsTo (slotDue.ctx 1).cqHead 0 (slotDue.cqSize 1) ≤ slotsTo (slotDue.ctx 1).cqHead (slotDue.reg .CTX_RING_POS_CQ_TAIL 1) (slotDue.cqSize 1) ∧
    slotDue.stream 1 63 = none ∧
    (let q : Stream := ⟨0, specOf 0, specOf 0, 16, 0, 0, 1, 0, 0, 0, 0, 255, none⟩
     (slotDue.setStream 1 63 q).stream 1 63 = some q ∧ q.queued + 0 ≤ 255 ∧ (slotDue.setStream 1 63 q).cst 1 ≠ 0) := by
  exact ⟨by decide +kernel, by decide +kernel, rings_of _ _ (by decide +kernel), rings_of _ _ (by decide +kernel), by decide +kernel⟩

/-- The RUNNING context 1 with one copy in an open group. -/
def inGroup (c : Copy) : State := (ready1 c).modCtx 1 (fun t => { t with grps := [group .open_] })

theorem witness_smallDescriptorsComplete :
    (∀ e ∈ [(0x00, desc []), (0x0F, desc [(0, 0x0F)]), (0xFF, desc [(0, 0xFF)]), (0x0D, desc [(0, 0x0D), (8, 1)]), (0x0E, desc [(0, 0x0E)]),
        (0x0E, desc [(0, 0x0E), (8, 1)]), (0x03, desc [(0, 3)]), (0x04, desc [(0, 4)]), (0x05, desc [(0, 5)]), (0x06, desc [(0, 6)]),
        (0x07, desc [(0, 7)])], (ready1 (copyOf e.2)).Begins 1 0 e.1 (copyOf e.2)) ∧
    (∀ e ∈ [(0x05, desc [(0, 5)]), (0x06, desc [(0, 6)]), (0x07, desc [(0, 7)])],
      let c : Copy := { copyOf e.2 with grp := some 0 }
      beginsB (inGroup c) e.1 c = true ∧ ((inGroup c).begun 1 0 |>.ctx 1).grp? 0 = some (group .open_)) ∧
    (let s := ready1 (copyOf (desc [(0, 0x0E), (8, 1)]))
     let b := s.begun 1 0
     (s.ctx 1).earlierDone 0 = true ∧ s.armsDone 1 [] = true ∧ dMember (desc [(0, 0x0E), (8, 1)]) = false ∧
      b.rangeOk 1 (dSpec (desc [(0, 0x0E), (8, 1)]) 16) 8 = true) ∧
    (let c := copyOf (desc [(0, 3), (8, 1), (32, 5)])
     let d := dSpec c.bytes 16
     let b := (ready1 c).begun 1 0
     let e := b.modCopy 1 0 (fun k => { k with eng := some (b.pickEngine 1 (d.kind == 0) d) })
     dF c.bytes 8 1 < 2 ∧ badFlag d = false ∧ e.rangeOk 1 d 8 = true ∧ e.reads 1 d 8 = true ∧
      ((e.readAs 1 0 d).flagRead 1 0 d ⟨.bytes [5], .clean⟩).2 = some (7, 5) ∧ waitHolds (dF c.bytes 8 1) (dF c.bytes 32 8) 5 = true ∧
      (let s := (ready1 { c with begun := true })
       ({ c with begun := true } : Copy).waiting = true ∧ s.pausedCtx 1 = false ∧ s.heldFull 1 = false ∧ s.rangeOk 1 d 8 = true ∧
        s.reads 1 d 8 = true ∧ ((s.readAs 1 0 d).flagRead 1 0 d ⟨.bytes [5], .clean⟩).2 = some (7, 5))) ∧
    (let c := copyOf (desc [(0, 4), (8, 1)])
     let d := dSpec c.bytes 16
     let b := (ready1 c).begun 1 0
     (ready1 c).Begins 1 0 0x04 c ∧ (ready1 c).signalBusy 1 d = false ∧ dF c.bytes 8 1 = 1 ∧ badFlag d = false ∧ dMember c.bytes = false ∧
      b.rangeOk 1 d 8 = true ∧ b.reads 1 d 8 = true ∧ ((b.readAs 1 0 d).flagRead 1 0 d ⟨.bytes [5], .clean⟩).2 = some (7, 5)) ∧
    (((ready1 (copyOf (desc []))).begun 1 0).ctx 1 |>.copy? 0).isSome = true ∧
    (let c := copyOf (desc [(0, 4)])
     (ready1 c).signalBusy 1 (dSpec c.bytes 16) = false ∧ ((ready1 c).ctx 1).earlierDone 0 = true ∧ dF c.bytes 8 1 = 0 ∧
      badFlag (dSpec c.bytes 16) = false ∧ dMember c.bytes = false ∧ ((ready1 c).begun 1 0).rangeOk 1 (dSpec c.bytes 16) 8 = true) := by
  refine ⟨fun e he => begins_of _ _ _ ?_, by decide +kernel, by decide +kernel, by decide +kernel,
    ⟨begins_of _ _ _ (by decide +kernel), by decide +kernel⟩, by decide +kernel, by decide +kernel⟩
  revert e; decide +kernel

/-- A stream with one arm accepted, from host memory to host memory. -/
def stream0 (queued : Nat) : Stream := ⟨0, specOf 0, specOf 0x1000, 16, 16, 16, 2, 0, 0, 0, 0, queued, none⟩

/-- A STREAM descriptor for stream 63: its SOP and its arm count. -/
def streamDesc (sop n : Nat) : Copy := copyOf (desc [(0, 0x0C), (12, 63), (13, sop), (14, n)])

/-- The stream descriptor's context with stream 63 in its table. -/
def withStream (c : Copy) (q : Stream) : State := (ready1 c).setStream 1 63 q

/-- A WINDOW descriptor: handle 0, one page from 0 of HBM, to open or to close. -/
def windowDesc (close size : Nat) : Copy := copyOf (desc [(0, 8), (10, close), (24, size)])

/-- Area 0 of context 1 is the first 2 MiB of HBM; the control areas lie beyond it. -/
def areaRegs : List ((Fld × Nat) × Nat) :=
  [((.CTX_HBM_VALID, 16), 1), ((.CTX_HBM_BASE, 16), 0), ((.CTX_HBM_SIZE, 16), 1), ((.CTX_AREA_FIX_BASE, 1), 2 ^ 21)]

theorem witness_streamsAndWindowsComplete :
    (∀ c ∈ [streamDesc 0 0, streamDesc 1 0, streamDesc 2 1, streamDesc 2 255],
      (ready1 c).Begins 1 0 0x0C c ∧ (ready1 c).stream 1 63 = none ∧ dMember c.bytes = false) ∧
    (∀ c ∈ [streamDesc 0 0, streamDesc 1 0, streamDesc 2 1, streamDesc 2 255],
      (withStream c (stream0 0)).Begins 1 0 0x0C c ∧ (withStream c (stream0 0)).stream 1 63 = some (stream0 0)) ∧
    (dSop (streamDesc 2 255).bytes = 2 ∧ 0 < dF (streamDesc 2 255).bytes 14 1 ∧
      (stream0 0).queued + dF (streamDesc 2 255).bytes 14 1 ≤ 255 ∧ dStream (streamDesc 2 255).bytes = 63) ∧
    (let q := stream0 1
     let s := (ctx1 2).setStream 1 63 q
     s.stream 1 63 = some q ∧ q.queued ≠ 0 ∧ q.inService = none ∧ s.cst 1 = 2 ∧ (s.ctx 1).busy = .none ∧ s.heldFull 1 = false ∧
      s.xferOk 1 (armSpec q.src q.sadv (q.served % q.wrap)) (armSpec q.dst q.dadv (q.served % q.wrap)) (oneRun q.len0) = true) ∧
    (∀ e ∈ [windowDesc 0 1, windowDesc 0 0, windowDesc 1 0], (withRegs (ready1 e) areaRegs).Begins 1 0 0x08 e ∧
      (withRegs (ready1 e) areaRegs).agreed 0 3 = true) ∧
    (let b := (withRegs (ready1 (windowDesc 0 1)) areaRegs).begun 1 0
     b.windowOf 1 0 = none ∧ b.windowOk 1 0 4096 = true ∧ b.windowOk 1 0 0 = false ∧
      (List.range windowCount).find? (fun w => !b.regB .XFR_WIN_VALID w) = some 0) ∧
    (withRegs (ready1 (windowDesc 1 0)) [((.XFR_WIN_VALID, 7), 1), ((.XFR_WIN_CTX, 7), 1)] |>.begun 1 0).windowOf 1 0 = some 7 := by
  refine ⟨fun c hc => ⟨begins_of _ _ _ ?_, ?_⟩, fun c hc => ⟨begins_of _ _ _ ?_, ?_⟩, by decide +kernel, by decide +kernel,
    fun e he => ⟨begins_of _ _ _ ?_, ?_⟩, by decide +kernel, by decide +kernel⟩
  · revert c; decide +kernel
  · revert c; decide +kernel
  · revert c; decide +kernel
  · revert c; decide +kernel
  · revert e; decide +kernel
  · revert e; decide +kernel

/-! ## Transfers -/

theorem witness_transfersComplete :
    (∀ c ∈ [copyOf (desc [(0, 1), (32, 0x1000), (48, 16)]), copyOf (desc [(0, 1), (32, 0x1000), (48, 8)]),
        copyOf (desc [(0, 1), (12, 1), (48, 2 ^ 63)])], (ready1 c).Begins 1 0 0x01 c ∧ dMember c.bytes = false) ∧
    (let d := desc [(0, 1), (32, 0x1000), (48, 16)]
     let b := (ready1 (copyOf d)).begun 1 0
     b.xferOk 1 (dSpec d 16) (dSpec d 32) (oneRun 16) = true ∧ b.xferOk 1 (dSpec d 16) (dSpec d 32) (oneRun 8) = false) ∧
    (let d := desc [(0, 1), (12, 1), (32, 0x1000), (48, 2 ^ 63)]
     let m := shapeSpec d
     let b := (ready1 (copyOf d)).begun 1 0
     let r := (b.readAs 1 0 m).fetchBytes 1 m m.addr 128 ⟨.bytes shape16, .clean⟩
     m.kind = 0 ∧ b.reads 1 m 128 = true ∧ r.2.1 = 7 ∧ r.1.xferOk 1 (dSpec d 16) (dSpec d 32) (shapeOf r.2.2) = true) ∧
    (let d := desc [(0, 0x0B)]
     let b := (ready1 (copyOf d)).begun 1 0
     let m := dSpec d 16
     let h := (b.readAs 1 0 m).fetchBytes 1 m 0 16 ⟨.bytes [1], .clean⟩
     let r := (h.1.readAs 1 0 m).fetchBytes 1 m 0 (16 + 32) ⟨.bytes [1], seenPast .clean 0 16⟩
     (ready1 (copyOf d)).Begins 1 0 0x0B (copyOf d) ∧ notHostDev m = false ∧ b.rangeOk 1 m 16 = true ∧ b.reads 1 m 16 = true ∧
      h.2.1 = 7 ∧ bF h.2.2 0 4 = 1 ∧ h.1.rangeOk 1 m (16 + 32) = true ∧ h.1.reads 1 m (16 + 32) = true ∧ r.2.1 = 7) ∧
    (let d := desc [(0, 0x0A), (13, 2), (14, 2), (32, 0x1000), (48, 16), (52, 2)]
     let b := (ready1 (copyOf d)).begun 1 0
     let m := dSpec d 16
     let l := (b.readAs 1 0 m).fetchBytes 1 m 0 32 ⟨.bytes [], .clean⟩
     let links := (chunks 16 2 l.2.2).map (fun e => specOf (bytesNat e))
     (ready1 (copyOf d)).Begins 1 0 0x0A (copyOf d) ∧ badReduce d = false ∧ dMember d = false ∧ b.rangeOk 1 m 32 = true ∧
      b.reads 1 m 32 = true ∧ l.2.1 = 7 ∧ (∀ k ∈ links, l.1.rangeOk 1 k 16 = true ∧ overlap k 16 (dSpec d 32) 16 = false) ∧
      l.1.rangeOk 1 (dSpec d 32) (16 / elemBytes 2 * elemBytes 2) = true) ∧
    (let u : Xfer := { hostXfer with plan := .reduce ⟨2, 2, 0, 16, false⟩ [] (List.replicate 32 1) }
     (moving u).xfer? 0 = some u ∧ u.failed = false ∧ u.hold = .none ∧ u.pieces = [] ∧ u.hostOut = []) ∧
    (let s := moving hostXfer
     s.xfer? 0 = some hostXfer ∧ hostXfer.nextRecord.failed = false ∧ s.mayIssue hostXfer = true ∧ s.turnOf hostXfer = true ∧
      s.linkOk hostXfer = true ∧ s.outstanding 0 0 < 256 ∧ hostXfer.again = none ∧ hostXfer.againRead = none ∧
      hostXfer.nextRecord.sides.1 = true ∧ hostXfer.nextRecord.cut = some ⟨0, 0x1000, 16⟩ ∧
      (s.modXfer 0 (fun _ => hostXfer.nextRecord)).missingPage hostXfer.nextRecord ⟨0, 0x1000, 16⟩ = none) ∧
    (let u : Xfer := { hostXfer with ix := [] }
     let s := moving u
     s.xfer? 0 = some u ∧ u.over = true ∧ u.rank = 7 ∧ u.late = false ∧ s.passed u.t0 u.deadline = false ∧ s.heldFull 1 = false ∧
      s.pausedCtx 1 = false ∧ s.signalled u = none) ∧
    (let u : Xfer := { hostXfer with deadline := 1 }
     let s := { withRegs (moving u) [((.XFR_MODE_RT_EN, 0), 1)] with timer := 2 }
     s.xfer? 0 = some u ∧ u.late = false ∧ s.passed u.t0 u.deadline = true) := by
  refine ⟨fun c hc => ⟨begins_of _ _ _ ?_, ?_⟩, by decide +kernel, by decide +kernel,
    ⟨begins_of _ _ _ (by decide +kernel), by decide +kernel⟩, ⟨begins_of _ _ _ (by decide +kernel), by decide +kernel⟩,
    by decide +kernel, by decide +kernel, by decide +kernel, by decide +kernel⟩
  · revert c; decide +kernel
  · revert c; decide +kernel

/-- A piece whose host read has not come. -/
def duePiece : Piece := ⟨0, 0, 0x1000, 16, 0, [⟨none, 0, none, 1, none⟩], [0, 0, 0, 0], 0⟩

theorem witness_hostSideComplete :
    ((ctx1 2).port 0).lost = false ∧
    (let u : Xfer := { hostXfer with pieces := [duePiece] }
     (moving u).xfer? 0 = some u ∧ (moving u).xport u = 0 ∧ (∃ p ∈ u.pieces, p.n = 0 ∧ hostDue p = true)) ∧
    (({ ctx1 2 with ports := [(0, { PortS.reset with ready := true, ats := true })] } : State).port 0).ats = true ∧
    (let s : State := { ctx1 2 with timer := 2000000, ports := [(0, { PortS.reset with ready := true, ats := true, pri := [⟨0, 1, none, none, false, 0⟩] })] }
     s.asked 0 0 = true ∧ (s.port 0).pri.find? (fun e => e.t == 0) = some ⟨0, 1, none, none, false, 0⟩) ∧
    (let s : State := { withRegs (ctx1 2) [((.XFR_PRI_CTL_TIMEOUT, 0), 0)] with timer := 1000000 }
     1000000 * max 1 (s.reg .XFR_PRI_CTL_TIMEOUT 0) ≤ (s.timer + 2 ^ 48 - 0) % 2 ^ 48) ∧
    (moving hostXfer).pageBusy 0 0 none none = false ∧ ((moving hostXfer).port 0).inval = [] := by decide +kernel

/-! ## Passes, the Logbook and Fix groups -/

/-- A LAUNCH of the image at address 0. -/
def launch0 : Copy := copyOf (desc [(0, 2)])

/-- The RUNNING context 1 with that LAUNCH, its first area and the first byte of HBM. -/
def launching (mode b : Nat) : State :=
  { withRegs (ready1 launch0) ([((.CTX_HBM_VALID, 16), 1), ((.CTX_HBM_BASE, 16), 0), ((.CTX_HBM_SIZE, 16), 1), ((.CTX_AREA_FIX_BASE, 1), 2 ^ 21),
      ((.CTX_AREA_LOG_BASE, 1), 2 ^ 22), ((.CTX_AREA_LOG_SIZE, 1), 1), ((.PKG_LOG_MODE_MODE, 0), mode)]) with
    hbm := if b = 0 then [] else [(0, BitVec.ofNat 8 b)] }

/-- A report that core 0 failed with cause 1, in its mailbox. -/
def failed0 : State :=
  { helmUp s0 with helm := { s0.helm with mailbox := [(0, [{ pkt cFAULT 0 [] with src := 0, var := 1 }])] } }

/-- A pass of context 1 that is to run again. -/
def pass0 : Pass := { (ctx1 2).newPass launch0 with toReplay := true }

theorem noInputs (s : State) (p : Pass) (d : DevSeen) : s.readInputs 1 launch0 p d = (s, .ok []) := by
  have n : dF launch0.bytes 40 2 = 0 := by decide +kernel
  unfold State.readInputs; rw [n]; rfl

/-- The RUNNING context 1 with that LAUNCH in service at a step of it. -/
def serving (st : PassSt) : State :=
  (launching 0 1).modCtx 1 (fun t => { t with copies := [{ launch0 with begun := true }], passes := [{ pass0 with st := st }] })

theorem witness_launchesComplete :
    (∀ m ∈ [0, 2], let s := hbmUp (launching m 1)
     let b := s.begun 1 0
     let t := (b.imageBad 1 (b.newPass launch0).image .clean).1
     s.Begins 1 0 0x02 launch0 ∧ s.launchWaits 1 launch0 = false ∧ (s.ctx 1).passes = [] ∧
      (b.imageBad 1 (b.newPass launch0).image .clean).2 = none ∧ t.covers launch0 = decide (m = 2) ∧ recLen (dF launch0.bytes 40 2) ≤ t.logSize 1 ∧
      t.readInputs 1 launch0 (b.newPass launch0) (t.pastImage (b.newPass launch0).image .clean) = (t, .ok [])) ∧
    (let s := hbmUp (launching 0 0)
     let b := s.begun 1 0
     s.Begins 1 0 0x02 launch0 ∧ s.launchWaits 1 launch0 = false ∧ (s.ctx 1).passes = [] ∧
      (b.imageBad 1 (b.newPass launch0).image .clean).2 = some 1 ∧ ((b.ctx 1).copy? 0).isSome = true) ∧
    (∀ st ∈ [PassSt.waitsCores, .waitsLog], let s := hbmUp (serving st)
     ((s.ctx 1).passes.find? (fun q => q.copy == 0)).isSome = true ∧ ((s.ctx 1).passes.find? (fun q => q.copy == 0)).map (·.st) = some st ∧
      s.pausedCtx 1 = false ∧ s.mayLoad 1 { pass0 with st := st } = true ∧ s.imageWaits pass0.image = false ∧
      (s.imageBad 1 pass0.image .clean).2 = none ∧ s.logWaits 1 { pass0 with st := st } = false) ∧
    (failed0.failedCore 0 = true ∧ failed0.agreed (dieOf 0) 1 = true ∧ failed0.nextSpare 0 = some 1024) ∧
    (let s : State := { failed0 with helm := { failed0.helm with spares := [(0, [])] } }
     s.failedCore 0 = true ∧ s.agreed (dieOf 0) 1 = true ∧ s.nextSpare 0 = none) ∧
    (let s : State := { failed0 with start := s0.start }
     s.failedCore 0 = true ∧ s.canCheck (dieOf 0) = false) ∧
    (let s := (hbmUp (launching 0 0)).modCtx 1 (fun t => { t with passes := [{ pass0 with st := .waitsCores }] })
     (s.imageBad 1 pass0.image .clean).2 = some 1 ∧ s.mayLoad 1 { pass0 with st := .waitsCores } = true ∧ s.imageWaits pass0.image = false) ∧
    (let s := (hbmUp (launching 0 1)).modCtx 1 (fun t => { t with passes := [pass0] })
     (s.ctx 1).passes.find? (fun r => r.id == pass0.id) = some pass0 ∧ pass0.toReplay = true ∧ s.pausedCtx 1 = false ∧
      s.heldFull 1 = false ∧ s.replayWaits 1 pass0 = false ∧ s.inputsSame 1 pass0 pass0.inputs .clean = (s, some true) ∧
      (s.refillAll 1 pass0 (s.pastCaptures pass0 .clean)).ok = some true ∧
      ((s.refillAll 1 pass0 (s.pastCaptures pass0 .clean)).s.imageBad 1 pass0.image .clean).2 = none) := by
  refine ⟨fun m hm => ⟨begins_of _ _ _ ?_, ?_, ?_, ?_, ?_, ?_, noInputs _ _ _⟩, ⟨begins_of _ _ _ (by decide +kernel), by decide +kernel⟩,
    fun st hs => ?_, by decide +kernel, by decide +kernel, by decide +kernel, by decide +kernel, by decide +kernel, by decide +kernel,
    by decide +kernel, by decide +kernel, by decide +kernel, rfl, by decide +kernel, by decide +kernel⟩
  · revert m; decide +kernel
  · revert m; decide +kernel
  · revert m; decide +kernel
  · revert m; decide +kernel
  · revert m; decide +kernel
  · revert m; decide +kernel
  · revert st; decide +kernel

/-- Context 1 with one group. -/
def grouped (g : Grp) : State := (ctx1 2).modCtx 1 (fun t => { t with grps := [g] })

theorem witness_groupsPublish :
    (let q := group .closed
     let s := grouped q
     s.pausedCtx 1 = false ∧ s.cst 1 ≠ 6 ∧ (s.ctx 1).grps.find? (s.flippable 1) = some q) ∧
    (let q : Grp := { group .flipped with pages := [(0, [1, 2, 3])] }
     (grouped q).stackOf (0 * 4096) = 0 ∧ (hbmUp (grouped q)).hbmWaits (0 * 4096) 4096 = false ∧
      (hbmUp (grouped q)).reg .HBM_STATE_STATE 0 ≠ 5 ∧ (hbmUp (grouped q)).staged 0 = some [1, 2, 3]) ∧
    (let q := group .flipped
     let s := grouped q
     s.pausedCtx 1 = false ∧ s.cst 1 ≠ 6 ∧ s.heldFull 1 = false ∧ (s.ctx 1).grps.find? Grp.written = some q ∧
      q.sigNow = false ∧ q.sigsLeft = []) ∧
    (let d := desc [(0, 4), (32, 7)]
     let q : Grp := { group .flipped with sigs := some [d] }
     let s := grouped q
     s.heldFull 1 = false ∧ (s.ctx 1).grps.find? Grp.written = some q ∧ q.sigNow = false ∧ q.sigsLeft = [d] ∧ dF d 8 1 = 0 ∧
      s.signalBusy 1 (dSpec d 16) = false ∧ s.rangeOk 1 (dSpec d 16) 8 = true) := by
  decide +kernel

/-! ## Contexts and the package -/

theorem witness_contextCommandsComplete :
    (let s := portsUp s0
     s.access (.port 0) .CTX_CMD 1 0 true = .granted ∧ s.isBusy 1 = false ∧ s.cst 1 = 0) ∧
    (let s := withRegs (ctx1 1) soundRegs
     s.Commands 0 1 1 ∧ s.reg .PKG_STATE_STATE 0 = 0 ∧ s.holdErr 1 = 0) ∧
    (let s := ctx1 1
     s.Commands 0 1 1 ∧ s.reg .PKG_STATE_STATE 0 = 0 ∧ s.holdErr 1 ≠ 0) ∧
    ((ctx1 4).Commands 0 1 4 ∧ (ctx1 4).reg .PKG_STATE_STATE 0 = 0) ∧ (ctx1 5).Commands 0 1 5 ∧ (ctx1 2).Commands 0 1 2 ∧
    (let s := (ctx1 2).modCtx 1 (fun t => { t with busy := .stopping })
     (s.ctx 1).busy = .stopping ∧ s.cst 1 = 2 ∧ s.allEnded 1 = true) ∧
    (let s := (ctx1 2).modCtx 1 (fun t => { t with busy := .pausing })
     (s.ctx 1).busy = .pausing ∧ s.paused 1 = true ∧ (hbmUp s).recordWaits 1 = false) ∧
    (let s := ctx1 2
     s.access (.port 0) .CTX_CMD 1 0 true = .granted ∧ s.owns 0 1 = true) := by
  refine ⟨by decide +kernel, ⟨commands_of _ _ (by decide +kernel), by decide +kernel⟩,
    ⟨commands_of _ _ (by decide +kernel), by decide +kernel⟩, ⟨commands_of _ _ (by decide +kernel), by decide +kernel⟩,
    commands_of _ _ (by decide +kernel), commands_of _ _ (by decide +kernel), by decide +kernel, by decide +kernel, by decide +kernel⟩

theorem witness_resumeAndKillComplete :
    (let s := withRegs (ctx1 3) soundRegs
     s.Commands 0 1 3 ∧ s.regB .CTX_STATE_PKG_HELD 1 = false ∧ s.reg .PKG_STATE_STATE 0 = 0 ∧ s.holdErr 1 = 0) ∧
    (let s := withRegs (ctx1 3) [((.CTX_STATE_PKG_HELD, 1), 1)]
     s.Commands 0 1 3 ∧ s.regB .CTX_STATE_PKG_HELD 1 = true) ∧
    (let s := hbmUp <| (holding (ctx1 3) 1).modCtx 1 (fun t => { t with busy := .resuming, toRestore := [0] })
     s.holder 0 = some 1 ∧ (s.ctx 1).busy = .resuming ∧ 0 ∈ (s.ctx 1).toRestore ∧ (s.core 0).bleaching = false ∧
      s.braked 0 = false ∧ s.restoreWaits 1 0 = false ∧ (s.hbmSeen (s.imageAt 1 0) 5120 []).2 = none) ∧
    (let s := hbmUp <| (ctx1 3).modCtx 1 (fun t => { t with busy := .resuming })
     (s.ctx 1).busy = .resuming ∧ (s.ctx 1).toRestore = [] ∧ s.coresOf 1 = [] ∧ s.ratesSettled = true ∧
      s.recordWaits 1 = false) ∧
    (∀ st ∈ [0, 1, 2, 3, 4, 5, 6, 7], (ctx1 st).Commands 0 1 st) := by
  refine ⟨⟨commands_of _ _ (by decide +kernel), by decide +kernel⟩, ⟨commands_of _ _ (by decide +kernel), by decide +kernel⟩,
    by decide +kernel, by decide +kernel, fun st hs => commands_of _ _ ?_⟩
  revert st; decide +kernel

theorem witness_packageCommandsComplete :
    (let s := portsUp s0
     s.access (.port 0) .PKG_LEASE 0 0 true = .granted ∧ s.reg .PKG_LEASE_HOLDER 0 = 0) ∧
    (let s := leased 0 s0
     s.access (.port 1) .PKG_LEASE 0 0 true = .granted ∧ s.reg .PKG_LEASE_HOLDER 0 ≠ 0 ∧ s.holdsLease 1 = false) ∧
    (∀ st ∈ [0, 1, 2, 3], let s := leased st s0
      s.access (.port 0) .PKG_LEASE 0 0 true = .granted ∧ s.access (.port 0) .PKG_CTL 0 0 true = .granted ∧ s.holdsLease 0 = true ∧
        s.reg .PKG_STATE_STATE 0 = st ∧ s.ctxs = [] ∧ s.configsServed = false) ∧
    (leased 3 s0).ratesSettled = true ∧
    (let s : State := { withRegs s0 [((.PKG_LEASE_TIMEOUT_SECONDS, 0), 0)] with timer := 1000000000, ports := [(0, { PortS.reset with lost := true })] }
     s.leaseOver 0 = true) := by decide +kernel

/-! ## Ports -/

theorem witness_portEventsComplete :
    (let s := withRegs (portsUp s0) [((.PCI_LINK_STAT_UP, 0), 1)]
     (s.port 0).lost = false ∧ s.regB .PCI_LINK_STAT_UP 0 = true ∧ s.portReady 0 = true) ∧
    (({ s0 with ports := [(0, { PortS.reset with lost := true })] } : State).port 0).lost = true ∧
    (let s := withRegs { ctx1 2 with ports := [(0, { PortS.reset with ready := true, vfEn := true, numVfs := 511 })] }
        [((.PCI_VF_CTX_VALID, 510), 1), ((.PCI_VF_CTX_CTX, 510), 1)]
     s.portReady 0 = true ∧ s.vfExists 0 510 = true ∧ s.regB .PCI_VF_CTX_VALID 510 = true ∧ s.owns 0 (s.reg .PCI_VF_CTX_CTX 510) = true) ∧
    (let s := ctx1 2
     s.access (.port 0) .PCI_VF_CTX 0 510 true = .granted ∧ (s.port 0).vfEn = false ∧ natBits 0x401 10 1 = 1 ∧ 0x401 % 1024 = 1 ∧
      s.owns 0 1 = true ∧ s.namedElsewhere 0 510 1 = false) ∧
    ((s0.port 0).lost = false ∧ (s0.port 0).ready = false) ∧ (∀ e ∈ s0.ctxs, e.2.passes = [] ∧ e.2.owed = []) := by decide +kernel

theorem witness_debugApertureComplete :
    (let s := portsUp s0
     s.reaches (.port 0) = .granted ∧ s.bar4 0 0 = none) ∧
    (let s := withRegs (holding (ctx1 2) 1) [((.PCI_DBG_CTL_OPEN, 0), 1), ((.PCI_DBG_CTL_WR_EN, 0), 1), ((.PCI_DBG_CTL_BASE, 0), 16384)]
     s.reaches (.port 0) = .granted ∧ s.bar4 0 0 = some (2 ^ 44) ∧ s.bar4At (2 ^ 44) 4096 = some (.row 0 0) ∧ s.bar4At (2 ^ 44) 4097 = none ∧
      s.coreTakes 0 = true ∧ s.regB .PCI_DBG_CTL_WR_EN 0 = true) ∧
    (let s := withRegs (hbmUp (portsUp s0)) [((.PCI_DBG_CTL_OPEN, 0), 1)]
     s.bar4 0 0 = some 0 ∧ s.bar4At 0 64 = some .hbm ∧ s.hbmAdmit (s.stackOf 0) (0 % s.stackE) 64 = .serve ∧
      s.regB .PCI_DBG_CTL_WR_EN 0 = false) ∧
    (let s := withRegs (holding (ctx1 2) 1) [((.PCI_DBG_CTL_OPEN, 0), 1), ((.PCI_DBG_CTL_WR_EN, 0), 1), ((.PCI_DBG_CTL_BASE, 0), 16384)]
     (s.core 0).inq = [] ∧ ∀ q ∈ bar4RowsOf (2 ^ 44) 4096, (s.core 0).owed (.engine q) [q] = false) ∧
    (let s := withRegs (hbmUp (portsUp s0)) [((.PCI_DBG_CTL_OPEN, 0), 1), ((.PCI_DBG_CTL_WR_EN, 0), 1)]
     s.bar4 0 0 = some 0 ∧ s.bar4At 0 64 = some .hbm ∧ s.hbmAdmit (s.stackOf 0) (0 % s.stackE) 64 = .serve ∧
      s.regB .PCI_DBG_CTL_WR_EN 0 = true) ∧
    (let s := withRegs { portsUp s0 with fab := { s0.fab with ap := [0], regions := [(0, ⟨true, false, true, []⟩)] } }
        [((.PCI_DBG_CTL_OPEN, 0), 1), ((.PCI_DBG_CTL_WR_EN, 0), 1), ((.PCI_DBG_CTL_BASE, 0), 32768), ((.CLK_GATE_FAB, 0), 1)]
     s.bar4 0 0 = some (2 ^ 45) ∧ s.bar4At (2 ^ 45) 8 = some (.bram 0 0) ∧ s.fabOn 0 = true ∧ s.apertureOk 0 0 8 = true ∧
      s.regB .PCI_DBG_CTL_WR_EN 0 = true) := by decide +kernel

/-! ## Sallan links and gateways -/

/-- A detection of eight good lanes, the far end as wide. -/
def goodDetect : DetectResult := ⟨0, 0, 0, 0, .straight, 5, 0, 0, 4, true, 0⟩

theorem witness_sallanBringupComplete :
    (salAt 0 s0).salDue 0 0 = true ∧ (salAt 0 s0).salSt 0 0 = 0 ∧
    (let s : State := withRegs { salAt 3 s0 with sal := [(0, { SalPort.reset with due := true })] } [((.PKG_STATE_STATE, 0), 3)]
     s.salDue 0 0 = true ∧ s.salSt 0 0 ≠ 0) ∧
    (let s := salAt 1 s0
     let q := s.salp 0 0
     s.salLive 0 0 = true ∧ s.salSt 0 0 = 1 ∧ goodDetect.order ≠ .other ∧ goodDetect.peerWidth = q.width ∧
      widest (laneCount q.width) (goodLanes goodDetect) = some 8) ∧
    (let s := withRegs (salAt 2 s0) [((.SAL_PORT_CTL_MAX_RATE, 0), 1), ((.SAL_PORT_CTL_MAX_ERR, 0), 4)]
     s.salLive 0 0 = true ∧ s.salSt 0 0 = 2 ∧ (∀ j, j < (s.salp 0 0).used → [].getD j 0 ≤ s.maxErr 0 0 ∧ (0 : BitVec 8).getLsbD j = false) ∧ (s.salp 0 0).rung < s.maxRung 0 0) ∧
    (let s : State := withRegs { salAt 2 s0 with sal := [(0, { SalPort.reset with used := 2, rung := 1 })] }
        [((.SAL_PORT_CTL_MAX_RATE, 0), 1), ((.SAL_PORT_CTL_MAX_ERR, 0), 4)]
     s.salLive 0 0 = true ∧ s.salSt 0 0 = 2 ∧ (∀ j, j < (s.salp 0 0).used → [4, 0].getD j 0 ≤ s.maxErr 0 0 ∧ (0xC0 : BitVec 8).getLsbD j = false) ∧ s.maxRung 0 0 ≤ (s.salp 0 0).rung) ∧
    (let s := withRegs (salAt 6 s0) [((.SAL_PORT_CTL_RETRY_S, 0), 1)]
     s.salLive 0 0 = true ∧ s.salEn 0 0 = true ∧ s.salSt 0 0 = 6 ∧ s.reg .SAL_PORT_CTL_RETRY_S 0 ≠ 0) ∧
    (∀ st ∈ [3, 5], let s := helmUp (salAt st s0)
      s.access (.helm 0 0) .SAL_PORT_CMD 0 0 true = .granted ∧ s.mayRetrain 0 0 = true ∧ s.salSt 0 0 = st) ∧
    (let s : State := { salAt 3 s0 with sal := [(0, { SalPort.reset with used := 2, rawUp := [7] })] }
     s.mayRetrain 0 0 = true ∧ s.salLive 0 0 = true ∧ 1 < (s.salp 0 0).used ∧ ¬ 7 < (s.salp 0 0).used ∧ (s.salp 0 0).rawUp.contains 7 = true) ∧
    (salAt 4 s0).salSt 0 0 = 4 := by decide +kernel

theorem witness_sallanTrafficComplete :
    (salAt 3 s0).salSt 0 0 = 3 ∧ ((salAt 3 s0).salp 0 0).rxSeq = 0 ∧
    (let p := extPkt 9 false
     let s := withRegs (at_ (salAt 3 s0) (gateEp 0 0) p) [((.SAL_PKG_VALID, 0), 1), ((.SAL_PKG_NUM, 0), 1), ((.SAL_PORT_PEER_PKG, 0), 9)]
     s.standsAt (gateEp 0 0) p = true ∧ p.ext = true ∧ xIn p = false ∧ ownAnswer 0 0 p = false ∧ s.regB .SAL_PKG_VALID 0 = true ∧
      xDpkg p ≠ s.reg .SAL_PKG_NUM 0 ∧ s.salSt 0 0 = 3 ∧ s.gateOn 0 2 = true ∧ (s.salp 0 0).sent.length < replayMax ∧
      xDpkg p = s.reg .SAL_PORT_PEER_PKG 0) ∧
    (let p := extPkt 9 false
     let s := at_ (salAt 3 s0) (gateEp 0 0) p
     s.standsAt (gateEp 0 0) p = true ∧ s.regB .SAL_PKG_VALID 0 = false) ∧
    (let p := extPkt 1 true
     let s : State := withRegs { salAt 3 s0 with sal := [(0, { SalPort.reset with arrived := [p] })] } [((.SAL_PKG_VALID, 0), 1), ((.SAL_PKG_NUM, 0), 1)]
     (s.salp 0 0).arrived.head? = some p ∧ malformedPkt p = false ∧ s.regB .SAL_PKG_VALID 0 = true ∧ xDpkg p = s.reg .SAL_PKG_NUM 0) ∧
    (let p := pkt cWRITE 0 [1]
     let s : State := { salAt 3 s0 with sal := [(0, { SalPort.reset with arrived := [p] })] }
     (s.salp 0 0).arrived.head? = some p ∧ malformedPkt p = true) := by decide +kernel

/-! ## The fabric -/

/-- A packet to the tile port 0 of die 0. -/
def tilePkt (cmd : BitVec 8) (data : List Unit16) : Packet := { pkt cmd 0 data with tkind := 1, target := 0 }

theorem witness_blocksAndTilesComplete :
    (let s := fabUp true s0
     s.fabRuns 0 0 = true ∧ s.fabOn 0 = true ∧ (s.fabRegion 0 0).gsr = false ∧ s.fab.ap.contains 0 = false ∧ s.maskOpen 0 0 = true) ∧
    (let s := withRegs (fabUp true s0) [((.FAB_TP_BIND_EN, 0), 1)]
     s.withheldTile 0 = false ∧ (s.tile 0 0).held = none ∧ (s.tile 0 0).tx = [] ∧ s.regB .FAB_TP_BIND_EN 0 = true ∧
      s.txBusy 0 0 = false ∧ (s.tile 0 0).rspFree 16 = true) ∧
    (∀ p ∈ [tilePkt cWRITE [1], { tilePkt cREAD [] with count := 16 }, tilePkt cRDATA (List.replicate 16 1)],
      ((fifoOf p).head?.map (·.hdr)) = some true ∧ ((fifoOf p).head?.map badHeader) = some false ∧ (∀ q ∈ (fifoOf p).drop 1, q.hdr = false) ∧
        ((fifoOf p).head?.map entriesDue) = some ((fifoOf p).drop 1).length ∧ (fifoOf p).length ≤ 32 ∧
        ((fifoOf p).head?.map (fun e => (packetOf e ((fifoOf p).drop 1)).cmd)) = some p.cmd) ∧
    badHeader ⟨true, false, BitVec.ofNat 256 (2 ^ 127)⟩ = true ∧
    (let p := { tilePkt cRDATA [1] with tkind := 0, target := 5, tag := 9 }
     let s := s0.modTile 0 0 (fun k => { k with reads := [{ pkt cREAD 0 [] with tag := 9, src := 5, count := 1 }] })
     ((s.tile 0 0).answers p).isSome = true) ∧
    (fabUp true s0).regB .FAB_TP_BIND_EN 0 = false ∧
    (let p := tilePkt cTALLY [1]
     let s := at_ s0 (.tile 0 0) p
     s.standsAt (.tile 0 0) p = true ∧ s.tileDead 0 0 = true ∧ tallyClass p = true ∧
      (fabUp true s).tileDead 0 0 = false ∧ (fabUp true s).standsAt (.tile 0 0) p = true) ∧
    (let p := tilePkt cWRITE [1]
     let s := withRegs (at_ (fabUp true s0) (.tile 0 0) p) [((.FAB_TP_BIND_EN, 0), 1)]
     s.standsAt (.tile 0 0) p = true ∧ s.regB .FAB_TP_BIND_EN 0 = true ∧ s.tileDead 0 0 = false ∧ tallyClass p = false ∧
      s.maskOpen 0 0 = true ∧ (s.tile 0 0).rx.length + (fifoOf p).length ≤ 32) ∧
    (let s := s0.modTile 0 0 (fun k => { k with reads := [pkt cREAD 0 []] })
     (s.tile 0 0).reads.find? (fun r => r.tag == 0) = some (pkt cREAD 0 [])) := by decide +kernel

/-- Slice 0 of die 0 running one word. -/
def sliceAt (w : W32) : State :=
  (fabUp true s0).setSlice 0 0 { Slice.reset with running := true, prog := vset Slice.reset.prog 0 w }

/-- A DSP word: its opcode and the rest of its bits. -/
def dsp (o rest : Nat) : W32 := BitVec.ofNat 32 (o * 2 ^ 28 + rest)

/-- Words of the DSP instructions, each under its opcode: MOV of the whole accumulator and of a register, a valid LOOP and one past
the program. -/
def dspWords : List (Nat × W32) :=
  [(0x0, 0), (0x1, dsp 1 0), (0x2, dsp 2 0), (0x2, dsp 2 (31 * 2 ^ 19)), (0x3, dsp 3 0), (0x4, dsp 4 0), (0x5, dsp 5 0), (0x6, dsp 6 0),
   (0x6, dsp 6 (2 ^ 27)), (0x7, dsp 7 (2 ^ 19)), (0x7, dsp 7 (31 * 2 ^ 19)), (0x7, dsp 7 (31 * 2 ^ 19 + 2 ^ 26)), (0xF, dsp 15 0)]

/-- `State.DspReady` for slice 0 of die 0 as a Boolean. -/
def dspReadyB (s : State) (io : DspIn) (o : Nat) (w : W32) : Bool :=
  (s.slice 0 0).running && s.fabRuns 0 0 && decide ((s.slice 0 0).pc < 32) && decide (vget (s.slice 0 0).prog (s.slice 0 0).pc 0 = w) &&
    decide (dOpc w = o) && !(s.slice 0 0).suppressed && !dspReserved w && (!readsInput w || io.iv)

theorem dspReady_of (s : State) (io : DspIn) (o : Nat) (w : W32) (h : dspReadyB s io o w = true) : s.DspReady ⟨0, 0⟩ io o w := by
  simp only [dspReadyB, Bool.and_eq_true, Bool.or_eq_true, Bool.not_eq_true', decide_eq_true_eq] at h
  obtain ⟨⟨⟨⟨⟨⟨⟨h1, h2⟩, h3⟩, h4⟩, h5⟩, h6⟩, h7⟩, h8⟩ := h
  exact ⟨h1, h2, h3, h4, h5, h6, h7, fun hr => h8.resolve_left (by rw [hr]; decide)⟩

theorem witness_dspInstructionsComplete :
    (∀ e ∈ dspWords, (sliceAt e.2).DspReady ⟨0, 0⟩ ⟨0, 0, 0, true⟩ e.1 e.2) ∧
    (((sliceAt (dsp 7 (2 ^ 19))).slice 0 0).loopError (dsp 7 (2 ^ 19)) = false) ∧
    (((sliceAt (dsp 7 (31 * 2 ^ 19 + 2 ^ 26))).slice 0 0).loopError (dsp 7 (31 * 2 ^ 19 + 2 ^ 26)) = true) ∧
    (fabUp true s0).fabRuns 0 0 = true := by
  refine ⟨fun e he => dspReady_of _ _ _ _ ?_, by decide +kernel, by decide +kernel, by decide +kernel⟩
  revert e; decide +kernel

/-- Lane 7 of port 0 is raw and UP, one lane being Rose's. -/
def rawUp0 (s : State) : State :=
  withRegs { s with sal := [(0, { SalPort.reset with width := 1, rawUp := [7] })] } [((.CLK_GATE_SALLAN, 0), 1)]

/-- The Mask of region 3, which drives lane 7, open on die 0. -/
def region3 (open_ : Bool) (s : State) : State :=
  withRegs { s with fab := { s.fab with regions := [(3, ⟨open_, false, true, []⟩)] } } [((.CLK_GATE_FAB, 0), 1)]

theorem witness_lanesAndPinsComplete :
    (let s := region3 true (rawUp0 s0)
     s.rawUp 0 7 = true ∧ s.rawLane 0 7 = true ∧ s.maskOpen 0 (7 / 2) = true ∧ (s.fabRegion 0 (7 / 2)).open_ = true ∧ s.fabRuns 0 (7 / 2) = true ∧ (s.rawBuf 7).length < 64) ∧
    (let s := region3 false (rawUp0 s0)
     s.rawUp 0 7 = true ∧ (s.fabRegion 0 (7 / 2)).open_ = false) ∧
    (let s := fabUp true s0
     s.pins = 8 ∧ s.pinDrive 0 0 = none ∧
     ({ s with fab := { s.fab with border := [(borderKey 0 0 1, true)] } } : State).pinDrive 0 0 = some false) ∧
    (helmUp s0).access (.helm 0 0) .FAB_GPIO_STAT 0 0 true = .gated 0 6 ∧
    (helmUp (fabUp true s0)).access (.helm 0 0) .FAB_GPIO_STAT 0 0 true = .granted := by decide +kernel

theorem witness_fabricInterrupts :
    (fabUp true s0).fabRuns 0 0 = true ∧ (fabUp true s0).maskOpen 0 0 = true ∧ (fabUp true s0).reg .CFG_REGIONS_STATE 0 ≠ 2 ∧
    (fabUp false s0).maskOpen 0 0 = false ∧ (withRegs s0 [((.CFG_REGIONS_STATE, 0), 2)]).reg .CFG_REGIONS_STATE 0 = 2 := by
  decide +kernel

/-! ## Configuration -/

/-- A CONFIG of region 0 of die 0: 64 KiB from address 0 of HBM. -/
def config0 : Copy := copyOf (desc [(0, 9), (24, 65536)])

/-- A stream of region 0 under way. -/
def job0 : CfgJob := newJob none (some 0) false 0 65536

/-- A stream of region 0 in the queue of die 0, its fabric running. -/
def loading (j : CfgJob) : State := (fabUp false (hbmUp s0)).setJobs 0 [j]

theorem witness_configurationComplete :
    (let s := withRegs (ready1 config0) (areaRegs8 ++ [((.CFG_REGION_OWN_EN, 0), 1), ((.CFG_REGION_OWN_CTX, 0), 1), ((.CLK_GATE_FAB, 0), 1)])
     s.Begins 1 0 0x09 config0 ∧ s.configTurn 1 config0 = true ∧ dF config0.bytes 28 1 % 8 < s.dies ∧ dF config0.bytes 30 1 = 0 ∧ s.regB .CFG_REGION_OWN_EN 0 = true ∧
      s.reg .CFG_REGION_OWN_CTX 0 = 1 ∧ (s.begun 1 0).hbmAllowed 1 (dF config0.bytes 16 8) (dF config0.bytes 24 4) = true ∧ s.gateOn 0 6 = true) ∧
    ((loading job0).cfgJobs 0 = job0 :: [] ∧ job0.checked = false ∧ (loading job0).strmWaits job0.strm = false) ∧
    (let j : CfgJob := { job0 with checked := true }
     (loading j).cfgJobs 0 = j :: [] ∧ j.checked = true ∧ j.bleached = false ∧ j.region = some 0) ∧
    (let j : CfgJob := { job0 with checked := true, bleached := true, hdr := natBytes (2 ^ 96 + 4096 * 2 ^ 128) 256 }
     (loading j).cfgJobs 0 = j :: [] ∧ j.ended = false ∧ j.seg < hNseg j.hdr ∧ (loading j).strmWaits j.strm = false ∧
      ((loading j).strmRead j.strm j.segAt (j.segLen + 16)).2.isSome = true) ∧
    (let j : CfgJob := { job0 with ended := true, steps := [1, 2] }
     (loading j).cfgJobs 0 = j :: [] ∧ j.ended = true ∧ j.steps = 1 :: [2] ∧ ((fabUp false s0).setJobs 0 [j]).cfgJobs 0 = j :: [] ∧
      ((fabUp false s0).setJobs 0 [j]).fabLocked 0 = false) ∧
    (let s : State := withRegs { s0 with start := { s0.start with done := [.p5] } } ((List.range 16).map (fun r => ((.CFG_REGIONS_STATE, r), 1)))
     0 < s.dies ∧ StartPhase.p5 ∈ s.start.done ∧ StartPhase.p6c ∉ s.start.done ∧ s.cfgJobs 0 = [] ∧ (∀ r, r < 16 → s.reg .CFG_REGIONS_STATE (0 * 16 + r) = 1)) ∧
    (let s := withRegs (leased 2 s0) [((.CLK_GATE_FAB, 0), 1)]
     s.access (.port 0) .CFG_FLASH_WR 0 0 true = .granted ∧ s.holdsLease 0 = true ∧ s.pkgStopped = true ∧
      s.regB .CFG_FLASH_STAT_BUSY 0 = false ∧ natBits (2 ^ 97) 97 1 = 1 ∧ s.hbmWaits 0 0 = false ∧ (s.flashResult 0 0 0 0).2 ≠ 0 ∧
      (withRegs (hbmUp s) [((.HBM_STATE_STATE, 0), 4)]).hbmWaits 0 4096 = true) ∧
    (let w : FlashJob := ⟨0, 4096, 1, true⟩
     let s : State := { hbmUp s0 with cfg := { s0.cfg with writing := [(0, w)] } }
     Tbl.get? s.cfg.writing 0 = some w ∧ w.checked = true ∧ s.hbmWaits w.src w.len = false ∧ (s.hbmTake w.src w.len).2.isSome = true) := by
  refine ⟨⟨begins_of _ _ _ (by decide +kernel), by decide +kernel⟩, by decide +kernel⟩

/-! ## Clocks and power -/

theorem witness_clocksComplete :
    (let s := withRegs (helmUp s0) [((.CLK_SRC_STAT_RDY, 0), 15), ((.CLK_SRC_STAT_LOCK, 0), 63), ((.CLK_GATE_MEAS, 0), 1)]
     (s.clkReady 0 0 = true ∧ s.clkReady 0 3 = true ∧ s.clkReady 0 (s.loopRef 0 0) = true ∧ s.loopRef 0 0 ≠ 3 ∧ s.loopRef 0 5 ≠ 3) ∧
      s.access (.helm 0 0) .CLK_REF_SEL 0 0 true = .granted ∧ s.access (.helm 0 0) .CLK_SRC_SEL 0 0 true = .granted ∧
      s.srcReady 0 0 0 0 = true ∧ s.srcReady 0 4 1 63 = true ∧
      s.access (.helm 0 0) .CLK_FAB_FREQ 0 0 true = .granted ∧ Tbl.get? s.power.fabBusy 0 = none ∧
      (∀ k, k < 4 → 10 ≤ natBits 0x500A0A0A (8 * k) 8 ∧ natBits 0x500A0A0A (8 * k) 8 ≤ 80) ∧
      (List.range 4).map (fun k => natBits 0x500A0A0A (8 * k) 8) ≠ s.fabNow 0 ∧
      s.access (.helm 0 0) .CLK_MEAS_CTL 0 0 true = .granted ∧ s.gateOn 0 7 = true ∧ 0 ∉ s.power.measuring ∧
      natBits 0x1EE 0 4 ≠ 15 ∧ natBits 0x1EE 4 4 ≠ 15 ∧ natBits 0x1EE 8 1 = 1 ∧
      s.access (.helm 0 0) .CLK_SRC_STAT 0 0 true = .granted ∧ s.hasClkOut 0 = true ∧
      (s.nominalMhz 0 4).1 ≤ 200 * (7 + 1) * (s.nominalMhz 0 4).2 ∧
      s.access (.helm 0 0) .CLK_GATE 0 0 true = .granted ∧ s.hbmGate 0 0 = 0 ∧ s.hbmGate 0 3 = 3 ∧
      s.reaches (.helm 0 0) = .granted ∧ s.gateOn 0 6 = false) ∧
    (let s : State := { s0 with power := { s0.power with fabBusy := [(0, [10, 10, 10, 10])], measuring := [0] } }
     Tbl.get? s.power.fabBusy 0 = some [10, 10, 10, 10] ∧ Tbl.get? s.power.fabNext 0 = none ∧ 0 ∈ s.power.measuring ∧
      (helmUp s).access (.helm 0 0) .CLK_FAB_FREQ 0 0 true = .granted ∧ Tbl.get? (helmUp s).power.fabBusy 0 ≠ none) ∧
    (let s := withRegs (holdingHbm s0) [((.CLK_GATE_HBM, 0), 3)]
     s.hbmGate 0 0 ≠ 0) := by decide +kernel

theorem witness_powerControlComplete :
    (0 < s0.dies * 8 ∧ (s0.region 0).current = false ∧ (s0.region 0).slow = none ∧ (s0.region 0).thermal = false) ∧
    (let s := withRegs s0 [((.CLK_REGION_BRAKED, 0), 1)]
     s.regB .CLK_REGION_BRAKED 0 = true ∧ (s.region 0).thermal = false ∧ (s.region 0).duty = false) ∧
    (let m (w v : Nat) := ((s0.readVin v).setReg .CLK_PWR_STAT_PIN 0 (min w 65535)).setReg .CLK_PWR_STAT_VIN 0 (min v 65535)
     (m 100000 5400).ceiling < 100000 ∧ (m 0 5400).ceiling = (m (m 0 5400).ceiling 5400).ceiling ∧ 0 < (m 0 5400).ceiling ∧
      s0.pkgStopped = false ∧ (leased 2 s0).pkgStopped = true) ∧
    (0 < s0.dies ∧ s0.reg .CLK_APER_T_SLOW 0 ≤ 255 ∧ s0.reg .CLK_APER_T_BRAKE 0 ≤ 255) := by decide +kernel

/-! ## Helm and interrupts -/

theorem witness_helmEventsComplete :
    (let s := withRegs (helmUp s0) [((.HELM_WDOG_PERIOD, 0), 1)]
     s.access (.helm 0 0) .HELM_WDOG 0 0 true = .granted ∧ s.watched 0 0 = true ∧ (0, 0) ∉ s.helm.warned ∧ s.procRuns 0 0 = true ∧ 0 < s.dies ∧
      s.checker 0 0 = some 1 ∧ (0, 0) ∉ s.helm.disagreed) ∧
    (let s : State := { helmUp s0 with helm := { s0.helm with disagreed := [(0, 0)] } }
     s.procRuns 0 0 = true ∧ s.checker 0 0 = some 1 ∧ (0, 0) ∈ s.helm.disagreed) ∧
    (let s : State := withRegs { s0 with helm := { s0.helm with loaded := [0], bodyHash := shake256 [] } } [((.HELM_STAT_STATE, 0), 1)]
     s.reg .HELM_STAT_STATE 0 = 1 ∧ s.imageHolds 0 = true) := by decide +kernel

/-- The controller of die 0 asleep. -/
def asleep0 (q : List (Nat × Bool)) : State := { s0 with helm := { s0.helm with asleep := [0], wakeQ := [(0, q)] } }

theorem witness_interruptsComplete :
    (0 < s0.dies ∧ 0 ∉ s0.helm.asleep ∧ reservedSource 0x10 = false ∧ reservedSource 0x800 = false ∧ reservedSource 0x1FFF = false ∧
      reservedSource 0 = true ∧ s0.regB .INT_SRC_PEND 0x10 = false ∧ (withRegs s0 [((.INT_SRC_PEND, 0x10), 1)]).regB .INT_SRC_PEND 0x10 = true) ∧
    (0 ∈ (asleep0 []).helm.asleep ∧ 0 < (asleep0 []).dies) ∧
    (let s := withRegs (portsUp s0) [((.INT_SRC_PEND, 0x1FFF), 1), ((.INT_SRC_EN, 0x1FFF), 1), ((.INT_SRC_TARGET, 0x1FFF), 4)]
     4 ≤ s.reg .INT_SRC_TARGET 0x1FFF ∧ 0 ∉ s.helm.asleep ∧ s.deliverable 0 0x1FFF = true) ∧
    (let s := helmUp s0
     s.access (.helm 0 0) .INT_CLAIM 0 0 false = .granted ∧ leastKey (s.claimable 0 0) = none ∧
      s.access (.helm 0 0) .INT_RAISE 0 0 true = .granted ∧ s.access (.helm 0 0) .INT_SRC 0 0x1FFF true = .granted ∧
      natBits 5 0 3 < 6 ∧ natBits 0x1FFFF 16 1 = 1) ∧
    (let s := withRegs (helmUp s0) [((.INT_SRC_PEND, 0x10), 1), ((.INT_SRC_EN, 0x10), 1), ((.INT_SRC_TARGET, 0x10), 0)]
     ((leastKey (s.claimable 0 0)).map (fun e => (e.2.1, e.2.2))) = some (false, 0x10)) ∧
    (let s : State := withRegs { helmUp s0 with helm := { s0.helm with claimed := [((0, 0x10), 0)] } } [((.INT_SRC_ACTIVE, 0x10), 1)]
     s.access (.helm 0 0) .INT_COMPLETE 0 0 true = .granted ∧ 0x10 % 2 ^ 17 = 0x10 ∧ Tbl.get? s.helm.claimed (0, 0x10) = some 0 ∧
      s.regB .INT_SRC_ACTIVE 0x10 = true) ∧
    (let s := withRegs s0 [((.INT_CTL_SLEEP_EN, 0), 1)]
     s.regB .INT_CTL_SLEEP_EN 0 = true ∧ s.anyDeliverable 0 = false ∧ ∀ p : Fin 4, s.procRuns 0 p = true → p ∈ [0, 1, 2, 3]) ∧
    (0 ∈ (asleep0 [(0x10, false)]).helm.asleep ∧ Tbl.getD (asleep0 [(0x10, false)]).helm.wakeQ 0 [] ≠ []) := by decide +kernel

/-! ## Security -/

theorem witness_securityComplete :
    (let s := withRegs (portsUp s0) [((.SEC_ATT_STAT_REFUSE_CAUSE, 0), 1)]
     s.portReady 0 = true ∧ s.vault.reqs = [] ∧ s.reg .SEC_ATT_STAT_REFUSE_CAUSE 0 ≠ 0) ∧
    (let s : State := { helmUp (portsUp s0) with start := { s0.start with done := [.p3, .p6e] } }
     s.portReady 0 = true ∧ s.vault.reqs = [] ∧ s.reg .SEC_ATT_STAT_REFUSE_CAUSE 0 = 0 ∧ s.quoteTurn = true) ∧
    ({ s0 with vault := { s0.vault with spacing := true } } : State).vault.spacing = true ∧
    (∀ o ∈ [none, some 38], let s : State := withRegs { helmUp s0 with vault := { s0.vault with vk := some [1], certifying := o } } [((.SEC_ATT_STAT_GENERATING, 0), 1)]
     s.regB .SEC_ATT_STAT_GENERATING 0 = true ∧ s.vaultWrites = true ∧ s.vault.vk = some [1] ∧ s.vault.certifying = o ∧ s.vault.idNext < idLeaves) ∧
    (let s := leased 2 (hbmUp s0)
     s.access (.port 0) .SEC_KEY_WR 0 0 true = .granted ∧ s.access (.port 0) .SEC_FW_WR 0 0 true = .granted ∧ s.holdsLease 0 = true ∧
      s.pkgStopped = true ∧ s.regB .SEC_VAULT_STAT_BUSY 0 = false ∧ s.keyRefused 8 = false ∧ s.keyRefused 0 = false ∧ s.keyRefused 9 = true ∧
      s.hbmWaits 0 (keyLen 0) = false ∧ (s.hbmTake 0 (keyLen 0)).2.isSome = true ∧
      (({ s with hbmc := (({ s with hbm := [] } : State).modStk 0 (fun k => { k with poison := [0] })).hbmc } : State).hbmTake 0 (keyLen 0)).2 = none ∧ s.hbmWaits 0 3076 = false ∧
      (s.hbmTake 0 3076).2.isSome = true ∧ (withRegs s [((.HBM_STATE_STATE, 0), 4)]).hbmWaits 0 (keyLen 0) = true ∧ Tbl.get? s.vault.slots 7 ≠ some .revoked ∧
      fwGood [] 0 = false) ∧
    (let s : State := { helmUp s0 with vault := { s0.vault with job := some (.key 0 []) } }
     s.vault.job = some (.key 0 []) ∧ s.vaultWrites = true) ∧
    ({ s0 with vault := { s0.vault with job := some (.firmware []) } } : State).vault.job = some (.firmware []) ∧
    (helmUp { s0 with vault := { s0.vault with job := some (.firmware []) } }).vaultWrites = true := by decide +kernel

/-! ## Start and resets -/

/-- The start with some orders ended. -/
def started (l : List StartPhase) : State := { s0 with start := { s0.start with done := l } }

theorem witness_startAndResetsComplete :
    (s0.inOrder .p1 = true ∧ s0.orderReady .p1 = true) ∧
    (let s := started [.p1, .p2, .p3, .p4, .p5, .p6a]
     s.inOrder .p6b = true ∧ 63 ∈ s.soundRegions ∧ 63 ∉ s.start.sounded) ∧
    (let s := started [.p1, .p2, .p3, .p4, .p5, .p6a, .p6b, .p6c, .p6d, .p6e, .p7, .p8]
     s.inOrder .p9 = true ∧ s.orderReady .p9 = true) ∧
    s0.module.off = false ∧
    (let s := leased 2 s0
     s.access (.port 0) .PKG_PART_RST 0 0 true = .granted ∧ s.holdsLease 0 = true ∧ s.regB .PKG_PART_RST_BUSY 0 = false ∧ natBits 0x1F 4 1 = 1) ∧
    (let s : State := { helmUp s0 with start := { done := [.p3], sounded := [], fails := [], training := 0, march := 0, part := some 15, resetCores := [], dropped := [], partSubs := [0, 31] } }
     s.start.part = some 15 ∧ s.start.resetCores = [] ∧ s.start.partSubs.filter (fun k => s.agreed (k / 32) 3) = s.start.partSubs) ∧
    (let s : State := { s0 with start := { done := [], sounded := [], fails := [], training := 0, march := 0, part := some 15, resetCores := [], dropped := [], partSubs := [0] } }
     s.start.partSubs.filter (fun k => s.agreed (k / 32) 3) ≠ s.start.partSubs) := by decide +kernel

theorem witness_packageReset :
    (let s := leased 2 s0
     s.access (.port 0) .PKG_RESET 0 0 true = .granted ∧ s.holdsLease 0 = true ∧ s.pkgStopped = true ∧ natBits 0x1A5 8 1 = 1 ∧
      natBits 0x1A5 0 8 = 0xA5) ∧ (leased 0 s0).pkgStopped = false := by decide +kernel

theorem witness_moduleEventsComplete :
    s0.module.off = false ∧ s0.module.latched = false ∧
    (let s : State := { s0 with module := { s0.module with off := true } }
     s.module.off = true ∧ s.module.latched = false) ∧
    (let s : State := { s0 with module := { s0.module with off := true, latched := true } }
     s.module.latched = true ∧ ¬ (s.reg .MOD_STAT_LAST_OFF 0 = 5 ∧ (90 < 91 ∨ 50 < 51))) ∧
    (∃ p, p < 4 ∧ (helmUp s0).procRuns 0 p = true) := by decide +kernel

/-! ## Registers -/

theorem witness_registerAccessComplete :
    (let s := leased 2 s0
     let l : List Part := [⟨.reg 0 .XFR_MODE 0 0 0, 4, 0⟩]
     s.reaches (.port 0) = .granted ∧ s.parts (Rg.offset .XFR_MODE 0 0) 4 = some l ∧ s.gatedPart l = none ∧ s.copyKind 0 .XFR_MODE 0 0 = .own ∧
      4 = (Rg.XFR_MODE).info.width / 8 ∧ s.classAdmits (.port 0) .XFR_MODE 0 0 false = true ∧
      s.classAdmits (.port 0) .XFR_MODE 0 0 true = true) := by decide +kernel

theorem witness_refusedAccesses :
    (let s := portsUp s0
     s.reaches (.port 0) = .granted ∧ s.parts (2 ^ 28 - 8) 8 = none ∧ s.dies = 8) ∧
    (let s := portsUp s0
     ((s.parts (Rg.offset .FAB_GPIO_STAT 0 0) 4).map s.gatedPart) = some (some (0, 6))) ∧
    (let s := portsUp s0
     let l : List Part := [⟨.reg 0 .XFR_MODE 0 0 0, 4, 0⟩]
     s.parts (Rg.offset .XFR_MODE 0 0) 4 = some l ∧ s.gatedPart l = none ∧ s.classAdmits (.port 0) .XFR_MODE 0 0 true = false) := by decide +kernel

theorem witness_countersAtTheirEnd :
    (let s := withRegs s0 [((.PKG_STATE_STOPS, 0), 2 ^ Fld.PKG_STATE_STOPS.info.width - 1)]
     s.reg .PKG_STATE_STOPS 0 = 2 ^ Fld.PKG_STATE_STOPS.info.width - 1) ∧
    s0.reg .PKG_STATE_STOPS 0 < 2 ^ Fld.PKG_STATE_STOPS.info.width - 1 := by decide +kernel

theorem witness_tagInstructions :
    (at0 (ins 0x16 63)).Ready 0 0x16 (ins 0x16 63) ∧ (at0 (ins 0x17 (7 * 2 ^ 23))).Ready 0 0x17 (ins 0x17 (7 * 2 ^ 23)) :=
  ⟨ready_of _ 0 _ _ (by decide +kernel), ready_of _ 0 _ _ (by decide +kernel)⟩

/-! ## Well-formed commands: for each check a command that it refuses, beside one that passes -/

theorem test_wf_packet :
    (Instr.write (pkt cWRITE 0 (List.replicate 16 1)) false).wf = true ∧ (Instr.write (pkt cWRITE 0 (List.replicate 17 1)) false).wf = false ∧
    (Instr.read { pkt cREAD 0 [] with count := 16 } ⟨[], []⟩).wf = true ∧ (Instr.read { pkt cREAD 0 [] with count := 17 } ⟨[], []⟩).wf = false ∧
    (Instr.answer { pkt cANSWER 0 [1] with ext := false, xu := 1 }).wf = false := by decide +kernel

theorem test_wf_router :
    (Instr.routerSleep 10 0).wf = true ∧ (Instr.routerSleep 0 0).wf = false ∧ (Instr.routerSleep 10 1).wf = false ∧
    (Instr.wake (.router 1 262143)).wf = true ∧ (Instr.wakeDone (.router 1 262144)).wf = false := by decide +kernel

/-- A read that corrects no word is ill-formed wherever a command carries what ECC shows. -/
theorem test_wf_ecc :
    (Instr.send 0 ⟨[], [.clean, .corrected 1]⟩).wf = true ∧ (Instr.send 0 ⟨[], [.clean, .corrected 0]⟩).wf = false ∧
    (Instr.sld 0 false (.corrected 0)).wf = false ∧ (Instr.rowArbiterDeferredGrant 0 .seq [.corrected 0]).wf = false ∧
    (Instr.maskWrite (pkt cMASK 0 [1]) ⟨false, [⟨0, .corrected 0⟩]⟩).wf = false ∧
    (Instr.memRead (memPkt cMEMR 0 1) [⟨1, .corrected 0⟩]).wf = false ∧ (Instr.memRead (memPkt cMEMR 0 1) [⟨1, .clean⟩]).wf = true ∧
    (Instr.hbmScrubRead 0 0 ⟨0, .corrected 0⟩).wf = false ∧ (Instr.launch 0 ⟨0, ⟨[.corrected 0], [], []⟩⟩).wf = false ∧
    (Instr.wait 0 0 ⟨.bytes [], ⟨[.corrected 0], [], []⟩⟩).wf = false ∧ (Instr.wait 0 0 ⟨.bytes [], ⟨[.corrected 2], [], []⟩⟩).wf = true := by decide +kernel

theorem test_wf_start :
    (Instr.startPhaseDone .p1 (.answering 8)).wf = true ∧ (Instr.startPhaseDone .p1 (.answering 9)).wf = false ∧
    (Instr.soundingRegionDone 0 0 [⟨127, 1055, .row 65⟩]).wf = true ∧ (Instr.soundingRegionDone 0 0 [⟨128, 0, .row 0⟩]).wf = false ∧
    (Instr.soundingRegionDone 0 0 [⟨0, 1056, .row 0⟩]).wf = false ∧ (Instr.soundingRegionDone 0 0 [⟨0, 0, .router 11 0⟩]).wf = false := by
  decide +kernel

theorem test_wf_ports :
    (Instr.sqTail (.vf 0 510) 1 0).wf = true ∧ (Instr.sqTail (.vf 0 511) 1 0).wf = false ∧ (Instr.vfFlr 0 511).wf = false ∧
    (Instr.vfEnable 0 true 511).wf = true ∧ (Instr.vfEnable 0 true 512).wf = false ∧ (Instr.bar4Read 0 0 0 []).wf = false ∧
    (Instr.bar4Write 0 (2 ^ 30 - 1) [1] []).wf = true ∧ (Instr.bar4Write 0 (2 ^ 30 - 1) [1, 2] []).wf = false ∧
    (Instr.atsInvalidation ⟨0, some 511⟩ 0 none).wf = false ∧ (Instr.atsInvalidation ⟨0, none⟩ 0 none).wf = true := by decide +kernel

theorem test_wf_registers :
    (Instr.registerRead (.port 0) ⟨.bar0, 2 ^ 28 - 4⟩ 4).wf = true ∧ (Instr.registerRead (.port 0) ⟨.bar0, 2 ^ 28 - 3⟩ 4).wf = false ∧
    (Instr.registerRead (.port 0) ⟨.bar0, 0⟩ 0).wf = false ∧ (Instr.registerRead (.port 0) ⟨.vfBar0 511, 0⟩ 4).wf = false ∧
    (Instr.registerRead (.port 0) ⟨.vfBar2 510, 0⟩ 4).wf = true ∧ (Instr.registerRead (.port 0) ⟨.vfBar2 511, 0⟩ 4).wf = false ∧
    (Instr.registerWrite (.port 0) ⟨.bar0, 0⟩ 1 255).wf = true ∧ (Instr.registerWrite (.port 0) ⟨.bar0, 0⟩ 1 256).wf = false := by decide +kernel

theorem test_wf_samples :
    (Instr.thermalSample 0 0 255).wf = true ∧ (Instr.thermalSample 0 0 256).wf = false ∧ (Instr.hbmHot 0 256).wf = false ∧
    (Instr.hbmRetrainTrigger 0 (.temperature 255)).wf = true ∧ (Instr.hbmRetrainTrigger 0 (.temperature 256)).wf = false ∧
    (Instr.sallanDetectDone 0 0 { goodDetect with peerWidth := 5 }).wf = false := by decide +kernel

/-! ## Small tests: expected values from the spec's words or worked out from them by hand -/

/-- The state after a command, the state itself where it has none. -/
def after (i : Instr) (s : State) : State :=
  match exec i s with
  | .next t => t
  | _ => s

/-- R6's example: 0x4_1A2C is q:1001220230. -/
theorem test_digits : (List.range 10).map (digit 0x41A2C) = [0, 3, 2, 0, 2, 2, 1, 0, 0, 1] := by decide

/-- R57's example: 450 in E4M3 has D = 4,096, so it truncates to 448 unless r is lower. -/
theorem test_stochastic_450 :
    encodeNum .e4m3 (.sr 4096) false true (.fin false 225 1) = (0x7E, 0) ∧
    encodeNum .e4m3 (.sr 4095) false true (.fin false 225 1) = (0x7E, fOF) ∧
    encodeNum .e4m3 (.sr 4095) true true (.fin false 225 1) = (0x7F, fOF) := by decide +kernel

/-- R58: from G = 1 the three steps give 0x2001, 0x2001, 0x42021. -/
theorem test_generator : advanceG 1 = 0x42021 := by decide

theorem test_movi_signExtends :
    let t := after (.movi 0) (at0 (ins 3 (2 ^ 22 + 0xFFFF)))
    (t.core 0).greg 1 = 0xFFFFFFFF ∧ (t.core 0).pc = 1 ∧ (t.core 0).steps = 1 := by decide +kernel

/-- SUB of register 1 from register 0: 0 − 1 wraps. -/
theorem test_alu_wraps :
    ((after (.alu 0) (core0 (at0 (ins 1 (2 * 2 ^ 22 + 2 ^ 14 + 1))) (fun k => k.setG 1 1))).core 0).greg 2 = 0xFFFFFFFF := by decide +kernel

/-- A multiplication's register may not be used in the next step (R89). -/
theorem test_mul_isLate :
    let t := after (.alu 0) (prog [ins 1 (2 ^ 22 + 8), ins 0xF 0, ins 1 (2 ^ 18)])
    (t.core 0).late = [.g 1] ∧ (t.core 0).hazard (ins 1 (2 ^ 18)) = true := by decide +kernel

/-- A loop of count 2 over one NOP takes the NOP twice and ends past it. -/
theorem test_loop_twice :
    let t := after (.nop 0) (after (.loop 0) (prog [ins 0x10 (2 * 2 ^ 8 + 1), 0, 0]))
    (t.core 0).pc = 1 ∧ ((after (.nop 0) t).core 0).pc = 2 ∧ ((after (.nop 0) t).core 0).l0.active = false := by decide +kernel

/-- PC beyond the program faults with cause 7 (R95). -/
theorem test_pc_beyond : ((after (.nop 0) (prog [])).core 0).run = .faulted 7 := by decide +kernel

theorem test_write_counts :
    let p : Packet := { pkt cWRITE 0 [5] with cnt := true, var := 64 + 9 }
    let t := after (.write p false) (arrived p)
    (t.core 0).arrv = 1 ∧ rowNat (vget (t.core 0).rows 9 0) 16 16 = 5 ∧ t.net.flights = [] := by decide +kernel

/-- A packet to a core nobody holds is refused with RST (R156). -/
theorem test_write_refused :
    let t := after (.write (pkt cWRITE 3 [5]) false) (arrived (pkt cWRITE 3 [5]))
    t.reg .ROSE_REFUSE_STAT_RST 0 = 1 ∧ vget (t.core 0).rows 0 0 = 0 := by decide +kernel

theorem test_memWrite :
    let p := memPkt cMEMW 4 1
    let t := after (.memWrite p []) (at_ (hbmUp s0) (.hub 0 0) p)
    t.hbm = [(64, 1)] := by decide +kernel

theorem test_idle_counts : (match step s0 with | .next t => t.timer | _ => 0) = 1 := by decide +kernel

theorem test_ctxOpen :
    let t := after (.ctxOpen 1 1023) (portsUp s0)
    t.cst 1023 = 1 ∧ t.reg .CTX_STATE_OWNER 1023 = 2 ∧ t.out = [] := by decide +kernel

/-- STOP by a port without the lease is a violation and changes nothing else (R227). -/
theorem test_pkgStop_needsLease :
    let t := after (.pkgStop 1) (leased 0 s0)
    t.reg .PKG_STATE_STATE 0 = 0 ∧ t.reg .PCI_ACC_VIOL_COUNT 1 = 1 := by decide +kernel

theorem test_pkgReset_needsConfirm :
    (after (.pkgReset (.port 0) 0x1A4) (leased 2 s0)).reg .PKG_STATE_STATE 0 = 2 ∧
    (after (.pkgReset (.port 0) 0x1A5) (leased 2 s0)).reg .PKG_STATE_STATE 0 = 0 := by decide +kernel

theorem test_interrupt_merges :
    let t := after (.intMessage 0 0x10 false) (after (.intMessage 0 0x10 false) s0)
    t.regB .INT_SRC_PEND 0x10 = true ∧ t.reg .INT_STAT_MERGED 0 = 1 := by decide +kernel

/-- 3 × 5 accumulates through IA and IB. -/
theorem test_dspMac :
    let w := dsp 1 (0x10 * 2 ^ 23 + 0x11 * 2 ^ 18)
    ((after (.dspMac ⟨0, 0⟩ ⟨3, 5, 0, true⟩) (sliceAt w)).slice 0 0).acc = 15 := by decide +kernel

theorem test_tallies_add :
    (mergeTally (pkt cTALLY 0 [tallyUnit 0xFFFFFFFF 1 0 0]) (pkt cTALLY 0 [tallyUnit 2 1 0 3])).data = [tallyUnit 1 2 0 3] := by decide +kernel

/-- A module reset keeps the flash and zeroes HBM (R401). -/
theorem test_moduleReset :
    let s : State := { s0 with hbm := [(0, 1)], cfg := { s0.cfg with flash := [(5, 7)] } }
    (after (.moduleReset .mgmt) s).hbm = [] ∧ (after (.moduleReset .mgmt) s).cfg.flash = [(5, 7)] := by decide +kernel

end Sys2Proof.Tests
end

section
/-! SUPPORT and PROOFS for 00_scope.md: the front command, the register tables, the reach of every command, and how an access to
BAR0 ends. -/

namespace Sys2Proof.Machine

/-! ## The block -/

theorem step_of_pending {s : State} {i : Instr} {rest : List Instr} (h : s.pending = i :: rest) :
    step s = exec i { s with pending := rest } := by
  simp only [step, h]

/-! ## The register tables -/

/-- After reset no field has been written, so each reads the reset value of its table (R17). -/
theorem State.reg_reset (f : Fld) (i : Nat) : State.reset.reg f i = f.info.reset := Tbl.getD_nil _ _

/-- Every row of the register tables gives a reset value that fits its field. -/
theorem Fld.info_reset_lt (f : Fld) : f.info.reset < 2 ^ f.info.width := by
  cases f <;> decide

/-! ## The reach of a command -/

/-- Membership in a listed reach by evaluation, whatever operands the command has. -/
theorem Area.mem_of_contains {l : List Area} {p : Area} (h : l.contains p = true) : p ∈ l := List.contains_iff_mem.mp h

/-- No row of the table answers a fault or a refusal (log 6). -/
theorem exec_completes (i : Instr) (s : State) : Completes (exec i s) := by
  cases i <;> exact ⟨_, rfl⟩

/-- What a command leaves, row by row: each meaning changes no part but those listed for its row. -/
theorem within_reach_of_exec {i : Instr} {s s' : State} (hs : exec i s = .next s') : s.Within (reach i) s' := by
  cases i with
  | nop c => apply @execNop_within _ _ _ (.refl _ _) c s' hs <;> exact Area.mem_of_contains rfl
  | alu c => apply @execAlu_within _ _ _ (.refl _ _) c s' hs <;> exact Area.mem_of_contains rfl
  | alui c => apply @execAlui_within _ _ _ (.refl _ _) c s' hs <;> exact Area.mem_of_contains rfl
  | movi c => apply @execMovi_within _ _ _ (.refl _ _) c s' hs <;> exact Area.mem_of_contains rfl
  | br c => apply @execBr_within _ _ _ (.refl _ _) c s' hs <;> exact Area.mem_of_contains rfl
  | rdnf c => apply @execRdnf_within _ _ _ (.refl _ _) c s' hs <;> exact Area.mem_of_contains rfl
  | clnf c => apply @execClnf_within _ _ _ (.refl _ _) c s' hs <;> exact Area.mem_of_contains rfl
  | srseed c => apply @execSrseed_within _ _ _ (.refl _ _) c s' hs <;> exact Area.mem_of_contains rfl
  | seta c => apply @execSeta_within _ _ _ (.refl _ _) c s' hs <;> exact Area.mem_of_contains rfl
  | geta c => apply @execGeta_within _ _ _ (.refl _ _) c s' hs <;> exact Area.mem_of_contains rfl
  | adva c => apply @execAdva_within _ _ _ (.refl _ _) c s' hs <;> exact Area.mem_of_contains rfl
  | rdsp c => apply @execRdsp_within _ _ _ (.refl _ _) c s' hs <;> exact Area.mem_of_contains rfl
  | wrsp c => apply @execWrsp_within _ _ _ (.refl _ _) c s' hs <;> exact Area.mem_of_contains rfl
  | vbc c => apply @execVbc_within _ _ _ (.refl _ _) c s' hs <;> exact Area.mem_of_contains rfl
  | vext c => apply @execVext_within _ _ _ (.refl _ _) c s' hs <;> exact Area.mem_of_contains rfl
  | vmov c => apply @execVmov_within _ _ _ (.refl _ _) c s' hs <;> exact Area.mem_of_contains rfl
  | loop c => apply @execLoop_within _ _ _ (.refl _ _) c s' hs <;> exact Area.mem_of_contains rfl
  | yield c => apply @execYield_within _ _ _ (.refl _ _) c s' hs <;> exact Area.mem_of_contains rfl
  | halt c => apply @execHalt_within _ _ _ (.refl _ _) c s' hs <;> exact Area.mem_of_contains rfl
  | sld c lost ecc => apply @execSld_within _ _ _ (.refl _ _) c lost ecc s' hs <;> exact Area.mem_of_contains rfl
  | sst c lost => apply @execSst_within _ _ _ (.refl _ _) c lost s' hs <;> exact Area.mem_of_contains rfl
  | tset c => apply @execTset_within _ _ _ (.refl _ _) c s' hs <;> exact Area.mem_of_contains rfl
  | tclr c => apply @execTclr_within _ _ _ (.refl _ _) c s' hs <;> exact Area.mem_of_contains rfl
  | lds c => apply @execLds_within _ _ _ (.refl _ _) c s' hs <;> exact Area.mem_of_contains rfl
  | strm c => apply @execStrm_within _ _ _ (.refl _ _) c s' hs <;> exact Area.mem_of_contains rfl
  | drn c => apply @execDrn_within _ _ _ (.refl _ _) c s' hs <;> exact Area.mem_of_contains rfl
  | acci c => apply @execAcci_within _ _ _ (.refl _ _) c s' hs <;> exact Area.mem_of_contains rfl
  | vadd c => apply @execVadd_within _ _ _ (.refl _ _) c s' hs <;> exact Area.mem_of_contains rfl
  | vsub c => apply @execVsub_within _ _ _ (.refl _ _) c s' hs <;> exact Area.mem_of_contains rfl
  | vmul c => apply @execVmul_within _ _ _ (.refl _ _) c s' hs <;> exact Area.mem_of_contains rfl
  | vfma c => apply @execVfma_within _ _ _ (.refl _ _) c s' hs <;> exact Area.mem_of_contains rfl
  | vmin c => apply @execVmin_within _ _ _ (.refl _ _) c s' hs <;> exact Area.mem_of_contains rfl
  | vmax c => apply @execVmax_within _ _ _ (.refl _ _) c s' hs <;> exact Area.mem_of_contains rfl
  | vcmp c => apply @execVcmp_within _ _ _ (.refl _ _) c s' hs <;> exact Area.mem_of_contains rfl
  | vexp2 c => apply @execVexp2_within _ _ _ (.refl _ _) c s' hs <;> exact Area.mem_of_contains rfl
  | vrcp c => apply @execVrcp_within _ _ _ (.refl _ _) c s' hs <;> exact Area.mem_of_contains rfl
  | vrsq c => apply @execVrsq_within _ _ _ (.refl _ _) c s' hs <;> exact Area.mem_of_contains rfl
  | vcvt c => apply @execVcvt_within _ _ _ (.refl _ _) c s' hs <;> exact Area.mem_of_contains rfl
  | vscl c => apply @execVscl_within _ _ _ (.refl _ _) c s' hs <;> exact Area.mem_of_contains rfl
  | vscm c => apply @execVscm_within _ _ _ (.refl _ _) c s' hs <;> exact Area.mem_of_contains rfl
  | vexpx c => apply @execVexpx_within _ _ _ (.refl _ _) c s' hs <;> exact Area.mem_of_contains rfl
  | vsrch c => apply @execVsrch_within _ _ _ (.refl _ _) c s' hs <;> exact Area.mem_of_contains rfl
  | vectorResultWrite c k => exact execVectorResultWrite_within (.refl _ _) c k s' hs (Area.mem_of_contains rfl)
  | send c rows => apply @execSend_within _ _ _ (.refl _ _) c rows s' hs <;> exact Area.mem_of_contains rfl
  | sendv c => apply @execSendv_within _ _ _ (.refl _ _) c s' hs <;> exact Area.mem_of_contains rfl
  | recv c => apply @execRecv_within _ _ _ (.refl _ _) c s' hs <;> exact Area.mem_of_contains rfl
  | tally c => apply @execTally_within _ _ _ (.refl _ _) c s' hs <;> exact Area.mem_of_contains rfl
  | twait c => apply @execTwait_within _ _ _ (.refl _ _) c s' hs <;> exact Area.mem_of_contains rfl
  | streamVectorEnterA c rows parityOk =>
    apply @execStreamVectorEnterA_within _ _ _ (.refl _ _) c rows parityOk s' hs <;> exact Area.mem_of_contains rfl
  | accumulatorCombine c parityOk =>
    apply @execAccumulatorCombine_within _ _ _ (.refl _ _) c parityOk s' hs <;> exact Area.mem_of_contains rfl
  | drainRead c parityOk => apply @execDrainRead_within _ _ _ (.refl _ _) c parityOk s' hs <;> exact Area.mem_of_contains rfl
  | stageWatchdogTimeout c => apply @execStageWatchdogTimeout_within _ _ _ (.refl _ _) c s' hs <;> exact Area.mem_of_contains rfl
  | tagWaitRetry c w rows => apply @execTagWaitRetry_within _ _ _ (.refl _ _) c w rows s' hs <;> exact Area.mem_of_contains rfl
  | rowArbiterDeferredGrant c w ecc =>
    apply @execRowArbiterDeferredGrant_within _ _ _ (.refl _ _) c w ecc s' hs <;> exact Area.mem_of_contains rfl
  | preemptStop c => exact execPreemptStop_within (.refl _ _) c s' hs (Area.mem_of_contains rfl)
  | coreQuietSave c ecc parityOk =>
    apply @execCoreQuietSave_within _ _ _ (.refl _ _) c ecc parityOk s' hs <;> exact Area.mem_of_contains rfl
  | yieldLimitExpire c => exact execYieldLimitExpire_within (.refl _ _) c s' hs (Area.mem_of_contains rfl)
  | coreRestore c readable => apply @execCoreRestore_within _ _ _ (.refl _ _) c readable s' hs <;> exact Area.mem_of_contains rfl
  | brakeApply die k => apply @execBrakeApply_within _ _ _ (.refl _ _) die k s' hs <;> exact Area.mem_of_contains rfl
  | brakeRelease die k => apply @execBrakeRelease_within _ _ _ (.refl _ _) die k s' hs <;> exact Area.mem_of_contains rfl
  | write p lost => apply @execWrite_within _ _ _ (.refl _ _) p lost s' hs <;> exact Area.mem_of_contains rfl
  | read p rows => apply @execRead_within _ _ _ (.refl _ _) p rows s' hs <;> exact Area.mem_of_contains rfl
  | ibufWrite p c => apply @execIbufWrite_within _ _ _ (.refl _ _) p c s' hs <;> exact Area.mem_of_contains rfl
  | routeWrite p c => apply @execRouteWrite_within _ _ _ (.refl _ _) p c s' hs <;> exact Area.mem_of_contains rfl
  | start p c => apply @execStart_within _ _ _ (.refl _ _) p c s' hs <;> exact Area.mem_of_contains rfl
  | programLoad c => apply @execProgramLoad_within _ _ _ (.refl _ _) c s' hs <;> exact Area.mem_of_contains rfl
  | stop p c => apply @execStop_within _ _ _ (.refl _ _) p c s' hs <;> exact Area.mem_of_contains rfl
  | maskWrite p atoms => apply @execMaskWrite_within _ _ _ (.refl _ _) p atoms s' hs <;> exact Area.mem_of_contains rfl
  | memWrite p ecc => apply @execMemWrite_within _ _ _ (.refl _ _) p ecc s' hs <;> exact Area.mem_of_contains rfl
  | memRead p ecc => apply @execMemRead_within _ _ _ (.refl _ _) p ecc s' hs <;> exact Area.mem_of_contains rfl
  | readData p => apply @execReadData_within _ _ _ (.refl _ _) p s' hs <;> exact Area.mem_of_contains rfl
  | faultReport p => apply @execFaultReport_within _ _ _ (.refl _ _) p s' hs <;> exact Area.mem_of_contains rfl
  | tallyArrival p => apply @execTallyArrival_within _ _ _ (.refl _ _) p s' hs <;> exact Area.mem_of_contains rfl
  | answer p => apply @execAnswer_within _ _ _ (.refl _ _) p s' hs <;> exact Area.mem_of_contains rfl
  | passDone p => apply @execPassDone_within _ _ _ (.refl _ _) p s' hs <;> exact Area.mem_of_contains rfl
  | routerForward idx => apply @execRouterForward_within _ _ _ (.refl _ _) idx s' hs <;> exact Area.mem_of_contains rfl
  | tallyHoldExpire idx => apply @execTallyHoldExpire_within _ _ _ (.refl _ _) idx s' hs <;> exact Area.mem_of_contains rfl
  | coreSleep c => exact execCoreSleep_within (.refl _ _) c s' hs (Area.mem_of_contains rfl)
  | routerSleep level index => exact execRouterSleep_within (.refl _ _) level index s' hs (Area.mem_of_contains rfl)
  | wake e => apply @execWake_within _ _ _ (.refl _ _) e s' hs <;> exact Area.mem_of_contains rfl
  | wakeDone e => apply @execWakeDone_within _ _ _ (.refl _ _) e s' hs <;> exact Area.mem_of_contains rfl
  | coreBleachDone c => apply @execCoreBleachDone_within _ _ _ (.refl _ _) c s' hs <;> exact Area.mem_of_contains rfl
  | hbmBleachDone x stack => apply @execHbmBleachDone_within _ _ _ (.refl _ _) x stack s' hs <;> exact Area.mem_of_contains rfl
  | hbmWriteQueueDrain stack pc =>
    apply @execHbmWriteQueueDrain_within _ _ _ (.refl _ _) stack pc s' hs <;> exact Area.mem_of_contains rfl
  | hbmRefresh stack pc bank => exact execHbmRefresh_within (.refl _ _) stack pc bank s' hs (Area.mem_of_contains rfl)
  | hbmNeighbourRefresh stack pc bank =>
    apply @execHbmNeighbourRefresh_within _ _ _ (.refl _ _) stack pc bank s' hs <;> exact Area.mem_of_contains rfl
  | hbmScrubRead stack atom ecc =>
    apply @execHbmScrubRead_within _ _ _ (.refl _ _) stack atom ecc s' hs <;> exact Area.mem_of_contains rfl
  | hbmFreqReq src stack value =>
    apply @execHbmFreqReq_within _ _ _ (.refl _ _) src stack value s' hs <;> exact Area.mem_of_contains rfl
  | hbmFreqChangeDone stack =>
    apply @execHbmFreqChangeDone_within _ _ _ (.refl _ _) stack s' hs <;> exact Area.mem_of_contains rfl
  | hbmRetrainReq src stack value =>
    apply @execHbmRetrainReq_within _ _ _ (.refl _ _) src stack value s' hs <;> exact Area.mem_of_contains rfl
  | hbmRetrainTrigger stack cause =>
    apply @execHbmRetrainTrigger_within _ _ _ (.refl _ _) stack cause s' hs <;> exact Area.mem_of_contains rfl
  | hbmRetrainDone stack ok =>
    apply @execHbmRetrainDone_within _ _ _ (.refl _ _) stack ok s' hs <;> exact Area.mem_of_contains rfl
  | descriptorFetch x slot => apply @execDescriptorFetch_within _ _ _ (.refl _ _) x slot s' hs <;> exact Area.mem_of_contains rfl
  | ringPoll x slot => apply @execRingPoll_within _ _ _ (.refl _ _) x slot s' hs <;> exact Area.mem_of_contains rfl
  | descNop x idx => apply @execDescNop_within _ _ _ (.refl _ _) x idx s' hs <;> exact Area.mem_of_contains rfl
  | xfer x idx shape => apply @execXfer_within _ _ _ (.refl _ _) x idx shape s' hs <;> exact Area.mem_of_contains rfl
  | launch x slot => apply @execLaunch_within _ _ _ (.refl _ _) x slot s' hs <;> exact Area.mem_of_contains rfl
  | wait x idx flag => apply @execWait_within _ _ _ (.refl _ _) x idx flag s' hs <;> exact Area.mem_of_contains rfl
  | waitPoll x idx flag => apply @execWaitPoll_within _ _ _ (.refl _ _) x idx flag s' hs <;> exact Area.mem_of_contains rfl
  | signal x idx flag => apply @execSignal_within _ _ _ (.refl _ _) x idx flag s' hs <;> exact Area.mem_of_contains rfl
  | fixOpen x idx => apply @execFixOpen_within _ _ _ (.refl _ _) x idx s' hs <;> exact Area.mem_of_contains rfl
  | fixClose x idx => apply @execFixClose_within _ _ _ (.refl _ _) x idx s' hs <;> exact Area.mem_of_contains rfl
  | fixAbort x idx => apply @execFixAbort_within _ _ _ (.refl _ _) x idx s' hs <;> exact Area.mem_of_contains rfl
  | windowOpen x idx => apply @execWindowOpen_within _ _ _ (.refl _ _) x idx s' hs <;> exact Area.mem_of_contains rfl
  | windowClose x idx => apply @execWindowClose_within _ _ _ (.refl _ _) x idx s' hs <;> exact Area.mem_of_contains rfl
  | config x idx => apply @execConfig_within _ _ _ (.refl _ _) x idx s' hs <;> exact Area.mem_of_contains rfl
  | reduce x idx table => apply @execReduce_within _ _ _ (.refl _ _) x idx table s' hs <;> exact Area.mem_of_contains rfl
  | reshard x idx map => apply @execReshard_within _ _ _ (.refl _ _) x idx map s' hs <;> exact Area.mem_of_contains rfl
  | streamCreate x idx => apply @execStreamCreate_within _ _ _ (.refl _ _) x idx s' hs <;> exact Area.mem_of_contains rfl
  | streamDestroy x idx => apply @execStreamDestroy_within _ _ _ (.refl _ _) x idx s' hs <;> exact Area.mem_of_contains rfl
  | streamArm x idx => apply @execStreamArm_within _ _ _ (.refl _ _) x idx s' hs <;> exact Area.mem_of_contains rfl
  | fence x idx => apply @execFence_within _ _ _ (.refl _ _) x idx s' hs <;> exact Area.mem_of_contains rfl
  | timestamp x idx => apply @execTimestamp_within _ _ _ (.refl _ _) x idx s' hs <;> exact Area.mem_of_contains rfl
  | streamArmService x n => apply @execStreamArmService_within _ _ _ (.refl _ _) x n s' hs <;> exact Area.mem_of_contains rfl
  | pieceIssue t => apply @execPieceIssue_within _ _ _ (.refl _ _) t s' hs <;> exact Area.mem_of_contains rfl
  | transferComplete t => apply @execTransferComplete_within _ _ _ (.refl _ _) t s' hs <;> exact Area.mem_of_contains rfl
  | deadlineMiss t => apply @execDeadlineMiss_within _ _ _ (.refl _ _) t s' hs <;> exact Area.mem_of_contains rfl
  | pageResponse port t code =>
    apply @execPageResponse_within _ _ _ (.refl _ _) port t code s' hs <;> exact Area.mem_of_contains rfl
  | pageResponseTimeout port t =>
    apply @execPageResponseTimeout_within _ _ _ (.refl _ _) port t s' hs <;> exact Area.mem_of_contains rfl
  | atsInvalidation fn page pasid =>
    apply @execAtsInvalidation_within _ _ _ (.refl _ _) fn page pasid s' hs <;> exact Area.mem_of_contains rfl
  | gatewayOutbound die sp p =>
    apply @execGatewayOutbound_within _ _ _ (.refl _ _) die sp p s' hs <;> exact Area.mem_of_contains rfl
  | gatewayInbound die sp p =>
    apply @execGatewayInbound_within _ _ _ (.refl _ _) die sp p s' hs <;> exact Area.mem_of_contains rfl
  | sqTail via x value => apply @execSqTail_within _ _ _ (.refl _ _) via x value s' hs <;> exact Area.mem_of_contains rfl
  | streamArmDoorbell via x value =>
    apply @execStreamArmDoorbell_within _ _ _ (.refl _ _) via x value s' hs <;> exact Area.mem_of_contains rfl
  | cqHead via x value => apply @execCqHead_within _ _ _ (.refl _ _) via x value s' hs <;> exact Area.mem_of_contains rfl
  | eventAck via x value => apply @execEventAck_within _ _ _ (.refl _ _) via x value s' hs <;> exact Area.mem_of_contains rfl
  | ctxOpen port x => apply @execCtxOpen_within _ _ _ (.refl _ _) port x s' hs <;> exact Area.mem_of_contains rfl
  | ctxRun port x => apply @execCtxRun_within _ _ _ (.refl _ _) port x s' hs <;> exact Area.mem_of_contains rfl
  | ctxPause port x => apply @execCtxPause_within _ _ _ (.refl _ _) port x s' hs <;> exact Area.mem_of_contains rfl
  | ctxPauseDone x => apply @execCtxPauseDone_within _ _ _ (.refl _ _) x s' hs <;> exact Area.mem_of_contains rfl
  | ctxResume port x => apply @execCtxResume_within _ _ _ (.refl _ _) port x s' hs <;> exact Area.mem_of_contains rfl
  | ctxStop port x => apply @execCtxStop_within _ _ _ (.refl _ _) port x s' hs <;> exact Area.mem_of_contains rfl
  | ctxStopDone x => apply @execCtxStopDone_within _ _ _ (.refl _ _) x s' hs <;> exact Area.mem_of_contains rfl
  | ctxKill port x => apply @execCtxKill_within _ _ _ (.refl _ _) port x s' hs <;> exact Area.mem_of_contains rfl
  | ctxCmdReserved port x => apply @execCtxCmdReserved_within _ _ _ (.refl _ _) port x s' hs <;> exact Area.mem_of_contains rfl
  | pkgStop port => apply @execPkgStop_within _ _ _ (.refl _ _) port s' hs <;> exact Area.mem_of_contains rfl
  | pkgStopped => exact execPkgStopped_within (.refl _ _) s' hs (Area.mem_of_contains rfl)
  | pkgRestart port => apply @execPkgRestart_within _ _ _ (.refl _ _) port s' hs <;> exact Area.mem_of_contains rfl
  | leaseAcquire port => apply @execLeaseAcquire_within _ _ _ (.refl _ _) port s' hs <;> exact Area.mem_of_contains rfl
  | leaseRelease port => apply @execLeaseRelease_within _ _ _ (.refl _ _) port s' hs <;> exact Area.mem_of_contains rfl
  | leaseTimeout port => apply @execLeaseTimeout_within _ _ _ (.refl _ _) port s' hs <;> exact Area.mem_of_contains rfl
  | fixFlip x => apply @execFixFlip_within _ _ _ (.refl _ _) x s' hs <;> exact Area.mem_of_contains rfl
  | fixPageCopyHome stack page =>
    apply @execFixPageCopyHome_within _ _ _ (.refl _ _) stack page s' hs <;> exact Area.mem_of_contains rfl
  | fixPublishSignals x flag =>
    apply @execFixPublishSignals_within _ _ _ (.refl _ _) x flag s' hs <;> exact Area.mem_of_contains rfl
  | coreSpareAssign c agreed =>
    apply @execCoreSpareAssign_within _ _ _ (.refl _ _) c agreed s' hs <;> exact Area.mem_of_contains rfl
  | replay x pass => apply @execReplay_within _ _ _ (.refl _ _) x pass s' hs <;> exact Area.mem_of_contains rfl
  | linkLoss port ev => apply @execLinkLoss_within _ _ _ (.refl _ _) port ev s' hs <;> exact Area.mem_of_contains rfl
  | linkUp port => apply @execLinkUp_within _ _ _ (.refl _ _) port s' hs <;> exact Area.mem_of_contains rfl
  | pfFlr port => apply @execPfFlr_within _ _ _ (.refl _ _) port s' hs <;> exact Area.mem_of_contains rfl
  | vfFlr port vf => apply @execVfFlr_within _ _ _ (.refl _ _) port vf s' hs <;> exact Area.mem_of_contains rfl
  | pciVfCtxWrite port idx value =>
    apply @execPciVfCtxWrite_within _ _ _ (.refl _ _) port idx value s' hs <;> exact Area.mem_of_contains rfl
  | bar4Read port off len ecc =>
    apply @execBar4Read_within _ _ _ (.refl _ _) port off len ecc s' hs <;> exact Area.mem_of_contains rfl
  | bar4Write port off bytes ecc =>
    apply @execBar4Write_within _ _ _ (.refl _ _) port off bytes ecc s' hs <;> exact Area.mem_of_contains rfl
  | poisonedWrite port => exact execPoisonedWrite_within (.refl _ _) port s' hs (Area.mem_of_contains rfl)
  | configRequestNotReady port => exact execConfigRequestNotReady_within (.refl _ _) port s' hs (Area.mem_of_contains rfl)
  | getStatus port => apply @execGetStatus_within _ _ _ (.refl _ _) port s' hs <;> exact Area.mem_of_contains rfl
  | getCert port => apply @execGetCert_within _ _ _ (.refl _ _) port s' hs <;> exact Area.mem_of_contains rfl
  | getQuote port nonce mask =>
    apply @execGetQuote_within _ _ _ (.refl _ _) port nonce mask s' hs <;> exact Area.mem_of_contains rfl
  | doeUnsupported q => exact execDoeUnsupported_within (.refl _ _) q s' hs (Area.mem_of_contains rfl)
  | rolloverKeyReady => apply @execRolloverKeyReady_within _ _ _ (.refl _ _) s' hs <;> exact Area.mem_of_contains rfl
  | keyInstall src addr target =>
    apply @execKeyInstall_within _ _ _ (.refl _ _) src addr target s' hs <;> exact Area.mem_of_contains rfl
  | keyRevoke src target => apply @execKeyRevoke_within _ _ _ (.refl _ _) src target s' hs <;> exact Area.mem_of_contains rfl
  | firmwareWrite src addr len =>
    apply @execFirmwareWrite_within _ _ _ (.refl _ _) src addr len s' hs <;> exact Area.mem_of_contains rfl
  | firmwareWriteDone ok => apply @execFirmwareWriteDone_within _ _ _ (.refl _ _) ok s' hs <;> exact Area.mem_of_contains rfl
  | dspNop n io => apply @execDspNop_within _ _ _ (.refl _ _) n io s' hs <;> exact Area.mem_of_contains rfl
  | dspMac n io => apply @execDspMac_within _ _ _ (.refl _ _) n io s' hs <;> exact Area.mem_of_contains rfl
  | dspMov n io => apply @execDspMov_within _ _ _ (.refl _ _) n io s' hs <;> exact Area.mem_of_contains rfl
  | dspOut n io => apply @execDspOut_within _ _ _ (.refl _ _) n io s' hs <;> exact Area.mem_of_contains rfl
  | dspSrch n io => apply @execDspSrch_within _ _ _ (.refl _ _) n io s' hs <;> exact Area.mem_of_contains rfl
  | dspAg n io => apply @execDspAg_within _ _ _ (.refl _ _) n io s' hs <;> exact Area.mem_of_contains rfl
  | dspAgset n io => apply @execDspAgset_within _ _ _ (.refl _ _) n io s' hs <;> exact Area.mem_of_contains rfl
  | dspLoop n io => apply @execDspLoop_within _ _ _ (.refl _ _) n io s' hs <;> exact Area.mem_of_contains rfl
  | dspHalt n io => apply @execDspHalt_within _ _ _ (.refl _ _) n io s' hs <;> exact Area.mem_of_contains rfl
  | dspRun n => exact execDspRun_within (.refl _ _) n s' hs (Area.mem_of_contains rfl)
  | bramPortAccess die block portB acc ecc =>
    apply @execBramPortAccess_within _ _ _ (.refl _ _) die block portB acc ecc s' hs <;> exact Area.mem_of_contains rfl
  | tileTxPacket die tp p wellFramed =>
    apply @execTileTxPacket_within _ _ _ (.refl _ _) die tp p wellFramed s' hs <;> exact Area.mem_of_contains rfl
  | tileRxDelivery die tp p =>
    apply @execTileRxDelivery_within _ _ _ (.refl _ _) die tp p s' hs <;> exact Area.mem_of_contains rfl
  | tileReadTimeout die tp tag =>
    apply @execTileReadTimeout_within _ _ _ (.refl _ _) die tp tag s' hs <;> exact Area.mem_of_contains rfl
  | tlyClr die tp => exact execTlyClr_within (.refl _ _) die tp s' hs (Area.mem_of_contains rfl)
  | rawBlockReceive die lane block bad =>
    apply @execRawBlockReceive_within _ _ _ (.refl _ _) die lane block bad s' hs <;> exact Area.mem_of_contains rfl
  | rawBlockTransmit die lane block =>
    apply @execRawBlockTransmit_within _ _ _ (.refl _ _) die lane block s' hs <;> exact Area.mem_of_contains rfl
  | gpioShort die pin => apply @execGpioShort_within _ _ _ (.refl _ _) die pin s' hs <;> exact Area.mem_of_contains rfl
  | gpioShortClear src die mask =>
    apply @execGpioShortClear_within _ _ _ (.refl _ _) src die mask s' hs <;> exact Area.mem_of_contains rfl
  | fabricIrq die region num =>
    apply @execFabricIrq_within _ _ _ (.refl _ _) die region num s' hs <;> exact Area.mem_of_contains rfl
  | configHeaderChecked die =>
    apply @execConfigHeaderChecked_within _ _ _ (.refl _ _) die s' hs <;> exact Area.mem_of_contains rfl
  | configSegmentVerified die =>
    apply @execConfigSegmentVerified_within _ _ _ (.refl _ _) die s' hs <;> exact Area.mem_of_contains rfl
  | configBleachDone die => apply @execConfigBleachDone_within _ _ _ (.refl _ _) die s' hs <;> exact Area.mem_of_contains rfl
  | configStartOrder die => apply @execConfigStartOrder_within _ _ _ (.refl _ _) die s' hs <;> exact Area.mem_of_contains rfl
  | waitLockTimeout die => apply @execWaitLockTimeout_within _ _ _ (.refl _ _) die s' hs <;> exact Area.mem_of_contains rfl
  | fullStreamLoad die => apply @execFullStreamLoad_within _ _ _ (.refl _ _) die s' hs <;> exact Area.mem_of_contains rfl
  | flashWrite src die value =>
    apply @execFlashWrite_within _ _ _ (.refl _ _) src die value s' hs <;> exact Area.mem_of_contains rfl
  | flashWriteDone die ok => apply @execFlashWriteDone_within _ _ _ (.refl _ _) die ok s' hs <;> exact Area.mem_of_contains rfl
  | clockSourceFail die clk =>
    apply @execClockSourceFail_within _ _ _ (.refl _ _) die clk s' hs <;> exact Area.mem_of_contains rfl
  | clockSourceReady die clk => exact execClockSourceReady_within (.refl _ _) die clk s' hs (Area.mem_of_contains rfl)
  | loopLock die loop => apply @execLoopLock_within _ _ _ (.refl _ _) die loop s' hs <;> exact Area.mem_of_contains rfl
  | clkRefSelWrite src die value =>
    apply @execClkRefSelWrite_within _ _ _ (.refl _ _) src die value s' hs <;> exact Area.mem_of_contains rfl
  | clkSrcSelWrite src die value =>
    apply @execClkSrcSelWrite_within _ _ _ (.refl _ _) src die value s' hs <;> exact Area.mem_of_contains rfl
  | clkFabFreqWrite src die value =>
    apply @execClkFabFreqWrite_within _ _ _ (.refl _ _) src die value s' hs <;> exact Area.mem_of_contains rfl
  | fabFreqSeqDone die => apply @execFabFreqSeqDone_within _ _ _ (.refl _ _) die s' hs <;> exact Area.mem_of_contains rfl
  | clkMeasGo src die value =>
    apply @execClkMeasGo_within _ _ _ (.refl _ _) src die value s' hs <;> exact Area.mem_of_contains rfl
  | clkMeasDone die edges => apply @execClkMeasDone_within _ _ _ (.refl _ _) die edges s' hs <;> exact Area.mem_of_contains rfl
  | clkOutCtlWrite src die value =>
    apply @execClkOutCtlWrite_within _ _ _ (.refl _ _) src die value s' hs <;> exact Area.mem_of_contains rfl
  | clkGateWrite src die value =>
    apply @execClkGateWrite_within _ _ _ (.refl _ _) src die value s' hs <;> exact Area.mem_of_contains rfl
  | gatedBlockAccess src die block =>
    apply @execGatedBlockAccess_within _ _ _ (.refl _ _) src die block s' hs <;> exact Area.mem_of_contains rfl
  | governorTick watts vin => apply @execGovernorTick_within _ _ _ (.refl _ _) watts vin s' hs <;> exact Area.mem_of_contains rfl
  | levelSlewDone die k => apply @execLevelSlewDone_within _ _ _ (.refl _ _) die k s' hs <;> exact Area.mem_of_contains rfl
  | regionCurrentAlarm die k =>
    apply @execRegionCurrentAlarm_within _ _ _ (.refl _ _) die k s' hs <;> exact Area.mem_of_contains rfl
  | inputFastTrip => apply @execInputFastTrip_within _ _ _ (.refl _ _) s' hs <;> exact Area.mem_of_contains rfl
  | thermalSample die k temp =>
    apply @execThermalSample_within _ _ _ (.refl _ _) die k temp s' hs <;> exact Area.mem_of_contains rfl
  | watchdogKick die proc value =>
    apply @execWatchdogKick_within _ _ _ (.refl _ _) die proc value s' hs <;> exact Area.mem_of_contains rfl
  | watchdogWarning die proc =>
    apply @execWatchdogWarning_within _ _ _ (.refl _ _) die proc s' hs <;> exact Area.mem_of_contains rfl
  | watchdogExpire die proc =>
    apply @execWatchdogExpire_within _ _ _ (.refl _ _) die proc s' hs <;> exact Area.mem_of_contains rfl
  | helmProcessorRunning die proc =>
    apply @execHelmProcessorRunning_within _ _ _ (.refl _ _) die proc s' hs <;> exact Area.mem_of_contains rfl
  | crossCheck die proc act agree =>
    apply @execCrossCheck_within _ _ _ (.refl _ _) die proc act agree s' hs <;> exact Area.mem_of_contains rfl
  | intMessage die num helm =>
    apply @execIntMessage_within _ _ _ (.refl _ _) die num helm s' hs <;> exact Area.mem_of_contains rfl
  | intMsixDelivery die n => apply @execIntMsixDelivery_within _ _ _ (.refl _ _) die n s' hs <;> exact Area.mem_of_contains rfl
  | intClaim src die proc => apply @execIntClaim_within _ _ _ (.refl _ _) src die proc s' hs <;> exact Area.mem_of_contains rfl
  | intComplete src die proc value =>
    apply @execIntComplete_within _ _ _ (.refl _ _) src die proc value s' hs <;> exact Area.mem_of_contains rfl
  | intRaise src die value => apply @execIntRaise_within _ _ _ (.refl _ _) src die value s' hs <;> exact Area.mem_of_contains rfl
  | intSrcWrite src die n value =>
    apply @execIntSrcWrite_within _ _ _ (.refl _ _) src die n value s' hs <;> exact Area.mem_of_contains rfl
  | intControllerSleep die => exact execIntControllerSleep_within (.refl _ _) die s' hs (Area.mem_of_contains rfl)
  | intControllerWake die => apply @execIntControllerWake_within _ _ _ (.refl _ _) die s' hs <;> exact Area.mem_of_contains rfl
  | moduleReset cause => apply @execModuleReset_within _ _ _ (.refl _ _) cause s' hs <;> exact Area.mem_of_contains rfl
  | pkgReset src value => apply @execPkgReset_within _ _ _ (.refl _ _) src value s' hs <;> exact Area.mem_of_contains rfl
  | startPhaseDone phase found =>
    apply @execStartPhaseDone_within _ _ _ (.refl _ _) phase found s' hs <;> exact Area.mem_of_contains rfl
  | soundingRegionDone die k fails =>
    apply @execSoundingRegionDone_within _ _ _ (.refl _ _) die k fails s' hs <;> exact Area.mem_of_contains rfl
  | partitionReset port value =>
    apply @execPartitionReset_within _ _ _ (.refl _ _) port value s' hs <;> exact Area.mem_of_contains rfl
  | partitionResetRelease checked =>
    apply @execPartitionResetRelease_within _ _ _ (.refl _ _) checked s' hs <;> exact Area.mem_of_contains rfl
  | sallanBringup die sp => apply @execSallanBringup_within _ _ _ (.refl _ _) die sp s' hs <;> exact Area.mem_of_contains rfl
  | sallanDetectDone die sp res =>
    apply @execSallanDetectDone_within _ _ _ (.refl _ _) die sp res s' hs <;> exact Area.mem_of_contains rfl
  | sallanRungDwellDone die sp errs =>
    apply @execSallanRungDwellDone_within _ _ _ (.refl _ _) die sp errs s' hs <;> exact Area.mem_of_contains rfl
  | sallanRetryTimer die sp =>
    apply @execSallanRetryTimer_within _ _ _ (.refl _ _) die sp s' hs <;> exact Area.mem_of_contains rfl
  | sallanRetrain die sp trig =>
    apply @execSallanRetrain_within _ _ _ (.refl _ _) die sp trig s' hs <;> exact Area.mem_of_contains rfl
  | sallanQuickRetrainDone die sp ok =>
    apply @execSallanQuickRetrainDone_within _ _ _ (.refl _ _) die sp ok s' hs <;> exact Area.mem_of_contains rfl
  | sallanTest src die sp => apply @execSallanTest_within _ _ _ (.refl _ _) src die sp s' hs <;> exact Area.mem_of_contains rfl
  | sallanTestEnd src die sp =>
    apply @execSallanTestEnd_within _ _ _ (.refl _ _) src die sp s' hs <;> exact Area.mem_of_contains rfl
  | sallanFlitReceive die sp seq crcOk ackTo pkts =>
    apply @execSallanFlitReceive_within _ _ _ (.refl _ _) die sp seq crcOk ackTo pkts s' hs <;> exact Area.mem_of_contains rfl
  | switchOpen cause => apply @execSwitchOpen_within _ _ _ (.refl _ _) cause s' hs <;> exact Area.mem_of_contains rfl
  | switchClose => exact execSwitchClose_within (.refl _ _) s' hs (Area.mem_of_contains rfl)
  | mgmtRstN lowNs hotJunction outlet =>
    apply @execMgmtRstN_within _ _ _ (.refl _ _) lowNs hotJunction outlet s' hs <;> exact Area.mem_of_contains rfl
  | coolantSample inlet outlet leak =>
    apply @execCoolantSample_within _ _ _ (.refl _ _) inlet outlet leak s' hs <;> exact Area.mem_of_contains rfl
  | thermalTrip junction outlet =>
    apply @execThermalTrip_within _ _ _ (.refl _ _) junction outlet s' hs <;> exact Area.mem_of_contains rfl
  | state => exact execState_within (.refl _ _) s' hs (Area.mem_of_contains rfl)
  | serial => exact execSerial_within (.refl _ _) s' hs (Area.mem_of_contains rfl)
  | power vin => apply @execPower_within _ _ _ (.refl _ _) vin s' hs <;> exact Area.mem_of_contains rfl
  | coolant => exact execCoolant_within (.refl _ _) s' hs (Area.mem_of_contains rfl)
  | dies => exact execDies_within (.refl _ _) s' hs (Area.mem_of_contains rfl)
  | clearAlert => apply @execClearAlert_within _ _ _ (.refl _ _) s' hs <;> exact Area.mem_of_contains rfl
  | alertResponseRead => exact execAlertResponseRead_within (.refl _ _) s' hs (Area.mem_of_contains rfl)
  | smbusTimeout => exact execSmbusTimeout_within (.refl _ _) s' hs
  | registerWrite src place size value =>
    apply @execRegisterWrite_within _ _ _ (.refl _ _) src place size value s' hs <;> exact Area.mem_of_contains rfl
  | hostReadCompletion port t n data =>
    apply @execHostReadCompletion_within _ _ _ (.refl _ _) port t n data s' hs <;> exact Area.mem_of_contains rfl
  | hostWriteAck port t n => apply @execHostWriteAck_within _ _ _ (.refl _ _) port t n s' hs <;> exact Area.mem_of_contains rfl
  | atsTranslationCompletion fn page pasid r w =>
    apply @execAtsTranslationCompletion_within _ _ _ (.refl _ _) fn page pasid r w s' hs <;> exact Area.mem_of_contains rfl
  | registerRead src place size =>
    apply @execRegisterRead_within _ _ _ (.refl _ _) src place size s' hs <;> exact Area.mem_of_contains rfl
  | vfEnable port en num => apply @execVfEnable_within _ _ _ (.refl _ _) port en num s' hs <;> exact Area.mem_of_contains rfl
  | hbmHot stack temp => apply @execHbmHot_within _ _ _ (.refl _ _) stack temp s' hs <;> exact Area.mem_of_contains rfl
  | hbmOpenIdle stack pc bank => exact execHbmOpenIdle_within (.refl _ _) stack pc bank s' hs (Area.mem_of_contains rfl)
  | rxEntryTaken die tp rsp =>
    apply @execRxEntryTaken_within _ _ _ (.refl _ _) die tp rsp s' hs <;> exact Area.mem_of_contains rfl
  | helmTimerExpire die proc =>
    apply @execHelmTimerExpire_within _ _ _ (.refl _ _) die proc s' hs <;> exact Area.mem_of_contains rfl
  | dutyBrakeEnd => apply @execDutyBrakeEnd_within _ _ _ (.refl _ _) s' hs <;> exact Area.mem_of_contains rfl
  | keyWriteDone ok => apply @execKeyWriteDone_within _ _ _ (.refl _ _) ok s' hs <;> exact Area.mem_of_contains rfl
  | ctxResumeDone x => apply @execCtxResumeDone_within _ _ _ (.refl _ _) x s' hs <;> exact Area.mem_of_contains rfl
  | pkgRestartDone => exact execPkgRestartDone_within (.refl _ _) s' hs (Area.mem_of_contains rfl)
  | minIntervalExpire => apply @execMinIntervalExpire_within _ _ _ (.refl _ _) s' hs <;> exact Area.mem_of_contains rfl

/-! ## How an access to BAR0 ends -/

theorem State.barAccess_bar0 {s : State} {src : Src} (h : s.reaches src = .granted) (off size : Nat)
    (act : List Part → State) : s.barAccess src .bar0 off size act = s.onParts src (s.parts off size) act := by
  simp only [State.barAccess, h]

/-- A read of BAR0 reads the parts of the access one after the other and returns their bytes (R17). -/
theorem exec_registerRead_bar0 {s : State} {src : Src} (h : s.reaches src = .granted) (off : BitVec 28) (size : Nat) :
    exec (.registerRead src ⟨.bar0, off⟩ size) s = .next (s.onParts src (s.parts off.toNat size) fun l =>
      (s.readParts src l).1.send (.readDone src (s.readParts src l).2)) :=
  congrArg _ (State.barAccess_bar0 h _ _ _)

/-- A write of BAR0 writes the parts of the access one after the other (R17). -/
theorem exec_registerWrite_bar0 {s : State} {src : Src} (h : s.reaches src = .granted) (off : BitVec 28) (size v : Nat) :
    exec (.registerWrite src ⟨.bar0, off⟩ size v) s = .next (s.onParts src (s.parts off.toNat size) fun l =>
      l.foldl (fun s p => s.writePart src v p) s) :=
  congrArg _ (State.barAccess_bar0 h _ _ _)

theorem State.onParts_none (s : State) (src : Src) (act : List Part → State) :
    s.onParts src none act = s.unsupported src := rfl

theorem State.onParts_gated {s : State} {l : List Part} {die b : Nat} (h : s.gatedPart l = some (die, b)) (src : Src)
    (act : List Part → State) : s.onParts src (some l) act = (s.completerAbort src).gateErr die b := by
  simp only [State.onParts, h]

theorem State.onParts_ungated {s : State} {l : List Part} (h : s.gatedPart l = none) (src : Src) (act : List Part → State) :
    s.onParts src (some l) act = act l := by
  simp only [State.onParts, h]

/-- No access to a die that is not present has parts (R16). -/
theorem State.parts_absent {s : State} {off : Nat} (h : s.dies ≤ off / 0x2000000) (size : Nat) : s.parts off size = none :=
  if_pos h

@[simp] theorem State.unsupported_regs (s : State) (src : Src) : (s.unsupported src).regs = s.regs := by
  cases src <;> rfl

/-! ## One part of an access -/

theorem State.readParts_singleton (s : State) (src : Src) (p : Part) :
    s.readParts src [p] = ((s.readPart src p).1, (s.readPart src p).2 * 2 ^ (8 * p.start)) := rfl

/-- A read that a port's class forbids is counted and returns 0; nothing is recorded of it (R20, R257). -/
theorem State.readPart_denied {s : State} {p : Fin 2} {r : Rg} {inst elem : Nat}
    (h : s.classAdmits (.port p) r inst elem false = false) (die b len start : Nat) :
    s.readPart (.port p) ⟨.reg die r inst elem b, len, start⟩ = (s.violation p, 0) := by
  simp only [State.readPart, h, Bool.not_false, if_true]
  rfl

theorem State.readPart_own {s : State} {src : Src} {die : Nat} {r : Rg} {inst elem : Nat}
    (ha : s.classAdmits src r inst elem false = true) (hk : s.copyKind die r inst elem = .own) (hr : r ≠ .INT_CLAIM)
    (b len start : Nat) : s.readPart src ⟨.reg die r inst elem b, len, start⟩ =
      (s, natBits (s.regVal src r inst elem) (8 * b) (8 * len)) := by
  simp only [State.readPart, ha, hk, hr, Bool.not_true, Bool.false_eq_true, if_false]

theorem State.writePart_denied {s : State} {src : Src} {r : Rg} {inst elem : Nat}
    (h : s.classAdmits src r inst elem true = false) (v die b len start : Nat) :
    s.writePart src v ⟨.reg die r inst elem b, len, start⟩ =
      if r.reachesRwl elem (r.touched b len) then (s.countDenied src).lwrErr src (r.offset inst elem + b)
      else s.countDenied src := by
  simp only [State.writePart, h, Bool.not_false, if_true]

theorem State.writePart_own {s : State} {src : Src} {die : Nat} {r : Rg} {inst elem : Nat}
    (ha : s.classAdmits src r inst elem true = true) (hk : s.copyKind die r inst elem = .own) (v b len start : Nat) :
    s.writePart src v ⟨.reg die r inst elem b, len, start⟩ =
      s.regWrite src r inst elem (s.merged r inst elem b len (natBits v (8 * start) (8 * len))) (r.touched b len) := by
  simp only [State.writePart, ha, hk, Bool.not_true, Bool.false_eq_true, if_false]

/-- A register that only holds plain fields has no command of its own: a write puts the fields it reaches. -/
theorem State.regWrite_plain {r : Rg}
    (h : r ∈ [Rg.XFR_MODE, .CTX_MSIX, .YLD_STAGE_WDOG, .YLD_ROW_CE_LIMIT, .INT_CTL, .PKG_PART_CORE, .PCI_DBG_CTL])
    (s : State) (src : Src) (inst elem m : Nat) (l : List (Fld × Nat)) :
    s.regWrite src r inst elem m l = s.putFields inst elem m l := by
  simp only [List.mem_cons, List.not_mem_nil, or_false] at h
  rcases h with rfl | rfl | rfl | rfl | rfl | rfl | rfl <;> rfl

/-! ## What a refused write leaves -/

/-- The fields that a refused write may change: the count of the violation, and the record of a refused RWL write (R20, R257). -/
def refusalFields : List Fld := [.PCI_ACC_VIOL_COUNT, .PKG_LWR_ERR_OFFSET, .PKG_LWR_ERR_SRC, .PKG_LWR_ERR_COUNT]

theorem State.reg_countDenied_field (s : State) (src : Src) {f : Fld} (i : Nat) (hf : f ∉ refusalFields) :
    (s.countDenied src).reg f i = s.reg f i := by
  cases src with
  | port p => exact State.reg_bump_field _ _ _ _ _ (List.ne_of_not_mem_cons hf)
  | helm d p => rfl

theorem State.reg_lwrErr_field (s : State) (src : Src) (off : Nat) {f : Fld} (i : Nat) (hf : f ∉ refusalFields) :
    (s.lwrErr src off).reg f i = s.reg f i := by
  simp only [refusalFields, List.mem_cons, List.not_mem_nil, or_false, not_or] at hf
  obtain ⟨-, hoffset, hsrc, hcount⟩ := hf
  simp [State.lwrErr, hoffset, hsrc, hcount]

/-- A write that the class forbids changes registers alone, and of them the refusal fields alone. -/
theorem State.writePart_denied_frame {s : State} {src : Src} {r : Rg} {inst elem : Nat}
    (h : s.classAdmits src r inst elem true = false) (v die b len start : Nat) :
    let t := s.writePart src v ⟨.reg die r inst elem b, len, start⟩
    t = { s with regs := t.regs } ∧ ∀ f i, f ∉ refusalFields → t.reg f i = s.reg f i := by
  rw [State.writePart_denied h]
  split
  · refine ⟨by cases src <;> rfl, fun f i hf => ?_⟩
    rw [State.reg_lwrErr_field _ _ _ _ hf, State.reg_countDenied_field _ _ _ hf]
  · exact ⟨by cases src <;> rfl, fun f i hf => State.reg_countDenied_field _ _ _ hf⟩

/-- Both ports take requests, and no context has an owner. -/
def portsReady : State :=
  { State.reset with ports := [(0, { PortS.reset with ready := true }), (1, { PortS.reset with ready := true })] }

end Sys2Proof.Machine

open Sys2Proof Sys2Proof.Machine

/-! ## The obligations -/

/-- Settles O1: a queue with a command at its front is the second case of the step. -/
theorem stepRunsFrontCommand : Obligations.StepRunsFrontCommand := fun _ _ _ => step_of_pending

/-- Settles O7: no field is listed after reset, and each row of the tables fits its width. -/
theorem resetRegisters : Obligations.ResetRegisters := ⟨State.reg_reset, Fld.info_reset_lt⟩

/-- Settles O3: no row of the table stops the module, and each row's meaning is within its reach. -/
theorem everyCommandStaysWithinItsReach : Obligations.EveryCommandStaysWithinItsReach := fun i s =>
  let ⟨t, ht⟩ := exec_completes i s
  ⟨t, ht, within_reach_of_exec ht⟩

/-- Settles O57: the access has one part, which no gate stops, in a copy of its own. -/
theorem registerAccessComplete : Obligations.RegisterAccessComplete := by
  unfold Obligations.RegisterAccessComplete
  intro src off size v die inst elem r s hreach hparts hgate hkind _
  rw [exec_registerRead_bar0 hreach, exec_registerWrite_bar0 hreach, hparts, State.onParts_ungated hgate,
    State.onParts_ungated hgate]
  refine ⟨fun hadmit hclaim => ?_, fun hadmit hplain => ?_⟩
  · rw [State.readParts_singleton, State.readPart_own hadmit hkind hclaim]
    simp
  · rw [List.foldl_cons, List.foldl_nil, State.writePart_own hadmit hkind, State.regWrite_plain hplain]

/-- Settles O58, by where the access ends: it has no parts, a part of it is gated, or the class of its one part forbids it. -/
theorem refusedAccesses : Obligations.RefusedAccesses := by
  unfold Obligations.RefusedAccesses
  intro src off size v s hreach
  rw [exec_registerRead_bar0 hreach, exec_registerWrite_bar0 hreach]
  refine ⟨fun hnone => ?_, fun l die b hparts hgate => ?_, fun p die inst elem r hsrc hparts hgate =>
    ⟨fun hdeny => ?_, fun hdeny => ?_⟩⟩
  · have hparts : s.parts off.toNat size = none := hnone.elim (State.parts_absent · size) id
    simp only [hparts, State.onParts_none, State.unsupported_regs, and_self]
  · simp only [hparts, State.onParts_gated hgate, and_self]
  · subst hsrc
    rw [hparts, State.onParts_ungated hgate, State.readParts_singleton, State.readPart_denied hdeny, Nat.zero_mul]
  · rw [hparts, State.onParts_ungated hgate]
    exact ⟨_, rfl, State.writePart_denied_frame hdeny v die 0 size 0⟩

/-- A read that `RefusedAccesses` speaks of: port 0 reads CTX_RING of context 1, which it does not own. -/
theorem refusedAccesses_witness :
    exec (.registerRead (.port 0) ⟨.bar0, 0xC00410⟩ 24) portsReady =
      .next ((portsReady.violation 0).send (.readDone (.port 0) 0)) :=
  ((refusedAccesses (.port 0) 0xC00410 24 0 portsReady (by decide +kernel)).2.2 0 0 1 0 .CTX_RING rfl (by decide +kernel)
    (by decide +kernel)).1 (by decide +kernel)
end

section
/-! SUPPORT and PROOFS for 02_number_formats.md: what a vector instruction that issues does to its core. -/

namespace Sys2Proof.Machine

/-! ## Lanes -/

/-- No lane format has more lanes than a lane mask of VCMP has bits (R75). -/
theorem lanes_laneFmt_le (lf : Nat) : lanes (laneFmt lf) ≤ 32 := by
  unfold laneFmt
  split <;> decide

theorem lanewise_succ_flags (n b : Nat) (g : Nat → Nat × NFlags) :
    (lanewise (n + 1) b g).2 = (lanewise n b g).2 ||| (g n).2 := by
  unfold lanewise
  rw [List.range_succ, List.foldl_append]
  rfl

/-- The flags of the whole are those of some lane (R59). -/
theorem lanewise_flags (n b : Nat) (g : Nat → Nat × NFlags) (j : Nat) :
    (lanewise n b g).2.getLsbD j = true ↔ ∃ i, i < n ∧ (g i).2.getLsbD j = true := by
  induction n with
  | zero => simp [lanewise]
  | succ n ih => rw [lanewise_succ_flags, BitVec.getLsbD_or, Bool.or_eq_true, ih, Nat.exists_lt_succ_right]

/-- Lanes of one bit form a mask: bit `i` is lane `i`'s. -/
theorem testBit_lanewise_one {n i : Nat} (hi : i < n) (g : Nat → Nat × NFlags) :
    (lanewise n 1 g).1.testBit i = decide ((g i).1 % 2 = 1) := by
  have hlane := lanewise_lane n 1 g i hi
  rw [Nat.one_mul, natBits, Nat.pow_one, Nat.shiftRight_eq_div_pow] at hlane
  rw [Nat.testBit_eq_decide_div_mod_eq, hlane]

theorem getLsbD_mask_lane {n i : Nat} (hn : n ≤ 32) (hi : i < n) (p : Nat → Bool) (g : Nat → NFlags) :
    (BitVec.ofNat 32 (lanewise n 1 fun i => (if p i then 1 else 0, g i)).1).getLsbD i = p i := by
  rw [BitVec.getLsbD_ofNat, testBit_lanewise_one hi, decide_eq_true (Nat.lt_of_lt_of_le hi hn), Bool.true_and]
  cases p i <;> rfl

theorem getLsbD_mask_above {n i : Nat} (hi : n ≤ i) (g : Nat → Nat × NFlags) :
    (BitVec.ofNat 32 (lanewise n 1 g).1).getLsbD i = false := by
  have hlt : (lanewise n 1 g).1 < 2 ^ n := (lanewise_lt n 1 g).trans_eq (congrArg _ (Nat.one_mul n))
  rw [BitVec.getLsbD_ofNat, Nat.testBit_lt_two_pow (hlt.trans_le (Nat.pow_le_pow_right Nat.two_pos hi)), Bool.and_false]

/-! ## Instructions that issue -/

section
variable {s : State} {c : CoreAddr} {o : Nat} {w : W32}

/-- A ready instruction of one core completes with the core `j` that its effect gives, which then passes on. -/
theorem State.Ready.completes (h : s.Ready c o w) {f : W32 → Core → Core} {j : Core}
    (hj : f w (s.core c.toNat).tick = j) :
    (.next (s.issueCore c.toNat o f) : Host.Outcome State Fault Refusal) = .next (s.setCore c.toNat j.next) := by
  rw [h.issueCore, hj]

/-- A special function over the lanes of a floating-point format takes lane `i`'s free value from the `i`-th that it draws (R56). -/
theorem State.Ready.vecSpecial (h : s.Ready c o w) {inf : FmtInfo} (hinf : (laneFmt (fLF w)).info = some inf)
    (g : SpecialFn) :
    let k := (s.core c.toNat).tick
    let f := laneFmt (fLF w)
    s.vecSpecial c.toNat o g = (s.setCore c.toNat (k.vecOut (fD w) 256 (lanewise (lanes f) f.bits fun i =>
      let x := lane f (k.vreg (fS w)) i
      let r := g f inf x.1 (Config.free (s.free + i))
      (r.1, x.2 ||| r.2))).next).drew (lanes f) := by
  simp only [State.vecSpecial, h.issue, State.core_modCore_self, State.modCore_setCore, State.modCore_free, hinf]

@[simp] theorem Core.vecOut_rng (k : Core) (vd b : Nat) (r : Nat × NFlags) : (k.vecOut vd b r).rng = k.rng := rfl

/-- The result of VCVT to a narrow format with lane `i` rounded by `rnd i`. -/
def Core.narrowBy (k : Core) (w : W32) (rnd : Nat → Rnd) : Core :=
  let f := laneFmt (fLF w)
  let nf := narrowFmt (wf w 0 4)
  k.vecOut (fD w) (lanes f * nf.bits) (lanewise (lanes f) nf.bits fun i =>
    let x := lane f (k.vreg (fS w)) i
    let r := encodeNum nf (rnd i) (wf w 5 1 == 1) true x.1
    (r.1, x.2 ||| r.2))

/-- VCVT rounds to nearest even where its word does not ask for stochastic rounding or the format does not take it (R57). -/
theorem Core.narrow_nearest (k : Core) (h : wf w 6 1 = 0 ∨ 1 < wf w 0 4) : k.narrow w = k.narrowBy w fun _ => .rne := by
  have hsr : (wf w 6 1 == 1 && decide (wf w 0 4 ≤ 1)) = false := by
    rcases h with h | h
    · rw [h]; rfl
    · rw [decide_eq_false (Nat.not_le.mpr h), Bool.and_false]
  simp only [Core.narrow, Core.narrowBy, hsr, Bool.false_eq_true, if_false]

/-- VCVT with stochastic rounding: lane `i` takes the generator's value after `i + 1` advances, and the generator ends after the
last lane's (R57, R58). -/
theorem Core.narrow_stochastic (k : Core) (hask : wf w 6 1 = 1) (hfmt : wf w 0 4 ≤ 1) :
    k.narrow w = { k.narrowBy w fun i => .sr ((advanceN k.rng (i + 1)).toNat % 65536) with
      rng := advanceN k.rng (lanes (laneFmt (fLF w))) } := by
  have hsr : (wf w 6 1 == 1 && decide (wf w 0 4 ≤ 1)) = true := by
    rw [hask, decide_eq_true hfmt]; rfl
  simp only [Core.narrow, Core.narrowBy, Core.vecOut_rng, hsr, if_true]

/-- A write that waits happens where the core's clock runs (R75). -/
theorem exec_vectorResultWrite {m : Nat} {b : Wb} (hclk : s.braked c.toNat = false) (hb : (s.core c.toNat).wb[m]? = some b) :
    exec (.vectorResultWrite c m) s =
      .next (s.setCore c.toNat (({ s.core c.toNat with wb := dropAt (s.core c.toNat).wb m } : Core).writeBack b)) := by
  simp only [exec, execVectorResultWrite, hb, hclk, Bool.false_eq_true, if_false]

end

end Sys2Proof.Machine

open Sys2Proof Sys2Proof.Machine

/-! ## The obligation -/

/-- Settles O15: a ready instruction completes with its effect on the core. VCMP is by the bits of its mask, VCVT and VSRCH by the
branch that their word and the search's kind take. -/
theorem vectorInstructionsComplete : Obligations.VectorInstructionsComplete := by
  unfold Obligations.VectorInstructionsComplete
  intro c s w k f n x y z put two special
  refine ⟨fun hvadd => hvadd.completes rfl, fun hvsub => hvsub.completes rfl, fun hvmul => hvmul.completes rfl,
    fun hvfma => hvfma.completes rfl, fun hvmin => hvmin.completes rfl, fun hvmax => hvmax.completes rfl, fun hvcmp => ?_,
    fun inf hinf hvexp2 => congrArg _ (hvexp2.vecSpecial hinf exp2Num),
    fun inf hinf hvrcp => congrArg _ (hvrcp.vecSpecial hinf rcpNum),
    fun inf hinf hvrsq => congrArg _ (hvrsq.vecSpecial hinf rsqNum),
    ⟨fun hvcvt hwide => ?_, fun hvcvt hnarrow hnearest => ?_, fun hvcvt hnarrow hask hfmt => ?_⟩,
    fun hvscl => hvscl.completes rfl, fun hvscm => hvscm.completes rfl, fun hvexpx => hvexpx.completes rfl,
    ⟨fun hvsrch hsame => ?_, fun hvsrch hother => ?_⟩, fun m b => exec_vectorResultWrite⟩
  · exact ⟨_, _, hvcmp.completes rfl, fun i hi => getLsbD_mask_lane (lanes_laneFmt_le _) hi _ _,
      fun i hi => getLsbD_mask_above hi _, lanewise_flags _ _ _⟩
  · exact hvcvt.completes (if_pos hwide)
  · exact hvcvt.completes ((if_neg (by omega)).trans (k.narrow_nearest hnearest))
  · exact hvcvt.completes ((if_neg (by omega)).trans (k.narrow_stochastic hask hfmt))
  · exact hvsrch.completes (if_neg (not_not.mpr hsame))
  · exact hvsrch.completes (if_pos hother)
end

section
/-! SUPPORT and PROOFS for 03_engines.md: the queue and the stages of the matrix engine, faults and stops of a core, the packets
that load it, the frame of the instructions that act on it alone, and the brakes, the governor and the thermal samples. -/

namespace Sys2Proof.Machine

/-! ## The matrix engine (R61 to R73, R81) -/

section
variable {s : State} {c : CoreAddr} {o : Nat} {w : W32}

theorem Core.enqueue_of_room {k : Core} (h : k.sq.length < 4) (w : W32) (n : Nat) :
    k.enqueue w n = ({ k with sq := k.sq ++
      [⟨w, physReg k.rrb (if opc w = 0x1A then fD w else if opc w = 0x1B then fD w else 0), n⟩] } : Core).next :=
  if_neg (Nat.not_le.mpr h)

/-- A matrix instruction that is ready joins the queue where it has room (R73). -/
theorem State.Ready.enqueues (h : s.Ready c o w) (hroom : (s.core c.toNat).tick.sq.length < 4) (n : W32 → Nat) :
    let k := (s.core c.toNat).tick
    s.issue c.toNat o (fun w s => s.modCore c.toNat (fun k => k.enqueue w (n w))) = s.setCore c.toNat ({ k with
      sq := k.sq ++ [⟨w, physReg k.rrb (if o = 0x1A then fD w else if o = 0x1B then fD w else 0), n w⟩] } : Core).next := by
  simp only [h.issue, State.modCore_modCore, Core.enqueue_of_room hroom, h.coded]

/-- With no access owed its grant and none met, the arbiter grants every row (R116). -/
theorem Core.arbitrate_unopposed {k : Core} (h : k.deferred = []) (p : Waiter) (rows : List Nat) :
    k.arbitrate p rows [] = (rows, []) := by
  have hrows : (List.range rows.length).map (fun i => rows[i]?.getD 0) = rows :=
    List.ext_getElem (by simp) (fun i _ hi => by simp [hi])
  simp [Core.arbitrate, Core.owed, h, List.filter_map, Function.comp_def, hrows]

/-- Rows read without an error leave the state as it was (R116). -/
theorem State.checkAll_clean (s : State) (c : Nat) (rows : List Nat) : s.checkAll c rows [] = (s, true) := by
  induction rows with
  | nil => rfl
  | cons r rows ih => simp [State.checkAll, State.readRow, ih]

/-- The core once stage R has read rows without error (R61). -/
def Core.stageR (k : Core) (rows : List Nat) : Core := { k with got := k.got ++ rows.map (fun q => (q, vget k.rows q 0)) }

theorem State.streamRead_clean (s : State) (c : Nat) (rows : List Nat) :
    s.streamRead c rows [] = (s.modCore c (fun k => k.stageR rows), true) := by
  simp only [State.streamRead, State.checkAll_clean, if_true, Core.stageR]

theorem Core.gotRow_stageR {k : Core} (hgot : k.got = []) {rows : List Nat} {r : Nat} (h : r ∈ rows) :
    (k.stageR rows).gotRow r = vget k.rows r 0 := by
  have hfind : rows.find? (fun q => q == r) = some r := by
    induction rows with
    | nil => cases h
    | cons q rows ih => grind
  simp [Core.gotRow, Core.stageR, hgot, List.find?_map, hfind]

theorem Core.operandRow_mem (k : Core) (o : StreamOp) : aRowOf (k.areg o.ai) ∈ k.opRows o := by
  dsimp only [Core.opRows]; split <;> simp

theorem Core.scaleRow_mem (k : Core) {o : StreamOp} (h : o.scaled = true) : aRowOf (k.areg o.as_) ∈ k.opRows o := by
  simp only [Core.opRows, h, Bool.true_and, bne_iff_ne, ne_eq]; split <;> simp_all

theorem Core.rowsWanted_of_none {k : Core} (h : k.got = []) (o : StreamOp) : k.rowsWanted o = k.opRows o := by
  simp [Core.rowsWanted, h]

/-- Stage A forgets the rows that stage R has read (R61). -/
theorem Core.enterA_got (k : Core) (g : List (Nat × Row)) (o : StreamOp) (row srow : Row) (fr : Nat) :
    ({ k with got := g } : Core).enterA o row srow fr = k.enterA o row srow fr := by
  have hareg : ∀ i, ({ k with got := g } : Core).areg i = k.areg i := fun _ => rfl
  have hpass : ∀ w b x y, ({ k with got := g } : Core).pass w b x y = k.pass w b x y := fun _ _ _ _ => rfl
  simp only [Core.enterA, hareg, hpass]
  split_ifs <;> rfl

theorem Core.enterA_unscaled {o : StreamOp} (h : o.scaled = false) (k : Core) (row srow srow' : Row) (fr : Nat) :
    k.enterA o row srow fr = k.enterA o row srow' fr := by
  simp only [Core.enterA, h, Bool.false_eq_true, if_false]

/-- Stage A takes what stage R has just read: the rows that the operation's registers name (R61, R73). -/
theorem Core.enterA_stageR {k : Core} (hgot : k.got = []) (o : StreamOp) (fr : Nat) :
    (k.stageR (k.opRows o)).enterA o ((k.stageR (k.opRows o)).gotRow (aRowOf (k.areg o.ai)))
        ((k.stageR (k.opRows o)).gotRow (aRowOf (k.areg o.as_))) fr =
      k.enterA o (vget k.rows (aRowOf (k.areg o.ai)) 0) (vget k.rows (aRowOf (k.areg o.as_)) 0) fr := by
  rw [Core.gotRow_stageR hgot (k.operandRow_mem o)]
  refine (k.enterA_got _ o _ _ fr).trans ?_
  cases h : o.scaled
  · exact k.enterA_unscaled h _ _ _ _
  · rw [Core.gotRow_stageR hgot (k.scaleRow_mem h)]

/-- A vector whose rows the arbiter grants, read without error, enters stage A (R61, R116). -/
theorem exec_streamVectorEnterA {op : StreamOp} {j : Core} (hj : s.core c.toNat = j) (hhead : j.headOp s.freeVal = some op)
    (hruns : s.engineRuns c.toNat = true) (hwaits : j.waits = []) (hdeferred : j.deferred = []) (hfree : j.stageFree = true)
    (hgot : j.got = []) (hblocked : j.streamBlocked = false) :
    exec (.streamVectorEnterA c ⟨[], []⟩ true) s = .next ((s.setCore c.toNat
      (j.enterA op (vget j.rows (aRowOf (j.areg op.ai)) 0) (vget j.rows (aRowOf (j.areg op.as_)) 0)
        (s.freeVal / 2))).drew 1) := by
  subst hj
  have henter := Core.enterA_stageR hgot op (s.freeVal / 2)
  simp only [exec, execStreamVectorEnterA, hhead, hruns, hwaits, hdeferred, hfree, hblocked, Core.arbitrate_unopposed hdeferred,
    Core.rowsWanted_of_none hgot, State.streamRead_clean, State.enterWith, State.modCore_modCore, List.contains_nil,
    List.isEmpty_nil, Bool.not_true, Bool.or_false, Bool.false_eq_true, Bool.true_eq_false, if_false, if_true, State.drew_core]
  exact congrArg (fun k => Host.Outcome.next ((s.setCore c.toNat k).drew 1)) henter

/-- The oldest column results are combined wherever the core's clock runs and it has not stopped by a fault (R46, R81). -/
theorem exec_accumulatorCombine_cPipe {r : ColRes} {rest : List ColRes} (hclk : s.braked c.toNat = false)
    (hrun : (s.core c.toNat).run = .running) (hpipe : (s.core c.toNat).cPipe = r :: rest) (parityOk : Bool) :
    exec (.accumulatorCombine c parityOk) s = .next (if parityOk then
      s.setCore c.toNat (({ s.core c.toNat with cPipe := rest } : Core).stageC r) else s.fault c.toNat 1) := by
  simp only [exec, execAccumulatorCombine, hclk, hrun, hpipe, Bool.false_eq_true, ne_eq, not_true_eq_false, or_self, if_false]

/-- A drain at the head of the queue is read once no column results are on their way (R71, R81). -/
theorem exec_drainRead_head {e : SqE} {rest : List SqE} (hruns : s.engineRuns c.toNat = true)
    (hsq : (s.core c.toNat).sq = e :: rest) (hdrn : opc e.word = 0x1A) (hpipe : (s.core c.toNat).cPipe = []) (parityOk : Bool) :
    exec (.drainRead c parityOk) s = .next (if parityOk then s.setCore c.toNat ((s.core c.toNat).drainHead e rest)
      else s.fault c.toNat 1) := by
  simp only [exec, execDrainRead, hruns, hsq, hdrn, hpipe, List.any_nil, Bool.true_eq_false, Bool.false_eq_true, ne_eq,
    not_true_eq_false, or_self, if_false]

/-! ## Faults (R82, R84, R95) -/

/-! The count of a step leaves what an instruction reads. -/

@[simp] theorem Core.tick_greg (k : Core) (n : Nat) : k.tick.greg n = k.greg n := rfl
@[simp] theorem Core.tick_plen (k : Core) : k.tick.plen = k.plen := rfl
@[simp] theorem Core.tick_routes (k : Core) : k.tick.routes = k.routes := rfl

/-- A fault stops a running core whose clock runs: what is in flight is discarded and one report leaves (R82). -/
theorem State.fault_of_running {n : Nat} (hclk : s.braked n = false) (hrun : (s.core n).run = .running) (cause : Nat) :
    s.fault n cause = (s.modCore n (fun k => { k.discard with run := .faulted cause })).faultReport n cause := by
  simp only [State.fault, hrun, hclk, Bool.false_eq_true, if_false]

@[simp] theorem State.inject_core (s : State) (e : Ep) (p : Packet) (n : Nat) : (s.inject e p).core n = s.core n := rfl

theorem State.inject_flights_length (s : State) (e : Ep) (p : Packet) :
    (s.inject e p).net.flights.length = s.net.flights.length + 1 := List.length_append

/-- A fault stops a running core whose clock runs, with its queue discarded; registers and stacks are as they were, and one packet
more is under way (R82). -/
theorem State.fault_stops {n : Nat} (hclk : s.braked n = false) (hrun : (s.core n).run = .running) (cause : Nat) :
    ((s.fault n cause).core n).run = .faulted cause ∧ ((s.fault n cause).core n).sq = [] ∧
      (s.fault n cause).regs = s.regs ∧ (s.fault n cause).hbm = s.hbm ∧
      (s.fault n cause).net.flights.length = s.net.flights.length + 1 := by
  rw [State.fault_of_running hclk hrun]
  refine ⟨?_, ?_, rfl, rfl, State.inject_flights_length _ _ _⟩ <;>
    simp [State.faultReport, Core.discard]

/-- What the sequencer does with the word at PC where no stop is in effect and nothing waits (R73, R88, R94, R95, R107). -/
theorem Core.grant_unheld {k : Core} (hrun : k.run = .running) (hstop : k.stop = .none ∨ k.stop = .latched)
    (hwaits : k.waits = []) (hdeferred : k.deferred = []) (o : Nat) :
    k.grant o = if k.plen ≤ k.pc then (if o = 0 then .fault 7 else .no)
      else if opc k.word ≠ o ∧ ¬(o = 0 ∧ listedOpcode (opc k.word) = false) then .no
      else if k.suppressed then .skip
      else if reservedField k.word then .fault 5
      else if k.hazard k.word then .wait
      else .go k.word := by
  rcases hstop with hstop | hstop <;>
    simp only [Core.grant, hrun, hstop, hwaits, hdeferred, List.contains_nil, Bool.or_false, Bool.false_eq_true, if_false] <;> rfl

theorem State.issue_of_grant_fault {n cause : Nat} (hclk : s.braked n = false) (h : (s.core n).grant o = .fault cause)
    (act : W32 → State → State) : s.issue n o act = (s.modCore n Core.tick).fault n cause := by
  simp only [State.issue, hclk, h, Bool.false_eq_true, if_false]
end

/-! ## Watchdogs, stops and saves (R80, R81, R101, R111) -/

section
variable {s : State} {c : CoreAddr}

/-- A stage over the limit is counted, and faults where not only reports are asked (R81). -/
theorem exec_stageWatchdogTimeout (hlimit : s.reg .YLD_STAGE_WDOG_LIMIT (dieOf c.toNat) ≠ 0) (hclk : s.braked c.toNat = false)
    (hrun : (s.core c.toNat).run = .running) (hwork : (s.core c.toNat).atWork = true) :
    exec (.stageWatchdogTimeout c) s = .next (
      if (s.bump .YLD_STAGE_TMO_CNT_COUNT (dieOf c.toNat)).regB .YLD_STAGE_WDOG_REPORT_ONLY (dieOf c.toNat) then
        s.bump .YLD_STAGE_TMO_CNT_COUNT (dieOf c.toNat)
      else (s.bump .YLD_STAGE_TMO_CNT_COUNT (dieOf c.toNat)).fault c.toNat 3) := by
  simp only [exec, execStageWatchdogTimeout, hlimit, hclk, hrun, hwork, Bool.false_eq_true, Bool.true_eq_false, ne_eq,
    not_true_eq_false, or_self, if_false]

/-- A latched stop takes effect where the brake is off and it waits for no YIELD (R84, R101). -/
theorem State.takeLatched_of_latched {n : Nat} (hstop : (s.core n).stop = .latched) (hclk : s.braked n = false)
    (hyield : s.yieldWaits n = false) : s.takeLatched n = s.modCore n (fun k => k.takeStop false 0) := by
  simp only [State.takeLatched, hstop, hclk, hyield, ne_eq, not_true_eq_false, Bool.false_eq_true, or_self, if_false]

theorem State.checkRows_clean (s : State) (c : Nat) (rows : List Nat) : s.checkRows c rows [] = (s, true) := by
  induction rows with
  | nil => rfl
  | cons r rows ih => simpa only [State.checkRows, State.readRow, List.headD_nil, List.tail_nil] using ih

/-- The parts that the writing of a save image reaches (R111). -/
def imageAreas : List Area := [.regs, .hbm, .hbmc, .ctxs, .helm, .free]

theorem State.writeImage_within_imageAreas (s : State) (x c : Nat) (segs : List (Nat × List Byte)) :
    s.Within imageAreas (s.writeImage x c segs) := by
  apply @State.writeImage_within _ _ _ (.refl _ s) <;> exact Area.mem_of_contains rfl

@[simp] theorem State.writeImage_core (s : State) (x c : Nat) (segs : List (Nat × List Byte)) (n : Nat) :
    (s.writeImage x c segs).core n = s.core n :=
  congrArg (Tbl.getD · n Core.reset) (s.writeImage_within_imageAreas x c segs).cores

theorem State.saveCore_net (s : State) (x n : Nat) (yielded : Bool) (dead : BitVec 4) :
    (s.saveCore x n yielded dead).net = s.net := by
  simp only [State.saveCore, State.modCore_net, State.modCtx_net, (s.writeImage_within_imageAreas x n _).net]

theorem State.core_saveCore_self (s : State) (x n : Nat) (yielded : Bool) (dead : BitVec 4) :
    (s.saveCore x n yielded dead).core n = { (s.core n).setInq [] with
      saved := true, late := [], run := if (s.core n).run = .running then .quiet else (s.core n).run } := by
  simp only [State.saveCore, State.core_modCore_self, State.modCtx_core, State.writeImage_core]

/-- A core whose stop is taken and that is quiet is saved, where its save area can be reached (R80, R111). -/
theorem exec_coreQuietSave_clean {x : Nat} {y : Bool} {dead : BitVec 4} (hheld : s.holder c.toNat = some x)
    (hstop : (s.core c.toNat).stop = .taken y dead) (hbusy : (s.ctx x).busy = .pausing) (hsaved : (s.core c.toNat).saved = false)
    (hclk : s.braked c.toNat = false) (hrun : (s.core c.toNat).run = .running) (hquiet : s.quiet c.toNat = true)
    (hhbm : s.hbmWaits (s.imageAt x c.toNat) 5120 = false) :
    exec (.coreQuietSave c [] true) s = .next (s.saveCore x c.toNat y dead) := by
  have hstart : s.startDue x c.toNat = false := by simp only [State.startDue, hrun, reduceCtorEq, decide_false, Bool.false_and]
  simp only [exec, execCoreQuietSave, hheld, hstop, hbusy, hsaved, hclk, hrun, hquiet, hhbm, hstart, State.checkRows_clean,
    ne_eq, not_true_eq_false, Bool.false_eq_true, Bool.true_eq_false, Bool.not_true, false_and, or_self, if_false, if_true]

/-! ## Packets at a core (R80, R108, R109, R156) -/

/-- A packet that a core admits is handed on (R156). -/
theorem State.Admits.atCore {p : Packet} (h : s.Admits c p) (act : State → State) : s.atCore c.toNat p act = act s := by
  simp only [State.atCore, BitVec.ofNat_toNat, BitVec.setWidth_eq, h.stands, h.takes, h.admitted, Bool.not_true, Bool.or_self,
    Bool.false_eq_true, if_false]

theorem State.Admits.byTarget {p : Packet} (h : s.Admits c p) (core : Nat → State) (tile hub : Nat → Nat → State) :
    s.byTarget p core tile hub = core c.toNat := by
  obtain ⟨htarget, hkind⟩ := h.aimed
  simp only [State.byTarget, htarget, hkind, addrEp]
  rfl

/-- A START that is held with its whole load begins the program, where the core takes it (R108). -/
theorem exec_programLoad {p : Packet} (hheld : (s.core c.toNat).load.held = some p) (hready : (s.core c.toNat).loadReady p = true)
    (htakes : s.coreTakes c.toNat = true) (hadmit : s.coreRefuses c.toNat 0 = none) :
    exec (.programLoad c) s = .next ((s.setCore c.toNat ((s.core c.toNat).loaded c.toNat p)).accept (.core c) p) := by
  simp only [exec, execProgramLoad, hheld, hready, htakes, hadmit, Option.isSome_none, Bool.true_eq_false,
    Bool.false_eq_true, or_self, if_false]

/-- What a program load gives a core, and what it leaves (R108, R109). -/
theorem Core.loaded_state (k : Core) (n : Nat) (p : Packet) :
    (k.loaded n p).pc = 0 ∧ (k.loaded n p).run = .running ∧ (k.loaded n p).greg 15 = BitVec.ofNat 32 n ∧
      (k.loaded n p).plen = startLen p ∧ (k.loaded n p).rows = k.rows ∧ (k.loaded n p).tags = k.tags := by
  exact ⟨rfl, rfl, rfl, rfl, rfl, rfl⟩

theorem State.stopArrives_idle {n : Nat} (hrun : (s.core n).run = .idle) (hstop : (s.core n).stop = .none) :
    s.stopArrives n = s.modCore n (fun k => k.takeStop false 0) := by
  simp only [State.stopArrives, hrun, hstop]
end

/-! ## The frame of the instructions that act on their core alone -/

theorem vget_vset_other {α : Type} {n : Nat} (v : Vector α n) {i j : Nat} (h : j ≠ i) (x d : α) :
    vget (vset v i x) j d = vget v j d := by
  simp [vget, vset, Ne.symm h]

/-- What an instruction of opcode `o` and word `w` that acts on its core alone keeps of the core. -/
structure Core.Keeps (o : Nat) (w : W32) (k k' : Core) : Prop where
  rows : k'.rows = k.rows
  tags : k'.tags = k.tags
  ibuf : k'.ibuf = k.ibuf
  plen : k'.plen = k.plen
  routes : k'.routes = k.routes
  acc : k'.acc = k.acc
  sq : k'.sq = k.sq
  run : k'.run = k.run
  arrv : k'.arrv = k.arrv
  general : ∀ r, r ≠ fD w → k'.greg r = k.greg r
  address : ∀ r, r ≠ wf w 23 3 → k'.areg r = k.areg r
  flags : o ∉ [0x05, 0x06, 0x0B] → o < 0x20 → k'.nflags = k.nflags

namespace Core.Keeps
variable {o : Nat} {w : W32} {k k' j : Core}

/-- A change of anything that the frame does not name. -/
theorem update (v rrb l0 l1 pc rng steps sval sidx sdir skindInt sfound sread wb late) :
    k.Keeps o w { k with v := v, rrb := rrb, l0 := l0, l1 := l1, pc := pc, rng := rng, steps := steps, sval := sval, sidx := sidx,
                         sdir := sdir, skindInt := skindInt, sfound := sfound, sread := sread, wb := wb, late := late } :=
  ⟨rfl, rfl, rfl, rfl, rfl, rfl, rfl, rfl, rfl, fun _ _ => rfl, fun _ _ => rfl, fun _ _ => rfl⟩

theorem refl : k.Keeps o w k := update ..

theorem trans (h : k.Keeps o w j) (h' : j.Keeps o w k') : k.Keeps o w k' :=
  ⟨h'.rows.trans h.rows, h'.tags.trans h.tags, h'.ibuf.trans h.ibuf, h'.plen.trans h.plen, h'.routes.trans h.routes,
    h'.acc.trans h.acc, h'.sq.trans h.sq, h'.run.trans h.run, h'.arrv.trans h.arrv,
    fun r hr => (h'.general r hr).trans (h.general r hr), fun r hr => (h'.address r hr).trans (h.address r hr),
    fun ho hlt => (h'.flags ho hlt).trans (h.flags ho hlt)⟩

theorem foldl {α : Type} (f : Core → α → Core) (hf : ∀ (j : Core) a, j.Keeps o w (f j a)) (l : List α) :
    k.Keeps o w (l.foldl f k) := by
  induction l generalizing k with
  | nil => exact refl
  | cons a l ih => exact (hf k a).trans ih

theorem setG (x : W32) : k.Keeps o w (k.setG (fD w) x) :=
  { (refl : k.Keeps o w k) with general := fun _ hr => vget_vset_other _ hr _ _ }

theorem setA (x : W32) : k.Keeps o w (k.setA (wf w 23 3) x) :=
  { (refl : k.Keeps o w k) with address := fun _ hr => vget_vset_other _ hr _ _ }

/-- The opcodes whose instructions may change NFLAGS. -/
theorem nflags (ho : o ∈ [0x05, 0x06, 0x0B] ∨ 0x20 ≤ o) (x : W32) : k.Keeps o w { k with nflags := x } :=
  { (refl : k.Keeps o w k) with flags := fun hn hlt => absurd ho (not_or.mpr ⟨hn, Nat.not_le.mpr hlt⟩) }

theorem vecOut (ho : o ∈ [0x05, 0x06, 0x0B] ∨ 0x20 ≤ o) (vd n : Nat) (r : Nat × NFlags) : k.Keeps o w (k.vecOut vd n r) :=
  (nflags ho _).trans (update ..)

theorem backEdge (p : Nat) (done one : Bool) : k.Keeps o w (k.backEdge p done one).1 := by
  unfold Core.backEdge Core.setLp
  dsimp only
  split_ifs <;> exact update ..

theorem past (p : Nat) : k.Keeps o w (k.past p) :=
  (update ..).trans ((backEdge p false _).trans (backEdge p _ _))

theorem next : k.Keeps o w k.next := past _

theorem aluTo (fn : Nat) (x y : W32) : k.Keeps o w (k.aluTo fn (fD w) x y) := by
  unfold Core.aluTo
  dsimp only
  split_ifs
  · exact (setG _).trans (update ..)
  · exact setG _

theorem searchRead (ho : o ∈ [0x05, 0x06, 0x0B] ∨ 0x20 ≤ o) : k.Keeps o w k.searchRead := by
  unfold Core.searchRead
  split_ifs
  · exact refl
  · exact (nflags ho _).trans (update ..)

theorem searchLane (ho : o ∈ [0x05, 0x06, 0x0B] ∨ 0x20 ≤ o) (f : Fmt) (x : Num × NFlags) (idx : W32) :
    k.Keeps o w (k.searchLane f x idx) := by
  unfold Core.searchLane
  dsimp only
  split_ifs
  · exact refl
  all_goals exact (nflags ho _).trans (update ..)

theorem narrow (ho : o ∈ [0x05, 0x06, 0x0B] ∨ 0x20 ≤ o) : k.Keeps o w (k.narrow w) := by
  unfold Core.narrow
  dsimp only
  generalize (wf w 6 1 == 1 && decide (wf w 0 4 ≤ 1)) = sr
  split_ifs
  · exact (vecOut ho ..).trans (update ..)
  · exact vecOut ho ..

/-- A search meets its lanes in order, or finds another kind of lane held (R77). -/
theorem search (ho : o ∈ [0x05, 0x06, 0x0B] ∨ 0x20 ≤ o) (h : k.Keeps o w j) (other : Prop) [Decidable other] (n : Nat)
    (f : Fmt) (x : Nat → Num × NFlags) (idx : Nat → W32) :
    k.Keeps o w (if other then j.flag fFMT else (List.range n).foldl (fun k i => k.searchLane f (x i) (idx i)) j) := by
  split_ifs
  · exact h.trans (nflags ho _)
  · exact h.trans (foldl _ (fun _ _ => searchLane ho ..) _)

end Core.Keeps

theorem Core.word_of_grant_go {k : Core} {o : Nat} {w : W32} (h : k.grant o = .go w) : w = k.word := by
  unfold Core.grant at h
  grind [Core.word]

theorem State.onlyCore_setCore (s : State) (n : Nat) (k : Core) : s.OnlyCore (s.setCore n k) n :=
  ⟨rfl, fun _ hd => s.core_setCore_other _ _ _ hd⟩

/-- An instruction that acts on its core alone and does not fault keeps the frame, whether it issues, waits, is skipped or does
nothing. -/
theorem State.issueCore_keeps {s : State} {n o : Nat} {f : W32 → Core → Core} (hf : ∀ w (k : Core), k.Keeps o w (f w k))
    (hfault : ∀ cause, (s.core n).grant o ≠ .fault cause) :
    s.OnlyCore (s.issueCore n o f) n ∧ (s.core n).Keeps o (s.core n).word ((s.issueCore n o f).core n) := by
  have only := fun k => s.onlyCore_setCore n k
  have htick : (s.core n).Keeps o (s.core n).word (s.core n).tick := .update ..
  unfold State.issueCore State.issue
  split
  · exact ⟨⟨rfl, fun _ _ => rfl⟩, .refl⟩
  · split
    case _ => exact ⟨⟨rfl, fun _ _ => rfl⟩, .refl⟩
    case _ => exact ⟨only _, by simpa using htick⟩
    case _ => exact ⟨only _, by simpa using htick.trans .next⟩
    case _ cause hgrant => exact absurd hgrant (hfault cause)
    case _ w hgrant =>
      rw [Core.word_of_grant_go hgrant]
      dsimp only
      rw [State.modCore_modCore, State.core_setCore_self]
      exact ⟨only _, htick.trans ((hf _ _).trans .next)⟩

/-- The instructions that act on their core alone, with their opcodes (R75, R94, R96). -/
def coreOnly (c : CoreAddr) : List (Instr × Nat) :=
  [(.nop c, 0x00), (.alu c, 0x01), (.alui c, 0x02), (.movi c, 0x03), (.rdnf c, 0x05), (.clnf c, 0x06), (.srseed c, 0x07),
    (.seta c, 0x08), (.geta c, 0x09), (.adva c, 0x0A), (.rdsp c, 0x0B), (.wrsp c, 0x0C), (.vbc c, 0x0D), (.vext c, 0x0E),
    (.vmov c, 0x0F), (.vadd c, 0x20), (.vsub c, 0x21), (.vmul c, 0x22), (.vfma c, 0x23), (.vmin c, 0x24), (.vmax c, 0x25),
    (.vcmp c, 0x26), (.vcvt c, 0x2A), (.vscl c, 0x2B), (.vscm c, 0x2C), (.vexpx c, 0x2D), (.vsrch c, 0x2E)]

open Core.Keeps in
/-- Each of them issues with an effect on its core that keeps the frame. -/
theorem exec_coreOnly (c : CoreAddr) : ∀ e ∈ coreOnly c, ∃ f : W32 → Core → Core,
    (∀ s, exec e.1 s = .next (s.issueCore c.toNat e.2 f)) ∧ ∀ w (k : Core), k.Keeps e.2 w (f w k) := by
  simp only [coreOnly, List.forall_mem_cons, List.not_mem_nil, false_imp_iff, implies_true, and_true]
  refine ⟨
    /- NOP    -/ ⟨_, fun _ => rfl, fun _ _ => refl⟩,
    /- ALU    -/ ⟨_, fun _ => rfl, fun _ _ => aluTo ..⟩,
    /- ALUI   -/ ⟨_, fun _ => rfl, fun _ _ => aluTo ..⟩,
    /- MOVI   -/ ⟨_, fun _ => rfl, fun _ _ => setG _⟩,
    /- RDNF   -/ ⟨_, fun _ => rfl, fun _ _ => setG _⟩,
    /- CLNF   -/ ⟨_, fun _ => rfl, fun _ _ => nflags (by decide) _⟩,
    /- SRSEED -/ ⟨_, fun _ => rfl, fun _ _ => update ..⟩,
    /- SETA   -/ ⟨_, fun _ => rfl, fun _ _ => setA _⟩,
    /- GETA   -/ ⟨_, fun _ => rfl, fun _ _ => setG _⟩,
    /- ADVA   -/ ⟨_, fun _ => rfl, fun _ _ => setA _⟩,
    /- RDSP   -/ ⟨_, fun _ => rfl, fun _ _ => trans (by split_ifs; exacts [searchRead (by decide), refl]) (setG _)⟩,
    /- WRSP   -/ ⟨_, fun _ => rfl, fun _ _ => by dsimp only; split <;> exact update ..⟩,
    /- VBC    -/ ⟨_, fun _ => rfl, fun _ _ => update ..⟩,
    /- VEXT   -/ ⟨_, fun _ => rfl, fun _ _ => setG _⟩,
    /- VMOV   -/ ⟨_, fun _ => rfl, fun _ _ => update ..⟩,
    /- VADD   -/ ⟨_, fun _ => rfl, fun _ _ => vecOut (by decide) ..⟩,
    /- VSUB   -/ ⟨_, fun _ => rfl, fun _ _ => vecOut (by decide) ..⟩,
    /- VMUL   -/ ⟨_, fun _ => rfl, fun _ _ => vecOut (by decide) ..⟩,
    /- VFMA   -/ ⟨_, fun _ => rfl, fun _ _ => vecOut (by decide) ..⟩,
    /- VMIN   -/ ⟨_, fun _ => rfl, fun _ _ => vecOut (by decide) ..⟩,
    /- VMAX   -/ ⟨_, fun _ => rfl, fun _ _ => vecOut (by decide) ..⟩,
    /- VCMP   -/ ⟨_, fun _ => rfl, fun _ _ => (nflags (by decide) _).trans (update ..)⟩,
    /- VCVT   -/ ⟨_, fun _ => rfl, fun _ _ => by split_ifs; exacts [vecOut (by decide) .., narrow (by decide)]⟩,
    /- VSCL   -/ ⟨_, fun _ => rfl, fun _ _ => vecOut (by decide) ..⟩,
    /- VSCM   -/ ⟨_, fun _ => rfl, fun _ _ => vecOut (by decide) ..⟩,
    /- VEXPX  -/ ⟨_, fun _ => rfl, fun _ _ => vecOut (by decide) ..⟩,
    /- VSRCH  -/ ⟨_, fun _ => rfl, fun _ _ => search (by decide) (by split_ifs; exacts [update .., refl]) ..⟩⟩

/-! ## Which registers a change leaves -/

/-- Every register field but those of `l` is the same in two states. -/
structure State.RegsBut (l : List Fld) (s t : State) : Prop where
  same : ∀ f i, f ∉ l → t.reg f i = s.reg f i

namespace State.RegsBut
variable {l : List Fld} {s t u : State}

theorem refl : s.RegsBut l s := ⟨fun _ _ _ => rfl⟩

theorem trans (h : s.RegsBut l t) (h' : t.RegsBut l u) : s.RegsBut l u :=
  ⟨fun f i hf => (h'.same f i hf).trans (h.same f i hf)⟩

theorem of_regs (h : t.regs = s.regs) : s.RegsBut l t := ⟨fun f i _ => by simp only [State.reg, h]⟩

theorem mono {l' : List Fld} (h : s.RegsBut l t) (hl : l ⊆ l') : s.RegsBut l' t :=
  ⟨fun f i hf => h.same f i fun hmem => hf (hl hmem)⟩

theorem of_regs_eq (h : s.RegsBut l t) (hu : u.regs = t.regs) : s.RegsBut l u := h.trans (of_regs hu)

theorem setReg (h : s.RegsBut l t) (f : Fld) (i v : Nat) (hf : f ∈ l := by decide) : s.RegsBut l (t.setReg f i v) :=
  h.trans ⟨fun _ _ hg => t.reg_setReg_field _ _ _ _ _ (ne_of_mem_of_not_mem hf hg).symm⟩

theorem bump (h : s.RegsBut l t) (f : Fld) (i : Nat) (hf : f ∈ l := by decide) : s.RegsBut l (t.bump f i) :=
  h.setReg f i _ hf

theorem modRegion (h : s.RegsBut l t) (r : Nat) (g : Region → Region) : s.RegsBut l (t.modRegion r g) := h.of_regs_eq rfl

theorem lower (h : s.RegsBut l t) (r floor : Nat) : s.RegsBut l (t.lower r floor) := h.of_regs_eq rfl

theorem ite {p : Prop} [Decidable p] (h : s.RegsBut l t) (h' : s.RegsBut l u) : s.RegsBut l (if p then t else u) := by
  split <;> assumption

theorem foldl {α : Type} {g : State → α → State} (hg : ∀ (s : State) a, s.RegsBut l (g s a)) (xs : List α) :
    s.RegsBut l (xs.foldl g s) := by
  induction xs generalizing s with
  | nil => exact refl
  | cons a xs ih => exact (hg s a).trans ih

end State.RegsBut

/-- The registers that an interrupt message may change (R385, R389). -/
def messageFields : List Fld := [.INT_SRC_PEND, .INT_PRIV_PEND, .INT_STAT_MERGED, .INT_STAT_BADMSG]

/-- The registers that a brake, its release with what was latched under it, and an interrupt message may change: BRAKED and BRAKES
(R368), the counts of refused packets (R157), and those of the message. -/
def brakeFields : List Fld :=
  [.CLK_REGION_BRAKED, .CLK_REGION_BRAKES, .ROSE_REFUSE_STAT_RST, .ROSE_REFUSE_STAT_DEN, .ROSE_REFUSE_STAT_ABS,
    .ROSE_REFUSE_STAT_ABSORBED] ++ messageFields

theorem State.reply_regs (s : State) (here : Ep) (at_ : Option (Nat × Nat)) (p : Packet) (cmd : BitVec 8) (var : Nat)
    (data : List Unit16) : (s.reply here at_ p cmd var data).regs = s.regs := by
  cases at_ <;> rfl

theorem State.refuse_regsBut (s : State) (here : Ep) (at_ : Option (Nat × Nat)) (die : Nat) (k : Refuse) (p : Packet) :
    s.RegsBut brakeFields (s.refuse here at_ die k p) := by
  refine RegsBut.trans (.ite ?_ .refl) (.ite (.of_regs (State.reply_regs ..)) (.ite (.of_regs (State.reply_regs ..)) ?_))
  · cases k <;> exact .bump .refl ..
  · exact .bump .refl ..

theorem State.sinkPackets_regsBut (s : State) (c : Nat) : s.RegsBut brakeFields (s.sinkPackets c) :=
  .foldl (fun s _ => s.refuse_regsBut ..) _

theorem State.haltCore_regs (s : State) (c : Nat) : (s.haltCore c).regs = s.regs := by
  unfold State.haltCore; split <;> rfl

theorem State.fault_regs (s : State) (c cause : Nat) : (s.fault c cause).regs = s.regs := by
  unfold State.fault; split
  · rfl
  · rfl
  · split <;> rfl

theorem State.takeLatched_regs (s : State) (c : Nat) : (s.takeLatched c).regs = s.regs := by
  unfold State.takeLatched; split <;> rfl

theorem State.killCore_regsBut (s : State) (c : Nat) : s.RegsBut brakeFields (s.killCore c) := by
  refine .ite (.of_regs rfl) ?_
  exact RegsBut.trans (.of_regs (s.haltCore_regs c)) (((s.haltCore c).sinkPackets_regsBut c).trans (.of_regs rfl))

theorem State.resetCore_regsBut (s : State) (c : Nat) : s.RegsBut brakeFields (s.resetCore c) :=
  RegsBut.trans (t := s.dropQueued [c]) (.of_regs rfl) (((s.dropQueued [c]).sinkPackets_regsBut c).trans (.of_regs rfl))

/-- What was latched for a core under the brake, when it takes effect (R84). -/
theorem State.latchedCore_regsBut (s : State) (c : Nat) : s.RegsBut brakeFields (s.latchedCore c) := by
  unfold State.latchedCore
  extract_lets s1 s2 s3
  have h1 : s.RegsBut brakeFields s1 := by
    refine .ite (s.resetCore_regsBut c) ?_
    split
    · exact s.killCore_regsBut c
    · exact .of_regs (s.haltCore_regs c)
    · exact .refl
  have h2 : s1.RegsBut brakeFields s2 := by
    simp only [s2]
    split
    · exact .of_regs (State.fault_regs _ _ _)
    · exact .refl
  have h3 : s2.RegsBut brakeFields s3 := .of_regs (s2.takeLatched_regs c)
  exact h1.trans (h2.trans (h3.trans (.ite (.of_regs rfl) .refl)))

theorem State.latchedAll_regsBut (s : State) (r : Nat) : s.RegsBut brakeFields (s.latchedAll r) :=
  RegsBut.trans (.foldl latchedCore_regsBut _) (.foldl (g := State.wakeRouter) (fun _ _ => .of_regs rfl) _)

theorem State.released_regsBut (s : State) (r : Nat) : s.RegsBut brakeFields (s.released r) :=
  .ite .refl ((RegsBut.refl.setReg ..).trans (State.latchedAll_regsBut ..))

theorem State.braking_regsBut (s : State) (r : Nat) : s.RegsBut brakeFields (s.braking r) :=
  ((RegsBut.refl.setReg ..).bump ..).trans (.ite ((RegsBut.refl.modRegion ..).lower ..) (RegsBut.refl.modRegion ..))

theorem State.raise_regsBut (s : State) (die n : Nat) : s.RegsBut messageFields (s.raise die n) := by
  refine .ite (.of_regs rfl) (.ite (.ite ?_ ?_) (.ite ?_ (.ite ?_ ?_)))
  · exact .bump .refl ..
  · exact .setReg .refl ..
  · exact .bump .refl ..
  · exact .bump .refl ..
  · exact .setReg .refl ..

/-! ## Regions -/

@[simp] theorem State.setReg_region (s : State) (f : Fld) (i v r : Nat) : (s.setReg f i v).region r = s.region r := rfl

theorem State.region_modRegion (s : State) (r q : Nat) (g : Region → Region) :
    (s.modRegion r g).region q = if q = r then g (s.region r) else s.region q := Tbl.getD_set ..

@[simp] theorem State.region_modRegion_self (s : State) (r : Nat) (g : Region → Region) :
    (s.modRegion r g).region r = g (s.region r) := by rw [State.region_modRegion, if_pos rfl]

theorem State.released_region (s : State) (r q : Nat) : (s.released r).region q = s.region q :=
  congrArg (fun p : Power => Tbl.getD p.regions q Region.reset)
    (@State.released_within [.regs, .cores, .net] _ _ (.refl _ s) r (by decide) (by decide) (by decide)).power

/-- The reasons for which a region is braked (R368, R369, R365). -/
def Region.reasons (g : Region) : Bool × Bool × Bool := (g.current, g.thermal, g.duty)

theorem State.modRegion_reasons (s : State) (r q : Nat) {g : Region → Region} (hg : ∀ x, (g x).reasons = x.reasons) :
    ((s.modRegion r g).region q).reasons = (s.region q).reasons := by
  rw [State.region_modRegion]
  split
  · next h => rw [hg, h]
  · rfl

@[simp] theorem State.lower_reasons (s : State) (r floor q : Nat) :
    ((s.lower r floor).region q).reasons = (s.region q).reasons :=
  s.modRegion_reasons r q fun x => by split <;> rfl

@[simp] theorem State.lower_reg (s : State) (r floor : Nat) (f : Fld) (i : Nat) : (s.lower r floor).reg f i = s.reg f i := rfl

theorem State.braking_reasons (s : State) (r q : Nat) : ((s.braking r).region q).reasons = (s.region q).reasons := by
  unfold State.braking
  dsimp only
  split
  · rw [State.lower_reasons]
    exact State.modRegion_reasons _ r q fun _ => rfl
  · exact State.modRegion_reasons _ r q fun _ => rfl

theorem State.braking_dies (s : State) (r : Nat) : (s.braking r).dies = s.dies := by
  unfold State.braking
  dsimp only
  split <;> rfl

/-- A region that is braked shows it (R368). -/
theorem State.braking_braked (s : State) (r : Nat) : (s.braking r).reg .CLK_REGION_BRAKED r = 1 := by
  have hshown : ((s.setReg .CLK_REGION_BRAKED r 1).bump .CLK_REGION_BRAKES r).reg .CLK_REGION_BRAKED r = 1 := by
    rw [State.reg_bump_field _ _ _ _ _ (by decide), State.reg_setReg_self]
    rfl
  unfold State.braking
  dsimp only
  split <;> exact hshown

/-! ## The brake for a region's current, and its end -/

/-- What a step makes true of its own index and keeps of every other holds of all indices after a fold. -/
theorem State.foldl_each {g : State → Nat → State} {P : Nat → State → Prop} (own : ∀ s r, P r (g s r))
    (keep : ∀ s r q, P q s → P q (g s r)) (s : State) (l : List Nat) : ∀ q ∈ l, P q (l.foldl g s) := by
  induction l generalizing s with
  | nil => exact fun _ h => absurd h List.not_mem_nil
  | cons r l ih =>
    intro q hq
    rcases List.mem_cons.mp hq with rfl | hq
    · exact List.foldlRecOn l g (own s q) fun s h r _ => keep s r q h
    · exact ih (g s r) q hq

theorem State.brakeCurrent_of_free {s : State} {r : Nat} (hr : r < s.dies * 8) (hfree : (s.region r).current = false) :
    s.brakeCurrent r = (s.modRegion r (fun g => { g with current := true })).braking r := by
  simp only [State.brakeCurrent, hfree, Nat.not_le.mpr hr, Bool.false_eq_true, or_self, if_false]

theorem State.brakeCurrent_keeps {s : State} (r : Nat) {q : Nat} (h : (s.region q).current = true) :
    ((s.brakeCurrent r).region q).current = true := by
  unfold State.brakeCurrent
  split
  · exact h
  · refine (congrArg Prod.fst (State.braking_reasons _ r q)).trans ?_
    rw [State.region_modRegion]
    split
    · rfl
    · exact h

theorem State.brakeCurrent_dies (s : State) (r : Nat) : (s.brakeCurrent r).dies = s.dies := by
  unfold State.brakeCurrent
  split
  · rfl
  · exact State.braking_dies _ _

theorem State.brakeCurrent_current {s : State} {r : Nat} (hr : r < s.dies * 8) :
    ((s.brakeCurrent r).region r).current = true := by
  cases hcur : (s.region r).current
  · rw [State.brakeCurrent_of_free hr hcur]
    refine (congrArg Prod.fst (State.braking_reasons _ r r)).trans ?_
    rw [State.region_modRegion_self]
    rfl
  · exact State.brakeCurrent_keeps r hcur

/-- After the fast trip of the input every region is braked for its current (R368). -/
theorem State.foldl_brakeCurrent_current (s : State) {q : Nat} (hq : q < s.dies * 8) :
    ((s.regionsOf.foldl State.brakeCurrent s).region q).current = true := by
  have hdies : (s.regionsOf.foldl State.brakeCurrent s).dies = s.dies :=
    List.foldlRecOn (motive := fun t : State => t.dies = s.dies) _ _ rfl fun t ht r _ => (t.brakeCurrent_dies r).trans ht
  refine State.foldl_each (P := fun q t => q < t.dies * 8 → (t.region q).current = true) (fun t r hr => ?_)
    (fun t r q ih hr => ?_) s s.regionsOf q (List.mem_range.mpr hq) (hdies ▸ hq)
  · exact State.brakeCurrent_current (t.brakeCurrent_dies r ▸ hr)
  · exact State.brakeCurrent_keeps r (ih (t.brakeCurrent_dies r ▸ hr))

/-- After the duty brake's end no region is braked for it (R365). -/
theorem State.foldl_dutyEnd_duty (s : State) {q : Nat} (hq : q < s.dies * 8) :
    ((s.regionsOf.foldl (fun s r => (s.modRegion r (fun g => { g with duty := false })).released r) s).region q).duty =
      false := by
  refine State.foldl_each (P := fun q t => (t.region q).duty = false) (fun t r => ?_) (fun t r q ih => ?_) s s.regionsOf q
    (List.mem_range.mpr hq)
  · rw [State.released_region, State.region_modRegion_self]
  · rw [State.released_region, State.region_modRegion]
    split
    · rfl
    · exact ih

/-- The end of the trip releases a region for which no other reason holds, and what it latched takes effect (R84, R368). -/
theorem exec_brakeRelease {s : State} {die k : Fin 8} {r : Nat} (hr : r = die.val * 8 + k.val) (hdie : die.val < s.dies)
    (hbraked : s.regB .CLK_REGION_BRAKED r = true) (hthermal : (s.region r).thermal = false)
    (hduty : (s.region r).duty = false) :
    exec (.brakeRelease die k) s =
      .next (((s.modRegion r (fun g => { g with current := false })).setReg .CLK_REGION_BRAKED r 0).latchedAll r) := by
  subst hr
  have hnone : ((s.modRegion (die.val * 8 + k.val) (fun g => { g with current := false })).region (die.val * 8 + k.val)).held =
      false := by
    rw [State.region_modRegion_self, Region.held, hthermal, hduty]; rfl
  have hbraked' : (s.modRegion (die.val * 8 + k.val) (fun g => { g with current := false })).regB .CLK_REGION_BRAKED
      (die.val * 8 + k.val) = true := hbraked
  simp only [exec, execBrakeRelease, State.released, Nat.not_le.mpr hdie, hnone, hbraked', Bool.true_eq_false,
    Bool.false_eq_true, or_self, if_false]

/-- The state in which a region's rail has reached its level (R361, R362). -/
def State.slewed (s : State) (die r : Nat) : State :=
  let t := s.setReg .CLK_REGION_LEVEL r (s.region r).target
  { t with power := { t.power with spine := Tbl.set t.power.spine die (t.highest die) } }

/-- The end of a level's change sets the region's level, and the spine's to the highest of its die (R361, R362). -/
theorem exec_levelSlewDone {s : State} {die : Fin 8} (hdie : die.val < s.dies) (k : Fin 8) :
    exec (.levelSlewDone die k) s = .next (s.slewed die.val (die.val * 8 + k.val)) :=
  congrArg Host.Outcome.next (if_neg (Nat.not_le.mpr hdie))

theorem State.slewed_spineLevel (s : State) (die r : Nat) : (s.slewed die r).spineLevel die = (s.slewed die r).highest die :=
  Tbl.getD_set_self ..

/-! ## The governor (R365, R422) -/

/-- The state with a decision's measurements shown (R363, R422). -/
def State.measured (s : State) (watts vin : Nat) : State :=
  ((s.readVin vin).setReg .CLK_PWR_STAT_PIN 0 (min watts 65535)).setReg .CLK_PWR_STAT_VIN 0 (min vin 65535)

theorem State.measured_pkgStopped (s : State) (watts vin : Nat) : (s.measured watts vin).pkgStopped = s.pkgStopped := by
  have hreg : (s.measured watts vin).reg .PKG_STATE_STATE 0 = s.reg .PKG_STATE_STATE 0 := by
    rw [State.measured, State.reg_setReg_field _ _ _ _ _ _ (by decide), State.reg_setReg_field _ _ _ _ _ _ (by decide)]
    exact State.reg_setReg_field _ _ _ _ _ _ (by decide)
  rw [State.pkgStopped, State.pkgStopped, hreg]

/-- The governor shows what it measured and, unless the package is stopped, compares it with the ceiling (R365, R422). -/
theorem exec_governorTick {s m : State} {watts vin : Nat} (hm : m = s.measured watts vin) :
    exec (.governorTick watts vin) s = .next (
      if s.pkgStopped then m
      else if m.ceiling < watts then m.governAbove
      else if watts = m.ceiling then m.governAt
      else m.governBelow (decide (watts * 10 < m.ceiling * 8))) := by
  rw [← s.measured_pkgStopped watts vin, hm]
  rfl

/-! ## Thermal samples (R361, R363, R369) -/

theorem minRate_le (level : Nat) : minRate level ≤ 1200 := by
  by_cases h : level < 8
  · interval_cases level <;> decide
  · rw [minRate, List.getD_eq_default _ _ (by simpa using h)]

theorem State.leastRate_lt (s : State) (r temp : Nat) : s.leastRate r temp < 65536 := by
  unfold State.leastRate
  split
  · decide
  · exact (minRate_le _).trans_lt (by decide)

theorem State.leastRate_setReg (s : State) {f : Fld} (hf : f ∉ [Fld.CLK_REGION_BRAKED, .CLK_REGION_LEVEL]) (i v r temp : Nat) :
    (s.setReg f i v).leastRate r temp = s.leastRate r temp := by
  simp only [List.mem_cons, List.not_mem_nil, or_false, not_or] at hf
  simp only [State.leastRate, State.regB, State.reg_setReg_field _ _ _ _ _ _ (Ne.symm hf.1),
    State.reg_setReg_field _ _ _ _ _ _ (Ne.symm hf.2), State.setReg_region]
  rfl

theorem State.rateSample_rate (s : State) (r temp : Nat) :
    s.leastRate r temp ≤ (s.rateSample r temp).reg .CLK_REGION_RATE r := by
  have hlt := s.leastRate_lt r temp
  have hv : s.leastRate r temp + s.freeVal % (65536 - s.leastRate r temp) < 2 ^ 16 := by
    have := Nat.mod_lt s.freeVal (Nat.sub_pos_of_lt hlt)
    omega
  have hrate : (s.rateSample r temp).reg .CLK_REGION_RATE r =
      (s.leastRate r temp + s.freeVal % (65536 - s.leastRate r temp)) % 2 ^ 16 := by
    have hshown : ((s.drew 1).setReg .CLK_REGION_RATE r
        (s.leastRate r temp + s.freeVal % (65536 - s.leastRate r temp))).reg .CLK_REGION_RATE r =
          (s.leastRate r temp + s.freeVal % (65536 - s.leastRate r temp)) % 2 ^ 16 := State.reg_setReg_self ..
    unfold State.rateSample
    dsimp only
    split
    · rw [State.reg_setReg_field _ _ _ _ _ _ (by decide)]
      exact hshown
    · exact hshown
  rw [hrate, Nat.mod_eq_of_lt hv]
  exact Nat.le_add_right _ _

theorem State.rateSample_regsBut (s : State) (r temp : Nat) :
    s.RegsBut [.CLK_REGION_RATE, .CLK_REGION_MIN_RATE] (s.rateSample r temp) := by
  unfold State.rateSample
  have hdrew : s.RegsBut [.CLK_REGION_RATE, .CLK_REGION_MIN_RATE] (s.drew 1) := .of_regs rfl
  exact .ite (((hdrew.setReg ..).modRegion ..).setReg ..) ((hdrew.setReg ..).modRegion ..)

theorem State.rateSample_region (s : State) (r temp : Nat) :
    (s.rateSample r temp).region r = { s.region r with rated := true } := by
  unfold State.rateSample
  dsimp only
  split
  · rw [State.setReg_region, State.region_modRegion_self]; rfl
  · rw [State.region_modRegion_self]; rfl

theorem State.slowTick_regsBut (s : State) (r : Nat) : s.RegsBut [.CLK_REGION_HOT] (s.slowTick r) := by
  unfold State.slowTick
  split
  · exact ((RegsBut.refl.modRegion ..).setReg ..).lower ..
  · exact .ite ((RegsBut.refl.modRegion ..).lower ..) (RegsBut.refl.modRegion ..)

theorem State.slowTick_hot {s : State} {r : Nat} (h : (s.region r).slow = none) : (s.slowTick r).reg .CLK_REGION_HOT r = 1 := by
  simp only [State.slowTick, h, State.lower_reg, State.reg_setReg_self]
  rfl

theorem State.slowTick_reasons (s : State) (r q : Nat) : ((s.slowTick r).region q).reasons = (s.region q).reasons := by
  unfold State.slowTick
  split
  · rw [State.lower_reasons, State.setReg_region]
    exact s.modRegion_reasons r q fun _ => rfl
  · split
    · rw [State.lower_reasons]
      exact s.modRegion_reasons r q fun _ => rfl
    · exact s.modRegion_reasons r q fun _ => rfl

theorem State.coolTick_regsBut (s : State) (r temp : Nat) : s.RegsBut [.CLK_REGION_HOT] (s.coolTick r temp) :=
  .ite ((RegsBut.refl.modRegion ..).setReg ..) (RegsBut.refl.modRegion ..)

theorem State.coolTick_reasons (s : State) (r temp q : Nat) : ((s.coolTick r temp).region q).reasons = (s.region q).reasons := by
  unfold State.coolTick
  dsimp only
  split
  · rw [State.setReg_region]
    exact s.modRegion_reasons r q fun _ => rfl
  · exact s.modRegion_reasons r q fun _ => rfl

theorem State.thermalBrake_regsBut (s : State) (r temp : Nat) : s.RegsBut brakeFields (s.thermalBrake r temp) := by
  refine .ite (.ite .refl ?_) (.ite ?_ .refl)
  · exact ((RegsBut.refl.modRegion ..).trans (State.braking_regsBut ..)).trans
      ((State.raise_regsBut ..).mono (List.subset_append_right ..))
  · exact (RegsBut.refl.modRegion ..).trans (State.released_regsBut ..)

/-- A region at the brake's temperature that was not braked for it is braked (R369). -/
theorem State.thermalBrake_braked {s : State} {r temp : Nat} (hhot : s.reg .CLK_APER_T_BRAKE 0 ≤ temp)
    (hfree : (s.region r).thermal = false) : (s.thermalBrake r temp).reg .CLK_REGION_BRAKED r = 1 := by
  simp only [State.thermalBrake, hhot, hfree, if_true, Bool.false_eq_true, if_false]
  rw [(State.raise_regsBut _ _ _).same _ _ (by decide), State.braking_braked]

/-- A sample before the thermal brake is judged: the temperature and the rate shown, the region slowed or not (R363, R369). -/
def State.sampled (s : State) (r temp : Nat) : State :=
  let t := (s.setReg .CLK_REGION_TEMP r (min temp 255)).rateSample r temp
  if t.reg .CLK_APER_T_SLOW 0 ≤ temp then t.slowTick r else t.coolTick r temp

/-- What follows the rate of a sample changes HOT alone (R369). -/
theorem State.rateSample_sampled (s : State) (r temp : Nat) :
    ((s.setReg .CLK_REGION_TEMP r (min temp 255)).rateSample r temp).RegsBut [.CLK_REGION_HOT] (s.sampled r temp) :=
  .ite (State.slowTick_regsBut ..) (State.coolTick_regsBut ..)

theorem State.sampled_regsBut (s : State) (r temp : Nat) :
    s.RegsBut [.CLK_REGION_TEMP, .CLK_REGION_RATE, .CLK_REGION_MIN_RATE, .CLK_REGION_HOT] (s.sampled r temp) := by
  have hrate : s.RegsBut [.CLK_REGION_TEMP, .CLK_REGION_RATE, .CLK_REGION_MIN_RATE, .CLK_REGION_HOT]
      ((s.setReg .CLK_REGION_TEMP r (min temp 255)).rateSample r temp) :=
    (RegsBut.refl.setReg ..).trans ((State.rateSample_regsBut _ r temp).mono (by simp))
  exact hrate.trans ((s.rateSample_sampled r temp).mono (by simp))

theorem State.sampled_temp (s : State) (r temp : Nat) : (s.sampled r temp).reg .CLK_REGION_TEMP r = min temp 255 := by
  rw [(s.rateSample_sampled r temp).same _ _ (by decide), (State.rateSample_regsBut _ r temp).same _ _ (by decide),
    State.reg_setReg_self]
  exact Nat.mod_eq_of_lt (Nat.lt_of_le_of_lt (min_le_right _ _) (by decide))

theorem State.sampled_rate (s : State) (r temp : Nat) :
    s.leastRate r temp ≤ (s.sampled r temp).reg .CLK_REGION_RATE r := by
  rw [(s.rateSample_sampled r temp).same _ _ (by decide),
    ← s.leastRate_setReg (f := .CLK_REGION_TEMP) (by decide) r (min temp 255)]
  exact State.rateSample_rate ..

theorem State.sampled_hot {s : State} {r temp : Nat} (hslow : (s.region r).slow = none)
    (hle : s.reg .CLK_APER_T_SLOW 0 ≤ temp) :
    (s.sampled r temp).reg .CLK_REGION_HOT r = 1 := by
  have hle' : ((s.setReg .CLK_REGION_TEMP r (min temp 255)).rateSample r temp).reg .CLK_APER_T_SLOW 0 ≤ temp := by
    rwa [(State.rateSample_regsBut _ r temp).same _ _ (by decide), State.reg_setReg_field _ _ _ _ _ _ (by decide)]
  rw [State.sampled, if_pos hle']
  exact State.slowTick_hot (by rw [State.rateSample_region, State.setReg_region, hslow])

theorem State.sampled_reasons (s : State) (r temp : Nat) : ((s.sampled r temp).region r).reasons = (s.region r).reasons := by
  have hrate : ((s.setReg .CLK_REGION_TEMP r (min temp 255)).rateSample r temp |>.region r).reasons = (s.region r).reasons := by
    rw [State.rateSample_region]; rfl
  unfold State.sampled
  dsimp only
  split
  · rw [State.slowTick_reasons, hrate]
  · rw [State.coolTick_reasons, hrate]

/-- A thermal sample shows the temperature and the rate, slows a hot region and brakes a hotter one (R363, R369). -/
theorem exec_thermalSample {s : State} {die : Fin 8} (hdie : die.val < s.dies) (k : Fin 8) (temp : Nat) :
    exec (.thermalSample die k temp) s =
      .next ((s.sampled (die.val * 8 + k.val) temp).thermalBrake (die.val * 8 + k.val) temp) := by
  simp only [exec, execThermalSample, Nat.not_le.mpr hdie, if_false, State.sampled]

end Sys2Proof.Machine

open Sys2Proof Sys2Proof.Machine

/-! ## The obligations -/

/-- Settles O11: the sequencer's grant gives the causes 7 and 5, an issued BR, LOOP or SENDV its own, and `State.fault_stops` what
a fault does. -/
theorem instructionFaults : Obligations.InstructionFaults := by
  unfold Obligations.InstructionFaults
  intro c s w
  refine ⟨fun j hj hclk hrun hstop hwaits hdeferred => ?_, fun hbr hcond hend => ?_, fun hloop herror => ?_,
    fun hsendv hinvalid => ?_, fun cause hclk hrun => State.fault_stops hclk hrun cause⟩
  · subst hj
    have hgrant := Core.grant_unheld hrun hstop hwaits hdeferred 0
    refine ⟨fun hpc => congrArg _ (State.issue_of_grant_fault hclk ?_ _), fun hpc hw hop hstage hres =>
      congrArg _ (State.issue_of_grant_fault hclk ?_ _)⟩
    · rw [hgrant, if_pos hpc, if_pos rfl]
    · have hword : (s.core c.toNat).word = w := hw
      rw [hgrant, hword, if_neg (Nat.not_le.mpr hpc), if_neg (by tauto), if_neg (by rw [hstage]; decide), if_pos hres]
  · simp only [exec, execBr, hbr.issue, State.core_modCore_self, Core.tick_greg, Core.tick_plen, hcond, hend, if_true]
  · simp only [exec, execLoop, hloop.issue, State.core_modCore_self, herror, if_true]
  · simp only [exec, execSendv, hsendv.issue, State.sendStep, State.core_modCore_self, Core.tick_routes, hinvalid, if_true]

/-- Settles O14: a matrix instruction that is ready joins a queue that has room, and each stage's event is one lemma on `exec`. -/
theorem matrixCommandsComplete : Obligations.MatrixCommandsComplete := by
  unfold Obligations.MatrixCommandsComplete
  intro c s w k
  refine ⟨fun hlds hroom => congrArg _ (hlds.enqueues hroom fun _ => 1),
    fun hstrm hroom => congrArg _ (hstrm.enqueues hroom fun w => wf w 20 6 + 1),
    fun hdrn hroom => congrArg _ (hdrn.enqueues hroom fun _ => 1),
    fun hacci hroom => congrArg _ (hacci.enqueues hroom fun _ => 1),
    fun j o hj hhead hruns hwaits hdeferred hfree hgot hblocked =>
      exec_streamVectorEnterA hj hhead hruns hwaits hdeferred hfree hgot hblocked,
    fun j r rest hj hclk hrun hpipe => ?_, fun j e rest hj hruns hsq hdrn hpipe => ?_⟩
  · subst hj
    exact ⟨exec_accumulatorCombine_cPipe hclk hrun hpipe true, exec_accumulatorCombine_cPipe hclk hrun hpipe false⟩
  · subst hj
    exact ⟨exec_drainRead_head hruns hsq hdrn hpipe true, exec_drainRead_head hruns hsq hdrn hpipe false⟩

/-- Settles O16, by the lemmas on `lanewise`. -/
theorem vectorLaneResults : Obligations.VectorLaneResults := fun n b g =>
  ⟨lanewise_lane n b g, lanewise_lt n b g, lanewise_flags n b g⟩

/-- Settles O18: the watchdog, the latched stop and the save of a quiet core are one lemma on `exec` each. -/
theorem stopsComplete : Obligations.StopsComplete := by
  unfold Obligations.StopsComplete
  intro c s n d
  refine ⟨fun hlimit hclk hrun hwork honly => ?_, fun hlimit hclk hrun hwork honly => ?_, fun hstop hclk hmode => ?_,
    fun hstop hclk => ?_, fun x y dead hheld hstop hbusy hsaved hclk hrun hquiet hhbm =>
      ⟨exec_coreQuietSave_clean hheld hstop hbusy hsaved hclk hrun hquiet hhbm, s.saveCore_net x n y dead, ?_, ?_⟩⟩
  · rw [exec_stageWatchdogTimeout hlimit hclk hrun hwork]
    simp [State.regB, n, d, honly]
  · rw [exec_stageWatchdogTimeout hlimit hclk hrun hwork]
    simp [State.regB, n, d, honly]
  · exact congrArg _ (State.takeLatched_of_latched hstop hclk (by simp only [State.yieldWaits, hmode, Bool.false_and]))
  · simp only [exec, execYieldLimitExpire, n, hstop, hclk, ne_eq, not_true_eq_false, Bool.false_eq_true, or_self, if_false]
  · rw [State.core_saveCore_self]
  · rw [State.core_saveCore_self, if_pos hrun]

/-- Settles O19: each of these instructions issues with an effect that keeps the frame, and so does every answer of the grant but
a fault. -/
theorem coreInstructionFrame : Obligations.CoreInstructionFrame := by
  unfold Obligations.CoreInstructionFrame
  intro c s t i o hmem hfault hexec
  obtain ⟨f, hf, hkeeps⟩ := exec_coreOnly c (i, o) hmem
  obtain rfl : s.issueCore c.toNat o f = t := Host.Outcome.next.inj ((hf s).symm.trans hexec)
  obtain ⟨honly, frame⟩ := State.issueCore_keeps hkeeps hfault
  exact ⟨honly, frame.rows, frame.tags, frame.ibuf, frame.plen, frame.routes, frame.acc, frame.sq, frame.run, frame.arrv,
    frame.general, frame.address, frame.flags⟩

/-- Settles O21: a packet that the core admits is handed on, and its effect is that of the core's arrival function. -/
theorem programPacketsComplete : Obligations.ProgramPacketsComplete := by
  unfold Obligations.ProgramPacketsComplete
  intro c p s n here
  refine ⟨fun hadmit hcmd => ?_, fun hadmit hcmd => ?_, fun hadmit hcmd => ?_, fun hheld hready htakes hrefuse =>
    ⟨exec_programLoad hheld hready htakes hrefuse, (s.core n).loaded_state n p⟩, fun hadmit hcmd hrun hstop => ?_,
    fun hadmit hcmd => ?_⟩
  · simp only [exec, execIbufWrite, hcmd, ne_eq, not_true_eq_false, if_false, hadmit.atCore, here, n]
  · simp only [exec, execRouteWrite, hcmd, ne_eq, not_true_eq_false, if_false, hadmit.atCore, here, n]
  · simp only [exec, execStart, hcmd, ne_eq, not_true_eq_false, if_false, hadmit.atCore, here, n]
  · simp only [exec, execStop, hcmd, ne_eq, not_true_eq_false, if_false, hadmit.atCore, here, n]
    rw [State.stopArrives_idle (s := s.arrive _ p) hrun hstop]
  · simp only [exec, execTallyArrival, hcmd, ne_eq, not_true_eq_false, if_false, hadmit.byTarget, hadmit.atCore, here, n,
      BitVec.ofNat_toNat, BitVec.setWidth_eq]

/-- Settles O50: braking sets BRAKED and the governor compares with its ceiling; through a fold over the regions the fast trip
sets and the duty's end clears its reason, and what follows in a thermal sample leaves the registers already shown. -/
theorem powerControlComplete : Obligations.PowerControlComplete := by
  unfold Obligations.PowerControlComplete
  intro die k watts vin temp s r m
  refine ⟨fun hr hfree => ⟨rfl, congrArg _ (State.brakeCurrent_of_free hr hfree), State.braking_braked _ _⟩,
    fun hdie hbraked hthermal hduty => exec_brakeRelease rfl hdie hbraked hthermal hduty,
    ⟨_, rfl, (within_reach_of_exec (i := .inputFastTrip) rfl).hbm, (within_reach_of_exec (i := .inputFastTrip) rfl).cores,
      fun q hq => s.foldl_brakeCurrent_current hq⟩,
    fun hdie => ⟨_, exec_levelSlewDone hdie k, rfl, s.slewed_spineLevel _ _, rfl⟩,
    fun hstopped => ?_, fun hruns habove => ?_, fun hruns hat => ?_, fun hruns hbelow => ?_,
    ⟨_, rfl, (within_reach_of_exec (i := .dutyBrakeEnd) rfl).hbm, fun q hq => s.foldl_dutyEnd_duty hq⟩,
    fun hdie hslow hthermal => ⟨_, exec_thermalSample hdie k temp, ?_⟩⟩
  · rw [exec_governorTick (m := m) rfl, if_pos hstopped]
  · rw [exec_governorTick (m := m) rfl, if_neg (by simp [hruns]), if_pos habove]
  · rw [exec_governorTick (m := m) rfl, if_neg (by simp [hruns]), if_neg (hat ▸ lt_irrefl _), if_pos hat]
  · rw [exec_governorTick (m := m) rfl, if_neg (by simp [hruns]), if_neg (Nat.lt_asymm hbelow), if_neg hbelow.ne]
  · have hkept := (s.sampled r temp).thermalBrake_regsBut r temp
    refine ⟨?_, fun hslowing => ?_, fun hbraking => State.thermalBrake_braked ?_ ?_, ?_⟩
    · rw [hkept.same _ _ (by decide), State.sampled_temp]
    · rw [hkept.same _ _ (by decide), State.sampled_hot hslow hslowing]
    · rwa [(s.sampled_regsBut r temp).same _ _ (by decide)]
    · exact (congrArg (fun x => x.2.1) (s.sampled_reasons r temp)).trans hthermal
    · rw [hkept.same _ _ (by decide)]
      exact s.sampled_rate r temp
end

section
/-! SUPPORT and PROOFS for 04_core_programs.md: the scalar, control, slot and send instructions of a core, the packets that reach its
rows, LAUNCH and what follows it, RESUME and KILL. -/

namespace Sys2Proof.Machine

/-! ## Scalar and move instructions (R94, R96) -/

theorem Core.aluTo_of_ne {fn : Nat} (h : fn ≠ 8) (k : Core) (gd : Nat) (x y : W32) :
    k.aluTo fn gd x y = k.setG gd (aluFn fn x y) := if_neg h

/-- MUL is late (R89). -/
theorem Core.aluTo_mul {fn : Nat} (h : fn = 8) (k : Core) (gd : Nat) (x y : W32) :
    k.aluTo fn gd x y = (k.setG gd (x * y)).lateG gd := by
  subst h; rfl

theorem natBits_lt (v lo n : Nat) : natBits v lo n < 2 ^ n := Nat.mod_lt _ (Nat.two_pow_pos n)

/-- A register filled with copies of one value, as VBC fills it, has that value in each lane (R96). -/
theorem foldl_copies_eq_lanewise {x b : Nat} (hx : x < 2 ^ b) (n : Nat) :
    (List.range n).foldl (fun a i => a + x * 2 ^ (b * i)) 0 = (lanewise n b fun _ => (x, 0)).1 := by
  induction n with
  | zero => rfl
  | succ n ih => rw [List.range_succ, List.foldl_append, ih, lanewise_succ, Nat.mod_eq_of_lt hx]; rfl

theorem natBits_copies {x b n i : Nat} (hx : x < 2 ^ b) (hi : i < n) (hwide : b * n = 256) :
    natBits (BitVec.ofNat 256 ((List.range n).foldl (fun a i => a + x * 2 ^ (b * i)) 0)).toNat (b * i) b = x := by
  rw [foldl_copies_eq_lanewise hx, BitVec.toNat_ofNat, Nat.mod_eq_of_lt (hwide ▸ lanewise_lt n b _), lanewise_lane n b _ i hi,
    Nat.mod_eq_of_lt hx]

/-! ## BR, LOOP and HALT (R94, R103 to R105) -/

section
variable {s : State} {c : CoreAddr} {w : W32}

theorem exec_br (h : s.Ready c 0x04 w) :
    let k := (s.core c.toNat).tick
    exec (.br c) s = .next (if condHolds (wf w 23 3) (k.greg (wf w 19 4)) (k.greg (wf w 15 4)) then
      if k.plen ≤ wf w 0 8 then (s.modCore c.toNat Core.tick).fault c.toNat 7 else s.setCore c.toNat (k.jump (wf w 0 8))
      else s.setCore c.toNat k.next) := by
  simp only [exec, execBr, h.issue, State.core_modCore_self, State.modCore_setCore]

theorem exec_loop (h : s.Ready c 0x10 w) (hsound : (s.core c.toNat).tick.loopError w = false) :
    exec (.loop c) s = .next ((s.setCore c.toNat ((s.core c.toNat).tick.openLoop w s.freeVal)).drew 1) := by
  simp only [exec, execLoop, h.issue, State.core_modCore_self, hsound, Bool.false_eq_true, if_false, State.modCore_modCore]
  rfl

theorem wf_lt (w : W32) (lo n : Nat) : wf w lo n < 2 ^ n := natBits_lt _ _ _

/-- A count of 9 bits fits its register. -/
theorem toNat_loopCount (w : W32) : (BitVec.ofNat 32 (wf w 8 9)).toNat = wf w 8 9 :=
  Nat.mod_eq_of_lt ((wf_lt w 8 9).trans (by decide))

/-- A loop that does not rotate, with its count in the word, opens over the next instructions (R104). -/
theorem Core.openLoop_opens {k : Core} (hrot : wf w 24 1 = 0) (himm : wf w 23 1 = 0) (hn : wf w 8 9 ≠ 0) (fr : Nat) :
    k.openLoop w fr = { k.setLp (wf w 25 1 == 1)
      ⟨BitVec.ofNat 32 (wf w 8 9), k.pc + 1, k.pc + wf w 0 8, true, false, 0, BitVec.ofNat 32 (wf w 8 9), 0⟩
      with pc := k.pc + 1 } := by
  have hcount : BitVec.ofNat 32 (wf w 8 9) ≠ 0 := fun h0 => hn (by rw [← toNat_loopCount, h0]; rfl)
  have hfits : wf w 8 9 < 2 ^ 32 := (wf_lt w 8 9).trans (by decide)
  have hflat : (0 == 1) = false := rfl
  simp only [Core.openLoop, hrot, himm, hflat, hcount, toNat_loopCount, hfits, zero_ne_one, Bool.false_eq_true, Nat.add_zero,
    if_false, if_true]

/-- A count of 0 skips the body (R104). -/
theorem Core.openLoop_skips {k : Core} (himm : wf w 23 1 = 0) (hn : wf w 8 9 = 0) (fr : Nat) :
    k.openLoop w fr = (k.setLp (wf w 25 1 == 1) (k.lp (wf w 25 1 == 1)).closed).past (k.pc + wf w 0 8) := by
  simp [Core.openLoop, himm, hn]

/-- HALT waits until everything the core issued has completed, then reports and ends the program (R103). -/
theorem exec_halt (h : s.Ready c 0x12 w) :
    let k := (s.core c.toNat).tick
    exec (.halt c) s = .next (
      if k.sq.isEmpty && k.cPipe.isEmpty && k.wb.isEmpty && ((s.modCore c.toNat Core.tick).outbound c.toNat).isEmpty then
        ((s.setCore c.toNat k).sendDone c.toNat).modCore c.toNat
          (fun k => { k.next with run := .idle, arrv := 0, tsum := 0, tcnt := 0 })
      else s.setCore c.toNat k) := by
  simp only [exec, execHalt, h.issue, State.core_modCore_self]
  rfl

theorem State.sendDone_of_none {n : Nat} (h : (s.core n).startInfo = none) : s.sendDone n = s := by
  simp only [State.sendDone, h]

end

/-! ## Parts of a row (R97, R115) -/

theorem testBit_natBits (v lo n i : Nat) : (natBits v lo n).testBit i = (decide (i < n) && v.testBit (lo + i)) := by
  rw [natBits, Nat.testBit_mod_two_pow, Nat.testBit_shiftRight]

theorem testBit_natSet (v lo n x i : Nat) :
    (natSet v lo n x).testBit i = if i < lo then v.testBit i else if i < lo + n then x.testBit (i - lo) else v.testBit i := by
  have hlow : v % 2 ^ lo < 2 ^ lo := Nat.mod_lt _ (Nat.two_pow_pos lo)
  have hmid : 2 ^ lo * (x % 2 ^ n) + v % 2 ^ lo < 2 ^ (lo + n) := by
    have hx := Nat.mod_lt x (Nat.two_pow_pos n)
    calc 2 ^ lo * (x % 2 ^ n) + v % 2 ^ lo < 2 ^ lo * (x % 2 ^ n) + 2 ^ lo := by omega
      _ = 2 ^ lo * (x % 2 ^ n + 1) := by ring
      _ ≤ 2 ^ lo * 2 ^ n := Nat.mul_le_mul_left _ hx
      _ = 2 ^ (lo + n) := (Nat.pow_add 2 lo n).symm
  have hsplit : natSet v lo n x = 2 ^ (lo + n) * (v / 2 ^ (lo + n)) + (2 ^ lo * (x % 2 ^ n) + v % 2 ^ lo) := by
    rw [natSet]; ring
  rw [hsplit, Nat.testBit_two_pow_mul_add _ hmid, Nat.testBit_two_pow_mul_add _ hlow, Nat.testBit_mod_two_pow,
    Nat.testBit_mod_two_pow, Nat.testBit_div_two_pow]
  by_cases h1 : i < lo
  · simp [h1, Nat.lt_add_right n h1]
  · by_cases h2 : i < lo + n
    · have h3 : i - lo < n := by omega
      simp [h1, h2, h3]
    · simp [h1, h2, Nat.sub_add_cancel (Nat.not_lt.mp h2)]

theorem testBit_rowNat (r : Row) (lo n i : Nat) :
    (rowNat r lo n).testBit i = (decide (i < 8 * n) && r.toNat.testBit (8 * lo + i)) := testBit_natBits ..

theorem testBit_rowPut (r : Row) (lo n x i : Nat) : (rowPut r lo n x).toNat.testBit i = (decide (i < 512) &&
    if i < 8 * lo then r.toNat.testBit i else if i < 8 * lo + 8 * n then x.testBit (i - 8 * lo) else r.toNat.testBit i) := by
  rw [rowPut, BitVec.testBit_toNat, BitVec.getLsbD_ofNat, testBit_natSet]

/-- Bytes put into a row are read back. -/
theorem rowNat_rowPut_same (r : Row) {lo n : Nat} (h : lo + n ≤ 64) (x : Nat) :
    rowNat (rowPut r lo n x) lo n = x % 2 ^ (8 * n) := by
  refine Nat.eq_of_testBit_eq fun i => ?_
  rw [testBit_rowNat, testBit_rowPut, Nat.testBit_mod_two_pow]
  by_cases hi : i < 8 * n
  · have h512 : 8 * lo + i < 512 := by omega
    simp [hi, h512]
  · simp [hi]

/-- Bytes of a row beside those put are as they were. -/
theorem rowNat_rowPut_beside (r : Row) {lo n lo' n' : Nat} (hin : lo' + n' ≤ 64) (h : lo' + n' ≤ lo ∨ lo + n ≤ lo')
    (x : Nat) : rowNat (rowPut r lo n x) lo' n' = rowNat r lo' n' := by
  refine Nat.eq_of_testBit_eq fun i => ?_
  rw [testBit_rowNat, testBit_rowNat, testBit_rowPut]
  by_cases hi : i < 8 * n'
  · have h512 : 8 * lo' + i < 512 := by omega
    rcases h with h | h
    · have hbelow : 8 * lo' + i < 8 * lo := by omega
      simp [hi, h512, hbelow]
    · have hlo : ¬ 8 * lo' + i < 8 * lo := by omega
      have hhi : ¬ 8 * lo' + i < 8 * lo + 8 * n := by omega
      simp [hi, h512, hlo, hhi]
  · simp [hi]

theorem vget_vset_self {α : Type} {n i : Nat} (h : i < n) (v : Vector α n) (x d : α) : vget (vset v i x) i d = x := by
  simp [vget, vset, h]

theorem aRowOf_lt (a : W32) : aRowOf a < 64 := Nat.mod_lt _ (by decide)

/-- A slot of 32 bytes is one half of its row (R92). -/
theorem aStart_half (a : W32) : aStart a 32 false = 0 ∨ aStart a 32 false = 32 := by
  have hbyte : aByte a < 64 := Nat.mod_lt _ (by decide)
  have hhalf : aStart a 32 false = aByte a / 32 * 32 := rfl
  omega

/-! ## What passing on and setting tags keep of a core -/

@[simp] theorem Core.next_rows (k : Core) : k.next.rows = k.rows := (Core.Keeps.next (o := 0) (w := 0)).rows
@[simp] theorem Core.next_tags (k : Core) : k.next.tags = k.tags := (Core.Keeps.next (o := 0) (w := 0)).tags

theorem Core.backEdge_a (k : Core) (p : Nat) (done one : Bool) : (k.backEdge p done one).1.a = k.a := by
  unfold Core.backEdge Core.setLp
  dsimp only
  split_ifs <;> rfl

@[simp] theorem Core.next_a (k : Core) : k.next.a = k.a := by
  unfold Core.next Core.past
  rw [Core.backEdge_a, Core.backEdge_a]

theorem Core.setTags_eq (k : Core) (rs : List Nat) (full : Bool) :
    k.setTags rs full = { k with tags := rs.foldl (fun t r => vset t r full) k.tags } := by
  induction rs generalizing k with
  | nil => rfl
  | cons r rs ih => exact ih (k.setTag r full)

theorem vget_foldl_vset {α : Type} {n r : Nat} (hr : r < n) (t : Vector α n) (rs : List Nat) (x d : α) :
    vget (rs.foldl (fun t r => vset t r x) t) r d = if r ∈ rs then x else vget t r d := by
  induction rs generalizing t with
  | nil => simp
  | cons q rs ih =>
    rw [List.foldl_cons, ih]
    by_cases hq : r = q
    · subst hq; simp [vget_vset_self hr]
    · simp [vget_vset_other _ hq, hq]

theorem Core.setTags_full (k : Core) {r : Nat} (hr : r < 64) (rs : List Nat) (full : Bool) :
    (k.setTags rs full).full r = if r ∈ rs then full else k.full r := by
  rw [Core.setTags_eq]
  exact vget_foldl_vset hr ..

theorem mem_tagRows {a : W32} {n r : Nat} : r ∈ tagRows a n ↔ ∃ j, j < n ∧ r = (aBase a + (aRow a + j) % aLen a) % 64 := by
  simp [tagRows, eq_comm]

/-! ## Slot instructions (R97, R98, R116, R119) -/

theorem Core.loses_of_undeferred {k : Core} (h : k.deferred = []) (v : Waiter) (lost : Bool) : k.loses v lost = lost := by
  simp only [Core.loses, Core.owed, h, List.any_nil, Bool.or_false]

theorem Core.slotReady_sld {k : Core} {w : W32} (hop : opc w = 0x14) (h : wf w 18 1 = 0 ∨ k.full (k.slotRow w) = true) :
    k.slotReady w = true := by
  simpa only [Core.slotReady, hop, Bool.or_eq_true, beq_iff_eq] using h

theorem Core.slotReady_sld_waits {k : Core} {w : W32} (hop : opc w = 0x14) (ht : wf w 18 1 = 1)
    (h : k.full (k.slotRow w) = false) : k.slotReady w = false := by
  simp only [Core.slotReady, hop, ht, h]; rfl

theorem Core.slotReady_sst {k : Core} {w : W32} (hop : opc w = 0x15) (h : wf w 18 1 = 0 ∨ k.full (k.slotRow w) = false) :
    k.slotReady w = true := by
  simpa only [Core.slotReady, hop, Bool.or_eq_true, beq_iff_eq, Bool.not_eq_true'] using h

section
variable {s : State} {c : CoreAddr} {o : Nat} {w : W32}

/-- A slot instruction that issues and whose tag allows it has its access, unless the arbiter gives the row to another (R116). -/
theorem State.Ready.slotStep (h : s.Ready c o w) (hready : (s.core c.toNat).tick.slotReady w = true) (lost : Bool)
    (ecc : List Ecc) : (s.modCore c.toNat Core.tick).slotStep c.toNat lost ecc w =
      if lost then s.setCore c.toNat ((s.core c.toNat).tick.defer .seq)
      else (s.modCore c.toNat Core.tick).slotAccess c.toNat w ecc := by
  have hnone : (s.core c.toNat).tick.deferred = [] := h.waitless.2
  simp only [State.slotStep, State.core_modCore_self, hready, Core.loses_of_undeferred hnone, State.modCore_modCore,
    Bool.true_eq_false, if_false]

theorem State.slotAccess_load (hop : opc w = 0x14) (s : State) (n : Nat) :
    s.slotAccess n w [.clean] = s.modCore n fun k => k.slotLoad w (vget (s.core n).rows ((s.core n).slotRow w) 0) := by
  simp only [State.slotAccess, hop]
  rfl

theorem State.slotAccess_store (hop : opc w = 0x15) (s : State) (n : Nat) (ecc : List Ecc) :
    s.slotAccess n w ecc = s.modCore n fun k => k.slotStore w := by
  simp only [State.slotAccess, hop]

theorem Core.seqRows_tags {k : Core} {full : Bool} (hword : k.word = w) (hop : opc w = if full then 0x16 else 0x17) :
    k.seqRows = tagRows (k.areg (wf w 23 3)) (wf w 0 6 + 1) := by
  cases full <;> simp only [Core.seqRows, hword, hop] <;> rfl

theorem State.slotAccess_tags {full : Bool} (hop : opc w = if full then 0x16 else 0x17) (s : State) (n : Nat) (ecc : List Ecc) :
    s.slotAccess n w ecc = s.modCore n fun k => (k.setTags k.seqRows full).next := by
  cases full <;> simp only [State.slotAccess, hop] <;> rfl

/-- A ready TSET or TCLR that has its rows sets or clears their tags (R98). -/
theorem exec_setTags {full : Bool} (h : s.Ready c (if full then 0x16 else 0x17) w) :
    let k := (s.core c.toNat).tick
    exec (if full then .tset ⟨c, false⟩ else .tclr ⟨c, false⟩) s =
      .next (s.setCore c.toNat (k.setTags (tagRows (k.areg (wf w 23 3)) (wf w 0 6 + 1)) full).next) := by
  have hword : (s.core c.toNat).tick.word = w := h.fetched
  have hready : (s.core c.toNat).tick.slotReady w = true := by
    cases full <;> simp only [Core.slotReady, h.coded] <;> rfl
  have hexec : exec (if full then .tset ⟨c, false⟩ else .tclr ⟨c, false⟩) s =
      .next ((s.modCore c.toNat Core.tick).slotStep c.toNat false [] w) := by
    cases full <;> exact congrArg _ (h.issue _)
  simp only [hexec, h.slotStep hready, State.slotAccess_tags h.coded, State.modCore_modCore, Core.seqRows_tags hword h.coded,
    Bool.false_eq_true, if_false]

/-- A store that has waited, taken up again where the sequencer runs (R119, R122). -/
theorem State.again_store (hrun : (s.core c.toNat).run = .running) (hstop : (s.core c.toNat).stop = .none)
    (hword : (s.core c.toNat).word = w) (hop : opc w = 0x15) (won : Bool) (lost : List Bool) (ecc : List Ecc) :
    s.again c.toNat .seq won lost ecc =
      s.setCore c.toNat (((s.core c.toNat).unwait .seq).tick.slotStore w) := by
  simp only [State.again, State.seqRuns, hrun, hstop, hword, State.slotAccess_store hop, State.modCore_modCore, decide_true,
    Bool.and_true, if_true]

theorem exec_tagWaitRetry_store (hclk : s.braked c.toNat = false) (halive : s.killing c.toNat = false)
    (hwaits : (s.core c.toNat).waits = [.seq]) (hnone : (s.core c.toNat).deferred = []) (hrun : (s.core c.toNat).run = .running)
    (hstop : (s.core c.toNat).stop = .none) (hword : (s.core c.toNat).word = w) (hop : opc w = 0x15)
    (hempty : (s.core c.toNat).full ((s.core c.toNat).slotRow w) = false) :
    exec (.tagWaitRetry c .seq ⟨[], []⟩) s = .next (s.setCore c.toNat (((s.core c.toNat).unwait .seq).tick.slotStore w)) := by
  have hmay : (s.core c.toNat).mayRetry .seq = true := by
    simp only [Core.mayRetry, hwaits, List.takeWhile_cons, bne_self_eq_false, Bool.false_eq_true, if_false, List.all_nil]
  have hheld : (s.core c.toNat).tagHolds .seq = false := by
    simp only [Core.tagHolds, hword, Core.slotReady_sst hop (.inr hempty), Bool.not_true]
  simp [exec, execTagWaitRetry, hclk, halive, hwaits, hheld, hmay, Core.loses_of_undeferred hnone,
    State.again_store hrun hstop hword hop]

theorem exec_rowArbiterDeferredGrant_store (hclk : s.braked c.toNat = false) (halive : s.killing c.toNat = false)
    (hdeferred : (s.core c.toNat).deferred = [.seq]) (hrun : (s.core c.toNat).run = .running)
    (hstop : (s.core c.toNat).stop = .none) (hword : (s.core c.toNat).word = w) (hop : opc w = 0x15) (ht : wf w 18 1 = 0) :
    exec (.rowArbiterDeferredGrant c .seq []) s =
      .next (s.setCore c.toNat (((s.core c.toNat).unwait .seq).tick.slotStore w)) := by
  have hmay : (s.core c.toNat).mayGrant .seq = true := by
    simp only [Core.mayGrant, hdeferred, List.takeWhile_cons, bne_self_eq_false, Bool.false_eq_true, if_false, List.all_nil]
  have hheld : (s.core c.toNat).tagHolds .seq = false := by
    simp only [Core.tagHolds, hword, Core.slotReady_sst hop (.inl ht), Bool.not_true]
  simp [exec, execRowArbiterDeferredGrant, hclk, halive, hdeferred, hheld, hmay, State.again_store hrun hstop hword hop]

/-! ## Sends (R99, R100) -/

/-- A send through a valid entry acts where the outbound queue has room (R99). -/
theorem State.Ready.sendStep (h : s.Ready c o w) (hvalid : rValid (vget (s.core c.toNat).tick.routes (wf w 21 5) 0) = true)
    (hroom : ((s.modCore c.toNat Core.tick).outbound c.toNat).length < 4) (act : W32 → BitVec 128 → State → State) :
    s.issue c.toNat o (fun w s => s.sendStep c.toNat (wf w 21 5) (act w)) =
      act w (vget (s.core c.toNat).tick.routes (wf w 21 5) 0) (s.modCore c.toNat Core.tick) := by
  rw [h.issue]
  simp only [State.sendStep, State.core_modCore_self, hvalid, Nat.not_le.mpr hroom, Bool.true_eq_false, if_false]

/-- A SEND without a tag that reads its rows without error queues its packet (R99). -/
theorem State.doSend_untagged (htag : wf w 6 1 = 0) (s : State) (n : Nat) (e : BitVec 128) :
    s.doSend n w [] e =
      (s.setCore n ((s.core n).setA (wf w 18 3) (sendSource (wf w 9 5) ((s.core n).areg (wf w 18 3))).2).next).inject
        (.core (BitVec.ofNat 20 n)) (s.routed n e cWRITE (sendVar e ((s.core n).greg (wf w 14 4)).toNat) (wf w 8 1 == 1)
          (wf w 7 1 == 1) ((sendSource (wf w 9 5) ((s.core n).areg (wf w 18 3))).1.map (s.core n).unit)) := by
  simp only [State.doSend, State.checkRows_clean, htag, zero_ne_one, false_and, Bool.true_eq_false, if_false]

/-- RECV takes from ARRV what it asks for, or waits (R100). -/
theorem exec_recv (h : s.Ready c 0x32 w) :
    let k := (s.core c.toNat).tick
    exec (.recv c) s = .next (s.setCore c.toNat (if (k.greg (fS w)).toNat ≤ k.arrv.toNat then
      ({ k with arrv := k.arrv - k.greg (fS w) } : Core).next else k)) := by
  simp only [exec, execRecv, h.issue, State.modCore_modCore]

/-- TWAIT takes the sum once the count is there, or waits (R100). -/
theorem exec_twait (h : s.Ready c 0x34 w) :
    let k := (s.core c.toNat).tick
    exec (.twait c) s = .next (s.setCore c.toNat (if (k.greg (fS w)).toNat ≤ k.tcnt.toNat then
      ({ k.setG (fD w) k.tsum with tsum := 0, tcnt := k.tcnt - k.greg (fS w) } : Core).next else k)) := by
  simp only [exec, execTwait, h.issue, State.modCore_modCore]

end

theorem Core.slotStore_rows (k : Core) (w : W32) : (k.slotStore w).rows = vset k.rows (k.slotRow w)
    (rowPut (vget k.rows (k.slotRow w) 0) (aStart (k.areg (wf w 19 3)) (slotBytes w) false) (slotBytes w)
      ((k.vreg (fD w)).toNat + if slotBytes w = 64 then (k.vreg (fD w + 1)).toNat * 2 ^ 256 else 0)) := by
  unfold Core.slotStore
  dsimp only
  rw [Core.next_rows]
  split_ifs <;> rfl

theorem Core.slotStore_tags {w : W32} (ht : wf w 18 1 = 0) (k : Core) : (k.slotStore w).tags = k.tags := by
  unfold Core.slotStore
  simp only [Core.next_tags, ht, zero_ne_one, false_and, if_false]
  rfl

/-! ## What a core's NI leaves as it takes and answers a packet (R142, R157) -/

theorem State.accept_within_net (s : State) (e : Ep) (p : Packet) : s.Within [.net] (s.accept e p) :=
  State.accept_within (.refl _ s) e p (Area.mem_of_contains rfl)

@[simp] theorem State.accept_core (s : State) (e : Ep) (p : Packet) (n : Nat) : (s.accept e p).core n = s.core n :=
  congrArg (Tbl.getD · n Core.reset) (s.accept_within_net e p).cores

@[simp] theorem State.accept_hbm (s : State) (e : Ep) (p : Packet) : (s.accept e p).hbm = s.hbm :=
  (s.accept_within_net e p).hbm

@[simp] theorem State.arrive_core (s : State) (e : Ep) (p : Packet) (n : Nat) : (s.arrive e p).core n = s.core n := rfl
@[simp] theorem State.arrive_hbm (s : State) (e : Ep) (p : Packet) : (s.arrive e p).hbm = s.hbm := rfl

@[simp] theorem State.reply_core (s : State) (e : Ep) (p : Packet) (cmd : BitVec 8) (var : Nat) (data : List Unit16) (n : Nat) :
    (s.reply e none p cmd var data).core n = s.core n := rfl

@[simp] theorem State.writeDone_hbm (s : State) (n : Nat) (p : Packet) : (s.writeDone n p).hbm = s.hbm := State.accept_hbm ..

/-- The core after an accepted write: ARRV counts it where it asks (R99). -/
def Core.counted (k : Core) (p : Packet) : Core :=
  if p.cnt then { k with arrv := BitVec.ofNat 32 (satInc 32 k.arrv.toNat) } else k

@[simp] theorem State.core_writeDone_self (s : State) (n : Nat) (p : Packet) :
    (s.writeDone n p).core n = (s.core n).counted p := by
  simp [State.writeDone, Core.counted]

@[simp] theorem Core.counted_rows (k : Core) (p : Packet) : (k.counted p).rows = k.rows := by
  unfold Core.counted; split_ifs <;> rfl
@[simp] theorem Core.counted_tags (k : Core) (p : Packet) : (k.counted p).tags = k.tags := by
  unfold Core.counted; split_ifs <;> rfl
@[simp] theorem Core.counted_g (k : Core) (p : Packet) : (k.counted p).g = k.g := by
  unfold Core.counted; split_ifs <;> rfl

theorem Core.counted_arrv {p : Packet} (h : p.cnt = true) (k : Core) :
    (k.counted p).arrv = BitVec.ofNat 32 (satInc 32 k.arrv.toNat) := by
  rw [Core.counted, if_pos h]

theorem Core.counted_arrv_of_uncounted {p : Packet} (h : p.cnt = false) (k : Core) : (k.counted p).arrv = k.arrv := by
  rw [Core.counted, h]; rfl

/-! ## WRITE and MASK_WRITE at a core (R97, R115, R119, R144) -/

section
variable {s : State} {c : CoreAddr} {p : Packet}

theorem exec_write_admitted (h : s.Admits c p) (hcmd : p.cmd = cWRITE) (lost : Bool) :
    exec (.write p lost) s = .next (s.takeWrite c.toNat p lost []) := by
  simp only [exec, execWrite, hcmd, ne_eq, not_true_eq_false, if_false, h.byTarget, h.atCore]

theorem exec_maskWrite_admitted (h : s.Admits c p) (hcmd : p.cmd = cMASK) (hlen : p.data.length = 5) (atoms : AtomTry) :
    exec (.maskWrite p atoms) s = .next (s.takeWrite c.toNat p atoms.lost (atoms.ecc.map (·.ecc))) := by
  simp only [exec, execMaskWrite, hcmd, hlen, ne_eq, not_true_eq_false, if_false, h.byTarget, h.atCore]

variable {n : Nat}

theorem State.takeWrite_signal (hsaved : (s.core n).saved = false) (hcmd : p.cmd = cWRITE) (hdata : p.data = [])
    (lost : Bool) (ecc : List Ecc) :
    s.takeWrite n p lost ecc = (s.arrive (.core (BitVec.ofNat 20 n)) p).writeDone n p := by
  simp only [State.takeWrite, hsaved, hcmd, hdata, List.isEmpty_nil, and_self, Bool.false_eq_true, if_false, if_true]

/-- A write with data that finds the buffer empty and has its row is applied at once (R121). -/
theorem State.takeWrite_first (hsaved : (s.core n).saved = false) (hinq : (s.core n).inq = []) (hdata : p.data ≠ [])
    (ecc : List Ecc) :
    s.takeWrite n p false ecc = (s.arrive (.core (BitVec.ofNat 20 n)) p).inboundAll n false ecc [p] := by
  simp [State.takeWrite, hsaved, hinq, hdata]

theorem State.inboundAll_applied {t : State} {ecc : List Ecc} (h : s.inbound n p false (ecc.headD .clean) = (t, none)) :
    s.inboundAll n false ecc [p] = t.modCore n (fun k => k.setInq []) := by
  simp only [State.inboundAll, h]

theorem Core.headBlocked_untagged (ht : p.t = false) (k : Core) : k.headBlocked p = false := by
  simp only [Core.headBlocked, ht, Bool.false_and]

theorem Core.owed_of_undeferred {k : Core} (h : k.deferred = []) (v : Waiter) (rows : List Nat) : k.owed v rows = false := by
  simp only [Core.owed, h, List.any_nil]

theorem State.writeRows_nil (hdata : p.data = []) (s : State) (n : Nat) (won : Bool) (fuel : Nat) :
    s.writeRows n p won fuel = (s, p) := by
  cases fuel <;> simp [State.writeRows, hdata]

theorem pRow_lt (p : Packet) : pRow p < 64 := Nat.mod_lt _ (by decide)
theorem pUnit_lt (p : Packet) : pUnit p < 4 := Nat.mod_lt _ (by decide)

/-- One unit is written in one access (R115). -/
theorem State.writeRows_unit {x : Unit16} (hdata : p.data = [x]) (ht : p.t = false) (hnone : (s.core n).deferred = [])
    (fuel : Nat) : s.writeRows n p false (fuel + 1) =
      (s.modCore n (fun k => k.putUnit (4 * pRow p + pUnit p) x), pRest p 1) := by
  have hrow := pRow_lt p
  have hunit := pUnit_lt p
  have hone : min (4 - pUnit p) 1 = 1 := by omega
  have hpos : (4 * pRow p + pUnit p + 0) % 256 = 4 * pRow p + pUnit p := by omega
  have hrest : (pRest p 1).data = [] := by simp [pRest, hdata]
  have hrun : unitRun (pRow p) (pUnit p) 1 = [4 * pRow p + pUnit p] := congrArg (fun u => [u]) hpos
  simp [State.writeRows, hdata, Core.headBlocked_untagged ht, Core.owed_of_undeferred hnone, hone, hrun, ht,
    State.writeRows_nil hrest, Core.putUnits]

theorem State.inbound_unit {x : Unit16} (hcmd : p.cmd = cWRITE) (hdata : p.data = [x]) (ht : p.t = false)
    (hnone : (s.core n).deferred = []) (ecc : Ecc) : s.inbound n p false ecc =
      ((s.modCore n (fun k => k.putUnit (4 * pRow p + pUnit p) x)).writeDone n p, none) := by
  have hmask : ¬ cWRITE = cMASK := by decide
  have hrest : (pRest p 1).data = [] := by simp [pRest, hdata]
  simp only [State.inbound, hcmd, hmask, if_false, State.writeRows_unit hdata ht hnone, hrest, List.isEmpty_nil, if_true]

/-- The core after a masked write to a row (R115). -/
def Core.masked (k : Core) (p : Packet) : Core :=
  { k with rows := vset k.rows (pRow p) (rowMask (vget k.rows (pRow p) 0) (pBlock p) (pByteMask p)) }

theorem State.inbound_mask (hcmd : p.cmd = cMASK) (ht : p.t = false) (hnone : (s.core n).deferred = []) :
    s.inbound n p false .clean = ((s.modCore n (·.masked p)).writeDone n p, none) := by
  simp only [State.inbound, hcmd, if_true, Core.headBlocked_untagged ht, Core.owed_of_undeferred hnone, Bool.false_eq_true,
    and_false, or_self, if_false, State.maskRow, eccOfWords, State.readRow, ht, Bool.false_and]
  rfl

/-! ## READ at a core (R116, R119, R143) -/

theorem exec_read_admitted (h : s.Admits c p) (hcmd : p.cmd = cREAD) (hwaits : (s.core c.toNat).waits = [])
    (hnone : (s.core c.toNat).deferred = []) (rows : RowTry) :
    exec (.read p rows) s = .next (s.readRows c.toNat p false rows.lost rows.ecc readFuel) := by
  have hnew : s.readWaits (.core (BitVec.ofNat 20 c.toNat)) p = false := by
    simp [State.readWaits, hwaits, hnone]
  simp only [exec, execRead, hcmd, ne_eq, not_true_eq_false, if_false, h.byTarget, h.atCore, hnew, Bool.false_eq_true]

theorem unitRun_eq (row unit n : Nat) : unitRun row unit n = unitRun 0 (4 * row + unit) n := by
  simp [unitRun]

theorem unitRun_succ (b m : Nat) : unitRun 0 b (m + 1) = b % 256 :: unitRun 0 (b + 1) m := by
  simp [unitRun, List.range_succ_eq_map, Function.comp_def, Nat.add_assoc, Nat.add_comm 1]

/-- What is left of a run of units once those of its first row are read is a run over fewer rows. -/
theorem dropWhile_unitRun {m : Nat} (hm : 0 < m) (b : Nat) :
    ∃ b' m', (unitRun 0 b m).dropWhile (fun v => v / 4 == b % 256 / 4) = unitRun 0 b' m' ∧
      (b' % 4 + m' + 3) / 4 < (b % 4 + m + 3) / 4 := by
  obtain ⟨q, hq⟩ : ∃ q, q = b % 256 / 4 := ⟨_, rfl⟩
  rw [← hq]
  induction m generalizing b with
  | zero => omega
  | succ m ih =>
    rw [unitRun_succ, List.dropWhile_cons_of_pos (by simp [hq])]
    cases m with
    | zero => exact ⟨0, 0, rfl, by omega⟩
    | succ m =>
      by_cases hend : b % 4 = 3
      · refine ⟨b + 1, m + 1, ?_, by omega⟩
        rw [unitRun_succ, List.dropWhile_cons_of_neg (by simp; omega)]
      · obtain ⟨b', m', hdrop, hlt⟩ := ih (Nat.succ_pos m) (b + 1) (by omega)
        exact ⟨b', m', hdrop, by omega⟩

theorem drop_length_takeWhile {α : Type} (q : α → Bool) (l : List α) : l.drop (l.takeWhile q).length = l.dropWhile q :=
  (congrArg (List.drop _) List.takeWhile_append_dropWhile).symm.trans List.drop_left

/-- The core once an untagged READ has read more units. -/
def Core.readMore (k : Core) (p : Packet) (here : List Nat) : Core :=
  { k.unwait (.read p) with
    rdGot := (p, k.readSoFar p ++ here.map k.unit) :: k.rdGot.filter (fun g => g.1 ≠ p) }

theorem Core.readMore_readSoFar (k : Core) (p : Packet) (here : List Nat) :
    (k.readMore p here).readSoFar p = k.readSoFar p ++ here.map k.unit := by
  simp [Core.readSoFar, Core.readMore]

theorem Core.readMore_readLeft (k : Core) (p : Packet) (q : Nat → Bool) :
    (k.readMore p ((k.readLeft p).takeWhile q)).readLeft p = (k.readLeft p).dropWhile q := by
  rw [Core.readLeft, Core.readMore_readSoFar, List.length_append, List.length_map, ← List.drop_drop]
  exact drop_length_takeWhile q (k.readLeft p)

theorem Core.readMore_undeferred {k : Core} (h : k.deferred = []) (p : Packet) (here : List Nat) :
    (k.readMore p here).deferred = [] := by
  simp [Core.readMore, Core.unwait, h]

/-- The access of an untagged READ to its next row, with no grant owed to another party (R116). -/
theorem State.readRows_step (ht : p.t = false) (hnone : (s.core n).deferred = []) {u : Nat} {us : List Nat}
    (hleft : (s.core n).readLeft p = u :: us) (fuel : Nat) : s.readRows n p false [] [] (fuel + 1) =
      (s.modCore n (fun k => k.readMore p ((u :: us).takeWhile (fun v => v / 4 == u / 4)))).readRows n p false [] [] fuel := by
  simp only [State.readRows, hleft, ht, Core.owed_of_undeferred hnone, State.readRow, List.headD_nil, List.tail_nil,
    Bool.false_eq_true, false_and, or_self, and_false, if_false, Bool.false_and]
  rfl

/-- An untagged READ with no grant owed reads its units row by row and ends with them all. -/
theorem State.readRows_all (ht : p.t = false) {fuel b m : Nat} (hnone : (s.core n).deferred = [])
    (hleft : (s.core n).readLeft p = unitRun 0 b m) (hfuel : (b % 4 + m + 3) / 4 < fuel) :
    ∃ t : State, s.readRows n p false [] [] fuel =
        t.readEnd n p 0 ((s.core n).readSoFar p ++ (unitRun 0 b m).map (s.core n).unit) ∧
      t.hbm = s.hbm ∧ (t.core n).rows = (s.core n).rows ∧ (t.core n).tags = (s.core n).tags := by
  induction fuel generalizing b m s with
  | zero => exact absurd hfuel (Nat.not_lt_zero _)
  | succ fuel ih =>
    cases m with
    | zero =>
      have hnil : (s.core n).readLeft p = [] := hleft
      exact ⟨s, by simp [State.readRows, hnil, unitRun], rfl, rfl, rfl⟩
    | succ m =>
      obtain ⟨b', m', hdrop, hlt⟩ := dropWhile_unitRun (Nat.succ_pos m) b
      have hcons := hleft.trans (unitRun_succ b m)
      rw [State.readRows_step ht hnone hcons, ← hcons]
      set here := ((s.core n).readLeft p).takeWhile (fun v => v / 4 == b % 256 / 4) with hhere
      obtain ⟨t, hend, hhbm, hrows, htags⟩ := ih (s := s.modCore n (fun k => k.readMore p here)) (b := b') (m := m')
        (by rw [State.core_modCore_self]; exact Core.readMore_undeferred hnone ..)
        (by rw [State.core_modCore_self, hhere, Core.readMore_readLeft, hleft, hdrop]) (by omega)
      rw [State.core_modCore_self] at hend hrows htags
      refine ⟨t, hend.trans ?_, hhbm, hrows, htags⟩
      have hsplit : here.map (s.core n).unit ++ (unitRun 0 b' m').map (s.core n).unit =
          (unitRun 0 b (m + 1)).map (s.core n).unit := by
        rw [← List.map_append, ← hdrop, hhere, hleft, List.takeWhile_append_dropWhile]
      rw [Core.readMore_readSoFar, List.append_assoc, ← hsplit]
      rfl

/-- What a packet is called by, as its source queues it (R137, R138). -/
theorem State.prepared_names (s : State) (e : Ep) (p : Packet) : (s.prepared e p).cmd = p.cmd ∧
    (s.prepared e p).tag = p.tag ∧ (s.prepared e p).ctx = p.ctx ∧ (s.prepared e p).data = p.data := by
  unfold State.prepared
  split
  · split_ifs <;> exact ⟨rfl, rfl, rfl, rfl⟩
  · exact ⟨rfl, rfl, rfl, rfl⟩

/-- A reply leaves by its endpoint's port under the tag and the context of what it answers (R143, R150). -/
theorem State.reply_leaves (s : State) (e : Ep) (p : Packet) (cmd : BitVec 8) (var : Nat) (data : List Unit16) :
    ∃ f ∈ (s.reply e none p cmd var data).net.flights, f.loc = .out e ∧ f.pkt.cmd = cmd ∧ f.pkt.tag = p.tag ∧
      f.pkt.ctx = p.ctx ∧ f.pkt.data = data := by
  obtain ⟨q, hq, hcmd, htag, hctx, hdata⟩ : ∃ q : Packet, s.reply e none p cmd var data = s.inject e q ∧ q.cmd = cmd ∧
      q.tag = p.tag ∧ q.ctx = p.ctx ∧ q.data = data :=
    ⟨_, rfl, rfl, (BitVec.ofNat_toNat ..).trans (BitVec.setWidth_eq _), (BitVec.ofNat_toNat ..).trans (BitVec.setWidth_eq _), rfl⟩
  obtain ⟨hcmd', htag', hctx', hdata'⟩ := s.prepared_names e q
  rw [hq]
  exact ⟨⟨s.prepared e q, .out e, false, none⟩, List.mem_append_right _ (List.mem_singleton_self _), rfl, hcmd'.trans hcmd,
    htag'.trans htag, hctx'.trans hctx, hdata'.trans hdata⟩

theorem State.mem_flights_accept {f : Flight} (h : f ∈ s.net.flights) (e : Ep) (p : Packet) :
    f ∈ (s.accept e p).net.flights := by
  unfold State.accept
  split_ifs
  · exact List.mem_append_left _ h
  · exact h

/-- A READ that ends is answered, and leaves rows, tags and stacks (R143). -/
theorem State.readEnd_answers (s : State) (n : Nat) (p : Packet) (status : Nat) (data : List Unit16) :
    (∃ f ∈ (s.readEnd n p status data).net.flights, f.loc = .out (.core (BitVec.ofNat 20 n)) ∧ f.pkt.cmd = cRDATA ∧
      f.pkt.tag = p.tag ∧ f.pkt.ctx = p.ctx ∧ f.pkt.data = data) ∧ (s.readEnd n p status data).hbm = s.hbm ∧
    ((s.readEnd n p status data).core n).rows = (s.core n).rows ∧
    ((s.readEnd n p status data).core n).tags = (s.core n).tags := by
  have hcore : (s.readEnd n p status data).core n =
      { (s.core n).unwait (.read p) with rdGot := (s.core n).rdGot.filter (fun g => g.1 ≠ p) } := by
    rw [State.readEnd, State.accept_core, State.reply_core, State.arrive_core]
    exact State.core_modCore_self ..
  refine ⟨?_, State.accept_hbm .., (congrArg Core.rows hcore).trans rfl, (congrArg Core.tags hcore).trans rfl⟩
  obtain ⟨f, hf, hnamed⟩ := State.reply_leaves _ (.core (BitVec.ofNat 20 n)) p cRDATA status data
  exact ⟨f, State.mem_flights_accept hf _ _, hnamed⟩

end

/-! ## RESUME, restores and KILL (R112, R234 to R236) -/

section
variable {s : State} {port : Fin 2} {x : Fin 1024} {st : Nat}

/-- A command that the device does not refuse for its sender acts where the context's state admits it, else it sets CMDERR 1
(R235). -/
theorem State.Commands.command (h : s.Commands port x st) (states : List Nat) (act : State → State) :
    s.command port x false states act = if states.contains st then act s else s.cmdErr x 1 := by
  have hreal : x.val ≠ 0 := fun h0 => h.real (Fin.ext h0)
  cases hst : states.contains st <;>
    simp only [State.command, State.writeAs, h.reached, hreal, h.owned, h.free, h.inState, hst, Bool.true_eq_false, and_false,
      or_self, or_true, Bool.false_eq_true, if_false, if_true]

theorem exec_ctxResume (h : s.Commands port x 3) :
    exec (.ctxResume port x) s = .next (if s.regB .CTX_STATE_PKG_HELD x then s.cmdErr x 6
      else if s.reg .PKG_STATE_STATE 0 ≠ 0 then s.cmdErr x 5
      else if s.holdErr x ≠ 0 then s.cmdErr x (s.holdErr x) else s.resumeCtx x) :=
  congrArg _ (h.command [3] _)

theorem exec_ctxKill (h : s.Commands port x st) : exec (.ctxKill port x) s =
    .next (if [1, 2, 3, 4, 5].contains st then (s.cmdErr x 0).killCtx x true else s.cmdErr x 1) :=
  congrArg _ (h.command [1, 2, 3, 4, 5] _)

theorem State.hbmSeen_within_controller (s : State) (a n : Nat) (es : List AtomEcc) :
    s.Within [.regs, .hbmc, .helm, .free] (s.hbmSeen a n es).1 := by
  apply @State.hbmSeen_within _ _ _ (.refl _ s) a n es <;> exact Area.mem_of_contains rfl

@[simp] theorem State.hbmSeen_core (s : State) (a n : Nat) (es : List AtomEcc) (k : Nat) :
    (s.hbmSeen a n es).1.core k = s.core k :=
  congrArg (Tbl.getD · k Core.reset) (s.hbmSeen_within_controller a n es).cores

@[simp] theorem State.hbmSeen_ctx (s : State) (a n : Nat) (es : List AtomEcc) (y : Nat) :
    (s.hbmSeen a n es).1.ctx y = s.ctx y :=
  congrArg (Tbl.getD · y Ctx.reset) (s.hbmSeen_within_controller a n es).ctxs

/-- The state in which a core's image has been read and the core is restored no more. -/
def State.imageRead (s : State) (x n : Nat) : State :=
  (s.hbmSeen (s.imageAt x n) 5120 []).1.modCtx x (fun t => { t with toRestore := t.toRestore.erase n })

theorem State.imageRead_core (s : State) (x n k : Nat) : (s.imageRead x n).core k = s.core k := State.hbmSeen_core ..

/-- What holds of a saved core whose image can be reached, as its context resumes (R112). -/
structure State.Restorable (s : State) (x n : Nat) : Prop where
  held : s.holder n = some x
  resuming : (s.ctx x).busy = .resuming
  owed : n ∈ (s.ctx x).toRestore
  bleached : (s.core n).bleaching = false
  clocked : s.braked n = false
  reachable : s.restoreWaits x n = false

theorem exec_coreRestore_read {c : CoreAddr} {y : Nat} (h : s.Restorable y c.toNat)
    (hread : (s.hbmSeen (s.imageAt y c.toNat) 5120 []).2 = none) :
    let u := s.imageRead y c.toNat
    exec (.coreRestore c true) s = .next (u.setCore c.toNat
      ((u.reload y c.toNat (u.core c.toNat)).ofImage (u.hbmBytes (u.imageAt y c.toNat) 5120))) := by
  simp only [exec, execCoreRestore, h.held, h.resuming, List.contains_iff_mem.mpr h.owed, h.bleached, h.clocked, h.reachable,
    hread, ne_eq, not_true_eq_false, Bool.true_eq_false, Bool.false_eq_true, or_self, if_false, if_true]
  rfl

/-- What a context notes of a core whose image cannot be read, with a failure of rank `r`: its passes end with it (R112). -/
def Ctx.noteLost (t : Ctx) (n r : Nat) : Ctx :=
  { t with
    lostImage := some (min r (t.lostImage.getD r))
    passes := mapIf (fun p => inSet p.cset p.cmask n)
      (fun p => { p with rank := min p.rank r, faults := addFault p.faults n 0 }) t.passes }

theorem exec_coreRestore_lost {c : CoreAddr} {y : Nat} (h : s.Restorable y c.toNat) :
    let u := s.imageRead y c.toNat
    exec (.coreRestore c false) s = .next ((u.setCore c.toNat ((u.reload y c.toNat (s.core c.toNat)).unrestored c.toNat)).modCtx y
      (·.noteLost c.toNat ((s.hbmSeen (s.imageAt y c.toNat) 5120 []).2.getD 1))) := by
  simp only [exec, execCoreRestore, h.held, h.resuming, List.contains_iff_mem.mpr h.owed, h.bleached, h.clocked, h.reachable,
    ne_eq, not_true_eq_false, Bool.true_eq_false, Bool.false_eq_true, or_self, if_false]
  rw [← State.imageRead, State.imageRead_core]
  rfl

theorem exec_ctxResumeDone (hbusy : (s.ctx x).busy = .resuming) (hall : (s.ctx x).toRestore = [])
    (hbleached : ∀ k ∈ s.coresOf x, (s.core k).bleaching = false) (hrates : s.ratesSettled = true)
    (hrecord : s.recordWaits x = false) : exec (.ctxResumeDone x) s = .next ((s.continueCtx x).pauseAgain x) := by
  have hnone : (s.coresOf x).any (fun c => (s.core c).bleaching) = false := by simpa using hbleached
  simp only [exec, execCtxResumeDone, hbusy, hall, hnone, hrates, hrecord, List.isEmpty_nil, ne_eq, not_true_eq_false,
    Bool.true_eq_false, Bool.false_eq_true, or_self, if_false]

end

/-! ## A descriptor that begins (R241) -/

theorem find?_mapIf {α : Type} (p q : α → Bool) {f : α → α} (hf : ∀ a, p (f a) = p a) (l : List α) :
    (mapIf q f l).find? p = (l.find? p).map (fun a => if q a then f a else a) := by
  have hp : p ∘ (fun a => if q a then f a else a) = p := by
    funext a
    dsimp only [Function.comp]
    split_ifs
    · exact hf a
    · rfl
  rw [mapIf, List.find?_map, hp]

theorem Ctx.copy?_id {t : Ctx} {i : Nat} {c : Copy} (h : t.copy? i = some c) : c.id = i := by
  simpa using List.find?_some h

@[simp] theorem State.msix_ctx (s : State) (p : Nat) (vf : Option Nat) (vec y : Nat) : (s.msix p vf vec).ctx y = s.ctx y := by
  unfold State.msix
  split_ifs <;> rfl

/-- An event of a context leaves its copies (R246). -/
@[simp] theorem State.event_copies (s : State) (f : Fld) (x : Nat) : ((s.event f x).ctx x).copies = (s.ctx x).copies := by
  have hmessage : ∀ t : State, ((t.evMessage x).ctx x).copies = (t.ctx x).copies := by
    intro t
    unfold State.evMessage State.holdMsg State.ctxVector
    split_ifs
    · rfl
    · simp
    · split
      · rfl
      · split_ifs <;> simp
  unfold State.event
  split_ifs
  · rfl
  · exact hmessage _

@[simp] theorem State.missed_copies (s : State) (x : Nat) : ((s.missed x).ctx x).copies = (s.ctx x).copies := by
  simp [State.missed]

/-- A copy with the work of another: what a miss and a beginning leave of it. -/
structure Copy.Same (c k : Copy) : Prop where
  bytes : k.bytes = c.bytes
  grp : k.grp = c.grp
  id : k.id = c.id

section
variable {s : State} {x i op : Nat} {c k : Copy}

theorem State.missCopy_copy? (h : (s.ctx x).copy? i = some c) :
    ∃ k, ((s.missCopy x c).ctx x).copy? i = some k ∧ c.Same k := by
  unfold State.missCopy
  split_ifs
  · exact ⟨c, h, rfl, rfl, rfl⟩
  · refine ⟨{ c with late := true }, ?_, rfl, rfl, rfl⟩
    have hc : (s.ctx x).copies.find? (fun k => k.id == i) = some c := h
    rw [Ctx.copy?, State.missed_copies, State.ctx_modCtx_self, find?_mapIf, hc, Option.map_some, if_pos (beq_self_eq_true _)]
    exact fun _ => rfl

theorem State.begun_copy? (h : (s.ctx x).copy? i = some c) (hk : ((s.begun x i).ctx x).copy? i = some k) : c.Same k := by
  obtain ⟨j, hj, hbytes, hgrp, hid⟩ := State.missCopy_copy? h
  have hbegun : ((s.begun x i).ctx x).copy? i = some { j with begun := true } := by
    have hfind : ((s.missCopy x c).ctx x).copies.find? (fun k => k.id == i) = some j := hj
    rw [State.begun, h, Option.map_some, Option.getD_some, State.ctx_modCtx_self, Ctx.copy?, find?_mapIf, hfind, Option.map_some,
      if_pos (beq_iff_eq.mpr (Ctx.copy?_id hj))]
    exact fun _ => rfl
  obtain rfl := Option.some.inj (hbegun.symm.trans hk)
  exact ⟨hbytes, hgrp, hid⟩

/-- A fetched copy that can begin acts, begun (R241, R247). -/
theorem State.Begins.begins (h : s.Begins x i op c) (hk : ((s.begun x i).ctx x).copy? i = some k)
    (act : Copy → State → State) : s.begins x i (· == op) act = act k (s.begun x i) := by
  have hsame := State.begun_copy? h.fetched hk
  have hsound : badMember k = false := by
    rw [← h.sound, badMember, badMember, hsame.bytes, hsame.grp]
  have hbegun : (s.missCopy x c).modCtx x (fun t => { t with
      copies := mapIf (fun c => c.id == i) (fun c => { c with begun := true }) t.copies }) = s.begun x i := by
    simp only [State.begun, h.fetched, Option.map_some, Option.getD_some]
  simp only [State.begins, h.fetched, h.coded, h.eligible, h.room, beq_self_eq_true, Bool.not_true, Bool.or_self,
    Bool.false_eq_true, if_false, hbegun, hk, Option.getD_some, hsound]

end

/-! ## LAUNCH (R108, R110, R250, R272 to R274) -/

section
variable {s t u : State} {x : Fin 1024} {i : Nat} {c k : Copy} {dev : DevSeen}

theorem exec_launch_begins (h : s.Begins x i 0x02 c) (hwaits : s.launchWaits x c = false)
    (hnew : (s.ctx x).passes.find? (fun q => q.copy == i) = none) (hk : ((s.begun x i).ctx x).copy? i = some k) (dev : DevSeen) :
    exec (.launch x ⟨i, dev⟩) s = .next (((s.begun x i).launch x k dev).retirePasses x) := by
  simp only [exec, execLaunch, h.fetched, hnew, hwaits, h.begins hk, Bool.false_eq_true, if_false]

theorem exec_launch_inService {q : Pass} (hc : (s.ctx x).copy? i = some c)
    (hq : (s.ctx x).passes.find? (fun q => q.copy == i) = some q) (dev : DevSeen) :
    exec (.launch x ⟨i, dev⟩) s = .next ((s.passGo x q.id true dev).retirePasses x) := by
  simp only [exec, execLaunch, hc, hq]

end

/-- A context with a pass in service that has read its input list. -/
def State.served (s : State) (x : Nat) (p : Pass) (l : List (List Byte)) : State :=
  { s with nextId := s.nextId + 1 }.modCtx x (fun t => { t with passes := t.passes ++ [{ p with inputs := l }] })

section
variable {s t u : State} {x : Nat} {k : Copy} {dev : DevSeen}

theorem State.launch_refused {st : Nat} (h : s.imageBad x (s.newPass k).image dev = (t, some st)) :
    s.launch x k dev = t.complete x k.id st 0 := by
  simp only [State.launch, h]

theorem State.launch_uncovered (h : s.imageBad x (s.newPass k).image dev = (t, none)) (hplain : t.covers k = false) :
    s.launch x k dev = (t.served x (s.newPass k) []).passGo x (s.newPass k).id false
      (seenPast (t.pastImage (s.newPass k).image dev) (dF k.bytes 32 8) (32 * 0)) := by
  simp only [State.launch, h, hplain, Bool.false_eq_true, false_and, if_false]
  rfl

theorem State.launch_covered {l : List (List Byte)} (h : s.imageBad x (s.newPass k).image dev = (t, none))
    (hcovers : t.covers k = true) (hroom : recLen (dF k.bytes 40 2) ≤ t.logSize x)
    (hinputs : t.readInputs x k (s.newPass k) (t.pastImage (s.newPass k).image dev) = (u, .ok l)) :
    s.launch x k dev = (u.served x (s.newPass k) l).passGo x (s.newPass k).id false
      (seenPast (t.pastImage (s.newPass k).image dev) (dF k.bytes 32 8) (32 * l.length)) := by
  simp only [State.launch, h, hcovers, hinputs, Nat.not_lt.mpr hroom, and_false, if_false, if_true]
  rfl

/-! ## Passes in service (R110, R273) -/

variable {q : Pass}

theorem State.passGo_waitsCores (hlive : s.pausedCtx x = false) (hq : (s.ctx x).passes.find? (fun r => r.id == q.id) = some q)
    (hst : q.st = .waitsCores) (dev : DevSeen) : s.passGo x q.id true dev = s.loadPass x q.id (some dev) := by
  simp only [State.passGo, hlive, hq, hst, Bool.false_eq_true, if_false, if_true]

theorem State.passGo_waitsLog (hlive : s.pausedCtx x = false) (hq : (s.ctx x).passes.find? (fun r => r.id == q.id) = some q)
    (hst : q.st = .waitsLog) (hlog : s.logWaits x q = false) (dev : DevSeen) : s.passGo x q.id true dev =
      (s.recordPass x q dev).loadPass x q.id (some (s.pastCaptures q dev)) := by
  simp only [State.passGo, hlive, hq, hst, hlog, Bool.false_eq_true, if_false, if_true]

theorem State.loadPass_sends (hq : (s.ctx x).passes.find? (fun r => r.id == q.id) = some q) (hst : q.st = .waitsCores)
    (hmay : s.mayLoad x q = true) (himage : s.imageWaits q.image = false) (hsound : s.imageBad x q.image dev = (t, none)) :
    s.loadPass x q.id (some dev) = t.sendImage x q := by
  simp only [State.loadPass, hq, hst, hmay, himage, hsound, Bool.not_false, and_self, if_true]

theorem State.loadPass_refuses {st : Nat} (hq : (s.ctx x).passes.find? (fun r => r.id == q.id) = some q)
    (hst : q.st = .waitsCores) (hmay : s.mayLoad x q = true) (himage : s.imageWaits q.image = false)
    (hbad : s.imageBad x q.image dev = (t, some st)) : s.loadPass x q.id (some dev) = t.refusePass x q st := by
  simp only [State.loadPass, hq, hst, hmay, himage, hbad, Bool.not_false, and_self, if_true]

end

/-! ## Spares and replay (R276, R278, R279, R377) -/

/-- The parts that the decision of a pass reaches (R278). -/
def decisionAreas : List Area := [.regs, .hbm, .hbmc, .ctxs, .ports, .helm, .free, .out]

theorem State.spareDone_within_decisionAreas (s : State) (n : Nat) : s.Within decisionAreas (s.spareDone n) := by
  apply @State.spareDone_within _ _ _ (.refl _ s) n <;> exact Area.mem_of_contains rfl

@[simp] theorem State.spareDone_net (s : State) (n : Nat) : (s.spareDone n).net = s.net :=
  (s.spareDone_within_decisionAreas n).net

@[simp] theorem State.spareDone_core (s : State) (n k : Nat) : (s.spareDone n).core k = s.core k :=
  congrArg (Tbl.getD · k Core.reset) (s.spareDone_within_decisionAreas n).cores

@[simp] theorem State.chartCore_net (s : State) (n : Nat) : (s.chartCore n).net = s.net :=
  (State.chartCore_within (l := [.regs, .helm, .vault, .start]) (.refl _ s) n (Area.mem_of_contains rfl)
    (Area.mem_of_contains rfl) (Area.mem_of_contains rfl) (Area.mem_of_contains rfl)).net

theorem State.makeAbsent_absent (s : State) (n : Nat) : n ∈ (s.makeAbsent n).net.absent := by
  unfold State.makeAbsent
  by_cases h : n ∈ s.net.absent <;> simp [h]

/-- A core made absent stays so as its pass is decided. -/
theorem State.absent_of_makeAbsent (s : State) (n : Nat) : ((s.makeAbsent n).spareDone n).absent n = true := by
  rw [State.absent, State.spareDone_net, List.contains_iff_mem.mpr (s.makeAbsent_absent n), Bool.or_true]

theorem State.canCheck_of_agreed {s : State} {die duty : Nat} (h : s.agreed die duty = true) : s.canCheck die = true :=
  (Bool.and_eq_true_iff.mp h).1

section
variable {s : State} {c : CoreAddr}

/-- Where none can check a spare, the core becomes absent (R377). -/
theorem exec_coreSpareAssign_unchecked (hfailed : s.failedCore c.toNat = true) (hcheck : s.canCheck (dieOf c.toNat) = false)
    (agreed : Bool) : exec (.coreSpareAssign c agreed) s = .next ((s.makeAbsent c.toNat).spareDone c.toNat) := by
  simp only [exec, execCoreSpareAssign, hfailed, hcheck, Bool.not_true, Bool.not_false, Bool.false_eq_true, if_false, if_true]

theorem exec_coreSpareAssign_given {sp : Nat} (hfailed : s.failedCore c.toNat = true)
    (hagreed : s.agreed (dieOf c.toNat) 1 = true) (hsp : s.nextSpare c.toNat = some sp) :
    exec (.coreSpareAssign c true) s = .next (((s.chartCore c.toNat).giveSpare c.toNat sp).spareDone c.toNat) := by
  simp only [exec, execCoreSpareAssign, hfailed, State.canCheck_of_agreed hagreed, hagreed, hsp, Bool.not_true, Bool.or_self,
    Bool.false_eq_true, if_false]

theorem exec_coreSpareAssign_none (hfailed : s.failedCore c.toNat = true) (hagreed : s.agreed (dieOf c.toNat) 1 = true)
    (hsp : s.nextSpare c.toNat = none) :
    exec (.coreSpareAssign c true) s = .next (((s.chartCore c.toNat).makeAbsent c.toNat).spareDone c.toNat) := by
  simp only [exec, execCoreSpareAssign, hfailed, State.canCheck_of_agreed hagreed, hagreed, hsp, Bool.not_true, Bool.or_self,
    Bool.false_eq_true, if_false]

end

/-- A pass to be replayed whose inputs are as captured, whose rows are refilled and whose image is sound is launched again
(R279). -/
theorem exec_replay_relaunch {s t u : State} {x : Fin 1024} {n : Nat} {q : Pass} {dev : DevSeen}
    (hq : (s.ctx x).passes.find? (fun r => r.id == n) = some q) (hreplay : q.toReplay = true) (hlive : s.pausedCtx x = false)
    (hroom : s.heldFull x = false) (hwaits : s.replayWaits x q = false) (hsame : s.inputsSame x q q.inputs dev = (u, some true))
    (hrefill : (u.refillAll x q (s.pastCaptures q dev)).ok = some true)
    (hsound : (u.refillAll x q (s.pastCaptures q dev)).s.imageBad x q.image (u.refillAll x q (s.pastCaptures q dev)).dev =
      (t, none)) : exec (.replay x ⟨n, dev⟩) s = .next (t.relaunch x q) := by
  simp only [exec, execReplay, hq, hreplay, hlive, hroom, hwaits, hsame, hrefill, State.replaySend, hsound, Bool.not_true,
    Bool.or_self, Bool.false_eq_true, Option.isSome_none, if_false]

end Sys2Proof.Machine

open Sys2Proof Sys2Proof.Machine

/-! ## The obligations -/

/-- Settles O9: a ready instruction completes with its effect on the core, by the branch that its function, selector or width
takes. -/
theorem scalarInstructionsComplete : Obligations.ScalarInstructionsComplete := by
  unfold Obligations.ScalarInstructionsComplete
  intro c s w k
  refine ⟨fun hnop => hnop.completes rfl, fun halu hfn => halu.completes (Core.aluTo_of_ne hfn ..),
    fun halu hmul => halu.completes (Core.aluTo_mul hmul ..), fun halui hfn => halui.completes (Core.aluTo_of_ne hfn ..),
    fun halui hmul => halui.completes (Core.aluTo_mul hmul ..),
    fun hmovi hlow => hmovi.completes (congrArg (k.setG (fD w)) (if_neg (by omega))),
    fun hmovi hhigh => hmovi.completes (congrArg (k.setG (fD w)) (if_pos hhigh)),
    fun hrdnf => hrdnf.completes rfl, fun hclnf => hclnf.completes rfl, fun hsrseed => hsrseed.completes rfl,
    fun hseta => hseta.completes rfl, fun hgeta => hgeta.completes rfl, fun hadva => hadva.completes rfl,
    fun hrdsp hsel => hrdsp.completes (by rw [hsel]; rfl), fun hrdsp hsel => hrdsp.completes (by rw [hsel]; rfl),
    fun hrdsp => hrdsp.completes rfl, fun hwrsp hsel => hwrsp.completes (by simp only [hsel]; rfl),
    fun hwrsp hsel => hwrsp.completes (by simp only [hsel]; rfl), fun hwrsp hsel => hwrsp.completes ?_,
    fun hwrsp hsel => hwrsp.completes (by simp only [hsel]; rfl),
    fun hvbc => ⟨_, hvbc.completes rfl, fun hwide i hi => ?_, fun hnarrow i hi => ?_⟩,
    fun hvext => ⟨_, hvext.completes rfl, fun hwide => ?_, fun hnarrow => ?_⟩, fun hvmov => hvmov.completes rfl⟩
  · dsimp only
    split
    · omega
    · omega
    · omega
    · rfl
  · rw [if_pos hwide]
    exact natBits_copies (k.greg (fS w)).isLt hi rfl
  · rw [if_neg (by omega)]
    exact natBits_copies (Nat.mod_lt _ (by decide)) hi rfl
  · rw [if_pos hwide]
    exact Nat.mod_eq_of_lt (natBits_lt _ _ 32)
  · rw [if_neg (by omega)]
    exact Nat.mod_eq_of_lt ((natBits_lt _ _ 16).trans (by decide))

/-- Settles O10: BR by its condition, LOOP by its count, YIELD by the stop that it may find latched, HALT by what is still on its
way. -/
theorem controlInstructionsComplete : Obligations.ControlInstructionsComplete := by
  unfold Obligations.ControlInstructionsComplete
  intro c s w k
  refine ⟨fun hbr hcond hin => ?_, fun hbr hcond => ?_, fun hloop hsound hrot himm hn => ?_,
    fun hloop hsound => exec_loop hloop hsound, fun hloop hsound himm hn => ?_,
    fun hyield hno => hyield.completes (if_neg hno), fun hyield hmode hstop => hyield.completes (if_pos ⟨hmode, hstop⟩),
    fun hhalt hsq hpipe hwb hout hstart => ?_, fun hhalt hsq hpipe hwb hout => ?_, fun hhalt hout => ?_⟩
  · rw [exec_br hbr, if_pos hcond, if_neg (Nat.not_le.mpr hin)]; rfl
  · rw [exec_br hbr, if_neg (by rw [hcond]; decide)]
  · rw [exec_loop hloop hsound, Core.openLoop_opens hrot himm hn]
  · rw [exec_loop hloop hsound, Core.openLoop_skips himm hn]
  · rw [exec_halt hhalt, if_pos (by simp [k, hsq, hpipe, hwb, hout]), State.sendDone_of_none (by simpa using hstart)]
    simp [State.modCore_eq, k]
  · rw [exec_halt hhalt, if_pos (by simp [k, hsq, hpipe, hwb, hout])]
  · rw [exec_halt hhalt, if_neg (by simp [hout])]

/-- Settles O12: an access whose tag allows it and whose row the arbiter grants is made, at issue or when it is taken up again. -/
theorem slotInstructionsComplete : Obligations.SlotInstructionsComplete := by
  unfold Obligations.SlotInstructionsComplete
  intro c s w k
  refine ⟨fun hsld htag => ?_, fun hsld ht hempty => ?_, fun hsst htag => ?_, fun hsst ht => ?_, exec_setTags (full := true),
    exec_setTags (full := false),
    fun j hj hclk halive hwaits hnone hrun hstop hword hop ht hempty => ?_,
    fun j hj hclk halive hdeferred hrun hstop hword hop ht => ?_⟩
  · simp only [exec, execSld, hsld.issue, hsld.slotStep (Core.slotReady_sld hsld.coded htag), State.slotAccess_load hsld.coded,
      State.core_modCore_self, State.modCore_modCore, Bool.false_eq_true, if_false]
    rfl
  · have hwaits : (s.core c.toNat).tick.slotReady w = false := Core.slotReady_sld_waits hsld.coded ht hempty
    simp only [exec, execSld, hsld.issue, State.slotStep, State.core_modCore_self, hwaits, State.modCore_modCore, if_true]
    rfl
  · simp only [exec, execSst, hsst.issue, hsst.slotStep (Core.slotReady_sst hsst.coded htag), State.slotAccess_store hsst.coded,
      State.modCore_modCore, Bool.false_eq_true, if_false]
    rfl
  · simp only [exec, execSst, hsst.issue, hsst.slotStep (Core.slotReady_sst hsst.coded (.inl ht)), if_true]
    rfl
  · subst hj
    exact exec_tagWaitRetry_store hclk halive hwaits hnone hrun hstop hword hop hempty
  · subst hj
    exact exec_rowArbiterDeferredGrant_store hclk halive hdeferred hrun hstop hword hop ht

/-- Settles O13: the store puts one half of its row, and passing on leaves rows and tags. -/
theorem slotStoreRow : Obligations.SlotStoreRow := by
  unfold Obligations.SlotStoreRow
  intro k w hsize ht r lo
  have hbytes : slotBytes w = 32 := if_neg (by omega)
  have hrows : (k.slotStore w).rows = vset k.rows r (rowPut (vget k.rows r 0) lo 32 (k.vreg (fD w)).toNat) := by
    rw [Core.slotStore_rows, hbytes]; rfl
  have hhalf : lo = 0 ∨ lo = 32 := aStart_half _
  rw [hrows, vget_vset_self (show r < 64 from aRowOf_lt _)]
  refine ⟨?_, rowNat_rowPut_beside _ (by omega) (by omega) _, fun q hq => vget_vset_other _ hq _ _, Core.slotStore_tags ht k⟩
  rw [rowNat_rowPut_same _ (by omega)]
  exact Nat.mod_eq_of_lt (k.vreg (fD w)).isLt

/-- Settles O60: TSET and TCLR set the tags of `tagRows`, and passing on leaves rows, tags and address registers. -/
theorem tagInstructions : Obligations.TagInstructions := by
  unfold Obligations.TagInstructions
  intro c s w full h k a
  refine ⟨_, exec_setTags h, s.onlyCore_setCore _ _, ?_, ?_, fun r hr => ?_⟩
  · rw [State.core_setCore_self, Core.next_rows, Core.setTags_eq]; rfl
  · rw [State.core_setCore_self, Core.next_a, Core.setTags_eq]; rfl
  · rw [State.core_setCore_self]
    calc Core.full _ r = (k.tick.setTags (tagRows a (wf w 0 6 + 1)) full).full r := congrArg (vget · r false) (Core.next_tags _)
      _ = if r ∈ tagRows a (wf w 0 6 + 1) then full else k.full r := Core.setTags_full _ hr _ _
      _ = _ := if_congr mem_tagRows rfl rfl

/-- Settles O17: a send through a valid entry with room queues one packet; RECV and TWAIT compare what they wait for with what is
there. -/
theorem sendInstructionsComplete : Obligations.SendInstructionsComplete := by
  unfold Obligations.SendInstructionsComplete
  intro c s w k s1 e
  refine ⟨fun hsend hvalid hroom hready htag => ?_, fun hsendv hvalid hroom => ?_, fun htally hvalid hroom => ?_,
    fun hrecv hthere => ?_, fun hrecv hless => ?_, fun htwait hthere => ?_, fun htwait hless => ?_⟩
  · have hnone : (s.core c.toNat).tick.deferred = [] := hsend.waitless.2
    have hready' : (s.core c.toNat).tick.sendReady w = true := hready
    refine (congrArg _ (hsend.sendStep hvalid hroom _)).trans ?_
    simp only [State.core_modCore_self, hready', Core.loses_of_undeferred hnone, List.contains_nil, Bool.true_eq_false,
      Bool.false_eq_true, if_false, State.doSend_untagged htag, State.modCore_setCore]
    rfl
  · refine (congrArg _ (hsendv.sendStep hvalid hroom _)).trans ?_
    simp only [State.core_modCore_self, State.modCore_setCore]
    rfl
  · refine (congrArg _ (htally.sendStep hvalid hroom _)).trans ?_
    simp only [State.core_modCore_self, State.modCore_setCore]
    rfl
  · rw [exec_recv hrecv, if_pos hthere]
  · rw [exec_recv hrecv, if_neg (Nat.not_le.mpr hless)]
  · rw [exec_twait htwait, if_pos hthere]
  · rw [exec_twait htwait, if_neg (Nat.not_le.mpr hless)]

/-- Settles O20: a write that finds the buffer empty is applied at once, one unit or one mask to its row; a READ ends with its
units. -/
theorem coreAccessesComplete : Obligations.CoreAccessesComplete := by
  unfold Obligations.CoreAccessesComplete
  intro c p s hadmit hnone k
  refine ⟨fun hcmd hlen ht hsaved hinq => ?_, fun hcmd hdata hsaved => ?_, fun hcmd hlen ht hsaved hinq _ => ?_,
    fun hcmd ht hwaits hgot _ => ?_⟩
  · obtain ⟨x, hx⟩ := List.length_eq_one_iff.mp hlen
    refine ⟨_, exec_write_admitted hadmit hcmd false, ?_⟩
    rw [State.takeWrite_first hsaved hinq (by simp [hx]),
      State.inboundAll_applied (State.inbound_unit (s := s.arrive _ p) hcmd hx ht hnone _)]
    simp only [State.core_modCore_self, State.core_writeDone_self, State.arrive_core, hx]
    refine ⟨State.writeDone_hbm .., Core.counted_rows .., Core.counted_tags .., rfl, Core.counted_g ..,
      fun hcnt => Core.counted_arrv hcnt _, fun hcnt => Core.counted_arrv_of_uncounted hcnt _⟩
  · refine ⟨_, exec_write_admitted hadmit hcmd false, ?_⟩
    rw [State.takeWrite_signal hsaved hcmd hdata, State.core_writeDone_self]
    exact ⟨Core.counted_rows .., fun hcnt => Core.counted_arrv hcnt _⟩
  · refine ⟨_, exec_maskWrite_admitted hadmit hcmd hlen _, ?_⟩
    rw [State.takeWrite_first hsaved hinq (by intro h; simp [h] at hlen),
      State.inboundAll_applied (State.inbound_mask (s := s.arrive _ p) hcmd ht hnone)]
    simp only [State.core_modCore_self, State.core_writeDone_self, State.arrive_core]
    exact ⟨State.writeDone_hbm .., Core.counted_rows .., Core.counted_tags ..⟩
  · have hnothing : k.readSoFar p = [] := by simp [Core.readSoFar, hgot]
    have hleft : k.readLeft p = unitRun 0 (4 * pRow p + pUnit p) p.count.toNat := by
      rw [Core.readLeft, hnothing, unitRun_eq]; rfl
    have hfuel : ((4 * pRow p + pUnit p) % 4 + p.count.toNat + 3) / 4 < readFuel := by
      have := p.count.isLt
      have := pUnit_lt p
      unfold readFuel
      omega
    obtain ⟨t, hend, hhbm, hrows, htags⟩ := State.readRows_all ht hnone hleft hfuel
    obtain ⟨⟨f, hf, hloc, hrdata, htag, hctx, hdata⟩, hhbm', hrows', htags'⟩ :=
      t.readEnd_answers c.toNat p 0 (k.readSoFar p ++ (unitRun 0 (4 * pRow p + pUnit p) p.count.toNat).map k.unit)
    refine ⟨_, (exec_read_admitted hadmit hcmd hwaits hnone _).trans (congrArg _ hend), hhbm'.trans hhbm, hrows'.trans hrows,
      htags'.trans htags, f, hf, ?_, hrdata, htag, hctx, ?_⟩
    · rw [hloc, BitVec.ofNat_toNat, BitVec.setWidth_eq]
    · rw [hdata, hnothing, unitRun_eq (pRow p)]; rfl

/-- Settles O35: a LAUNCH that begins is checked and put into service, one in service goes on; a spare's or an absence's effect
outlasts the decision of the pass; a replay that can be made is. -/
theorem launchesComplete : Obligations.LaunchesComplete := by
  unfold Obligations.LaunchesComplete
  intro x i c k dev s b p rest put
  refine ⟨fun hk => ⟨fun t hbegins hwaits hnew hsound hplain => ?_, fun t st hbegins hwaits hnew hbad => ?_,
      fun t u l hbegins hwaits hnew hsound hcovers hroom hinputs => ?_⟩,
    fun q hc hq hid hlive => ⟨fun t hst hmay himage hsound => ?_, fun t st hst hmay himage hbad => ?_, fun hst hlog => ?_⟩,
    fun core sp hfailed hagreed hsp => ⟨_, exec_coreSpareAssign_given hfailed hagreed hsp, ?_, ?_, ?_⟩,
    fun core hfailed hagreed hsp => ⟨_, exec_coreSpareAssign_none hfailed hagreed hsp, State.absent_of_makeAbsent ..⟩,
    fun core a hfailed hcheck => ⟨_, exec_coreSpareAssign_unchecked hfailed hcheck a, State.absent_of_makeAbsent ..⟩,
    fun n q t u r hq hreplay hlive hroom hwaits hsame hr hok hsound => ?_⟩
  · rw [exec_launch_begins hbegins hwaits hnew hk, State.launch_uncovered hsound hplain,
      (State.begun_copy? hbegins.fetched hk).bytes]
    rfl
  · rw [exec_launch_begins hbegins hwaits hnew hk, State.launch_refused hbad, Ctx.copy?_id hk]
  · have hbytes := (State.begun_copy? hbegins.fetched hk).bytes
    rw [exec_launch_begins hbegins hwaits hnew hk, State.launch_covered hsound hcovers (by rwa [hbytes]) hinputs, hbytes]
    rfl
  · rw [exec_launch_inService hc hq, State.passGo_waitsCores hlive hid hst, State.loadPass_sends hid hst hmay himage hsound]
  · rw [exec_launch_inService hc hq, State.passGo_waitsCores hlive hid hst, State.loadPass_refuses hid hst hmay himage hbad]
  · rw [exec_launch_inService hc hq, State.passGo_waitsLog hlive hid hst hlog]
  · rw [State.spareDone_net]
    exact Tbl.get?_set_self ..
  · rw [State.spareDone_net]
    exact (congrArg Net.absent (s.chartCore_net core.toNat) :)
  · rw [State.spareDone_core]
    exact ⟨_, State.core_setCore_self ..⟩
  · subst hr
    exact exec_replay_relaunch hq hreplay hlive hroom hwaits hsame hok hsound

/-- Settles O38: RESUME and KILL by the checks of their command, a restore by whether its image can be read. -/
theorem resumeAndKillComplete : Obligations.ResumeAndKillComplete := by
  unfold Obligations.ResumeAndKillComplete
  intro port x c s n u
  refine ⟨fun hcmd hheld hpkg herr => ?_, fun hcmd hheld => ?_, fun hheld hbusy hin hbleached hclk hwaits hread =>
      exec_coreRestore_read ⟨hheld, hbusy, hin, hbleached, hclk, hwaits⟩ hread,
    fun hheld hbusy hin hbleached hclk hwaits => ?_, exec_ctxResumeDone, fun st hst hcmd => ?_, fun st hst hcmd => ?_⟩
  · rw [exec_ctxResume hcmd, hheld, hpkg, herr]; rfl
  · rw [exec_ctxResume hcmd, hheld]; rfl
  · refine ⟨_, exec_coreRestore_lost ⟨hheld, hbusy, hin, hbleached, hclk, hwaits⟩,
      State.core_setCore_self .., ?_, ?_, ?_, ?_⟩
    · rw [State.modCtx_core, State.core_setCore_self]; rfl
    · rw [State.modCtx_core, State.core_setCore_self]; rfl
    · exact (s.hbmSeen_within_controller _ _ _).hbm
    · rw [State.ctx_modCtx_self, State.setCore_ctx, State.imageRead, State.ctx_modCtx_self, State.hbmSeen_ctx]
      rfl
  · rw [exec_ctxKill hcmd, if_pos (List.contains_iff_mem.mpr hst)]
  · rw [exec_ctxKill hcmd, if_neg (by simp; omega)]
end

section
/-! SUPPORT and PROOFS for 05_scratchpad.md: canonical memories, the ends of Bleaches, the debug aperture, which registers a kill
leaves, the orders of the start, and the resets of the module and of a partition. -/

namespace Sys2Proof.Machine

/-! ## Canonical form (log 9) -/

/-- A nanosecond without a command changes nothing but the fabric's working state, the timer and the draws (log 7). -/
theorem State.within_tick (s : State) : s.Within [.fab, .timer, .free] s.tick :=
  State.tick_within (.refl _ _) (by decide) (by decide) (by decide)

/-! ## Bleach (R129, R130, R132) -/

/-- A core that runs its Bleach to the end is put into its start state, and everyone who waits for it is told (R130). -/
theorem exec_coreBleachDone {s : State} {c : CoreAddr} (hbleach : (s.core c.toNat).bleaching = true)
    (hbrake : s.braked c.toNat = false) :
    exec (.coreBleachDone c) s = .next ((s.modCore c.toNat Core.bleached).coreBleached c.toNat) := by
  simp only [exec, execCoreBleachDone, hbleach, hbrake, Bool.true_eq_false, Bool.false_eq_true, or_self, if_false]

/-- A core's report that its Bleach has ended changes no core and no byte of HBM. -/
theorem State.within_coreBleached (s : State) (c : Nat) :
    s.Within [.regs, .ctxs, .ports, .start, .out] (s.coreBleached c) :=
  State.coreBleached_within (.refl _ _) _ (by decide) (by decide) (by decide) (by decide) (by decide)

/-- The report takes the core from those that a partition reset waits for (R164): what contexts do as they are freed leaves the list. -/
theorem State.coreBleached_resetCores (s : State) (c : Nat) :
    (s.coreBleached c).start.resetCores = s.start.resetCores.erase c := by
  have hfold (xs : List Nat) : s.Within [.regs, .ctxs, .ports, .out] (xs.foldl (fun s x =>
      (s.modCtx x (fun t => { t with owedCores := t.owedCores.erase c })).ctxFreed x) s) :=
    State.within_foldl xs _ (.refl _ _) fun _ x h =>
      State.ctxFreed_within (State.modCtx_within h _ _ (by decide)) x (by decide) (by decide) (by decide) (by decide)
  simp only [State.coreBleached, (hfold _).start]

/-- A memory from which the bytes of some addresses have been taken reads 0 there, and as before elsewhere. -/
theorem memGet_filter_addr (p : Nat → Bool) (m : List Host.Cell) (a : Nat) :
    memGet (m.filter (fun c => !p c.1)) a = if p a then 0 else memGet m a := by
  induction m with
  | nil => simp [memGet]
  | cons e m ih =>
    obtain ⟨b, v⟩ := e
    by_cases hb : p b = true
    · rw [List.filter_cons_of_neg (by simp [hb]), ih]
      by_cases hab : b = a
      · subst hab; simp [hb]
      · simp [memGet, hab]
    · rw [List.filter_cons_of_pos (by simp [hb])]
      by_cases hab : b = a
      · subst hab; simp [memGet, hb]
      · simp [memGet, hab, ih]

/-- A stack's part of a context's Bleach takes the context's ranges out of HBM (R130). -/
theorem exec_hbmBleachDone {s : State} {x : Fin 1024} {stack : Fin 16} (hstate : s.reg .CTX_STATE_STATE x = 6)
    (howed : stack.val ∈ (s.ctx x).owedStacks) :
    ∃ t, exec (.hbmBleachDone x stack) s = .next t ∧
      t.hbm = s.hbm.filter (fun c => !inRanges (s.areasOn x stack) c.1) := by
  have hin : (s.ctx x).owedStacks.contains stack.val = true := List.contains_iff_mem.2 howed
  simp only [exec, execHbmBleachDone, hstate, hin, ne_eq, not_true_eq_false, Bool.true_eq_false, or_self, if_false]
  refine ⟨_, rfl, ?_⟩
  exact (State.ctxFreed_within (l := [.regs, .ctxs, .ports, .out]) (.refl _ _) x (by decide) (by decide) (by decide)
    (by decide)).hbm

/-! ## The debug aperture (R131, R223) -/

/-! Each access is by where it comes to: an aperture that is closed, a place that the aperture does not show, or a place that it
shows and that has not to wait. -/

section
variable {s : State} {port : Fin 2} {off : BitVec 30} {a : Nat} {d : DevAt}

theorem exec_bar4Read_closed {n : Nat} {ecc : List AtomEcc} (hreach : s.reaches (.port port) = .granted)
    (hbar : s.bar4 port off.toNat = none) :
    exec (.bar4Read port off n ecc) s = .next ((s.send (.readDone (.port port) 0)).violation port) := by
  simp only [exec, execBar4Read, hreach, hbar]

theorem exec_bar4Read_hidden {n : Nat} {ecc : List AtomEcc} (hreach : s.reaches (.port port) = .granted)
    (hbar : s.bar4 port off.toNat = some a) (hat : s.bar4At a n = none) :
    exec (.bar4Read port off n ecc) s = .next ((s.send (.readDone (.port port) 0)).violation port) := by
  simp only [exec, execBar4Read, hreach, hbar, hat]

theorem exec_bar4Read_shown {n : Nat} {ecc : List AtomEcc} (hreach : s.reaches (.port port) = .granted)
    (hbar : s.bar4 port off.toNat = some a) (hat : s.bar4At a n = some d) (hgo : s.bar4Waits a n d false = false) :
    exec (.bar4Read port off n ecc) s = .next (s.bar4Read (.port port) a n ecc d) := by
  simp only [exec, execBar4Read, hreach, hbar, hat, hgo, Bool.false_eq_true, if_false]

theorem exec_bar4Write_closed {b : List Byte} {ecc : List AtomEcc} (hreach : s.reaches (.port port) = .granted)
    (hbar : s.bar4 port off.toNat = none) : exec (.bar4Write port off b ecc) s = .next (s.violation port) := by
  simp only [exec, execBar4Write, hreach, hbar]

theorem exec_bar4Write_hidden {b : List Byte} {ecc : List AtomEcc} (hreach : s.reaches (.port port) = .granted)
    (hbar : s.bar4 port off.toNat = some a) (hat : s.bar4At a b.length = none) :
    exec (.bar4Write port off b ecc) s = .next (s.violation port) := by
  simp only [exec, execBar4Write, hreach, hbar, hat]

theorem exec_bar4Write_readOnly {b : List Byte} {ecc : List AtomEcc} (hreach : s.reaches (.port port) = .granted)
    (hbar : s.bar4 port off.toNat = some a) (hat : s.bar4At a b.length = some d)
    (hen : s.regB .PCI_DBG_CTL_WR_EN port = false) : exec (.bar4Write port off b ecc) s = .next (s.violation port) := by
  simp only [exec, execBar4Write, hreach, hbar, hat, hen, if_true]

theorem exec_bar4Write_shown {b : List Byte} {ecc : List AtomEcc} (hreach : s.reaches (.port port) = .granted)
    (hbar : s.bar4 port off.toNat = some a) (hat : s.bar4At a b.length = some d)
    (hen : s.regB .PCI_DBG_CTL_WR_EN port = true) (hgo : s.bar4Waits a b.length d true = false) :
    exec (.bar4Write port off b ecc) s = .next (s.bar4Write a b ecc d) := by
  simp only [exec, execBar4Write, hreach, hbar, hat, hen, hgo, Bool.true_eq_false, Bool.false_eq_true, if_false]

/-- An access to a core's rows has not to wait while its NI takes packets, no write waits there before it where it is a write, and no row
of it is owed to the core (R83, R116, R121). -/
theorem State.bar4Waits_row {n c r : Nat} {write : Bool} (htakes : s.coreTakes c = true)
    (hown : ∀ q ∈ bar4RowsOf a n, (s.core c).owed (.engine q) [q] = false) (hq : write = true → (s.core c).inq = []) :
    s.bar4Waits a n (.row c r) write = false := by
  have howed : (bar4RowsOf a n).any (fun q => (s.core c).owed (.engine q) [q]) = false := by simpa using hown
  cases write with
  | false => simp [State.bar4Waits, htakes, howed]
  | true => simp [State.bar4Waits, htakes, howed, hq rfl]

/-- An access to HBM has not to wait where the stack serves it. -/
theorem State.bar4Waits_hbm {n : Nat} {write : Bool} (h : s.hbmAdmit (s.stackOf a) (a % s.stackE) n = .serve) :
    s.bar4Waits a n .hbm write = false := by
  simp only [State.bar4Waits, h]

/-- Words of block RAM in which the ECC finds nothing are read without a trace. -/
theorem State.bramSeen_clean (die n : Nat) : s.bramSeen die n [] = (s, true) := by
  induction n with
  | zero => rfl
  | succ n ih => simpa only [State.bramSeen, List.headD_nil, List.tail_nil] using ih

/-- A write to rows in which the ECC finds nothing is preceded by no change. -/
theorem State.bar4Rows_clean (c n : Nat) (rows : List Nat) : s.bar4Rows c a n rows [] = s := by
  induction rows with
  | nil => rfl
  | cons u rows ih => simp [State.bar4Rows, eccOfWords, State.readRow, ih]

theorem State.bar4Read_row {src : Src} {n c r : Nat} : s.bar4Read src a n [] (.row c r) =
    s.send (.readDone src (bytesNat ((List.range n).map (fun i => s.rowByte (a + i))))) := by
  simp only [State.bar4Read, List.map_nil, State.checkAll_clean, if_true]

theorem State.bar4Read_bram {src : Src} {n die o : Nat} (hok : s.apertureOk die o n = true) :
    s.bar4Read src a n [] (.bram die o) = s.send (.readDone src (bytesNat (s.bramTake (die * 0x800000 + o) n))) := by
  simp only [State.bar4Read, hok, List.map_nil, State.bramSeen_clean, if_true]

/-- A read of HBM leaves its bytes, and gives one answer to its sender: the bytes or, of an atom that is lost, a value not given. -/
theorem State.bar4Read_hbm {src : Src} {n : Nat} {ecc : List AtomEcc}
    (h : s.hbmAdmit (s.stackOf a) (a % s.stackE) n = .serve) :
    (s.bar4Read src a n ecc .hbm).hbm = s.hbm ∧ (s.bar4Read src a n ecc .hbm).out.length = s.out.length + 1 := by
  have hw : s.Within [.regs, .hbmc, .helm, .free] (s.hbmRead (s.stackOf a) (a % s.stackE) n 0 ecc).1 :=
    State.hbmRead_within (.refl _ _) _ _ _ _ _ (by decide) (by decide) (by decide) (by decide)
  simp only [State.bar4Read, h]
  split
  · exact ⟨hw.hbm, by simp [State.bar4Free, State.send, hw.out]⟩
  · exact ⟨hw.hbm, by simp [State.send, hw.out]⟩

theorem State.bar4Write_row {b : List Byte} {c r : Nat} :
    s.bar4Write a b [] (.row c r) = s.modCore c (fun k => k.pokeBytes a b) := by
  simp only [State.bar4Write, List.map_nil, State.bar4Rows_clean]

theorem State.bar4Write_bram {b : List Byte} {die o : Nat} (hok : s.apertureOk die o b.length = true) :
    s.bar4Write a b [] (.bram die o) = s.bar4Words die o b [] := by
  simp only [State.bar4Write, hok, List.map_nil, if_true]

theorem State.bar4Write_hbm {b : List Byte} {ecc : List AtomEcc}
    (h : s.hbmAdmit (s.stackOf a) (a % s.stackE) b.length = .serve) : s.bar4Write a b ecc .hbm =
      ((s.homeFirst a b.length).hbmAccept (s.stackOf a) 0 (atomMasks (a % s.stackE) b.length) ecc).hbmWrite a b := by
  simp only [State.bar4Write, h, atomMasks]

end

/-! ## Which registers a kill leaves (R130, R234) -/

namespace State.RegsBut
variable {l : List Fld} {s t u : State}

theorem bumpN (h : s.RegsBut l t) (f : Fld) (i n : Nat) (hf : f ∈ l := by decide) : s.RegsBut l (t.bumpN f i n) :=
  h.setReg f i _ hf

theorem modStk (h : s.RegsBut l t) (n : Nat) (g : Stack → Stack) : s.RegsBut l (t.modStk n g) := h.of_regs_eq rfl

theorem modTile (h : s.RegsBut l t) (d n : Nat) (g : TileP → TileP) : s.RegsBut l (t.modTile d n g) := h.of_regs_eq rfl

theorem modCtx (h : s.RegsBut l t) (x : Nat) (g : Ctx → Ctx) : s.RegsBut l (t.modCtx x g) := h.of_regs_eq rfl

theorem setXfers (h : s.RegsBut l t) (x : List Xfer) : s.RegsBut l { t with xfers := x } := h.of_regs_eq rfl

theorem send (h : s.RegsBut l t) (o : Out) : s.RegsBut l (t.send o) := h.of_regs_eq rfl

/-- A change that keeps to a smaller list of fields, after one that keeps to the list. -/
theorem andThen {l' : List Fld} (h : s.RegsBut l t) (h' : t.RegsBut l' u) (hl : l' ⊆ l := by decide) : s.RegsBut l u :=
  h.trans (h'.mono hl)

end State.RegsBut

/-- The registers that an access to a stack's atoms may change: the counts of ECC and of neighbour refreshes (R174, R178), and those of
an interrupt message. -/
def atomFields : List Fld := [.HBM_ECC_STAT_ONDIE, .HBM_ECC_STAT_CE, .HBM_ECC_STAT_UE, .HBM_HAMMER_CNT_NREF] ++ messageFields

theorem State.touch_regsBut (s : State) (h hint atom : Nat) : s.RegsBut atomFields (s.touch h hint atom) := by
  have activate (pc bank row : Nat) : s.RegsBut atomFields (s.activate h pc bank row) :=
    ((RegsBut.refl.modStk ..).setReg .HBM_HAMMER_CNT_NREF ..).of_regs_eq rfl
  unfold State.touch
  extract_lets p s1 s2
  have h1 : s.RegsBut atomFields s1 := .ite .refl (activate ..)
  have h2 : s.RegsBut atomFields s2 := .ite (h1.modStk ..) h1
  exact .ite h2 (h2.modStk ..)

theorem State.poisonAtom_regsBut (s : State) (h atom : Nat) : s.RegsBut atomFields (s.poisonAtom h atom) :=
  ((RegsBut.ite .refl (RegsBut.refl.modStk ..)).bump ..).andThen (State.raise_regsBut ..)

theorem State.readAtom_regsBut (s : State) (h hint atom : Nat) (e : AtomEcc) :
    s.RegsBut atomFields (s.readAtom h hint atom e).1 := by
  have ht := s.touch_regsBut h hint atom
  unfold State.readAtom
  dsimp only
  split
  · exact ht.trans (State.poisonAtom_regsBut ..)
  · split
    · exact ht.bumpN ..
    · exact (ht.bumpN ..).bump ..
    · exact (ht.bumpN ..).trans (State.poisonAtom_regsBut ..)

theorem State.queueWrite_regsBut (s : State) (h hint atom mask : Nat) :
    s.RegsBut atomFields (s.queueWrite h hint atom mask) :=
  .ite ((RegsBut.refl.modStk ..).trans (.foldl (fun _ _ =>
    .ite ((RegsBut.refl.modStk ..).trans (State.touch_regsBut ..)) .refl) _)) (RegsBut.refl.modStk ..)

theorem State.hbmAccept_regsBut (s : State) (h hint : Nat) (atoms : List (Nat × Nat)) (es : List AtomEcc) :
    s.RegsBut atomFields (s.hbmAccept h hint atoms es) := by
  induction atoms generalizing s es with
  | nil => exact .refl
  | cons m atoms ih =>
    exact RegsBut.trans ((RegsBut.ite (RegsBut.refl.modStk ..) (State.readAtom_regsBut ..)).trans (State.queueWrite_regsBut ..))
      (ih ..)

theorem State.copyHome_regsBut (s : State) (page : Nat) : s.RegsBut atomFields (s.copyHome page) := by
  unfold State.copyHome
  split
  · exact .refl
  · exact (RegsBut.ite .refl (State.hbmAccept_regsBut ..)).of_regs_eq rfl

theorem State.homeAll_regsBut (s : State) (x : Nat) : s.RegsBut atomFields (s.homeAll x) :=
  .foldl (fun _ _ => .foldl (fun s _ => s.copyHome_regsBut _) _) _

/-- The registers that packets at a tile port may change: the port's counts (R310) and the counts of refused packets (R157). -/
def tileFields : List Fld := [.FAB_TP_STAT_UNBOUND, .FAB_TP_STAT_BADHDR] ++ brakeFields

theorem State.txDiscard_regsBut (s : State) (d n : Nat) (f : Fld) (hf : f ∈ tileFields := by decide) :
    s.RegsBut tileFields (s.txDiscard d n f) := (RegsBut.refl.bump f _ hf).of_regs_eq rfl

theorem State.txTake_regsBut (s : State) (d n : Nat) (p : Packet) : s.RegsBut tileFields (s.txTake d n p) := by
  refine .ite ?_ (.ite (RegsBut.refl.modTile ..) (.of_regs rfl))
  split
  · exact s.txDiscard_regsBut d n _
  · exact (RegsBut.refl.modTile d n _).of_regs_eq (State.reply_regs ..)

/-- The packet at the head of what the fabric gives a tile port leaves it, is discarded or waits. -/
theorem State.txHead_regsBut {s t : State} {d n : Nat} {now : Bool} (h : s.txHead d n now = some t) :
    s.RegsBut tileFields t := by
  have hdrop : s.RegsBut tileFields (s.modTile d n (fun k => k.dropEntry true)) := RegsBut.refl.modTile ..
  unfold State.txHead at h
  dsimp only at h
  repeat' split at h
  all_goals cases h
  · exact (RegsBut.refl.modTile d n _).trans (State.txDiscard_regsBut _ d n .FAB_TP_STAT_UNBOUND)
  · exact .of_regs rfl
  · exact hdrop
  · exact hdrop.trans (State.txDiscard_regsBut _ d n .FAB_TP_STAT_BADHDR)
  · exact hdrop.trans (State.txDiscard_regsBut _ d n .FAB_TP_STAT_UNBOUND)
  · exact hdrop.trans (State.txDiscard_regsBut _ d n .FAB_TP_STAT_BADHDR)
  · exact (RegsBut.refl.modTile d n _).trans (State.txTake_regsBut ..)

theorem State.txGo_regsBut (s : State) (d n : Nat) (now : Bool) (fuel : Nat) :
    s.RegsBut tileFields (s.txGo d n now fuel) := by
  induction fuel generalizing s with
  | zero => exact .refl
  | succ fuel ih =>
    unfold State.txGo
    split
    · exact .refl
    · next s' h => exact (State.txHead_regsBut h).trans (ih s')

theorem State.txRun_regsBut (s : State) (d n : Nat) : s.RegsBut tileFields (s.txRun d n) := s.txGo_regsBut ..

theorem State.accept_regs (s : State) (here : Ep) (p : Packet) : (s.accept here p).regs = s.regs := by
  unfold State.accept; split
  · exact State.reply_regs ..
  · rfl

theorem State.tileTake_regsBut {s t : State} {d n : Nat} {p : Packet} (h : s.tileTake d n p = some t) :
    s.RegsBut tileFields t := by
  have hrefuse : s.RegsBut tileFields (s.tileRefuse d n p) :=
    ((RegsBut.ite (RegsBut.refl.modTile ..) .refl).andThen (State.refuse_regsBut ..)).trans (State.txRun_regsBut ..)
  have hden : s.RegsBut tileFields (s.refuse (.tile d n) none d .den p) := (s.refuse_regsBut ..).mono (by decide)
  have haccept (g : TileP → TileP) : s.RegsBut tileFields ((s.modTile d n g).accept (.tile d n) p) :=
    (RegsBut.refl.modTile d n g).of_regs_eq (State.accept_regs ..)
  unfold State.tileTake at h
  dsimp only at h
  repeat' split at h
  all_goals cases h
  · exact hrefuse
  · exact haccept _
  · exact hrefuse
  · exact hden
  · exact (haccept _).trans (State.txRun_regsBut ..)
  · exact haccept _
  · exact haccept _
  · exact hden

theorem State.tileArrival_regsBut (s : State) (d n : Nat) (p : Packet) : s.RegsBut tileFields (s.tileArrival d n p) := by
  refine .ite ?_ .refl
  split
  · next h => exact (State.tileTake_regsBut h).of_regs_eq rfl
  · exact .refl

theorem State.tileNack_regsBut (s : State) (d n : Nat) (r : Packet) : s.RegsBut tileFields (s.tileNack d n r) :=
  (RegsBut.refl.modTile d n _).of_regs_eq (State.reply_regs ..)

theorem State.maskTile_regsBut (s : State) (d n : Nat) : s.RegsBut tileFields (s.maskTile d n) := by
  unfold State.maskTile
  extract_lets s1 s2 s3 s4
  have h2 : s.RegsBut tileFields s2 := (RegsBut.refl.modTile d n _).trans (State.txGo_regsBut ..)
  have h4 : s.RegsBut tileFields s4 := (RegsBut.ite h2 (h2.trans (State.txDiscard_regsBut ..))).modTile ..
  exact h4.trans (.foldl (fun s r => s.tileNack_regsBut d n r) _)

/-- The registers that a region of the fabric that fails may change: its STATE, those of its tile ports, and those of an interrupt
message (R310, R326). -/
def regionFields : List Fld := .CFG_REGIONS_STATE :: tileFields

theorem State.closeMask_regsBut (s : State) (die r : Nat) : s.RegsBut regionFields (s.closeMask die r) := by
  have htiles : s.RegsBut regionFields ((s.tilesOf die r).foldl (fun s t => s.maskTile die t) s) :=
    .foldl (fun s t => (s.maskTile_regsBut die t).mono (by decide)) _
  unfold State.closeMask
  extract_lets was park s1 s2 s3
  have h2 : s.RegsBut regionFields s2 := .ite (htiles.of_regs_eq rfl) htiles
  have h3 : s.RegsBut regionFields s3 := (h2.of_regs_eq (u := s2.modFabRegion die r _) rfl).setReg ..
  exact h3.of_regs_eq rfl

theorem State.refuseTiles_regsBut (s : State) (die r : Nat) : s.RegsBut tileFields (s.refuseTiles die r) :=
  .foldl (fun s _ => s.tileArrival_regsBut ..) _

theorem State.failRegion_regsBut (s : State) (die r : Nat) : s.RegsBut regionFields (s.failRegion die r) :=
  (((s.closeMask_regsBut die r).of_regs_eq (u := (((s.closeMask die r).bleachRegion die r).modFabRegion die r _)) rfl).setReg
    ..).andThen (State.refuseTiles_regsBut ..)

theorem State.killLoads_regsBut (s : State) (x : Nat) : s.RegsBut regionFields (s.killLoads x) := by
  refine .foldl (fun s d => ?_) _
  have hjobs (l : List CfgJob) : s.RegsBut regionFields (s.setJobs d l) := .of_regs rfl
  extract_lets mine
  split
  · exact .refl
  · next j r _ =>
    extract_lets u
    refine .ite ?_ (hjobs _)
    split
    · next g _ =>
      exact .ite (((hjobs _).trans (u.failRegion_regsBut d g)).andThen (State.raise_regsBut _ d 0x60))
        ((hjobs _).andThen (State.raise_regsBut _ d 0x60))
    · exact hjobs _

/-- The registers that closing a context's windows changes: those of XFR_WIN, and the count of open windows (R204). -/
def windowFields : List Fld :=
  [.XFR_WIN_BASE, .XFR_WIN_SIZE, .XFR_WIN_SRC_PKG, .XFR_WIN_SRC_MASK, .XFR_WIN_CTX, .XFR_WIN_RD, .XFR_WIN_WR, .XFR_WIN_VALID,
    .XFR_WIN_HANDLE, .XFR_WIN_STAT_OPEN]

theorem State.dropWindow_regsBut (s : State) (w : Nat) : s.RegsBut windowFields (s.dropWindow w) := by
  refine RegsBut.setReg ?_ .XFR_WIN_STAT_OPEN 0 _
  exact ((((((((RegsBut.refl.setReg ..).setReg ..).setReg ..).setReg ..).setReg ..).setReg ..).setReg ..).setReg ..).setReg ..

theorem State.closeWindows_regsBut (s : State) (x : Nat) : s.RegsBut windowFields (s.closeWindows x) :=
  .foldl State.dropWindow_regsBut _

/-- A table in which entries have been changed reads as before where none of a key's has been. -/
theorem Tbl.getD_mapIf_other {κ α : Type} [DecidableEq κ] {p : κ × α → Bool} {f : κ × α → κ × α} (t : Tbl κ α) (k : κ) (d : α)
    (hp : ∀ e, e.1 = k → p e = false) (hf : ∀ e, (f e).1 = e.1) : Tbl.getD (mapIf p f t) k d = Tbl.getD t k d := by
  have hget : Tbl.get? (mapIf p f t) k = Tbl.get? t k := by
    induction t with
    | nil => rfl
    | cons e t ih =>
      by_cases hk : e.1 = k
      · simp [mapIf, Tbl.get?, hp e hk, hk]
      · have hk' : (if p e then f e else e).1 ≠ k := by split <;> simp [hf, hk]
        simpa [mapIf, Tbl.get?, hk, hk'] using ih
  rw [Tbl.getD, hget, Tbl.getD]

/-- The registers that releasing the tile ports and regions of a context may change (R310, R326). -/
def bindFields : List Fld := [.FAB_TP_BIND_EN, .CFG_REGION_OWN_EN] ++ tileFields

theorem State.unbind_regsBut (s : State) (x : Nat) : s.RegsBut bindFields (s.unbind x) := by
  unfold State.unbind
  extract_lets ports s1
  have h1 : s.RegsBut bindFields s1 := ⟨fun f i hf => by
    refine Tbl.getD_mapIf_other _ _ _ (fun e he => ?_) fun _ => rfl
    have htp : f ≠ .FAB_TP_BIND_EN := fun h => hf (by rw [h]; decide)
    have hown : f ≠ .CFG_REGION_OWN_EN := fun h => hf (by rw [h]; decide)
    simp [he, htp, hown]⟩
  exact h1.trans (.foldl (fun s i => (s.txRun_regsBut _ _).mono (by decide)) _)

/-- The registers that entries of a completion ring and events of a context may change (R244, R246). -/
def entryFields : List Fld :=
  [.CTX_RING_POS_CQ_TAIL, .CTX_RING_POS_PHASE, .CTX_EVENT_MSIX, .CTX_EVENT_STATE, .CTX_STATE_STATE, .CTX_STATE_BUSY, .CTX_STATE_OWNER]

theorem State.msix_regs (s : State) (p : Nat) (vf : Option Nat) (vec : Nat) : (s.msix p vf vec).regs = s.regs := by
  unfold State.msix; split <;> rfl

theorem State.ctxVector_regs (s : State) (x vec : Nat) (cq : Bool) : (s.ctxVector x vec cq).regs = s.regs := by
  unfold State.ctxVector; split
  · rfl
  · split <;> exact State.msix_regs ..

theorem State.evMessage_regsBut (s : State) (x : Nat) : s.RegsBut entryFields (s.evMessage x) :=
  .ite (RegsBut.refl.setReg ..) (.ite (.of_regs rfl) (.of_regs (State.ctxVector_regs ..)))

theorem State.event_regsBut (s : State) (f : Fld) (x : Nat) (hf : f ∈ entryFields := by decide) :
    s.RegsBut entryFields (s.event f x) := .ite .refl ((RegsBut.refl.setReg f x 1 hf).trans (State.evMessage_regsBut ..))

theorem State.useTr_regs (s : State) (x page : Nat) (pasid : Option Nat) : (s.useTr x page pasid).regs = s.regs := by
  unfold State.useTr; dsimp only; split <;> rfl

theorem State.hostPut_regsBut (l : List Fld) (s : State) (x addr : Nat) (bytes : List Byte) (pasid : Option Nat) :
    s.RegsBut l (s.hostPut x addr bytes pasid) :=
  .ite .refl ((RegsBut.of_regs (s.useTr_regs ..)).trans (.foldl (fun _ _ => RegsBut.refl.send _) _))

theorem State.cqMessage_regsBut (s : State) (x : Nat) : s.RegsBut entryFields (s.cqMessage x) :=
  .ite .refl (.ite (State.event_regsBut ..) (.ite (.of_regs rfl) (.of_regs (State.ctxVector_regs ..))))

theorem State.cqPut_regsBut (s : State) (x : Nat) (e : Cqe) : s.RegsBut entryFields (s.cqPut x e) := by
  unfold State.cqPut
  extract_lets tail ph s1 next s2
  have h1 : s.RegsBut entryFields s1 := (State.hostPut_regsBut ..).of_regs_eq rfl
  have h2 : s.RegsBut entryFields s2 := h1.setReg ..
  exact (RegsBut.ite (h2.setReg ..) h2).trans (State.cqMessage_regsBut ..)

theorem State.cqFlush_regsBut (s : State) (x n : Nat) : s.RegsBut entryFields (s.cqFlush x n) := by
  induction n generalizing s with
  | zero => exact .refl
  | succ n ih =>
    unfold State.cqFlush
    split
    · exact .refl
    · exact .ite .refl (.ite (.of_regs rfl)
        (((RegsBut.refl.modCtx x _).trans (State.cqPut_regsBut ..)).trans (ih _)))

theorem State.ctxFreed_regsBut (s : State) (x : Nat) : s.RegsBut entryFields (s.ctxFreed x) := by
  unfold State.ctxFreed
  extract_lets t s1 p s2 s3
  have h1 : s.RegsBut entryFields s1 :=
    ((RegsBut.refl.setReg ..).setReg ..).trans (State.event_regsBut _ .CTX_EVENT_STATE x)
  have h2 : s.RegsBut entryFields s2 := h1.setReg ..
  have h3 : s.RegsBut entryFields s3 := h2.of_regs_eq rfl
  refine .ite .refl ?_
  clear_value p
  cases p with
  | none => exact h3
  | some p => exact .ite (h3.of_regs_eq rfl) h3

theorem State.invalOne_regsBut (s : State) (p : Nat) (e : Nat × Option Nat × Option Nat) :
    s.RegsBut [.XFR_FAULT_STAT_INVALS] (s.invalOne p e) := by
  refine .ite .refl (RegsBut.bump ?_ ..)
  exact .of_regs rfl

theorem State.invalsDone_regsBut (s : State) (p : Nat) : s.RegsBut [.XFR_FAULT_STAT_INVALS] (s.invalsDone p) :=
  .foldl (fun s e => s.invalOne_regsBut p e) _

/-- The registers that a kill may change: the context's own, and those of all that it takes from it. -/
def killFields : List Fld :=
  [.CTX_FIX_ABORTS, .CTX_STATE_PKG_HELD, .CTX_STATE_LINK, .XFR_FAULT_STAT_INVALS] ++ entryFields ++ windowFields ++ bindFields ++
    regionFields ++ atomFields

theorem State.foldl_killCore_regsBut (s : State) (cs : List Nat) :
    s.RegsBut brakeFields (cs.foldl (fun s c => s.killCore c) s) := .foldl State.killCore_regsBut cs

theorem State.killCtx_regsBut (s : State) (x : Nat) (entry : Bool) : s.RegsBut killFields (s.killCtx x entry) := by
  unfold State.killCtx
  extract_lets was l last s1 s2 s3 s4 s5 s6 owed fresh s7
  have h1 : s.RegsBut killFields s1 :=
    ((s.homeAll_regsBut x).mono (by decide)).andThen (State.killLoads_regsBut ..)
  have h2 : s.RegsBut killFields s2 := h1.bumpN ..
  have h3 : s.RegsBut killFields s3 := (((h2.setReg ..).setReg ..).setReg ..).setReg ..
  have h4 : s.RegsBut killFields s4 := (h3.andThen (State.closeWindows_regsBut ..)).andThen (State.unbind_regsBut ..)
  have h5 : s.RegsBut killFields s5 := h4.setXfers _
  have h6 : s.RegsBut killFields s6 := h5.andThen (State.foldl_killCore_regsBut ..)
  have h7 : s.RegsBut killFields s7 := h6.modCtx ..
  exact .ite .refl ((((h7.andThen (State.cqFlush_regsBut ..)).andThen (State.ctxFreed_regsBut ..)).andThen
    (State.invalsDone_regsBut ..)).andThen (State.invalsDone_regsBut ..))

/-! ## The orders of the start (R133, R345, R393 to R400) -/

/-- Reporting a change of STATE touches the standby domain alone (R427). -/
theorem State.within_alertState (s : State) : s.Within [.module] s.alertState := State.alertState_within (.refl _ _) (by decide)

theorem State.alertState_off (s : State) : s.alertState.module.off = s.module.off := by
  unfold State.alertState; split <;> rfl

theorem State.reg_alertState (s : State) (f : Fld) (i : Nat) : s.alertState.reg f i = s.reg f i := by
  rw [State.reg, s.within_alertState.regs, State.reg]

/-- The values of PHASE fit its field. -/
theorem phaseAfter_lt {p : StartPhase} {n : Nat} (h : phaseAfter p = some n) : n < 16 := by
  cases p <;> simp only [phaseAfter, Option.some.injEq, reduceCtorEq] at h <;> omega

theorem State.endOrder_start (s : State) (p : StartPhase) :
    (s.endOrder p).start = { s.start with done := p :: s.start.done } := by
  refine (State.within_alertState _).start.trans ?_
  split
  · rfl
  · split <;> rfl

theorem State.endOrder_phase (s : State) {p : StartPhase} {n : Nat} (h : phaseAfter p = some n) :
    (s.endOrder p).reg .YLD_START_PHASE 0 = n := by
  simp only [State.endOrder, h, State.reg_alertState, State.reg_setReg_self]
  exact Nat.mod_eq_of_lt (phaseAfter_lt h)

theorem State.within_endOrder (s : State) (p : StartPhase) : s.Within [.regs, .module, .start] (s.endOrder p) :=
  State.endOrder_within (.refl _ _) p (by decide) (by decide) (by decide)

section
variable {s t : State} {p : StartPhase} {found : StartFinding}

/-- An order in progress that does not end the start ends as `State.endOrder` says; order 6e then serves the signer (R349, R352). -/
theorem startPhaseDone_ends (hin : s.inOrder p = true) (hready : s.orderReady p = true) (h2 : p ≠ .p2) (h4 : p ≠ .p4)
    (ht : exec (.startPhaseDone p found) s = .next t) :
    ∃ u : State, t.start = (u.endOrder p).start ∧ (p ≠ .p6e → t.regs = (u.endOrder p).regs) := by
  simp only [exec, execStartPhaseDone, hin, hready, Bool.true_eq_false, or_self, if_false, Host.Outcome.next.injEq] at ht
  cases p with
  | p2 => exact absurd rfl h2
  | p4 => exact absurd rfl h4
  | p6e =>
    have hsigner : (s.order6e.endOrder .p6e).Within [.regs, .vault, .free, .out] t :=
      ht ▸ State.signer_within (.refl _ _) (by decide) (by decide) (by decide) (by decide)
    exact ⟨s.order6e, hsigner.start, fun h => absurd rfl h⟩
  | _ => subst ht; exact ⟨_, rfl, fun _ => rfl⟩

theorem startPhaseDone_p8 (hin : s.inOrder .p8 = true) (ht : exec (.startPhaseDone .p8 found) s = .next t) :
    t = s.order8.endOrder .p8 := by
  simpa only [exec, execStartPhaseDone, hin, State.orderReady, Bool.true_eq_false, or_self, if_false,
    Host.Outcome.next.injEq] using ht.symm

theorem startPhaseDone_p9 (hin : s.inOrder .p9 = true) (hready : s.orderReady .p9 = true)
    (ht : exec (.startPhaseDone .p9 found) s = .next t) : t = s.order9.endOrder .p9 := by
  simpa only [exec, execStartPhaseDone, hin, hready, Bool.true_eq_false, or_self, if_false, Host.Outcome.next.injEq]
    using ht.symm

end

/-- A table whose values have all been changed reads the changed value. -/
theorem Tbl.getD_map_value {κ α β : Type} [DecidableEq κ] (t : Tbl κ α) (g : α → β) (k : κ) (d : α) :
    Tbl.getD (t.map (fun e => (e.1, g e.2)) : Tbl κ β) k (g d) = g (Tbl.getD t k d) := by
  induction t with
  | nil => rfl
  | cons e t ih =>
    obtain ⟨j, v⟩ := e
    by_cases h : j = k
    · simp [Tbl.getD, Tbl.get?, h]
    · simpa [Tbl.getD, Tbl.get?, h] using ih

/-- A core with every row zero and every tag EMPTY, as order 8 leaves it (R133). -/
def Core.cleared (k : Core) : Core := { k with rows := Core.reset.rows, tags := Core.reset.tags }

/-- Order 8 clears every core, those that the state lists and the others, which are as after reset. -/
theorem State.order8_core (s : State) (c : Nat) : s.order8.core c = (s.core c).cleared :=
  Tbl.getD_map_value s.cores Core.cleared c Core.reset

theorem State.order9_floor0 (s : State) : s.order9.vault.floor0 = max s.vault.floor0 (min s.vault.fwSvn 0xFFFF) :=
  (Vault.counter_raise _ _ _ 0 (by decide)).trans (if_pos rfl)

theorem State.port_modPort_self (s : State) (p : Nat) (f : PortS → PortS) : (s.modPort p f).port p = f (s.port p) :=
  Tbl.getD_set_self ..

theorem State.port_modPort_other (s : State) (p q : Nat) (f : PortS → PortS) (h : q ≠ p) : (s.modPort p f).port q = s.port q :=
  Tbl.getD_set_other _ _ _ _ _ h

theorem State.order9_ready (s : State) : (s.order9.port 0).ready = true ∧ (s.order9.port 1).ready = true := by
  unfold State.order9
  extract_lets u v
  rw [State.port_modPort_other _ _ _ _ (by decide), State.port_modPort_self, State.port_modPort_self]
  exact ⟨rfl, rfl⟩

/-! ## Sounding (R395, R396) -/

theorem State.within_failStart (s : State) (cause : Nat) : s.Within [.regs, .module] (s.failStart cause) :=
  State.failStart_within (.refl _ _) cause (by decide) (by decide)

theorem State.failStart_regs (s : State) {cause : Nat} (h : cause < 16) :
    (s.failStart cause).reg .YLD_START_PHASE 0 = 15 ∧ (s.failStart cause).reg .YLD_START_FAIL 0 = cause := by
  simp only [State.failStart, State.reg_alertState, State.reg_setReg_self]
  refine ⟨?_, Nat.mod_eq_of_lt h⟩
  rw [State.reg_setReg_field _ _ _ _ _ _ (by decide), State.reg_setReg_self]
  rfl

/-- A region's Sounding in its order is noted once, with its failures; a failed router of level 9 or 10 ends the start. -/
theorem exec_soundingRegionDone {s : State} {die k : Fin 8} {fails : List SoundFail} (hin : s.inOrder .p6b = true)
    (hregion : die.val * 8 + k.val ∈ s.soundRegions) (hnew : die.val * 8 + k.val ∉ s.start.sounded) :
    ∃ t, exec (.soundingRegionDone die k fails) s = .next t ∧
      t.start.sounded = (die.val * 8 + k.val) :: s.start.sounded ∧
      t.start.fails = s.start.fails ++ fails.map (fun f => (die.val, f)) ∧
      ((∃ f ∈ fails, ∃ l i, f.part = .router l i ∧ 9 ≤ l) →
        t.reg .YLD_START_PHASE 0 = 15 ∧ t.reg .YLD_START_FAIL 0 = 3) := by
  have hregion' := List.contains_iff_mem.2 hregion
  have hnew' : s.start.sounded.contains (die.val * 8 + k.val) = false := by simpa using hnew
  simp only [exec, execSoundingRegionDone, hin, hregion', hnew', Bool.true_eq_false, Bool.false_eq_true, or_self, if_false]
  split
  · refine ⟨_, rfl, ?_, ?_, fun _ => State.failStart_regs _ (by decide)⟩ <;> rw [(State.within_failStart _ 3).start]
  · next hnone =>
    refine ⟨_, rfl, rfl, rfl, fun ⟨f, hf, l, i, hpart, hl⟩ => absurd (List.any_eq_true.2 ⟨f, hf, ?_⟩) hnone⟩
    simp only [hpart, hl, decide_true]

/-! ## The module reset (R346, R394, R401) -/

/-- A reset leaves the vault's records and journals. -/
theorem Vault.restart_stored (v : Vault) (b : Bool) :
    (v.restart b).recs = v.recs ∧ (v.restart b).idJournal = v.idJournal ∧ (v.restart b).attJournal = v.attJournal := by
  unfold Vault.restart
  dsimp only
  split
  · split <;> exact ⟨rfl, rfl, rfl⟩
  · exact ⟨rfl, rfl, rfl⟩

/-- The key slots are read from the records alone. -/
theorem Vault.slots_congr {v w : Vault} (h : w.recs = v.recs) : w.slots = v.slots := by
  simp only [Vault.slots, Vault.value, h]

theorem State.moduleReset_hbm (s : State) : s.moduleReset.hbm = [] := (State.within_alertState _).hbm
theorem State.moduleReset_cores (s : State) : s.moduleReset.cores = [] := (State.within_alertState _).cores
theorem State.moduleReset_ctxs (s : State) : s.moduleReset.ctxs = [] := (State.within_alertState _).ctxs
theorem State.moduleReset_flash (s : State) : s.moduleReset.cfg.flash = s.cfg.flash := by
  rw [State.moduleReset, (State.within_alertState _).cfg]
theorem State.moduleReset_vault (s : State) : s.moduleReset.vault = s.vault.restart (s.regB .SEC_STAT_FW_SLOT 0) :=
  (State.within_alertState _).vault

theorem exec_moduleReset {s : State} {cause : ResetCause} (hcause : cause ≠ .powerOn) (hon : s.module.off = false) :
    exec (.moduleReset cause) s = .next s.moduleReset := by
  cases cause with
  | powerOn => exact absurd rfl hcause
  | _ => simp only [exec, execModuleReset, hon, Bool.false_eq_true, if_false]

/-! ## Partition resets (R164, R402) -/

theorem State.writeAs_granted {s : State} {src : Src} {r : Rg} {inst elem : Nat}
    (h : s.access src r inst elem true = .granted) (act : State → State) : s.writeAs src r inst elem act = act s := by
  simp only [State.writeAs, h]

theorem State.resetCoresOf_regsBut (s : State) (l : List Nat) : s.RegsBut brakeFields (s.resetCoresOf l) := by
  unfold State.resetCoresOf
  extract_lets due known s1 s2 fresh
  have h1 : s.RegsBut brakeFields s1 := .of_regs rfl
  have h2 : s1.RegsBut brakeFields s2 := .foldl (fun s c => .ite (.of_regs (t := s.modCore c due) rfl) (s.resetCore_regsBut c)) _
  exact (h1.trans h2).of_regs_eq rfl

theorem State.within_resetCoresOf (s : State) (l : List Nat) : s.Within [.regs, .cores, .net, .start] (s.resetCoresOf l) :=
  State.resetCoresOf_within (.refl _ _) l (by decide) (by decide) (by decide) (by decide)

/-- The subtrees of a partition are read from the product and PKG_PART_CORE alone. -/
theorem State.partSubs_congr {s t : State} (hproduct : t.product = s.product)
    (hpart : ∀ k, t.reg .PKG_PART_CORE_PART k = s.reg .PKG_PART_CORE_PART k) (part : Nat) : t.partSubs part = s.partSubs part := by
  simp only [State.partSubs, State.dies, hproduct, hpart]

/-- Kills of contexts leave the start's state. -/
theorem State.foldl_killCtx_start (s : State) (xs : List Nat) :
    (xs.foldl (fun s x => s.killCtx x true) s).start = s.start :=
  (State.within_foldl (l := [.regs, .cores, .net, .hbm, .hbmc, .xfers, .ctxs, .ports, .helm, .fab, .cfg, .free, .out]) xs _
    (.refl _ s) fun _ x h => State.killCtx_within h x true (by decide) (by decide) (by decide) (by decide) (by decide) (by decide)
      (by decide) (by decide) (by decide) (by decide) (by decide) (by decide) (by decide)).start

/-- A partition reset that may begin does: BUSY rises, its subtrees are held, and its contexts are killed. -/
theorem exec_partitionReset {s : State} {port : Fin 2} {v : BitVec 32}
    (hgrant : s.access (.port port) .PKG_PART_RST 0 0 true = .granted) (hlease : s.holdsLease port = true)
    (hgo : natBits v.toNat 4 1 = 1) (hidle : s.regB .PKG_PART_RST_BUSY 0 = false) :
    ∃ t, exec (.partitionReset port v) s = .next t ∧ t.start.part = some (natBits v.toNat 0 4) ∧
      t.start.partSubs = s.partSubs (natBits v.toNat 0 4) ∧ t.reg .PKG_PART_RST_BUSY 0 = 1 := by
  simp only [exec, execPartitionReset, State.writeAs_granted hgrant, hlease, hgo, hidle, Bool.true_eq_false, Bool.false_eq_true,
    Nat.one_ne_zero, or_self, if_false]
  generalize natBits v.toNat 0 4 = part
  have hw := (s.setReg .PKG_PART_RST_BUSY 0 1).within_resetCoresOf (s.partCores part)
  have hregs := (s.setReg .PKG_PART_RST_BUSY 0 1).resetCoresOf_regsBut (s.partCores part)
  refine ⟨_, rfl, ?_, ?_, ?_⟩
  · rw [State.foldl_killCtx_start]
  · rw [State.foldl_killCtx_start]
    exact State.partSubs_congr (s := s) hw.product (fun k => (hregs.same .PKG_PART_CORE_PART k (by decide)).trans
      (s.reg_setReg_field .PKG_PART_RST_BUSY .PKG_PART_CORE_PART 0 k 1 (by decide))) part
  · have hkill (u : State) (xs : List Nat) : u.RegsBut killFields (xs.foldl (fun s x => s.killCtx x true) u) :=
      .foldl (fun u x => u.killCtx_regsBut x true) xs
    exact ((hkill _ _).same _ 0 (by decide)).trans ((hregs.same _ 0 (by decide)).trans (State.reg_setReg_self ..))

/-- The dies whose processors agree release their subtrees once all cores are Bleached; the reset is done when none is held. -/
theorem exec_partitionResetRelease {s : State} {part : Nat} (hpart : s.start.part = some part) (hcores : s.start.resetCores = []) :
    let u := s.releaseSubs (s.start.partSubs.filter (fun k => s.agreed (k / 32) 3))
    exec (.partitionResetRelease true) s = .next (if u.start.partSubs.isEmpty then
      (({ u with start := { u.start with part := none } } : State).setReg .PKG_PART_RST_BUSY 0 0).bump .PKG_PART_RST_DONE 0
      else u) := by
  simp only [exec, execPartitionResetRelease, hpart, hcores, List.isEmpty_nil, Bool.true_eq_false, or_self, if_false]

/-- Nothing stays held exactly where every die has released what it held. -/
theorem State.releaseSubs_all_iff (s : State) (p : Nat → Bool) :
    (s.releaseSubs (s.start.partSubs.filter p)).start.partSubs.isEmpty = true ↔ s.start.partSubs.filter p = s.start.partSubs := by
  rw [State.releaseSubs, List.isEmpty_iff, List.filter_eq_nil_iff, List.filter_eq_self]
  exact forall₂_congr fun k hk => by simp [hk]

end Sys2Proof.Machine

open Sys2Proof Sys2Proof.Machine

/-! ## The obligations -/

/-- Settles O5: every memory is empty after reset. -/
theorem resetIsCanonical : Obligations.ResetIsCanonical := ⟨⟨rfl, rfl, rfl⟩, rfl⟩

/-- Settles O4: a step is a nanosecond or the front command, and both stay within a reach, of which canonical form is a part. -/
theorem stepKeepsCanonical : Obligations.StepKeepsCanonical := by
  unfold Obligations.StepKeepsCanonical
  intro s t hs ht
  cases hp : s.pending with
  | nil =>
    obtain rfl : s.tick = t := by simpa only [step, hp, Host.Outcome.next.injEq] using ht
    exact s.within_tick.canonical hs
  | cons i rest =>
    rw [step_of_pending hp] at ht
    exact (within_reach_of_exec ht).canonical hs

/-- Settles O29: a core's Bleach sets the core alone before the report, and a stack's takes the bytes of the context's ranges. -/
theorem bleachesComplete : Obligations.BleachesComplete := by
  unfold Obligations.BleachesComplete
  refine ⟨fun c s hbleach hbrake => ?_, fun x stack s hstate howed => ?_⟩
  · let u := s.modCore c.toNat Core.bleached
    have hw := u.within_coreBleached c.toNat
    refine ⟨_, exec_coreBleachDone hbleach hbrake, ?_, hw.hbm, u.coreBleached_resetCores _⟩
    calc (u.coreBleached c.toNat).core c.toNat = u.core c.toNat := by simp only [State.core, hw.cores]
      _ = (s.core c.toNat).bleached := State.core_modCore_self ..
  · obtain ⟨t, ht, hhbm⟩ := exec_hbmBleachDone hstate howed
    exact ⟨t, ht, hhbm, fun a => hhbm ▸ memGet_filter_addr _ _ a⟩

/-- Settles O41: an access is refused at a closed aperture, at a hidden place or where writes are not enabled; else it reaches rows,
block RAM or HBM. -/
theorem debugApertureComplete : Obligations.DebugApertureComplete := by
  unfold Obligations.DebugApertureComplete
  intro port off n bytes a s hreach
  refine ⟨exec_bar4Read_closed hreach, exec_bar4Write_closed hreach, exec_bar4Read_hidden hreach, exec_bar4Write_hidden hreach,
    fun c r hbar hat htakes hown => ?_, fun d o hbar hat hok => ?_, fun hbar hat hserve => ?_,
    fun c r hbar hat hen htakes hq hown => ?_, fun d o hbar hat hen hok => ?_, ?_,
    fun d hbar hat hen => exec_bar4Write_readOnly hreach hbar hat hen⟩
  · rw [exec_bar4Read_shown hreach hbar hat (State.bar4Waits_row htakes hown (by simp)), State.bar4Read_row]
  · rw [exec_bar4Read_shown hreach hbar hat rfl, State.bar4Read_bram hok]
  · exact ⟨_, exec_bar4Read_shown hreach hbar hat (State.bar4Waits_hbm hserve), State.bar4Read_hbm hserve⟩
  · rw [exec_bar4Write_shown hreach hbar hat hen (State.bar4Waits_row htakes hown fun _ => hq), State.bar4Write_row]
  · rw [exec_bar4Write_shown hreach hbar hat hen rfl, State.bar4Write_bram hok]
  · rintro h o hbar hat hen rfl rfl hserve
    rw [exec_bar4Write_shown hreach hbar hat hen (State.bar4Waits_hbm hserve), State.bar4Write_hbm hserve]

/-- Settles O54: orders by `State.endOrder`, a module reset by what it builds, a partition reset by its fold of kills, which leave
BUSY and the start's state, and its release by whether a die keeps its part. -/
theorem startAndResetsComplete : Obligations.StartAndResetsComplete := by
  unfold Obligations.StartAndResetsComplete
  intro found s
  refine ⟨fun p hin hready => ?_, fun die k fails => exec_soundingRegionDone, fun cause hcause hon => ?_, ?_,
    fun port v hgrant hlease hgo hidle => exec_partitionReset hgrant hlease hgo hidle, fun part hpart hcores => ?_⟩
  · obtain ⟨t, ht⟩ := exec_completes (.startPhaseDone p found) s
    refine ⟨t, ht, fun h2 h4 => ?_, ?_, ?_⟩
    · obtain ⟨u, hstart, hregs⟩ := startPhaseDone_ends hin hready h2 h4 ht
      refine ⟨by simp [hstart, State.endOrder_start], fun n hn => ?_⟩
      have h6e : p ≠ .p6e := fun h => by simp [h, phaseAfter] at hn
      rw [State.reg, hregs h6e]
      exact u.endOrder_phase hn
    · rintro rfl
      have hw := s.order8.within_endOrder .p8
      rw [startPhaseDone_p8 hin ht]
      refine ⟨hw.ctxs, fun c => ?_⟩
      rw [State.core, hw.cores, ← State.core, State.order8_core]
      exact ⟨rfl, rfl⟩
    · rintro rfl
      have hw := s.order9.within_endOrder .p9
      rw [startPhaseDone_p9 hin hready ht]
      simp only [State.port, hw.ports, hw.vault]
      exact ⟨s.order9_ready.1, s.order9_ready.2, s.order9_floor0⟩
  · obtain ⟨hrecs, hid, hatt⟩ := s.vault.restart_stored (s.regB .SEC_STAT_FW_SLOT 0)
    rw [s.moduleReset_vault]
    exact ⟨exec_moduleReset hcause hon, s.moduleReset_hbm, s.moduleReset_cores, s.moduleReset_ctxs, s.moduleReset_flash,
      Vault.restart_onward .., hrecs, hid, hatt, Vault.slots_congr hrecs⟩
  · have hw := State.within_alertState { s.moduleReset with regs := [], module := .reset }
    refine ⟨_, rfl, (congrArg Cfg.flash hw.cfg).trans s.moduleReset_flash, ?_, hw.cores.trans s.moduleReset_cores,
      State.alertState_off _⟩
    rw [hw.vault, State.moduleReset_vault]
    exact Vault.restart_onward ..
  · intro go u
    have hexec := exec_partitionResetRelease hpart hcores
    have hall := s.releaseSubs_all_iff (fun k => s.agreed (k / 32) 3)
    exact ⟨fun hgo => by rw [hexec, if_pos (hall.2 hgo)],
      fun hgo => ⟨by rw [hexec, if_neg (mt hall.1 hgo)], hpart⟩⟩
end

section
/-! SUPPORT and PROOFS for 06_rose_network.md: what a core's NI refuses, how a packet leaves its place in the Rose, sleep and waking,
and the responses at their targets. -/

namespace Sys2Proof.Machine

/-! ## What a core's NI refuses (R156) -/

/-- Whether a core answers RST to every context: in the reset sink, in a kill's Bleach, or held by a BLEACHING context. -/
def State.coreShut (s : State) (c : Nat) : Prop :=
  (s.core c).sink = true ∨ s.killBleach c = true ∨ ∃ y, s.holder c = some y ∧ s.reg .CTX_STATE_STATE y = 6

section
variable {s : State} {c x y : Nat}

theorem State.coreRefuses_shut (h : s.coreShut c) (x : Nat) : s.coreRefuses c x = some .rst := by
  rcases h with hsink | hkill | ⟨y, hheld, hbleach⟩
  · simp [State.coreRefuses, hsink]
  · simp [State.coreRefuses, hkill]
  · simp [State.coreRefuses, hheld, hbleach]

theorem State.coreRefuses_unheld (hheld : s.holder c = none) (hx : x ≠ 0) : s.coreRefuses c x = some .rst := by
  simp [State.coreRefuses, hheld, hx]

/-- A core that is not shut takes context 0 and its holder; the others it refuses by whether it is held. -/
theorem State.coreRefuses_open (h : ¬s.coreShut c) (x : Nat) : s.coreRefuses c x =
    if x = 0 ∨ s.holder c = some x then none else some (if (s.holder c).isSome then .den else .rst) := by
  simp only [State.coreShut, not_or, not_exists, not_and, Bool.not_eq_true] at h
  obtain ⟨hsink, hkill, hstate⟩ := h
  cases hheld : s.holder c with
  | none => simp [State.coreRefuses, hsink, hkill, hheld]
  | some y => simp [State.coreRefuses, hsink, hkill, hheld, hstate y hheld]

theorem State.coreRefuses_taken (h : ¬s.coreShut c) (hx : x = 0 ∨ s.holder c = some x) : s.coreRefuses c x = none := by
  rw [State.coreRefuses_open h, if_pos hx]

theorem State.coreRefuses_other (h : ¬s.coreShut c) (hheld : s.holder c = some y) (hx : x ≠ 0) (hy : y ≠ x) :
    s.coreRefuses c x = some .den := by
  simp [State.coreRefuses_open h, hheld, hx, hy]

end

/-! ## Forwarding (R138, R151 to R153, R159) -/

section
variable {s : State} {f : Flight} {i n idx : Nat}

/-- A flight that stands at a router which forwards, behind none of its flow, is moved on. -/
theorem exec_routerForward_router (hf : s.net.flights[i]? = some f) (hat : routerOf f.loc = some (n, idx))
    (hheld : s.routerHeld n idx = false) (hbehind : behind s.net.flights i f = false) :
    exec (.routerForward i) s = .next (s.advance i f n idx) := by
  -- `simp` passes the match's first case, the outbound ports, by `hout`.
  have hout (e : Ep) : f.loc ≠ .out e := fun he => by rw [he] at hat; cases hat
  simp only [exec, execRouterForward, hf, hat, hheld, hbehind, Bool.or_self, Bool.false_eq_true, if_false]

/-- A packet of no tally class with one way to go is sent there. -/
theorem State.advance_single {c : Packet × Loc} (hclass : tallyClass f.pkt = false) (hleft : f.left = none)
    (hhop : s.hop f = some (.go [c])) : s.advance i f n idx = s.sendCopies i n idx [c] := by
  simp only [State.advance, State.copiesOf, hleft, hhop, hclass]

/-- The state in which a packet has left place `i` through an output and stands in the next buffer. -/
def State.moved (s : State) (i : Nat) (k : OutKey) (ready : List Chan) (p : Packet) (l : Loc) : State :=
  ((s.started k ready (pChan p)).unfly i).fly p l

theorem State.moved_frame (s : State) (i : Nat) (k : OutKey) (ready : List Chan) (p : Packet) (l : Loc) :
    let t := s.moved i k ready p l
    t = { s with net := t.net } ∧ t.net.slots = s.net.slots ∧
      t.net.flights = dropAt s.net.flights i ++ [⟨p, l, false, none⟩] := ⟨rfl, rfl, rfl⟩

theorem State.sendCopies_starts {q : Packet} {l : Loc} (h : s.starts n idx (q, l) = true) :
    s.sendCopies i n idx [(q, l)] =
      s.moved i (.router n idx (Machine.portOf n l)) (s.readyAt n idx (Machine.portOf n l)) q l := by
  simp [State.sendCopies, State.moved, h]

/-- The first of its channel at an endpoint's outbound port leaves it when the next buffer has room and its turn has come. -/
theorem State.startOut_first {e : Ep}
    (hfirst : ∀ g ∈ s.net.flights.take i, g.loc = .out e → pChan g.pkt ≠ pChan f.pkt)
    (hroom : s.room f.pkt (s.entry e f.pkt) = true) (hturn : s.chosen (.ep e) (s.readyOut e) (pChan f.pkt) = true) :
    s.startOut i e f = s.moved i (.ep e) (s.readyOut e) f.pkt (s.entry e f.pkt) := by
  have hnone : (s.net.flights.take i).any (fun g => decide (g.loc = .out e) && decide (pChan g.pkt = pChan f.pkt)) = false := by
    simpa using hfirst
  simp only [State.startOut, State.moved, hnone, hroom, hturn, Bool.not_true, Bool.or_self, Bool.false_eq_true, if_false]

theorem exec_routerForward_out {e : Ep} (hf : s.net.flights[i]? = some f) (hloc : f.loc = .out e) (hheld : s.outHeld e = false) :
    exec (.routerForward i) s = .next ((s.startOut i e f).afterOut e) := by
  simp only [exec, execRouterForward, hf, hloc, hheld, Bool.false_eq_true, if_false]

theorem State.afterOut_of_ne_tile {e : Ep} (h : ∀ d j, e ≠ .tile d j) (s : State) : s.afterOut e = s := by
  cases e with
  | core c => rfl
  | tile d j => exact absurd rfl (h d j)
  | hub a b => rfl

/-- The state in which the packet of slot `i` has left through the up port. -/
def State.slotGone (s : State) (i : Nat) (r : Slot) : State :=
  let t := { s with net := { s.net with slots := dropAt s.net.slots i } }.started (.router r.lvl r.idx .up)
    (.tally :: s.readyAt r.lvl r.idx .up) .tally
  { t with net := { t.net with flights := t.net.flights ++ [⟨r.pkt, r.nxt, true, none⟩] } }

theorem State.slotGone_frame (s : State) (i : Nat) (r : Slot) :
    let t := s.slotGone i r
    t = { s with net := t.net } ∧ t.net.slots = dropAt s.net.slots i ∧
      t.net.flights = s.net.flights ++ [⟨r.pkt, r.nxt, true, none⟩] := ⟨rfl, rfl, rfl⟩

/-- A combined tally whose hold has ended takes the up port when the next buffer has room and its turn has come (R159). -/
theorem exec_tallyHoldExpire_up {r : Slot} (hr : s.net.slots[i]? = some r) (hheld : s.routerHeld r.lvl r.idx = false)
    (hup : r.out = .up) (hcomb : r.comb = true) (hroom : s.room r.pkt r.nxt = true)
    (hturn : s.chosen (.router r.lvl r.idx .up) (.tally :: s.readyAt r.lvl r.idx .up) .tally = true) :
    exec (.tallyHoldExpire i) s = .next (s.slotGone i r) := by
  simp only [exec, execTallyHoldExpire, State.slotHop, State.slotGone, hr, hheld, hup, hcomb, hroom, hturn, Bool.not_true,
    Bool.false_and, Bool.or_self, Bool.false_eq_true, if_false]

end

/-! ## Sleep and waking (R161, R162) -/

section
variable {s : State}

theorem exec_coreSleep {c : CoreAddr} (hmode : s.reg .ROSE_MODE_CORE_SLEEP 0 = 1) (hpresent : s.absent c.toNat = false)
    (hasleep : (s.core c.toNat).asleep = false) (hwaking : (s.core c.toNat).waking = false)
    (hbleach : (s.core c.toNat).bleaching = false) (hinq : (s.core c.toNat).inq = []) (hidle : (s.core c.toNat).run = .idle)
    (hempty : ∀ f ∈ s.net.flights, f.loc ≠ .at_ (.core c)) :
    exec (.coreSleep c) s = .next (s.modCore c.toNat (fun k => { k with asleep := true })) := by
  have hnone : s.net.flights.any (fun f => decide (f.loc = .at_ (.core c))) = false := by simpa using hempty
  simp [exec, execCoreSleep, State.regB, hmode, hpresent, hasleep, hwaking, hbleach, hinq, hidle, hnone]

theorem exec_routerSleep {level : Fin 11} {index : Nat} (hmode : s.reg .ROSE_MODE_RTR_SLEEP 0 = 1)
    (hin : s.hasRouter level index = true) (hasleep : (level.val, index) ∉ s.net.asleep)
    (hwaking : (level.val, index) ∉ s.net.waking) (hflights : s.net.flights = []) (hslots : s.net.slots = [])
    (hbelow : s.belowAsleep level index = true) :
    exec (.routerSleep level index) s = .next { s with net := { s.net with asleep := (level.val, index) :: s.net.asleep } } := by
  simp [exec, execRouterSleep, State.regB, hmode, hin, hasleep, hwaking, hflights, hslots, hbelow]

/-- A header that waits for a sleeping core starts its waking, or is latched under the brake. -/
theorem exec_wake_core {c : CoreAddr} (hwait : s.awaited (fun l => decide (l = .at_ (.core c))) = true)
    (hasleep : (s.core c.toNat).asleep = true) :
    exec (.wake (.core c)) s = .next (if s.braked c.toNat then s.modCore c.toNat (fun k => { k with wakeDue := true })
      else s.modCore c.toNat Core.wakeUp) := by
  simp only [exec, execWake, hwait, hasleep, Bool.not_true, Bool.or_self, Bool.false_eq_true, if_false]

theorem exec_wake_router {level : Fin 11} {index : Nat}
    (hwait : s.awaited (fun l => decide (routerOf l = some (level.val, index))) = true)
    (hasleep : (level.val, index) ∈ s.net.asleep) (hclk : s.routerBraked level index = false) :
    exec (.wake (.router level index)) s = .next (s.wakeRouter (level.val, index)) := by
  simp only [exec, execWake, hwait, List.contains_iff_mem.mpr hasleep, hclk, Bool.not_true, Bool.or_self, Bool.false_eq_true,
    if_false]

theorem State.wakeRouter_awake (s : State) (r : Nat × Nat) : r ∉ (s.wakeRouter r).net.asleep := by
  simp [State.wakeRouter]

theorem State.awaited_of_at {f : Flight} {p : Loc → Bool} (hf : f ∈ s.net.flights) (h : p f.loc = true) : s.awaited p = true := by
  have hany : s.net.flights.any (fun f => p f.loc || (s.nextPlaces f).any p) = true :=
    List.any_eq_true.mpr ⟨f, hf, by rw [h, Bool.true_or]⟩
  rw [State.awaited, hany, Bool.true_or]

theorem State.awaited_of_next {f : Flight} {l : Loc} {p : Loc → Bool} (hf : f ∈ s.net.flights) (hl : l ∈ s.nextPlaces f)
    (h : p l = true) : s.awaited p = true := by
  have hany : s.net.flights.any (fun f => p f.loc || (s.nextPlaces f).any p) = true :=
    List.any_eq_true.mpr ⟨f, hf, by rw [List.any_eq_true.mpr ⟨l, hl, h⟩, Bool.or_true]⟩
  rw [State.awaited, hany, Bool.true_or]

theorem State.nextPlaces_out {f : Flight} {e : Ep} (h : f.loc = .out e) : s.nextPlaces f = [s.entry e f.pkt] := by
  simp only [State.nextPlaces, h]

/-- The buffer of an element that sleeps or wakes takes no header. -/
theorem State.room_of_slumbers {l : Loc} (h : s.slumbers l = true) (p : Packet) : s.room p l = false := by
  simp only [State.room, h, Bool.not_true, Bool.false_and]

theorem State.slumbers_core (s : State) (c : CoreAddr) :
    s.slumbers (.at_ (.core c)) = ((s.core c.toNat).asleep || (s.core c.toNat).waking) := rfl

theorem exec_wakeDone_core {c : CoreAddr} (h : (s.core c.toNat).waking = true) :
    exec (.wakeDone (.core c)) s = .next (s.modCore c.toNat (fun k => { k with waking := false })) := by
  simp only [exec, execWakeDone, h, if_true]

end

/-! ## Responses at their targets (R143, R145, R158) -/

section
variable {s : State} {p : Packet} {h i : Nat}

theorem State.byTarget_hub (haim : addrEp p.target p.tkind = .hub h i) (core : Nat → State) (tile hub : Nat → Nat → State) :
    s.byTarget p core tile hub = hub h i := by
  simp only [State.byTarget, haim]

/-- A packet of the response or tally class at an engine of a hub is taken by it. -/
theorem State.atEngine_hub (haim : addrEp p.target p.tkind = .hub h i) (hstands : s.standsAt (.hub h i) p = true) (hlo : 1 ≤ i)
    (hhi : i ≤ 4) (core : Nat → State → State) (eng : Nat → Nat → State → State) :
    s.atEngine p core eng = eng h (i - 1) (s.arrive (.hub h i) p) := by
  simp only [State.atEngine, State.byTarget_hub haim, hstands, hlo, hhi, Bool.not_true, Bool.false_eq_true, and_self, if_true,
    if_false]

/-- One at a core that admits it is taken there. -/
theorem State.Admits.atEngine {c : CoreAddr} (hadmit : s.Admits c p) (core : Nat → State → State)
    (eng : Nat → Nat → State → State) : s.atEngine p core eng = core c.toNat (s.arrive (.core c) p) := by
  simp only [State.atEngine, hadmit.byTarget, hadmit.atCore, BitVec.ofNat_toNat, BitVec.setWidth_eq]

theorem exec_readData (hcmd : p.cmd = cRDATA) :
    exec (.readData p) s = .next (s.atEngine p (fun _ s => s) (fun h e s => s.engineData h e p)) := by
  simp only [exec, execReadData, hcmd, ne_eq, not_true_eq_false, if_false]

theorem exec_passDone (hcmd : p.cmd = cDONE) :
    exec (.passDone p) s = .next (s.atEngine p (fun _ s => s) (fun h e s => s.engineDone h e p)) := by
  simp only [exec, execPassDone, hcmd, ne_eq, not_true_eq_false, if_false]

theorem exec_answer (hcmd : p.cmd = cANSWER) :
    exec (.answer p) s = .next (s.atEngine p (fun c s => s.coreAnswer c p) (fun h e s => s.engineAnswer h e p)) := by
  simp only [exec, execAnswer, hcmd, ne_eq, not_true_eq_false, if_false]

theorem exec_faultReport_mailbox (hcmd : p.cmd = cFAULT) (haim : addrEp p.target p.tkind = .hub h 0x0D)
    (hstands : s.standsAt (.hub h 0x0D) p = true) :
    exec (.faultReport p) s = .next ((s.arrive (.hub h 0x0D) p).faultArrives h p) := by
  simp only [exec, execFaultReport, hcmd, State.byTarget_hub haim, hstands, Bool.not_true, Bool.false_eq_true, ne_eq,
    not_true_eq_false, if_true, if_false]

/-- The bit of an event that has been reported reads 1, whatever becomes of its message (R246). -/
theorem State.event_set {f : Fld} (hwidth : f.info.width = 1) (hf : f ∉ entryFields) (s : State) (x : Nat) :
    (s.event f x).reg f x = 1 := by
  unfold State.event
  split
  case isTrue h => exact beq_iff_eq.mp h
  case isFalse => rw [(State.evMessage_regsBut ..).same f x hf, State.reg_setReg_self, hwidth]; rfl

/-- The message of an event leaves every register but its bit and those of the ring's entries. -/
theorem State.event_same {f g : Fld} (hg : g ≠ f) (hent : g ∉ entryFields) (s : State) (x j : Nat) :
    (s.event f x).reg g j = s.reg g j := by
  unfold State.event
  split
  · rfl
  · rw [(State.evMessage_regsBut ..).same g j hent, State.reg_setReg_field _ _ _ _ _ _ hg]

/-- An ANSWER that counts one refusal with RST at a core raises the context's count and sets the event (R158). -/
theorem State.coreAnswer_rst (habs : tallyField p 0 = 0) (hrst : tallyField p 2 = 1) (hden : tallyField p 3 = 0) (s : State)
    (c : Nat) :
    (s.coreAnswer c p).reg .ROSE_CTX_REFUSE_RST (dieOf c * 1024 + p.ctx.toNat) =
        min (s.reg .ROSE_CTX_REFUSE_RST (dieOf c * 1024 + p.ctx.toNat) + 1) (2 ^ 20 - 1) ∧
      (s.coreAnswer c p).reg .CTX_EVENT_REFUSE p.ctx.toNat = 1 := by
  simp only [State.coreAnswer, habs, hrst, hden, one_ne_zero, false_and, and_false, if_false]
  refine ⟨?_, State.event_set rfl (by decide) _ _⟩
  rw [State.event_same (by decide) (by decide), State.modCore_reg, State.reg_bumpN_field (h := by decide), ← State.bump,
    State.reg_bump_self, State.reg_bumpN_field (h := by decide)]
  exact Nat.mod_eq_of_lt (Nat.lt_of_le_of_lt (Nat.min_le_right _ _) (by decide))

end

end Sys2Proof.Machine

open Sys2Proof Sys2Proof.Machine

/-! ## The obligations -/

/-- Settles O25: a core that is shut answers RST to all; any other takes context 0 and its holder, and refuses the rest. -/
theorem coreAdmission : Obligations.CoreAdmission := by
  unfold Obligations.CoreAdmission
  intro s c x hx
  have hboth (h : s.coreShut c) : s.coreRefuses c x = some .rst ∧ s.coreRefuses c 0 = some .rst :=
    ⟨State.coreRefuses_shut h x, State.coreRefuses_shut h 0⟩
  refine ⟨fun hsink => hboth (.inl hsink), fun hkill => hboth (.inr (.inl hkill)), fun hheld => State.coreRefuses_unheld hheld hx,
    fun y hheld hbleach => hboth (.inr (.inr ⟨y, hheld, hbleach⟩)),
    fun hsink hkill => ⟨fun hheld => ?_, fun y hheld hstate => ?_⟩⟩
  · have hopen : ¬s.coreShut c := by simp [State.coreShut, hsink, hkill, hheld]
    exact State.coreRefuses_taken hopen (.inl rfl)
  · have hopen : ¬s.coreShut c := by simp [State.coreShut, hsink, hkill, hheld, hstate]
    exact ⟨State.coreRefuses_taken hopen (.inr hheld), State.coreRefuses_taken hopen (.inl rfl),
      State.coreRefuses_other hopen hheld hx⟩

/-- Settles O22: a response is taken by the engine, the core or the mailbox that it names; a core's count and event bit outlast the
message of the event. -/
theorem responsesComplete : Obligations.ResponsesComplete := by
  unfold Obligations.ResponsesComplete
  intro h i c p s
  refine ⟨fun hcmd haim hstands hlo hhi => ?_, fun hcmd haim hstands hlo hhi => ?_, fun hcmd haim hstands hlo hhi => ?_,
    fun hcmd hadmit hrst habs hden => ?_, exec_faultReport_mailbox⟩
  · rw [exec_readData hcmd, State.atEngine_hub haim hstands hlo hhi]
  · rw [exec_passDone hcmd, State.atEngine_hub haim hstands hlo hhi]
  · rw [exec_answer hcmd, State.atEngine_hub haim hstands hlo hhi]
  · rw [exec_answer hcmd, hadmit.atEngine]
    exact ⟨_, rfl, State.coreAnswer_rst habs hrst hden (s.arrive (.core c) p) c.toNat⟩

/-- Settles O23: a packet that starts is in `State.moved`, a tally slot that takes its output in `State.slotGone`. -/
theorem routersForward : Obligations.RoutersForward := by
  unfold Obligations.RoutersForward
  intro i s f q l n idx
  refine ⟨fun hf hat hheld hbehind hclass hleft hhop hstarts => ?_, fun e hf hloc hheld hfirst hroom hturn => ?_,
    fun r hr hheld hup hcomb hroom hturn => ⟨_, exec_tallyHoldExpire_up hr hheld hup hcomb hroom hturn, s.slotGone_frame i r⟩⟩
  · rw [exec_routerForward_router hf hat hheld hbehind, State.advance_single hclass hleft hhop, State.sendCopies_starts hstarts]
    exact ⟨_, rfl, State.moved_frame ..⟩
  · rw [exec_routerForward_out hf hloc hheld, State.startOut_first hfirst hroom hturn]
    obtain ⟨hnet, hslots, hflights⟩ := s.moved_frame i (.ep e) (s.readyOut e) f.pkt (s.entry e f.pkt)
    exact ⟨_, rfl, hnet, hslots, hflights, fun h => State.afterOut_of_ne_tile h _⟩

/-- Settles O24: each sleep and waking is one lemma on `exec`; a flight that stands at a core or enters it next awaits it, and one
that slumbers has no room. -/
theorem sleepAndWakeComplete : Obligations.SleepAndWakeComplete := by
  unfold Obligations.SleepAndWakeComplete
  intro c level index s
  refine ⟨exec_coreSleep, exec_routerSleep, fun hwait hasleep hclk => ?_,
    fun hwait hasleep hclk => ⟨exec_wake_router hwait hasleep hclk, s.wakeRouter_awake _⟩, fun f hf hplace => ?_,
    fun hslumber p => State.room_of_slumbers ?_ p, fun hwait hasleep hclk => ?_, exec_wakeDone_core, rfl⟩
  · rw [exec_wake_core hwait hasleep, hclk, if_neg Bool.false_ne_true]
    rfl
  · rcases hplace with hat | ⟨hout, hentry⟩
    · exact State.awaited_of_at hf (decide_eq_true hat)
    · exact State.awaited_of_next hf (by rw [State.nextPlaces_out hout, List.mem_singleton]) (decide_eq_true hentry)
  · rw [State.slumbers_core, Bool.or_eq_true]
    exact hslumber
  · rw [exec_wake_core hwait hasleep, if_pos hclk]
end

section
/-! SUPPORT and PROOFS for 07_hbm.md: bytes of HBM, requests at a controller, what a controller does by itself, rate changes and
retraining. -/

namespace Sys2Proof.Machine

/-! ## Bytes (R165, R169) -/

/-- A string of bytes is found where it was written, and every other byte as it was. -/
theorem memGet_memPut {m : List Host.Cell} (h : Memory.wf m = true) (a : Nat) (l : List Byte) (b : Nat) :
    memGet (memPut m a l) b = if a ≤ b ∧ b < a + l.length then l.getD (b - a) 0 else memGet m b := by
  induction l generalizing m a with
  | nil => exact (if_neg (by simp)).symm
  | cons v l ih =>
    rw [memPut, ih (memSet_wf m a v h), memGet_memSet m a b v h, List.length_cons]
    rcases lt_trichotomy b a with hlt | rfl | hgt
    · rw [if_neg (by omega), if_neg (by omega), if_neg (by omega)]
    · rw [if_neg (by omega), if_pos rfl, if_pos (by omega), Nat.sub_self, List.getD_cons_zero]
    · have hsub : b - a = b - (a + 1) + 1 := by omega
      have hiff : (a + 1 ≤ b ∧ b < a + 1 + l.length) ↔ (a ≤ b ∧ b < a + (l.length + 1)) := by omega
      rw [if_neg (by omega : b ≠ a), hsub, List.getD_cons_succ, if_congr hiff rfl rfl]

theorem Area.not_mem_of_contains {l : List Area} {p : Area} (h : l.contains p = false) : p ∉ l :=
  fun hmem => Bool.false_ne_true (h.symm.trans (List.contains_iff_mem.mpr hmem))

/-- A command whose reach does not list the bytes of HBM leaves them. -/
theorem exec_leaves_hbm {i : Instr} {s t : State} (ht : exec i s = .next t) (h : (reach i).contains .hbm = false) :
    t.hbm = s.hbm := (within_reach_of_exec ht).hbm (Area.not_mem_of_contains h)

/-! ## Requests (R168 to R171) -/

section
variable {s : State} {h : Nat} {p : Packet}

/-- A request at a hub endpoint that is served is taken from there. -/
theorem State.atHub_served {i : Nat} {f : State → Option State} {t : State} (hstands : s.standsAt (.hub h i) p = true)
    (hserved : f s = some t) : s.atHub h i p f = t.arrive (.hub h i) p := by
  simp only [State.atHub, hstands, hserved, Bool.true_eq_false, if_false]

theorem exec_memWrite_stack (hcmd : p.cmd = cMEMW) (haim : addrEp p.target p.tkind = .hub h 0) (ecc : List AtomEcc) :
    exec (.memWrite p ecc) s = .next (s.atHub h 0 p (fun s => s.hbmMemWrite h p ecc)) := by
  simp only [exec, execMemWrite, hcmd, State.byTarget_hub haim, ne_eq, not_true_eq_false, if_false, if_true]

theorem State.hbmMemWrite_serve (hserve : s.hbmAdmit h (pOff p * 16) (p.data.length * 16) = .serve) (ecc : List AtomEcc) :
    s.hbmMemWrite h p ecc = some ((((s.homeFirst (h * s.stackE + pOff p * 16) (p.data.length * 16)).hbmAccept h (pHint p)
      (atomMasks (pOff p * 16) (p.data.length * 16)) ecc).hbmWrite (h * s.stackE + pOff p * 16) (pBytes p)).accept
      (.hub h 0) p) := by
  simp only [State.hbmMemWrite, hserve]

end

/-! ## Write queues (R170, R172) -/

section
variable (s : State) (h : Nat)

@[simp] theorem State.stk_modStk (g : Stack → Stack) : (s.modStk h g).stk h = g (s.stk h) := Tbl.getD_set_self ..

@[simp] theorem State.setReg_stk (f : Fld) (i v : Nat) : (s.setReg f i v).stk h = s.stk h := rfl

@[simp] theorem State.drew_stk (n : Nat) : (s.drew n).stk h = s.stk h := rfl

@[simp] theorem Stack.closeRow_wq (k : Stack) (pc bank : Nat) : (k.closeRow pc bank).wq = k.wq := rfl

@[simp] theorem Stack.closeRow_recoast (k : Stack) (pc bank : Nat) : (k.closeRow pc bank).recoast = k.recoast := rfl

/-- An activate acts on the rows of its bank, and on no queue. -/
theorem State.activate_stk (pc bank row : Nat) : ((s.activate h pc bank row).stk h).wq = (s.stk h).wq ∧
    ((s.activate h pc bank row).stk h).recoast = (s.stk h).recoast := by
  simp [State.activate, State.neighbourRefresh, Stack.refreshRows]

/-- What serving some of a pseudo-channel's writes makes of a controller's queue: they leave it, in whatever number. Whether the
loop has coasted meanwhile (R356) is not touched. -/
structure Stack.Serves (pc : Nat) (k j : Stack) : Prop where
  queue : ∃ keep : WqE → Bool, j.wq = k.wq.filter keep ∧ ∀ e, keep e = false → (stackPlace (e.atom * 64)).1 = pc
  recoast : j.recoast = k.recoast

theorem Stack.Serves.of_eq {pc : Nat} {k j : Stack} (hwq : j.wq = k.wq) (hrecoast : j.recoast = k.recoast) :
    Stack.Serves pc k j :=
  ⟨⟨fun _ => true, by simpa using hwq, fun _ he => Bool.noConfusion he⟩, hrecoast⟩

/-- An access to an atom takes at most the queued writes to its row. -/
theorem State.touch_serves (hint atom : Nat) :
    Stack.Serves (stackPlace (atom * 64)).1 (s.stk h) ((s.touch h hint atom).stk h) := by
  unfold State.touch
  extract_lets p s1 s2
  have h1 : (s1.stk h).wq = (s.stk h).wq ∧ (s1.stk h).recoast = (s.stk h).recoast := by
    simp only [s1]
    split
    · exact ⟨rfl, rfl⟩
    · exact s.activate_stk h ..
  have h2 : Stack.Serves p.1 (s.stk h) (s2.stk h) := by
    simp only [s2]
    split
    · rw [State.stk_modStk]
      refine ⟨⟨fun e => decide (stackPlace (e.atom * 64) ≠ p), congrArg _ h1.1, fun e he => ?_⟩, h1.2⟩
      rw [of_not_not (of_decide_eq_false he)]
    · exact .of_eq h1.1 h1.2
  split
  · exact h2
  · rw [State.stk_modStk]
    exact ⟨h2.queue, h2.recoast⟩

/-- Serving a queued write erases it, and may serve others of its row. -/
theorem State.serveWrite_serves (e : WqE) :
    Stack.Serves (stackPlace (e.atom * 64)).1 { s.stk h with wq := (s.stk h).wq.erase e } ((s.serveWrite h e).stk h) := by
  unfold State.serveWrite
  split
  · have hserves := State.touch_serves (s.modStk h (fun k => { k with wq := k.wq.erase e })) h e.hint e.atom
    rwa [State.stk_modStk] at hserves
  case isFalse hin =>
    rw [List.erase_of_not_mem (fun hmem => hin (List.contains_iff_mem.mpr hmem))]
    exact .of_eq rfl rfl

theorem State.drainQueue_recoast (which : Nat → Bool) : ((s.drainQueue h which).stk h).recoast = (s.stk h).recoast :=
  List.foldlRecOn (motive := fun t : State => (t.stk h).recoast = (s.stk h).recoast) _ _ rfl
    fun t ht e _ => (t.serveWrite_serves h e).recoast.trans ht

theorem State.selfRefresh_recoast : ((s.selfRefresh h).stk h).recoast = (s.stk h).recoast := by
  rw [State.selfRefresh, State.stk_modStk]
  exact s.drainQueue_recoast h _

end

/-- Writes of one pseudo-channel that are served one after the other take all of its entries off the queue, and no others. -/
theorem State.foldl_serveWrite_wq {h pc : Nat} (l : List WqE) (hl : ∀ e ∈ l, e.pc = pc ∧ (stackPlace (e.atom * 64)).1 = pc)
    (s : State) (hplaced : ∀ e ∈ (s.stk h).wq, e.pc = (stackPlace (e.atom * 64)).1)
    (hall : ((s.stk h).wq.filter (fun e => e.pc == pc)).Subperm l) :
    ((l.foldl (fun s e => s.serveWrite h e) s).stk h).wq = (s.stk h).wq.filter (fun e => !(e.pc == pc)) := by
  induction l generalizing s with
  | nil =>
    have hnone := List.filter_eq_nil_iff.mp (List.subperm_nil.mp hall)
    exact (List.filter_eq_self.mpr fun e he => by simpa using hnone e he).symm
  | cons e l ih =>
    obtain ⟨⟨hpc, hplace⟩, hl⟩ := List.forall_mem_cons.mp hl
    obtain ⟨⟨keep, hwq, hkeep⟩, -⟩ := s.serveWrite_serves h e
    rw [hplace] at hkeep
    have hsub : ((s.serveWrite h e).stk h).wq.Sublist ((s.stk h).wq.erase e) := hwq ▸ List.filter_sublist
    have hrest : (((s.stk h).wq.erase e).filter (fun e => e.pc == pc)).Subperm l := by
      rw [← List.erase_filter]
      simpa using hall.erase e
    rw [List.foldl_cons, ih hl _ (fun x hx => hplaced x (List.mem_of_mem_erase (hsub.subset hx)))
      ((hsub.filter _).subperm.trans hrest), hwq]
    have hothers : ((s.stk h).wq.erase e).filter (fun e => !(e.pc == pc)) = (s.stk h).wq.filter (fun e => !(e.pc == pc)) := by
      rw [← List.erase_filter, List.erase_of_not_mem (by simp [hpc])]
    rw [← hothers, List.filter_filter]
    refine List.filter_congr fun x hx => ?_
    cases hk : keep x with
    | true => simp
    | false => simp [hplaced x (List.mem_of_mem_erase hx), hkeep x hk]

/-- A drain of one pseudo-channel's queue leaves the entries of the others. -/
theorem State.drainQueue_wq {s : State} {h : Nat} (hplaced : ∀ e ∈ (s.stk h).wq, e.pc = (stackPlace (e.atom * 64)).1)
    (pc : Nat) : ((s.drainQueue h (· == pc)).stk h).wq = (s.stk h).wq.filter (fun e => !(e.pc == pc)) := by
  refine State.foldl_serveWrite_wq _ (fun e he => ?_) s hplaced (.refl _)
  obtain ⟨hmem, hpc⟩ := List.mem_filter.mp he
  exact ⟨beq_iff_eq.mp hpc, (hplaced e hmem).symm.trans (beq_iff_eq.mp hpc)⟩

/-! ## The controllers' own work (R172, R174, R179, R382) -/

section
variable {s : State} {stack : Fin 16}

theorem exec_hbmWriteQueueDrain (hup : s.stackUp stack = true) (pc : Fin 64) :
    exec (.hbmWriteQueueDrain stack pc) s = .next (s.drainQueue stack (· == pc.val)) := by
  simp only [exec, execHbmWriteQueueDrain, hup, if_true]

theorem exec_hbmRefresh (hup : s.stackUp stack = true) (pc bank : Fin 64) :
    exec (.hbmRefresh stack pc bank) s = .next (s.modStk stack (fun k => { k.closeRow pc bank with
      refreshed := Tbl.set k.refreshed (pc.val, bank.val)
        ((Tbl.getD k.refreshed (pc.val, bank.val) (0, 0)).1 + 1, s.refreshEvery stack) })) := by
  simp only [exec, execHbmRefresh, hup, Bool.true_eq_false, if_false]

theorem exec_hbmScrubRead (hup : s.stackUp stack = true) (hready : s.reg .HBM_STATE_STATE stack = 2)
    (hscrub : s.reg .HBM_CTL_SCRUB_EN stack = 1) {atom : Nat} (hatom : atom < stackAtoms) (ecc : AtomEcc) :
    exec (.hbmScrubRead stack atom ecc) s =
      .next (s.readAtoms stack 0 (s.uncovered stack (atom * 64) 64) [ecc]).1 := by
  have hen : s.regB .HBM_CTL_SCRUB_EN stack = true := beq_iff_eq.mpr hscrub
  simp only [exec, execHbmScrubRead, hup, hready, hen, Nat.not_le.mpr hatom, Bool.true_eq_false, ne_eq, not_true_eq_false,
    or_self, if_false]

theorem exec_hbmHot (hin : stack.val < 2 * s.dies) (temp : Nat) :
    exec (.hbmHot stack temp) s = .next (s.stackTemp stack temp) := by
  simp only [exec, execHbmHot, Nat.not_le.mpr hin, if_false]

end

/-- The registers that a temperature reading may change (R174). -/
def tempFields : List Fld := [.HBM_STATE_TEMP, .HBM_STATE_HOT] ++ messageFields

/-- The sensor's reading is shown, and so is whether it is above 85 °C; the message of a crossing changes neither. -/
theorem State.stackTemp_shows (s : State) (h : Nat) {temp : Nat} (htemp : temp < 256) :
    (s.stackTemp h temp).reg .HBM_STATE_TEMP h = temp ∧
      (s.stackTemp h temp).reg .HBM_STATE_HOT h = (if 85 < temp then 1 else 0) := by
  unfold State.stackTemp
  extract_lets hot was t
  have hlo : min temp 255 % 2 ^ 8 = temp := by omega
  have hbit : hot % 2 ^ 1 = hot := by
    simp only [hot]
    split <;> rfl
  have ht : t.reg .HBM_STATE_TEMP h = temp ∧ t.reg .HBM_STATE_HOT h = hot := by
    simp only [t]
    rw [State.reg_setReg_field _ _ _ _ _ _ (by decide), State.reg_setReg_self, State.reg_setReg_self]
    exact ⟨hlo, hbit⟩
  split
  · exact ht
  · have hmsg := t.raise_regsBut (h / 2) (0x30 + h % 2)
    rw [hmsg.same _ _ (by decide), hmsg.same _ _ (by decide)]
    exact ht

theorem State.stackTemp_regsBut (s : State) (h temp : Nat) : s.RegsBut tempFields (s.stackTemp h temp) := by
  have hset (v w : Nat) : s.RegsBut tempFields ((s.setReg .HBM_STATE_TEMP h v).setReg .HBM_STATE_HOT h w) :=
    (RegsBut.refl.setReg ..).setReg ..
  exact .ite (hset ..) ((hset ..).andThen (State.raise_regsBut ..))

theorem State.stackTemp_stk (s : State) (h temp j : Nat) : (s.stackTemp h temp).stk j = s.stk j :=
  congrArg (fun m => Tbl.getD m j Stack.reset)
    (State.stackTemp_within (l := [.regs, .helm]) (.refl _ s) h temp (by decide) (by decide)).hbmc

/-! ## States of a stack (R181 to R185) -/

/-- The registers that a change of a stack's state may change. -/
def stackFields : List Fld := .HBM_STATE_STATE :: messageFields

section
variable (s : State) (h : Nat)

theorem State.hbmState_regsBut (v : Nat) : s.RegsBut stackFields (s.hbmState h v) :=
  .ite .refl ((RegsBut.refl.setReg ..).andThen (State.raise_regsBut ..))

/-- A state of three bits that a stack enters is the one it shows. -/
theorem State.hbmState_shows {v : Nat} (hv : v < 8) : (s.hbmState h v).reg .HBM_STATE_STATE h = v := by
  unfold State.hbmState
  split
  case isTrue heq => exact heq
  case isFalse =>
    rw [(State.raise_regsBut ..).same _ _ (by decide), State.reg_setReg_self]
    exact Nat.mod_eq_of_lt hv

/-- Self-refresh writes nothing but counts of the rows' accesses. -/
theorem State.selfRefresh_regsBut : s.RegsBut atomFields (s.selfRefresh h) :=
  RegsBut.trans (.foldl (fun _ _ => .ite ((RegsBut.refl.modStk ..).trans (State.touch_regsBut ..)) .refl) _)
    (RegsBut.refl.modStk ..)

end

/-! ## Rate changes (R181, R356) -/

theorem exec_hbmFreqReq_go {s : State} {src : Src} {stack : Fin 16} {v : BitVec 32}
    (hgrant : s.access src .HBM_FREQ_REQ stack 0 true = .granted) (hready : s.reg .HBM_STATE_STATE stack = 2)
    (hgo : natBits v.toNat 2 1 = 1) : exec (.hbmFreqReq src stack v) s =
      .next ((s.setReg .HBM_FREQ_REQ_FREQ stack (natBits v.toNat 0 2)).hbmState stack 3) := by
  simp only [exec, execHbmFreqReq, State.writeAs_granted hgrant, hgo, hready, BEq.rfl, ne_eq, not_true_eq_false, and_false,
    if_false, if_true]

/-- A rate loaded: the rate asked for, the other timing set, and the change counted (R181). -/
def State.rateLoaded (s : State) (h : Nat) : State :=
  ((s.setReg .HBM_STATE_FREQ h (s.reg .HBM_FREQ_REQ_FREQ h)).setReg .HBM_STATE_TSET h (s.reg .HBM_STATE_TSET h + 1)).bump
    .HBM_RETRAIN_STAT_FCHG h

theorem exec_hbmFreqChangeDone {s : State} {stack : Fin 16} (hstate : s.reg .HBM_STATE_STATE stack = 3)
    (hgate : s.gateOn (stack / 2) (stack % 2) = true) : exec (.hbmFreqChangeDone stack) s =
      .next (((s.selfRefresh stack).rateLoaded stack).afterChange stack) := by
  simp only [exec, execHbmFreqChangeDone, State.rateLoaded, hstate, hgate, Bool.true_eq_false, ne_eq, not_true_eq_false, or_self,
    if_false]

theorem State.afterChange_regsBut (s : State) (h : Nat) : s.RegsBut stackFields (s.afterChange h) :=
  .ite ((RegsBut.refl.modStk ..).trans (State.hbmState_regsBut ..)) (s.hbmState_regsBut h 2)

theorem State.afterChange_shows (s : State) (h : Nat) :
    (s.afterChange h).reg .HBM_STATE_STATE h = if (s.stk h).recoast then 4 else 2 := by
  unfold State.afterChange
  split
  · exact State.hbmState_shows _ _ (by decide)
  · exact State.hbmState_shows _ _ (by decide)

theorem State.rateLoaded_shows (s : State) (h : Nat) :
    (s.rateLoaded h).reg .HBM_STATE_FREQ h = s.reg .HBM_FREQ_REQ_FREQ h % 4 ∧
      (s.rateLoaded h).reg .HBM_STATE_TSET h = (s.reg .HBM_STATE_TSET h + 1) % 2 := by
  unfold State.rateLoaded
  rw [State.reg_bump_field _ _ _ _ _ (by decide), State.reg_bump_field _ _ _ _ _ (by decide),
    State.reg_setReg_field _ _ _ _ _ _ (by decide), State.reg_setReg_self, State.reg_setReg_self]
  exact ⟨rfl, rfl⟩

/-! ## What starts a retraining (R183) -/

section
variable {s : State} {stack : Fin 16}

theorem exec_hbmRetrainReq_go {src : Src} {v : BitVec 32} (hgrant : s.access src .HBM_RETRAIN_REQ stack 0 true = .granted)
    (hready : s.reg .HBM_STATE_STATE stack = 2) (hgo : v.toNat % 2 = 1) :
    exec (.hbmRetrainReq src stack v) s = .next (s.hbmState stack 4) := by
  simp only [exec, execHbmRetrainReq, State.writeAs_granted hgrant, hgo, hready, one_ne_zero, ne_eq, not_true_eq_false, if_false]

/-- A command parity error and a fifth CRC error of a write in a row are interface errors. -/
theorem exec_hbmRetrainTrigger_error (hup : s.stackUp stack = true) {c : RetrainCause}
    (hc : c = .commandParity ∨ ∃ n, 4 < n ∧ c = .writeCrc n) :
    exec (.hbmRetrainTrigger stack c) s = .next (s.interfaceError stack) := by
  rcases hc with rfl | ⟨n, hn, rfl⟩
  · simp only [exec, execHbmRetrainTrigger, hup, Bool.true_eq_false, if_false]
  · simp only [exec, execHbmRetrainTrigger, hup, hn, Bool.true_eq_false, if_false, if_true]

/-- A write that one of four retries has brought through is none. -/
theorem exec_hbmRetrainTrigger_retried {n : Nat} (hn : n ≤ 4) :
    exec (.hbmRetrainTrigger stack (.writeCrc n)) s = .next s := by
  simp only [exec, execHbmRetrainTrigger, Nat.not_lt.mpr hn, if_false, ite_self]

/-- The interface errors of a stack within the last millisecond. -/
def State.recentErrors (s : State) (h : Nat) : List Nat :=
  (s.stk h).errs.filter (fun u => decide ((s.timer + 2 ^ 48 - u) % 2 ^ 48 < 1000000))

/-- In READY an interface error that fifteen others of the last millisecond precede retrains the stack. -/
theorem State.interfaceError_shows {h : Nat} (hready : s.reg .HBM_STATE_STATE h = 2) :
    (s.interfaceError h).reg .HBM_STATE_STATE h = if 15 ≤ (s.recentErrors h).length then 4 else 2 := by
  unfold State.interfaceError
  extract_lets l t
  have hnow : t.reg .HBM_STATE_STATE h = 2 := hready
  have hlen : l.length = 16 ↔ 15 ≤ (s.recentErrors h).length := by
    simp only [l, State.recentErrors, List.length_cons, List.length_take]
    omega
  simp only [State.stackReady, hnow, decide_true, Bool.true_and, decide_eq_true_eq, hlen]
  split
  · exact t.hbmState_shows h (by decide)
  · exact hnow

/-- A temperature of 20 degrees from that of the last training retrains a READY stack. -/
theorem exec_hbmRetrainTrigger_temperature (hup : s.stackUp stack = true) (hready : s.reg .HBM_STATE_STATE stack = 2) {deg : Nat}
    (hfar : (s.stk stack).trainTemp + 20 ≤ deg ∨ deg + 20 ≤ (s.stk stack).trainTemp) :
    exec (.hbmRetrainTrigger stack (.temperature deg)) s = .next ((s.stackTemp stack deg).hbmState stack 4) := by
  have hstill : (s.stackTemp stack deg).reg .HBM_STATE_STATE stack = 2 :=
    ((State.stackTemp_regsBut ..).same _ _ (by decide)).trans hready
  simp [exec, execHbmRetrainTrigger, hup, State.stackReady, State.stackTemp_stk, hstill, hfar]

/-! ## The end of a retraining (R184, R185, R397) -/

/-- The rate after a training that succeeds: the next lower one after two failures (R182). -/
def State.retrainedRate (s : State) (h : Nat) : State :=
  if s.reg .HBM_STATE_FAILS h = 2 ∧ s.reg .HBM_STATE_FREQ h < 3 then
    (s.setReg .HBM_STATE_FREQ h (s.reg .HBM_STATE_FREQ h + 1)).bump .HBM_RETRAIN_STAT_FCHG h
  else s

/-- A success counted, at the temperature of now (R183, R184). -/
def State.retrainCounted (s : State) (h : Nat) : State :=
  ((s.setReg .HBM_STATE_FAILS h 0).bump .HBM_RETRAIN_STAT_RETRAINS h).modStk h
    (fun k => { k with trainTemp := s.reg .HBM_STATE_TEMP h })

/-- A failure counted (R185). -/
def State.failCounted (s : State) (h : Nat) : State :=
  (s.setReg .HBM_STATE_FAILS h (s.reg .HBM_STATE_FAILS h + 1)).bump .HBM_RETRAIN_STAT_FAILS h

/-- The registers that the end of a training may change. -/
def retrainFields : List Fld :=
  [.HBM_STATE_FREQ, .HBM_STATE_FAILS, .HBM_RETRAIN_STAT_FCHG, .HBM_RETRAIN_STAT_RETRAINS, .HBM_RETRAIN_STAT_FAILS]

theorem State.retrainedRate_regsBut (h : Nat) : s.RegsBut retrainFields (s.retrainedRate h) :=
  .ite ((RegsBut.refl.setReg ..).bump ..) .refl

theorem State.retrainCounted_regsBut (h : Nat) : s.RegsBut retrainFields (s.retrainCounted h) :=
  ((RegsBut.refl.setReg ..).bump ..).modStk ..

theorem State.failCounted_regsBut (h : Nat) : s.RegsBut retrainFields (s.failCounted h) :=
  (RegsBut.refl.setReg ..).bump ..

theorem State.retrainedRate_lower {h : Nat} (hfails : s.reg .HBM_STATE_FAILS h = 2) (hfreq : s.reg .HBM_STATE_FREQ h < 3) :
    (s.retrainedRate h).reg .HBM_STATE_FREQ h = s.reg .HBM_STATE_FREQ h + 1 := by
  rw [State.retrainedRate, if_pos ⟨hfails, hfreq⟩, State.reg_bump_field _ _ _ _ _ (by decide), State.reg_setReg_self]
  exact Nat.mod_eq_of_lt (Nat.succ_lt_succ hfreq)

theorem State.retrainCounted_shows (h : Nat) : (s.retrainCounted h).reg .HBM_STATE_FAILS h = 0 ∧
    (s.retrainCounted h).reg .HBM_STATE_FREQ h = s.reg .HBM_STATE_FREQ h := by
  unfold State.retrainCounted
  rw [State.modStk_reg, State.modStk_reg, State.reg_bump_field _ _ _ _ _ (by decide),
    State.reg_bump_field _ _ _ _ _ (by decide), State.reg_setReg_self, State.reg_setReg_field _ _ _ _ _ _ (by decide)]
  exact ⟨rfl, rfl⟩

theorem State.failCounted_shows {h : Nat} (hfails : s.reg .HBM_STATE_FAILS h < 3) :
    (s.failCounted h).reg .HBM_STATE_FAILS h = s.reg .HBM_STATE_FAILS h + 1 := by
  rw [State.failCounted, State.reg_bump_field _ _ _ _ _ (by decide), State.reg_setReg_self]
  exact Nat.mod_eq_of_lt (Nat.succ_lt_succ hfails)

/-- A stack whose training has succeeded, in READY again. -/
def State.retrained (s : State) (h : Nat) : State := ((s.retrainedRate h).retrainCounted h).hbmState h 2

theorem State.retrained_regsBut (h : Nat) : s.RegsBut (retrainFields ++ stackFields) (s.retrained h) :=
  (RegsBut.refl.andThen ((s.retrainedRate_regsBut h).trans (State.retrainCounted_regsBut ..))).andThen
    (State.hbmState_regsBut ..)

theorem State.retrained_shows (h : Nat) :
    (s.retrained h).reg .HBM_STATE_STATE h = 2 ∧ (s.retrained h).reg .HBM_STATE_FAILS h = 0 ∧
    (s.reg .HBM_STATE_FAILS h = 2 → s.reg .HBM_STATE_FREQ h < 3 →
      (s.retrained h).reg .HBM_STATE_FREQ h = s.reg .HBM_STATE_FREQ h + 1) := by
  obtain ⟨hfails, hfreq⟩ := (s.retrainedRate h).retrainCounted_shows h
  refine ⟨State.hbmState_shows _ _ (by decide), ?_, fun htwice hhigh => ?_⟩
  · rw [State.retrained, (State.hbmState_regsBut ..).same _ _ (by decide), hfails]
  · rw [State.retrained, (State.hbmState_regsBut ..).same _ _ (by decide), hfreq, State.retrainedRate_lower htwice hhigh]

theorem exec_hbmRetrainDone_ok (hstate : s.reg .HBM_STATE_STATE stack = 4) (hgate : s.gateOn (stack / 2) (stack % 2) = true)
    (hpkg : s.reg .PKG_STATE_STATE 0 ≠ 3) :
    exec (.hbmRetrainDone stack true) s = .next ((s.selfRefresh stack).retrained stack) := by
  have hsame : ((s.selfRefresh stack).retrained stack).reg .PKG_STATE_STATE 0 = s.reg .PKG_STATE_STATE 0 :=
    ((State.retrained_regsBut _).same _ _ (by decide)).trans ((s.selfRefresh_regsBut stack).same _ _ (by decide))
  have hno : ((s.selfRefresh stack).retrained stack).reg .PKG_STATE_STATE 0 ≠ 3 := hsame ▸ hpkg
  simp only [exec, execHbmRetrainDone, hstate, hgate, Bool.true_eq_false, ne_eq, not_true_eq_false, or_self, if_false, if_true]
  exact congrArg _ (if_neg hno)

/-- A training that fails is counted, and the third failure in a row loses the stack. -/
theorem exec_hbmRetrainDone_failed (hstate : s.reg .HBM_STATE_STATE stack = 4)
    (hgate : s.gateOn (stack / 2) (stack % 2) = true) : exec (.hbmRetrainDone stack false) s =
      .next (if 3 ≤ s.reg .HBM_STATE_FAILS stack + 1 then ((s.selfRefresh stack).failCounted stack).stackLost stack 0x20
        else (s.selfRefresh stack).failCounted stack) := by
  have hfails : (s.selfRefresh stack).reg .HBM_STATE_FAILS stack = s.reg .HBM_STATE_FAILS stack :=
    (s.selfRefresh_regsBut stack).same _ _ (by decide)
  simp only [exec, execHbmRetrainDone, State.failCounted, hstate, hgate, hfails, Bool.true_eq_false, Bool.false_eq_true, ne_eq,
    not_true_eq_false, or_self, if_false]

/-- The registers that a Chart entry may change (R397, R399). -/
def chartFields : List Fld := [.YLD_STAT_CHART_USED, .YLD_STAT_CHART_DROPPED]

theorem State.chartNote_regsBut (die : Nat) (e : ChartE) : s.RegsBut chartFields (s.chartNote die e) := by
  refine .ite (.ite .refl (.ite ?_ (.ite .refl ?_))) .refl
  · exact (RegsBut.refl.setReg .YLD_STAT_CHART_USED die _).of_regs_eq rfl
  · exact (RegsBut.refl.bump .YLD_STAT_CHART_DROPPED die).of_regs_eq rfl

/-- A stack that is lost is in state LOST, whether or not the Chart records it (R185). -/
theorem State.stackLost_shows (h cause : Nat) : (s.stackLost h cause).reg .HBM_STATE_STATE h = 5 := by
  rw [State.stackLost, (State.chartNote_regsBut ..).same _ _ (by decide)]
  exact State.hbmState_shows _ _ (by decide)

end

end Sys2Proof.Machine

open Sys2Proof Sys2Proof.Machine

/-! ## The obligations -/

/-- Settles O8, by induction on the bytes that are written. -/
theorem hbmReadAfterWrite : Obligations.HbmReadAfterWrite := fun _ a l b hwf => memGet_memPut hwf a l b

/-- Settles O26: a write that is served is taken from the controller's endpoint, and a read reaches no byte, core or context. -/
theorem hbmAccessesComplete : Obligations.HbmAccessesComplete := by
  unfold Obligations.HbmAccessesComplete
  intro h p ecc s haim hstands
  refine ⟨fun hcmd hserve => ?_, fun hcmd hserve => ?_⟩
  · rw [exec_memWrite_stack hcmd haim, State.atHub_served hstands (State.hbmMemWrite_serve hserve ecc)]
  · obtain ⟨t, ht⟩ := exec_completes (.memRead p ecc) s
    have hwithin := within_reach_of_exec ht
    exact ⟨t, ht, exec_leaves_hbm ht rfl, hwithin.cores (Area.not_mem_of_contains rfl),
      hwithin.ctxs (Area.not_mem_of_contains rfl)⟩

/-- Settles O27: each kind of work is one lemma on `exec`; what a drain does to a queue is `State.drainQueue_wq`. -/
theorem hbmBackgroundComplete : Obligations.HbmBackgroundComplete := by
  unfold Obligations.HbmBackgroundComplete
  intro stack pc bank s h
  refine ⟨fun hup hplaced => ?_, fun hup => ?_, rfl, rfl, fun atom hup hready hscrub hatom =>
    exec_hbmScrubRead hup hready hscrub hatom _, fun temp hin htemp => ⟨_, exec_hbmHot hin temp, s.stackTemp_shows h htemp⟩⟩
  · have ht := exec_hbmWriteQueueDrain hup pc
    exact ⟨_, ht, exec_leaves_hbm ht rfl, State.drainQueue_wq hplaced pc⟩
  · refine ⟨_, exec_hbmRefresh hup pc bank, rfl, ?_⟩
    rw [State.stk_modStk]
    exact ⟨Tbl.getD_set_self .., rfl, rfl⟩

/-- Settles O28: each event is one lemma on `exec`; the registers that a later part of an event leaves are those that its
`regsBut` does not name. -/
theorem hbmRateAndRetrainComplete : Obligations.HbmRateAndRetrainComplete := by
  unfold Obligations.HbmRateAndRetrainComplete
  intro d q stack v s
  dsimp only
  have hrefresh {f : Fld} (hf : f ∉ atomFields) : (s.selfRefresh stack).reg f stack = s.reg f stack :=
    (s.selfRefresh_regsBut stack).same f stack hf
  refine ⟨exec_hbmFreqReq_go, fun hstate hgate => ?_, exec_hbmRetrainReq_go, fun c hc hup hready => ?_,
    fun n => exec_hbmRetrainTrigger_retried, fun deg hup hready hfar =>
      ⟨_, exec_hbmRetrainTrigger_temperature hup hready hfar, State.hbmState_shows _ _ (by decide)⟩,
    fun hstate hgate hpkg => ?_, fun hstate hgate hfails => ?_, fun hstate hgate hfails => ?_⟩
  · have ht := exec_hbmFreqChangeDone hstate hgate
    refine ⟨_, ht, ?_, ?_, ?_, exec_leaves_hbm ht rfl⟩
    · rw [State.afterChange_shows]
      exact congrArg (fun b : Bool => if b then 4 else 2) (s.selfRefresh_recoast stack)
    · rw [(State.afterChange_regsBut ..).same _ _ (by decide), (State.rateLoaded_shows ..).1, hrefresh (by decide)]
    · rw [(State.afterChange_regsBut ..).same _ _ (by decide), (State.rateLoaded_shows ..).2, hrefresh (by decide)]
  · have ht := exec_hbmRetrainTrigger_error hup hc
    exact ⟨_, ht, exec_leaves_hbm ht rfl, State.interfaceError_shows hready⟩
  · have ht := exec_hbmRetrainDone_ok hstate hgate hpkg
    obtain ⟨hready, hnone, hlower⟩ := (s.selfRefresh stack).retrained_shows stack
    rw [hrefresh (by decide), hrefresh (by decide)] at hlower
    exact ⟨_, ht, hready, hnone, exec_leaves_hbm ht rfl, hlower⟩
  · rw [exec_hbmRetrainDone_failed hstate hgate, if_neg (by omega)]
    refine ⟨_, rfl, ?_, ?_⟩
    · rw [(State.failCounted_regsBut _).same _ _ (by decide), hrefresh (by decide), hstate]
    · rw [State.failCounted_shows (by rw [hrefresh (by decide)]; omega), hrefresh (by decide)]
  · rw [exec_hbmRetrainDone_failed hstate hgate, if_pos (by omega)]
    exact ⟨_, rfl, State.stackLost_shows ..⟩
end

section
/-! SUPPORT and PROOFS for 08_transfers.md and 18_sallan_links.md: streams and windows, descriptors that begin a transfer, transfers in
service, translations and the host's side, Sallan flits and the gateways. -/

namespace Sys2Proof.Machine

/-! ## Streams and windows (R203 to R205, R251 to R253) -/

/-- An event of a context changes of it at most the messages that wait and those that are out (R222, R230, R246). -/
theorem State.event_ctx (s : State) (f : Fld) (x : Nat) :
    ∃ m p, (s.event f x).ctx x = { s.ctx x with msgOut := m, pend := p } := by
  unfold State.event State.evMessage State.holdMsg State.ctxVector
  split_ifs
  · exact ⟨_, _, rfl⟩
  · exact ⟨_, _, rfl⟩
  · exact ⟨_, _, State.ctx_modCtx_self ..⟩
  · split
    · exact ⟨_, _, rfl⟩
    · split_ifs
      · exact ⟨_, _, State.msix_ctx ..⟩
      · exact ⟨_, _, (State.msix_ctx ..).trans (State.ctx_modCtx_self ..)⟩

/-- A descriptor that begins leaves the streams of its context. -/
@[simp] theorem State.begun_stream (s : State) (x i n : Nat) : (s.begun x i).stream x n = s.stream x n := by
  have hmissed (t : State) : ((t.missed x).ctx x).streams = (t.ctx x).streams := by
    obtain ⟨m, p, h⟩ := State.event_ctx (t.bump .XFR_CTX_MISS_MISSES x) .CTX_EVENT_DEADLINE x
    rw [State.missed, h]
    rfl
  have hmiss (c : Copy) : ((s.missCopy x c).ctx x).streams = (s.ctx x).streams := by
    unfold State.missCopy
    split_ifs
    · rfl
    · rw [hmissed, State.ctx_modCtx_self]
  unfold State.begun State.stream
  rw [State.ctx_modCtx_self]
  cases (s.ctx x).copy? i with
  | none => rfl
  | some c => exact congrArg (Tbl.get? · n) (hmiss c)

section
variable {s : State} {x i op : Nat} {c : Copy}

theorem State.Begins.begun (h : s.Begins x i op c) : ∃ k, ((s.begun x i).ctx x).copy? i = some k ∧ c.Same k := by
  obtain ⟨j, hj, -⟩ := State.missCopy_copy? h.fetched
  have hfind : ((s.missCopy x c).ctx x).copies.find? (fun k => k.id == i) = some j := hj
  have hk : ((s.begun x i).ctx x).copy? i = some { j with begun := true } := by
    rw [State.begun, h.fetched, Option.map_some, Option.getD_some, State.ctx_modCtx_self, Ctx.copy?, find?_mapIf, hfind,
      Option.map_some, if_pos (beq_iff_eq.mpr (Ctx.copy?_id hj))]
    exact fun _ => rfl
  exact ⟨_, hk, State.begun_copy? h.fetched hk⟩

/-- A descriptor whose fields choose the row acts as one that begins. -/
theorem State.Begins.beginsIf (h : s.Begins x i op c) {p : BitVec 512 → Bool} (hp : p c.bytes = true)
    (act : Copy → State → State) : ∃ k, c.Same k ∧ s.beginsIf x i op p act = act k (s.begun x i) := by
  obtain ⟨k, hk, hsame⟩ := h.begun
  refine ⟨k, hsame, ?_⟩
  rw [← h.begins hk act]
  simp only [State.beginsIf, h.fetched, hp, if_true]

end
/-! ### Streams -/

section
variable {s : State} {x : Fin 1024} {i : Nat} {c : Copy} {q : Stream}

theorem exec_streamCreate_new (h : s.Begins x i 0x0C c) (hsop : dSop c.bytes = 0) (hmember : dMember c.bytes = false)
    (hfree : s.stream x (dStream c.bytes) = none) : exec (.streamCreate x i) s =
      .next (((s.begun x i).setStream x (dStream c.bytes) (Stream.create i c.bytes)).complete x i 0 0) := by
  obtain ⟨k, hsame, hact⟩ := h.beginsIf (p := fun d => dSop d == 0 || decide (3 ≤ dSop d)) (by simp [hsop]) _
  rw [exec, execStreamCreate, hact]
  simp [hsame.bytes, hsop, hmember, hfree]

theorem exec_streamCreate_taken (h : s.Begins x i 0x0C c) (hsop : dSop c.bytes = 0)
    (hq : s.stream x (dStream c.bytes) = some q) :
    exec (.streamCreate x i) s = .next ((s.begun x i).complete x i 0x0001 0) := by
  obtain ⟨k, hsame, hact⟩ := h.beginsIf (p := fun d => dSop d == 0 || decide (3 ≤ dSop d)) (by simp [hsop]) _
  rw [exec, execStreamCreate, hact]
  simp [hsame.bytes, hq]

theorem exec_streamDestroy_standing (h : s.Begins x i 0x0C c) (hsop : dSop c.bytes = 1) (hmember : dMember c.bytes = false)
    (hq : s.stream x (dStream c.bytes) = some q) : exec (.streamDestroy x i) s = .next
      (((s.begun x i).modCtx x (fun t => { t with streams := Tbl.erase t.streams (dStream c.bytes) })).complete x i 0
        (q.queued - (if q.inService.isSome then 1 else 0))) := by
  obtain ⟨k, hsame, hact⟩ := h.beginsIf (p := fun d => dSop d == 1) (by simp [hsop]) _
  rw [exec, execStreamDestroy, hact]
  simp only [hsame.bytes, hmember, State.begun_stream, hq, Bool.false_eq_true, if_false]

theorem exec_streamDestroy_unknown (h : s.Begins x i 0x0C c) (hsop : dSop c.bytes = 1) (hmember : dMember c.bytes = false)
    (hfree : s.stream x (dStream c.bytes) = none) :
    exec (.streamDestroy x i) s = .next ((s.begun x i).complete x i 0 0) := by
  obtain ⟨k, hsame, hact⟩ := h.beginsIf (p := fun d => dSop d == 1) (by simp [hsop]) _
  rw [exec, execStreamDestroy, hact]
  simp only [hsame.bytes, hmember, State.begun_stream, hfree, Bool.false_eq_true, if_false]

/-- Arms that the limit of 255 leaves room for are all accepted (R252). -/
theorem State.offer_room {n k : Nat} (h : q.queued + k ≤ 255) (s : State) (x : Nat) :
    s.offer x n k q = s.setStream x n { q with queued := q.queued + k } := by
  have hall : min k (255 - q.queued) = k := Nat.min_eq_left (by omega)
  simp only [State.offer, hall, lt_irrefl, if_false]

theorem exec_streamArm_offered (h : s.Begins x i 0x0C c) (hsop : dSop c.bytes = 2) (hmember : dMember c.bytes = false)
    (hq : s.stream x (dStream c.bytes) = some q) (hsome : 0 < dF c.bytes 14 1) (hroom : q.queued + dF c.bytes 14 1 ≤ 255) :
    exec (.streamArm x i) s = .next (((s.begun x i).setStream x (dStream c.bytes)
      { q with queued := q.queued + dF c.bytes 14 1 }).complete x i 0 0) := by
  obtain ⟨k, hsame, hact⟩ := h.beginsIf (p := fun d => dSop d == 2) (by simp [hsop]) _
  rw [exec, execStreamArm, hact]
  simp only [hsame.bytes, State.begun_stream, hq, hmember, State.offer_room hroom, Nat.ne_of_gt hsome, Bool.false_eq_true,
    if_false]

theorem exec_streamArm_unknown (h : s.Begins x i 0x0C c) (hsop : dSop c.bytes = 2)
    (hfree : s.stream x (dStream c.bytes) = none) :
    exec (.streamArm x i) s = .next ((s.begun x i).complete x i 0x0001 0) := by
  obtain ⟨k, hsame, hact⟩ := h.beginsIf (p := fun d => dSop d == 2) (by simp [hsop]) _
  rw [exec, execStreamArm, hact]
  simp only [hsame.bytes, State.begun_stream, hfree]

/-- An arm in its turn becomes a transfer, or completes where its ranges fail (R253). -/
theorem exec_streamArmService {n : Fin 64} (hq : s.stream x n = some q) (hqueued : q.queued ≠ 0) (hidle : q.inService = none)
    (hruns : s.cst x = 2) (hbusy : (s.ctx x).busy = .none) (hroom : s.heldFull x = false) {src dst : EndSpec}
    (hsrc : src = armSpec q.src q.sadv (q.served % q.wrap)) (hdst : dst = armSpec q.dst q.dadv (q.served % q.wrap)) :
    exec (.streamArmService x n) s = .next (if s.xferOk x src dst (oneRun q.len0) then
        (s.setStream x n { q with inService := some s.nextId }).startXfer x (.arm q.id q.served q.seq q.flags)
          (s.pickEngine x (src.kind == 0 || dst.kind == 0) dst) src dst (.shape (oneRun q.len0)) [0, 0, 0, 0] s.timer
          (if natBits q.flags 2 1 = 1 then q.deadline else 0) false none
      else s.armDone x s.nextId q.id q.served q.seq q.flags 0x0102) := by
  simp only [exec, execStreamArmService, hq, hqueued, hidle, hruns, hbusy, hroom, ← hsrc, ← hdst, Option.isSome_none,
    Bool.false_eq_true, ne_eq, not_true_eq_false, or_self, if_false]
  cases s.xferOk x src dst (oneRun q.len0)
  · rfl
  · rfl

/-! ### Windows -/

section
variable (hagreed : s.agreed 0 3 = true) (h : s.Begins x i 0x08 c)
include hagreed h

theorem exec_windowOpen_free {w : Nat} (hwop : dF c.bytes 10 1 = 0)
    (hok : (s.begun x i).windowOk x (dF c.bytes 16 8 % 2 ^ 48) (dF c.bytes 24 4 % 2 ^ 28 * 4096) = true)
    (hnew : (s.begun x i).windowOf x (dF c.bytes 8 2 % 4096) = none)
    (hfree : (List.range windowCount).find? (fun w => !(s.begun x i).regB .XFR_WIN_VALID w) = some w) :
    exec (.windowOpen x i) s = .next (((s.begun x i).putWindow w x c.bytes).complete x i 0 0) := by
  obtain ⟨k, hsame, hact⟩ := h.beginsIf (p := fun d => dF d 10 1 != 1) (by simp [hwop]) _
  have hopens : ¬2 ≤ dF c.bytes 10 1 := by omega
  rw [exec, execWindowOpen, hact]
  simp only [hagreed, hsame.bytes, hopens, hok, hnew, hfree, Bool.not_true, Bool.false_eq_true, if_false]

theorem exec_windowOpen_refused (hwop : dF c.bytes 10 1 = 0)
    (hbad : (s.begun x i).windowOk x (dF c.bytes 16 8 % 2 ^ 48) (dF c.bytes 24 4 % 2 ^ 28 * 4096) = false) :
    exec (.windowOpen x i) s = .next ((s.begun x i).complete x i 0x0102 0) := by
  obtain ⟨k, hsame, hact⟩ := h.beginsIf (p := fun d => dF d 10 1 != 1) (by simp [hwop]) _
  have hopens : ¬2 ≤ dF c.bytes 10 1 := by omega
  rw [exec, execWindowOpen, hact]
  simp only [hagreed, hsame.bytes, hopens, hbad, Bool.not_true, Bool.not_false, Bool.false_eq_true, if_false, if_true]

theorem exec_windowClose_open {w : Nat} (hwop : dF c.bytes 10 1 = 1)
    (hw : (s.begun x i).windowOf x (dF c.bytes 8 2 % 4096) = some w) :
    exec (.windowClose x i) s = .next (((s.begun x i).dropWindow w).complete x i 0 0) := by
  obtain ⟨k, hsame, hact⟩ := h.beginsIf (p := fun d => dF d 10 1 == 1) (by simp [hwop]) _
  rw [exec, execWindowClose, hact]
  simp [hagreed, hsame.bytes, hw]

theorem exec_windowClose_unknown (hwop : dF c.bytes 10 1 = 1)
    (hnone : (s.begun x i).windowOf x (dF c.bytes 8 2 % 4096) = none) :
    exec (.windowClose x i) s = .next ((s.begun x i).complete x i 0 0) := by
  obtain ⟨k, hsame, hact⟩ := h.beginsIf (p := fun d => dF d 10 1 == 1) (by simp [hwop]) _
  rw [exec, execWindowClose, hact]
  simp [hagreed, hsame.bytes, hnone]

end

end

/-! ## XFER, RESHARD and REDUCE begin (R190, R192, R208, R211, R242) -/

section
variable {s t : State} {x i : Nat} {d : EndSpec} {n : Nat}

/-- A descriptor that can read at once goes on where its translation has been used. -/
theorem State.withRead_reads (hreads : s.reads x d n = true) (again act : State → State) :
    s.withRead x i d n again act = act (s.readAs x i d) := by
  unfold State.reads at hreads
  unfold State.withRead State.readAs
  split
  case isTrue hhost =>
    rw [if_pos hhost, Bool.and_eq_true, Bool.not_eq_true', Option.isNone_iff_eq_none] at hreads
    obtain ⟨hlink, hpages⟩ := hreads
    simp only [State.withHost, hlink, hpages, Bool.false_eq_true, if_false]
  case isFalse hdev =>
    rw [if_neg hdev, Bool.not_eq_true'] at hreads
    simp only [hreads, Bool.false_eq_true, if_false]

theorem State.withBytes_reads {seen : FlagSeen} {rank : Nat} {l : List Byte} (hreads : s.reads x d n = true)
    (hfetch : (s.readAs x i d).fetchBytes x d d.addr n seen = (t, rank, l)) (hheld : rank ≠ heldRank) (again : State → State)
    (act : State → Nat → List Byte → State) : s.withBytes x i d n seen again act = act t rank l := by
  simp only [State.withBytes, State.withRead_reads hreads, hfetch, hheld, if_false]

end

section
variable {s : State} {x : Fin 1024} {i : Nat} {c k : Copy} {ext : FlagSeen} {src dst : EndSpec}

/-- An XFER whose shape is known is put into service where its ranges pass (R192). -/
theorem State.xferBegins_eq {t : State} {sh : Shape} (hid : k.id = i) (hbytes : k.bytes = c.bytes) (hsrc : src = dSpec c.bytes 16)
    (hdst : dst = dSpec c.bytes 32) (x : Nat) (host : Bool) : t.xferBegins x k sh host =
      if t.xferOk x src dst sh then
        t.startXfer x (.desc i) (t.pickEngine x (src.kind == 0 || dst.kind == 0 || host) dst) src dst (.shape sh)
          (if sh.cnt.any (· == 0) then [] else [0, 0, 0, 0]) (t.eligAt k) (realTime c.bytes) k.late k.stagesIn
      else t.complete x i 0x0102 0 := by
  subst hid hsrc hdst
  simp only [State.xferBegins, hbytes]
  cases t.xferOk x (dSpec c.bytes 16) (dSpec c.bytes 32) sh
  · rfl
  · rfl

theorem exec_xfer_run (h : s.Begins x i 0x01 c) (hk : ((s.begun x i).ctx x).copy? i = some k)
    (hmember : ¬(dMember c.bytes = true ∧ noMemberDst (dSpec c.bytes 32) = true)) (hrun : dF c.bytes 12 1 % 2 = 0) :
    exec (.xfer x i ext) s = .next ((s.begun x i).xferBegins x k (oneRun (dF c.bytes 48 8)) false) := by
  simp only [exec, execXfer, h.begins hk, (State.begun_copy? h.fetched hk).bytes, hmember, hrun, if_false, if_true]

theorem exec_xfer_shape {t : State} {l : List Byte} {m : EndSpec} (h : s.Begins x i 0x01 c)
    (hk : ((s.begun x i).ctx x).copy? i = some k)
    (hmember : ¬(dMember c.bytes = true ∧ noMemberDst (dSpec c.bytes 32) = true)) (hblock : dF c.bytes 12 1 % 2 = 1)
    (hm : m = shapeSpec c.bytes) (hplace : ¬(m.kind = 1 ∧ 2 ^ 44 ≤ m.addr)) (hreads : (s.begun x i).reads x m 128 = true)
    (hfetch : ((s.begun x i).readAs x i m).fetchBytes x m m.addr 128 ext = (t, 7, l)) :
    exec (.xfer x i ext) s = .next (t.xferBegins x k (shapeOf l) (m.kind == 0)) := by
  have hne : ¬dF c.bytes 12 1 % 2 = 0 := by omega
  simp only [exec, execXfer, h.begins hk, (State.begun_copy? h.fetched hk).bytes, hmember, hne, ← hm, hplace,
    State.withBytes_reads hreads hfetch (by decide), if_false, ne_eq, not_true_eq_false]

theorem exec_reshard {t u : State} {head rest : List Byte} {n : Nat} (h : s.Begins x i 0x0B c)
    (hk : ((s.begun x i).ctx x).copy? i = some k) (hsrc : src = dSpec c.bytes 16) (hkind : notHostDev src = false)
    (hhead : (s.begun x i).rangeOk x src 16 = true) (hreads : (s.begun x i).reads x src 16 = true)
    (hfetch : ((s.begun x i).readAs x i src).fetchBytes x src src.addr 16 ext = (t, 7, head)) (hn : n = bF head 0 4)
    (hsome : 0 < n) (hmost : n ≤ 65536) (hrange : t.rangeOk x src (16 + 32 * n) = true)
    (hreads' : t.reads x src (16 + 32 * n) = true)
    (hfetch' : (t.readAs x i src).fetchBytes x src src.addr (16 + 32 * n) { ext with dev := seenPast ext.dev src.addr 16 } =
      (u, 7, rest)) : exec (.reshard x i ext) s =
        .next (u.reshardBegins x k (src.kind == 0) ((chunks 32 n (rest.drop 16)).map reRecOf)) := by
  simp only [exec, execReshard, h.begins hk, (State.begun_copy? h.fetched hk).bytes, ← hsrc, hkind, hhead,
    State.withBytes_reads hreads hfetch (by decide), ← hn, Nat.ne_of_gt hsome, Nat.not_lt.mpr hmost, hrange,
    State.withBytes_reads hreads' hfetch' (by decide), Bool.not_true, Bool.false_eq_true, or_self, ne_eq, not_true_eq_false,
    if_false]

theorem exec_reduce {t : State} {l : List Byte} (h : s.Begins x i 0x0A c) (hk : ((s.begun x i).ctx x).copy? i = some k)
    (hsrc : src = dSpec c.bytes 16) (hsound : badReduce c.bytes = false)
    (hmember : ¬(dMember c.bytes = true ∧ noMemberDst (dSpec c.bytes 32) = true))
    (hrange : (s.begun x i).rangeOk x src (16 * dF c.bytes 52 2) = true)
    (hreads : (s.begun x i).reads x src (16 * dF c.bytes 52 2) = true)
    (hfetch : ((s.begun x i).readAs x i src).fetchBytes x src src.addr (16 * dF c.bytes 52 2) ext = (t, 7, l)) :
    exec (.reduce x i ext) s =
      .next (t.reduceLinks x k ((chunks 16 (dF c.bytes 52 2) l).map (fun e => specOf (bytesNat e)))) := by
  simp only [exec, execReduce, h.begins hk, (State.begun_copy? h.fetched hk).bytes, ← hsrc, hsound, hmember, hrange,
    State.withBytes_reads hreads hfetch (by decide), Bool.not_true, Bool.false_eq_true, or_self, ne_eq, not_true_eq_false,
    if_false]

/-- A REDUCE whose links and destination pass is put into service (R208, R209). -/
theorem State.reduceLinks_ok {t : State} {links : List EndSpec} {op : RedOp} {out : Nat} (hid : k.id = i)
    (hbytes : k.bytes = c.bytes) (hsrc : src = dSpec c.bytes 16) (hdst : dst = dSpec c.bytes 32)
    (hop : op = ⟨dF c.bytes 13 1, dF c.bytes 14 1, dF c.bytes 12 1 % 4, dF c.bytes 48 4, natBits (dF c.bytes 12 1) 2 1 == 1⟩)
    (hout : out = op.len / elemBytes op.lf * elemBytes op.rf) (x : Nat)
    (hlinks : ∀ l ∈ links, t.rangeOk x l op.len = true ∧ overlap l op.len dst out = false) (hrange : t.rangeOk x dst out = true) :
    t.reduceLinks x k links = t.startXfer x (.desc i)
      (t.pickEngine x (dst.kind == 0 || src.kind == 0 || links.any (fun k => k.kind == 0)) dst) (links.headD dst) dst
      (.reduce op (links.map (fun k => (k, t.egressOf k))) []) [] (t.eligAt k) (realTime c.bytes) k.late k.stagesIn := by
  have hall : links.all (fun l => t.rangeOk x l op.len && !overlap l op.len dst out) = true :=
    List.all_eq_true.mpr fun l hl => by simp only [(hlinks l hl).1, (hlinks l hl).2, Bool.not_false, Bool.and_self]
  subst hop hout
  dsimp only at hall hrange
  simp only [State.reduceLinks, hbytes, hid, ← hsrc, ← hdst, hall, hrange, Bool.not_true, Bool.or_self, Bool.false_eq_true,
    if_false]

end

/-! ## Transfers in service (R193, R194, R208, R214, R242) -/

theorem State.xfer?_id {s : State} {n : Nat} {u : Xfer} (h : s.xfer? n = some u) : u.id = n := by
  simpa using List.find?_some h

/-- A change that keeps the number of a transfer is found under that number. -/
theorem State.xfer?_modXfer {s : State} {n : Nat} {u : Xfer} (h : s.xfer? n = some u) {f : Xfer → Xfer}
    (hf : ∀ v, (f v).id = v.id) : (s.modXfer n f).xfer? n = some (f u) := by
  have hu : s.xfers.find? (fun u => u.id == n) = some u := h
  rw [State.xfer?, State.modXfer, find?_mapIf, hu, Option.map_some, if_pos (beq_iff_eq.mpr (State.xfer?_id h))]
  exact fun v => by rw [hf]

section
variable {s : State} {n i : Nat} {u : Xfer}

/-- A transfer that no page fault holds asks for no page. -/
theorem State.priXfer_of_free (h : s.xfer? n = some u) (hfree : u.hold = .none) : s.priXfer n = s := by
  simp only [State.priXfer, h, hfree]

/-- A transfer whose REDUCE has read its last link (R208). -/
def Xfer.result (u : Xfer) (l : List Byte) : Xfer :=
  { u with plan := .result l, src := { u.dst with kind := 1 }, egrS := none, ix := [], i0 := 0 }

theorem State.settle_reduced {op : RedOp} {got : List Byte} {r : List Byte × List NFlags}
    (hr : r = reduceAll op.lf op.rf op.how op.len op.ovf (chunks op.len (got.length + 1) got)) (h : s.xfer? n = some u)
    (hplan : u.plan = .reduce op [] got) (hgood : u.failed = false) (hfree : u.hold = .none) (hnone : u.pieces = []) :
    s.settle n = (s.modXfer n (·.result r.1)).redStat (u.half / 2) r.2 := by
  have hreduced : s.reduced n = (s.modXfer n (·.result r.1)).redStat (u.half / 2) r.2 := by
    simp only [State.reduced, h, hplan, hgood, hnone, ← hr, List.isEmpty_nil, Bool.not_true, Bool.or_self, Bool.false_eq_true,
      if_false]
    rfl
  have hx : ((s.modXfer n (·.result r.1)).redStat (u.half / 2) r.2).xfer? n = some (u.result r.1) :=
    State.xfer?_modXfer h fun _ => rfl
  simp only [State.settle, h, hnone, List.length_nil, State.drain, hreduced]
  exact State.priXfer_of_free hx hfree

theorem exec_pieceIssue_reduced {op : RedOp} {got : List Byte} (h : s.xfer? n = some u) (hplan : u.plan = .reduce op [] got)
    (hgood : u.failed = false) (hnone : u.pieces = []) (hout : u.hostOut = []) :
    exec (.pieceIssue n) s = .next (s.settle n) := by
  have hrecord : u.nextRecord = u := by simp only [Xfer.nextRecord, hplan]
  have hmay : s.mayIssue u = false := by
    simp [State.mayIssue, Xfer.again, Xfer.againRead, hrecord, Xfer.cut, hplan, hnone, hout]
  simp only [exec, execPieceIssue, h, hrecord, hgood, hmay, Bool.not_false, Bool.and_true, Bool.true_or, Bool.false_eq_true,
    if_false, if_true]

theorem exec_pieceIssue_piece {k : Cut} {r : State} (hr : r = s.modXfer n (fun _ => u.nextRecord)) (h : s.xfer? n = some u)
    (hgood : u.nextRecord.failed = false) (hmay : s.mayIssue u = true) (hturn : s.turnOf u = true) (hlink : s.linkOk u = true)
    (hroom : s.outstanding u.half u.eng < 256) (hagain : u.again = none) (hread : u.againRead = none)
    (hcut : u.nextRecord.cut = some k) (hstage : u.nextRecord.sides.1 = true ∨ r.stageWaits u.nextRecord k.dst = false)
    (hpage : r.missingPage u.nextRecord k = none) :
    exec (.pieceIssue n) s = .next ((r.issuePiece u.nextRecord k).settle n) := by
  subst hr
  have hgo : (!u.nextRecord.sides.1 && (s.modXfer n (fun _ => u.nextRecord)).stageWaits u.nextRecord k.dst) = false := by
    rcases hstage with hside | hwaits
    · rw [hside]; rfl
    · rw [hwaits, Bool.and_false]
  simp only [exec, execPieceIssue, h, hgood, hmay, hturn, hlink, Nat.not_le.mpr hroom, hagain, hread, hcut, hgo, hpage,
    Bool.false_and, Bool.not_true, Bool.or_self, decide_false, Bool.false_eq_true, if_false]

/-- A transfer of a descriptor that has moved all its bytes, in time, completes it (R194, R243). -/
theorem exec_transferComplete_ok {dev : DevSeen} (h : s.xfer? n = some u) (hrole : u.role = .desc i) (hover : u.over = true)
    (hrank : u.rank = 7) (hlate : u.late = false) (hintime : s.passed u.t0 u.deadline = false)
    (hroom : s.heldFull u.ctx = false) (hlive : s.pausedCtx u.ctx = false) (hnoflag : s.signalled u = none) :
    exec (.transferComplete ⟨n, dev⟩) s =
      .next (({ s with xfers := s.xfers.filter (fun v => v.id != u.id) } : State).complete u.ctx i 0 0) := by
  have hwake : s.wakeFor u dev = s := by simp only [State.wakeFor, hnoflag, ite_self]
  have hmiss : s.missXfer u = s := by
    simp only [State.missXfer, hlate, hintime, Bool.not_false, Bool.or_true, if_true]
  have hstatus : xferStatus 7 = 0 := rfl
  simp only [exec, execTransferComplete, h, hover, hwake, hroom, hlive, hmiss, Option.getD_some, State.finishXfer, hlate,
    hrank, hrole, hstatus, Bool.not_true, Bool.or_self, Bool.false_eq_true, if_false]
  rfl

theorem exec_deadlineMiss_xfer (h : s.xfer? n = some u) (hlate : u.late = false) (hpassed : s.passed u.t0 u.deadline = true) :
    exec (.deadlineMiss n) s = .next ((s.modXfer u.id (fun v => { v with late := true })).missed u.ctx) := by
  simp only [exec, execDeadlineMiss, h, State.missXfer, hlate, hpassed, Bool.not_true, Bool.or_self, Bool.false_eq_true, if_false]

end

/-! ## Translations of the ports (R197, R201, R434) -/

@[simp] theorem State.port_bump (s : State) (f : Fld) (i p : Nat) : (s.bump f i).port p = s.port p := rfl

@[simp] theorem State.port_send (s : State) (o : Out) (p : Nat) : (s.send o).port p = s.port p := rfl

/-- Every translation that a port's cache holds in `s`, it holds in `t`. -/
structure State.KeepsTr (s t : State) : Prop where
  kept : ∀ p, (s.port p).atc ⊆ (t.port p).atc

namespace State.KeepsTr
variable {s t u : State}

theorem refl : s.KeepsTr s := ⟨fun _ => List.Subset.refl _⟩

theorem trans (h : s.KeepsTr t) (h' : t.KeepsTr u) : s.KeepsTr u := ⟨fun p => List.Subset.trans (h.kept p) (h'.kept p)⟩

theorem of_ports (h : t.ports = s.ports) : s.KeepsTr t := ⟨fun p => by rw [State.port, State.port, h]; exact List.Subset.refl _⟩

theorem setReg (h : s.KeepsTr t) (f : Fld) (i v : Nat) : s.KeepsTr (t.setReg f i v) := h.trans (of_ports rfl)

theorem bump (h : s.KeepsTr t) (f : Fld) (i : Nat) : s.KeepsTr (t.bump f i) := h.trans (of_ports rfl)

theorem send (h : s.KeepsTr t) (o : Out) : s.KeepsTr (t.send o) := h.trans (of_ports rfl)

theorem modCtx (h : s.KeepsTr t) (x : Nat) (f : Ctx → Ctx) : s.KeepsTr (t.modCtx x f) := h.trans (of_ports rfl)

theorem modXfer (h : s.KeepsTr t) (n : Nat) (f : Xfer → Xfer) : s.KeepsTr (t.modXfer n f) := h.trans (of_ports rfl)

theorem modPort (h : s.KeepsTr t) (p : Nat) {f : PortS → PortS} (hf : (t.port p).atc ⊆ (f (t.port p)).atc) :
    s.KeepsTr (t.modPort p f) := by
  refine h.trans ⟨fun q => ?_⟩
  by_cases hq : q = p
  · rw [hq, State.port_modPort_self]
    exact hf
  · rw [State.port_modPort_other _ _ _ _ hq]
    exact List.Subset.refl _

theorem ite {c : Prop} [Decidable c] (h : s.KeepsTr t) (h' : s.KeepsTr u) : s.KeepsTr (if c then t else u) := by
  split <;> assumption

theorem foldl {α : Type} {g : State → α → State} (hg : ∀ (s : State) a, s.KeepsTr (g s a)) (l : List α) :
    s.KeepsTr (l.foldl g s) := by
  induction l generalizing s with
  | nil => exact refl
  | cons a l ih => exact (hg s a).trans ih

end State.KeepsTr

section
open State (KeepsTr)

/-! ### Messages and entries of a context -/

section
variable (s : State) (x : Nat)

theorem State.msix_keepsTr (p : Nat) (vf : Option Nat) (vec : Nat) : s.KeepsTr (s.msix p vf vec) := by
  refine .ite (KeepsTr.refl.modPort p ?_) (KeepsTr.refl.send _)
  unfold PortS.note
  split <;> exact List.Subset.refl _

theorem State.ctxVector_keepsTr (vec : Nat) (cq : Bool) : s.KeepsTr (s.ctxVector x vec cq) := by
  unfold State.ctxVector
  split
  · exact .refl
  · exact .ite (s.msix_keepsTr ..) ((KeepsTr.refl.modCtx ..).trans (State.msix_keepsTr ..))

theorem State.evMessage_keepsTr : s.KeepsTr (s.evMessage x) :=
  .ite (KeepsTr.refl.setReg ..) (.ite (KeepsTr.refl.modCtx ..) (s.ctxVector_keepsTr ..))

theorem State.event_keepsTr (f : Fld) : s.KeepsTr (s.event f x) :=
  .ite .refl ((KeepsTr.refl.setReg ..).trans (State.evMessage_keepsTr ..))

theorem State.cqMessage_keepsTr : s.KeepsTr (s.cqMessage x) :=
  .ite .refl (.ite (s.event_keepsTr ..)
    (.ite ((KeepsTr.refl.modCtx ..).modCtx ..) ((KeepsTr.refl.modCtx ..).trans (State.ctxVector_keepsTr ..))))

/-- A translation used moves to the end of the cache (R434). -/
theorem State.useTr_keepsTr (page : Nat) (pasid : Option Nat) : s.KeepsTr (s.useTr x page pasid) := by
  refine .ite (KeepsTr.refl.modPort _ fun e he => ?_) .refl
  rw [List.mem_append, List.mem_filter, List.mem_filter]
  cases e.is page pasid (s.fnOf x)
  · exact .inl ⟨he, rfl⟩
  · exact .inr ⟨he, rfl⟩

theorem State.hostPut_keepsTr (addr : Nat) (bytes : List Byte) (pasid : Option Nat) :
    s.KeepsTr (s.hostPut x addr bytes pasid) :=
  .ite .refl ((s.useTr_keepsTr ..).trans (.foldl (fun _ _ => KeepsTr.refl.send _) _))

theorem State.cqPut_keepsTr (e : Cqe) : s.KeepsTr (s.cqPut x e) := by
  unfold State.cqPut
  extract_lets tail ph s1 next s2
  have h2 : s.KeepsTr s2 := ((s.hostPut_keepsTr ..).modCtx ..).setReg ..
  exact (KeepsTr.ite (h2.setReg ..) h2).trans (State.cqMessage_keepsTr ..)

theorem State.cqFlush_keepsTr (n : Nat) : s.KeepsTr (s.cqFlush x n) := by
  induction n generalizing s with
  | zero => exact .refl
  | succ n ih =>
    unfold State.cqFlush
    split
    · exact .refl
    · exact .ite .refl (.ite (KeepsTr.refl.send _) (((KeepsTr.refl.modCtx ..).trans (State.cqPut_keepsTr ..)).trans (ih _)))

theorem State.cqe_keepsTr (e : Cqe) : s.KeepsTr (s.cqe x e) := (KeepsTr.refl.modCtx ..).trans (State.cqFlush_keepsTr ..)

theorem State.ctxFault_keepsTr (status : Nat) : s.KeepsTr (s.ctxFault x status) := by
  unfold State.ctxFault
  extract_lets s1 s2
  have h1 : s.KeepsTr s1 := (KeepsTr.refl.setReg ..).setReg ..
  have h2 : s.KeepsTr s2 := .ite ((h1.modCtx ..).setReg ..) h1
  exact .ite ((KeepsTr.refl.setReg ..).setReg ..) (.ite (h2.trans (State.event_keepsTr ..)) .refl)

/-! ### Descriptors and groups that end -/

theorem State.retire_keepsTr : s.KeepsTr (s.retire x) := by
  unfold State.retire
  extract_lets l gone
  split
  · exact .refl
  · exact (KeepsTr.refl.modCtx ..).setReg ..

theorem State.finishCopy_keepsTr (i status info : Nat) (always : Bool) : s.KeepsTr (s.finishCopy x i status info always) := by
  unfold State.finishCopy
  split
  · exact .refl
  · next c _ =>
    extract_lets s1 s2 s3
    have h1 : s.KeepsTr s1 := .ite (.ite (KeepsTr.refl.setReg ..) .refl) .refl
    have h2 : s.KeepsTr s2 := h1.modCtx ..
    have h3 : s.KeepsTr s3 := .ite (h2.trans (State.cqe_keepsTr ..)) h2
    exact .ite .refl (.ite (KeepsTr.refl.modCtx ..) ((h3.trans (State.retire_keepsTr ..)).trans (.of_ports rfl)))

theorem State.dropAborted_keepsTr : s.KeepsTr (s.dropAborted x) := .of_ports rfl

theorem State.abortOne_keepsTr (g : Nat) (overflow : Bool) : s.KeepsTr (s.abortOne x g overflow) := by
  unfold State.abortOne
  split
  · exact .refl
  · extract_lets s1
    have h1 : s.KeepsTr s1 := (KeepsTr.refl.modCtx ..).bump ..
    refine .ite .refl ?_
    split
    · exact h1
    · split
      · exact .ite (h1.trans (State.finishCopy_keepsTr ..)) h1
      · exact h1

theorem State.abortGrp_keepsTr (g : Nat) (overflow : Bool) : s.KeepsTr (s.abortGrp x g overflow) := by
  refine ((s.abortOne_keepsTr x g overflow).trans (.foldl (fun t h => ?_) _)).trans (State.dropAborted_keepsTr ..)
  split
  · exact .ite (State.abortOne_keepsTr ..) .refl
  · exact .refl

theorem State.complete_keepsTr (i status info : Nat) : s.KeepsTr (s.complete x i status info) := by
  unfold State.complete
  split
  · exact .refl
  · extract_lets aborted st t
    have ht : s.KeepsTr t := s.finishCopy_keepsTr ..
    split
    · exact .ite (ht.trans (State.abortGrp_keepsTr ..)) (ht.trans (State.dropAborted_keepsTr ..))
    · exact ht

theorem State.payOne_keepsTr : s.KeepsTr (s.payOne x) := by
  unfold State.payOne
  split
  · exact .refl
  · extract_lets t
    have ht : s.KeepsTr t := KeepsTr.refl.modCtx ..
    refine .ite .refl ?_
    split
    · exact ht.trans (State.cqe_keepsTr ..)
    · exact (ht.trans (State.finishCopy_keepsTr ..)).trans (State.dropAborted_keepsTr ..)

theorem State.cqGo_keepsTr : s.KeepsTr (s.cqGo x) :=
  ((s.cqFlush_keepsTr ..).trans (.foldl (fun t _ => t.payOne_keepsTr x) _)).trans (State.cqFlush_keepsTr ..)

end

/-! ### Transfers that a fault meets -/

section
variable (s : State)

theorem State.flushAll_keepsTr : s.KeepsTr s.flushAll := .foldl (fun (t : State) (e : Nat × Ctx) => t.cqGo_keepsTr e.1) _

theorem State.stage_keepsTr (x g m : Nat) (d : EndSpec) (a : Nat) (b : List Byte) : s.KeepsTr (s.stage x g m d a b).1 :=
  .of_ports (State.stage_within (l := [.regs, .hbmc, .ctxs, .helm, .free]) (.refl _ _) x g m d a b (by decide) (by decide)
    (by decide) (by decide) (by decide)).ports

theorem State.sendAll_keepsTr (w : Sender) (l : List Packet) : s.KeepsTr (s.sendAll w l) :=
  .of_ports (State.sendAll_within (l := [.net]) (.refl _ _) w l (by decide)).ports

theorem State.writePiece_keepsTr (t : Xfer) (m : Mark) (b : List Byte) : s.KeepsTr (s.writePiece t m b) := by
  unfold State.writePiece
  split
  · next g _ =>
    extract_lets r
    have hr : s.KeepsTr r.1 := s.stage_keepsTr ..
    exact .ite hr (.ite ((hr.modXfer ..).trans (State.abortGrp_keepsTr ..)) (hr.modXfer ..))
  · exact .ite ((KeepsTr.refl.modXfer ..).trans (State.hostPut_keepsTr ..))
      (.ite ((KeepsTr.refl.modXfer ..).trans (State.sendAll_keepsTr ..))
        ((KeepsTr.refl.modXfer ..).trans (State.sendAll_keepsTr ..)))

theorem State.putPiece_keepsTr (t : Xfer) (p : Piece) (b : List Byte) : s.KeepsTr (s.putPiece t p b) := by
  unfold State.putPiece
  split
  · exact KeepsTr.refl.modXfer ..
  · exact s.writePiece_keepsTr ..

theorem State.drain_keepsTr (t n : Nat) : s.KeepsTr (s.drain t n) := by
  induction n generalizing s with
  | zero => exact .refl
  | succ n ih =>
    unfold State.drain
    split
    · exact .refl
    · split
      · exact .refl
      · refine .ite ((KeepsTr.refl.modXfer ..).trans (ih _)) ?_
        split
        · exact .refl
        · extract_lets all u
          have hu : s.KeepsTr u := KeepsTr.refl.modXfer ..
          exact .ite .refl ((KeepsTr.ite hu (hu.trans (State.putPiece_keepsTr ..))).trans (ih _))

theorem State.askPage_keepsTr (x key page : Nat) (pasid : Option Nat) (write : Bool) :
    s.KeepsTr (s.askPage x key page pasid write) :=
  .ite .refl (((KeepsTr.refl.modPort _ (List.Subset.refl _)).bump ..).send _)

theorem State.priXfer_keepsTr (t : Nat) : s.KeepsTr (s.priXfer t) := by
  unfold State.priXfer
  split
  · exact .refl
  · split
    · exact .ite .refl (.ite ((s.askPage_keepsTr ..).modXfer ..) .refl)
    · exact .refl

theorem State.pageFault_keepsTr (t : Xfer) (page : Nat) (write : Bool) : s.KeepsTr (s.pageFault t page write) :=
  .ite ((KeepsTr.refl.modXfer ..).trans (State.drain_keepsTr ..)) ((KeepsTr.refl.modXfer ..).trans (State.priXfer_keepsTr ..))

/-! ### Groups, descriptors and rings that a fault meets -/

theorem State.grpFaults_keepsTr (p : Nat) (vf : Option Nat) (pg : Nat) (ps : Option Nat) :
    s.KeepsTr (s.grpFaults p vf pg ps) := by
  refine .foldl (fun t e => .ite .refl ?_) _
  split
  · exact .ite (.ite .refl (.ite (KeepsTr.refl.modCtx ..) (State.askPage_keepsTr ..))) .refl
  · exact .refl

theorem State.copyFails_keepsTr (x i : Nat) : s.KeepsTr (s.copyFails x i) := by
  unfold State.copyFails
  extract_lets t
  have ht : s.KeepsTr t := KeepsTr.refl.modCtx ..
  split
  · exact ht
  · exact .ite (ht.modCtx ..) ((ht.bump ..).trans (State.complete_keepsTr ..))

theorem State.copyFaults_keepsTr (p : Nat) (vf : Option Nat) (pg : Nat) (ps : Option Nat) :
    s.KeepsTr (s.copyFaults p vf pg ps) := by
  refine .foldl (fun t e => .ite .refl ?_) _
  split
  · exact .ite (.ite .refl (.ite (State.copyFails_keepsTr ..) (State.askPage_keepsTr ..))) .refl
  · exact .refl

theorem State.ringFault_keepsTr (x : Nat) (sq : Bool) (page : Nat) : s.KeepsTr (s.ringFault x sq page) := by
  have hfails : s.KeepsTr (s.ringFails x sq) := by
    unfold State.ringFails
    extract_lets t
    have ht : s.KeepsTr t := (s.ctxFault_keepsTr ..).modCtx ..
    exact .ite (ht.modCtx ..) ht
  exact .ite .refl (.ite hfails (s.askPage_keepsTr ..))

theorem State.ringFaults_keepsTr (p : Nat) (vf : Option Nat) (page : Nat) (pasid : Option Nat) :
    s.KeepsTr (s.ringFaults p vf page pasid) := by
  refine .foldl (fun t e => ?_) _
  extract_lets x u
  have hu : t.KeepsTr u := .ite (State.ringFault_keepsTr ..) .refl
  exact .ite .refl (.ite (hu.trans (State.ringFault_keepsTr ..)) hu)

end

/-! ## The host's side of a transfer (R194, R199, R201) -/

theorem mem_keepTr (l : List Tr) (e : Tr) : e ∈ keepTr l e := List.mem_append_right _ (List.mem_singleton_self e)

end

section
variable {s : State} {port : Fin 2} {n k : Nat} {u : Xfer} {fn : PcieFn} {page : BitVec 64} {pasid : Option (BitVec 20)}

theorem exec_hostReadCompletion (hlink : (s.port port).lost = false) (h : s.xfer? n = some u) (hport : s.xport u = port.val)
    (hdue : ∃ p ∈ u.pieces, p.n = k ∧ hostDue p = true) (data : HostData) : exec (.hostReadCompletion port n k data) s =
      .next ((((s.badCompletion port data).modXfer n (fun u =>
        { (if data.get?.isSome then u else u.fail 2) with pieces := fillHost k data.get? u.pieces })).settle n).invalsDone port) := by
  have hany : u.pieces.any (fun p => p.n == k && hostDue p) = true := by
    simpa [List.any_eq_true] using hdue
  simp only [exec, execHostReadCompletion, h, hlink, hport, hany, bne_self_eq_false, Bool.not_true, Bool.or_self,
    Bool.false_eq_true, if_false]

theorem exec_hostWriteAck_xfer (hlink : (s.port port).lost = false) (h : s.xfer? n = some u) (hport : s.xport u = port.val)
    (k : Nat) : exec (.hostWriteAck port n k) s =
      .next (((s.modXfer n (fun u => { u with hostOut := u.hostOut.filter (fun w => w.n != k || !w.sent) })).settle n).invalsDone
        port) := by
  simp only [exec, execHostWriteAck, h, hlink, hport, Bool.false_eq_true, if_false, if_true]

/-- A translation that has come is kept, and what goes on or faults with it leaves the caches what they hold (R197, R198). -/
theorem exec_atsTranslationCompletion (hlink : (s.port fn.port).lost = false) (hats : (s.port fn.port).ats = true) {r w : Bool}
    (hmay : (r || w) = true) : ∃ t, exec (.atsTranslationCompletion fn page pasid r w) s = .next t ∧
      (s.modPort fn.port (fun q => { q with atc := keepTr q.atc ⟨page.toNat, pasid.map (·.toNat), fn.vf, r, w⟩ })).KeepsTr t := by
  simp only [exec, execAtsTranslationCompletion, hlink, hats, hmay, Bool.not_true, Bool.or_self, Bool.false_eq_true, if_false,
    if_true]
  refine ⟨_, rfl, ((((State.KeepsTr.foldl (fun t u => .ite .refl ?_) _).trans (State.grpFaults_keepsTr ..)).trans
    (State.copyFaults_keepsTr ..)).trans (State.ringFaults_keepsTr ..)).trans (State.flushAll_keepsTr _)⟩
  split
  · exact .ite (t.pageFault_keepsTr ..) .refl
  · exact .refl

theorem exec_pageResponse (hlink : (s.port port).lost = false) (n : Nat) (code : PageCode) :
    exec (.pageResponse port n code) s = .next (s.pageEnds port n (decide (code = .success))) := by
  simp only [exec, execPageResponse, hlink, Bool.false_eq_true, if_false]

theorem exec_pageResponseTimeout {e : PageReq} (he : (s.port port).pri.find? (fun e => e.t == n) = some e)
    (hlate : 1000000 * max 1 (s.reg .XFR_PRI_CTL_TIMEOUT port) ≤ (s.timer + 2 ^ 48 - e.at_) % 2 ^ 48) :
    exec (.pageResponseTimeout port n) s = .next (s.pageEnds port n false) := by
  simp only [exec, execPageResponseTimeout, he, Nat.not_lt.mpr hlate, if_false]

/-- An Invalidation Request that nothing waits for is answered at once (R201). -/
theorem State.invalsDone_only {p : Nat} {e : Nat × Option Nat × Option Nat} (h : (s.port p).inval = [e])
    (hquiet : s.pageBusy p e.1 e.2.1 e.2.2 = false) : s.invalsDone p =
      ((s.modPort p (fun q => { q with inval := [] })).send (.invalDone p e.2.2 e.1 e.2.1)).bump .XFR_FAULT_STAT_INVALS p := by
  have hport : s.modPort p (fun q => { q with inval := q.inval.erase e }) = s.modPort p (fun q => { q with inval := [] }) := by
    simp [State.modPort, h]
  simp only [State.invalsDone, h, List.foldl_cons, List.foldl_nil, State.invalOne, hquiet, hport, Bool.false_eq_true, if_false]

theorem exec_atsInvalidation (hlink : (s.port fn.port).lost = false) : exec (.atsInvalidation fn page pasid) s =
    .next ((s.modPort fn.port (fun q => { q with
      atc := q.atc.filter (fun e => !e.is page.toNat (pasid.map (·.toNat)) fn.vf)
      inval := q.inval ++ [(page.toNat, pasid.map (·.toNat), fn.vf)] })).invalsDone fn.port) := by
  simp only [exec, execAtsInvalidation, hlink, Bool.false_eq_true, if_false]

end

/-! ## Sallan flits and the gateways (R206, R410, R412 to R416) -/

@[simp] theorem State.salp_modSal (s : State) (die p : Nat) (f : SalPort → SalPort) :
    (s.modSal die p f).salp die p = f (s.salp die p) := Tbl.getD_set_self ..

@[simp] theorem State.salp_bump (s : State) (f : Fld) (i die p : Nat) : (s.bump f i).salp die p = s.salp die p := rfl

theorem State.modSal_modSal (s : State) (die p : Nat) (f g : SalPort → SalPort) :
    (s.modSal die p f).modSal die p g = s.modSal die p (fun q => g (f q)) := by
  rw [State.modSal, State.salp_modSal]
  exact congrArg (fun t => { s with sal := t }) (Tbl.set_set ..)

section
variable {s : State} {die : Fin 8} {sp : Fin 4} {p : Packet}

theorem exec_sallanFlitReceive_next (hup : s.salSt die sp = 3) (ack : Nat) (l : List Packet) :
    exec (.sallanFlitReceive die sp (s.salp die sp).rxSeq true ack l) s = .next ((s.modSal die sp (fun q =>
      { q with sent := q.sent.filter (fun f => decide (ack ≤ f.1)), rxSeq := q.rxSeq + 1, arrived := q.arrived ++ l })).send
        (.linkAck die sp ((s.salp die sp).rxSeq + 1) false)) := by
  simp only [exec, execSallanFlitReceive, hup, ne_eq, not_true_eq_false, Bool.not_true, Bool.false_eq_true, if_false, if_true,
    State.modSal_modSal]
  rfl

theorem exec_sallanFlitReceive_corrupt (hup : s.salSt die sp = 3) (seq ack : Nat) (l : List Packet) :
    exec (.sallanFlitReceive die sp seq false ack l) s = .next (s.send (.linkAck die sp (s.salp die sp).rxSeq true)) := by
  simp only [exec, execSallanFlitReceive, hup, ne_eq, not_true_eq_false, Bool.not_false, if_false, if_true]

section
variable (hstands : s.standsAt (gateEp die sp) p = true) (hext : p.ext = true) (hin : xIn p = false)
  (hown : ownAnswer die sp p = false)
include hstands hext hin hown

/-- A packet for the peer of an UP port with room in its replay buffer goes to the link (R410, R414). -/
theorem exec_gatewayOutbound_peer (hvalid : s.regB .SAL_PKG_VALID 0 = true) (haway : xDpkg p ≠ s.reg .SAL_PKG_NUM 0)
    (hup : s.salSt die sp = 3) (hgate : s.gateOn die (2 + sp) = true) (hroom : (s.salp die sp).sent.length < replayMax)
    (hpeer : xDpkg p = s.reg .SAL_PORT_PEER_PKG (die.val * 4 + sp.val)) :
    exec (.gatewayOutbound die sp p) s = .next ((s.arrive (gateEp die sp) p).linkOut die sp p) := by
  have haway' : (xDpkg p == s.reg .SAL_PKG_NUM 0) = false := beq_false_of_ne haway
  have hpeer' : (xDpkg p != s.reg .SAL_PORT_PEER_PKG (die.val * 4 + sp.val)) = false := by rw [hpeer, bne_self_eq_false]
  simp [exec, execGatewayOutbound, hstands, hext, hin, hown, hvalid, haway', hup, hgate, Nat.not_le.mpr hroom, hpeer']

/-- A module without a number sends no packet of its own (R413, R414). -/
theorem exec_gatewayOutbound_unnumbered (hvalid : s.regB .SAL_PKG_VALID 0 = false) :
    exec (.gatewayOutbound die sp p) s = .next ((s.arrive (gateEp die sp) p).gateRefuse die sp .rst p) := by
  simp only [exec, execGatewayOutbound, hstands, hext, hin, hown, hvalid, Bool.true_eq_false, Bool.false_eq_true, or_self,
    Bool.not_false, Bool.and_self, if_false, if_true]

end

theorem exec_gatewayInbound_here (hnext : (s.salp die sp).arrived.head? = some p) (hsound : malformedPkt p = false)
    (hvalid : s.regB .SAL_PKG_VALID 0 = true) (hhere : xDpkg p = s.reg .SAL_PKG_NUM 0) :
    exec (.gatewayInbound die sp p) s =
      .next ((s.modSal die sp (fun q => { q with arrived := q.arrived.drop 1 })).gateInject die sp p) := by
  have hnumber (f : SalPort → SalPort) : (s.modSal die sp f).regB .SAL_PKG_VALID 0 = true ∧
      (s.modSal die sp f).reg .SAL_PKG_NUM 0 = xDpkg p := ⟨hvalid, hhere.symm⟩
  simp only [exec, execGatewayInbound, hnext, hsound, hnumber, ne_eq, not_true_eq_false, Bool.false_eq_true, Bool.not_true,
    if_false]

theorem exec_gatewayInbound_malformed (hnext : (s.salp die sp).arrived.head? = some p) (hbad : malformedPkt p = true) :
    exec (.gatewayInbound die sp p) s = .next ((s.modSal die sp (fun q => { q with arrived := q.arrived.drop 1 })).bump
      .SAL_PORT_ERR_MALFORMED (die.val * 4 + sp.val)) := by
  simp only [exec, execGatewayInbound, hnext, hbad, ne_eq, not_true_eq_false, if_false, if_true]

end

end Sys2Proof.Machine

open Sys2Proof Sys2Proof.Machine

/-! ## The obligations -/

/-- Settles O32: a descriptor that its fields choose acts on the state in which it has begun, whose streams are as before; each of
its outcomes is one lemma on `exec`. -/
theorem streamsAndWindowsComplete : Obligations.StreamsAndWindowsComplete := by
  unfold Obligations.StreamsAndWindowsComplete
  intro x i n c q s b d
  exact ⟨exec_streamCreate_new, exec_streamCreate_taken, exec_streamDestroy_standing, exec_streamDestroy_unknown,
    exec_streamArm_offered, exec_streamArm_unknown,
    fun hq hqueued hidle hruns hbusy hroom => exec_streamArmService hq hqueued hidle hruns hbusy hroom rfl rfl,
    fun _ hagreed hbegins => exec_windowOpen_free hagreed hbegins, exec_windowOpen_refused,
    fun _ hagreed hbegins => exec_windowClose_open hagreed hbegins, exec_windowClose_unknown⟩

/-- Settles O33: what a descriptor reads as it begins is `State.withBytes_reads`; each outcome of a transfer in service is one lemma
on `exec`. -/
theorem transfersComplete : Obligations.TransfersComplete := by
  unfold Obligations.TransfersComplete
  intro x i c k ext dev s b d src dst
  refine ⟨fun hk => ?_, fun n u op got h hplan hgood hfree hnone hout => ?_,
    fun n u k h => exec_pieceIssue_piece rfl h, fun n u => exec_transferComplete_ok, fun n u => exec_deadlineMiss_xfer⟩
  · have hid : k.id = i := Ctx.copy?_id hk
    have hsame {op : Nat} (hbegins : s.Begins x i op c) : k.bytes = c.bytes := (State.begun_copy? hbegins.fetched hk).bytes
    refine ⟨fun sh hbegins hmember hrun hsh => ?_, fun t l hbegins hmember hblock hplace hreads hfetch hok => ?_,
      fun t u h r hbegins hkind hhead hreads hfetch hsome hmost hrange hreads' hfetch' =>
        exec_reshard hbegins hk rfl hkind hhead hreads hfetch rfl hsome hmost hrange hreads' hfetch',
      fun t l hbegins hsound hmember hrange hreads hfetch hlinks hdst => ?_⟩
    · rw [exec_xfer_run hbegins hk hmember hrun, State.xferBegins_eq hid (hsame hbegins) rfl rfl, ← hsh, Bool.or_false]
      subst hsh
      rfl
    · rw [exec_xfer_shape hbegins hk hmember hblock rfl hplace hreads hfetch, State.xferBegins_eq hid (hsame hbegins) rfl rfl,
        if_pos hok]
    · rw [exec_reduce hbegins hk rfl hsound hmember hrange hreads hfetch,
        State.reduceLinks_ok hid (hsame hbegins) rfl rfl rfl rfl x hlinks hdst]
  · rw [exec_pieceIssue_reduced h hplan hgood hnone hout, State.settle_reduced rfl h hplan hgood hfree hnone]
    rfl

/-- Settles O34: each outcome is one lemma on `exec`; what a translation that has come lets go on, or fail, is `State.KeepsTr`. -/
theorem hostSideComplete : Obligations.HostSideComplete := by
  unfold Obligations.HostSideComplete
  intro port n k fn page pasid s hlink
  refine ⟨fun u data h hport hdue => exec_hostReadCompletion hlink h hport hdue data,
    fun u h hport => exec_hostWriteAck_xfer hlink h hport k, fun r w hfn hats hmay => ?_,
    fun _ => exec_pageResponse hlink n .success, fun code hcode _ => ?_, fun e => exec_pageResponseTimeout,
    fun hfn hquiet hnone => ?_⟩
  · subst hfn
    obtain ⟨t, ht, hkeeps⟩ := exec_atsTranslationCompletion (page := page) (pasid := pasid) hlink hats hmay
    refine ⟨t, ht, exec_leaves_hbm ht rfl, (within_reach_of_exec ht).cores (Area.not_mem_of_contains rfl), hkeeps.kept _ ?_⟩
    rw [State.port_modPort_self]
    exact mem_keepTr ..
  · rw [exec_pageResponse hlink, decide_eq_false hcode]
  · subst hfn
    have hinval : ((s.modPort fn.port (fun q => { q with
        atc := q.atc.filter (fun e => !e.is page.toNat (pasid.map (·.toNat)) fn.vf)
        inval := q.inval ++ [(page.toNat, pasid.map (·.toNat), fn.vf)] })).port fn.port).inval =
        [(page.toNat, pasid.map (·.toNat), fn.vf)] := by
      rw [State.port_modPort_self, hnone]
      rfl
    rw [exec_atsInvalidation hlink, State.invalsDone_only hinval hquiet]
    refine ⟨_, rfl, rfl, rfl, rfl, fun e => ?_⟩
    rw [State.port_bump, State.port_send, State.port_modPort_self, State.port_modPort_self, List.mem_filter, Bool.not_eq_true']

/-- Settles O43: two changes of a port in one command are one change; each outcome is one lemma on `exec`. -/
theorem sallanTrafficComplete : Obligations.SallanTrafficComplete := by
  unfold Obligations.SallanTrafficComplete
  intro die sp p s e q
  refine ⟨fun seq ack l hup hseq => ?_, fun seq ack l hup => exec_sallanFlitReceive_corrupt hup seq ack l,
    exec_gatewayOutbound_peer, exec_gatewayOutbound_unnumbered, exec_gatewayInbound_here,
    fun hnext hbad => ⟨_, exec_gatewayInbound_malformed hnext hbad, rfl, rfl, ?_⟩⟩
  · rw [hseq]
    exact exec_sallanFlitReceive_next hup ack l
  · rw [State.salp_bump, State.salp_modSal]
end
section
/-! SUPPORT and PROOFS for 09_pcie_ports.md, with what it needs of 10_contexts_rings.md: doorbells and slot fetches, commands to a
context, the setup lease and the package, link events, function level resets, VF entries and errors of the ports. -/

-- As in the architect's lemma files: one declaration at a time keeps the compile within check.sh's memory.
set_option Elab.async false

namespace Sys2Proof.Machine

/-! ## Doorbell pages and slot fetches (R220, R226, R239, R240, R252) -/

section
variable {s : State} {via : Via} {x : Fin 1024}

/-- A doorbell access that acts reaches the context of its page, through a PF or a VF. -/
theorem State.Rings.onPage {y : Nat} (h : s.Rings via y) (act denied : State → State) : s.onPage via y act denied = act s := by
  obtain ⟨hreach, hnamed, howned, hlive⟩ := h
  cases via with
  | pf p =>
    have hreach' : s.reaches (.port p) = .granted := hreach
    have howned' : s.owns p y = true := howned
    simp only [State.onPage, hreach', howned', hlive, ne_eq, not_false_eq_true, and_self, if_true]
  | vf p n =>
    have hreach' : s.reaches (.port p) = .granted := hreach
    have howned' : s.owns p y = true := howned
    simp only [State.pageNamed, Bool.and_eq_true, beq_iff_eq] at hnamed
    obtain ⟨⟨hexists, hvalid⟩, hctx⟩ := hnamed
    simp only [State.onPage, hreach', howned', hlive, hexists, hvalid, hctx, bne_self_eq_false, Bool.not_true, Bool.or_self,
      Bool.false_eq_true, ne_eq, not_false_eq_true, and_self, if_false, if_true]

theorem exec_sqTail (h : s.Rings via x) (v : BitVec 64) : exec (.sqTail via x v) s =
    .next (s.modCtx x (fun t => { t with sqTail := v.toNat % 2 ^ 16, genWait := false })) :=
  congrArg _ (h.onPage _ _)

/-- A bit of CTX_EVENT cleared where the value written acknowledges it (R239). -/
def State.acked (s : State) (x v b : Nat) (f : Fld) : State := if natBits v b 1 = 1 then s.setReg f x 0 else s

theorem State.acked_eq (s : State) (x v b : Nat) (f : Fld) : s.acked x v b f =
    { s with regs := if natBits v b 1 = 1 then Tbl.set s.regs (f, x) (0 % 2 ^ f.info.width) else s.regs } := by
  unfold State.acked
  split <;> rfl

theorem State.reg_acked (s : State) (x v b : Nat) (f g : Fld) :
    (s.acked x v b f).reg g x = if g = f ∧ natBits v b 1 = 1 then 0 else s.reg g x := by
  unfold State.acked
  split
  case isTrue h => simp [State.reg_setReg, h]
  case isFalse h => simp [h]

theorem exec_eventAck (h : s.Rings via x) (v : BitVec 64) : exec (.eventAck via x v) s =
    .next (((((s.acked x v.toNat 4 .CTX_EVENT_MSIX).acked x v.toNat 3 .CTX_EVENT_RING).acked x v.toNat 2 .CTX_EVENT_STATE).acked x
      v.toNat 1 .CTX_EVENT_DEADLINE).acked x v.toNat 0 .CTX_EVENT_REFUSE) :=
  congrArg _ (h.onPage _ _)

/-- CQ_HEAD acts on a value that is in the ring and not past the completion tail, and counts any other (R239). -/
theorem exec_cqHead (h : s.Rings via x) (v : BitVec 64) : exec (.cqHead via x v) s =
    .next (if s.cqSize x ≤ v.toNat % 2 ^ 16 ∨ slotsTo (s.ctx x).cqHead (s.reg .CTX_RING_POS_CQ_TAIL x) (s.cqSize x) <
        slotsTo (s.ctx x).cqHead (v.toNat % 2 ^ 16 % s.cqSize x) (s.cqSize x)
      then s.bump .CTX_ERR_DBELL x else s.cqHeadTo x (v.toNat % 2 ^ 16)) :=
  congrArg _ (h.onPage _ _)

theorem exec_streamArmDoorbell (h : s.Rings via x) (v : BitVec 64) : exec (.streamArmDoorbell via x v) s =
    .next (s.offerAt x (natBits v.toNat 0 6) (natBits v.toNat 16 8)) :=
  congrArg _ (h.onPage _ _)

/-- The state in which a context has read the slot at its head, its translation used. -/
def State.slotRead (s : State) (x : Nat) : State :=
  (s.useTr x (s.sqAddr x / 4096) (s.ringPasid x)).setTries x true 0

theorem State.slotRead_regs (y : Nat) : (s.slotRead y).regs = s.regs := State.useTr_regs ..

theorem State.slotRead_reg (y : Nat) (f : Fld) (i : Nat) : (s.slotRead y).reg f i = s.reg f i := by
  rw [State.reg, State.slotRead_regs, ← State.reg]

theorem State.slotRead_copies (y : Nat) : ((s.slotRead y).ctx y).copies = (s.ctx y).copies := by
  have huse : (s.useTr y (s.sqAddr y / 4096) (s.ringPasid y)).ctx y = s.ctx y := by
    unfold State.useTr
    dsimp only
    split <;> rfl
  rw [State.slotRead, State.setTries, State.ctx_modCtx_self, huse]
  rfl

/-- A slot whose generation is not that of the lap, noted until a poll (R240). -/
def State.genMiss (s : State) (x : Nat) : State :=
  ((s.bump .CTX_ERR_GEN x).event .CTX_EVENT_RING x).modCtx x (fun t => { t with genWait := true })

theorem exec_descriptorFetch (hfetch : s.fetches x = true)
    (htr : s.translated x (s.sqAddr x / 4096) (s.ringPasid x) false = true) (b : List Byte) :
    let d : BitVec 512 := BitVec.ofNat 512 (bytesNat (b.take 64))
    exec (.descriptorFetch x (.bytes b)) s = .next (if dGen d ≠ s.reg .CTX_RING_POS_LAP x then (s.slotRead x).genMiss x
      else if (s.slotRead x).openWaits x d then s.slotRead x else ((s.slotRead x).takeSlot x d).markElig x) := by
  intro d
  simp only [exec, execDescriptorFetch, State.fetch, hfetch, htr, Bool.not_true, Bool.false_eq_true, if_false, HostData.get?]
  rw [← State.slotRead, State.slotRead_reg]
  rfl

theorem State.genMiss_frame (s : State) (x : Nat) : ((s.genMiss x).ctx x).genWait = true ∧
    ((s.genMiss x).ctx x).copies = (s.ctx x).copies ∧
    (s.genMiss x).reg .CTX_RING_POS_SQ_HEAD x = s.reg .CTX_RING_POS_SQ_HEAD x := by
  refine ⟨?_, ?_, ?_⟩
  · rw [State.genMiss, State.ctx_modCtx_self]
  · rw [State.genMiss, State.ctx_modCtx_self]
    exact State.event_copies (s.bump .CTX_ERR_GEN x) ..
  · exact (State.event_same (s := s.bump .CTX_ERR_GEN x) (f := .CTX_EVENT_RING) (by decide) (by decide) ..).trans
      (State.reg_bump_field _ _ _ _ _ (by decide))

/-- A poll reads the slot again that did not match. -/
theorem exec_ringPoll (hwait : (s.ctx x).genWait = true) (slot : HostData) : exec (.ringPoll x slot) s =
    exec (.descriptorFetch x slot) (s.modCtx x (fun t => { t with genWait := false })) := by
  simp only [exec, execRingPoll, execDescriptorFetch, hwait, if_true]

end

/-! ## What an event of a context leaves (R246) -/

/-- The message of an event sets at most CTX_EVENT.MSIX. -/
theorem State.evMessage_msix (s : State) (x : Nat) : s.RegsBut [.CTX_EVENT_MSIX] (s.evMessage x) :=
  .ite (RegsBut.refl.setReg ..) (.ite (.of_regs rfl) (.of_regs (State.ctxVector_regs ..)))

/-- An event sets its own bit, and at most CTX_EVENT.MSIX beside it. -/
theorem State.reg_event {f g : Fld} (hg : g ∉ [f, .CTX_EVENT_MSIX]) (s : State) (x i : Nat) :
    (s.event f x).reg g i = s.reg g i := by
  rw [List.mem_cons, not_or] at hg
  unfold State.event
  split
  · rfl
  · rw [(State.evMessage_msix ..).same g i hg.2, State.reg_setReg_field _ _ _ _ _ _ hg.1]

/-- A STATE event that has been reported shows in CTX_EVENT. -/
theorem State.reg_event_state (s : State) (x : Nat) : (s.event .CTX_EVENT_STATE x).reg .CTX_EVENT_STATE x = 1 := by
  unfold State.event
  split
  case isTrue h => exact beq_iff_eq.mp h
  case isFalse => rw [(State.evMessage_msix ..).same _ _ (by decide), State.reg_setReg_self]; rfl

/-! ## Commands to a context (R226, R234 to R236) -/

section
variable {s : State} {port : Fin 2} {x : Fin 1024} {st : Nat}

/-- A FREE context that any port may open. -/
theorem exec_ctxOpen (hgrant : s.access (.port port) .CTX_CMD x 0 true = .granted) (hreal : x ≠ 0)
    (hidle : s.isBusy x = false) (hfree : s.cst x = 0) : exec (.ctxOpen port x) s = .next (s.openCtx port x) := by
  have hreal' : x.val ≠ 0 := fun h0 => hreal (Fin.ext h0)
  have hst : [0].contains (s.cst x) = true := by rw [hfree]; rfl
  simp only [exec, execCtxOpen, State.command, State.writeAs_granted hgrant, hreal', hidle, hst, Bool.true_eq_false,
    Bool.false_eq_true, false_and, or_self, if_false]

theorem State.dropVf_regsBut (s : State) (p x : Nat) :
    s.RegsBut [.PCI_VF_CTX_VALID, .PCI_ACC_VIOL_COUNT] (s.dropVf p x) := by
  unfold State.dropVf
  split
  · exact .refl
  · exact (RegsBut.refl.setReg ..).bump ..

theorem State.reg_cmdDone {g : Fld} (hg : g ∉ [Fld.CTX_STATE_CMDERR, .CTX_EVENT_STATE, .CTX_EVENT_MSIX]) (s : State) (x i : Nat) :
    (s.cmdDone x).reg g i = s.reg g i := by
  rw [List.mem_cons, not_or] at hg
  rw [State.cmdDone, State.reg_event hg.2, State.cmdErr, State.reg_setReg_field _ _ _ _ _ _ hg.1]

theorem State.cmdDone_cmdErr (s : State) (x : Nat) : (s.cmdDone x).reg .CTX_STATE_CMDERR x = 0 := by
  rw [State.cmdDone, State.reg_event (by decide), State.cmdErr, State.reg_setReg_self]
  rfl

theorem State.openCtx_cst (s : State) (p : Fin 2) (x : Nat) : (s.openCtx p x).cst x = 1 := by
  rw [State.cst, State.openCtx, State.reg_cmdDone (by decide), (State.dropVf_regsBut ..).same _ _ (by decide),
    State.reg_setReg_field _ _ _ _ _ _ (by decide), State.reg_setReg_self]
  rfl

theorem State.openCtx_owns (s : State) (p : Fin 2) (x : Nat) : (s.openCtx p x).owns p x = true := by
  have hfits : (p.val + 1) % 2 ^ Fld.CTX_STATE_OWNER.info.width = p.val + 1 :=
    Nat.mod_eq_of_lt (lt_of_le_of_lt (Nat.succ_le_of_lt p.isLt) (by decide))
  rw [State.owns, beq_iff_eq, State.openCtx, State.reg_cmdDone (by decide), (State.dropVf_regsBut ..).same _ _ (by decide),
    State.reg_setReg_self, hfits]

theorem exec_ctxRun (h : s.Commands port x st) : exec (.ctxRun port x) s = .next (if [1, 4].contains st then
    if s.reg .PKG_STATE_STATE 0 ≠ 0 then s.cmdErr x 5
    else if s.cst x = 4 then ((s.setReg .CTX_STATE_STATE x 2).cmdDone x).markElig x
    else if s.holdErr x ≠ 0 then s.cmdErr x (s.holdErr x)
    else ((s.takeHold x).setReg .CTX_STATE_STATE x 2).cmdDone x else s.cmdErr x 1) :=
  congrArg _ (h.command [1, 4] _)

/-- A context that has taken hold runs, and its command is done without an error. -/
theorem State.holdDone_runs (s : State) (x : Nat) :
    let t := ((s.takeHold x).setReg .CTX_STATE_STATE x 2).cmdDone x
    t.cst x = 2 ∧ (t.ctx x).holds = true ∧ t.reg .CTX_STATE_CMDERR x = 0 := by
  refine ⟨?_, ?_, State.cmdDone_cmdErr ..⟩
  · rw [State.cst, State.reg_cmdDone (by decide), State.reg_setReg_self]
    rfl
  · obtain ⟨m, p, hctx⟩ := State.event_ctx (((s.takeHold x).setReg .CTX_STATE_STATE x 2).cmdErr x 0) .CTX_EVENT_STATE x
    rw [State.cmdDone, hctx]
    exact congrArg Ctx.holds (s.ctx_modCtx_self x (fun t => { t with holds := true }))

theorem exec_ctxStop (h : s.Commands port x 2) : exec (.ctxStop port x) s =
    .next (((s.dropWaits x).modCtx x (fun t => { t with busy := .stopping })).cmdBusy x) :=
  congrArg _ (h.command [2] _)

theorem exec_ctxPause (h : s.Commands port x st) : exec (.ctxPause port x) s =
    .next (if [2, 4].contains st then (s.pauseCtx x 2).cmdErr x 0 else s.cmdErr x 1) :=
  congrArg _ (h.command [2, 4] _)

theorem exec_ctxCmdReserved (hgrant : s.access (.port port) .CTX_CMD x 0 true = .granted) (hreal : x ≠ 0)
    (howned : s.owns port x = true) : exec (.ctxCmdReserved port x) s = .next (s.cmdErr x 2) := by
  have hreal' : x.val ≠ 0 := fun h0 => hreal (Fin.ext h0)
  simp only [exec, execCtxCmdReserved, State.writeAs_granted hgrant, hreal', howned, Bool.true_eq_false, or_self, if_false]

/-- A command of a context that has ended in a state (R234, R246). -/
def State.endsIn (s : State) (x st : Nat) : State :=
  ((s.setReg .CTX_STATE_STATE x st).setReg .CTX_STATE_BUSY x 0).event .CTX_EVENT_STATE x

theorem State.endsIn_shows {n : Nat} (hn : n < 8) (s : State) (x : Nat) : (s.endsIn x n).cst x = n ∧
    (s.endsIn x n).isBusy x = false ∧ (s.endsIn x n).reg .CTX_EVENT_STATE x = 1 := by
  refine ⟨?_, ?_, State.reg_event_state ..⟩
  · rw [State.cst, State.endsIn, State.reg_event (by decide), State.reg_setReg_field _ _ _ _ _ _ (by decide),
      State.reg_setReg_self]
    exact Nat.mod_eq_of_lt hn
  · rw [State.isBusy, State.regB, State.endsIn, State.reg_event (by decide), State.reg_setReg_self]
    rfl

theorem exec_ctxStopDone (hbusy : (s.ctx x).busy = .stopping) (hrun : s.cst x = 2) (hall : s.allEnded x = true) :
    exec (.ctxStopDone x) s = .next ((s.modCtx x (fun t => { t with busy := .none })).endsIn x 4) := by
  simp only [exec, execCtxStopDone, hbusy, hrun, hall, ne_eq, not_true_eq_false, Bool.true_eq_false, or_self, if_false]
  rfl

/-- The state of a context whose pause has written what it saves. -/
def State.pauseSaved (s : State) (x : Nat) : State :=
  (((s.writeRecord x).parkXfers x).releaseCores x).modCtx x (fun t => { t with busy := .none })

theorem exec_ctxPauseDone (hbusy : (s.ctx x).busy = .pausing) (hpaused : s.paused x = true)
    (hrecord : s.recordWaits x = false) : exec (.ctxPauseDone x) s = .next ((s.pauseSaved x).endsIn x 3) := by
  simp only [exec, execCtxPauseDone, hbusy, hpaused, hrecord, ne_eq, not_true_eq_false, Bool.true_eq_false,
    Bool.false_eq_true, or_self, if_false]
  rfl

theorem State.endsIn_ctx (s : State) (x n : Nat) : ∃ m p, (s.endsIn x n).ctx x = { s.ctx x with msgOut := m, pend := p } :=
  State.event_ctx ((s.setReg .CTX_STATE_STATE x n).setReg .CTX_STATE_BUSY x 0) ..

theorem State.pauseSaved_ctx (s : State) (x : Nat) :
    ((s.pauseSaved x).ctx x).holds = false ∧ ((s.pauseSaved x).ctx x).busy = .none := by
  rw [State.pauseSaved, State.ctx_modCtx_self, State.releaseCores, State.ctx_modCtx_self]
  exact ⟨rfl, rfl⟩

end

/-! ## What the rest of the module leaves of a port and its registers -/

/-- The registers of the links, the VF entries, the setup lease and the package's state. -/
def portFields : List Fld :=
  [.PCI_LINK_STAT_UP, .PCI_LINK_STAT_TIMER_RUN, .PCI_VF_CTX_CTX, .PCI_VF_CTX_VALID, .PKG_LEASE_HOLDER, .PKG_STATE_STATE]

/-- What of a port link events, resets and configuration requests alone change. -/
structure PortMode where
  lost : Bool
  lostAt : Nat
  ats : Bool
  vfEn : Bool
  numVfs : Nat

/-- The mode of a port. -/
def PortS.mode (q : PortS) : PortMode := ⟨q.lost, q.lostAt, q.ats, q.vfEn, q.numVfs⟩

/-- A context without its messages and its completion entries. -/
def Ctx.work (t : Ctx) : Ctx := { t with pend := [], msgOut := [], heldCq := [], cqOut := [], cqMsg := false, cqTries := 0 }

/-- The view of a context that shows nothing of it. -/
def Ctx.any (_ : Ctx) : Unit := ()

/-- The registers of the ports, the ports' modes and a view `v` of every context are the same in two states. -/
structure State.PortFrame {α : Type} (v : Ctx → α) (s t : State) : Prop where
  regs : ∀ f ∈ portFields, ∀ i, t.reg f i = s.reg f i
  mode : ∀ p, (t.port p).mode = (s.port p).mode
  ctx : ∀ y, v (t.ctx y) = v (s.ctx y)

namespace State.PortFrame
variable {α : Type} {v : Ctx → α} {s t u : State}

theorem refl : s.PortFrame v s := ⟨fun _ _ _ => rfl, fun _ => rfl, fun _ => rfl⟩

theorem trans (h : s.PortFrame v t) (h' : t.PortFrame v u) : s.PortFrame v u :=
  ⟨fun f hf i => (h'.regs f hf i).trans (h.regs f hf i), fun p => (h'.mode p).trans (h.mode p),
    fun y => (h'.ctx y).trans (h.ctx y)⟩

/-- A frame that shows something of the contexts is one that shows nothing. -/
theorem forget (h : s.PortFrame v t) : s.PortFrame Ctx.any t := ⟨h.regs, h.mode, fun _ => rfl⟩

theorem of_regsBut {l : List Fld} (hregs : s.RegsBut l t) (hports : t.ports = s.ports) (hctxs : t.ctxs = s.ctxs)
    (hl : ∀ f ∈ portFields, f ∉ l := by decide) : s.PortFrame v t :=
  ⟨fun f hf i => hregs.same f i (hl f hf), fun p => by rw [State.port, hports]; rfl, fun y => by rw [State.ctx, hctxs]; rfl⟩

/-- Where a frame shows nothing of the contexts, a change may reach them. -/
theorem any_of_regsBut {l : List Fld} (hregs : s.RegsBut l t) (hports : t.ports = s.ports)
    (hl : ∀ f ∈ portFields, f ∉ l := by decide) : s.PortFrame Ctx.any t :=
  ⟨fun f hf i => hregs.same f i (hl f hf), fun p => by rw [State.port, hports]; rfl, fun _ => rfl⟩

/-- A change of other parts of the state. -/
theorem of_same (hregs : t.regs = s.regs) (hports : t.ports = s.ports) (hctxs : t.ctxs = s.ctxs) : s.PortFrame v t :=
  of_regsBut (l := []) (.of_regs hregs) hports hctxs

theorem any_of_same (hregs : t.regs = s.regs) (hports : t.ports = s.ports) : s.PortFrame Ctx.any t :=
  any_of_regsBut (l := []) (.of_regs hregs) hports

theorem setReg (h : s.PortFrame v t) (f : Fld) (i w : Nat) (hf : f ∉ portFields := by decide) :
    s.PortFrame v (t.setReg f i w) :=
  h.trans ⟨fun _ hg _ => t.reg_setReg_field _ _ _ _ _ (ne_of_mem_of_not_mem hg hf), fun _ => rfl, fun _ => rfl⟩

theorem bump (h : s.PortFrame v t) (f : Fld) (i : Nat) (hf : f ∉ portFields := by decide) : s.PortFrame v (t.bump f i) :=
  h.setReg f i _ hf

theorem send (h : s.PortFrame v t) (o : Out) : s.PortFrame v (t.send o) := h.trans (of_same rfl rfl rfl)

theorem drew (h : s.PortFrame v t) (n : Nat) : s.PortFrame v (t.drew n) := h.trans (of_same rfl rfl rfl)

theorem modXfer (h : s.PortFrame v t) (n : Nat) (f : Xfer → Xfer) : s.PortFrame v (t.modXfer n f) :=
  h.trans (of_same rfl rfl rfl)

theorem modVault (h : s.PortFrame v t) (f : Vault → Vault) : s.PortFrame v (t.modVault f) := h.trans (of_same rfl rfl rfl)

theorem modCtx (h : s.PortFrame v t) (x : Nat) (f : Ctx → Ctx) (hf : v (f (t.ctx x)) = v (t.ctx x) := by rfl) :
    s.PortFrame v (t.modCtx x f) := by
  refine h.trans ⟨fun _ _ _ => rfl, fun _ => rfl, fun y => ?_⟩
  by_cases hy : y = x
  · rw [hy, State.ctx_modCtx_self, hf]
  · rw [State.ctx_modCtx_other _ _ _ _ hy]

theorem modPort (h : s.PortFrame v t) (p : Nat) (f : PortS → PortS) (hf : (f (t.port p)).mode = (t.port p).mode := by rfl) :
    s.PortFrame v (t.modPort p f) := by
  refine h.trans ⟨fun _ _ _ => rfl, fun q => ?_, fun _ => rfl⟩
  by_cases hq : q = p
  · rw [hq, State.port_modPort_self, hf]
  · rw [State.port_modPort_other _ _ _ _ hq]

theorem ite {c : Prop} [Decidable c] (h : s.PortFrame v t) (h' : s.PortFrame v u) : s.PortFrame v (if c then t else u) := by
  split <;> assumption

theorem foldl {β : Type} {g : State → β → State} (l : List β) (hg : ∀ (t : State), ∀ a ∈ l, t.PortFrame v (g t a)) :
    s.PortFrame v (l.foldl g s) :=
  List.foldlRecOn (motive := fun t => s.PortFrame v t) l g refl fun t h a ha => h.trans (hg t a ha)

theorem link_lost (h : s.PortFrame v t) (p : Nat) : (t.port p).lost = (s.port p).lost := congrArg PortMode.lost (h.mode p)
theorem link_lostAt (h : s.PortFrame v t) (p : Nat) : (t.port p).lostAt = (s.port p).lostAt :=
  congrArg PortMode.lostAt (h.mode p)
theorem ats (h : s.PortFrame v t) (p : Nat) : (t.port p).ats = (s.port p).ats := congrArg PortMode.ats (h.mode p)
theorem vfEn (h : s.PortFrame v t) (p : Nat) : (t.port p).vfEn = (s.port p).vfEn := congrArg PortMode.vfEn (h.mode p)
theorem numVfs (h : s.PortFrame v t) (p : Nat) : (t.port p).numVfs = (s.port p).numVfs := congrArg PortMode.numVfs (h.mode p)

theorem reg (h : s.PortFrame v t) (f : Fld) (i : Nat) (hf : f ∈ portFields := by decide) : t.reg f i = s.reg f i :=
  h.regs f hf i

end State.PortFrame

section
open State (PortFrame)

/-! ### Messages and entries of a context -/

section
variable (s : State) (x : Nat)

theorem PortS.note_mode (q : PortS) (key : Nat) : (q.note key).mode = q.mode := by
  unfold PortS.note
  split <;> rfl

theorem State.raise_portFrame (die n : Nat) : s.PortFrame Ctx.work (s.raise die n) := by
  have hw : s.Within [.regs, .helm] (s.raise die n) := State.raise_within (.refl _ s) die n (by decide) (by decide)
  exact .of_regsBut (s.raise_regsBut die n) hw.ports hw.ctxs

theorem State.msix_portFrame (p : Nat) (vf : Option Nat) (vec : Nat) : s.PortFrame Ctx.work (s.msix p vf vec) :=
  .ite (PortFrame.refl.modPort p _ (PortS.note_mode ..)) (PortFrame.refl.send _)

theorem State.ctxVector_portFrame (vec : Nat) (cq : Bool) : s.PortFrame Ctx.work (s.ctxVector x vec cq) := by
  unfold State.ctxVector
  split
  · exact .refl
  · exact .ite (s.msix_portFrame ..) ((PortFrame.refl.modCtx x _).trans (State.msix_portFrame ..))

theorem State.evMessage_portFrame : s.PortFrame Ctx.work (s.evMessage x) :=
  .ite (PortFrame.refl.setReg ..) (.ite (PortFrame.refl.modCtx x _) (s.ctxVector_portFrame ..))

theorem State.event_portFrame (f : Fld) (hf : f ∉ portFields := by decide) : s.PortFrame Ctx.work (s.event f x) :=
  .ite .refl ((PortFrame.refl.setReg f x 1 hf).trans (State.evMessage_portFrame ..))

theorem State.cqMessage_portFrame : s.PortFrame Ctx.work (s.cqMessage x) :=
  .ite .refl (.ite (s.event_portFrame x _)
    (.ite ((PortFrame.refl.modCtx x _).modCtx x _) ((PortFrame.refl.modCtx x _).trans (State.ctxVector_portFrame ..))))

theorem State.useTr_portFrame (page : Nat) (pasid : Option Nat) : s.PortFrame Ctx.work (s.useTr x page pasid) :=
  .ite (PortFrame.refl.modPort _ _) .refl

theorem State.hostPut_portFrame (addr : Nat) (bytes : List Byte) (pasid : Option Nat) :
    s.PortFrame Ctx.work (s.hostPut x addr bytes pasid) :=
  .ite .refl ((s.useTr_portFrame ..).trans (.foldl _ fun _ _ _ => PortFrame.refl.send _))

theorem State.cqPut_portFrame (e : Cqe) : s.PortFrame Ctx.work (s.cqPut x e) := by
  unfold State.cqPut
  extract_lets tail ph s1 next s2
  have h2 : s.PortFrame Ctx.work s2 := ((s.hostPut_portFrame ..).modCtx x _).setReg ..
  exact (PortFrame.ite (h2.setReg ..) h2).trans (State.cqMessage_portFrame ..)

theorem State.cqFlush_portFrame (n : Nat) : s.PortFrame Ctx.work (s.cqFlush x n) := by
  induction n generalizing s with
  | zero => exact .refl
  | succ n ih =>
    unfold State.cqFlush
    split
    · exact .refl
    · exact .ite .refl (.ite (PortFrame.refl.send _)
        (((PortFrame.refl.modCtx x _).trans (State.cqPut_portFrame ..)).trans (ih _)))

theorem State.cqe_portFrame (e : Cqe) : s.PortFrame Ctx.work (s.cqe x e) :=
  (PortFrame.refl.modCtx x _).trans (State.cqFlush_portFrame ..)

theorem State.releaseMsg_portFrame (cq : Bool) : s.PortFrame Ctx.work (s.releaseMsg x cq) :=
  .ite (.ite (s.event_portFrame x _) (PortFrame.refl.setReg ..)) (s.ctxVector_portFrame ..)

theorem State.releaseMsgs_portFrame : s.PortFrame Ctx.work (s.releaseMsgs x) :=
  .ite .refl ((PortFrame.refl.modCtx x _).trans (.foldl _ fun t _ _ => t.releaseMsg_portFrame ..))

theorem State.portMsix_portFrame (p : Nat) (vf : Option Nat) (vec : Nat) : s.PortFrame Ctx.work (s.portMsix p vf vec) :=
  .ite (s.msix_portFrame ..) ((PortFrame.refl.modPort p _).trans (State.msix_portFrame ..))

theorem State.pbaFlush_portFrame (p : Nat) : s.PortFrame Ctx.work (s.pbaFlush p) :=
  .ite .refl ((PortFrame.refl.modPort p _).trans (.foldl _ fun t _ _ => t.portMsix_portFrame ..))

/-- With nothing owed, entries of the ring are all that `State.cqGo` writes. -/
theorem State.cqGo_work (howed : (s.ctx x).owed = []) : s.PortFrame Ctx.work (s.cqGo x) := by
  have hflush := s.cqFlush_portFrame x (s.ctx x).heldCq.length
  have hnone : ((s.cqFlush x (s.ctx x).heldCq.length).ctx x).owed = [] :=
    (congrArg Ctx.owed (hflush.ctx x)).trans howed
  rw [State.cqGo, State.payOwed, hnone]
  exact hflush.trans (State.cqFlush_portFrame ..)

/-! ### Descriptors, groups and passes that end -/

theorem State.retire_portFrame : s.PortFrame Ctx.any (s.retire x) := by
  unfold State.retire
  extract_lets l gone
  split
  · exact .refl
  · exact (PortFrame.refl.modCtx x _).setReg ..

theorem State.lateness_portFrame (t0 deadline : Nat) : s.PortFrame Ctx.any (s.lateness x t0 deadline) :=
  .ite (PortFrame.refl.setReg ..) .refl

theorem State.finishCopy_portFrame (i status info : Nat) (always : Bool) :
    s.PortFrame Ctx.any (s.finishCopy x i status info always) := by
  unfold State.finishCopy
  split
  · exact .refl
  · extract_lets s1 s2 s3
    have h1 : s.PortFrame Ctx.any s1 := .ite (s.lateness_portFrame ..) .refl
    have h2 : s.PortFrame Ctx.any s2 := h1.modCtx x _
    have h3 : s.PortFrame Ctx.any s3 := .ite (h2.trans (State.cqe_portFrame ..).forget) h2
    exact .ite .refl (.ite (PortFrame.refl.modCtx x _) ((h3.trans (State.retire_portFrame ..)).trans (.any_of_same rfl rfl)))

theorem State.dropAborted_portFrame : s.PortFrame Ctx.any (s.dropAborted x) := .any_of_regsBut (l := []) (.of_regs rfl) rfl

theorem State.abortOne_portFrame (g : Nat) (overflow : Bool) : s.PortFrame Ctx.any (s.abortOne x g overflow) := by
  unfold State.abortOne
  split
  · exact .refl
  · extract_lets s1
    have h1 : s.PortFrame Ctx.any s1 := (PortFrame.refl.modCtx x _).bump ..
    refine .ite .refl ?_
    split
    · exact h1
    · split
      · exact .ite (h1.trans (State.finishCopy_portFrame ..)) h1
      · exact h1

theorem State.abortGrp_portFrame (g : Nat) (overflow : Bool) : s.PortFrame Ctx.any (s.abortGrp x g overflow) := by
  refine ((s.abortOne_portFrame x g overflow).trans (.foldl _ fun t h _ => ?_)).trans (State.dropAborted_portFrame ..)
  split
  · exact .ite (State.abortOne_portFrame ..) .refl
  · exact .refl

theorem State.complete_portFrame (i status info : Nat) : s.PortFrame Ctx.any (s.complete x i status info) := by
  unfold State.complete
  split
  · exact .refl
  · extract_lets aborted st t
    have ht : s.PortFrame Ctx.any t := s.finishCopy_portFrame ..
    split
    · exact .ite (ht.trans (State.abortGrp_portFrame ..)) (ht.trans (State.dropAborted_portFrame ..))
    · exact ht

theorem State.payOne_portFrame : s.PortFrame Ctx.any (s.payOne x) := by
  unfold State.payOne
  split
  · exact .refl
  · extract_lets t
    have ht : s.PortFrame Ctx.any t := PortFrame.refl.modCtx x _
    refine .ite .refl ?_
    split
    · exact ht.trans (State.cqe_portFrame ..).forget
    · exact (ht.trans (State.finishCopy_portFrame ..)).trans (State.dropAborted_portFrame ..)

theorem State.cqGo_portFrame : s.PortFrame Ctx.any (s.cqGo x) :=
  ((s.cqFlush_portFrame ..).forget.trans (.foldl _ fun t _ _ => t.payOne_portFrame x)).trans
    (State.cqFlush_portFrame ..).forget

/-! ### Bytes of HBM -/

theorem State.hbmSeen_regsBut (a n : Nat) (es : List AtomEcc) : s.RegsBut atomFields (s.hbmSeen a n es).1 :=
  .foldl (fun _ _ => .ite .refl (State.readAtom_regsBut ..)) _

theorem State.homeFirst_regsBut (a n : Nat) : s.RegsBut atomFields (s.homeFirst a n) :=
  .ite .refl (.foldl (fun t page => t.copyHome_regsBut page) _)

theorem State.hbmWrite_regsBut (a : Nat) (bytes : List Byte) :
    s.RegsBut (.CTX_FIX_CONFLICT :: atomFields) (s.hbmWrite a bytes) := by
  unfold State.hbmWrite
  extract_lets pages s1 hit s2
  have h1 : s.RegsBut (.CTX_FIX_CONFLICT :: atomFields) s1 := (s.homeFirst_regsBut ..).mono (by simp)
  have h2 : s.RegsBut (.CTX_FIX_CONFLICT :: atomFields) s2 := h1.trans (.foldl (fun _ _ => RegsBut.refl.bumpN ..) _)
  exact .ite .refl (h2.of_regs_eq rfl)

theorem State.hbmPut_regsBut (a : Nat) (bytes : List Byte) : s.RegsBut (.CTX_FIX_CONFLICT :: atomFields) (s.hbmPut a bytes) :=
  .foldl (fun t _ => .ite .refl (((t.homeFirst_regsBut ..).trans (State.hbmAccept_regsBut ..)).mono (by simp)
    |>.trans (State.hbmWrite_regsBut ..))) _

theorem State.hbmPut_portFrame (a : Nat) (bytes : List Byte) : s.PortFrame Ctx.any (s.hbmPut a bytes) := by
  have hw : s.Within [.regs, .hbm, .hbmc, .ctxs, .helm, .free] (s.hbmPut a bytes) :=
    State.hbmPut_within (.refl _ s) a bytes (by decide) (by decide) (by decide) (by decide) (by decide) (by decide)
  exact .any_of_regsBut (s.hbmPut_regsBut a bytes) hw.ports

theorem State.logByte_portFrame (p : Pass) (off w : Nat) : s.PortFrame Ctx.any (s.logByte x p off w) := by
  unfold State.logByte
  split
  · exact (State.hbmPut_portFrame ..).trans (State.hbmPut_portFrame ..)
  · exact .refl

theorem State.endPass_portFrame (p : Pass) (recState status : Nat) : s.PortFrame Ctx.any (s.endPass x p recState status) := by
  unfold State.endPass
  extract_lets s1 s2 s3
  have h1 : s.PortFrame Ctx.any s1 := s.logByte_portFrame ..
  have h2 : s.PortFrame Ctx.any s2 := .ite (h1.trans (State.lateness_portFrame ..)) h1
  have h3 : s.PortFrame Ctx.any s3 := .ite (h2.modCtx x _) h2
  exact (h3.modCtx x _).trans (State.complete_portFrame ..)

theorem State.missPass_portFrame (p : Pass) : s.PortFrame Ctx.any (s.missPass x p).1 := by
  unfold State.missPass
  split
  · exact .refl
  · exact (PortFrame.refl.bump ..).trans (State.event_portFrame ..).forget

theorem State.retirePass_portFrame (id : Nat) : s.PortFrame Ctx.any (s.retirePass x id) := by
  unfold State.retirePass
  split
  · exact .refl
  · exact .ite .refl ((s.missPass_portFrame ..).trans (State.endPass_portFrame ..))

theorem State.retirePasses_portFrame : s.PortFrame Ctx.any (s.retirePasses x) :=
  .foldl _ fun t _ _ => t.retirePass_portFrame ..

theorem State.reissuePort_portFrame (p : Nat) : s.PortFrame Ctx.any (s.reissuePort p) :=
  .foldl _ fun t y _ =>
    ((t.cqGo_portFrame y).trans (State.releaseMsgs_portFrame ..).forget).trans (State.retirePasses_portFrame ..)

/-! ### Transfers -/

theorem State.askPage_portFrame (key page : Nat) (pasid : Option Nat) (write : Bool) :
    s.PortFrame Ctx.any (s.askPage x key page pasid write) :=
  .ite .refl (((PortFrame.refl.modPort _ _).bump ..).send _)

theorem State.priXfer_portFrame (n : Nat) : s.PortFrame Ctx.any (s.priXfer n) := by
  unfold State.priXfer
  split
  · exact .refl
  · split
    · exact .ite .refl (.ite ((s.askPage_portFrame ..).modXfer ..) .refl)
    · exact .refl

theorem State.priAll_portFrame : s.PortFrame Ctx.any s.priAll := .foldl _ fun t _ _ => t.priXfer_portFrame _

theorem State.putGrp_regs {old : State × Nat} (h : old.1 = s) (q : Option Grp) : (s.putGrp x old q).1.regs = s.regs := by
  unfold State.putGrp
  split
  · rw [h]
  · rfl

theorem State.stagePage_regsBut (g page off : Nat) (b : List Byte) :
    s.RegsBut atomFields (s.stagePage x g page off b).1 := by
  unfold State.stagePage
  split
  · exact .of_regs rfl
  · extract_lets q t
    have ht : s.RegsBut atomFields t := s.hbmSeen_regsBut ..
    split
    · exact ht
    · exact ht.of_regs_eq rfl

/-- Staging a piece changes at most the counts of its reads and of a redirection table that is full. -/
theorem State.stage_regsBut (g m : Nat) (d : EndSpec) (a : Nat) (b : List Byte) :
    s.RegsBut (.HBM_FIX_MAP_FULL :: atomFields) (s.stage x g m d a b).1 := by
  have hbm (q : Grp) (page off : Nat) : s.RegsBut (.HBM_FIX_MAP_FULL :: atomFields) (s.stageHbm x q page off b).1 := by
    unfold State.stageHbm
    dsimp only
    split_ifs
    · exact .of_regs rfl
    · exact .refl
    · exact RegsBut.refl.bump ..
    · exact (s.stagePage_regsBut ..).mono (by simp)
  unfold State.stage
  split
  · exact .refl
  · split_ifs
    · exact .refl
    · exact .of_regs (s.putGrp_regs x rfl _)
    · exact hbm ..
    · exact .of_regs (s.putGrp_regs x rfl _)

theorem State.stage_portFrame (g m : Nat) (d : EndSpec) (a : Nat) (b : List Byte) :
    s.PortFrame Ctx.any (s.stage x g m d a b).1 := by
  have hw : s.Within [.regs, .hbmc, .ctxs, .helm, .free] (s.stage x g m d a b).1 :=
    State.stage_within (.refl _ s) x g m d a b (by decide) (by decide) (by decide) (by decide) (by decide)
  exact .any_of_regsBut (s.stage_regsBut ..) hw.ports

theorem State.sendAll_portFrame (w : Sender) (l : List Packet) : s.PortFrame Ctx.any (s.sendAll w l) := by
  have hw : s.Within [.net] (s.sendAll w l) := State.sendAll_within (.refl _ s) w l (by decide)
  exact .of_same hw.regs hw.ports hw.ctxs

theorem State.writePiece_portFrame (t : Xfer) (m : Mark) (b : List Byte) : s.PortFrame Ctx.any (s.writePiece t m b) := by
  unfold State.writePiece
  split
  · extract_lets r
    have hr : s.PortFrame Ctx.any r.1 := s.stage_portFrame ..
    exact .ite hr (.ite ((hr.modXfer ..).trans (State.abortGrp_portFrame ..)) (hr.modXfer ..))
  · exact .ite ((PortFrame.refl.modXfer ..).trans (State.hostPut_portFrame ..).forget)
      (.ite ((PortFrame.refl.modXfer ..).trans (State.sendAll_portFrame ..))
        ((PortFrame.refl.modXfer ..).trans (State.sendAll_portFrame ..)))

theorem State.putPiece_portFrame (t : Xfer) (p : Piece) (b : List Byte) : s.PortFrame Ctx.any (s.putPiece t p b) := by
  unfold State.putPiece
  split
  · exact PortFrame.refl.modXfer ..
  · exact s.writePiece_portFrame ..

theorem State.drain_portFrame (t n : Nat) : s.PortFrame Ctx.any (s.drain t n) := by
  induction n generalizing s with
  | zero => exact .refl
  | succ n ih =>
    unfold State.drain
    split
    · exact .refl
    · split
      · exact .refl
      · refine .ite ((PortFrame.refl.modXfer ..).trans (ih _)) ?_
        split
        · exact .refl
        · extract_lets all u
          have hu : s.PortFrame Ctx.any u := PortFrame.refl.modXfer ..
          exact .ite .refl ((PortFrame.ite hu (hu.trans (State.putPiece_portFrame ..))).trans (ih _))

theorem State.redStat_portFrame (die : Nat) (l : List NFlags) : s.PortFrame Ctx.any (s.redStat die l) :=
  (((PortFrame.refl.setReg ..).setReg ..).setReg ..).setReg ..

theorem State.reduced_portFrame (n : Nat) : s.PortFrame Ctx.any (s.reduced n) := by
  unfold State.reduced
  split
  · exact .refl
  · split
    · exact .ite .refl ((PortFrame.refl.modXfer ..).trans (State.redStat_portFrame ..))
    · exact .refl

theorem State.settle_portFrame (n : Nat) : s.PortFrame Ctx.any (s.settle n) :=
  ((s.drain_portFrame ..).trans (State.reduced_portFrame ..)).trans (State.priXfer_portFrame ..)

/-! ### A lost link (R230) -/

theorem State.cqCut_portFrame : s.PortFrame Ctx.any (s.cqCut x) := by
  unfold State.cqCut
  split
  · exact .refl
  · exact ((PortFrame.refl.modCtx x _).setReg ..).setReg ..

theorem State.portCut_portFrame (p : Nat) : s.PortFrame Ctx.any (s.portCut p) := by
  refine PortFrame.refl.modPort p _ (List.foldlRecOn (motive := fun q : PortS => q.mode = (s.port p).mode) _ _ rfl ?_)
  exact fun q h m _ => (q.note_mode _).trans h

theorem State.cutHost_portFrame (p : Nat) : s.PortFrame Ctx.any (s.cutHost p) := by
  unfold State.cutHost
  extract_lets l s1 s2
  have h1 : s.PortFrame Ctx.any s1 := .of_same rfl rfl rfl
  have h2 : s.PortFrame Ctx.any s2 := h1.trans (.foldl _ fun t y _ =>
    ((PortFrame.refl.modCtx y _).trans (State.cqCut_portFrame ..)).trans (.any_of_same rfl rfl))
  exact (h2.trans (State.portCut_portFrame ..)).trans (.foldl _ fun t u _ => t.settle_portFrame _)

theorem State.stopArrives_portFrame (c : Nat) : s.PortFrame Ctx.any (s.stopArrives c) := by
  have hw : s.Within [.cores] (s.stopArrives c) := State.stopArrives_within (.refl _ s) c (by decide)
  exact .of_same hw.regs hw.ports hw.ctxs

theorem State.pauseCtx_portFrame (cause : Nat) : s.PortFrame Ctx.any (s.pauseCtx x cause) := by
  unfold State.pauseCtx
  extract_lets s1 s2
  have h1 : s.PortFrame Ctx.any s1 := (PortFrame.refl.setReg ..).setReg ..
  have h2 : s.PortFrame Ctx.any s2 := h1.trans (.any_of_same rfl rfl)
  have h3 : s.PortFrame Ctx.any (s2.holdXfers x cause) := h2.trans (.any_of_same rfl rfl)
  exact .ite .refl (h3.trans (.foldl _ fun t c _ => t.stopArrives_portFrame c))

end
end

section
open State (PortFrame)
variable (s : State)

/-! ### The signer (R348 to R352) -/

theorem State.keysMoved_portFrame : s.PortFrame Ctx.any s.keysMoved := by
  have hroll (t : State) : t.PortFrame Ctx.any t.rollover := .ite (PortFrame.refl.setReg ..) .refl
  have hexhaust (t : State) : t.PortFrame Ctx.any t.exhaust := .ite (PortFrame.refl.setReg ..) .refl
  have hshow (t : State) : t.PortFrame Ctx.any t.showKeys :=
    (((PortFrame.refl.setReg ..).setReg ..).setReg ..).setReg ..
  exact (((PortFrame.ite (PortFrame.refl.modVault _) .refl).trans (hroll _)).trans (hexhaust _)).trans (hshow _)

theorem State.quote_portFrame (p : Nat) (nonce : BitVec 256) (mask : Nat) : s.PortFrame Ctx.any (s.quote p nonce mask) :=
  ((PortFrame.refl.modVault _).send _).trans (State.keysMoved_portFrame _)

theorem State.doeAnswer_portFrame (p : Nat) (body : List Byte) : s.PortFrame Ctx.any (s.doeAnswer p body) :=
  PortFrame.refl.send _

theorem State.serveReq_portFrame {t : State} (h : s.serveReq = some t) : s.PortFrame Ctx.any t := by
  unfold State.serveReq at h
  split at h
  · cases h
  · extract_lets u at h
    have hu : s.PortFrame Ctx.any u := PortFrame.refl.modVault _
    split at h
    · obtain rfl := Option.some.inj h
      exact hu.trans (State.doeAnswer_portFrame ..)
    · obtain rfl := Option.some.inj h
      exact (hu.drew 1).trans (State.doeAnswer_portFrame ..)
    · split_ifs at h
      · obtain rfl := Option.some.inj h
        exact hu.trans (State.doeAnswer_portFrame ..)
      · obtain rfl := Option.some.inj h
        exact hu.trans (State.quote_portFrame ..)

theorem State.serveReqs_portFrame (n : Nat) : s.PortFrame Ctx.any (s.serveReqs n) := by
  induction n generalizing s with
  | zero => exact .refl
  | succ n ih =>
    unfold State.serveReqs
    split
    · next t h => exact (s.serveReq_portFrame h).trans (ih t)
    · exact .refl

/-- A port that holds no translation, no page request and no invalidation (R230, R232). -/
def PortS.untranslated (q : PortS) : PortS := { q with atc := [], pri := [], inval := [] }

/-- A port's translations and requests gone, before the signer goes on with the other port's. -/
def State.atsDropped (s : State) (p : Nat) : State :=
  ((s.modPort p PortS.untranslated).askAnew (fun t => s.xport t == p)).modVault
    (fun v => { v with reqs := v.reqs.filter (fun r => r.1 != p) })

theorem State.dropAts_eq (p : Nat) : s.dropAts p = (s.atsDropped p).signer := rfl

theorem State.dropAts_portFrame (p : Nat) : s.PortFrame Ctx.any (s.dropAts p) := by
  have h : s.PortFrame Ctx.any (s.atsDropped p) :=
    (PortFrame.refl.modPort p PortS.untranslated).trans (.of_same rfl rfl rfl)
  exact h.trans (State.serveReqs_portFrame ..)

theorem State.dropAts_port (p : Nat) : (s.dropAts p).port p = (s.port p).untranslated := by
  have hw : (s.atsDropped p).Within [.regs, .vault, .free, .out] (s.dropAts p) :=
    State.signer_within (.refl _ _) (by decide) (by decide) (by decide) (by decide)
  rw [State.port, hw.ports]
  exact State.port_modPort_self s p PortS.untranslated

end

/-! ## Link loss and link up (R230, R231) -/

section
variable {s : State} {port : Fin 2}

/-- A link that goes: the loss counted and reported, the timer started, UP cleared unless the port has only entered D3hot. -/
def State.linkGone (s : State) (p : Nat) (ev : LinkEvent) : State :=
  let s := ((s.raise p 0x70).bump .PCI_LINK_STAT_DOWN_COUNT p).setReg .PCI_LINK_STAT_TIMER_RUN p 1
  let s := if ev = .d3hot then s else s.setReg .PCI_LINK_STAT_UP p 0
  s.modPort p (fun q => { q with lost := true, lostAt := s.timer })

theorem State.linkGone_port (s : State) (p : Nat) (ev : LinkEvent) :
    ((s.linkGone p ev).port p).lost = true ∧ ((s.linkGone p ev).port p).lostAt = s.timer := by
  have htimer : (s.raise p 0x70).timer = s.timer :=
    (State.raise_within (l := [.regs, .helm]) (.refl _ s) p 0x70 (by decide) (by decide)).timer
  unfold State.linkGone
  rw [State.port_modPort_self]
  refine ⟨rfl, ?_⟩
  split <;> exact htimer

theorem State.linkGone_regs (s : State) (p : Nat) (ev : LinkEvent) :
    (s.linkGone p ev).reg .PCI_LINK_STAT_TIMER_RUN p = 1 ∧
    (s.linkGone p ev).reg .PCI_LINK_STAT_UP p = if ev = .d3hot then s.reg .PCI_LINK_STAT_UP p else 0 := by
  have hup : (((s.raise p 0x70).bump .PCI_LINK_STAT_DOWN_COUNT p).setReg .PCI_LINK_STAT_TIMER_RUN p 1).reg
      .PCI_LINK_STAT_UP p = s.reg .PCI_LINK_STAT_UP p :=
    (State.reg_setReg_field _ _ _ _ _ _ (by decide)).trans
      (((s.raise_portFrame p 0x70).bump .PCI_LINK_STAT_DOWN_COUNT p).reg .PCI_LINK_STAT_UP p)
  unfold State.linkGone
  dsimp only
  split
  · exact ⟨State.reg_setReg_self .., hup⟩
  · exact ⟨(State.reg_setReg_field _ _ _ _ _ _ (by decide)).trans (State.reg_setReg_self ..), State.reg_setReg_self ..⟩

theorem exec_linkLoss (hlink : (s.port port).lost = false) (hup : s.regB .PCI_LINK_STAT_UP port = true) (ev : LinkEvent) :
    exec (.linkLoss port ev) s = .next ((((s.linkGone port ev).ctxsOf port (· == 2)).foldl State.pauseLink
      ((s.linkGone port ev).cutHost port)).dropAts port) := by
  simp only [exec, execLinkLoss, hlink, hup, Bool.true_eq_false, Bool.false_eq_true, if_false]
  rfl

/-- What a lost link cuts off and pauses leaves the registers of the link, and its port's mode. -/
theorem State.linkCut_portFrame (s : State) (p : Nat) :
    s.PortFrame Ctx.any ((s.ctxsOf p (· == 2)).foldl State.pauseLink (s.cutHost p)) :=
  (State.cutHost_portFrame ..).trans (.foldl _ fun _ _ _ =>
    (State.PortFrame.refl.setReg ..).trans (State.pauseCtx_portFrame ..))

/-- The port of a link that is back: its configuration space starts anew. -/
def PortS.relinked (q : PortS) : PortS :=
  { q with lost := false, lostAt := 0, vfEn := false, numVfs := 0, conf := [], aer := [] }

/-- A port that uses translations no more. -/
def PortS.atsOff (q : PortS) : PortS := { q with ats := false, atc := [], pri := [] }

/-- A lost link that is back: UP shown and reported, the timer stopped, translations used no more. -/
def State.linkBack (s : State) (p : Nat) : State :=
  ((((s.raise p 0x70).setReg .PCI_LINK_STAT_UP p 1).setReg .PCI_LINK_STAT_TIMER_RUN p 0).modPort p PortS.relinked).atsOff p

theorem exec_linkUp_lost (hlink : (s.port port).lost = true) : exec (.linkUp port) s =
    .next ((((s.linkBack port).pbaFlush port).reissuePort port).priAll) := by
  have hstill : (((s.raise port 0x70).setReg .PCI_LINK_STAT_UP port 1).port port).lost = true :=
    (((s.raise_portFrame port 0x70)).link_lost port).trans hlink
  simp only [exec, execLinkUp, hlink, hstill, Bool.not_true, Bool.and_false, Bool.false_eq_true, Bool.true_eq_false, if_false]
  rfl

theorem State.linkBack_port (s : State) (p : Nat) :
    ((s.linkBack p).port p).lost = false ∧ ((s.linkBack p).port p).ats = false := by
  let t := ((s.raise p 0x70).setReg .PCI_LINK_STAT_UP p 1).setReg .PCI_LINK_STAT_TIMER_RUN p 0
  have hport : (s.linkBack p).port p = ((t.modPort p PortS.relinked).port p).atsOff :=
    State.port_modPort_self (t.modPort p PortS.relinked) p PortS.atsOff
  rw [hport, State.port_modPort_self]
  exact ⟨rfl, rfl⟩

theorem State.linkBack_regs (s : State) (p : Nat) : (s.linkBack p).reg .PCI_LINK_STAT_UP p = 1 ∧
    (s.linkBack p).reg .PCI_LINK_STAT_TIMER_RUN p = 0 :=
  ⟨(State.reg_setReg_field _ _ _ _ _ _ (by decide)).trans (State.reg_setReg_self (s.raise p 0x70) ..),
    State.reg_setReg_self ((s.raise p 0x70).setReg .PCI_LINK_STAT_UP p 1) ..⟩

theorem State.linkBack_within (s : State) (p : Nat) : s.Within [.regs, .xfers, .ports, .helm] (s.linkBack p) :=
  State.atsOff_within (State.modPort_within (State.setReg_within (State.setReg_within
    (State.raise_within (.refl _ s) p 0x70 (by decide) (by decide)) _ _ _ (by decide)) _ _ _ (by decide)) _ _ (by decide)) _
    (by decide) (by decide)

/-- What holds of every value listed and of the default holds of every value read. -/
theorem Tbl.getD_of_forall {κ α : Type} [DecidableEq κ] {P : α → Prop} {t : Tbl κ α} {d : α} (ht : ∀ e ∈ t, P e.2)
    (hd : P d) (k : κ) : P (Tbl.getD t k d) := by
  induction t with
  | nil => exact hd
  | cons e t ih =>
    obtain ⟨he, hrest⟩ := List.forall_mem_cons.mp ht
    obtain ⟨j, w⟩ := e
    by_cases hj : j = k
    · simpa [Tbl.getD, Tbl.get?, hj] using he
    · simpa [Tbl.getD, Tbl.get?, hj] using ih hrest

/-- No pass is in service and no completion waits for a place (R244, R250). -/
structure State.Idle (s : State) : Prop where
  passes : ∀ y, (s.ctx y).passes = []
  owed : ∀ y, (s.ctx y).owed = []

/-- Messages and completion entries leave what makes contexts idle. -/
theorem State.PortFrame.idle {t : State} (h : s.PortFrame Ctx.work t) (hs : s.Idle) : t.Idle :=
  ⟨fun y => (congrArg Ctx.passes (h.ctx y)).trans (hs.passes y), fun y => (congrArg Ctx.owed (h.ctx y)).trans (hs.owed y)⟩

/-- What an idle context holds for the host goes out again with no byte of HBM changed. -/
theorem State.reissue_idle (hs : s.Idle) (x : Nat) :
    (((s.cqGo x).releaseMsgs x).retirePasses x).Idle ∧ (((s.cqGo x).releaseMsgs x).retirePasses x).hbm = s.hbm := by
  have hidle : ((s.cqGo x).releaseMsgs x).Idle :=
    ((s.cqGo_work x (hs.owed x)).trans (State.releaseMsgs_portFrame _ x)).idle hs
  have hw : s.Within [.regs, .ctxs, .ports, .out] ((s.cqGo x).releaseMsgs x) :=
    State.releaseMsgs_within (State.cqGo_within (.refl _ s) x (by decide) (by decide) (by decide) (by decide)) x
      (by decide) (by decide) (by decide) (by decide)
  rw [State.retirePasses, hidle.passes x]
  exact ⟨hidle, hw.hbm⟩

/-- No step of the fold over a port's contexts writes HBM, and each leaves the contexts idle. -/
theorem State.reissuePort_hbm (hs : s.Idle) (p : Nat) : (s.reissuePort p).hbm = s.hbm := by
  unfold State.reissuePort
  generalize s.ctxsOf p _ = l
  induction l generalizing s with
  | nil => rfl
  | cons x l ih =>
    obtain ⟨hidle, hhbm⟩ := State.reissue_idle hs x
    rw [List.foldl_cons, ih hidle, hhbm]


end

section
variable {s : State} {port : Fin 2}

/-- A link that comes back leaves the bytes of HBM where the contexts are idle. -/
theorem State.linkUp_hbm {t : State} (hidle : s.Idle) (ht : t = ((s.linkBack port).pbaFlush port)) :
    (t.reissuePort port).priAll.hbm = s.hbm := by
  have hback := s.linkBack_within port
  have hflush : (s.linkBack port).Within [.ports, .out] t :=
    ht ▸ State.pbaFlush_within (.refl _ _) _ (by decide) (by decide)
  have hctxs : t.ctxs = s.ctxs := hflush.ctxs.trans hback.ctxs
  have hctx (y : Nat) : t.ctx y = s.ctx y := by rw [State.ctx, hctxs, ← State.ctx]
  have hidle' : t.Idle := ⟨fun y => hctx y ▸ hidle.passes y, fun y => hctx y ▸ hidle.owed y⟩
  have hpri : (t.reissuePort port).Within [.regs, .xfers, .ports, .out] (t.reissuePort port).priAll :=
    State.priAll_within (.refl _ _) (by decide) (by decide) (by decide) (by decide)
  rw [hpri.hbm, State.reissuePort_hbm hidle', hflush.hbm, hback.hbm]

/-- A link that was not lost only shows that it is up. -/
theorem exec_linkUp_kept (hlink : (s.port port).lost = false) : exec (.linkUp port) s = .next
    ((if s.regB .PCI_LINK_STAT_UP port then s else s.raise port 0x70).setReg .PCI_LINK_STAT_UP port 1) := by
  have hstill (t : State) (ht : s.PortFrame Ctx.work t) : ((t.setReg .PCI_LINK_STAT_UP port 1).port port).lost = false :=
    (ht.link_lost port).trans hlink
  cases hup : s.regB .PCI_LINK_STAT_UP port with
  | true => simp [exec, execLinkUp, hlink, hup, hstill _ .refl]
  | false => simp [exec, execLinkUp, hlink, hup, hstill _ (s.raise_portFrame port 0x70)]

/-! ## Function level resets and the lease (R227, R228, R231, R232) -/

theorem State.dropLease_holdsLease (s : State) (p : Nat) : (s.dropLease p).holdsLease p = false := by
  unfold State.dropLease
  split
  · rw [State.holdsLease, State.reg_setReg_self]
    exact beq_false_of_ne (Nat.succ_ne_zero p).symm
  · next h => exact Bool.eq_false_iff.mpr h

/-- The configuration space of a port after a Function Level Reset of its PF; `left` says that a context is not FREE yet. -/
def PortS.functionReset (q : PortS) (left : Bool) : PortS :=
  { q with flr := left, ats := false, vfEn := false, numVfs := 0, conf := [], msix := [], pba := [] }

/-- The PF's reset kills the port's contexts and gives up its translations; it goes on while a context is not FREE (R232). -/
theorem exec_pfFlr (hready : s.portReady port = true) : exec (.pfFlr port) s =
    .next (((s.killPort port).dropAts port).modPort port (·.functionReset
      ((List.range 1024).any (fun x => ((s.killPort port).dropAts port).owns port x)))) := by
  simp only [exec, execPfFlr, hready, Bool.not_true, Bool.false_eq_true, if_false]
  rfl

theorem exec_vfFlr {vf : Nat} (hready : s.portReady port = true) (hexists : s.vfExists port vf = true)
    (hvalid : s.regB .PCI_VF_CTX_VALID (port.val * 511 + vf) = true)
    (howned : s.owns port (s.reg .PCI_VF_CTX_CTX (port.val * 511 + vf)) = true) : exec (.vfFlr port vf) s =
    .next (((s.resetVf port vf).killCtx (s.reg .PCI_VF_CTX_CTX (port.val * 511 + vf)) false).priAll) := by
  have hvalid' : (s.resetVf port vf).regB .PCI_VF_CTX_VALID (port.val * 511 + vf) = true := hvalid
  have howned' : (s.resetVf port vf).owns port (s.reg .PCI_VF_CTX_CTX (port.val * 511 + vf)) = true := howned
  simp only [exec, execVfFlr, hready, hexists, hvalid', howned', Bool.not_true, Bool.or_self, Bool.false_eq_true, and_self,
    if_false, if_true]

theorem exec_leaseAcquire (hgrant : s.access (.port port) .PKG_LEASE 0 0 true = .granted) : exec (.leaseAcquire port) s =
    .next (if s.reg .PKG_LEASE_HOLDER 0 = 0 then s.setReg .PKG_LEASE_HOLDER 0 (port + 1)
      else if s.holdsLease port then s else s.violation port) :=
  congrArg _ (State.writeAs_granted hgrant _)

theorem exec_leaseRelease (hgrant : s.access (.port port) .PKG_LEASE 0 0 true = .granted)
    (hlease : s.holdsLease port = true) : exec (.leaseRelease port) s = .next (s.setReg .PKG_LEASE_HOLDER 0 0) := by
  simp only [exec, execLeaseRelease, State.writeAs_granted hgrant, State.dropLease, hlease, if_true]

theorem exec_leaseTimeout (h : s.leaseOver port = true) : exec (.leaseTimeout port) s = .next (s.killPort port) :=
  congrArg _ (if_pos h)

/-! ## VFs and port errors (R220 to R222, R224, R225) -/

theorem exec_vfEnable (hready : s.portReady port = true) (en : Bool) (num : Nat) : exec (.vfEnable port en num) s =
    let u := s.modPort port (fun q => { q with vfEn := en, numVfs := min num 511 })
    .next (((u.ctxsOf port (fun _ => true)).foldl State.releaseMsgs u).pbaFlush port) := by
  simp only [exec, execVfEnable, hready, Bool.not_true, Bool.false_eq_true, if_false]

/-- An entry of PCI_VF_CTX that names a context of the port, which no other entry names. -/
def State.vfNamed (s : State) (k x : Nat) : State := (s.setReg .PCI_VF_CTX_CTX k x).setReg .PCI_VF_CTX_VALID k 1

theorem State.vfNamed_shows (s : State) (k : Nat) {x : Nat} (hx : x < 1024) :
    (s.vfNamed k x).reg .PCI_VF_CTX_CTX k = x ∧ (s.vfNamed k x).reg .PCI_VF_CTX_VALID k = 1 := by
  refine ⟨?_, State.reg_setReg_self ..⟩
  rw [State.vfNamed, State.reg_setReg_field _ _ _ _ _ _ (by decide), State.reg_setReg_self]
  exact Nat.mod_eq_of_lt hx

theorem exec_pciVfCtxWrite {i : Fin 511} {v : BitVec 32} (hgrant : s.access (.port port) .PCI_VF_CTX port i true = .granted)
    (hoff : (s.port port).vfEn = false) (hvalid : natBits v.toNat 10 1 = 1) (hreal : v.toNat % 1024 ≠ 0)
    (howned : s.owns port (v.toNat % 1024) = true) (hnew : s.namedElsewhere port i (v.toNat % 1024) = false) :
    let k := port.val * 511 + i.val
    let t := s.vfNamed k (v.toNat % 1024)
    exec (.pciVfCtxWrite port i v) s =
      .next (if s.regB .PCI_VF_CTX_VALID k then t.releaseMsgs (s.reg .PCI_VF_CTX_CTX k) else t) := by
  have hreal' : (v.toNat % 1024 == 0) = false := beq_false_of_ne hreal
  simp only [exec, execPciVfCtxWrite, State.writeAs_granted hgrant, State.vfCtxWritten, hoff, hvalid, hreal', howned, hnew,
    beq_self_eq_true, Bool.not_true, Bool.or_self, Bool.and_false, Bool.false_eq_true, if_false, if_true]
  rfl

theorem exec_poisonedWrite (hlink : (s.port port).lost = false) :
    exec (.poisonedWrite port) s = .next (s.aer port .poisoned) := by
  simp only [exec, execPoisonedWrite, hlink, Bool.false_eq_true, if_false]

theorem exec_configRequestNotReady (hlink : (s.port port).lost = false)
    (hnot : (s.port port).ready = false ∨ (s.port port).flr = true) :
    exec (.configRequestNotReady port) s = .next (s.send (.crs port)) := by
  have hgo : ((s.port port).ready && !(s.port port).flr) = false := by
    rcases hnot with h | h <;> simp [h]
  simp only [exec, execConfigRequestNotReady, hlink, hgo, Bool.or_self, Bool.false_eq_true, if_false]

/-! ## The package (R256) -/

/-- The lease holder's command to the package acts in the state that it is for, else it sets CMDERR 1. -/
theorem State.pkgCommand_holder (hgrant : s.access (.port port) .PKG_CTL 0 0 true = .granted)
    (hlease : s.holdsLease port = true) (n : Nat) (act : State → State) : s.pkgCommand port n act =
    if s.reg .PKG_STATE_STATE 0 ≠ n then s.setReg .PKG_STATE_CMDERR 0 1 else act s := by
  simp only [State.pkgCommand, State.writeAs_granted hgrant, hlease, Bool.not_true, Bool.false_eq_true, if_false]

theorem exec_pkgStopped (hstate : s.reg .PKG_STATE_STATE 0 = 1) (hconfigs : s.configsServed = false)
    (hall : ∀ e ∈ s.ctxs, s.cst e.1 = 6 ∨ (e.2.holds = false ∧ e.2.busy = .none)) :
    exec .pkgStopped s = .next ((s.setReg .PKG_STATE_STATE 0 2).bump .PKG_STATE_STOPS 0) := by
  have hnone : s.ctxs.any (fun e => decide (s.cst e.1 ≠ 6) && (e.2.holds || decide (e.2.busy ≠ .none))) = false := by
    refine List.any_eq_false.mpr fun e he => ?_
    rcases hall e he with h | ⟨hholds, hbusy⟩
    · simp [h]
    · simp [hholds, hbusy]
  simp only [exec, execPkgStopped, hstate, hconfigs, hnone, ne_eq, not_true_eq_false, Bool.false_eq_true, or_self, if_false]

theorem exec_pkgRestartDone (hstate : s.reg .PKG_STATE_STATE 0 = 3) (hall : ∀ e ∈ s.ctxs, e.2.busy ≠ .resuming)
    (hrates : s.ratesSettled = true) : exec .pkgRestartDone s = .next (s.setReg .PKG_STATE_STATE 0 0) := by
  have hnone : s.ctxs.any (fun e => decide (e.2.busy = .resuming)) = false := by simpa using hall
  simp only [exec, execPkgRestartDone, hstate, hnone, hrates, ne_eq, not_true_eq_false, Bool.true_eq_false, Bool.false_eq_true,
    or_self, if_false]

/-! ### What a restart leaves of the package's state -/

section
open State (PortFrame)

theorem timingFields_not_port : ∀ b, ∀ f ∈ timingFields b, f ∉ portFields := by decide

theorem State.hbmState_portFrame (s : State) (h w : Nat) : s.PortFrame Ctx.any (s.hbmState h w) :=
  .ite .refl ((PortFrame.refl.setReg ..).trans (State.raise_portFrame ..).forget)

theorem State.loadTiming_portFrame (s : State) (h : Nat) (b : Bool) (rate : Nat) :
    s.PortFrame Ctx.any (s.loadTiming h b rate) := by
  have hload : s.PortFrame Ctx.any ((timingFields b).foldl (fun s f => (s.setReg f h s.freeVal).drew 1) s) :=
    .foldl _ fun t f hf => (PortFrame.refl.setReg f h _ (timingFields_not_port b f hf)).drew 1
  exact hload.setReg _ h rate (by cases b <;> decide)

theorem State.newRate_portFrame (s : State) (h : Nat) : s.PortFrame Ctx.any (s.newRate h) := by
  unfold State.newRate
  extract_lets r s1
  have h1 : s.PortFrame Ctx.any s1 := .of_same rfl rfl rfl
  exact .ite .refl (.ite h1 (((h1.trans (State.loadTiming_portFrame ..)).setReg ..).trans (State.hbmState_portFrame ..)))

theorem State.salRestart_portFrame (s : State) (die p : Nat) : s.PortFrame Ctx.any (s.salRestart die p) :=
  .ite .refl (.of_same rfl rfl rfl)

theorem State.resumeCtx_portFrame (s : State) (x : Nat) : s.PortFrame Ctx.any (s.resumeCtx x) := by
  have h : s.PortFrame Ctx.any ((s.takeHold x).modCtx x (fun t =>
    { t with busy := .resuming, toRestore := t.saved, lostImage := none })) := .any_of_same rfl rfl
  exact (h.setReg ..).setReg ..

theorem State.restartCtx_portFrame (s : State) (x : Nat) : s.PortFrame Ctx.any (s.restartCtx x) := by
  unfold State.restartCtx
  extract_lets s1 e
  have h1 : s.PortFrame Ctx.any s1 := PortFrame.refl.setReg ..
  exact .ite ((h1.setReg ..).trans (State.event_portFrame ..).forget) (h1.trans (State.resumeCtx_portFrame ..))

end

/-- The package as a restart leaves it: rates and port widths that are due are carried out, held contexts resume (R182, R256). -/
def State.pkgRestarted (s : State) : State :=
  let t := (List.range (2 * s.dies)).foldl State.newRate (s.governAfresh.setReg .PKG_STATE_STATE 0 3)
  let u := (List.range (4 * t.dies)).foldl (fun s i => s.salRestart (i / 4) (i % 4)) t
  ((u.ctxs.map (·.1)).filter (fun x => u.regB .CTX_STATE_PKG_HELD x && decide (u.cst x = 3))).foldl State.restartCtx u

theorem State.pkgRestarted_state (s : State) : s.pkgRestarted.reg .PKG_STATE_STATE 0 = 3 := by
  unfold State.pkgRestarted
  extract_lets t u
  have ht : (s.governAfresh.setReg .PKG_STATE_STATE 0 3).PortFrame Ctx.any t := .foldl _ fun t h _ => t.newRate_portFrame h
  have hu : t.PortFrame Ctx.any u := .foldl _ fun t i _ => t.salRestart_portFrame ..
  have hlast (l : List Nat) : u.PortFrame Ctx.any (l.foldl State.restartCtx u) := .foldl _ fun t x _ => t.restartCtx_portFrame x
  exact (((ht.trans hu).trans (hlast _)).reg .PKG_STATE_STATE 0).trans (State.reg_setReg_self ..)

theorem exec_pkgRestart (hgrant : s.access (.port port) .PKG_CTL 0 0 true = .granted) (hlease : s.holdsLease port = true)
    (hstate : s.reg .PKG_STATE_STATE 0 = 2) : exec (.pkgRestart port) s = .next s.pkgRestarted :=
  congrArg Host.Outcome.next ((State.pkgCommand_holder hgrant hlease 2 _).trans (if_neg (not_not.mpr hstate)))

end

end Sys2Proof.Machine

open Sys2Proof Sys2Proof.Machine

/-! ## The obligations -/

/-- Settles O30: a doorbell that acts reaches the context of its page, and a slot that is read is taken, or noted as one of another
lap, by its generation. -/
theorem ringsComplete : Obligations.RingsComplete := by
  unfold Obligations.RingsComplete
  intro x b via v s d u
  refine ⟨fun hfetch htr hgen hopen => ?_, fun hfetch htr hgen => ?_,
    fun hwait => ⟨exec_ringPoll hwait _, exec_completes _ s⟩, fun h => exec_sqTail h v,
    fun h => ⟨_, exec_eventAck h v, ?_, ?_⟩, fun h hin hpast => ?_, fun h hout => ?_,
    fun q h hq hroom => ?_, fun h hnone => ?_⟩
  · rw [exec_descriptorFetch hfetch htr, if_neg (not_not.mpr hgen),
      if_neg (Bool.eq_false_iff.mp hopen : ¬(s.slotRead x).openWaits x d = true)]
    rfl
  · obtain ⟨hwait, hcopies, hhead⟩ := (s.slotRead x).genMiss_frame x
    refine ⟨_, (exec_descriptorFetch hfetch htr b).trans (congrArg _ (if_pos hgen)), hwait, ?_, ?_⟩
    · rw [hcopies, State.slotRead_copies]
    · rw [hhead, State.slotRead_reg]
  · simp only [State.acked_eq]
  · simp [State.reg_acked]
  · rw [exec_cqHead h, Nat.mod_eq_of_lt hin, if_neg (not_or.mpr ⟨Nat.not_le.mpr hin, Nat.not_lt.mpr hpast⟩)]
  · rw [exec_cqHead h, if_pos (.inl hout)]
  · rw [exec_streamArmDoorbell h, State.offerAt, hq]
    exact congrArg _ (State.offer_room hroom ..)
  · rw [exec_streamArmDoorbell h, State.offerAt, hnone]

/-- Settles O37: a command acts by the state of its context; a RUN that takes hold, and a STOP or PAUSE that ends, show in registers
that the event of the context leaves, and in parts of the context that its message leaves. -/
theorem contextCommandsComplete : Obligations.ContextCommandsComplete := by
  unfold Obligations.ContextCommandsComplete
  intro port x s
  refine ⟨fun hgrant hreal hidle hfree => ?_, fun h hpkg hhold => ?_, fun h hpkg hhold => ?_, fun h hpkg => ?_,
    fun st h hopen hstopped => ?_, exec_ctxStop, fun hbusy hrun hall => ?_, fun st hst h => ?_, fun hbusy hpaused hrecord => ?_,
    exec_ctxCmdReserved⟩
  · have hexec := exec_ctxOpen hgrant hreal hidle hfree
    have hreach := within_reach_of_exec hexec
    exact ⟨hexec, s.openCtx_cst port x, s.openCtx_owns port x, hreach.cores (Area.not_mem_of_contains rfl),
      hreach.hbm (Area.not_mem_of_contains rfl)⟩
  · obtain ⟨hst, hholds, herr⟩ := s.holdDone_runs x
    have hexec : exec (.ctxRun port x) s = .next (((s.takeHold x).setReg .CTX_STATE_STATE x 2).cmdDone x) := by
      rw [exec_ctxRun h]
      simp [hpkg, hhold, h.inState]
    exact ⟨_, hexec, hst, hholds, herr, exec_leaves_hbm hexec rfl⟩
  · rw [exec_ctxRun h]
    simp [hpkg, hhold, h.inState]
  · rw [exec_ctxRun h]
    simp [hpkg, h.inState]
  · rw [exec_ctxRun h]
    simp [hopen, hstopped]
  · obtain ⟨hst, hidle, hevent⟩ := State.endsIn_shows (n := 4) (by decide) (s.modCtx x (fun t => { t with busy := .none })) x
    have hexec := exec_ctxStopDone hbusy hrun hall
    have hreach := within_reach_of_exec hexec
    exact ⟨_, hexec, hst, hidle, hevent, hreach.cores (Area.not_mem_of_contains rfl),
      hreach.hbm (Area.not_mem_of_contains rfl)⟩
  · rw [exec_ctxPause h]
    rcases hst with rfl | rfl <;> rfl
  · obtain ⟨hst, hidle, -⟩ := State.endsIn_shows (n := 3) (by decide) (s.pauseSaved x) x
    obtain ⟨hholds, hbusy'⟩ := s.pauseSaved_ctx x
    obtain ⟨m, p, hctx⟩ := (s.pauseSaved x).endsIn_ctx x 3
    exact ⟨_, exec_ctxPauseDone hbusy hpaused hrecord, hst, hidle, by rw [hctx]; exact hholds, by rw [hctx]; exact hbusy'⟩

/-- Settles O39: the lease and the package's commands by who holds the lease and the package's state; nothing that a restart does
once it has entered RESTARTING changes that state. -/
theorem packageCommandsComplete : Obligations.PackageCommandsComplete := by
  unfold Obligations.PackageCommandsComplete
  intro port s
  refine ⟨fun hgrant hfree => ?_, fun hgrant htaken hother => ?_, fun hgrant hlease => ⟨exec_leaseRelease hgrant hlease, ?_⟩,
    exec_leaseTimeout, fun hgrant hlease hrun => ?_, fun hgrant hlease hrun => ?_, exec_pkgStopped,
    fun hgrant hlease hstate => ?_, exec_pkgRestartDone⟩
  · rw [exec_leaseAcquire hgrant, if_pos hfree]
  · rw [exec_leaseAcquire hgrant, if_neg htaken, if_neg (Bool.eq_false_iff.mp hother)]
  · exact State.reg_setReg_field _ _ _ _ _ _ (by decide)
  · exact congrArg _ ((State.pkgCommand_holder hgrant hlease ..).trans (if_neg (not_not.mpr hrun)))
  · exact congrArg _ ((State.pkgCommand_holder hgrant hlease ..).trans (if_pos hrun))
  · have hexec := exec_pkgRestart hgrant hlease hstate
    exact ⟨_, hexec, s.pkgRestarted_state, exec_leaves_hbm hexec rfl⟩

/-- Settles O40: what follows a link event, a reset or a write of VF settings in one command leaves the ports' registers and modes
(`State.PortFrame`); HBM outlasts a link that comes back where no pass can retire. -/
theorem portEventsComplete : Obligations.PortEventsComplete := by
  unfold Obligations.PortEventsComplete
  intro port s
  refine ⟨fun ev hlink hup => ?_, fun hlink => ?_, fun hlink => ?_, fun hready => ?_, fun vf => exec_vfFlr,
    fun en num hready => ?_, ?_, exec_poisonedWrite, exec_configRequestNotReady⟩
  · have hexec := exec_linkLoss hlink hup ev
    obtain ⟨hlost, hat⟩ := s.linkGone_port port ev
    obtain ⟨htimer, hshown⟩ := s.linkGone_regs port ev
    have hcut := (s.linkGone port ev).linkCut_portFrame port
    have hall := hcut.trans (State.dropAts_portFrame _ port)
    have hport := State.dropAts_port (((s.linkGone port ev).ctxsOf port (· == 2)).foldl State.pauseLink
      ((s.linkGone port ev).cutHost port)) port
    refine ⟨_, hexec, (hall.link_lost port).trans hlost, (hall.link_lostAt port).trans hat, by rw [hport]; rfl,
      by rw [hport]; rfl, (hall.reg ..).trans htimer, exec_leaves_hbm hexec rfl, ?_⟩
    rw [hall.reg .PCI_LINK_STAT_UP port, hshown, beq_iff_eq.mp hup]
  · have hexec := exec_linkUp_lost hlink
    obtain ⟨hlost, hats⟩ := s.linkBack_port port
    obtain ⟨hup, htimer⟩ := s.linkBack_regs port
    have hall : (s.linkBack port).PortFrame Ctx.any ((((s.linkBack port).pbaFlush port).reissuePort port).priAll) :=
      ((State.pbaFlush_portFrame ..).forget.trans (State.reissuePort_portFrame ..)).trans (State.priAll_portFrame ..)
    refine ⟨_, hexec, (hall.link_lost port).trans hlost, (hall.reg ..).trans hup, (hall.reg ..).trans htimer,
      (hall.ats port).trans hats, fun hidle => ⟨?_, (within_reach_of_exec hexec).cores (Area.not_mem_of_contains rfl)⟩⟩
    have hidle' : s.Idle :=
      ⟨fun y => (Tbl.getD_of_forall (P := fun t : Ctx => t.passes = [] ∧ t.owed = []) hidle ⟨rfl, rfl⟩ y).1,
        fun y => (Tbl.getD_of_forall (P := fun t : Ctx => t.passes = [] ∧ t.owed = []) hidle ⟨rfl, rfl⟩ y).2⟩
    exact State.linkUp_hbm hidle' rfl
  · refine ⟨_, exec_linkUp_kept hlink, State.reg_setReg_self .., ?_⟩
    have hw : s.Within [.regs, .helm] (if s.regB .PCI_LINK_STAT_UP port then s else s.raise port 0x70) := by
      split
      · exact .refl _ s
      · exact State.raise_within (.refl _ s) port 0x70 (by decide) (by decide)
    exact ⟨hw.ports, hw.hbm, hw.cores, hw.ctxs⟩
  · refine ⟨_, exec_pfFlr hready, ?_, ?_, ?_, ?_⟩
    · rw [State.port_modPort_self]; rfl
    · rw [State.port_modPort_self]; rfl
    · rw [State.port_modPort_self, State.dropAts_port]; rfl
    · have hlease : ((s.killPort port).dropAts port).holdsLease port = (s.killPort port).holdsLease port :=
        congrArg (· == port.val + 1) (((s.killPort port).dropAts_portFrame port).reg .PKG_LEASE_HOLDER 0)
      exact hlease.trans (State.dropLease_holdsLease ..)
  · have hexec := exec_vfEnable hready en num
    let u := s.modPort port (fun q => { q with vfEn := en, numVfs := min num 511 })
    have hport : u.port port = { s.port port with vfEn := en, numVfs := min num 511 } := State.port_modPort_self ..
    have hall : u.PortFrame Ctx.work (((u.ctxsOf port (fun _ => true)).foldl State.releaseMsgs u).pbaFlush port) :=
      State.PortFrame.trans (.foldl _ fun t x _ => t.releaseMsgs_portFrame x) (State.pbaFlush_portFrame ..)
    refine ⟨_, hexec, (hall.vfEn port).trans ?_, (hall.numVfs port).trans ?_, exec_leaves_hbm hexec rfl⟩ <;> rw [hport]
  · intro i v k hgrant hoff hvalid hreal howned hnew
    obtain ⟨hctx, hshown⟩ := s.vfNamed_shows k (Nat.mod_lt v.toNat (by decide : 1024 > 0))
    have hframe : (s.vfNamed k (v.toNat % 1024)).PortFrame Ctx.work (if s.regB .PCI_VF_CTX_VALID k then
        (s.vfNamed k (v.toNat % 1024)).releaseMsgs (s.reg .PCI_VF_CTX_CTX k) else s.vfNamed k (v.toNat % 1024)) :=
      .ite (State.releaseMsgs_portFrame ..) .refl
    exact ⟨_, exec_pciVfCtxWrite hgrant hoff hvalid hreal howned hnew, (hframe.reg .PCI_VF_CTX_CTX k).trans hctx,
      (hframe.reg .PCI_VF_CTX_VALID k).trans hshown⟩
end
section
/-! SUPPORT and PROOFS for 10_contexts_rings.md and 13_configuration.md: the nanosecond that a step with no command lets pass,
descriptors that need no engine, configuration streams and flash writes. -/

-- As in the architect's lemma files: one declaration at a time keeps the compile within check.sh's memory.
set_option Elab.async false

namespace Sys2Proof.Machine

/-! ## A nanosecond with no command waiting (R243, R284, R287, R288, R293, R296, R312; log 7) -/

section
variable {s : State}

theorem step_of_idle (h : s.pending = []) : step s = .next s.tick := by
  simp only [step, h]

theorem State.tick_off (h : s.module.off = true) : s.tick = s := if_pos h

theorem State.tick_on (h : s.module.off = false) :
    s.tick = { s.logicTick.rawTick.sliceTick.portTick with timer := (s.timer + 1) % 2 ^ 48 } :=
  if_neg (Bool.eq_false_iff.mp h)

theorem State.logicTick_unframed (h : s.framedRegions = []) : s.logicTick = s := by
  simp only [State.logicTick, h, List.isEmpty_nil, if_true]

/-- The logic cells, segments, borders and pins capture, and draw a value; nothing else of the module is theirs. -/
theorem State.logicTick_eq (s : State) : ∃ free elems segs border pinIn, s.logicTick =
    { s with free := free, fab := { s.fab with elems := elems, segs := segs, border := border, pinIn := pinIn } } := by
  unfold State.logicTick
  extract_lets
  split
  · exact ⟨_, _, _, _, _, rfl⟩
  · exact ⟨_, _, _, _, _, rfl⟩

/-- Raw lanes, slices and block RAM ports are not the logic's. -/
theorem State.logicTick_blocks (s : State) : s.logicTick.fab.raw = s.fab.raw ∧ s.logicTick.fab.slices = s.fab.slices ∧
    s.logicTick.fab.ports = s.fab.ports := by
  obtain ⟨free, elems, segs, border, pinIn, h⟩ := s.logicTick_eq
  rw [h]
  exact ⟨rfl, rfl, rfl⟩

/-- What becomes of an entry of a table whose entries each go on under their own key. -/
theorem Tbl.mem_map_value {κ α : Type} {t : Tbl κ α} {f : κ × α → κ × α} {P : α → α → Prop} {e : κ × α}
    (hf : ∀ e, (f e).1 = e.1 ∧ P e.2 (f e).2) (he : e ∈ t.map f) : ∃ v, (e.1, v) ∈ t ∧ P v e.2 := by
  obtain ⟨e', hmem, rfl⟩ := List.mem_map.mp he
  obtain ⟨hkey, hval⟩ := hf e'
  exact ⟨e'.2, by rwa [hkey], hval⟩

/-- A lane gives at most its first block (R312). -/
theorem State.mem_rawTick {e : Nat × List (BitVec 256 × Bool)} (he : e ∈ s.rawTick.fab.raw) :
    ∃ l, (e.1, l) ∈ s.fab.raw ∧ (e.2 = l ∨ e.2 = l.drop 1) := by
  refine Tbl.mem_map_value (P := fun l m => m = l ∨ m = l.drop 1) (fun e => ?_) he
  dsimp only
  split
  · exact ⟨rfl, .inr rfl⟩
  · exact ⟨rfl, .inl rfl⟩

/-- A slice that runs stays as it is; one that stands goes through at most one cycle (R300). -/
theorem State.mem_sliceTick {e : Nat × Slice} (he : e ∈ s.sliceTick.fab.slices) :
    ∃ k, (e.1, k) ∈ s.fab.slices ∧ (e.2 = k ∨ k.running = false ∧ e.2 = k.cycle) := by
  refine Tbl.mem_map_value (P := fun k m => m = k ∨ k.running = false ∧ m = k.cycle) (fun e => ?_) he
  dsimp only
  split
  case isTrue h =>
    simp only [Bool.and_eq_true, Bool.not_eq_true'] at h
    obtain ⟨⟨⟨hstands, -⟩, -⟩, -⟩ := h
    exact ⟨rfl, .inr ⟨hstands, rfl⟩⟩
  case isFalse => exact ⟨rfl, .inl rfl⟩

/-- A block RAM port keeps what it shows, but for its UE, which falls (R293). -/
theorem State.mem_portTick {e : Nat × BitVec 64 × Bool} (he : e ∈ s.portTick.fab.ports) :
    ∃ v, (e.1, v) ∈ s.fab.ports ∧ e.2.1 = v.1 ∧ (e.2.2 = v.2 ∨ e.2.2 = false) := by
  refine Tbl.mem_map_value (P := fun v m => m.1 = v.1 ∧ (m.2 = v.2 ∨ m.2 = false)) (fun e => ?_) he
  dsimp only
  split
  · exact ⟨rfl, rfl, .inr rfl⟩
  · exact ⟨rfl, rfl, .inl rfl⟩

end

/-! ## Descriptors that begin (R241, R247) -/

/-- The registers that a missed deadline may change: the count of misses, the event, and what its message may (R214, R246). -/
def missFields : List Fld := .XFR_CTX_MISS_MISSES :: .CTX_EVENT_DEADLINE :: entryFields

theorem State.missed_regsBut (s : State) (x : Nat) : s.RegsBut missFields (s.missed x) := by
  have hevent (t : State) : t.RegsBut missFields (t.event .CTX_EVENT_DEADLINE x) :=
    .ite .refl ((RegsBut.refl.setReg ..).trans ((State.evMessage_regsBut ..).mono (by decide)))
  exact RegsBut.trans (RegsBut.refl.bump .XFR_CTX_MISS_MISSES x) (hevent _)

theorem State.missCopy_regsBut (s : State) (x : Nat) (c : Copy) : s.RegsBut missFields (s.missCopy x c) := by
  unfold State.missCopy
  split
  · exact .refl
  · refine RegsBut.trans ?_ (State.missed_regsBut ..)
    exact .of_regs rfl

theorem State.begun_regsBut (s : State) (x i : Nat) : s.RegsBut missFields (s.begun x i) := by
  unfold State.begun
  cases (s.ctx x).copy? i with
  | none => exact .of_regs rfl
  | some c => exact (s.missCopy_regsBut x c).of_regs_eq rfl

theorem State.within_begun (s : State) (x i : Nat) : s.Within [.regs, .ctxs, .ports, .out] (s.begun x i) := by
  have hmiss : s.Within [.regs, .ctxs, .ports, .out] ((((s.ctx x).copy? i).map (s.missCopy x)).getD s) := by
    cases (s.ctx x).copy? i with
    | none => exact .refl _ s
    | some c => exact State.missCopy_within (.refl _ s) x c (by decide) (by decide) (by decide) (by decide)
  exact State.modCtx_within hmiss x _ (by decide)

section
variable {s : State} {x i op : Nat} {c k : Copy}

/-- A descriptor acts under any condition on its operation that the operation meets. -/
theorem State.Begins.begins_any (h : s.Begins x i op c) (hk : ((s.begun x i).ctx x).copy? i = some k) {ops : Nat → Bool}
    (hop : ops op = true) (act : Copy → State → State) : s.begins x i ops act = act k (s.begun x i) := by
  rw [← h.begins hk act]
  simp only [State.begins, h.fetched, h.coded, hop, beq_self_eq_true]

/-- One that waits for every earlier descriptor acts where they have completed (R241). -/
theorem State.Begins.beginsLast (h : s.Begins x i op c) (hk : ((s.begun x i).ctx x).copy? i = some k)
    (hlast : (s.ctx x).earlierDone i = true) (act : Copy → State → State) :
    s.beginsLast x i (· == op) act = act k (s.begun x i) := by
  rw [State.beginsLast, if_pos hlast, h.begins hk]

end

section
variable {s t : State} {x : Fin 1024} {i n : Nat} {c k : Copy} {flag : FlagSeen} {d : EndSpec}

/-! ### NOP, FENCE, TIMESTAMP (R241, R247, R248, R260) -/

theorem exec_descNop {op : Nat} (h : s.Begins x i op c) (hk : ((s.begun x i).ctx x).copy? i = some k)
    (hop : op = 0 ∨ 0x0F ≤ op) :
    exec (.descNop x i) s = .next ((s.begun x i).complete x i (if op = 0 then 0 else 0x0001) 0) := by
  simp only [exec, execDescNop, h.begins_any hk (ops := fun op => op == 0 || decide (0x0F ≤ op)) (by simpa using hop),
    (State.begun_copy? h.fetched hk).bytes, h.coded]

theorem exec_fence (h : s.Begins x i 0x0D c) (hk : ((s.begun x i).ctx x).copy? i = some k)
    (hlast : (s.ctx x).earlierDone i = true) (harms : dF c.bytes 8 1 % 2 = 1 → s.armsDone x c.armsBefore = true) :
    exec (.fence x i) s = .next ((s.begun x i).complete x i 0 0) := by
  have hgo : ¬(dF c.bytes 8 1 % 2 = 1 ∧ s.armsDone x c.armsBefore = false) :=
    fun hwait => Bool.false_ne_true (hwait.2.symm.trans (harms hwait.1))
  simp only [exec, execFence, h.fetched, if_neg hgo, h.beginsLast hk hlast]

theorem exec_timestamp (h : s.Begins x i 0x0E c) (hk : ((s.begun x i).ctx x).copy? i = some k)
    (hlast : (s.ctx x).earlierDone i = true) (hplain : dF c.bytes 8 1 % 2 = 0) :
    exec (.timestamp x i) s = .next ((s.begun x i).complete x i 0 0) := by
  simp only [exec, execTimestamp, h.beginsLast hk hlast, (State.begun_copy? h.fetched hk).bytes, hplain, if_true]

/-- A TIMESTAMP that writes takes the timer as it begins, or stages it as a member (R248, R260). -/
theorem exec_timestamp_writes (h : s.Begins x i 0x0E c) (hk : ((s.begun x i).ctx x).copy? i = some k)
    (hd : d = dSpec c.bytes 16) (hlast : (s.ctx x).earlierDone i = true) (hwrites : dF c.bytes 8 1 % 2 = 1)
    (hplace : ¬(dMember c.bytes = true ∧ noMemberDst d = true)) (hrange : (s.begun x i).rangeOk x d 8 = true) :
    exec (.timestamp x i) s = .next (if dMember c.bytes then (s.begun x i).stampMember x k d
      else (s.begun x i).putBegins x (.desc i) d (natBytes (s.timer % 2 ^ 48) 8)) := by
  simp only [exec, execTimestamp, h.beginsLast hk hlast, (State.begun_copy? h.fetched hk).bytes, hwrites, ← hd, hplace, hrange,
    (s.within_begun x i).timer, one_ne_zero, Bool.not_true, Bool.false_eq_true, if_false]

/-! ### WAIT (R248, R249) -/

/-- A WAIT whose flag is read at once and meets its condition completes. -/
theorem State.judgeWait_holds (hid : k.id = i) (hd : d = dSpec k.bytes 16) (hkind : dF k.bytes 8 1 < 2)
    (hrange : s.rangeOk x d 8 = true) (hreads : s.reads x d 8 = true)
    (hread : (s.readAs x i d).flagRead x i d flag = (t, some (7, n)))
    (hholds : waitHolds (dF k.bytes 8 1) (dF k.bytes 32 8) n = true) : s.judgeWait x k flag = t.complete x i 0 0 := by
  subst hid
  simp only [State.judgeWait, Nat.ne_of_lt hkind, ← hd, hrange, State.withRead_reads hreads, hread, hholds, Bool.not_true,
    Bool.false_eq_true, ne_eq, not_true_eq_false, if_false, if_true]

theorem exec_wait {e : State} (h : s.Begins x i 0x03 c) (hk : ((s.begun x i).ctx x).copy? i = some k)
    (hd : d = dSpec c.bytes 16)
    (he : e = (s.begun x i).modCopy x i (fun k => { k with eng := some ((s.begun x i).pickEngine x (d.kind == 0) d) }))
    (hkind : dF c.bytes 8 1 < 2) (hflag : badFlag d = false) (hrange : e.rangeOk x d 8 = true) (hreads : e.reads x d 8 = true)
    (hread : (e.readAs x i d).flagRead x i d flag = (t, some (7, n)))
    (hholds : waitHolds (dF c.bytes 8 1) (dF c.bytes 32 8) n = true) :
    exec (.wait x i flag) s = .next (t.complete x i 0 0) := by
  have hbytes := (State.begun_copy? h.fetched hk).bytes
  have hsound : ¬(3 ≤ dF c.bytes 8 1 ∨ badFlag d = true) :=
    not_or.mpr ⟨by omega, Bool.eq_false_iff.mp hflag⟩
  rw [← hbytes] at hd hkind hholds hsound
  subst he
  simp only [exec, execWait, h.begins hk, ← hd, hsound, Nat.ne_of_lt hkind, if_false]
  exact congrArg _ (State.judgeWait_holds (Ctx.copy?_id hk) hd hkind hrange hreads hread hholds)

theorem exec_waitPoll (hc : (s.ctx x).copy? i = some c) (hd : d = dSpec c.bytes 16) (hwaiting : c.waiting = true)
    (hlive : s.pausedCtx x = false) (hroom : s.heldFull x = false) (hkind : dF c.bytes 8 1 < 2)
    (hrange : s.rangeOk x d 8 = true) (hreads : s.reads x d 8 = true)
    (hread : (s.readAs x i d).flagRead x i d flag = (t, some (7, n)))
    (hholds : waitHolds (dF c.bytes 8 1) (dF c.bytes 32 8) n = true) :
    exec (.waitPoll x i flag) s = .next (t.complete x i 0 0) := by
  simp only [exec, execWaitPoll, hc, hwaiting, hlive, hroom, Bool.not_true, Bool.or_self, Bool.false_eq_true, if_false]
  exact congrArg _ (State.judgeWait_holds (Ctx.copy?_id hc) hd hkind hrange hreads hread hholds)

/-! ### SIGNAL (R248, R249) -/

/-- A SIGNAL that is no member and whose flag is within reach begins its write. -/
theorem exec_signal (h : s.Begins x i 0x04 c) (hk : ((s.begun x i).ctx x).copy? i = some k) (hd : d = dSpec c.bytes 16)
    (hfree : s.signalBusy x d = false) (hlast : (s.ctx x).earlierDone i = true) (hkind : dF c.bytes 8 1 < 2)
    (hflag : badFlag d = false) (hmember : dMember c.bytes = false) (hrange : (s.begun x i).rangeOk x d 8 = true) :
    exec (.signal x i flag) s = .next ((s.begun x i).signal x k flag) := by
  have hsound : ¬(2 ≤ dF c.bytes 8 1 ∨ badFlag d = true) :=
    not_or.mpr ⟨Nat.not_le.mpr hkind, Bool.eq_false_iff.mp hflag⟩
  simp only [exec, execSignal, h.fetched, ← hd, hfree, h.beginsLast hk hlast, (State.begun_copy? h.fetched hk).bytes, hsound,
    hrange, hmember, Bool.not_true, Bool.false_eq_true, if_false]

theorem State.signal_value (hid : k.id = i) (hd : d = dSpec k.bytes 16) (hkind : dF k.bytes 8 1 = 0) :
    s.signal x k flag = s.putBegins x (.desc i) d (natBytes (dF k.bytes 32 8) 8) := by
  subst hid hd
  simp only [State.signal, State.signalTo, hkind, if_true]

theorem State.signal_sum (hid : k.id = i) (hd : d = dSpec k.bytes 16) (hkind : dF k.bytes 8 1 = 1)
    (hreads : s.reads x d 8 = true) (hread : (s.readAs x i d).flagRead x i d flag = (t, some (7, n))) :
    s.signal x k flag = t.putBegins x (.desc i) d (natBytes ((n + dF k.bytes 32 8) % 2 ^ 64) 8) := by
  subst hid hd
  simp only [State.signal, State.signalTo, hkind, State.withRead_reads hreads, hread, one_ne_zero, ne_eq, not_true_eq_false,
    if_false]

/-! ### The Fix operations (R259, R269) -/

theorem exec_fixOpen (h : s.Begins x i 0x05 c) (hk : ((s.begun x i).ctx x).copy? i = some k) :
    exec (.fixOpen x i) s = .next ((s.begun x i).complete x i (if c.grp.isSome then 0 else 0x0001) 0) := by
  simp only [exec, execFixOpen, h.begins hk, (State.begun_copy? h.fetched hk).grp]

theorem exec_fixClose_waits {g : Nat} {q : Grp} (h : s.Begins x i 0x06 c) (hk : ((s.begun x i).ctx x).copy? i = some k)
    (hgrp : c.grp = some g) (hq : ((s.begun x i).ctx x).grp? g = some q) (hlive : q.st ≠ .aborted) :
    exec (.fixClose x i) s = .next (s.begun x i) := by
  simp only [exec, execFixClose, h.begins hk, (State.begun_copy? h.fetched hk).grp, hgrp, hq, hlive, if_false]

theorem exec_fixClose_outside (h : s.Begins x i 0x06 c) (hk : ((s.begun x i).ctx x).copy? i = some k) (hgrp : c.grp = none) :
    exec (.fixClose x i) s = .next ((s.begun x i).complete x i 0x0001 0) := by
  simp only [exec, execFixClose, h.begins hk, (State.begun_copy? h.fetched hk).grp, hgrp]

theorem exec_fixAbort {g : Nat} {q : Grp} (h : s.Begins x i 0x07 c) (hk : ((s.begun x i).ctx x).copy? i = some k)
    (hgrp : c.grp = some g) (hq : ((s.begun x i).ctx x).grp? g = some q) :
    exec (.fixAbort x i) s = .next ((s.begun x i).closeAborted x i q) := by
  simp only [exec, execFixAbort, h.begins hk, (State.begun_copy? h.fetched hk).grp, hgrp, hq]

theorem exec_fixAbort_outside (h : s.Begins x i 0x07 c) (hk : ((s.begun x i).ctx x).copy? i = some k) (hgrp : c.grp = none) :
    exec (.fixAbort x i) s = .next ((s.begun x i).complete x i 0x0001 0) := by
  simp only [exec, execFixAbort, h.begins hk, (State.begun_copy? h.fetched hk).grp, hgrp]

end

/-! ## Configuration streams (R319 to R328) -/

section
variable {s : State} {x : Fin 1024} {i : Nat} {c : Copy}

/-- A CONFIG whose turn it is joins the streams of its die's block (R327). -/
theorem exec_config {d r : Nat} (h : s.Begins x i 0x09 c) (hd : d = dF c.bytes 28 1 % 8) (hr : r = dF c.bytes 29 1 % 16)
    (hturn : s.configTurn x c = true) (hdie : d < s.dies) (hreserved : dF c.bytes 30 1 = 0)
    (hown : s.regB .CFG_REGION_OWN_EN (d * 16 + r) = true) (hctx : s.reg .CFG_REGION_OWN_CTX (d * 16 + r) = x.val)
    (hallowed : (s.begun x i).hbmAllowed x (dF c.bytes 16 8) (dF c.bytes 24 4) = true) (hgate : s.gateOn d 6 = true) :
    exec (.config x i) s = .next ((s.begun x i).setJobs d
      (s.cfgJobs d ++ [newJob (some (x.val, i)) (some r) false (dF c.bytes 16 8) (dF c.bytes 24 4)])) := by
  obtain ⟨k, hk, hsame⟩ := h.begun
  have hnext : s.configNext x i = true := by simp only [State.configNext, h.fetched, hturn]
  have hreg {f : Fld} (hf : f ∉ missFields := by decide) (n : Nat) : (s.begun x i).reg f n = s.reg f n :=
    (s.begun_regsBut x i).same f n hf
  have hdie' : ¬(s.begun x i).dies ≤ d := by
    rw [State.dies, (s.within_begun x i).product, ← State.dies]
    exact Nat.not_le.mpr hdie
  have hown' : (s.begun x i).regB .CFG_REGION_OWN_EN (d * 16 + r) = true := by rw [State.regB, hreg, ← State.regB, hown]
  have hctx' : (s.begun x i).reg .CFG_REGION_OWN_CTX (d * 16 + r) = x.val := by rw [hreg, hctx]
  have hgate' : (s.begun x i).gateOn d 6 = true := (congrArg (· == 1) (hreg (f := .CLK_GATE_FAB) (n := d))).trans hgate
  have hjobs : (s.begun x i).cfgJobs d = s.cfgJobs d := by rw [State.cfgJobs, (s.within_begun x i).cfg, ← State.cfgJobs]
  simp only [exec, execConfig, hnext, h.begins hk, hsame.bytes, ← hd, ← hr, hdie', hreserved, hown', hctx', hallowed, hgate',
    hjobs, Bool.true_eq_false, ne_eq, not_true_eq_false, or_self, if_false]

end

section
variable {s : State} {die : Fin 8} {j : CfgJob} {rest : List CfgJob}

/-- What a block does with the stream that it serves, where that passes the test of the command. -/
theorem State.serve_front (h : s.cfgJobs die = j :: rest) {ok : CfgJob → Bool} (hok : ok j = true) (act : CfgJob → State) :
    s.serve die ok act = act j := by
  simp only [State.serve, h, hok, if_true]

theorem exec_configBleachDone {r : Nat} (h : s.cfgJobs die = j :: rest) (hchecked : j.checked = true)
    (hnew : j.bleached = false) (hregion : j.region = some r) :
    exec (.configBleachDone die) s = .next ((s.bleachRegion die r).setJob die { j with bleached := true }) := by
  rw [exec, execConfigBleachDone, State.serve_front h (by rw [hchecked, hnew]; rfl)]
  simp only [hregion]

theorem exec_configStartOrder (h : s.cfgJobs die = j :: rest) (hended : j.ended = true) :
    exec (.configStartOrder die) s = .next (s.startOrder die j j.steps) := by
  rw [exec, execConfigStartOrder, State.serve_front h hended]

theorem exec_waitLockTimeout {l : List Nat} (h : s.cfgJobs die = j :: rest) (hended : j.ended = true) (hsteps : j.steps = 1 :: l)
    (hlock : s.fabLocked die = false) :
    exec (.waitLockTimeout die) s = .next ((s.setReg .CFG_STAT_LOCKTMO die 1).startOrder die j l) := by
  rw [exec, execWaitLockTimeout, State.serve_front h (by rw [hended, hsteps, hlock]; rfl), hsteps]
  rfl

theorem exec_fullStreamLoad (hdie : die.val < s.dies) (hdue : .p5 ∈ s.start.done) (hfirst : .p6c ∉ s.start.done)
    (hnone : s.cfgJobs die = []) (hall : ∀ r, r < 16 → s.reg .CFG_REGIONS_STATE (die.val * 16 + r) = 1) :
    exec (.fullStreamLoad die) s = .next ((s.bleachDie die).setJobs die [slotJob die 0]) := by
  have hloading : (List.range 16).all (fun r => s.reg .CFG_REGIONS_STATE (die.val * 16 + r) == 1) = true :=
    List.all_eq_true.mpr fun r hr => beq_iff_eq.mpr (hall r (List.mem_range.mp hr))
  have hdue' : s.start.done.contains .p5 = true := List.contains_iff_mem.mpr hdue
  have hfirst' : s.start.done.contains .p6c = false :=
    Bool.eq_false_iff.mpr fun hmem => hfirst (List.contains_iff_mem.mp hmem)
  simp only [exec, execFullStreamLoad, Nat.not_le.mpr hdie, hdue', hfirst', hnone, hloading, List.isEmpty_nil,
    Bool.true_eq_false, Bool.false_eq_true, or_self, if_false]

end

/-! ## Writing the flash (R334) -/

section
variable {s : State} {die : Fin 8}

/-- The registers of a flash write as it is asked for. -/
def State.flashAsked (s : State) (d a n slot : Nat) : State :=
  ((s.setReg .CFG_FLASH_WR_SRC d a).setReg .CFG_FLASH_WR_LEN d n).setReg .CFG_FLASH_WR_SLOT d slot

/-- The image passes its checks, and the header area of its slot is erased (log 33). -/
def State.flashErased (s : State) (d a n slot : Nat) : State :=
  ((s.flashResult d a n slot).1.flashBegin d ⟨a, n, slot, true⟩).flashSet (slotBase d slot) (List.replicate 4096 0)

theorem State.flashAsked_reg {f : Fld} (hf : f ∉ [Fld.CFG_FLASH_WR_SRC, .CFG_FLASH_WR_LEN, .CFG_FLASH_WR_SLOT])
    (s : State) (d a n slot i : Nat) : (s.flashAsked d a n slot).reg f i = s.reg f i := by
  simp only [List.mem_cons, List.not_mem_nil, or_false, not_or] at hf
  obtain ⟨hsrc, hlen, hslot⟩ := hf
  rw [State.flashAsked, State.reg_setReg_field _ _ _ _ _ _ hslot, State.reg_setReg_field _ _ _ _ _ _ hlen,
    State.reg_setReg_field _ _ _ _ _ _ hsrc]

theorem State.flashAsked_hbmWaits (s : State) (d a n slot : Nat) : (s.flashAsked d a n slot).hbmWaits a n = s.hbmWaits a n := by
  simp only [State.hbmWaits, State.stackRefuses, State.stackReady, State.stackClocked,
    State.flashAsked_reg (f := .HBM_STATE_STATE) (by decide), State.flashAsked_reg (f := .CLK_GATE_HBM) (by decide),
    State.flashAsked_reg (f := .CLK_SRC_STAT_LOCK) (by decide)]
  rfl

/-- GO with the lease, the package STOPPED and no flash write under way: the write waits for its stack, is refused, or erases its
slot's header area. -/
theorem exec_flashWrite_go {port : Fin 2} {v : BitVec 128} {a n slot : Nat} {t : State} (ha : a = natBits v.toNat 0 48)
    (hn : n = natBits v.toNat 64 32) (hslot : slot = natBits v.toNat 96 1) (ht : t = s.flashAsked die a n slot)
    (hgrant : s.access (.port port) .CFG_FLASH_WR die 0 true = .granted) (hgo : natBits v.toNat 97 1 = 1)
    (hlease : s.holdsLease port = true) (hstopped : s.pkgStopped = true) (hidle : s.regB .CFG_FLASH_STAT_BUSY die = false) :
    exec (.flashWrite (.port port) die v) s = .next (if s.hbmWaits a n then t.flashBegin die ⟨a, n, slot, false⟩
      else if (t.flashResult die a n slot).2 ≠ 0 then
        (t.flashResult die a n slot).1.flashRefuse die (t.flashResult die a n slot).2
      else t.flashErased die a n slot) := by
  have hreg {f : Fld} (hf : f ∉ [Fld.CFG_FLASH_WR_SRC, .CFG_FLASH_WR_LEN, .CFG_FLASH_WR_SLOT] := by decide) (i : Nat) :
      t.reg f i = s.reg f i := by rw [ht, State.flashAsked_reg hf]
  have hlease' : t.holdsLease port = true := by rw [State.holdsLease, hreg, ← State.holdsLease, hlease]
  have hstopped' : t.pkgStopped = true := by rw [State.pkgStopped, hreg, ← State.pkgStopped, hstopped]
  have hidle' : t.regB .CFG_FLASH_STAT_BUSY die = false := by rw [State.regB, hreg, ← State.regB, hidle]
  have hwaits : t.hbmWaits a n = s.hbmWaits a n := by rw [ht, State.flashAsked_hbmWaits]
  rw [State.flashAsked] at ht
  rw [exec, execFlashWrite, State.writeAs_granted hgrant]
  simp only [← ht, ← ha, ← hn, ← hslot, hgo, hlease', hstopped', hidle', hwaits, one_ne_zero, Bool.and_self,
    Bool.true_eq_false, Bool.false_eq_true, or_self, if_false]
  rfl

@[simp] theorem State.flashSet_reg (s : State) (a : Nat) (b : List Byte) (f : Fld) (i : Nat) :
    (s.flashSet a b).reg f i = s.reg f i := rfl

@[simp] theorem State.flashSet_flash (s : State) (a : Nat) (b : List Byte) :
    (s.flashSet a b).cfg.flash = memPut s.cfg.flash a b := rfl

@[simp] theorem State.flashBegin_flash (s : State) (d : Nat) (w : FlashJob) : (s.flashBegin d w).cfg.flash = s.cfg.flash := rfl

theorem State.flashBegin_busy (s : State) (d : Nat) (w : FlashJob) : (s.flashBegin d w).regB .CFG_FLASH_STAT_BUSY d = true := by
  have hbusy : (s.flashBegin d w).reg .CFG_FLASH_STAT_BUSY d = 1 := by
    refine (State.reg_setReg_field _ _ _ _ _ _ (by decide)).trans ?_
    rw [State.reg_setReg_field _ _ _ _ _ _ (by decide), State.reg_setReg_self]
    rfl
  exact beq_iff_eq.mpr hbusy

theorem State.flashErased_shows (s : State) (d a n slot : Nat) :
    (s.flashErased d a n slot).regB .CFG_FLASH_STAT_BUSY d = true ∧
    (s.flashErased d a n slot).cfg.flash = memPut s.cfg.flash (slotBase d slot) (List.replicate 4096 0) := by
  have hcfg : (s.flashResult d a n slot).1.cfg = s.cfg :=
    (State.flashResult_within (l := [.regs, .hbmc, .helm, .free]) (.refl _ s) d a n slot (by decide) (by decide) (by decide)
      (by decide)).cfg
  rw [State.flashErased, State.regB, State.flashSet_reg, ← State.regB, State.flashSet_flash, State.flashBegin_flash, hcfg]
  exact ⟨State.flashBegin_busy .., rfl⟩

/-- What a flash write that ends shows. -/
theorem State.flashEnd_shows {n : Nat} (hn : n < 8) (s : State) (d : Nat) :
    (s.flashEnd d n).regB .CFG_FLASH_STAT_BUSY d = false ∧ (s.flashEnd d n).reg .CFG_FLASH_STAT_RESULT d = n ∧
    (s.flashEnd d n).cfg.flash = s.cfg.flash := by
  unfold State.flashEnd
  extract_lets c u
  have hraise := ((u.setReg .CFG_FLASH_STAT_BUSY d 0).setReg .CFG_FLASH_STAT_RESULT d n).raise_regsBut d 0x61
  have hcfg : (((u.setReg .CFG_FLASH_STAT_BUSY d 0).setReg .CFG_FLASH_STAT_RESULT d n).raise d 0x61).cfg = u.cfg :=
    (State.raise_within (l := [.regs, .helm]) (.refl _ _) d 0x61 (by decide) (by decide)).cfg
  refine ⟨?_, ?_, ?_⟩
  · rw [State.regB, hraise.same _ _ (by decide), State.reg_setReg_field _ _ _ _ _ _ (by decide), State.reg_setReg_self]
    rfl
  · rw [hraise.same _ _ (by decide), State.reg_setReg_self]
    exact Nat.mod_eq_of_lt hn
  · rw [hcfg]

/-- A flash write whose checks are done ends with the bytes it reads now (log 33). -/
theorem exec_flashWriteDone {w : FlashJob} (hw : Tbl.get? s.cfg.writing die.val = some w) (hchecked : w.checked = true)
    (hreach : s.hbmWaits w.src w.len = false) (ok : Bool) :
    exec (.flashWriteDone die ok) s = .next (s.flashPut die w ok) := by
  simp only [exec, execFlashWriteDone, hw, hchecked, hreach, Bool.false_eq_true, if_false, if_true]

theorem State.hbmTake_cfg (s : State) (a n : Nat) : (s.hbmTake a n).1.cfg = s.cfg :=
  (State.hbmTake_within (l := [.regs, .hbmc, .helm, .free]) (.refl _ s) a n (by decide) (by decide) (by decide) (by decide)).cfg

theorem State.flashPut_ok {w : FlashJob} {b : List Byte} (hread : (s.hbmTake w.src w.len).2 = some b) :
    s.flashPut die w true = (((s.hbmTake w.src w.len).1.flashSet (slotBase die w.slot) b).setReg .CFG_FLASH_STAT_PROGRESS die
      (w.len / 2 ^ 20)).flashEnd die 1 := by
  simp only [State.flashPut, hread, Bool.true_eq_false, if_false]

theorem State.flashPut_failed {w : FlashJob} {b : List Byte} (hread : (s.hbmTake w.src w.len).2 = some b) :
    s.flashPut die w false = (s.hbmTake w.src w.len).1.flashEnd die 5 := by
  simp only [State.flashPut, hread, if_true]

end

end Sys2Proof.Machine

open Sys2Proof Sys2Proof.Machine

/-! ## The obligations -/

/-- Settles O2: with the input switch open nothing runs; else the logic, the raw lanes, the slices and the block RAM ports each go
through a nanosecond of their own, and the timer counts. -/
theorem idleStepPassesTime : Obligations.IdleStepPassesTime := by
  unfold Obligations.IdleStepPassesTime
  intro s hidle
  refine ⟨_, step_of_idle hidle, ?_⟩
  cases hoff : s.module.off
  case true =>
    rw [State.tick_off hoff]
    exact ⟨rfl, fun _ => rfl, fun h => absurd h (by decide), fun _ => rfl, fun e he => ⟨e.2, he, .inl rfl⟩,
      fun e he => ⟨e.2, he, .inl rfl⟩, fun e he => ⟨e.2, he, rfl, .inl rfl⟩⟩
  case false =>
    rw [State.tick_on hoff]
    obtain ⟨hraw, hslices, hports⟩ := s.logicTick_blocks
    refine ⟨?_, fun hnone => ?_, fun _ => rfl, fun h => absurd h (by decide), fun e he => ?_, fun e he => ?_, fun e he => ?_⟩
    · obtain ⟨free, elems, segs, border, pinIn, hlogic⟩ := s.logicTick_eq
      simp only [hlogic, State.portTick, State.sliceTick, State.rawTick]
    · simp only [State.logicTick_unframed hnone, State.portTick, State.sliceTick, State.rawTick]
    · rw [← hraw]
      exact State.mem_rawTick he
    · rw [← hslices]
      exact State.mem_sliceTick (s := s.logicTick.rawTick) he
    · rw [← hports]
      exact State.mem_portTick (s := s.logicTick.rawTick.sliceTick) he

/-- Settles O31: a copy that begins has the bytes, the group and the number of the one fetched; each outcome is one lemma on
`exec`. -/
theorem smallDescriptorsComplete : Obligations.SmallDescriptorsComplete := by
  unfold Obligations.SmallDescriptorsComplete
  intro x i c k flag s b d hk
  have hid : k.id = i := Ctx.copy?_id hk
  have hbytes {op : Nat} (h : s.Begins x i op c) : k.bytes = c.bytes := (State.begun_copy? h.fetched hk).bytes
  refine ⟨fun h => ?_, fun op hop h => ?_, fun h => exec_fence h hk, fun h => exec_timestamp h hk,
    fun h => exec_timestamp_writes h hk rfl, fun t n h => exec_wait h hk rfl rfl, fun t n hc => exec_waitPoll hc rfl,
    fun h hfree hlast hkind hflag hmember hrange => ?_,
    fun t n h hfree hlast hkind hflag hmember hrange hreads hread => ?_, fun g h hgrp => ?_, fun h hgrp => ?_,
    fun g q h => exec_fixClose_waits h hk, fun h => exec_fixClose_outside h hk, fun g q h => exec_fixAbort h hk,
    fun h => exec_fixAbort_outside h hk⟩
  · rw [exec_descNop h hk (.inl rfl), if_pos rfl]
  · rw [exec_descNop h hk (.inr hop), if_neg (by omega)]
  · rw [exec_signal h hk rfl hfree hlast (by omega) hflag hmember hrange, State.signal_value hid rfl (by rw [hbytes h, hkind]),
      hbytes h]
  · rw [exec_signal h hk rfl hfree hlast (by omega) hflag hmember hrange, ← hbytes h]
    rw [State.signal_sum hid (congrArg (dSpec · 16) (hbytes h).symm) (by rw [hbytes h, hkind]) hreads hread]
  · rw [exec_fixOpen h hk, hgrp]
    rfl
  · rw [exec_fixOpen h hk, hgrp]
    rfl

/-- Settles O48: a block acts on the stream at the front of its list; a flash write reads HBM, which leaves the flash, and shows its
state in registers that nothing after it in the command changes. -/
theorem configurationComplete : Obligations.ConfigurationComplete := by
  unfold Obligations.ConfigurationComplete
  intro die x i c j rest s b d r
  refine ⟨fun h => exec_config h rfl rfl, fun h hnew hreach => ?_, fun r => exec_configBleachDone,
    fun h hchecked hbleached hended hseg hreach u l hread => ?_, exec_configStartOrder, fun l => exec_waitLockTimeout,
    exec_fullStreamLoad, fun port v => ?_, fun w b hw hchecked hreach hread => ?_, fun w b hw hchecked hreach hread => ?_⟩
  · rw [exec, execConfigHeaderChecked, State.serve_front h (by rw [hnew, hreach]; rfl)]
    exact congrArg _ (ite_not ..)
  · have hok : (j.checked && j.bleached && !j.ended && decide (j.seg < hNseg j.hdr) && !s.strmWaits j.strm) = true := by
      rw [hchecked, hbleached, hended, decide_eq_true hseg, hreach]
      rfl
    rw [exec, execConfigSegmentVerified, State.serve_front h hok]
    -- Where the statement is compiled apart from the model, its matcher is another, which `rfl` sees through.
    simp only [hread] <;> rfl
  · intro a n slot t hgrant hgo hlease hstopped hidle
    have hexec := exec_flashWrite_go (t := t) rfl rfl rfl rfl hgrant hgo hlease hstopped hidle
    refine ⟨_, hexec, exec_leaves_hbm hexec rfl, fun hwaits => if_pos hwaits, fun hserves hbad => ?_, fun hserves hgood => ?_⟩
    · rw [if_neg (Bool.eq_false_iff.mp hserves)]
      exact if_pos hbad
    · rw [if_neg (Bool.eq_false_iff.mp hserves), if_neg (not_not.mpr hgood)]
      exact t.flashErased_shows die _ _ _
  · have hexec := exec_flashWriteDone hw hchecked hreach true
    obtain ⟨hbusy, hresult, hflash⟩ := State.flashEnd_shows (n := 1) (by decide)
      (((s.hbmTake w.src w.len).1.flashSet (slotBase die w.slot) b).setReg .CFG_FLASH_STAT_PROGRESS die (w.len / 2 ^ 20)) die
    rw [State.flashPut_ok hread] at hexec
    refine ⟨_, hexec, hbusy, hresult, exec_leaves_hbm hexec rfl, ?_⟩
    rw [hflash, State.setReg_cfg, State.flashSet_flash, State.hbmTake_cfg]
  · have hexec := exec_flashWriteDone hw hchecked hreach false
    obtain ⟨-, hresult, hflash⟩ := State.flashEnd_shows (n := 5) (by decide) (s.hbmTake w.src w.len).1 die
    rw [State.flashPut_failed hread] at hexec
    exact ⟨_, hexec, hresult, by rw [hflash, State.hbmTake_cfg]⟩
end
section
/-! SUPPORT and PROOFS for 11_fix_logbook.md: how a Fix group flips, what of a redirected page comes home, and how a flipped group
publishes. -/

-- As in the architect's lemma files: one declaration at a time keeps the compile within check.sh's memory.
set_option Elab.async false

namespace Sys2Proof.Machine

section
variable {s : State} {x : Fin 1024} {q : Grp} {flag : FlagSeen}

/-! ## The flip (R265, R266) -/

theorem exec_fixFlip (hlive : s.pausedCtx x = false) (hopen : s.cst x ≠ 6)
    (hfirst : (s.ctx x).grps.find? (s.flippable x) = some q) : exec (.fixFlip x) s = .next (s.flip x q) := by
  simp only [exec, execFixFlip, hlive, hopen, hfirst, Bool.false_eq_true, or_self, if_false]

/-! ## Pages that come home (R185, R267) -/

/-- A controller that takes a write works on its queue and its rows: no byte of HBM changes until the write is done. -/
theorem State.hbmAccept_within_controller (s : State) (h hint : Nat) (atoms : List (Nat × Nat)) (es : List AtomEcc) :
    s.Within [.regs, .hbmc, .helm, .free] (s.hbmAccept h hint atoms es) :=
  State.hbmAccept_within (.refl _ s) h hint atoms es (by decide) (by decide) (by decide) (by decide)

/-- A redirected page comes home whole, where its stack is not LOST. -/
theorem State.copyHome_hbm {page : Nat} {l : List Byte} (hstaged : s.staged page = some l)
    (hstack : s.reg .HBM_STATE_STATE (s.stackOf (page * 4096)) ≠ 5) :
    (s.copyHome page).hbm = memPut s.hbm (page * 4096) l := by
  simp only [State.copyHome, State.dropPublished, hstaged, hstack, decide_false, Bool.false_eq_true, if_false,
    (s.hbmAccept_within_controller ..).hbm]

theorem exec_fixPageCopyHome {stack : Fin 16} {page : Nat} (hstack : s.stackOf (page * 4096) = stack.val)
    (hserves : s.hbmWaits (page * 4096) 4096 = false) : exec (.fixPageCopyHome stack page) s = .next (s.copyHome page) := by
  simp only [exec, execFixPageCopyHome, hstack, hserves, Bool.not_false, and_self, if_true]

/-! ## Publication (R249, R267, R270) -/

/-- What holds of a context whose group `q` is the first that has flipped and whose writes have settled, with no SIGNAL of it under
way. -/
structure State.Publishes (s : State) (x : Fin 1024) (q : Grp) : Prop where
  live : s.pausedCtx x = false
  open_ : s.cst x ≠ 6
  room : s.heldFull x = false
  first : (s.ctx x).grps.find? Grp.written = some q
  idle : q.sigNow = false

theorem exec_fixPublishSignals_last (h : s.Publishes x q) (hnone : q.sigsLeft = []) :
    exec (.fixPublishSignals x flag) s = .next (s.publish x q) := by
  simp only [exec, execFixPublishSignals, h.live, h.open_, h.room, h.first, h.idle, hnone, Bool.false_eq_true, or_self, if_false]

theorem exec_fixPublishSignals_next {d : BitVec 512} {l : List (BitVec 512)} (h : s.Publishes x q) (hleft : q.sigsLeft = d :: l) :
    exec (.fixPublishSignals x flag) s = .next (s.signalNext x q d flag) := by
  simp only [exec, execFixPublishSignals, h.live, h.open_, h.room, h.first, h.idle, hleft, Bool.false_eq_true, or_self, if_false]

/-- The next SIGNAL of a group, of kind 0: it writes its own value, and reads no flag. -/
theorem State.signalNext_value {d : BitVec 512} (hkind : dF d 8 1 = 0) (hfree : s.signalBusy x (dSpec d 16) = false)
    (hrange : s.rangeOk x (dSpec d 16) 8 = true) :
    s.signalNext x q d flag = (s.putBegins x (.sig q.id) (dSpec d 16) (natBytes (dF d 32 8) 8)).modGrp x q.id
      (fun q => { q with sigs := some (q.sigsLeft.drop 1), sigNow := true }) := by
  simp only [State.signalNext, State.signalTo, hkind, hfree, hrange, Bool.not_true, Bool.false_eq_true, if_false, if_true]

end

end Sys2Proof.Machine

open Sys2Proof Sys2Proof.Machine

/-! ## The obligation -/

/-- Settles O36: each outcome is one lemma on `exec`; what a page that comes home leaves is what the reach of its command leaves. -/
theorem groupsPublish : Obligations.GroupsPublish := by
  unfold Obligations.GroupsPublish
  intro x stack page flag s
  refine ⟨fun q => exec_fixFlip, fun l hstack hserves hlost hstaged => ?_, fun q hlive hopen hroom hfirst hidle =>
    exec_fixPublishSignals_last ⟨hlive, hopen, hroom, hfirst, hidle⟩,
    fun q d l hlive hopen hroom hfirst hidle hleft hkind hfree hrange => ?_⟩
  · have hexec := exec_fixPageCopyHome hstack hserves
    have hwithin := within_reach_of_exec hexec
    exact ⟨_, hexec, State.copyHome_hbm hstaged (hstack ▸ hlost), hwithin.cores (Area.not_mem_of_contains rfl),
      hwithin.net (Area.not_mem_of_contains rfl)⟩
  · rw [exec_fixPublishSignals_next ⟨hlive, hopen, hroom, hfirst, hidle⟩ hleft, State.signalNext_value hkind hfree hrange]
end

section
/-! SUPPORT and PROOFS for 12_fabric.md: block RAM ports, tile ports, DSP slices, raw lanes, pins and interrupt ports. -/

-- As in the architect's lemma files: one declaration at a time keeps the compile within check.sh's memory.
set_option Elab.async false

namespace Sys2Proof.Machine

/-! ## Tile ports as state (R304) -/

theorem Tbl.set_of_get? {κ α : Type} [DecidableEq κ] {t : Tbl κ α} {k : κ} {v : α} (h : Tbl.get? t k = some v) :
    Tbl.set t k v = t := by
  induction t with
  | nil => cases h
  | cons e r ih =>
    obtain ⟨k', w⟩ := e
    by_cases hk : k' = k
    · simp_all [Tbl.set, Tbl.get?]
    · simp_all [Tbl.set, Tbl.get?]

section
variable {s : State} {d t : Nat}

@[simp] theorem State.tile_modTile (s : State) (d t : Nat) (f : TileP → TileP) : (s.modTile d t f).tile d t = f (s.tile d t) :=
  Tbl.getD_set_self ..

theorem State.modTile_modTile (s : State) (d t : Nat) (f g : TileP → TileP) :
    (s.modTile d t f).modTile d t g = s.modTile d t (fun k => g (f k)) := by
  rw [State.modTile, State.tile_modTile]
  simp only [State.modTile, Tbl.set_set]

theorem State.modTile_congr {f g : TileP → TileP} (h : f (s.tile d t) = g (s.tile d t)) : s.modTile d t f = s.modTile d t g := by
  rw [State.modTile, State.modTile, h]

/-- A tile port that stands in the table keeps its entry where it is changed to what it is. -/
theorem State.modTile_of_get? {k : TileP} {f : TileP → TileP} (hk : Tbl.get? s.fab.tiles (d * 512 + t) = some k) (hf : f k = k) :
    s.modTile d t f = s := by
  have htile : s.tile d t = k := by rw [State.tile, Tbl.getD, hk]; rfl
  rw [State.modTile, htile, hf, Tbl.set_of_get? hk]

/-! ## A packet of the fabric at TX (R304 to R307, R310, R311) -/

/-- The port with these entries in TX. -/
def State.txHolds (s : State) (d t : Nat) (q : List FifoE) : State := s.modTile d t (fun k => { k with tx := q })

/-- The port as a packet has left TX. -/
def State.txSent (s : State) (d t : Nat) (f : TileP → TileP) : State :=
  s.modTile d t (fun k => f { k with tx := [], skip := false })

/-- The port as the head of a packet has been discarded: the entries up to the next header follow it. -/
def State.txSkips (s : State) (d t : Nat) (f : Fld) : State :=
  (s.modTile d t (fun k => { k with tx := [], skip := true })).txDiscard d t f

theorem State.txSkips_fab (s : State) (d t : Nat) (f : Fld) :
    (s.txSkips d t f).fab = (s.modTile d t (fun k => { k with tx := [], skip := true })).fab := rfl

/-- An empty TX with no read held stands still. -/
theorem State.txGo_idle (hheld : (s.tile d t).held = none) (htx : (s.tile d t).tx = []) (now : Bool) (n : Nat) :
    s.txGo d t now n = s := by
  cases n with
  | zero => rfl
  | succ n => simp only [State.txGo, State.txHead, hheld, htx]

theorem State.txGo_head {u : State} {now : Bool} (h : s.txHead d t now = some u) (n : Nat) :
    s.txGo d t now (n + 1) = u.txGo d t now n := by
  rw [State.txGo, h]

/-- TX deals with its head, and then stands still. -/
theorem State.txRun_head {u : State} (hhead : s.txHead d t false = some u) (hheld : (u.tile d t).held = none)
    (htx : (u.tile d t).tx = []) : s.txRun d t = u := by
  rw [State.txRun, State.txGo_head hhead]
  exact State.txGo_idle hheld htx ..

/-- TX waits where its head does. -/
theorem State.txRun_waits (hhead : s.txHead d t false = none) : s.txRun d t = s := by
  rw [State.txRun, State.txGo, hhead]

/-- Entries that follow a discarded head are taken and dropped one by one (R306). -/
theorem State.txOffer_skips {k : TileP} (hk : Tbl.get? s.fab.tiles (d * 512 + t) = some k) (hw : s.withheldTile t = false)
    (hheld : k.held = none) (htx : k.tx = []) (hskip : k.skip = true) (l : List FifoE) (hl : ∀ q ∈ l, q.hdr = false) :
    s.txOffer d t l = s := by
  have htile : s.tile d t = k := by rw [State.tile, Tbl.getD, hk]; rfl
  induction l with
  | nil => rfl
  | cons q l ih =>
    obtain ⟨hq, hl⟩ := List.forall_mem_cons.mp hl
    have hready : s.txReady d t = true := by simp [State.txReady, hw, htile, hheld, htx]
    have hback : (s.modTile d t (fun k => { k with tx := k.tx ++ [q] })).modTile d t (fun k => k.dropEntry true) = s := by
      rw [State.modTile_modTile]
      exact State.modTile_of_get? hk (by cases k; simp_all [TileP.dropEntry])
    have hrun : (s.modTile d t (fun k => { k with tx := k.tx ++ [q] })).txRun d t = s := by
      refine State.txRun_head ?_ (htile ▸ hheld) (htile ▸ htx)
      simp only [State.txHead, State.tile_modTile, htile, hheld, htx, hskip, hq, List.nil_append, Bool.not_false, if_true, hback]
    rw [State.txOffer, if_pos hready, hrun, ih hl]

/-- What holds of a port whose TX is empty and that takes what the fabric offers: a header entry and its data entries. -/
structure State.Offered (s : State) (d t : Nat) (e : FifoE) (l : List FifoE) : Prop where
  faced : s.withheldTile t = false
  unheld : (s.tile d t).held = none
  empty : (s.tile d t).tx = []
  header : e.hdr = true
  room : l.length < 32
  data : ∀ q ∈ l, q.hdr = false

variable {e : FifoE} {l : List FifoE}

theorem State.Offered.ready (h : s.Offered d t e l) : s.txReady d t = true := by
  simp [State.txReady, h.faced, h.unheld, h.empty]

theorem State.Offered.first (h : s.Offered d t e l) :
    s.modTile d t (fun k => { k with tx := k.tx ++ [e] }) = s.txHolds d t [e] :=
  State.modTile_congr (by simp only [h.empty, List.nil_append])

/-- The head of a packet that the port discards as it comes: the rest of the packet goes with it (R306, R310). -/
theorem State.Offered.discards (h : s.Offered d t e l) {f : Fld}
    (hhead : (s.txHolds d t [e]).txHead d t false =
      some (((s.txHolds d t [e]).modTile d t (fun k => k.dropEntry true)).txDiscard d t f)) :
    s.txOffer d t (e :: l) = s.txSkips d t f := by
  have hdrop : ((s.txHolds d t [e]).modTile d t (fun k => k.dropEntry true)).txDiscard d t f = s.txSkips d t f := by
    rw [State.txHolds, State.modTile_modTile]
    rfl
  have htile : (s.txSkips d t f).tile d t = { s.tile d t with tx := [], skip := true } := by
    rw [State.tile, State.txSkips_fab, ← State.tile, State.tile_modTile]
  have hget : Tbl.get? (s.txSkips d t f).fab.tiles (d * 512 + t) = some { s.tile d t with tx := [], skip := true } := by
    rw [State.txSkips_fab]
    exact Tbl.get?_set_self ..
  rw [State.txOffer, if_pos h.ready, h.first, State.txRun_head (hdrop ▸ hhead) (by rw [htile]; exact h.unheld) (by rw [htile])]
  exact State.txOffer_skips hget h.faced h.unheld rfl rfl l h.data

theorem State.Offered.unbound (h : s.Offered d t e l) (hbind : s.regB .FAB_TP_BIND_EN (d * 512 + t) = false) :
    s.txOffer d t (e :: l) = s.txSkips d t .FAB_TP_STAT_UNBOUND := by
  refine h.discards ?_
  have hbind' : (s.txHolds d t [e]).regB .FAB_TP_BIND_EN (d * 512 + t) = false := hbind
  rw [State.txHead, hbind', State.txHolds, State.tile_modTile]
  simp only [h.unheld, h.header, Bool.not_true, Bool.not_false, Bool.false_eq_true, if_false, if_true]

theorem State.Offered.malformed (h : s.Offered d t e l) (hbind : s.regB .FAB_TP_BIND_EN (d * 512 + t) = true)
    (hbad : badHeader e = true) : s.txOffer d t (e :: l) = s.txSkips d t .FAB_TP_STAT_BADHDR := by
  refine h.discards ?_
  have hbind' : (s.txHolds d t [e]).regB .FAB_TP_BIND_EN (d * 512 + t) = true := hbind
  rw [State.txHead, hbind', State.txHolds, State.tile_modTile]
  simp only [h.unheld, h.header, hbad, Bool.not_true, Bool.true_or, Bool.false_eq_true, if_false, if_true]

/-- A packet that a bound port sends once its last entry has come. -/
structure State.Whole (s : State) (d t : Nat) (e : FifoE) (l : List FifoE) : Prop extends s.Offered d t e l where
  bound : s.regB .FAB_TP_BIND_EN (d * 512 + t) = true
  sound : badHeader e = false
  complete : l.length = entriesDue e
  open_ : s.txBusy d t = false

/-- TX with the first entries of a packet: it waits for the rest, or the packet is taken (R305). -/
theorem State.Whole.head (h : s.Whole d t e l) {l₁ l₂ : List FifoE} (hl : l₁ ++ l₂ = l) :
    (s.txHolds d t (e :: l₁)).txHead d t false =
      if l₂ = [] then some ((s.txSent d t id).txTake d t (packetOf e l)) else none := by
  have hbind : (s.txHolds d t (e :: l₁)).regB .FAB_TP_BIND_EN (d * 512 + t) = true := h.bound
  have hbusy : (s.txHolds d t (e :: l₁)).txBusy d t = false := h.open_
  have hdata : (l₁.take (entriesDue e)).any (·.hdr) = false :=
    List.any_eq_false.mpr fun q hq => by
      rw [h.data q (hl ▸ List.mem_append_left _ (List.mem_of_mem_take hq))]; decide
  have hlen : l₁.length + l₂.length = entriesDue e := by rw [← h.complete, ← hl, List.length_append]
  rw [State.txHead, hbind, hbusy, State.txHolds, State.tile_modTile]
  simp only [h.unheld, h.header, h.sound, hdata, Bool.not_true, Bool.or_self, Bool.false_eq_true, if_false, and_false, or_false]
  cases l₂ with
  | nil =>
    have hdue : entriesDue e = l₁.length := hlen.symm
    have hall : l₁ = l := by rw [← hl, List.append_nil]
    rw [if_neg (by omega), if_pos rfl, State.modTile_modTile, hdue, List.drop_length, List.take_length, hall]
    rfl
  | cons q r => rw [if_pos (by rw [← hlen, List.length_cons]; omega), if_neg (List.cons_ne_nil _ _)]

/-- The fabric's entries are all taken, and then the packet goes (R304, R305). -/
theorem State.Whole.offer (h : s.Whole d t e l) : s.txOffer d t (e :: l) = (s.txHolds d t (e :: l)).txRun d t := by
  have hrest (l₁ l₂ : List FifoE) (hl : l₁ ++ l₂ = l) :
      ((s.txHolds d t (e :: l₁)).txRun d t).txOffer d t l₂ = (s.txHolds d t (e :: l)).txRun d t := by
    induction l₂ generalizing l₁ with
    | nil => rw [← hl, List.append_nil]; rfl
    | cons q l₂ ih =>
      have hready : (s.txHolds d t (e :: l₁)).txReady d t = true := by
        have hroom := h.room
        rw [← hl, List.length_append, List.length_cons] at hroom
        have hw : (s.txHolds d t (e :: l₁)).withheldTile t = false := h.faced
        rw [State.txReady, hw, State.txHolds, State.tile_modTile]
        simp only [h.unheld, List.length_cons, Option.isNone_none, Bool.not_false, Bool.and_self, Bool.true_and,
          decide_eq_true_eq]
        omega
      have hnext : (s.txHolds d t (e :: l₁)).modTile d t (fun k => { k with tx := k.tx ++ [q] }) =
          s.txHolds d t (e :: (l₁ ++ [q])) := State.modTile_modTile ..
      rw [State.txRun_waits ((h.head hl).trans (if_neg (List.cons_ne_nil _ _))), State.txOffer, if_pos hready, hnext]
      exact ih (l₁ ++ [q]) (by rw [← hl, List.append_assoc]; rfl)
  rw [State.txOffer, if_pos h.ready, h.first]
  exact hrest [] l rfl

/-- The tile port of a packet that has left TX. -/
theorem State.tile_txSent (s : State) (d t : Nat) (f : TileP → TileP) :
    (s.txSent d t f).tile d t = f { s.tile d t with tx := [], skip := false } := State.tile_modTile ..

theorem State.tile_txSent_inject (s : State) (d t : Nat) (f : TileP → TileP) (here : Ep) (q : Packet) :
    ((s.txSent d t f).inject here q).tile d t = f { s.tile d t with tx := [], skip := false } := s.tile_txSent d t f

/-- The packet has left TX as it is taken, and nothing of it is held: TX stands. -/
theorem State.Whole.sends (h : s.Whole d t e l) {u : State} {f : TileP → TileP}
    (hu : (s.txSent d t id).txTake d t (packetOf e l) = u) (hfab : u.fab = (s.txSent d t f).fab)
    (hheld : ∀ k, (f k).held = k.held) (htx : ∀ k, (f k).tx = k.tx) : s.txOffer d t (e :: l) = u := by
  have htile : u.tile d t = f { s.tile d t with tx := [], skip := false } := by rw [State.tile, hfab]; exact s.tile_txSent d t f
  rw [h.offer]
  exact State.txRun_head (((h.head (List.append_nil l)).trans (if_pos rfl)).trans (congrArg some hu))
    (by rw [htile, hheld]; exact h.unheld) (by rw [htile, htx])

/-- A packet that is neither a read nor the answer to one goes as it is (R306). -/
theorem State.Whole.sends_plain (h : s.Whole d t e l) (hdata : (packetOf e l).cmd ≠ cRDATA) (hread : (packetOf e l).cmd ≠ cREAD)
    (hmem : (packetOf e l).cmd ≠ cMEMR) :
    s.txOffer d t (e :: l) = (s.txSent d t id).inject (.tile d t) (s.txFields d t (packetOf e l)) := by
  refine h.sends (f := id) ?_ rfl (fun _ => rfl) fun _ => rfl
  simp only [State.txTake, hdata, hread, hmem, or_self, if_false]
  rfl

/-- The answer to an outstanding read goes to its requester (R308). -/
theorem State.Whole.sends_answer (h : s.Whole d t e l) {r : Packet} (hdata : (packetOf e l).cmd = cRDATA)
    (hanswers : (s.tile d t).answers (packetOf e l) = some r) :
    s.txOffer d t (e :: l) = (s.txSent d t (fun k => { k with reads := k.reads.erase r })).reply (.tile d t) none
      { r with ctx := (s.txFields d t (packetOf e l)).ctx } cRDATA (natBits (packetOf e l).var.toNat 0 16) (packetOf e l).data := by
  refine h.sends (f := fun k => { k with reads := k.reads.erase r }) ?_ rfl (fun _ => rfl) fun _ => rfl
  have hanswers' : ((s.txSent d t id).tile d t).answers (packetOf e l) = some r := by rw [State.tile_txSent]; exact hanswers
  have hmod : (s.txSent d t id).modTile d t (fun k => { k with reads := k.reads.erase r }) =
      s.txSent d t (fun k => { k with reads := k.reads.erase r }) := State.modTile_modTile ..
  simp only [State.txTake, if_pos hdata, hanswers', hmod]
  rfl

/-- A read goes where RSP has room for its answer, and keeps that room (R307). -/
theorem State.Whole.sends_read (h : s.Whole d t e l) (hread : (packetOf e l).cmd = cREAD ∨ (packetOf e l).cmd = cMEMR)
    (hroom : (s.tile d t).rspFree (packetOf e l).count.toNat = true) :
    s.txOffer d t (e :: l) = (s.txSent d t (fun k => { k with
      resv := k.resv ++ [((packetOf e l).tag.toNat, (packetOf e l).count.toNat)] })).inject (.tile d t)
        (s.txFields d t (packetOf e l)) := by
  have hdata : (packetOf e l).cmd ≠ cRDATA := by rcases hread with h | h <;> rw [h] <;> decide
  have htake : (s.txSent d t id).txTake d t (packetOf e l) = s.txSent d t (fun k => { k with held := some (packetOf e l) }) := by
    rw [State.txTake, if_neg hdata, if_pos hread]
    exact State.modTile_modTile ..
  have hbind : (s.txSent d t (fun k => { k with held := some (packetOf e l) })).regB .FAB_TP_BIND_EN (d * 512 + t) = true := h.bound
  have hbusy : (s.txSent d t (fun k => { k with held := some (packetOf e l) })).txBusy d t = false := h.open_
  have hsent : (s.txSent d t (fun k => { k with held := some (packetOf e l) })).modTile d t (fun k => { k with
      held := none, resv := k.resv ++ [((packetOf e l).tag.toNat, (packetOf e l).count.toNat)] }) =
        s.txSent d t (fun k => { k with resv := k.resv ++ [((packetOf e l).tag.toNat, (packetOf e l).count.toNat)] }) := by
    rw [State.txSent, State.modTile_modTile]
    exact State.modTile_congr (by simp only [h.unheld])
  have hgo : (s.txSent d t (fun k => { k with held := some (packetOf e l) })).txHead d t false =
      some ((s.txSent d t (fun k => { k with resv := k.resv ++ [((packetOf e l).tag.toNat, (packetOf e l).count.toNat)] })).inject
        (.tile d t) (s.txFields d t (packetOf e l))) := by
    have hroom' : TileP.rspFree { s.tile d t with tx := [], skip := false, held := some (packetOf e l) }
        (packetOf e l).count.toNat = true := hroom
    rw [State.txHead, hbind, hbusy, State.tile_txSent]
    simp only [hroom', State.txRead, hsent, Bool.not_true, Bool.not_false, Bool.and_self, Bool.or_true, Bool.false_eq_true,
      if_false, if_true]
    rfl
  rw [h.offer, State.txRun, State.txGo_head ((h.head (List.append_nil l)).trans (if_pos rfl)), htake, State.txGo_head hgo]
  refine State.txGo_idle ?_ ?_ _ _
  · rw [State.tile_txSent_inject]
    exact h.unheld
  · rw [State.tile_txSent_inject]

theorem exec_tileTxPacket {die : Fin 8} {tp : Fin 512} (hruns : s.fabRuns die (tp.val / 32) = true)
    (hopen : s.maskOpen die (tp.val / 32) = true) (e : FifoE) (l : List FifoE) :
    exec (.tileTxPacket die tp e l) s = .next (s.txOffer die tp (e :: l)) := by
  simp only [exec, execTileTxPacket, hruns, hopen, Bool.not_true, Bool.or_self, Bool.false_eq_true, if_false]

/-- A region runs where its fabric is on, its reset is off and it takes writes (R294). -/
theorem State.fabRuns_iff {r : Nat} :
    s.fabRuns d r = true ↔ s.fabOn d = true ∧ (s.fabRegion d r).gsr = false ∧ (s.fabRegion d r).writes = true := by
  simp [State.fabRuns, and_assoc]

/-! ## What reaches a tile port (R157, R308 to R310) -/

theorem exec_tileRxDelivery {die : Fin 8} {tp : Fin 512} {p : Packet} {u : State} (hstands : s.standsAt (.tile die tp) p = true)
    (htake : s.tileTake die tp p = some u) : exec (.tileRxDelivery die tp p) s = .next (u.arrive (.tile die tp) p) := by
  simp only [exec, execTileRxDelivery, State.tileArrival, hstands, htake, if_true]

theorem State.tileTake_refuses {p : Packet} (h : s.tileDead d t = true ∨
    (tallyClass p = false ∧ s.regB .FAB_TP_BIND_EN (d * 512 + t) = false)) : s.tileTake d t p = some (s.tileRefuse d t p) := by
  rcases h with hdead | ⟨htally, hbind⟩
  · rw [State.tileTake, if_pos hdead]
  · cases hdead : s.tileDead d t <;> simp [State.tileTake, hdead, htally, hbind]

theorem State.tileTake_tally {p : Packet} (hdead : s.tileDead d t = false) (htally : tallyClass p = true) :
    s.tileTake d t p = some ((s.modTile d t (fun k => k.tally p)).accept (.tile d t) p) := by
  simp only [State.tileTake, hdead, htally, Bool.false_eq_true, if_false, if_true]

theorem State.tileTake_write {p : Packet} (hdead : s.tileDead d t = false) (htally : tallyClass p = false)
    (hbind : s.regB .FAB_TP_BIND_EN (d * 512 + t) = true) (hopen : s.maskOpen d (t / 32) = true) (hcmd : p.cmd = cWRITE)
    (hroom : (s.tile d t).rx.length + (fifoOf p).length ≤ 32) : s.tileTake d t p =
      some ((s.modTile d t (fun k => { k with rx := k.rx ++ fifoOf p })).accept (.tile d t) p) := by
  have hmask : cWRITE ≠ cMASK := by decide
  have hread : cWRITE ≠ cRDATA := by decide
  simp only [State.tileTake, hdead, htally, hbind, hopen, hcmd, hmask, hread, Nat.not_lt.mpr hroom, Bool.not_true,
    Bool.false_eq_true, true_or, if_false, if_true]

end

/-! ## DSP slices (R295 to R303) -/

section
variable {s : State} {i : SliceId} {io : DspIn} {o : Nat} {w : W32}

/-- A slice that is ready does what its word says. -/
theorem State.DspReady.issue (h : s.DspReady i io o w) (act : W32 → Slice → State → State) :
    s.dspIssue i o io act = act w (s.slice i.die i.n) s := by
  have hoffered : (readsInput w && !io.iv) = false := by
    cases hreads : readsInput w
    · rfl
    · rw [h.offered hreads]; rfl
  simp only [State.dspIssue, h.running, h.clocked, Nat.not_le.mpr h.inProgram, h.fetched, h.coded, h.staged, h.unreserved,
    hoffered, ne_eq, not_true_eq_false, false_and, Bool.not_true, Bool.or_self, Bool.false_eq_true, if_false]

/-- A ready instruction that acts on its slice alone: its effect on the slice, which then passes on. -/
theorem State.DspReady.issueOne (h : s.DspReady i io o w) (f : W32 → Slice → Slice → Slice) : s.dspOne i o io f =
    s.setSlice i.die i.n (f w (s.slice i.die i.n) { (s.slice i.die i.n).cycle with ir := readsInput w }).next := h.issue _

/-- A draw of free values holds no slice off. -/
theorem State.DspReady.drew (h : s.DspReady i io o w) (n : Nat) : (s.drew n).DspReady i io o w :=
  ⟨h.running, h.clocked, h.inProgram, h.fetched, h.coded, h.staged, h.unreserved, h.offered⟩

/-- MOV writes ACC whole, or a source of 24 bits below free ones (R302). -/
theorem Slice.movValue_acc (k : Slice) (io : DspIn) (fr : Nat) : k.movValue io fr 0x1F = k.acc2 := if_pos rfl

theorem Slice.movValue_source {n : Nat} (hn : n ≠ 0x1F) (k : Slice) (io : DspIn) (fr : Nat) :
    (k.movValue io fr n).extractLsb' 0 24 = k.source io n := by
  have hlt := (k.source io n).isLt
  refine BitVec.eq_of_toNat_eq ?_
  rw [Slice.movValue, if_neg hn, BitVec.extractLsb'_toNat, BitVec.toNat_ofNat, Nat.shiftRight_zero]
  omega

theorem exec_dspMov (h : s.DspReady i io 0x2 w) : exec (.dspMov i io) s = .next ((s.setSlice i.die i.n
    ({ (s.slice i.die i.n).cycle with ir := readsInput w }.setReg (wf w 24 4)
      ((s.slice i.die i.n).movValue io s.freeVal (wf w 19 5))).next).drew 1) :=
  congrArg Host.Outcome.next ((h.drew 1).issueOne _)

theorem exec_dspAgset (h : s.DspReady i io 0x6 w) :
    let k : Slice := { (s.slice i.die i.n).cycle with ir := readsInput w }
    let v := BitVec.ofNat 16 (wf w 9 16)
    exec (.dspAgset i io) s = .next (s.setSlice i.die i.n (if wf w 27 1 = 1 then { k with p1 := k.p1.set (wf w 25 2) v }
      else { k with p0 := k.p0.set (wf w 25 2) v } : Slice).next) :=
  congrArg Host.Outcome.next (h.issueOne _)

theorem exec_dspLoop (h : s.DspReady i io 0x7 w) : exec (.dspLoop i io) s = .next (
    if (s.slice i.die i.n).loopError w then s.dspError i.die i.n (s.slice i.die i.n).cycle
    else s.setSlice i.die i.n ((s.slice i.die i.n).cycle.openLoop w)) :=
  congrArg Host.Outcome.next (h.issue _)

/-- RUN starts the slice at entry 0, with no loop open and a search begun (R297, R300). -/
def Slice.started (k : Slice) : Slice :=
  { k.beginChain with pc := 0, rrb := 0, l0 := .off, l1 := .off, running := true, err := false }

theorem exec_dspRun (hruns : s.fabRuns i.die (i.n.val / 512) = true) :
    exec (.dspRun i) s = .next (s.setSlice i.die i.n (s.slice i.die i.n).started) := by
  simp only [exec, execDspRun, hruns, Bool.not_true, Bool.false_eq_true, if_false]
  rfl

end

/-! ## Raw lanes and pins (R312 to R314, R329) -/

section
variable {s : State} {die : Fin 8} {lane : Fin 32} {block : BitVec 256}

theorem exec_rawBlockReceive (hup : s.rawUp die lane = true) (hopen : (s.fabRegion die (lane.val / 2)).open_ = true)
    (hroom : (s.rawBuf (die.val * 32 + lane.val)).length < 64) :
    let i := die.val * 32 + lane.val
    exec (.rawBlockReceive die lane block false) s =
      .next { s with fab := { s.fab with raw := Tbl.set s.fab.raw i (s.rawBuf i ++ [(block, false)]) } } := by
  simp only [exec, execRawBlockReceive, hup, hopen, Nat.not_le.mpr hroom, decide_false, Bool.not_true, Bool.or_self,
    Bool.false_eq_true, if_false]

theorem exec_rawBlockReceive_dropped (hup : s.rawUp die lane = true) (hfull : (s.fabRegion die (lane.val / 2)).open_ = false ∨
    64 ≤ (s.rawBuf (die.val * 32 + lane.val)).length) :
    exec (.rawBlockReceive die lane block false) s = .next (s.bump .FAB_RAW_STAT_RXDROP (die.val * 32 + lane.val)) := by
  have hdrop : (!(s.fabRegion die (lane.val / 2)).open_ || decide (64 ≤ (s.rawBuf (die.val * 32 + lane.val)).length)) = true := by
    rcases hfull with h | h <;> simp [h]
  simp only [exec, execRawBlockReceive, hup, hdrop, Bool.not_true, Bool.false_eq_true, if_false, if_true]

/-- A short on a driven pin shows, and its driver goes off (R314). -/
theorem exec_gpioShort {pin : Fin 32} (hdriven : s.pinDrive die pin ≠ none) : exec (.gpioShort die pin) s =
    .next { s.setReg .FAB_GPIO_STAT_SHORT die (natSet (s.reg .FAB_GPIO_STAT_SHORT die) pin 1 1) with
      fab := { s.fab with gpioOff := (die.val * 32 + pin.val) :: s.fab.gpioOff } } :=
  congrArg Host.Outcome.next (if_neg hdriven)

/-- The bits of SHORT that a write of 1s does not name stay (R314). -/
theorem State.gpioClear_short (s : State) (die : Nat) (mask : BitVec 32) {j : Nat} (hj : j < 32) :
    ((s.gpioClear die mask.toNat).reg .FAB_GPIO_STAT_SHORT die).testBit j =
      ((s.reg .FAB_GPIO_STAT_SHORT die).testBit j && !mask.getLsbD j) := by
  have hshown : (s.gpioClear die mask.toNat).reg .FAB_GPIO_STAT_SHORT die =
      (s.reg .FAB_GPIO_STAT_SHORT die &&& (2 ^ 32 - (mask.toNat + 1))) % 2 ^ 32 := by
    refine (State.reg_setReg_self ..).trans ?_
    rw [Nat.mod_eq_of_lt mask.isLt, Nat.sub_sub, Nat.add_comm 1]
    rfl
  rw [hshown, Nat.testBit_mod_two_pow, Nat.testBit_land, Nat.testBit_two_pow_sub_succ mask.isLt, BitVec.testBit_toNat]
  simp [hj]

/-- The drivers of the pins whose bits are cleared are enabled again (R314). -/
theorem State.gpioClear_off (s : State) (die : Nat) {mask : BitVec 32} {j : Nat} (hj : j < 32) (hmask : mask.getLsbD j = true) :
    die * 32 + j ∉ (s.gpioClear die mask.toNat).fab.gpioOff := by
  intro hmem
  have hkept := (List.mem_filter.mp hmem).2
  rw [show (die * 32 + j) / 32 = die by omega, show (die * 32 + j) % 32 = j by omega, BitVec.testBit_toNat, hmask] at hkept
  simp at hkept

end

end Sys2Proof.Machine

open Sys2Proof Sys2Proof.Machine

/-! ## The obligations -/

/-- Settles O44: a port of a block does what its enables ask; TX takes the entries one by one and sends the packet with its last, or
discards it with its first; what reaches a tile port is taken or refused in one step. -/
theorem blocksAndTilesComplete : Obligations.BlocksAndTilesComplete := by
  unfold Obligations.BlocksAndTilesComplete
  intro die tp block portB acc ecc p e l s
  extract_lets i k here runs port w a o new x sent offered whole
  have hoffered (h : offered) : s.Offered die tp e l := by
    obtain ⟨-, hfaced, hheld, htx, hhdr, hroom, hdata⟩ := h
    exact ⟨hfaced, hheld, htx, hhdr, hroom, hdata⟩
  have hwhole (h : whole) : s.Whole die tp e l := by
    obtain ⟨hoff, hbind, hsound, hcomplete, hopen⟩ := h
    exact ⟨hoffered hoff, hbind, hsound, hcomplete, hopen⟩
  have htx (h : runs) : exec (.tileTxPacket die tp e l) s = .next (s.txOffer die tp (e :: l)) := exec_tileTxPacket h.1 h.2 e l
  refine ⟨fun hruns hap hwrite hread => ?_, fun hon hgsr hap hwrite hread => ?_, fun hruns hap hwrite hread => ?_,
    fun h hdata hread hmem => ?_, fun h hread hroom => ?_, fun r h hdata hanswers => ?_, fun h hbind => ?_, fun h hbind hbad => ?_,
    fun hstands hdead htally => exec_tileRxDelivery hstands (State.tileTake_tally hdead htally),
    fun hstands hrefuse => exec_tileRxDelivery hstands (State.tileTake_refuses hrefuse),
    fun hstands hcmd htally hbind hdead hopen hroom =>
      exec_tileRxDelivery hstands (State.tileTake_write hdead htally hbind hopen hcmd hroom),
    fun h => ?_, fun h => ?_, fun tag r hr => ?_, fun h => ?_⟩
  · obtain ⟨hon, hgsr, hwrites⟩ := State.fabRuns_iff.mp hruns
    simp only [exec, execBramPortAccess, hon, hgsr, hap, hwrites, hwrite, hread, Bool.not_true, Bool.or_self, Bool.and_self,
      Bool.and_false, Bool.false_eq_true, if_false, if_true]
    rfl
  · simp only [exec, execBramPortAccess, hon, hgsr, hap, hwrite, hread, Bool.not_true, Bool.or_self, Bool.false_and,
      Bool.false_eq_true, if_false, if_true]
    rfl
  · obtain ⟨hon, hgsr, hwrites⟩ := State.fabRuns_iff.mp hruns
    simp only [exec, execBramPortAccess, hon, hgsr, hap, hwrites, hwrite, hread, Bool.not_true, Bool.or_self, Bool.and_self,
      Bool.false_eq_true, if_false, if_true]
    rfl
  · rw [htx h.1.1, (hwhole h).sends_plain hdata hread hmem]; rfl
  · rw [htx h.1.1, (hwhole h).sends_read hread hroom]; rfl
  · rw [htx h.1.1, (hwhole h).sends_answer hdata hanswers]; rfl
  · rw [htx h.1, (hoffered h).unbound hbind]; rfl
  · rw [htx h.1, (hoffered h).malformed hbind hbad]; rfl
  · simp only [exec, execRxEntryTaken, h.1, h.2, Bool.not_true, Bool.or_self, Bool.false_eq_true, if_false]
  · simp only [exec, execRxEntryTaken, h.1, h.2, Bool.not_true, Bool.or_self, Bool.false_eq_true, if_false, if_true]
  · simp only [exec, execTileReadTimeout, k, i] at hr ⊢
    simp only [hr]
  · simp only [exec, execTlyClr, h.1, h.2, Bool.not_true, Bool.or_self, Bool.false_eq_true, if_false]

/-- Settles O45: a ready slice does what its word says, and the word acts on the slice alone. -/
theorem dspInstructionsComplete : Obligations.DspInstructionsComplete := by
  unfold Obligations.DspInstructionsComplete
  intro i io w s k k1 put
  refine ⟨fun h => congrArg _ (h.issueOne _), fun h => congrArg _ (h.issueOne _), fun h => ⟨_, exec_dspMov h, fun hacc => ?_,
    fun hsrc => Slice.movValue_source hsrc ..⟩, fun h => congrArg _ (h.issueOne _), fun h => congrArg _ (h.issueOne _),
    fun h => congrArg _ (h.issueOne _), fun h hzero => ?_, fun h hone => ?_, fun h hsound => ?_, fun h herror => ?_,
    fun h => congrArg _ (h.issue _), fun hruns => ⟨_, exec_dspRun hruns, rfl, rfl, rfl, rfl, rfl, rfl⟩⟩
  · rw [hacc, Slice.movValue_acc]
  · rw [exec_dspAgset h, if_neg (by rw [hzero]; decide)]
  · rw [exec_dspAgset h, if_pos hone]
  · rw [exec_dspLoop h, if_neg (by rw [hsound]; decide)]
  · rw [exec_dspLoop h, if_pos herror]

/-- Settles O46: each event is one lemma on `exec`, and a bit of SHORT stands for a driver that is off. -/
theorem lanesAndPinsComplete : Obligations.LanesAndPinsComplete := by
  unfold Obligations.LanesAndPinsComplete
  intro die lane block s i
  refine ⟨fun hup hopen hroom => ⟨_, exec_rawBlockReceive hup hopen hroom, ?_, rfl⟩,
    fun hup hfull => exec_rawBlockReceive_dropped hup hfull, fun hdie hlane hopen hruns hup => ?_,
    fun hdriven => ⟨_, exec_gpioShort hdriven, rfl, ?_, rfl⟩, fun src mask hgrant => ⟨s.gpioClear die mask.toNat,
      congrArg _ (State.writeAs_granted hgrant _), fun j hj => State.gpioClear_short s die mask hj,
      fun j hj hmask => State.gpioClear_off s die hj hmask⟩⟩
  · exact Tbl.getD_set_self (κ := Nat) ..
  · simp only [exec, execRawBlockTransmit, Nat.not_le.mpr hdie, hlane, hopen, hruns, hup, Bool.true_eq_false, or_self, if_false,
      if_true]
  · have hshown : ((s.setReg .FAB_GPIO_STAT_SHORT die (natSet (s.reg .FAB_GPIO_STAT_SHORT die) lane 1 1)).reg
        .FAB_GPIO_STAT_SHORT die).testBit lane.val = true := by
      rw [State.reg_setReg_self, Nat.testBit_mod_two_pow, testBit_natSet]
      simp [show lane.val < Fld.FAB_GPIO_STAT_SHORT.info.width from lane.isLt]
    exact hshown

/-- Settles O47: the port's conditions are the guard of its command. -/
theorem fabricInterrupts : Obligations.FabricInterrupts := by
  unfold Obligations.FabricInterrupts
  intro die region num s
  refine ⟨fun hopen hstate => ?_, fun hshut => ?_⟩
  · simp only [exec, execFabricIrq, hopen, beq_eq_false_iff_ne.mpr hstate, Bool.not_true, Bool.or_self, Bool.false_eq_true,
      if_false]
  · have hguard : (!s.maskOpen die region || s.reg .CFG_REGIONS_STATE (die.val * 16 + region.val) == 2) = true := by
      rcases hshut with h | h <;> simp [h]
    simp only [exec, execFabricIrq, hguard, if_true]
end

section
/-! SUPPORT and PROOFS for 19_module.md and 14_security.md: counters at their end, a module reset by PKG_RESET, and the vault over
every step. -/

-- As in the architect's lemma files: one declaration at a time keeps the compile within check.sh's memory.
set_option Elab.async false

namespace Sys2Proof.Machine

section
variable {s : State}

/-! ## Counters (R431) -/

theorem State.reg_bump_end {f : Fld} {i : Nat} (h : s.reg f i = 2 ^ f.info.width - 1) :
    (s.bump f i).reg f i = 2 ^ f.info.width - 1 := by
  have hpos := Nat.two_pow_pos f.info.width
  rw [State.reg_bump_self, h, Nat.min_eq_right (by omega), Nat.mod_eq_of_lt (by omega)]

theorem State.reg_bump_below {f : Fld} {i : Nat} (h : s.reg f i < 2 ^ f.info.width - 1) :
    (s.bump f i).reg f i = s.reg f i + 1 := by
  rw [State.reg_bump_self, Nat.min_eq_left (by omega), Nat.mod_eq_of_lt (by omega)]

theorem State.reg_wrapInc_end {f : Fld} {i : Nat} (h : s.reg f i = 2 ^ f.info.width - 1) : (s.wrapInc f i).reg f i = 0 := by
  have hpos := Nat.two_pow_pos f.info.width
  rw [State.wrapInc, State.reg_setReg_self, h, Nat.sub_add_cancel hpos, Nat.mod_self]

theorem State.reg_wrapInc_below {f : Fld} {i : Nat} (h : s.reg f i < 2 ^ f.info.width - 1) :
    (s.wrapInc f i).reg f i = s.reg f i + 1 := by
  rw [State.wrapInc, State.reg_setReg_self, Nat.mod_eq_of_lt (by omega)]

/-! ## PKG_RESET (R403) -/

/-- What a write of PKG_RESET that resets nothing may leave: the count of violations, a port's errors and the answer to it. -/
def State.OnlyViolation (s t : State) : Prop :=
  t = { s with regs := t.regs, ports := t.ports, out := t.out } ∧ ∀ f i, f ≠ .PCI_ACC_VIOL_COUNT → t.reg f i = s.reg f i

theorem State.OnlyViolation.refl (s : State) : s.OnlyViolation s := ⟨rfl, fun _ _ _ => rfl⟩

theorem State.onlyViolation_unsupported (s : State) (src : Src) : s.OnlyViolation (s.unsupported src) := by
  cases src <;> exact ⟨rfl, fun _ _ _ => rfl⟩

/-- PKG_RESET has no field whose refused write the package counts: a denied write of it leaves a violation at most. -/
theorem State.onlyViolation_deny (s : State) (src : Src) : s.OnlyViolation (s.deny src .PKG_RESET 0 0 0 true) := by
  cases src with
  | port p => exact ⟨rfl, fun f i hf => State.reg_bump_field s .PCI_ACC_VIOL_COUNT f p i hf⟩
  | helm d p => exact .refl s

theorem State.reaches_ungated (s : State) (src : Src) (d b : Nat) : s.reaches src ≠ .gated d b := by
  cases src <;> simp only [State.reaches] <;> split_ifs <;> exact fun h => by cases h

/-- PKG_RESET stands behind no gate. -/
theorem State.access_pkgReset_ungated (s : State) (src : Src) (d b : Nat) : s.access src .PKG_RESET 0 0 true ≠ .gated d b := by
  have hgate : Rg.gateBit .PKG_RESET 0 0 = none := rfl
  rw [State.access, hgate]
  split
  · dsimp only
    split_ifs <;> exact fun h => by cases h
  · exact s.reaches_ungated src d b

/-- A write of PKG_RESET that is not granted, or whose conditions do not all hold, leaves a violation at most. -/
theorem State.onlyViolation_writeAs (s : State) (src : Src) {act : State → State}
    (h : s.access src .PKG_RESET 0 0 true = .granted → act s = s) : s.OnlyViolation (s.writeAs src .PKG_RESET 0 0 act) := by
  rw [State.writeAs]
  cases ha : s.access src .PKG_RESET 0 0 true with
  | never => exact .refl s
  | unsupported => exact s.onlyViolation_unsupported src
  | gated d b => exact absurd ha (s.access_pkgReset_ungated src d b)
  | denied => exact s.onlyViolation_deny src
  | granted => exact (h ha).symm ▸ .refl s

end

end Sys2Proof.Machine

open Sys2Proof Sys2Proof.Machine

/-! ## The obligations -/

/-- Settles O59: what a counter reads after its event, below its greatest value and at it. -/
theorem countersAtTheirEnd : Obligations.CountersAtTheirEnd := by
  unfold Obligations.CountersAtTheirEnd
  refine fun s f i => ⟨fun h => ⟨State.reg_bump_end h, State.reg_wrapInc_end h⟩,
    fun h => ⟨State.reg_bump_below h, State.reg_wrapInc_below h⟩, ?_⟩
  rintro t (rfl | rfl) <;> exact ⟨rfl, fun g k h => State.reg_setReg_other s f g i k _ h⟩

/-- Settles O55: a granted write either meets the conditions or does nothing, and one that is not granted is counted at most. -/
theorem packageReset : Obligations.PackageReset := by
  unfold Obligations.PackageReset
  refine fun src v s => ⟨?_, fun hnot => ⟨_, rfl, s.onlyViolation_writeAs src fun hgrant => ?_⟩⟩
  · rintro port rfl hgrant hlease hstopped hgo hconfirm
    simp only [exec, execPkgReset, State.writeAs_granted hgrant, hlease, hstopped, hgo, hconfirm, decide_true, Bool.and_self,
      if_true]
  · cases src with
    | helm d p => rfl
    | port p =>
      refine if_neg fun hall => hnot ⟨p, rfl, hgrant, ?_⟩
      simpa only [Bool.and_eq_true, decide_eq_true_eq, and_assoc] using hall

/-- Settles O6: a step is a nanosecond or the front command, and both stay within a reach, of which the vault's way on is a part. -/
theorem vaultOnlyMovesOn : Obligations.VaultOnlyMovesOn := by
  unfold Obligations.VaultOnlyMovesOn
  intro s t ht
  cases hp : s.pending with
  | nil =>
    obtain rfl : s.tick = t := by simpa only [step, hp, Host.Outcome.next.injEq] using ht
    exact s.within_tick.onward
  | cons i rest =>
    rw [step_of_pending hp] at ht
    exact (within_reach_of_exec ht).onward
end

section
/-! SUPPORT and PROOFS for 16_helm_interrupts.md: what a message does, claims and completions, the watchdogs and the cross-check,
and a processor that runs again. -/

-- As in the architect's lemma files: one declaration at a time keeps the compile within check.sh's memory.
set_option Elab.async false

namespace Sys2Proof.Machine

@[simp] theorem Tbl.get?_erase_self {κ α : Type} [DecidableEq κ] (t : Tbl κ α) (k : κ) : Tbl.get? (Tbl.erase t k) k = none := by
  induction t with
  | nil => rfl
  | cons e t ih =>
    obtain ⟨j, v⟩ := e
    by_cases h : j = k
    · simpa [Tbl.erase, h] using ih
    · simpa [Tbl.erase, h, Tbl.get?] using ih

section
variable {s : State} {die proc : Nat}

theorem State.regB_eq_false {f : Fld} {i : Nat} (h : s.reg f i = 0) : s.regB f i = false := by rw [State.regB, h]; rfl

/-! ## Messages (R385, R386, R390) -/

theorem State.message_awake (h : die ∉ s.helm.asleep) (num : Nat) (helm : Bool) : s.message die num helm = s.takeMsg die num helm :=
  if_neg (by simpa using h)

theorem State.message_asleep (h : die ∈ s.helm.asleep) (num : Nat) (helm : Bool) : s.message die num helm =
    { s with helm := { s.helm with wakeQ := Tbl.set s.helm.wakeQ die (Tbl.getD s.helm.wakeQ die [] ++ [(num, helm)]) } } :=
  if_pos (by simpa using h)

/-- A message that names a source of its die reaches it. -/
theorem State.takeMsg_source {n : Nat} (hdie : die < 8) (hn : n < 8192) (hres : reservedSource n = false) :
    s.takeMsg die (die * 8192 + n) false = s.setPend die n := by
  have hof : (die * 8192 + n) / 8192 = die := by omega
  have hat : (die * 8192 + n) % 8192 = n := by omega
  rw [State.takeMsg, if_neg (by omega), hof, hat, if_neg (by simp [hres])]

theorem exec_intMessage {d : Fin 8} (hdie : d.val < s.dies) (num : BitVec 16) (helm : Bool) :
    exec (.intMessage d num helm) s = .next (s.message d num.toNat helm) := by
  simp only [exec, execIntMessage, Nat.not_le.mpr hdie, if_false]

/-- The number of a source fits the 16 bits of a message. -/
theorem toNat_sourceNumber (d : Fin 8) (n : Fin 8192) : (BitVec.ofNat 16 (d.val * 8192 + n.val)).toNat = d.val * 8192 + n.val := by
  rw [BitVec.toNat_ofNat]; omega

theorem exec_intMessage_source {d : Fin 8} {n : Fin 8192} (hdie : d.val < s.dies) (hawake : d.val ∉ s.helm.asleep)
    (hres : reservedSource n = false) :
    exec (.intMessage d (BitVec.ofNat 16 (d.val * 8192 + n.val)) false) s = .next (s.setPend d n) := by
  rw [exec_intMessage hdie, toNat_sourceNumber, State.message_awake hawake, State.takeMsg_source d.isLt n.isLt hres]

/-! ## Claims, completions and sources (R387, R388) -/

/-- A completion of the source that the processor claimed (R388). -/
theorem exec_intComplete {src : Src} {d : Fin 8} {p : Fin 4} {n : Fin 8192} {v : BitVec 32}
    (hgrant : s.access src .INT_COMPLETE d p true = .granted) (hv : v.toNat % 2 ^ 17 = d.val * 8192 + n.val)
    (hclaimed : Tbl.get? s.helm.claimed (d.val, n.val) = some p.val)
    (hactive : s.regB .INT_SRC_ACTIVE (d.val * 8192 + n.val) = true) :
    exec (.intComplete src d p v) s = .next (({ s with helm := { s.helm with
      claimed := Tbl.erase s.helm.claimed (d.val, n.val) } } : State).setReg .INT_SRC_ACTIVE (d.val * 8192 + n.val) 0) := by
  have hshared : (d.val * 8192 + n.val) / 65536 ≠ 1 := by omega
  have hof : (d.val * 8192 + n.val) / 8192 = d.val := by omega
  have hat : (d.val * 8192 + n.val) % 8192 = n.val := by omega
  simp only [exec, execIntComplete, State.writeAs_granted hgrant, hv, hshared, hof, hat, hclaimed, hactive, and_self, if_false,
    if_true]

/-- A source's register as it is written (R387). -/
theorem exec_intSrcWrite {src : Src} {d : Fin 8} {n : Fin 8192} {v : BitVec 32} (hgrant : s.access src .INT_SRC d n true = .granted)
    (hres : reservedSource n = false) (htarget : natBits v.toNat 0 3 < 6) :
    let i := d.val * 8192 + n.val
    let t := (((s.setReg .INT_SRC_TARGET i (natBits v.toNat 0 3)).setReg .INT_SRC_PRIO i (natBits v.toNat 4 2)).setReg
      .INT_SRC_VECTOR i (natBits v.toNat 8 11)).setReg .INT_SRC_EN i (natBits v.toNat 24 1)
    exec (.intSrcWrite src d n v) s = .next (if natBits v.toNat 28 1 = 1 then t.setReg .INT_SRC_PEND i 0 else t) := by
  simp only [exec, execIntSrcWrite, State.writeAs_granted hgrant, hres, htarget, Bool.false_eq_true, if_false, if_true]

theorem State.reg_setReg_natBits (s : State) (f : Fld) (i v lo : Nat) :
    (s.setReg f i (natBits v lo f.info.width)).reg f i = natBits v lo f.info.width := by
  rw [State.reg_setReg_self, Nat.mod_eq_of_lt (natBits_lt ..)]

/-- A controller that wakes takes the messages of its queue, which change registers alone (R390). -/
theorem State.foldl_takeMsg_within (s : State) (d : Nat) (q : List (Nat × Bool)) :
    s.Within [.regs] (q.foldl (fun s m => s.takeMsg d m.1 m.2) s) :=
  State.within_foldl q _ (.refl _ _) fun _ m h => State.takeMsg_within h d m.1 m.2 (by decide)

/-- A controller that has woken, before it takes the messages of its queue. -/
def State.woken (s : State) (d : Nat) : State :=
  ({ s with helm := { s.helm with asleep := s.helm.asleep.filter (· != d), wakeQ := Tbl.erase s.helm.wakeQ d } } : State).bump
    .INT_STAT_WAKES d

theorem State.woken_awake (s : State) (d : Nat) : d ∉ (s.woken d).helm.asleep := by
  change d ∉ s.helm.asleep.filter (· != d)
  simp

theorem exec_intControllerWake {d : Fin 8} (hasleep : d.val ∈ s.helm.asleep) (hq : Tbl.getD s.helm.wakeQ d.val [] ≠ []) :
    exec (.intControllerWake d) s =
      .next ((Tbl.getD s.helm.wakeQ d.val []).foldl (fun s m => s.takeMsg d.val m.1 m.2) (s.woken d)) := by
  simp only [exec, execIntControllerWake, List.contains_iff_mem.mpr hasleep, List.isEmpty_iff, hq, Bool.true_eq_false, or_self,
    if_false]
  rfl

/-! ## Watchdogs, the cross-check and a processor that runs again (R376 to R379) -/

/-- The registers that a processor's reset may change, but for its own state: its duties and resets, the sources that it had
claimed, the source that tells of it, and the die that has no processor left. -/
def resetFields : List Fld :=
  [.HELM_STAT_DUTIES, .HELM_STAT_RESETS, .INT_SRC_ACTIVE, .INT_SRC_TARGET, .HELM_STAT_DIE_LOST] ++ messageFields

theorem State.unclaim_regsBut (s : State) (die p : Nat) : s.RegsBut resetFields (s.unclaim die p) :=
  .trans (t := { s with helm := { s.helm with claimed := s.helm.claimed.filter (fun e => !(e.1.1 == die && e.2 == p)) } })
    (.of_regs rfl) (.foldl (fun t e => (RegsBut.refl.setReg (t := t) .INT_SRC_ACTIVE _ 0).setReg .INT_SRC_PEND _ 1) _)

/-- A processor that is reset is in reset, or has failed for good (R378). -/
theorem State.resetProc_state (s : State) (die p : Nat) : (s.resetProc die p).reg .HELM_STAT_STATE (die * 4 + p) ∈ [1, 2] := by
  unfold State.resetProc
  extract_lets i recent failed h s1 s2 s3
  have hstate : (s1.setReg .HELM_STAT_STATE i (if failed then 2 else 1)).reg .HELM_STAT_STATE i ∈ [1, 2] := by
    rw [State.reg_setReg_self]
    split <;> decide
  have h2 : (s1.setReg .HELM_STAT_STATE i (if failed then 2 else 1)).RegsBut resetFields s2 :=
    (RegsBut.refl.setReg .HELM_STAT_DUTIES i 1).bump .HELM_STAT_RESETS i
  have h3 : s2.RegsBut resetFields s3 :=
    ((s2.unclaim_regsBut die p).setReg .INT_SRC_TARGET _ _).trans ((State.raise_regsBut ..).mono (by decide))
  have hlost (t : State) : t.RegsBut resetFields
      ((List.range 4).foldl (fun s q => s.setReg .HELM_STAT_DIE_LOST (die * 4 + q) 1) t) :=
    .foldl (fun u q => (RegsBut.refl (s := u)).setReg .HELM_STAT_DIE_LOST _ 1) _
  have h4 : s3.RegsBut resetFields (if (List.range 4).all (fun q => s3.reg .HELM_STAT_STATE (die * 4 + q) == 2) then
      (List.range 4).foldl (fun s q => s.setReg .HELM_STAT_DIE_LOST (die * 4 + q) 1)
        { s3 with module := { s3.module with alert := true } } else s3) :=
    .ite (.trans (t := { s3 with module := { s3.module with alert := true } }) (.of_regs rfl) (hlost _)) .refl
  rwa [((h2.trans h3).trans h4).same _ _ (by decide)]

theorem State.resetProc_hbm (s : State) (die p : Nat) : (s.resetProc die p).hbm = s.hbm :=
  (State.resetProc_within (l := [.regs, .helm, .module]) (.refl _ s) die p (by decide) (by decide) (by decide)).hbm

/-- The registers that the signer and the keys' upkeep may change (R348 to R352). -/
def signerFields : List Fld :=
  [.SEC_ATT_STAT_GENERATING, .SEC_ATT_STAT_REFUSE_CAUSE, .SEC_ATT_STAT_KEY, .SEC_ATT_STAT_PENDING, .SEC_ATT_STAT_NEXT_INDEX,
    .SEC_ATT_STAT_ID_LEFT]

theorem State.keysMoved_regsBut (s : State) : s.RegsBut signerFields s.keysMoved := by
  have hroll (t : State) : t.RegsBut signerFields t.rollover := .ite (RegsBut.refl.setReg ..) .refl
  have hexhaust (t : State) : t.RegsBut signerFields t.exhaust := .ite (RegsBut.refl.setReg ..) .refl
  have hshow (t : State) : t.RegsBut signerFields t.showKeys := (((RegsBut.refl.setReg ..).setReg ..).setReg ..).setReg ..
  have hturn : s.RegsBut signerFields (if s.vaultWrites then s.modVault Vault.turnOver else s) := .ite (.of_regs rfl) .refl
  exact ((hturn.trans (hroll _)).trans (hexhaust _)).trans (hshow _)

theorem State.quote_regsBut (s : State) (p : Nat) (nonce : BitVec 256) (mask : Nat) :
    s.RegsBut signerFields (s.quote p nonce mask) := by
  unfold State.quote
  extract_lets v sig gap u
  have hu : s.RegsBut signerFields (u.doeAnswer p (v.quoteHead 0 nonce mask ++ sig)) := .of_regs rfl
  exact hu.trans (State.keysMoved_regsBut _)

theorem State.serveReq_regsBut {t : State} (h : s.serveReq = some t) : s.RegsBut signerFields t := by
  unfold State.serveReq at h
  split at h
  · cases h
  · extract_lets u at h
    split at h
    · obtain rfl := Option.some.inj h
      exact .of_regs rfl
    · obtain rfl := Option.some.inj h
      exact .of_regs rfl
    · split_ifs at h
      · obtain rfl := Option.some.inj h
        exact .of_regs rfl
      · obtain rfl := Option.some.inj h
        exact RegsBut.trans (t := u) (.of_regs rfl) (u.quote_regsBut ..)

theorem State.signer_regsBut (s : State) : s.RegsBut signerFields s.signer := by
  have hserve (n : Nat) (t : State) : t.RegsBut signerFields (t.serveReqs n) := by
    induction n generalizing t with
    | zero => exact .refl
    | succ n ih =>
      unfold State.serveReqs
      split
      · next u h => exact (State.serveReq_regsBut h).trans (ih u)
      · exact .refl
  exact hserve _ s

theorem State.keysSettle_regsBut (s : State) : s.RegsBut signerFields s.keysSettle := .ite s.keysMoved_regsBut .refl

theorem State.keysSettle_signer_within (s : State) : s.Within [.regs, .vault, .free, .out] s.keysSettle.signer :=
  State.signer_within (State.keysSettle_within (.refl _ _) (by decide) (by decide)) (by decide) (by decide) (by decide) (by decide)

/-- A processor whose image holds runs from its copy of it, with no duties left to take up (R379). -/
theorem exec_helmProcessorRunning {d : Fin 8} {p : Fin 4} (hreset : s.reg .HELM_STAT_STATE (d.val * 4 + p.val) = 1)
    (himage : s.imageHolds d = true) :
    exec (.helmProcessorRunning d p) s = .next (((s.reloadImage d p).setReg .HELM_STAT_STATE (d.val * 4 + p.val) 0).setReg
      .HELM_STAT_DUTIES (d.val * 4 + p.val) 0).keysSettle.signer := by
  simp only [exec, execHelmProcessorRunning, hreset, himage, ne_eq, not_true_eq_false, Bool.true_eq_false, or_self, if_false]

theorem exec_crossCheck {d : Fin 8} {p : Fin 4} {q : Nat} (hruns : s.procRuns d p = true) (hdie : d.val < s.dies)
    (hchecker : s.checker d p = some q) (act : CheckedAction) (agree : Bool) :
    let me := (d.val, p.val)
    exec (.crossCheck d p act agree) s = .next (
      if agree then { s with helm := { s.helm with disagreed := s.helm.disagreed.filter (· != me) } }
      else if s.helm.disagreed.contains me then ((s.bump .HELM_STAT_MISMATCH (d.val * 4 + p.val)).resetProc d p).resetProc d q
      else { s.bump .HELM_STAT_MISMATCH (d.val * 4 + p.val) with
        helm := { s.helm with disagreed := me :: s.helm.disagreed } }) := by
  simp only [exec, execCrossCheck, hruns, hdie, hchecker, decide_true, Bool.and_self]
  rfl

/-- A first disagreement is noted and counted. -/
theorem exec_crossCheck_first {d : Fin 8} {p : Fin 4} {q : Nat} (hruns : s.procRuns d p = true) (hdie : d.val < s.dies)
    (hchecker : s.checker d p = some q) (hfirst : (d.val, p.val) ∉ s.helm.disagreed) (act : CheckedAction) :
    exec (.crossCheck d p act false) s = .next { s.bump .HELM_STAT_MISMATCH (d.val * 4 + p.val) with
      helm := { s.helm with disagreed := (d.val, p.val) :: s.helm.disagreed } } := by
  rw [exec_crossCheck hruns hdie hchecker, if_neg (by decide), if_neg (by simpa using hfirst)]

end

end Sys2Proof.Machine

open Sys2Proof Sys2Proof.Machine

/-! ## The obligations -/

/-- Settles O51: each event is one lemma on `exec`; what a reset leaves in STATE is its last word on that register. -/
theorem helmEventsComplete : Obligations.HelmEventsComplete := by
  unfold Obligations.HelmEventsComplete
  intro die proc v act q s i me
  refine ⟨fun hgrant hkick => ?_, fun hwatched hwarned => ?_, fun hwatched => ⟨congrArg _ (if_pos hwatched),
    s.resetProc_state die proc, s.resetProc_hbm die proc⟩,
    fun hruns hdie hq => ⟨_, exec_crossCheck hruns hdie hq act true, ?_, rfl⟩,
    fun hruns hdie hq hfirst => ⟨_, exec_crossCheck_first hruns hdie hq hfirst act, List.mem_cons_self .., rfl⟩,
    fun hruns hdie hq hagain => (exec_crossCheck hruns hdie hq act false).trans ?_,
    fun hruns hdie => congrArg _ (if_pos ⟨hruns, hdie⟩), fun hreset himage => ⟨_, exec_helmProcessorRunning hreset himage, ?_⟩⟩
  · refine ⟨_, congrArg Host.Outcome.next (State.writeAs_granted hgrant _), ?_⟩
    rw [if_pos hkick]
    exact ⟨State.reg_setReg_natBits s .HELM_WDOG_PERIOD i v.toNat 0, by simp [me]⟩
  · simp only [exec, execWatchdogWarning, hwatched, Bool.true_eq_false, false_or]
    exact congrArg _ (if_neg (by simpa using hwarned))
  · simp [me]
  · rw [if_neg (by decide), if_pos (by simpa using hagain)]
  · let u := ((s.reloadImage die proc).setReg .HELM_STAT_STATE i 0).setReg .HELM_STAT_DUTIES i 0
    have hregs : u.RegsBut signerFields u.keysSettle.signer := u.keysSettle_regsBut.trans (State.signer_regsBut _)
    have hw := u.keysSettle_signer_within
    refine ⟨(hregs.same _ _ (by decide)).trans ?_, (hregs.same _ _ (by decide)).trans ?_, hw.hbm, ?_⟩
    · exact (State.reg_setReg_field _ _ _ _ _ _ (by decide)).trans (State.reg_setReg_self ..)
    · exact State.reg_setReg_self ..
    · rw [hw.helm]
      exact Tbl.get?_set_self ..

/-- Settles O52: a message to an awake controller is `State.setPend` of its source; claims and completions are one branch each, and
a controller that wakes takes messages alone. -/
theorem interruptsComplete : Obligations.InterruptsComplete := by
  unfold Obligations.InterruptsComplete
  intro die proc n v src s i num
  refine ⟨fun hdie hawake hres hidle => ?_, fun hdie hawake hres hpend => ?_, fun h hdie hasleep => ?_,
    fun htarget hawake hdeliver => ?_, fun hgrant hawake hnone => ?_, fun k m hgrant hawake hleast => ?_,
    fun hgrant hv hdie hclaimed hactive => ⟨_, exec_intComplete hgrant hv hclaimed hactive, ?_, Tbl.get?_erase_self ..⟩,
    fun p hgrant hkind => ?_, fun p hgrant hkind => ?_, fun hgrant hres htarget => ⟨_, exec_intSrcWrite hgrant hres htarget, ?_⟩,
    fun waits hdie hawake hen hquiet hwaits => ?_, fun hasleep hq => ⟨_, exec_intControllerWake hasleep hq, ?_⟩⟩
  · rw [exec_intMessage_source hdie hawake hres]
    exact congrArg _ (if_neg (by rw [hidle]; decide))
  · rw [exec_intMessage_source hdie hawake hres]
    exact congrArg _ (if_pos hpend)
  · refine ⟨_, exec_intMessage hdie num h, ?_⟩
    rw [State.message_asleep hasleep, toNat_sourceNumber]
    exact ⟨rfl, Tbl.getD_set_self ..⟩
  · refine congrArg _ (if_neg ?_)
    simp only [not_or]
    exact ⟨Nat.not_lt.mpr htarget, by simpa using hawake, by rw [hdeliver]; decide⟩
  · simp only [exec, execIntClaim, hgrant, List.contains_eq_mem, hawake, decide_false, and_self, if_true, hnone]
  · simp only [exec, execIntClaim, hgrant, List.contains_eq_mem, hawake, decide_false, and_self, if_true, hleast,
      Bool.false_eq_true, if_false]
  · exact State.regB_eq_false (State.reg_setReg_self ..)
  · simp only [exec, execIntRaise, State.writeAs_granted hgrant, ne_eq, not_true_eq_false, if_false, hkind, Nat.zero_ne_one]
  · simp only [exec, execIntRaise, State.writeAs_granted hgrant, ne_eq, not_true_eq_false, if_false, hkind, if_true]
  · have htgt : natBits v.toNat 0 3 % 2 ^ Fld.INT_SRC_TARGET.info.width = natBits v.toNat 0 3 := Nat.mod_eq_of_lt (natBits_lt ..)
    have hprio : natBits v.toNat 4 2 % 2 ^ Fld.INT_SRC_PRIO.info.width = natBits v.toNat 4 2 := Nat.mod_eq_of_lt (natBits_lt ..)
    have hen : natBits v.toNat 24 1 % 2 ^ Fld.INT_SRC_EN.info.width = natBits v.toNat 24 1 := Nat.mod_eq_of_lt (natBits_lt ..)
    split <;> simp only [State.reg_setReg, Prod.mk.injEq, reduceCtorEq, false_and, and_self, if_false, if_true, i, htgt, hprio,
      hen, Nat.zero_mod]
  · refine congrArg _ (if_pos ?_)
    have hall : (List.range 4).all (fun p => !s.procRuns die p || waits.any (fun w => w.val == p)) = true := by
      refine List.all_eq_true.mpr fun p hp => ?_
      cases hruns : s.procRuns die p with
      | false => rfl
      | true =>
        have hw := hwaits ⟨p, List.mem_range.mp hp⟩ hruns
        simpa using ⟨_, hw, rfl⟩
    simp [State.maySleep, hdie, hawake, hen, hquiet, hall]
  · have hw := (s.woken die).foldl_takeMsg_within die (Tbl.getD s.helm.wakeQ die.val [])
    exact ⟨by rw [hw.helm]; exact s.woken_awake die, hw.hbm, hw.cores⟩
end

section
/-! SUPPORT and PROOFS for 14_security.md: what the signer answers, the keys' upkeep, and the two steps of a write of the vault. -/

-- As in the architect's lemma files: one declaration at a time keeps the compile within check.sh's memory.
set_option Elab.async false

namespace Sys2Proof.Machine

section
variable {s : State} {p : Nat}

/-! ## What the signer answers (R342, R348, R350 to R352) -/

/-- The state with one request, and no other, before the signer. -/
def State.requested (s : State) (p : Nat) (r : DoeReq) : State := s.modVault (fun v => { v with reqs := [(p, r)] })

theorem State.requested_served (hreqs : s.vault.reqs = []) (r : DoeReq) :
    (s.requested p r).modVault (fun v => { v with reqs := [] }) = s := by
  have hv : ({ s.vault with reqs := [] } : Vault) = s.vault := by rw [← hreqs]
  exact congrArg (fun v => { s with vault := v }) hv

/-- A request that comes alone and can be served is served at once. -/
theorem State.doeRequest_served {t : State} {r : DoeReq} (hready : s.portReady p = true) (hreqs : s.vault.reqs = [])
    (hserve : (s.requested p r).serveReq = some t) : s.doeRequest p r = t := by
  have hasked : s.modVault (fun v => { v with reqs := v.reqs ++ [(p, r)] }) = s.requested p r := by
    simp only [State.requested, State.modVault, hreqs, List.nil_append]
  rw [State.doeRequest, if_pos hready, hasked]
  change State.serveReqs 1 _ = t
  rw [State.serveReqs, hserve]
  rfl

theorem State.doeRequest_status (hready : s.portReady p = true) (hreqs : s.vault.reqs = []) :
    s.doeRequest p .status = s.doeAnswer p s.vault.statusAnswer :=
  State.doeRequest_served hready hreqs (congrArg (fun t : State => some (t.doeAnswer p s.vault.statusAnswer))
    (State.requested_served hreqs .status))

theorem State.doeRequest_cert (hready : s.portReady p = true) (hreqs : s.vault.reqs = []) :
    s.doeRequest p .cert = (s.drew 1).doeAnswer p (s.vault.certAnswer s.freeVal) :=
  State.doeRequest_served hready hreqs (congrArg (fun t : State => some ((t.drew 1).doeAnswer p (s.vault.certAnswer s.freeVal)))
    (State.requested_served hreqs .cert))

theorem State.doeRequest_quote_refused {nonce : BitVec 256} {mask : Nat} (hready : s.portReady p = true) (hreqs : s.vault.reqs = [])
    (hcause : s.reg .SEC_ATT_STAT_REFUSE_CAUSE 0 ≠ 0) :
    s.doeRequest p (.quote nonce mask) = s.doeAnswer p (s.vault.quoteHead 0x0901 nonce mask) :=
  State.doeRequest_served hready hreqs ((if_pos hcause).trans
    (congrArg (fun t : State => some (t.doeAnswer p (s.vault.quoteHead 0x0901 nonce mask))) (State.requested_served hreqs _)))

theorem State.doeRequest_quote {nonce : BitVec 256} {mask : Nat} (hready : s.portReady p = true) (hreqs : s.vault.reqs = [])
    (hcause : s.reg .SEC_ATT_STAT_REFUSE_CAUSE 0 = 0) (hturn : s.quoteTurn = true) :
    s.doeRequest p (.quote nonce mask) = s.quote p nonce mask := by
  have hcause' : (s.requested p (.quote nonce mask)).reg .SEC_ATT_STAT_REFUSE_CAUSE 0 = 0 := hcause
  have hturn' : (s.requested p (.quote nonce mask)).quoteTurn = true := hturn
  refine State.doeRequest_served hready hreqs ?_
  exact (if_neg (not_not.mpr hcause')).trans ((if_pos hturn').trans
    (congrArg (fun t : State => some (t.quote p nonce mask)) (State.requested_served hreqs _)))

/-! ## A quote's leaf, and the keys' upkeep after it (R347, R348) -/

/-- What the attestation key's turn leaves of the vault. -/
theorem Vault.turnOver_keeps (v : Vault) : v.turnOver.attJournal = v.attJournal ∧ v.turnOver.reqs = v.reqs := by
  unfold Vault.turnOver
  split
  · split <;> exact ⟨rfl, rfl⟩
  · exact ⟨rfl, rfl⟩

theorem State.showKeys_vault (s : State) : s.showKeys.vault = s.vault := rfl

theorem State.showKeys_out (s : State) : s.showKeys.out = s.out := rfl

theorem State.keysMoved_keeps (s : State) : s.keysMoved.vault.attJournal = s.vault.attJournal ∧
    s.keysMoved.vault.reqs = s.vault.reqs ∧ s.keysMoved.out = s.out := by
  have hroll (t : State) : t.rollover.vault = t.vault ∧ t.rollover.out = t.out := by
    unfold State.rollover
    split <;> exact ⟨rfl, rfl⟩
  have hexhaust (t : State) : t.exhaust.vault = t.vault ∧ t.exhaust.out = t.out := by
    unfold State.exhaust
    split <;> exact ⟨rfl, rfl⟩
  have hshown (t : State) : t.rollover.exhaust.showKeys.vault = t.vault ∧ t.rollover.exhaust.showKeys.out = t.out :=
    ⟨(State.showKeys_vault _).trans ((hexhaust t.rollover).1.trans (hroll t).1),
      (State.showKeys_out _).trans ((hexhaust t.rollover).2.trans (hroll t).2)⟩
  unfold State.keysMoved
  extract_lets u
  have hu : u.vault.attJournal = s.vault.attJournal ∧ u.vault.reqs = s.vault.reqs ∧ u.out = s.out := by
    by_cases hw : s.vaultWrites = true
    · simp only [u, if_pos hw]
      exact ⟨s.vault.turnOver_keeps.1, s.vault.turnOver_keeps.2, rfl⟩
    · simp only [u, if_neg hw, and_self]
  rwa [(hshown u).1, (hshown u).2]

/-- A leaf that is used is journaled before its signature is made (R347). -/
theorem Vault.useLeaf_keeps (v : Vault) :
    v.useLeaf.attJournal = journalPut v.attJournal v.attKey (v.attNext + 1) ∧ v.useLeaf.reqs = v.reqs := by
  unfold Vault.useLeaf
  extract_lets n u
  split
  · unfold Vault.putKey
    split <;> exact ⟨rfl, rfl⟩
  · exact ⟨rfl, rfl⟩

theorem State.quote_shows (s : State) (p : Nat) (nonce : BitVec 256) (mask : Nat) :
    (s.quote p nonce mask).vault.attJournal = journalPut s.vault.attJournal s.vault.attKey (s.vault.attNext + 1) ∧
    (s.quote p nonce mask).vault.reqs = s.vault.reqs ∧ ∃ sig, sig.length = 2820 ∧
      (s.quote p nonce mask).out = s.out ++
        [.doe p (doeObject Config.vendorId.toNat 1 (s.vault.quoteHead 0 nonce mask ++ sig))] := by
  unfold State.quote
  extract_lets v sig gap u
  obtain ⟨hjournal, hreqs, hout⟩ := (u.doeAnswer p (v.quoteHead 0 nonce mask ++ sig)).keysMoved_keeps
  exact ⟨hjournal.trans v.useLeaf_keeps.1, hreqs.trans v.useLeaf_keeps.2, sig, by simp [sig, bytesOf], hout⟩

/-- A key that is stored is the pending one, under the vault's wrap (R346). -/
theorem Vault.storeKey_pending {v : Vault} {vk : List Byte} (hvk : v.vk = some vk) (k : Nat) :
    (v.storeKey k).value none .pendingKey = some (attKeyRec vk k 0 (certSig k)) := by
  have hput : v.storeKey k =
      { v.put (madeRec .pendingKey) .pendingKey (attKeyRec vk k 0 (certSig k)) with certifying := none } := by
    simp only [Vault.storeKey, Vault.putKey, hvk]
  rw [hput]
  exact Vault.put_value ..

theorem exec_rolloverKeyReady_certifies {vk : List Byte} (hgen : s.regB .SEC_ATT_STAT_GENERATING 0 = true)
    (hwrites : s.vaultWrites = true) (hvk : s.vault.vk = some vk) (hnone : s.vault.certifying = none)
    (hleft : s.vault.idNext < idLeaves) :
    exec .rolloverKeyReady s = .next (s.modVault Vault.certify).showKeys := by
  simp only [exec, execRolloverKeyReady, hgen, hwrites, hvk, hnone, hleft, Bool.true_eq_false, reduceCtorEq, or_self, if_false,
    if_true]

theorem exec_rolloverKeyReady_stores {vk : List Byte} {k : Nat} (hgen : s.regB .SEC_ATT_STAT_GENERATING 0 = true)
    (hwrites : s.vaultWrites = true) (hvk : s.vault.vk = some vk) (hsome : s.vault.certifying = some k) :
    exec .rolloverKeyReady s =
      .next ((((s.setReg .SEC_ATT_STAT_GENERATING 0 0).modVault (fun v => v.storeKey k)).keysMoved).signer) := by
  simp only [exec, execRolloverKeyReady, hgen, hwrites, hvk, hsome, Bool.true_eq_false, reduceCtorEq, or_self, if_false]

/-! ## Writes of the vault, in two steps (R343, R344) -/

/-- The registers of the commands that write the vault. -/
def vaultCmdFields : List Fld := [.SEC_KEY_WR_SRC, .SEC_KEY_WR_TARGET, .SEC_KEY_WR_REVOKE, .SEC_FW_WR_SRC, .SEC_FW_WR_LEN]

/-- The registers of a key's installation as it is asked for. -/
def State.keyAsked (s : State) (a k : Nat) : State :=
  ((s.setReg .SEC_KEY_WR_SRC 0 a).setReg .SEC_KEY_WR_TARGET 0 k).setReg .SEC_KEY_WR_REVOKE 0 0

/-- The registers of a firmware write as it is asked for. -/
def State.fwAsked (s : State) (a n : Nat) : State := (s.setReg .SEC_FW_WR_SRC 0 a).setReg .SEC_FW_WR_LEN 0 n

theorem State.keyAsked_regsBut (s : State) (a k : Nat) : s.RegsBut vaultCmdFields (s.keyAsked a k) :=
  ((RegsBut.refl.setReg ..).setReg ..).setReg ..

theorem State.fwAsked_regsBut (s : State) (a n : Nat) : s.RegsBut vaultCmdFields (s.fwAsked a n) :=
  (RegsBut.refl.setReg ..).setReg ..

/-- The lease's holder may begin a write while the package is STOPPED and no write is under way (R343). -/
theorem State.vaultGo_of {port : Fin 2} (hlease : s.holdsLease port = true) (hstopped : s.pkgStopped = true)
    (hidle : s.regB .SEC_VAULT_STAT_BUSY 0 = false) : s.vaultGo (.port port) = true := by
  simp only [State.vaultGo, hlease, hstopped, hidle, Bool.not_false, Bool.and_self]

section
variable {t : State} (h : s.RegsBut vaultCmdFields t)
include h

theorem State.vaultGo_asked {src : Src} (hgo : s.vaultGo src = true) : t.vaultGo src = true := by
  cases src with
  | port p =>
    simpa only [State.vaultGo, State.holdsLease, State.pkgStopped, State.regB, h.same .PKG_LEASE_HOLDER 0 (by decide),
      h.same .PKG_STATE_STATE 0 (by decide), h.same .SEC_VAULT_STAT_BUSY 0 (by decide)] using hgo
  | helm d p => exact hgo

theorem State.hbmWaits_asked (hproduct : t.product = s.product) (a n : Nat) : t.hbmWaits a n = s.hbmWaits a n := by
  have hstate (k : Nat) := h.same .HBM_STATE_STATE k (by decide)
  have hgate (k : Nat) := h.same .CLK_GATE_HBM k (by decide)
  have hlock (k : Nat) := h.same .CLK_SRC_STAT_LOCK k (by decide)
  have hstacks : t.stacksOf a n = s.stacksOf a n := by simp only [State.stacksOf, State.stackOf, State.stackE, hproduct]
  have hdies : t.dies = s.dies := by simp only [State.dies, hproduct]
  simp only [State.hbmWaits, State.stackRefuses, State.stackReady, State.stackClocked, hstate, hgate, hlock, hstacks, hdies]

theorem State.keyRefused_asked (hvault : t.vault = s.vault) (k : Nat) : t.keyRefused k = s.keyRefused k := by
  simp only [State.keyRefused, hvault, h.same .SEC_STAT_PUF_FAIL 0 (by decide)]

end

/-- What a key's installation does with the bytes that it reads (R343). -/
def State.keyTaken (r : State × Option (List Byte)) (k : Nat) : State :=
  match r.2 with
  | none => r.1.vaultRefuse 4
  | some b => r.1.vaultBegin (.key k b)

theorem exec_keyInstall_go {port : Fin 2} {addr : BitVec 48} {target : BitVec 4} {t : State}
    (ht : t = s.keyAsked addr.toNat target.toNat) (hgrant : s.access (.port port) .SEC_KEY_WR 0 0 true = .granted)
    (hgo : s.vaultGo (.port port) = true) :
    exec (.keyInstall (.port port) addr target) s = .next (if s.keyRefused target.toNat then t.vaultRefuse 2
      else if s.hbmWaits addr.toNat (keyLen target.toNat) then t.vaultBegin (.fetchKey target.toNat addr.toNat)
      else State.keyTaken (t.hbmTake addr.toNat (keyLen target.toNat)) target.toNat) := by
  subst ht
  have h := s.keyAsked_regsBut addr.toNat target.toNat
  rw [← State.keyRefused_asked h rfl, ← State.hbmWaits_asked h rfl]
  exact congrArg Host.Outcome.next ((State.writeAs_granted hgrant _).trans
    (if_neg (by rw [← State.keyAsked, State.vaultGo_asked h hgo]; decide)))

theorem exec_keyRevoke_go {port : Fin 2} {target : BitVec 4} (hgrant : s.access (.port port) .SEC_KEY_WR 0 0 true = .granted)
    (hgo : s.vaultGo (.port port) = true) (hslot : target.toNat < 8) (hlive : Tbl.get? s.vault.slots target.toNat ≠ some .revoked) :
    exec (.keyRevoke (.port port) target) s =
      .next (((s.setReg .SEC_KEY_WR_TARGET 0 target.toNat).setReg .SEC_KEY_WR_REVOKE 0 1).vaultBegin (.revoke target.toNat)) := by
  have h : s.RegsBut vaultCmdFields ((s.setReg .SEC_KEY_WR_TARGET 0 target.toNat).setReg .SEC_KEY_WR_REVOKE 0 1) :=
    (State.RegsBut.refl.setReg ..).setReg ..
  exact congrArg Host.Outcome.next ((State.writeAs_granted hgrant _).trans
    ((if_neg (by rw [State.vaultGo_asked h hgo]; decide)).trans (if_neg (not_or.mpr ⟨Nat.not_le.mpr hslot, hlive⟩))))

/-- What a firmware write does with the bytes that it reads (R344). -/
def State.imageTaken (r : State × Option (List Byte)) (n : Nat) : State :=
  match r.2 with
  | none => r.1.vaultRefuse 4
  | some img => if r.1.fwFits img n then r.1.vaultBegin (.firmware img) else r.1.vaultRefuse 3

theorem exec_firmwareWrite_go {port : Fin 2} {addr : BitVec 48} {len : BitVec 32}
    (hgrant : s.access (.port port) .SEC_FW_WR 0 0 true = .granted) (hgo : s.vaultGo (.port port) = true)
    (hleast : 3076 ≤ len.toNat) (hmost : len.toNat ≤ 0x400000) (hready : s.hbmWaits addr.toNat len.toNat = false) :
    exec (.firmwareWrite (.port port) addr len) s =
      .next (State.imageTaken ((s.fwAsked addr.toNat len.toNat).hbmTake addr.toNat len.toNat) len.toNat) := by
  have h := s.fwAsked_regsBut addr.toNat len.toNat
  have hready' : (s.fwAsked addr.toNat len.toNat).hbmWaits addr.toNat len.toNat = false :=
    (State.hbmWaits_asked h rfl ..).trans hready
  exact congrArg Host.Outcome.next ((State.writeAs_granted hgrant _).trans
    ((if_neg (by rw [← State.fwAsked, State.vaultGo_asked h hgo]; decide)).trans
      ((if_neg (by omega)).trans (if_neg (by rw [← State.fwAsked, hready']; decide)))))

/-- The end of a write of the vault leaves its key slots. -/
theorem State.vaultEnd_slots (s : State) (n : Nat) : (s.vaultEnd n).vault.slots = s.vault.slots := by
  have hvault : (s.vaultEnd n).vault = { s.vault with job := none } :=
    (State.raise_within (l := [.regs, .helm]) (.refl _ _) 0 0x80 (by decide) (by decide)).vault
  exact Vault.slots_congr (by rw [hvault])

theorem Vault.stored_key {k : Nat} (hk : k < 8) (v : Vault) (dies : Nat) (b : List Byte) :
    (v.stored dies (.key k b)).value none (.slot (fin16 k)) = some (.slot (.key b)) := by
  rw [Vault.stored, if_neg (by omega)]
  exact Vault.put_value ..

end

end Sys2Proof.Machine

open Sys2Proof Sys2Proof.Machine

/-! ## The obligations -/

/-- Settles O53: an answer is what the signer makes of a request that comes alone; a write of the vault goes by the verdict on its
bytes, which the registers of its command do not change. -/
theorem securityComplete : Obligations.SecurityComplete := by
  unfold Obligations.SecurityComplete
  intro port s
  refine ⟨fun hready hreqs => ⟨_, congrArg Host.Outcome.next (State.doeRequest_status hready hreqs), rfl, rfl, rfl⟩,
    fun hready hreqs => ⟨_, congrArg Host.Outcome.next (State.doeRequest_cert hready hreqs), rfl, rfl, rfl⟩,
    fun nonce mask hready hreqs hcause hturn =>
      ⟨_, congrArg Host.Outcome.next (State.doeRequest_quote hready hreqs hcause hturn), ?_⟩,
    fun nonce mask hready hreqs hcause =>
      ⟨_, congrArg Host.Outcome.next (State.doeRequest_quote_refused hready hreqs hcause), rfl, rfl⟩,
    fun q hready => ⟨fun hvendor htype => ?_, fun hother => ?_⟩, fun hspacing => congrArg _ (if_pos hspacing),
    fun vk hgen hwrites hvk => ⟨fun hnone hleft => ⟨_, exec_rolloverKeyReady_certifies hgen hwrites hvk hnone hleft, ?_⟩,
      fun k hsome => ⟨exec_rolloverKeyReady_stores hgen hwrites hvk hsome, Vault.storeKey_pending hvk k⟩⟩,
    ?_,
    fun target hgrant hlease hstopped hidle hslot hlive =>
      exec_keyRevoke_go hgrant (State.vaultGo_of hlease hstopped hidle) hslot hlive,
    fun k b hjob hwrites => ⟨?_, ?_, s.vaultEnd_slots 5, fun hk => s.vault.stored_key hk s.dies b⟩,
    ?_, fun img hjob hwrites => ⟨?_, ?_⟩⟩
  · obtain ⟨hjournal, hreqs', hsig⟩ := s.quote_shows port nonce (mask.toNat % 2048)
    exact ⟨hjournal, hreqs'.trans hreqs, hsig⟩
  · simp only [exec, execDoeUnsupported, hready, hvendor, htype, Bool.not_true, Bool.false_eq_true, and_self, if_false, if_true]
  · simp only [exec, execDoeUnsupported, hready, hother, Bool.not_true, Bool.false_eq_true, if_false]
  · rw [State.showKeys_vault]
    exact ⟨rfl, rfl, rfl⟩
  · intro addr target t hgrant hlease hstopped hidle
    have hexec := exec_keyInstall_go (t := t) (addr := addr) (target := target) rfl hgrant (State.vaultGo_of hlease hstopped hidle)
    refine ⟨fun hok hserved u b htake => ?_, fun hok hwaits => ?_, fun u hok hserved htake => ?_, fun hrefused => ?_⟩
    · simp only [hexec, hok, hserved, htake, Bool.false_eq_true, if_false, State.keyTaken]
    · simp only [hexec, hok, hwaits, Bool.false_eq_true, if_false, if_true]
    · simp only [hexec, hok, hserved, htake, Bool.false_eq_true, if_false, State.keyTaken]
    · simp only [hexec, hrefused, if_true]
  · simp only [exec, execKeyWriteDone, hjob, hwrites, if_true, State.keyStored]
  · simp only [exec, execKeyWriteDone, hjob, hwrites, if_true, State.keyStored, Bool.false_eq_true, if_false]
  · intro addr len t hgrant hlease hstopped hidle hleast hmost hready u img htake
    have htake' : (s.fwAsked addr.toNat len.toNat).hbmTake addr.toNat len.toNat = (u, some img) := htake
    rw [exec_firmwareWrite_go hgrant (State.vaultGo_of hlease hstopped hidle) hleast hmost hready, htake']
    simp only [State.imageTaken, State.fwFits, Bool.and_eq_true, decide_eq_true_eq]
  · simp only [exec, execFirmwareWriteDone, hjob, hwrites, Bool.true_eq_false, if_false, State.imageStored, if_true]
  · simp only [exec, execFirmwareWriteDone, hjob, hwrites, Bool.true_eq_false, if_false, State.imageStored, Bool.false_eq_true]
end

section
/-! SUPPORT and PROOFS for 15_clocks_power.md: bits of the clock registers, loops that coast and lock, selections, the fabric's
sequencer, measurements and gates. -/

-- As in the architect's lemma files: one declaration at a time keeps the compile within check.sh's memory.
set_option Elab.async false

namespace Sys2Proof.Machine

/-! ## Bits of a register -/

theorem natBits_one_beq (v b : Nat) : (natBits v b 1 == 1) = v.testBit b := by
  rw [natBits, Nat.shiftRight_eq_div_pow, Nat.testBit_eq_decide_div_mod_eq]
  rfl

theorem State.bitOf_eq (s : State) (f : Fld) (i b : Nat) : s.bitOf f i b = (s.reg f i).testBit b := natBits_one_beq ..

/-- A bit that is put reads as it is put, and the field's other bits as before. -/
theorem State.bitOf_putBit (s : State) (f : Fld) (i : Nat) {b c : Nat} (v : Bool) (hb : b < f.info.width) :
    (s.putBit f i c v).bitOf f i b = if b = c then v else s.bitOf f i b := by
  rw [State.bitOf_eq, State.bitOf_eq, State.putBit, State.reg_setReg_self, Nat.testBit_mod_two_pow, testBit_natSet]
  simp only [hb, decide_true, Bool.true_and]
  by_cases hbc : b = c
  · subst hbc
    simp only [lt_irrefl, Nat.lt_add_one, Nat.sub_self, if_false, if_true]
    cases v <;> rfl
  · rw [if_neg hbc]
    rcases Nat.lt_or_gt_of_ne hbc with h | h
    · rw [if_pos h]
    · rw [if_neg (by omega), if_neg (by omega)]

theorem State.bitOf_putBit_field (s : State) {f g : Fld} (i j b c : Nat) (v : Bool) (h : g ≠ f) :
    (s.putBit f i c v).bitOf g j b = s.bitOf g j b := by
  rw [State.bitOf_eq, State.bitOf_eq, State.putBit, State.reg_setReg_field _ _ _ _ _ _ h]

/-- The field of two bits that a write sets, and the others. -/
theorem natBits_natSet_two (v x : Nat) (l m : Nat) :
    natBits (natSet v (2 * l) 2 x) (2 * m) 2 = if m = l then x % 2 ^ 2 else natBits v (2 * m) 2 := by
  refine Nat.eq_of_testBit_eq fun i => ?_
  rw [testBit_natBits, testBit_natSet]
  by_cases hi : i < 2
  · by_cases hml : m = l
    · subst hml
      rw [if_pos rfl, if_neg (by omega), if_pos (by omega), Nat.testBit_mod_two_pow, Nat.add_sub_cancel_left]
    · rw [if_neg hml, testBit_natBits]
      rcases Nat.lt_or_gt_of_ne hml with h | h
      · rw [if_pos (by omega)]
      · rw [if_neg (by omega), if_neg (by omega)]
  · have hx : ((if m = l then x % 2 ^ 2 else natBits v (2 * m) 2) : Nat).testBit i = false := by
      split
      · rw [Nat.testBit_mod_two_pow]; simp [hi]
      · rw [testBit_natBits]; simp [hi]
    rw [hx]
    simp [hi]

theorem natBits_mod (v : Nat) {lo n w : Nat} (h : lo + n ≤ w) : natBits (v % 2 ^ w) lo n = natBits v lo n := by
  refine Nat.eq_of_testBit_eq fun i => ?_
  rw [testBit_natBits, testBit_natBits, Nat.testBit_mod_two_pow]
  by_cases hi : i < n
  · simp [hi, show lo + i < w by omega]
  · simp [hi]

/-! ## Folds over the parts of a die -/

/-- What each step of a fold changes is its own part of a view, as a function of that part; so the fold changes each part once. -/
theorem State.foldl_view {β : Type} {act : State → Nat → State} {view : State → Nat → β} {f : Nat → β → β} {n : Nat}
    {Inv : State → Prop} (hkeep : ∀ t l, Inv t → Inv (act t l))
    (hview : ∀ t l m, Inv t → l < n → m < n → view (act t l) m = if m = l then f l (view t l) else view t m) {s : State}
    (hs : Inv s) {m : Nat} (hm : m < n) : view ((List.range n).foldl act s) m = f m (view s m) := by
  have hfold (k : Nat) : k ≤ n → Inv ((List.range k).foldl act s) ∧
      view ((List.range k).foldl act s) m = if m < k then f m (view s m) else view s m := by
    induction k with
    | zero => exact fun _ => ⟨hs, rfl⟩
    | succ k ih =>
      intro hk
      obtain ⟨hinv, hk'⟩ := ih (by omega)
      rw [List.range_succ, List.foldl_append]
      refine ⟨hkeep _ _ hinv, (hview _ k m hinv (by omega) hm).trans ?_⟩
      by_cases hmk : m = k
      · subst hmk
        rw [if_pos rfl, hk', if_neg (lt_irrefl m), if_pos (Nat.lt_succ_self m)]
      · rw [if_neg hmk, hk']
        exact if_congr (by omega) rfl rfl
  rw [(hfold n le_rfl).2, if_pos hm]

theorem State.RegsBut.putBit {l : List Fld} {s t : State} (h : s.RegsBut l t) (f : Fld) (i b : Nat) (v : Bool)
    (hf : f ∈ l := by decide) : s.RegsBut l (t.putBit f i b v) := h.setReg f i _ hf

section
variable {s : State} {d : Nat}

/-! ## Loops (R355, R356) -/

/-- What a loop of a die shows: its reference, whether it is locked, and whether it coasts. -/
def State.loopView (s : State) (d l : Nat) : Nat × Bool × Bool := (s.loopRef d l, s.locked d l, s.coasting d l)

theorem State.RegsBut.loopView {t : State} {l : List Fld} (h : s.RegsBut l t) (d m : Nat)
    (href : Fld.CLK_REF_SEL_REF ∉ l := by decide) (hlock : Fld.CLK_SRC_STAT_LOCK ∉ l := by decide)
    (hcoast : Fld.CLK_SRC_STAT_COAST ∉ l := by decide) : t.loopView d m = s.loopView d m := by
  simp only [State.loopView, State.loopRef, State.locked, State.coasting, State.bitOf, h.same _ _ href, h.same _ _ hlock,
    h.same _ _ hcoast]

theorem State.RegsBut.clkReady {t : State} {l : List Fld} (h : s.RegsBut l t) (d c : Nat)
    (hrdy : Fld.CLK_SRC_STAT_RDY ∉ l := by decide) : t.clkReady d c = s.clkReady d c := by
  simp only [State.clkReady, State.bitOf, h.same _ _ hrdy]

/-- The registers that show a loop's state. -/
def loopFields : List Fld := [.CLK_FAIL_LOOP, .CLK_SRC_STAT_COAST, .CLK_SRC_STAT_LOCK]

theorem State.coast_regsBut (s : State) (d l : Nat) : s.RegsBut loopFields (s.coast d l) :=
  ((RegsBut.refl.putBit ..).putBit ..).putBit ..

/-- A loop that coasts is no longer locked, and no other loop changes. -/
theorem State.coast_view (s : State) (d : Nat) {l m : Nat} (hm : m < 6) :
    (s.coast d l).loopView d m = if m = l then (s.loopRef d m, false, true) else s.loopView d m := by
  have href : (s.coast d l).loopRef d m = s.loopRef d m := by
    rw [State.loopRef, (s.coast_regsBut d l).same _ _ (by decide), ← State.loopRef]
  have hlock : (s.coast d l).locked d m = if m = l then false else s.locked d m := by
    rw [State.locked, State.coast, State.bitOf_putBit _ _ _ _ hm, State.bitOf_putBit_field _ _ _ _ _ _ (by decide),
      State.bitOf_putBit_field _ _ _ _ _ _ (by decide), ← State.locked]
  have hcoast : (s.coast d l).coasting d m = if m = l then true else s.coasting d m := by
    rw [State.coasting, State.coast, State.bitOf_putBit_field _ _ _ _ _ _ (by decide), State.bitOf_putBit _ _ _ _ hm,
      State.bitOf_putBit_field _ _ _ _ _ _ (by decide), ← State.coasting]
  rw [State.loopView, href, hlock, hcoast]
  split <;> rfl

/-- What becomes of a loop as a clock source fails: it coasts if that was its reference. -/
def loopFailed (clk : Nat) (v : Nat × Bool × Bool) : Nat × Bool × Bool := if v.1 = clk then (v.1, false, true) else v

theorem loopFailed_shows (clk : Nat) (v : Nat × Bool × Bool) :
    (loopFailed clk v).2.1 = (v.2.1 && decide (v.1 ≠ clk)) ∧ (loopFailed clk v).2.2 = (v.2.2 || decide (v.1 = clk)) := by
  by_cases h : v.1 = clk
  · rw [loopFailed, if_pos h, decide_eq_true h, decide_eq_false (not_not.mpr h), Bool.and_false, Bool.or_true]
    exact ⟨rfl, rfl⟩
  · rw [loopFailed, if_neg h, decide_eq_false h, decide_eq_true h, Bool.and_true, Bool.or_false]
    exact ⟨rfl, rfl⟩

/-- A source that has failed is not ready, before its loops coast. -/
def State.sourceLost (s : State) (d clk : Nat) : State :=
  ((s.putBit .CLK_SRC_STAT_RDY d clk false).putBit .CLK_FAIL_SRC d clk true).bump .CLK_FAIL_FAILS d

/-- The loops of a failed source coast. -/
def State.loopsCoast (s : State) (d clk : Nat) : State :=
  (List.range 6).foldl (fun s l => if s.loopRef d l = clk then s.coast d l else s) s

theorem State.loopsCoast_regsBut (s : State) (d clk : Nat) : s.RegsBut loopFields (s.loopsCoast d clk) :=
  .foldl (fun s l => .ite (s.coast_regsBut d l) .refl) _

theorem State.loopsCoast_view (s : State) (d clk : Nat) {m : Nat} (hm : m < 6) :
    (s.loopsCoast d clk).loopView d m = loopFailed clk (s.loopView d m) := by
  refine State.foldl_view (view := fun s m => s.loopView d m) (f := fun _ => loopFailed clk) (Inv := fun _ => True)
    (fun _ _ _ => trivial) (fun t l m _ _ hm => ?_) trivial hm
  by_cases hclk : t.loopRef d l = clk
  · rw [if_pos hclk, t.coast_view d hm]
    split
    · next h => rw [h, loopFailed, if_pos (show (t.loopView d l).1 = clk from hclk)]; rfl
    · rfl
  · rw [if_neg hclk]
    split
    · next h => rw [h, loopFailed, if_neg (show ¬ (t.loopView d l).1 = clk from hclk)]
    · rfl

theorem exec_clockSourceFail {die : Fin 8} (hdie : die.val < s.dies) (clk : Fin 4) :
    exec (.clockSourceFail die clk) s = .next (((s.sourceLost die clk).loopsCoast die clk).raise die 0x20) := by
  simp only [exec, execClockSourceFail, Nat.not_le.mpr hdie, if_false]
  rfl

theorem State.sourceLost_view (s : State) (d clk m : Nat) : (s.sourceLost d clk).loopView d m = s.loopView d m := by
  have h : s.RegsBut [.CLK_SRC_STAT_RDY, .CLK_FAIL_SRC, .CLK_FAIL_FAILS] (s.sourceLost d clk) :=
    ((RegsBut.refl.putBit ..).putBit ..).bump ..
  exact h.loopView d m

/-- The loops of a die after a source of it has failed. -/
theorem State.clockSourceFail_view (s : State) (d clk : Nat) {m : Nat} (hm : m < 6) :
    (((s.sourceLost d clk).loopsCoast d clk).raise d 0x20).loopView d m = loopFailed clk (s.loopView d m) := by
  rw [(State.raise_regsBut ..).loopView d m, State.loopsCoast_view _ _ _ hm, State.sourceLost_view]

theorem State.clockSourceFail_ready (s : State) (d : Nat) (clk : Fin 4) :
    (((s.sourceLost d clk).loopsCoast d clk).raise d 0x20).clkReady d clk = false := by
  rw [(State.raise_regsBut ..).clkReady d clk, (State.loopsCoast_regsBut ..).clkReady d clk, State.clkReady, State.sourceLost,
    State.bump, State.bumpN, State.bitOf, State.reg_setReg_field _ _ _ _ _ _ (by decide), ← State.bitOf,
    State.bitOf_putBit_field _ _ _ _ _ _ (by decide), State.bitOf_putBit _ _ _ _ clk.isLt, if_pos rfl]

/-- A loop locks to a reference that is ready (R355). -/
def State.loopLocked (s : State) (d l : Nat) : State := (s.putBit .CLK_SRC_STAT_LOCK d l true).putBit .CLK_SRC_STAT_COAST d l false

theorem State.loopLocked_shows (s : State) (d : Nat) {l : Nat} (hl : l < 6) :
    (s.loopLocked d l).locked d l = true ∧ (s.loopLocked d l).coasting d l = false := by
  constructor
  · rw [State.locked, State.loopLocked, State.bitOf_putBit_field _ _ _ _ _ _ (by decide), State.bitOf_putBit _ _ _ _ hl, if_pos rfl]
  · rw [State.coasting, State.loopLocked, State.bitOf_putBit _ _ _ _ hl, if_pos rfl]

theorem State.loopLocked_regsBut (s : State) (d l : Nat) : s.RegsBut loopFields (s.loopLocked d l) :=
  (RegsBut.refl.putBit ..).putBit ..

theorem exec_loopLock {die : Fin 8} {loop : Fin 6} (hready : s.clkReady die (s.loopRef die loop) = true)
    (href : s.loopRef die loop ≠ 3) : exec (.loopLock die loop) s =
      .next (if s.coasting die loop = true ∧ loop.val = 1 then
        ((s.loopLocked die loop).relocked (2 * die)).relocked (2 * die + 1) else s.loopLocked die loop) := by
  simp only [exec, execLoopLock, hready, href, Bool.true_eq_false, or_self, if_false]
  rfl

theorem State.relocked_regsBut (s : State) (h : Nat) : s.RegsBut stackFields (s.relocked h) :=
  .ite (s.hbmState_regsBut h 4) (.ite (RegsBut.refl.modStk ..) .refl)

/-- A ready stack whose clock locks again trains anew (R356); no other stack changes its state. -/
theorem State.relocked_self {h : Nat} (hready : s.reg .HBM_STATE_STATE h = 2) : (s.relocked h).reg .HBM_STATE_STATE h = 4 := by
  rw [State.relocked, if_pos hready]
  exact s.hbmState_shows h (by decide)

theorem State.relocked_other {h j : Nat} (hj : j ≠ h) : (s.relocked h).reg .HBM_STATE_STATE j = s.reg .HBM_STATE_STATE j := by
  unfold State.relocked
  split
  · unfold State.hbmState
    split
    · rfl
    · rw [(State.raise_regsBut ..).same _ _ (by decide), State.reg_setReg_other _ _ _ _ _ _ (by simpa using hj)]
  · split <;> rfl

theorem State.relocked_both {h : Nat} (hh : h / 2 = d) (hready : s.reg .HBM_STATE_STATE h = 2) :
    ((s.relocked (2 * d)).relocked (2 * d + 1)).reg .HBM_STATE_STATE h = 4 := by
  obtain rfl | rfl : h = 2 * d ∨ h = 2 * d + 1 := by omega
  · rw [State.relocked_other (by omega), State.relocked_self hready]
  · exact State.relocked_self ((State.relocked_other (by omega)).trans hready)

/-! ## Selections of references and sources (R354, R357) -/

/-- The registers that a change of a loop's reference may change, but for the references. -/
def refSelFields : List Fld := [.CLK_FAIL_REFUSED, .CLK_REF_SEL_REF, .CLK_SRC_STAT_LOCK]

theorem State.refSel_regsBut (s : State) (d v l : Nat) : s.RegsBut refSelFields (s.refSel d v l) :=
  .ite .refl (.ite (RegsBut.refl.bump ..) ((RegsBut.refl.setReg ..).putBit ..))

/-- A field of CLK_REF_SEL takes effect only to a ready reference, and changes no other loop's. -/
theorem State.refSel_ref (s : State) (d v : Nat) {m : Nat} (l : Nat) (hm : m < 6) : (s.refSel d v l).loopRef d m =
    if m = l then (if natBits v (2 * l) 2 = 3 ∨ s.clkReady d (natBits v (2 * l) 2) = false then s.loopRef d l
      else natBits v (2 * l) 2) else s.loopRef d m := by
  by_cases hsame : natBits v (2 * l) 2 = s.loopRef d l
  · rw [State.refSel, if_pos hsame, hsame, ite_self]
    split
    · next h => rw [h]
    · rfl
  by_cases hrefuse : natBits v (2 * l) 2 = 3 ∨ s.clkReady d (natBits v (2 * l) 2) = false
  · have href : (s.clkRefused d).loopRef d m = s.loopRef d m := by
      rw [State.loopRef, State.clkRefused, State.reg_bump_field _ _ _ _ _ (by decide), ← State.loopRef]
    rw [State.refSel, if_neg hsame, if_pos hrefuse, if_pos hrefuse, href]
    split
    · next h => rw [h]
    · rfl
  · have href : (s.refSel d v l).reg .CLK_REF_SEL_REF d =
        natSet (s.reg .CLK_REF_SEL_REF d) (2 * l) 2 (natBits v (2 * l) 2) % 2 ^ 12 := by
      rw [State.refSel, if_neg hsame, if_neg hrefuse, State.putBit, State.reg_setReg_field _ _ _ _ _ _ (by decide)]
      exact State.reg_setReg_self ..
    rw [if_neg hrefuse, State.loopRef, href, natBits_mod _ (by omega), natBits_natSet_two, Nat.mod_eq_of_lt (natBits_lt ..)]
    rfl

theorem exec_clkRefSelWrite {src : Src} {die : Fin 8} {v : BitVec 32} (hgrant : s.access src .CLK_REF_SEL die 0 true = .granted) :
    exec (.clkRefSelWrite src die v) s = .next ((((List.range 6).foldl (fun s l => s.refSel die v.toNat l) s).xinMhz
      .CLK_REF_SEL_XIN_A_MHZ die (natBits v.toNat 12 7)).xinMhz .CLK_REF_SEL_XIN_B_MHZ die (natBits v.toNat 19 7)) :=
  congrArg Host.Outcome.next (State.writeAs_granted hgrant _)

/-- The references after a write of CLK_REF_SEL: the sources' readiness is as before the write throughout. -/
theorem State.foldl_refSel_ref (s : State) (d v : Nat) {m : Nat} (hm : m < 6) :
    ((List.range 6).foldl (fun s l => s.refSel d v l) s).loopRef d m =
      if natBits v (2 * m) 2 = 3 ∨ s.clkReady d (natBits v (2 * m) 2) = false then s.loopRef d m else natBits v (2 * m) 2 := by
  refine State.foldl_view (view := fun t m => t.loopRef d m) (Inv := fun t => ∀ c, t.clkReady d c = s.clkReady d c)
    (f := fun l r => if natBits v (2 * l) 2 = 3 ∨ s.clkReady d (natBits v (2 * l) 2) = false then r else natBits v (2 * l) 2)
    (fun t l ht c => ((t.refSel_regsBut d v l).clkReady d c).trans (ht c)) (fun t l m ht _ hm => ?_) (fun _ => rfl) hm
  rw [t.refSel_ref d v l hm, ht]

theorem State.xinMhz_loopRef (s : State) {f : Fld} (v m : Nat) (hf : Fld.CLK_REF_SEL_REF ≠ f) :
    (s.xinMhz f d v).loopRef d m = s.loopRef d m := by
  unfold State.xinMhz
  split
  · rw [State.loopRef, State.reg_setReg_field _ _ _ _ _ _ hf, ← State.loopRef]
  · rfl

/-- What a domain's source is: its selection and its divisor. -/
def State.srcView (s : State) (d k : Nat) : Nat × Nat := (s.reg .CLK_SRC_SEL_SEL (d * 5 + k), s.reg .CLK_SRC_SEL_DIVM1 (d * 5 + k))

/-- The registers that a write of CLK_SRC_SEL may change. -/
def srcSelFields : List Fld := [.CLK_FAIL_REFUSED, .CLK_SRC_SEL_SEL, .CLK_SRC_SEL_DIVM1]

theorem State.srcSel_regsBut (s : State) (d v k : Nat) : s.RegsBut srcSelFields (s.srcSel d v k) :=
  .ite (RegsBut.refl.bump ..) ((RegsBut.refl.setReg ..).setReg ..)

/-- What a write of CLK_SRC_SEL makes of a domain's source where the source that it asks for is ready, or is not (R357). -/
def srcSelected (sel divm1 : Nat) (ready : Bool) (v : Nat × Nat) : Nat × Nat :=
  if (decide (sel ≠ v.1) || (decide (sel = 1) && decide (divm1 ≠ v.2))) = true ∧ ready = false then v else (sel, divm1)

theorem State.srcSel_view (s : State) (d v k m : Nat) : (s.srcSel d v k).srcView d m =
    if m = k then srcSelected (natBits v (8 * k) 2) (natBits v (8 * k + 2) 6)
      (s.srcReady d k (natBits v (8 * k) 2) (natBits v (8 * k + 2) 6)) (s.srcView d k) else s.srcView d m := by
  unfold State.srcSel
  extract_lets i sel divm1 changes
  have hsel : sel % 2 ^ Fld.CLK_SRC_SEL_SEL.info.width = sel := Nat.mod_eq_of_lt (natBits_lt ..)
  have hdiv : divm1 % 2 ^ Fld.CLK_SRC_SEL_DIVM1.info.width = divm1 := Nat.mod_eq_of_lt (natBits_lt ..)
  change _ = if m = k then srcSelected sel divm1 (s.srcReady d k sel divm1) (s.srcView d k) else s.srcView d m
  by_cases hrefuse : changes = true ∧ s.srcReady d k sel divm1 = false
  · have hsame : (s.clkRefused d).srcView d m = s.srcView d m := by
      rw [State.srcView, State.clkRefused, State.reg_bump_field _ _ _ _ _ (by decide), State.reg_bump_field _ _ _ _ _ (by decide),
        ← State.srcView]
    have hkept : srcSelected sel divm1 (s.srcReady d k sel divm1) (s.srcView d k) = s.srcView d k := if_pos hrefuse
    rw [if_pos hrefuse, hsame, hkept]
    split
    · next h => rw [h]
    · rfl
  · have htaken : srcSelected sel divm1 (s.srcReady d k sel divm1) (s.srcView d k) = (sel, divm1) := if_neg hrefuse
    rw [if_neg hrefuse, htaken]
    have hview : ((s.setReg .CLK_SRC_SEL_SEL i sel).setReg .CLK_SRC_SEL_DIVM1 i divm1).srcView d m =
        (if d * 5 + m = i then sel else s.reg .CLK_SRC_SEL_SEL (d * 5 + m), if d * 5 + m = i then divm1
          else s.reg .CLK_SRC_SEL_DIVM1 (d * 5 + m)) := by
      simp only [State.srcView, State.reg_setReg, Prod.mk.injEq, reduceCtorEq, false_and, true_and, if_false, hsel, hdiv]
    rw [hview]
    by_cases hmk : m = k
    · subst hmk
      rw [if_pos rfl, if_pos rfl, if_pos rfl]
    · have hi : d * 5 + m ≠ i := by simp only [i]; omega
      rw [if_neg hmk, if_neg hi, if_neg hi]
      rfl

theorem State.RegsBut.srcReady {t : State} (h : s.RegsBut srcSelFields t) (d k sel divm1 : Nat) :
    t.srcReady d k sel divm1 = s.srcReady d k sel divm1 := by
  have hlock (l : Nat) : t.locked d l = s.locked d l := by
    simp only [State.locked, State.bitOf, h.same .CLK_SRC_STAT_LOCK d (by decide)]
  have hrdy (c : Nat) : t.clkReady d c = s.clkReady d c := h.clkReady d c
  unfold State.srcReady
  split <;> simp only [hlock, hrdy]

/-- The sources after a write of CLK_SRC_SEL: what is ready is as before the write throughout. -/
theorem State.foldl_srcSel_view (s : State) (d v : Nat) {k : Nat} (hk : k < 5) :
    ((List.range 5).foldl (fun s k => s.srcSel d v k) s).srcView d k = srcSelected (natBits v (8 * k) 2) (natBits v (8 * k + 2) 6)
      (s.srcReady d k (natBits v (8 * k) 2) (natBits v (8 * k + 2) 6)) (s.srcView d k) := by
  refine State.foldl_view (view := fun t k => t.srcView d k)
    (Inv := fun t => ∀ k sel divm1, t.srcReady d k sel divm1 = s.srcReady d k sel divm1)
    (f := fun k => srcSelected (natBits v (8 * k) 2) (natBits v (8 * k + 2) 6)
      (s.srcReady d k (natBits v (8 * k) 2) (natBits v (8 * k + 2) 6)))
    (fun t k ht j sel divm1 => ((t.srcSel_regsBut d v k).srcReady d j sel divm1).trans (ht j sel divm1))
    (fun t k m ht _ _ => ?_) (fun _ _ _ => rfl) hk
  rw [t.srcSel_view, ht]

theorem srcSelected_ready (sel divm1 : Nat) (v : Nat × Nat) : srcSelected sel divm1 true v = (sel, divm1) :=
  if_neg fun h => absurd h.2 (by decide)

/-! ## The fabric's sequencer (R358 to R360) -/

/-- The targets that a write asks for. -/
def fabAsked (v : Nat) : List Nat := (List.range 4).map (fun k => natBits v (8 * k) 8)

/-- A write whose targets are all in range. -/
def FabSound (v : Nat) : Prop := ∀ k, k < 4 → 10 ≤ natBits v (8 * k) 8 ∧ natBits v (8 * k) 8 ≤ 80

theorem FabSound.ok {v : Nat} (h : FabSound v) {k : Nat} (hk : k < 4) : fabTargetOk (natBits v (8 * k) 8) = true := by
  obtain ⟨hlo, hhi⟩ := h k hk
  simp [fabTargetOk, hlo, hhi]

theorem FabSound.all {v : Nat} (h : FabSound v) : ((List.range 4).all fun k => fabTargetOk (natBits v (8 * k) 8)) = true :=
  List.all_eq_true.mpr fun _ hk => h.ok (List.mem_range.mp hk)

/-- The target registers as they are written. -/
def State.fabPut (s : State) (d v : Nat) : State :=
  (List.range 4).foldl (fun s k =>
    if fabTargetOk (natBits v (8 * k) 8) then s.setReg .CLK_FAB_FREQ_F (d * 4 + k) (natBits v (8 * k) 8) else s) s

theorem State.fabPut_within (s : State) (d v : Nat) : s.Within [.regs] (s.fabPut d v) :=
  State.within_foldl _ _ (.refl _ _) fun _ _ h => State.within_ite (State.setReg_within h _ _ _ (by decide)) h

theorem State.fabPut_targets (s : State) (d : Nat) {v : Nat} (h : FabSound v) : (s.fabPut d v).fabTargets d = fabAsked v := by
  have hget {k : Nat} (hk : k < 4) : (s.fabPut d v).reg .CLK_FAB_FREQ_F (d * 4 + k) = natBits v (8 * k) 8 := by
    refine State.foldl_view (view := fun t k => t.reg .CLK_FAB_FREQ_F (d * 4 + k)) (Inv := fun _ => True)
      (f := fun k _ => natBits v (8 * k) 8) (fun _ _ _ => trivial) (fun t l m _ hl _ => ?_) trivial hk
    rw [if_pos (h.ok hl)]
    by_cases hml : m = l
    · subst hml
      rw [if_pos rfl, State.reg_setReg_self]
      exact Nat.mod_eq_of_lt (natBits_lt ..)
    · rw [if_neg hml, State.reg_setReg_other]
      simpa using hml
  exact List.map_congr_left fun k hk => hget (List.mem_range.mp hk)

/-- A fold that puts bits of LOCK changes that register alone. -/
theorem State.foldl_lock_regsBut {p : State → Nat → Prop} [∀ s k, Decidable (p s k)] (s : State) (d : Nat) (on : Bool)
    (l : List Nat) :
    s.RegsBut [.CLK_SRC_STAT_LOCK] (l.foldl (fun s k => if p s k then s else s.putBit .CLK_SRC_STAT_LOCK d (2 + k) on) s) :=
  .foldl (fun _ _ => .ite .refl (RegsBut.refl.putBit ..)) l

theorem State.foldl_lock_within {p : State → Nat → Prop} [∀ s k, Decidable (p s k)] (s : State) (d : Nat) (on : Bool)
    (l : List Nat) :
    s.Within [.regs] (l.foldl (fun s k => if p s k then s else s.putBit .CLK_SRC_STAT_LOCK d (2 + k) on) s) :=
  State.within_foldl _ _ (.refl _ _) fun _ _ h => State.within_ite h (State.putBit_within h _ _ _ _ (by decide))

theorem State.fabStart_shows (s : State) (d : Nat) (new : List Nat) :
    Tbl.get? (s.fabStart d new).power.fabBusy d = some new ∧ (s.fabStart d new).fabTargets d = s.fabTargets d := by
  unfold State.fabStart
  extract_lets u v w
  have hw := w.foldl_lock_within (p := fun s k => (s.fabNow d)[k]? = new[k]?) d false (List.range 4)
  have hr := w.foldl_lock_regsBut (p := fun s k => (s.fabNow d)[k]? = new[k]?) d false (List.range 4)
  refine ⟨?_, ?_⟩
  · rw [hw.power]
    exact Tbl.get?_set_self ..
  · simp only [State.fabTargets, hr.same .CLK_FAB_FREQ_F _ (by decide)]
    rfl

section
variable {src : Src} {die : Fin 8} {v : BitVec 32}

theorem exec_clkFabFreqWrite (hgrant : s.access src .CLK_FAB_FREQ die 0 true = .granted) (hv : FabSound v.toNat) :
    exec (.clkFabFreqWrite src die v) s = .next (if (Tbl.get? s.power.fabBusy die.val).isSome then
      { s with power := { s.power with fabNext := Tbl.set s.power.fabNext die.val (s.fabWaiting die ++ [v.toNat]) } }
      else s.fabWrite die v.toNat) := by
  rw [exec, execClkFabFreqWrite, State.writeAs_granted hgrant]
  simp only [hv.all, if_true]

theorem State.fabWrite_starts (s : State) (d : Nat) {v : Nat} (hv : FabSound v) (hnew : fabAsked v ≠ s.fabNow d) :
    s.fabWrite d v = (s.fabPut d v).fabStart d (fabAsked v) := by
  have hnow : (s.fabPut d v).fabNow d = s.fabNow d := by rw [State.fabNow, (s.fabPut_within d v).power, ← State.fabNow]
  have hkeep : ¬ (s.fabPut d v).fabTargets d = (s.fabPut d v).fabNow d := by rw [s.fabPut_targets d hv, hnow]; exact hnew
  rw [← s.fabPut_targets d hv]
  exact if_neg hkeep

theorem exec_clkFabFreqWrite_starts (hgrant : s.access src .CLK_FAB_FREQ die 0 true = .granted) (hv : FabSound v.toNat)
    (hidle : Tbl.get? s.power.fabBusy die.val = none) (hnew : fabAsked v.toNat ≠ s.fabNow die) :
    exec (.clkFabFreqWrite src die v) s = .next ((s.fabPut die v.toNat).fabStart die (fabAsked v.toNat)) := by
  rw [exec_clkFabFreqWrite hgrant hv, hidle, s.fabWrite_starts die hv hnew]
  rfl

/-- The targets reached, and the loops whose target changed locked again, unless they coast (R360). -/
def State.fabReached (s : State) (d : Nat) (new : List Nat) : State :=
  (List.range 4).foldl (fun t k => if (s.fabNow d)[k]? = new[k]? ∨ t.coasting d (2 + k) then t
    else t.putBit .CLK_SRC_STAT_LOCK d (2 + k) true) ({ s with power := { s.power with
      fabNow := Tbl.set s.power.fabNow d new, fabBusy := Tbl.erase s.power.fabBusy d } } : State)

theorem State.fabReached_power (s : State) (d : Nat) (new : List Nat) : (s.fabReached d new).power = { s.power with
    fabNow := Tbl.set s.power.fabNow d new, fabBusy := Tbl.erase s.power.fabBusy d } :=
  (State.foldl_lock_within (p := fun t k => (s.fabNow d)[k]? = new[k]? ∨ t.coasting d (2 + k) = true) _ d true (List.range 4)).power

/-- With no write waiting the sequencer stands, at the rail of its targets. -/
theorem State.fabTurn_nil_shows (s : State) (d mv : Nat) :
    ((s.putRail d mv).fabTurn d []).power.fabNow = s.power.fabNow ∧
    ((s.putRail d mv).fabTurn d []).power.fabBusy = s.power.fabBusy ∧
    ((s.putRail d mv).fabTurn d []).railMv d = mv := ⟨rfl, rfl, Tbl.getD_set_self ..⟩

theorem exec_fabFreqSeqDone {new : List Nat} (hbusy : Tbl.get? s.power.fabBusy die.val = some new)
    (hnext : Tbl.get? s.power.fabNext die.val = none) :
    exec (.fabFreqSeqDone die) s = .next (((s.fabReached die new).putRail die (fabRail new)).fabTurn die []) := by
  have hwait : ((s.fabReached die new).putRail die (fabRail new)).fabWaiting die = [] := by
    change Tbl.getD (s.fabReached die new).power.fabNext die.val [] = []
    rw [State.fabReached_power]
    change (Tbl.get? s.power.fabNext die.val).getD [] = []
    rw [hnext]
    rfl
  rw [← hwait]
  simp only [exec, execFabFreqSeqDone, hbusy]
  rfl

/-! ## Measurements, the clock output and gates (R370 to R373) -/

/-- The registers of a measurement as it is asked for. -/
def State.measAsked (s : State) (d v : Nat) : State :=
  ((s.setReg .CLK_MEAS_CTL_REF d (natBits v 0 4)).setReg .CLK_MEAS_CTL_MEAS d (natBits v 4 4)).setReg
    .CLK_MEAS_CTL_WINDOWM1 d (natBits v 16 16)

theorem State.measAsked_gateOn (s : State) (d v : Nat) : (s.measAsked d v).gateOn d 7 = s.gateOn d 7 := by
  have h : s.RegsBut [.CLK_MEAS_CTL_REF, .CLK_MEAS_CTL_MEAS, .CLK_MEAS_CTL_WINDOWM1] (s.measAsked d v) :=
    ((RegsBut.refl.setReg ..).setReg ..).setReg ..
  exact congrArg (· == 1) (h.same .CLK_GATE_MEAS d (by decide))

theorem exec_clkMeasGo (hgrant : s.access src .CLK_MEAS_CTL die 0 true = .granted) (hgo : natBits v.toNat 8 1 = 1)
    (hgate : s.gateOn die 7 = true) (hidle : die.val ∉ s.power.measuring) (href : natBits v.toNat 0 4 ≠ 15)
    (hmeas : natBits v.toNat 4 4 ≠ 15) : exec (.clkMeasGo src die v) s =
      .next ((((({ s.measAsked die v.toNat with
        power := { s.power with measuring := die.val :: s.power.measuring } } : State).setReg .CLK_MEAS_RES_COUNT die 0).setReg
        .CLK_MEAS_RES_DONE die 0).setReg .CLK_MEAS_RES_OVF die 0)) := by
  have hgate' : (s.measAsked die v.toNat).gateOn die 7 = true := (s.measAsked_gateOn die v.toNat).trans hgate
  rw [exec, execClkMeasGo, State.writeAs_granted hgrant]
  refine congrArg Host.Outcome.next ((if_neg (by rw [hgo]; decide)).trans (if_neg ?_))
  rw [← State.measAsked, hgate']
  simp only [Bool.true_eq_false, href, hmeas, or_false, false_or, List.contains_iff_mem]
  exact hidle

theorem exec_clkMeasDone (hmem : die.val ∈ s.power.measuring) (edges : Nat) : exec (.clkMeasDone die edges) s =
    .next ((((({ s with power := { s.power with measuring := s.power.measuring.filter (· != die.val) } } : State).setReg
      .CLK_MEAS_RES_COUNT die (min edges (2 ^ 32 - 1))).setReg .CLK_MEAS_RES_DONE die 1).setReg .CLK_MEAS_RES_OVF die
        (if 2 ^ 32 ≤ edges then 1 else 0))) := by
  simp only [exec, execClkMeasDone, List.contains_iff_mem.mpr hmem, Bool.true_eq_false, if_false]

/-- The registers of the clock output as they are written. -/
def State.clkOutAsked (s : State) (v : Nat) : State :=
  ((s.setReg .CLK_OUT_CTL_SEL 0 (natBits v 0 4)).setReg .CLK_OUT_CTL_DIVM1 0 (natBits v 4 12)).setReg .CLK_OUT_CTL_EN 0
    (natBits v 16 1)

theorem State.clkOutAsked_shows (s : State) (v : Nat) : (s.clkOutAsked v).reg .CLK_OUT_CTL_SEL 0 = natBits v 0 4 ∧
    (s.clkOutAsked v).reg .CLK_OUT_CTL_DIVM1 0 = natBits v 4 12 ∧ (s.clkOutAsked v).reg .CLK_OUT_CTL_EN 0 = natBits v 16 1 := by
  have hsel : natBits v 0 4 % 2 ^ Fld.CLK_OUT_CTL_SEL.info.width = natBits v 0 4 := Nat.mod_eq_of_lt (natBits_lt ..)
  have hdiv : natBits v 4 12 % 2 ^ Fld.CLK_OUT_CTL_DIVM1.info.width = natBits v 4 12 := Nat.mod_eq_of_lt (natBits_lt ..)
  have hen : natBits v 16 1 % 2 ^ Fld.CLK_OUT_CTL_EN.info.width = natBits v 16 1 := Nat.mod_eq_of_lt (natBits_lt ..)
  simp only [State.clkOutAsked, State.reg_setReg, Prod.mk.injEq, reduceCtorEq, false_and, if_false, if_true, and_self, hsel, hdiv,
    hen]

/-- The clock output as it is written, with its error cleared where the write asks for that. -/
def State.clkOutPut (s : State) (v : Nat) : State :=
  if natBits v 17 1 = 1 then (s.clkOutAsked v).setReg .CLK_OUT_CTL_ERR 0 0 else s.clkOutAsked v

theorem State.clkOutPut_shows (s : State) (v : Nat) : (s.clkOutPut v).reg .CLK_OUT_CTL_SEL 0 = natBits v 0 4 ∧
    (s.clkOutPut v).reg .CLK_OUT_CTL_DIVM1 0 = natBits v 4 12 ∧ (s.clkOutPut v).reg .CLK_OUT_CTL_EN 0 = natBits v 16 1 := by
  have hregs : (s.clkOutAsked v).RegsBut [.CLK_OUT_CTL_ERR] (s.clkOutPut v) := .ite (RegsBut.refl.setReg ..) .refl
  rw [hregs.same _ _ (by decide), hregs.same _ _ (by decide), hregs.same _ _ (by decide)]
  exact s.clkOutAsked_shows v

theorem exec_clkOutCtlWrite (hgrant : s.access src .CLK_SRC_STAT die 0 true = .granted) (hout : s.hasClkOut die = true)
    (hcode : natBits v.toNat 0 4 ≠ 15)
    (hslow : (s.nominalMhz 0 (natBits v.toNat 0 4)).1 ≤
      200 * (natBits v.toNat 4 12 + 1) * (s.nominalMhz 0 (natBits v.toNat 0 4)).2) :
    exec (.clkOutCtlWrite src die v) s = .next (s.clkOutPut v.toNat) := by
  rw [exec, execClkOutCtlWrite, State.writeAs_granted hgrant]
  exact congrArg Host.Outcome.next ((if_neg (by rw [hout]; decide)).trans
    (if_neg (not_or.mpr ⟨hcode, Nat.not_lt.mpr hslow⟩)))

/-- The registers that what a closed gate does may change: those of a stack's self-refresh and of a port that goes idle. -/
def gateFields : List Fld := [.SAL_PORT_PEER_VALID, .SAL_PORT_STAT_STATE, .SAL_PORT_ERR_LOST] ++ atomFields ++ brakeFields

theorem State.salIdle_regsBut (s : State) (d p : Nat) : s.RegsBut gateFields (s.salIdle d p) := by
  have hunseen (t : State) : t.RegsBut gateFields (t.salUnseen d p) := .ite (RegsBut.refl.setReg ..) .refl
  have henter (t : State) (v : Nat) : t.RegsBut gateFields (t.salEnter d p v) :=
    .ite .refl ((RegsBut.refl.setReg ..).andThen (State.raise_regsBut ..))
  have hdrop (t : State) : t.RegsBut gateFields (t.dropTraffic d p) := by
    unfold State.dropTraffic
    extract_lets q u w
    have hu : t.RegsBut gateFields u := .of_regs rfl
    have hw : t.RegsBut gateFields w := hu.bumpN ..
    exact hw.trans (.foldl (fun _ _ => (State.refuse_regsBut ..).mono (by decide)) _)
  exact .ite .refl (((hunseen _).trans (henter _ _)).trans (hdrop _))

theorem State.gated_regsBut (s : State) (d b : Nat) : s.RegsBut gateFields (s.gated d b) :=
  .ite .refl (.ite (.ite .refl ((s.selfRefresh_regsBut _).mono (by decide)))
    (.ite ((s.salIdle_regsBut _ _).of_regs_eq rfl) .refl))

/-- The gates as they are written. -/
def State.gatesPut (s : State) (d v : Nat) : State :=
  ((((s.setReg .CLK_GATE_HBM d (v % 4)).setReg .CLK_GATE_SALLAN d (natBits v 2 4)).setReg .CLK_GATE_FAB d (natBits v 6 1)).setReg
    .CLK_GATE_MEAS d (natBits v 7 1)).setReg .CLK_GATE_CLKOUT d (natBits v 8 1)

theorem State.gatesPut_shows (s : State) (d v : Nat) : (s.gatesPut d v).reg .CLK_GATE_HBM d = v % 4 ∧
    (s.gatesPut d v).reg .CLK_GATE_SALLAN d = natBits v 2 4 ∧ (s.gatesPut d v).reg .CLK_GATE_FAB d = natBits v 6 1 ∧
    (s.gatesPut d v).reg .CLK_GATE_MEAS d = natBits v 7 1 ∧ (s.gatesPut d v).reg .CLK_GATE_CLKOUT d = natBits v 8 1 := by
  have hhbm : v % 4 % 2 ^ Fld.CLK_GATE_HBM.info.width = v % 4 := Nat.mod_mod v 4
  have hsal : natBits v 2 4 % 2 ^ Fld.CLK_GATE_SALLAN.info.width = natBits v 2 4 := Nat.mod_eq_of_lt (natBits_lt ..)
  have hfab : natBits v 6 1 % 2 ^ Fld.CLK_GATE_FAB.info.width = natBits v 6 1 := Nat.mod_eq_of_lt (natBits_lt ..)
  have hmeas : natBits v 7 1 % 2 ^ Fld.CLK_GATE_MEAS.info.width = natBits v 7 1 := Nat.mod_eq_of_lt (natBits_lt ..)
  have hout : natBits v 8 1 % 2 ^ Fld.CLK_GATE_CLKOUT.info.width = natBits v 8 1 := Nat.mod_eq_of_lt (natBits_lt ..)
  simp only [State.gatesPut, State.reg_setReg, Prod.mk.injEq, reduceCtorEq, false_and, if_false, if_true, and_self, hhbm, hsal,
    hfab, hmeas, hout]

theorem exec_clkGateWrite (hgrant : s.access src .CLK_GATE die 0 true = .granted)
    (hheld : s.hbmGate die (v.toNat % 4) = v.toNat % 4) : exec (.clkGateWrite src die v) s =
      .next ((List.range 9).foldl (fun s b => s.gated die b) (s.gatesPut die v.toNat)) := by
  rw [exec, execClkGateWrite, State.writeAs_granted hgrant]
  exact congrArg Host.Outcome.next (if_neg (not_not.mpr hheld))

end

end

end Sys2Proof.Machine

open Sys2Proof Sys2Proof.Machine

/-! ## The obligations -/

/-- Settles O49: each event is one lemma on `exec`; what a fold over a die's loops, domains or blocks leaves in one of them is the
change that this one makes of itself. -/
theorem clocksComplete : Obligations.ClocksComplete := by
  unfold Obligations.ClocksComplete
  intro src die clk up loop v v64 edges s
  dsimp only
  refine ⟨fun hdie => ?_, fun hdie => congrArg _ (if_neg (Nat.not_le.mpr hdie)), fun hready href => ?_, fun hgrant => ?_,
    fun hgrant => ⟨_, congrArg Host.Outcome.next (State.writeAs_granted hgrant _), fun k hk hready => ?_⟩,
    fun hgrant hv hidle hnew => ?_,
    fun hgrant hv hbusy => ?_, fun new hbusy hnext => ?_,
    fun hgrant hgo hgate hidle href hmeas => ⟨_, exec_clkMeasGo hgrant hgo hgate hidle href hmeas, List.mem_cons_self .., ?_⟩,
    fun hmem => ⟨_, exec_clkMeasDone hmem edges, ?_, ?_⟩,
    fun hgrant hout hcode hslow => ⟨_, exec_clkOutCtlWrite hgrant hout hcode hslow, ?_⟩, fun hgrant hheld => ?_,
    fun hgrant hheld => congrArg Host.Outcome.next ((State.writeAs_granted hgrant _).trans (if_pos hheld)),
    fun block hreach hdie hgate => ?_⟩
  · have hexec := exec_clockSourceFail hdie clk
    refine ⟨_, hexec, s.clockSourceFail_ready die clk, exec_leaves_hbm hexec rfl, fun l hl => ?_⟩
    have hview := s.clockSourceFail_view die clk hl
    obtain ⟨hlocked, hcoast⟩ := loopFailed_shows clk (s.loopView die l)
    exact ⟨(congrArg (·.2.1) hview).trans hlocked, (congrArg (·.2.2) hview).trans hcoast⟩
  · have hexec := exec_loopLock hready href
    obtain ⟨hlocked, hcoast⟩ := s.loopLocked_shows die loop.isLt
    have hregs : (s.loopLocked die loop).RegsBut stackFields (if s.coasting die loop = true ∧ loop.val = 1 then
        ((s.loopLocked die loop).relocked (2 * die)).relocked (2 * die + 1) else s.loopLocked die loop) :=
      .ite ((State.relocked_regsBut ..).trans (State.relocked_regsBut ..)) .refl
    have hview := hregs.loopView die loop
    refine ⟨_, hexec, (congrArg (·.2.1) hview).trans hlocked, (congrArg (·.2.2) hview).trans hcoast, exec_leaves_hbm hexec rfl,
      fun hwas hone h hh hstate => ?_⟩
    · rw [if_pos ⟨hwas, hone⟩]
      exact State.relocked_both hh (((s.loopLocked_regsBut die loop).same _ _ (by decide)).trans hstate)
  · refine ⟨_, exec_clkRefSelWrite hgrant, fun l hl => ?_⟩
    rw [State.xinMhz_loopRef _ _ _ (by decide), State.xinMhz_loopRef _ _ _ (by decide), State.foldl_refSel_ref _ _ _ hl]
  · have hview := s.foldl_srcSel_view die v64.toNat hk
    rw [hready, srcSelected_ready] at hview
    exact Prod.mk.inj hview
  · obtain ⟨hbusy, htargets⟩ := (s.fabPut die v.toNat).fabStart_shows die (fabAsked v.toNat)
    exact ⟨_, exec_clkFabFreqWrite_starts hgrant hv hidle hnew, hbusy, htargets.trans (s.fabPut_targets die hv)⟩
  · refine ⟨_, (exec_clkFabFreqWrite hgrant hv).trans (congrArg _ (if_pos (Option.isSome_iff_ne_none.mpr hbusy))), rfl, ?_, rfl⟩
    exact Tbl.getD_set_self ..
  · have hexec := exec_fabFreqSeqDone hbusy hnext
    obtain ⟨hnow, hdone, hrail⟩ := (s.fabReached die new).fabTurn_nil_shows die (fabRail new)
    rw [State.fabReached_power] at hnow hdone
    refine ⟨_, hexec, ?_, ?_, hrail, exec_leaves_hbm hexec rfl⟩
    · rw [State.fabNow, hnow]
      exact Tbl.getD_set_self ..
    · rw [hdone]
      exact Tbl.get?_erase_self ..
  · simp only [State.reg_setReg, Prod.mk.injEq, reduceCtorEq, false_and, if_false, if_true, Nat.zero_mod, and_self]
  · simp [State.setReg]
  · have hcount : min edges (2 ^ 32 - 1) % 2 ^ Fld.CLK_MEAS_RES_COUNT.info.width = min edges (2 ^ 32 - 1) :=
      Nat.mod_eq_of_lt ((Nat.min_le_right ..).trans_lt (by decide))
    have hdone : 1 % 2 ^ Fld.CLK_MEAS_RES_DONE.info.width = 1 := rfl
    have hovf : (if 2 ^ 32 ≤ edges then 1 else 0) % 2 ^ Fld.CLK_MEAS_RES_OVF.info.width = if 2 ^ 32 ≤ edges then 1 else 0 := by
      split <;> rfl
    simp only [State.reg_setReg, Prod.mk.injEq, reduceCtorEq, false_and, if_false, and_self, if_true, hcount, hdone, hovf]
  · exact s.clkOutPut_shows v.toNat
  · have hexec := exec_clkGateWrite hgrant hheld
    have hregs : (s.gatesPut die v.toNat).RegsBut gateFields
        ((List.range 9).foldl (fun s b => s.gated die b) (s.gatesPut die v.toNat)) :=
      .foldl (fun t b => t.gated_regsBut die b) _
    refine ⟨_, hexec, ?_⟩
    rw [hregs.same _ _ (by decide), hregs.same _ _ (by decide), hregs.same _ _ (by decide), hregs.same _ _ (by decide),
      hregs.same _ _ (by decide)]
    obtain ⟨hhbm, hsal, hfab, hmeas, hout⟩ := s.gatesPut_shows die v.toNat
    exact ⟨hhbm, hsal, hfab, hmeas, hout, exec_leaves_hbm hexec rfl⟩
  · simp only [exec, execGatedBlockAccess, hreach]
    exact congrArg Host.Outcome.next ((if_neg (Nat.not_le.mpr hdie)).trans (if_neg (Bool.eq_false_iff.mp hgate)))
end

section
/-! SUPPORT and PROOFS for 19_module.md: the power switch, the management pin, the coolant and the SMBus responder. -/

-- As in the architect's lemma files: one declaration at a time keeps the compile within check.sh's memory.
set_option Elab.async false

namespace Sys2Proof.Machine

section
variable {s : State}

/-! ## The switch (R419, R422, R423) -/

theorem State.alertState_latched (s : State) : s.alertState.module.latched = s.module.latched := by
  unfold State.alertState; split <;> rfl

theorem State.closeSwitch_off (s : State) : s.closeSwitch.module.off = false := State.alertState_off _

/-- A module whose switch is opened: reset, with the cause shown, and the trip counted where it is one that latches. -/
def State.tripped (s : State) (c : OffCause) : State :=
  if offLatched c then (s.moduleReset.setReg .MOD_STAT_LAST_OFF 0 (offCode c)).bump .MOD_STAT_TRIPS 0
  else s.moduleReset.setReg .MOD_STAT_LAST_OFF 0 (offCode c)

theorem State.tripped_shows (s : State) (c : OffCause) :
    (s.tripped c).reg .MOD_STAT_LAST_OFF 0 = offCode c ∧ (s.tripped c).cores = [] ∧ (s.tripped c).hbm = [] := by
  have hcode : offCode c % 2 ^ 3 = offCode c := by cases c <;> rfl
  have hlast : (s.moduleReset.setReg .MOD_STAT_LAST_OFF 0 (offCode c)).reg .MOD_STAT_LAST_OFF 0 = offCode c :=
    (State.reg_setReg_self ..).trans hcode
  unfold State.tripped
  split
  · exact ⟨(State.reg_bump_field _ _ _ _ _ (by decide)).trans hlast, s.moduleReset_cores, s.moduleReset_hbm⟩
  · exact ⟨hlast, s.moduleReset_cores, s.moduleReset_hbm⟩

theorem State.openSwitch_eq (hon : s.module.off = false) (c : OffCause) :
    s.openSwitch c = ((s.tripped c).modModule (fun m => { m with off := true, latched := offLatched c })).alertState :=
  if_neg (by rw [hon]; decide)

/-! ## The coolant (R426) -/

/-- The temperatures of the coolant as they are sampled. -/
def State.coolShown (s : State) (inlet outlet : Nat) : State :=
  (s.setReg .MOD_STAT_COOL_IN 0 (min inlet 255)).setReg .MOD_STAT_COOL_OUT 0 (min outlet 255)

/-- The alarm of a coolant that is too warm. -/
def State.coolJudged (s : State) (inlet outlet : Nat) : State :=
  if inlet + 20 ≤ outlet ∨ 60 ≤ outlet then (s.coolShown inlet outlet).setFlag .MOD_STAT_COOL_ALARM else s.coolShown inlet outlet

theorem State.setFlag_regsBut (s : State) (f : Fld) : s.RegsBut [f] (s.setFlag f) :=
  .ite .refl ((RegsBut.refl.setReg f 0 1 (List.mem_singleton_self f)).of_regs_eq rfl)

theorem State.setFlag_shows (s : State) {f : Fld} (hf : 1 % 2 ^ f.info.width = 1) : (s.setFlag f).regB f 0 = true := by
  unfold State.setFlag
  split
  · assumption
  · exact beq_iff_eq.mpr ((State.reg_setReg_self ..).trans hf)

theorem State.coolShown_shows (s : State) (inlet outlet : Nat) :
    (s.coolShown inlet outlet).reg .MOD_STAT_COOL_IN 0 = min inlet 255 ∧
    (s.coolShown inlet outlet).reg .MOD_STAT_COOL_OUT 0 = min outlet 255 := by
  have hfits (n : Nat) : min n 255 % 2 ^ 8 = min n 255 := by omega
  exact ⟨((State.reg_setReg_field _ _ _ _ _ _ (by decide)).trans (State.reg_setReg_self ..)).trans (hfits inlet),
    (State.reg_setReg_self ..).trans (hfits outlet)⟩

theorem State.coolJudged_regsBut (s : State) (inlet outlet : Nat) :
    (s.coolShown inlet outlet).RegsBut [.MOD_STAT_COOL_ALARM] (s.coolJudged inlet outlet) :=
  .ite (State.setFlag_regsBut ..) .refl

theorem exec_coolantSample (hon : s.module.off = false) {p : Nat} (hp : p < 4) (hruns : s.procRuns 0 p = true) (inlet outlet : Nat)
    (leak : Bool) : exec (.coolantSample inlet outlet leak) s =
      .next (if leak then (s.coolJudged inlet outlet).setFlag .MOD_STAT_LEAK else s.coolJudged inlet outlet) := by
  have hany : (List.range 4).any (s.procRuns 0) = true := List.any_eq_true.mpr ⟨p, List.mem_range.mpr hp, hruns⟩
  exact congrArg Host.Outcome.next (if_neg (by rw [hon, hany]; decide))

/-! ## The SMBus responder (R427 to R429) -/

/-- Bits that are set one by one. -/
theorem testBit_foldl_natSet (g : Nat → Bool) (n d : Nat) :
    ((List.range n).foldl (fun m d => natSet m d 1 (if g d then 1 else 0)) 0).testBit d = (decide (d < n) && g d) := by
  induction n with
  | zero => simp
  | succ n ih =>
    rw [List.range_succ, List.foldl_append, List.foldl_cons, List.foldl_nil, testBit_natSet, ih]
    rcases lt_trichotomy d n with h | rfl | h
    · simp [h, h.trans (Nat.lt_succ_self n)]
    · cases hg : g d <;> simp
    · simp [h.not_gt, show ¬ d < n + 1 by omega]

end

end Sys2Proof.Machine

open Sys2Proof Sys2Proof.Machine

/-! ## The obligations -/

/-- Settles O56: the switch's opening is a module reset with its cause shown; each other event is one branch of its command. -/
theorem moduleEventsComplete : Obligations.ModuleEventsComplete := by
  unfold Obligations.ModuleEventsComplete
  intro low junction outlet inlet vin cause leak s
  refine ⟨fun hon => ⟨_, congrArg Host.Outcome.next (State.openSwitch_eq hon cause), ?_⟩,
    fun hoff hfree => ⟨congrArg Host.Outcome.next (if_pos ⟨hoff, hfree⟩), s.closeSwitch_off⟩,
    fun hhot => congrArg Host.Outcome.next (if_pos hhot),
    fun hleast hshort => congrArg Host.Outcome.next ((if_neg (Nat.not_lt.mpr hleast)).trans (if_pos hshort)),
    fun hlong hfree hon => ?_, fun hlong hlatched hcool => ?_, fun hon hruns => ?_, rfl, rfl, ⟨_, rfl, rfl, rfl, rfl⟩, rfl,
    ⟨_, rfl, fun d _ => testBit_foldl_natSet s.dieLost s.dies d⟩, ⟨_, rfl, rfl, ?_, ?_⟩, rfl, rfl⟩
  · obtain ⟨hlast, hcores, hhbm⟩ := s.tripped_shows cause
    exact ⟨State.alertState_off _, State.alertState_latched _, (State.reg_alertState ..).trans hlast,
      (State.within_alertState _).cores.trans hcores, (State.within_alertState _).hbm.trans hhbm⟩
  · simp only [exec, execMgmtRstN, show ¬ low < 1000 by omega, show ¬ low < 10000 by omega, hfree, hon, Bool.false_eq_true,
      if_false]
  · simp only [exec, execMgmtRstN, show ¬ low < 1000 by omega, show ¬ low < 10000 by omega, hlatched, hcool, if_false, if_true]
  · obtain ⟨p, hp, hruns⟩ := hruns
    obtain ⟨hin, hout⟩ := s.coolShown_shows inlet outlet
    have hjudged := s.coolJudged_regsBut inlet outlet
    have hleak : (s.coolJudged inlet outlet).RegsBut [.MOD_STAT_LEAK]
        (if leak then (s.coolJudged inlet outlet).setFlag .MOD_STAT_LEAK
        else s.coolJudged inlet outlet) := .ite (State.setFlag_regsBut ..) .refl
    refine ⟨_, exec_coolantSample hon hp hruns inlet outlet leak, ?_, ?_, fun halarm => ?_, fun hleaks => ?_⟩
    · rw [hleak.same _ _ (by decide), hjudged.same _ _ (by decide), hin]
    · rw [hleak.same _ _ (by decide), hjudged.same _ _ (by decide), hout]
    · rw [State.regB, hleak.same _ _ (by decide), ← State.regB, State.coolJudged, if_pos halarm]
      exact State.setFlag_shows _ rfl
    · rw [if_pos hleaks]
      exact State.setFlag_shows _ rfl
  · exact congrArg (· == 1) ((State.reg_setReg_field _ .MOD_STAT_COOL_ALARM .MOD_STAT_LEAK 0 0 0 (by decide)).trans
      (State.reg_setReg_self ..))
  · exact congrArg (· == 1) (State.reg_setReg_self ..)
end

section
/-! SUPPORT and PROOFS for 18_sallan_links.md: detection, the choice of the width, the rungs of a training, retraining and test. -/

-- As in the architect's lemma files: one declaration at a time keeps the compile within check.sh's memory.
set_option Elab.async false

namespace Sys2Proof.Machine

section
variable {s : State} {d p : Nat}

/-! ## A port's state (R405) -/

theorem State.salp_congr {t : State} (h : t.sal = s.sal) (d p : Nat) : t.salp d p = s.salp d p := by simp only [State.salp, h]

/-- The registers that a port's change of state may change. -/
def salStateFields : List Fld := .SAL_PORT_STAT_STATE :: messageFields

theorem State.salEnter_regsBut (s : State) (d p v : Nat) : s.RegsBut salStateFields (s.salEnter d p v) :=
  .ite .refl ((RegsBut.refl.setReg ..).andThen (State.raise_regsBut ..))

theorem State.within_salEnter (s : State) (d p v : Nat) : s.Within [.regs, .helm] (s.salEnter d p v) :=
  State.salEnter_within (.refl _ s) d p v (by decide) (by decide)

theorem State.salEnter_st (s : State) (d p : Nat) {v : Nat} (hv : v < 8) : (s.salEnter d p v).salSt d p = v := by
  unfold State.salEnter
  split
  · assumption
  · rw [State.salSt, (State.raise_regsBut ..).same _ _ (by decide), State.reg_setReg_self]
    exact Nat.mod_eq_of_lt hv

theorem State.salEnter_salp (s : State) (d p v : Nat) : (s.salEnter d p v).salp d p = s.salp d p :=
  State.salp_congr (s.within_salEnter d p v).sal d p

theorem State.RegsBut.salSt {t : State} {l : List Fld} (h : s.RegsBut l t) (d p : Nat)
    (hst : Fld.SAL_PORT_STAT_STATE ∉ l := by decide) : t.salSt d p = s.salSt d p := h.same _ _ hst

/-! ## Detection and the choice of the width (R406, R407) -/

theorem State.salUnseen_salp (s : State) (d p : Nat) : (s.salUnseen d p).salp d p = s.salp d p := by
  unfold State.salUnseen
  split <;> rfl

theorem State.salDetect_st (s : State) (d p : Nat) : (s.salDetect d p).salSt d p = 1 := State.salEnter_st _ _ _ (by decide)

theorem State.salDetect_salp (s : State) (d p : Nat) : (s.salDetect d p).salp d p =
    { s.salp d p with good := [], rung := 0, passed := none, used := 0, due := false } := by
  rw [State.salDetect, State.salEnter_salp, State.salp_modSal, State.salUnseen_salp]

/-- A bring-up from UP, from a retraining or from a test forgets what was known of the peer (log 42). -/
theorem State.salDetect_unseen (h : s.salSt d p = 3 ∨ s.salSt d p = 4 ∨ s.salSt d p = 5) :
    (s.salDetect d p).reg .SAL_PORT_PEER_VALID (d * 4 + p) = 0 := by
  have hleft : [3, 4, 5].contains (s.salSt d p) = true := by rcases h with h | h | h <;> rw [h] <;> rfl
  refine ((State.salEnter_regsBut ..).same _ _ (by decide)).trans ?_
  rw [State.salUnseen, if_pos hleft]
  exact State.reg_setReg_self ..

/-- What a detection shows of the lanes that no raw lane uses: their faults and their order. -/
def State.lanesShown (s : State) (d p : Nat) (res : DetectResult) : State :=
  (((List.range 8).filter (fun j => !(s.salp d p).rawUp.contains j)).foldl (fun s j => s.noteLane d p res j)
    (s.sayHello d p res)).setReg .SAL_PORT_STAT_REV (d * 4 + p) (if res.order = .reversed then 1 else 0)

/-- The lanes that it finds good are the port's, and the raw lanes begin their training. -/
def State.lanesNoted (s : State) (d p : Nat) (res : DetectResult) : State :=
  ((s.lanesShown d p res).modSal d p (fun q => { q with good := goodLanes res })).rawStart d p res

theorem State.lanesShown_within (s : State) (d p : Nat) (res : DetectResult) :
    (s.sayHello d p res).Within [.regs] (s.lanesShown d p res) := by
  refine State.setReg_within (State.within_foldl _ _ (.refl _ _) fun _ _ h => ?_) _ _ _ (by decide)
  exact State.setReg_within (State.setReg_within (State.setReg_within h _ _ _ (by decide)) _ _ _ (by decide)) _ _ _ (by decide)

theorem State.rawStart_salp (s : State) (d p : Nat) (res : DetectResult) :
    ((s.rawStart d p res).salp d p).width = (s.salp d p).width ∧ ((s.rawStart d p res).salp d p).good = (s.salp d p).good := by
  rw [State.rawStart, State.salp_modSal]
  exact ⟨rfl, rfl⟩

theorem State.lanesNoted_salp (s : State) (d p : Nat) (res : DetectResult) :
    ((s.lanesNoted d p res).salp d p).width = (s.salp d p).width ∧ ((s.lanesNoted d p res).salp d p).good = goodLanes res := by
  obtain ⟨hwidth, hgood⟩ := ((s.lanesShown d p res).modSal d p (fun q => { q with good := goodLanes res })).rawStart_salp d p res
  rw [State.salp_modSal] at hwidth hgood
  refine ⟨hwidth.trans ?_, hgood⟩
  rw [State.salp_congr (s.lanesShown_within d p res).sal]
  rfl

theorem State.rawStart_out (s : State) (d p : Nat) (res : DetectResult) : (s.rawStart d p res).out = s.out := rfl

theorem State.lanesNoted_out (s : State) (d p : Nat) (res : DetectResult) :
    (s.lanesNoted d p res).out = (s.sayHello d p res).out := by
  rw [State.lanesNoted, State.rawStart_out]
  exact (s.lanesShown_within d p res).out

/-- What a detection that saw a peer notes: its lanes, and the peer. -/
def State.peerNoted (s : State) (d p : Nat) (res : DetectResult) : State := (s.lanesNoted d p res).notePeer d p res

theorem State.notePeer_salp (s : State) (d p : Nat) (res : DetectResult) :
    (s.notePeer d p res).salp d p = { s.salp d p with peerWidth := res.peerWidth } := by
  rw [State.notePeer, State.salp_modSal]
  rfl

theorem State.peerNoted_salp (s : State) (d p : Nat) (res : DetectResult) :
    ((s.peerNoted d p res).salp d p).width = (s.salp d p).width ∧ ((s.peerNoted d p res).salp d p).good = goodLanes res := by
  rw [State.peerNoted, State.notePeer_salp]
  exact s.lanesNoted_salp d p res

theorem State.notePeer_pkg (s : State) (d p : Nat) (res : DetectResult) :
    (s.notePeer d p res).reg .SAL_PORT_PEER_PKG (d * 4 + p) = res.peerPkg.toNat := by
  have h : (s.setReg .SAL_PORT_PEER_PKG (d * 4 + p) res.peerPkg.toNat).RegsBut
      [.SAL_PORT_PEER_DIE, .SAL_PORT_PEER_PORT, .SAL_PORT_PEER_PVALID, .SAL_PORT_PEER_VALID] (s.notePeer d p res) :=
    ((((RegsBut.refl.setReg ..).setReg ..).setReg ..).setReg ..).of_regs_eq rfl
  exact (h.same _ _ (by decide)).trans ((State.reg_setReg_self ..).trans (Nat.mod_eq_of_lt res.peerPkg.isLt))

theorem State.notePeer_out (s : State) (d p : Nat) (res : DetectResult) : (s.notePeer d p res).out = s.out := rfl

theorem State.peerNoted_out (s : State) (d p : Nat) (res : DetectResult) :
    (s.peerNoted d p res).out = (s.sayHello d p res).out := by
  rw [State.peerNoted, State.notePeer_out, State.lanesNoted_out]

/-- The width that is trained, before the port enters TRAINING. -/
def State.widthChosen (s : State) (d p n : Nat) : State :=
  ((s.modSal d p (fun q => { q with used := n, rung := 0, passed := none })).setReg .SAL_PORT_STAT_WIDTH (d * 4 + p)
    (widthCode n)).setReg .SAL_PORT_STAT_RATE (d * 4 + p) 0

/-- A width for which the good lanes suffice is the one that is trained. -/
theorem State.chooseWidth_some {n : Nat} (h : widest (laneCount (s.salp d p).width) (s.salp d p).good = some n) :
    s.chooseWidth d p = (s.widthChosen d p n).salEnter d p 2 := by
  simp only [State.chooseWidth, h]
  rfl

theorem State.widthChosen_salp (s : State) (d p n : Nat) :
    (s.widthChosen d p n).salp d p = { s.salp d p with used := n, rung := 0, passed := none } :=
  (State.salp_congr (s := s.modSal d p (fun q => { q with used := n, rung := 0, passed := none })) rfl d p).trans
    (State.salp_modSal ..)

theorem State.widthChosen_out (s : State) (d p n : Nat) : (s.widthChosen d p n).out = s.out := rfl

theorem State.widthChosen_width (s : State) (d p n : Nat) :
    (s.widthChosen d p n).reg .SAL_PORT_STAT_WIDTH (d * 4 + p) = widthCode n % 8 :=
  (State.reg_setReg_field _ _ _ _ _ _ (by decide)).trans (State.reg_setReg_self ..)

theorem State.widthChosen_regsBut (s : State) (d p n : Nat) :
    s.RegsBut [.SAL_PORT_STAT_WIDTH, .SAL_PORT_STAT_RATE] (s.widthChosen d p n) :=
  .trans (t := s.modSal d p (fun q => { q with used := n, rung := 0, passed := none })) (.of_regs rfl)
    ((RegsBut.refl.setReg ..).setReg ..)

/-- No lane, no width. -/
theorem widest_nil (w : Nat) : widest w [] = none := by
  simp [widest, List.range_succ]

theorem exec_sallanDetectDone {die : Fin 8} {sp : Fin 4} {res : DetectResult} {n : Nat} (hlive : s.salLive die sp = true)
    (hst : s.salSt die sp = 1) (horder : res.order ≠ .other) (hwidth : res.peerWidth = (s.salp die sp).width)
    (hwidest : widest (laneCount (s.salp die sp).width) (goodLanes res) = some n) :
    exec (.sallanDetectDone die sp res) s = .next (((s.peerNoted die sp res).widthChosen die sp n).salEnter die sp 2) := by
  have hseen : (goodLanes res).isEmpty = false := by
    cases hgood : goodLanes res with
    | nil => rw [hgood, widest_nil] at hwidest; cases hwidest
    | cons => rfl
  obtain ⟨hnwidth, hngood⟩ := s.peerNoted_salp die sp res
  rw [← State.chooseWidth_some (hnwidth.symm ▸ hngood.symm ▸ hwidest)]
  simp only [exec, execSallanDetectDone, hlive, hst, hseen, horder, Bool.not_true, Bool.not_false, Bool.false_eq_true, ne_eq,
    not_true_eq_false, true_and, if_false, if_true]
  exact congrArg Host.Outcome.next (if_neg (not_not.mpr (hwidth.trans hnwidth.symm)))

theorem State.sayHello_says (s : State) (d p : Nat) (res : DetectResult) : ∃ bad, Out.hello d p ((s.salp d p).pkg % 65536)
    (decide (65536 ≤ (s.salp d p).pkg)) (s.salp d p).width bad ∈ (s.sayHello d p res).out :=
  ⟨_, List.mem_append_right _ (List.mem_singleton_self _)⟩

/-- What a port shows that enters TRAINING, and what it has said to its peer. -/
theorem State.training_shows (s : State) (d p n : Nat) (res : DetectResult) :
    let t := ((s.peerNoted d p res).widthChosen d p n).salEnter d p 2
    t.salSt d p = 2 ∧ (t.salp d p).used = n ∧ (t.salp d p).good = goodLanes res ∧ (t.salp d p).rung = 0 ∧
    t.reg .SAL_PORT_STAT_WIDTH (d * 4 + p) = widthCode n % 8 ∧ t.reg .SAL_PORT_PEER_PKG (d * 4 + p) = res.peerPkg.toNat ∧
    ∃ bad, .hello d p ((s.salp d p).pkg % 65536) (decide (65536 ≤ (s.salp d p).pkg)) (s.salp d p).width bad ∈ t.out := by
  intro t
  have hregs := ((s.peerNoted d p res).widthChosen d p n).salEnter_regsBut d p 2
  have hsalp : t.salp d p = { (s.peerNoted d p res).salp d p with used := n, rung := 0, passed := none } :=
    (State.salEnter_salp ..).trans (State.widthChosen_salp ..)
  refine ⟨State.salEnter_st _ _ _ (by decide), ?_, ?_, ?_, ?_, ?_, ?_⟩
  · rw [hsalp]
  · rw [hsalp]
    exact (s.peerNoted_salp d p res).2
  · rw [hsalp]
  · exact (hregs.same _ _ (by decide)).trans (State.widthChosen_width ..)
  · exact (hregs.same _ _ (by decide)).trans (((State.widthChosen_regsBut ..).same _ _ (by decide)).trans (State.notePeer_pkg ..))
  · rw [(State.within_salEnter _ d p 2).out, State.widthChosen_out, State.peerNoted_out]
    exact s.sayHello_says d p res

/-! ## The rungs of a training (R408) -/

/-- A port without what stands of its raw lanes. -/
def SalPort.linked (q : SalPort) : SalPort := { q with rawUp := [], rawRung := [] }

theorem State.rawDwell_linked (s : State) (d p : Nat) (r : DwellResult) (e : Nat × Nat) :
    ((s.rawDwell d p r e).salp d p).linked = (s.salp d p).linked := by
  unfold State.rawDwell
  extract_lets up
  split_ifs <;> first | rfl | (simp only [up, State.salp_modSal]; rfl)

/-- The registers in which a dwell notes the errors of its lanes and the faults of its raw ones. -/
def dwellFields : List Fld := [.SAL_LANE_STAT_PRBS_ERR, .SAL_LANE_STAT_FAULT]

theorem State.noteErrs_regsBut (s : State) (d p : Nat) (l errs : List Nat) : s.RegsBut dwellFields (s.noteErrs d p l errs) :=
  .foldl (fun _ _ => RegsBut.refl.setReg ..) l

theorem State.noteErrs_salp (s : State) (d p : Nat) (l errs : List Nat) : (s.noteErrs d p l errs).salp d p = s.salp d p :=
  State.salp_congr (State.within_foldl (l := [.regs]) l _ (.refl _ s) fun _ _ h => State.setReg_within h _ _ _ (by decide)).sal d p

theorem State.rawDwell_regsBut (s : State) (d p : Nat) (r : DwellResult) (e : Nat × Nat) :
    s.RegsBut dwellFields (s.rawDwell d p r e) :=
  .ite (.ite (.of_regs rfl) (.of_regs rfl)) (.ite ((RegsBut.refl.setReg ..).of_regs_eq rfl) (.of_regs rfl))

/-- The port as a dwell has dealt with its raw lanes, and noted the errors of the lanes in use. -/
def State.dwelt (s : State) (d p : Nat) (r : DwellResult) : State :=
  ((s.salp d p).rawRung.foldl (fun s e => s.rawDwell d p r e) (s.noteErrs d p ((s.salp d p).rawRung.map (·.1)) r.errs)).noteErrs
    d p (List.range (s.salp d p).used) r.errs

theorem State.dwelt_regsBut (s : State) (d p : Nat) (r : DwellResult) : s.RegsBut dwellFields (s.dwelt d p r) :=
  ((s.noteErrs_regsBut ..).trans (.foldl (fun t e => t.rawDwell_regsBut d p r e) _)).trans (State.noteErrs_regsBut ..)

theorem State.dwelt_linked (s : State) (d p : Nat) (r : DwellResult) : ((s.dwelt d p r).salp d p).linked = (s.salp d p).linked := by
  have hfold (l : List (Nat × Nat)) (t : State) :
      ((l.foldl (fun s e => s.rawDwell d p r e) t).salp d p).linked = (t.salp d p).linked := by
    induction l generalizing t with
    | nil => rfl
    | cons e l ih => exact (ih _).trans (t.rawDwell_linked d p r e)
  rw [State.dwelt, State.noteErrs_salp, hfold, State.noteErrs_salp]

theorem State.dwelt_rung (s : State) (d p : Nat) (r : DwellResult) : ((s.dwelt d p r).salp d p).rung = (s.salp d p).rung :=
  (congrArg SalPort.rung (s.dwelt_linked d p r) :)

theorem exec_sallanRungDwellDone {die : Fin 8} {sp : Fin 4} (hlive : s.salLive die sp = true) (hst : s.salSt die sp = 2)
    (r : DwellResult) : exec (.sallanRungDwellDone die sp r) s = .next ((s.dwelt die sp r).roseDwell die sp r) := by
  have hraw : s.RegsBut dwellFields ((s.salp die sp).rawRung.foldl (fun s e => s.rawDwell die sp r e)
      (s.noteErrs die sp ((s.salp die sp).rawRung.map (·.1)) r.errs)) :=
    (s.noteErrs_regsBut ..).trans (.foldl (fun t e => t.rawDwell_regsBut die sp r e) _)
  exact congrArg Host.Outcome.next ((if_neg (by rw [hlive]; decide)).trans (if_pos ((hraw.salSt die sp).trans hst)))

/-- A port that goes on to the next rung of its training. -/
def State.climbed (s : State) (d p : Nat) : State :=
  (s.modSal d p (fun q => { q with passed := some (s.salp d p).rung, rung := (s.salp d p).rung + 1 })).setReg .SAL_PORT_STAT_RATE
    (d * 4 + p) ((s.salp d p).rung + 1)

theorem State.climbed_shows (s : State) (d p : Nat) : ((s.climbed d p).salp d p).rung = (s.salp d p).rung + 1 ∧
    ((s.climbed d p).salp d p).passed = some (s.salp d p).rung ∧ (s.climbed d p).salSt d p = s.salSt d p := by
  have hsalp := (State.salp_congr (s := s.modSal d p
    (fun q => { q with passed := some (s.salp d p).rung, rung := (s.salp d p).rung + 1 }))
    (t := s.climbed d p) rfl d p).trans (State.salp_modSal ..)
  rw [hsalp]
  exact ⟨rfl, rfl, State.reg_setReg_field _ _ _ _ _ _ (by decide)⟩

/-- A dwell in which no lane in use fails leads to the next rung, or to UP. -/
theorem State.roseDwell_passes {r : DwellResult} (h : ∀ j, j < (s.salp d p).used → s.dwellFails d p r j = false) :
    s.roseDwell d p r = if (s.salp d p).rung < s.maxRung d p ∧ r.climb = true then s.climbed d p
      else s.salUp d p (s.salp d p).rung := by
  have hnone : (List.range (s.salp d p).used).filter (s.dwellFails d p r) = [] :=
    List.filter_eq_nil_iff.mpr fun j hj => by rw [h j (List.mem_range.mp hj)]; decide
  have hclimb : (s.modSal d p (fun q => { q with passed := some q.rung, rung := q.rung + 1 })).setReg .SAL_PORT_STAT_RATE
      (d * 4 + p) ((s.salp d p).rung + 1) = s.climbed d p := rfl
  simp only [State.roseDwell, hnone, List.isEmpty_nil, if_true, hclimb]

/-- The dwell as it is judged: the port's lanes, its rung and its limits are as before it. -/
theorem State.roseDwell_dwelt {r : DwellResult}
    (h : ∀ j, j < (s.salp d p).used → r.errs.getD j 0 ≤ s.maxErr d p ∧ r.far.getLsbD j = false) :
    (s.dwelt d p r).roseDwell d p r = if (s.salp d p).rung < s.maxRung d p ∧ r.climb = true then (s.dwelt d p r).climbed d p
      else (s.dwelt d p r).salUp d p (s.salp d p).rung := by
  have hused : ((s.dwelt d p r).salp d p).used = (s.salp d p).used := (congrArg SalPort.used (s.dwelt_linked d p r) :)
  have herr : (s.dwelt d p r).maxErr d p = s.maxErr d p := (s.dwelt_regsBut d p r).same _ _ (by decide)
  have hmax : (s.dwelt d p r).maxRung d p = s.maxRung d p := (s.dwelt_regsBut d p r).same _ _ (by decide)
  have hpass (j : Nat) (hj : j < ((s.dwelt d p r).salp d p).used) : (s.dwelt d p r).dwellFails d p r j = false := by
    obtain ⟨herrs, hfar⟩ := h j (hused ▸ hj)
    rw [State.dwellFails, herr, hfar, decide_eq_false (Nat.not_lt.mpr herrs)]
    rfl
  rw [State.roseDwell_passes hpass, State.dwelt_rung, hmax]

/-! ## UP, retraining and test (R409, R411, R417) -/

theorem State.resend_regsBut (s : State) (d p : Nat) (l : List (Nat × Packet)) :
    s.RegsBut [.SAL_PORT_ERR_REPLAYS] (s.resend d p l) :=
  (RegsBut.foldl (fun _ _ => RegsBut.refl.send _) l).bumpN ..

theorem State.salUp_shows (s : State) (d p rung : Nat) :
    (s.salUp d p rung).salSt d p = 3 ∧ (s.salUp d p rung).reg .SAL_PORT_STAT_RATE (d * 4 + p) = rung % 4 := by
  unfold State.salUp
  extract_lets i again u
  have hsent := u.resend_regsBut d p again
  refine ⟨(hsent.salSt d p).trans (State.salEnter_st _ _ _ (by decide)), (hsent.same _ _ (by decide)).trans ?_⟩
  exact ((State.salEnter_regsBut ..).same _ _ (by decide)).trans (State.reg_setReg_self ..)

theorem State.salRetrain_shows (s : State) (d p : Nat) : (s.salRetrain d p).salSt d p = 4 ∧
    (s.salRetrain d p).salp d p = { s.salp d p with retraining := true } := by
  refine ⟨State.salEnter_st _ _ _ (by decide), ?_⟩
  rw [State.salRetrain, State.salEnter_salp, State.salp_modSal]
  rfl

theorem State.salRetrain_regsBut (s : State) (d p : Nat) :
    s.RegsBut (.SAL_PORT_STAT_RETRAINS :: salStateFields) (s.salRetrain d p) :=
  .andThen (t := (s.bump .SAL_PORT_STAT_RETRAINS (d * 4 + p)).modSal d p (fun q => { q with retraining := true }))
    ((RegsBut.refl.bump ..).of_regs_eq rfl) (State.salEnter_regsBut ..)

/-- A short on a lane in use of a port that may retrain: it does, without the lane (R409). -/
theorem State.laneShort_shows {lane : Nat} (hused : lane < (s.salp d p).used) (hmay : s.mayRetrain d p = true) (supply : Bool) :
    (s.laneShort d p lane supply).salSt d p = 4 ∧
    (s.laneShort d p lane supply).reg .SAL_LANE_STAT_FAULT (laneNo d p lane) = (if supply then 3 else 2) ∧
    lane ∉ ((s.laneShort d p lane supply).salp d p).good := by
  let u := s.setReg .SAL_LANE_STAT_FAULT (laneNo d p lane) (if supply then 3 else 2)
  have hmay' : u.mayRetrain d p = true := by
    have hst : u.salSt d p = s.salSt d p := State.reg_setReg_field _ _ _ _ _ _ (by decide)
    rw [State.mayRetrain, hst, ← State.mayRetrain, hmay]
  have hlost : u.laneLost d p lane = u.salRetrain d p := if_pos ⟨hused, hmay'⟩
  have hshort : s.laneShort d p lane supply = (u.salRetrain d p).modSal d p
      (fun q => { q with rawRung := Tbl.erase q.rawRung lane, good := q.good.filter (· != lane) }) := by
    rw [← hlost]
    rfl
  rw [hshort, State.salp_modSal]
  refine ⟨(u.salRetrain_shows d p).1, ?_, by simp⟩
  refine ((u.salRetrain_regsBut d p).same _ _ (by decide)).trans ((State.reg_setReg_self ..).trans ?_)
  cases supply <;> rfl

/-- A test begins with its error counts at 0. -/
theorem State.noteErrs_zero (s : State) (d p : Nat) {n j : Nat} (hj : j < n) :
    (s.noteErrs d p (List.range n) []).reg .SAL_LANE_STAT_PRBS_ERR (laneNo d p j) = 0 := by
  refine State.foldl_each (P := fun j t => t.reg .SAL_LANE_STAT_PRBS_ERR (laneNo d p j) = 0) (fun t i => ?_) (fun t i j ht => ?_) s
    (List.range n) j (List.mem_range.mpr hj)
  · exact State.reg_setReg_self ..
  · rw [State.reg_setReg]
    split
    · rfl
    · exact ht

end

end Sys2Proof.Machine

open Sys2Proof Sys2Proof.Machine

/-! ## The obligations -/

/-- Settles O42: each event is one lemma on `exec`, with what the state that it enters shows; what a dwell notes before it is judged
changes nothing that the judgement reads. -/
theorem sallanBringupComplete : Obligations.SallanBringupComplete := by
  unfold Obligations.SallanBringupComplete
  intro die sp s
  dsimp only
  have hretrain (h : s.mayRetrain die sp = true) :
      (if s.mayRetrain die sp then s.salRetrain die sp else s) = s.salRetrain die sp := if_pos h
  refine ⟨fun hdue => congrArg Host.Outcome.next (if_pos hdue), ⟨s.salDetect_st die sp, ?_, State.salDetect_unseen⟩,
    fun res n hlive hst horder hwidth hwidest => ?_, fun res hlive hst hpass hbelow hclimb => ?_,
    fun res hlive hst hpass htop => ?_, fun hlive hen hst hretry => ?_, fun hmay => congrArg Host.Outcome.next (hretrain hmay),
    fun lane hused hmay => congrArg Host.Outcome.next (if_pos ⟨hused, hmay⟩),
    fun lane hother hraw => congrArg Host.Outcome.next ((if_neg hother).trans (if_pos hraw)),
    fun lane supply hlive hused hmay => ⟨_, congrArg Host.Outcome.next (if_pos hlive), State.laneShort_shows hused hmay supply⟩,
    fun src hgrant hmay => congrArg Host.Outcome.next ((State.writeAs_granted hgrant _).trans (hretrain hmay)), fun hst => ⟨?_, ?_⟩,
    fun src hgrant hst => ⟨_, congrArg Host.Outcome.next ((State.writeAs_granted hgrant _).trans (if_neg (not_not.mpr hst))),
      State.salEnter_st _ _ _ (by decide), fun j hj _ => ?_⟩,
    fun src hgrant hst => ⟨_, congrArg Host.Outcome.next ((State.writeAs_granted hgrant _).trans (if_neg (not_not.mpr hst))),
      (State.salRetrain_shows ..).1, congrArg SalPort.retraining (State.salRetrain_shows ..).2⟩⟩
  · rw [s.salDetect_salp]
  · have hexec := exec_sallanDetectDone hlive hst horder hwidth hwidest
    obtain ⟨hst', hused, hgood, hrung, hwidth', hpkg, hsays⟩ := s.training_shows die sp n res
    exact ⟨_, hexec, hst', hused, hgood, hrung, hwidth', hpkg, exec_leaves_hbm hexec rfl, hsays⟩
  · obtain ⟨hrung, hpassed, hst'⟩ := (s.dwelt die sp res).climbed_shows die sp
    rw [s.dwelt_rung] at hrung hpassed
    exact ⟨_, (exec_sallanRungDwellDone hlive hst res).trans (congrArg Host.Outcome.next ((State.roseDwell_dwelt hpass).trans
      (if_pos ⟨hbelow, hclimb⟩))), hrung, hpassed, hst'.trans (((s.dwelt_regsBut die sp res).salSt die sp).trans hst)⟩
  · have hlast : ¬ ((s.salp die sp).rung < s.maxRung die sp ∧ res.climb = true) := by
      rintro ⟨hbelow, hclimb⟩
      rcases htop with h | h
      · exact Nat.not_lt.mpr h hbelow
      · rw [hclimb] at h; cases h
    exact ⟨_, (exec_sallanRungDwellDone hlive hst res).trans (congrArg Host.Outcome.next
      ((State.roseDwell_dwelt hpass).trans (if_neg hlast))),
      State.salUp_shows ..⟩
  · refine congrArg Host.Outcome.next (if_pos ?_)
    simp only [hlive, hen, hst, BEq.rfl, Bool.and_self, Bool.true_and, bne_iff_ne]
    exact hretry
  · exact congrArg Host.Outcome.next ((if_neg (not_not.mpr hst)).trans (if_pos rfl))
  · exact congrArg Host.Outcome.next ((if_neg (not_not.mpr hst)).trans (if_neg (by decide)))
  · exact ((State.salEnter_regsBut ..).same _ _ (by decide)).trans (State.noteErrs_zero s die sp hj)
end
